-- ==== Sys2Proof/Word.lean ====
section
/-! DEFINITION. The plainest word types of the model. -/

namespace Sys2Proof

/-- One byte of a packet, a record, a FIFO or the array. -/
abbrev Byte := BitVec 8

/-- A 16-bit word (handles, command sequence numbers, wheel slot maps). -/
abbrev W16 := BitVec 16

/-- A 32-bit word (frame numbers, host window registers). -/
abbrev W32 := BitVec 32

/-- A polder number, 0 to 7 (R19, R25); polder 0 is the owner. -/
abbrev PolId := Fin 8

/-- Ticks per second of the sub-second counter SUB (R12, R109). -/
def ticksPerSec : Nat := 400000000

/-- An exact fraction; `den` is never 0 in a value the model forms. -/
structure Frac where
  num : Int
  den : Nat
  deriving DecidableEq, Repr

/-- The time base word TB (R109): SEC and SUB. -/
structure Tb where
  sec : BitVec 32
  sub : BitVec 29
  deriving DecidableEq, Repr

end Sys2Proof
end

