-- ==== Sys2Proof/Syntax.lean ====
section
/-! DEFINITION. The commands the node takes: one constructor of `Instr` per row of spec/opcode_table.json,
with the operands the spec gives the step, and the plain data those operands are made of. -/

namespace Sys2Proof

/-- A transport that carries packets (R371): the host port, or a line port with the peer's address. -/
inductive Path where
  | host
  | line (peer : BitVec 12)
  deriving DecidableEq, Repr

/-- A packet on its transport (R338): its bytes as they arrive, and where it came from. -/
structure Packet where
  bytes : List Byte
  path : Path
  deriving DecidableEq, Repr

/-- The sender's side of a command row: the polder, MORE and HANDLE of the packet, and its transport (R338, R356, R368). -/
structure Req where
  pol : PolId
  more : Bool
  handle : W16
  path : Path
  deriving DecidableEq, Repr

/-- The two line ports (R45). -/
inductive Port where
  | a
  | b
  deriving DecidableEq, Repr

/-- What one converter meets in a read (R211, R214): its column voltage in the conversion-gain phase, in code steps at HCG, and the
PIX tick of the ramp at which its comparator trips on the signal sample, at HCG and at LCG; beyond the ramp phase it has not tripped. -/
structure Conversion where
  gainLevel : Nat
  tripHcg : Nat
  tripLcg : Nat
  deriving DecidableEq, Repr

/-- The four check conversions of one converter in a blank interval (R225), as ramp ticks: two at the low level, two at the high. -/
structure CheckConv where
  low0 : Nat
  low1 : Nat
  high0 : Nat
  high1 : Nat
  deriving DecidableEq, Repr

/-- The ramp ticks of measurements A and B of one converter (R252, R259): at the low and at the high level. -/
structure TrimMeas where
  lowA : List Nat
  highA : List Nat
  lowB : List Nat
  highB : List Nat
  deriving DecidableEq, Repr

/-- A received line frame (R469 to R471): the port, the data slot it was sent in (`none`: contention or the beacon slot), and its
bits from the start delimiter on, in the order and polarity received. -/
structure LineRx where
  port : Port
  slot : Option (Fin 63)
  bits : List Bool
  deriving DecidableEq, Repr

/-- The fields of a BEACON (R492), less reserved bits and the CMAC. -/
structure BeaconFields where
  cycle : W32
  segment : BitVec 6
  rank : Byte
  keyId : Byte
  fabricReeve : Bool
  timeValid : Bool
  phaseValid : Bool
  reeveId : BitVec 64
  held : BitVec 64
  present : BitVec 64
  lend : BitVec 64
  bridges : BitVec 64
  grantId : BitVec 64
  grantSlot : Byte
  hops : Byte
  fabPeriod : W32
  tbTx : BitVec 64
  phaseEdge : BitVec 64
  phasePeriod : W32
  deriving DecidableEq, Repr

/-- The fields of a JOIN (R493), less the CMAC. -/
structure JoinFields where
  uid : BitVec 64
  addr : BitVec 12
  unaddressed : Bool
  mismatch : Bool
  conflict : Bool
  reclaim : Bool
  keyId : Byte
  lc : Byte
  rank : Byte
  portMode : Byte
  fwMajor : Byte
  fwMinor : Byte
  deriving DecidableEq, Repr

/-- The fields of a DRAIN or DRAIN_DONE (R502), less the CMAC. -/
structure DrainFields where
  segS : BitVec 6
  segU : BitVec 6
  oldClaimant : BitVec 12
  marker : W16
  deriving DecidableEq, Repr

/-- A role that ROLE_SWAP moves (R445). -/
inductive SwapRole where
  | segment
  | fabric
  deriving DecidableEq, Repr

/-- The straps as they read at a sampling instant (R57 to R59). -/
structure Straps where
  commissionLow : Bool
  adr0High : Bool
  adr1High : Bool
  deriving DecidableEq, Repr

/-- What the start-up finds when the sequencer is about to run (R617, R567, R607): the blocks March C− fails,
and, per image, whether its digest equals DIGEST and its signature verifies again. -/
structure StartFindings where
  failedBlocks : BitVec 16
  digestOk0 : Bool
  sigOk0 : Bool
  digestOk1 : Bool
  sigOk1 : Bool
  deriving DecidableEq, Repr

/-- The readings of one thermal run (R576, R577, R586): the 13 monitor currents in 0.1 mA, each domain's
clock-active cycles in the last 1 ms, the module draw in mW and the VAUX current in 0.1 mA. -/
structure ThermReadings where
  currents : List Nat
  activeCycles : List Nat
  moduleDraw : Nat
  vauxCurrent : Nat
  deriving DecidableEq, Repr

/-- The host transport of a transaction (R626). -/
inductive HostBus where
  | spi
  | i2c
  deriving DecidableEq, Repr

/-- How a wake word names its target (R503, R504). -/
abbrev WakeTarget := BitVec 12

/-- What a tester does through the JTAG ARRAY instruction (R246, R271, R611, R614): reads a page by array address, programs a page, or
programs a whole copy slot of MFG or TRIMTAB with a marker whose GEN is above every other, whose content layout no rule states. -/
inductive ArrayAccess where
  | readPage (addr : Nat)
  | programPage (addr : Nat) (bytes : List Byte)
  | programMfg (slot : Fin 2) (kLin : Nat) (shading : List Nat) (matrix : List Int) (refTrims biasTrims : List Int) (certificate : List Byte)
      (hasKeyPair : Bool)
  | programTrimTab (slot : Fin 2) (codes : List (Int × Int)) (slopeA slopeB : Int)
  deriving DecidableEq, Repr

/-- What a tester does through the JTAG DEBUG instruction (R611): halt, step or resume the sequencer, or
read or write TCM. -/
inductive DebugAction where
  | halt
  | step
  | resume
  | readTcm (addr : Nat)
  | writeTcm (addr : Nat) (byte : Byte)
  deriving DecidableEq, Repr

/-- A DALI 24-bit forward frame, as the three bytes of IEC 62386-103: address, instance, opcode (R652). -/
structure DaliFrame where
  address : Byte
  inst : Byte
  opcode : Byte
  deriving DecidableEq, Repr

/-- The commands, one constructor per row of spec/opcode_table.json, in the table's order. -/
inductive Instr where
  | timeGet (r : Req) (params : List Byte)
  | timeSet (r : Req) (params : List Byte)
  | timeSlew (r : Req) (params : List Byte)
  | tcmpArm (r : Req) (params : List Byte)
  | expoSet (r : Req) (params : List Byte)
  | expoGet (r : Req) (params : List Byte)
  | trigFire (r : Req) (params : List Byte)
  | trigRead (r : Req) (params : List Byte)
  | syncGet (r : Req) (params : List Byte)
  | periodSet (r : Req) (params : List Byte)
  | wheelGet (r : Req) (params : List Byte)
  | statSelect (r : Req) (params : List Byte)
  | statGet (r : Req) (params : List Byte)
  | occGet (r : Req) (params : List Byte)
  | motionRebase (r : Req) (params : List Byte)
  | calRun (r : Req) (params : List Byte)
  | calSchedule (r : Req) (params : List Byte)
  | calRead (r : Req) (params : List Byte)
  | calClear (r : Req) (params : List Byte)
  | colGet (r : Req) (params : List Byte)
  | defectGet (r : Req) (params : List Byte)
  | trimGet (r : Req) (params : List Byte)
  | sysInfo (r : Req) (params : List Byte)
  | sysCounters (r : Req) (params : List Byte)
  | attestGet (r : Req) (params : List Byte)
  | sysReset (r : Req) (params : List Byte)
  | pwrSet (r : Req) (params : List Byte)
  | pstateSet (r : Req) (params : List Byte)
  | pwrGet (r : Req) (params : List Byte)
  | refusalRead (r : Req) (params : List Byte)
  | refusalClear (r : Req) (params : List Byte)
  | poldCreate (r : Req) (params : List Byte)
  | poldOffer (r : Req) (params : List Byte)
  | poldAnswer (r : Req) (params : List Byte)
  | poldDissolve (r : Req) (params : List Byte)
  | poldStatus (r : Req) (params : List Byte)
  | poldCharter (r : Req) (params : List Byte)
  | fabRead (r : Req) (params : List Byte)
  | fabAddrSet (r : Req) (params : List Byte)
  | fabKeySet (r : Req) (params : List Byte)
  | fabRankSet (r : Req) (params : List Byte)
  | roleSwap (r : Req) (params : List Byte)
  | fabRoutes (r : Req) (params : List Byte)
  | fabPeriodSrc (r : Req) (params : List Byte)
  | fabPeriodSet (r : Req) (params : List Byte)
  | arrOpen (r : Req) (params : List Byte)
  | arrWrite (r : Req) (params : List Byte)
  | arrCommit (r : Req) (params : List Byte)
  | arrAbort (r : Req) (params : List Byte)
  | arrRead (r : Req) (params : List Byte)
  | arrInfo (r : Req) (params : List Byte)
  | fwActivate (r : Req) (params : List Byte)
  | lcGet (r : Req) (params : List Byte)
  | lcAdvance (r : Req) (params : List Byte)
  | bistRun (r : Req) (params : List Byte)
  | bistRead (r : Req) (params : List Byte)
  | thermGet (r : Req) (params : List Byte)
  | pixPort (r : Req) (params : List Byte)
  | daliCfg (r : Req) (params : List Byte)
  | daliGet (r : Req) (params : List Byte)
  | packetArrival (pk : Packet)
  | serviceSlice (p : PolId)
  | assemblyTimeout (p : PolId)
  | answerHoldExpiry (p : PolId)
  | offerGenerate (p : PolId)
  | keyAgreementTimeout
  | polderErase (p : PolId)
  | tbUpdate
  | tcmpFire (ch : Fin 16)
  | timeSetLoad
  | slewAdjust
  | timeSubRead
  | wheelSlotStart
  | exposureStart
  | triggerDeadline
  | blankIntervalCheck (conv : List CheckConv) (trim : List (Nat × TrimMeas))
  | rowRead (columns : List Conversion) (spares : List Conversion)
  | slotEnd
  | recordLeavesFork
  | recordEntersDelivery
  | trigInEdge
  | trigRefractoryEnd
  | syncInEdge
  | syncPeriodMissing
  | commissionNRise
  | calRampDone (intervalsA : List Nat) (intervalsB : List Nat)
  | calColumnsDone (meas : List (Nat × TrimMeas))
  | calLeaseExpired
  | qualityRecompute
  | linePowerGood
  | linePowerLost
  | powerDownReset
  | portPresenceChange (port : Port) (millivolts : Nat)
  | aonReady (straps : Straps) (vioPresent : Bool)
  | firmwareStart (f : StartFindings)
  | commandsAcceptedStart
  | discoveryWindowEnd
  | holdMeasure (millivolts : Nat) (chargeMicroamps : Nat)
  | pulseTest (fallMillivolts : Nat)
  | holdupDeadline
  | vauxTrip
  | vauxRetry (limiting : Bool)
  | vioLost
  | vioRestored
  | resetNAssert
  | resetNRelease (straps : Straps) (vioPresent : Bool)
  | powerEntryStep
  | returnStepReady
  | replyCarriedTimeout
  | opPointVoltageReady (domain : Fin 4)
  | wakeEvent
  | wakeMatch (port : Port) (target : WakeTarget)
  | i2cAddrMatch (addr : BitVec 7)
  | wakeNFall
  | dataSlotTx (port : Port)
  | beaconTx
  | contentionTx (port : Port) (collided : Bool)
  | ack (f : LineRx)
  | data (f : LineRx)
  | beacon (f : LineRx)
  | wake (f : LineRx)
  | join (f : LineRx)
  | discover (f : LineRx)
  | route (f : LineRx)
  | drain (f : LineRx)
  | drainDone (f : LineRx)
  | rangeReq (f : LineRx) (roundTrip : Nat)
  | rangeEcho (f : LineRx)
  | swapReq (f : LineRx)
  | swapReady (f : LineRx)
  | swapNot (f : LineRx)
  | swapDone (f : LineRx)
  | lineFrameBad (f : LineRx)
  | beaconMissed (port : Port)
  | reevePresumedLost (port : Port)
  | electionDelayExpired (collided : Bool)
  | routeAdvertTimer
  | routeLapse (segment : Fin 63)
  | holdbackExpired (port : Port) (segment : Fin 63)
  | fwdFrameTimeout (port : Port)
  | flowStateExpiry (port : Port) (src : BitVec 12) (dst : BitVec 12) (pol : Option PolId)
  | rangeReqTimer
  | joinRetryTimer
  | slotConflictRetry
  | roleSwapTimeout
  | txfifo (bus : HostBus) (bytes : List Byte) (ends : Bool)
  | txfifoPacketToIntake
  | rxfifo (bus : HostBus) (bytes : Nat) (ends : Bool)
  | rxfifoEnqueue
  | irqFlags (w : W32)
  | hostRegisterWrite (bus : HostBus) (header : Byte) (read : Bool) (bytes : List Byte) (ends : Bool)
  | daliFrameReceive (f : DaliFrame)
  | daliBusPowerLost
  | thermalModelRun (m : ThermReadings)
  | throttleDecisionStopped
  | throttlePauseEnd
  | pageProgramComplete (verified : Bool) (pulses : Nat)
  | itemWriteStart (p : PolId)
  | arrayLeaseExpired (handle : W16)
  | logPageTimer
  | lcTransitionExecute
  | bistStart
  | bistBlockDone (failed : Bool)
  | jtagExtest (outputs : BitVec 99)
  | jtagIdcode
  | jtagSamplePreload (lands : BitVec 99)
  | jtagDebug (a : DebugAction)
  | jtagArray (a : ArrayAccess)
  | jtagMbist (blocks : BitVec 16) (failed : BitVec 16)
  | jtagScan
  | jtagRelease
  | jtagBypass (code : BitVec 5)
  | dataFault (parity : Bool) (block : Fin 12) (lane : Fin 4) (inReference : Bool)
  | uncorrectableWord (block : Fin 12)
  | lockLost
  | relockAttemptEnd (locked : Bool)
  | watchdogExpiry
  | daliBusPowerRestored
  | daliReportTimer (inst : Fin 2)
  | daliEventSend (collided : Bool)
  | trstNAssert
  deriving DecidableEq, Repr

end Sys2Proof
end

