-- ==== Sys2Proof/Decode.lean ====
section
/-! DEFINITION. Words of the opcode table. No row of the table gives bits: a command reaches the node as a packet,
a frame or an event, never as a table word. -/

namespace Sys2Proof

/-- The command a table word spells: none, since no row of the table has bits (notes/assumptions/9.md). -/
def decodeTableWord (_nbits _w : Nat) : Option Instr := none

end Sys2Proof
end

