-- ==== Sys2Proof/Config.lean ====
section
/-! DEFINITION. What the spec leaves open, as constants without a body: no proof can see their values, so a
claim that holds, holds whatever they are. -/

namespace Sys2Proof.Config

/-- The n-th free value the model draws: random draws, results no rule states (notes/assumptions/3.md). -/
opaque freeNat : Nat → Nat

/-- The private attestation key the enclave generated in MANUFACTURE, as a number from which the scalar is taken (R320, R608;
notes/assumptions/4.md). -/
opaque attestKey : Nat

/-- The firmware public key the lifecycle fuses hold for a SIGN_KEY_ID, 64 bytes; other lengths: none is held (R566;
notes/assumptions/4.md). -/
opaque firmwareKey : Nat → List Byte

/-- The activity prediction of monitor i in 0.1 mA (R586), of its domain's state code, operating point and
clock-active cycles: the coefficients are fixed and not stated (notes/assumptions/5.md). -/
opaque activity : Nat → Nat → Nat → Nat → Nat

/-- A byte of the array whose value no rule states (R543: the layout of an item's content), of its address and of how many item copies
have been written; notes/assumptions/6.md. -/
opaque arrayByte : Nat → Nat → Byte

/-- The array address at which copy slot `slot` of an item lies inside its region, which no rule states (R544, R551;
notes/assumptions/6.md). -/
opaque copyAddress : Nat → Nat → Nat

/-- What a DALI command answers where IEC 62386 and not the spec says it (R652; notes/assumptions/7.md): of the instance
settings and the frame. -/
opaque daliAnswer : Nat → Byte → Byte → Byte → Option Byte

/-- The instance settings after a DALI command where IEC 62386 says them (R652, R656; notes/assumptions/7.md). -/
opaque daliSettings : Nat → Byte → Byte → Byte → Nat

end Sys2Proof.Config
end

