-- ==== Sys2Proof/Machine/State.lean ====
section
/-! DEFINITION. The state of the node as plain data: every register, queue, counter, mode, flag and stored item
the spec gives it, each field with the rule that names it, and `State.reset`. -/

namespace Sys2Proof.Machine

/-- The status codes of replies (R359). -/
inductive Status where
  | ok
  | accepted
  | notReady
  | busy
  | badOpcode
  | badParam
  | badLength
  | notPermitted
  | authFail
  | seqGap
  | duplicate
  | lifecycle
  | regionBusy
  | activeImage
  | holdupLow
  | noResource
  | leaseExpired
  | swapCrossed
  | refused
  | aborted
  | calReject
  | defect
  | throttled
  | voided
  | unreachable
  | timeout
  | polderGone
  deriving DecidableEq, Repr

/-- What a served command is answered with, before it is sealed (R357). `effectFrame` is the frame the opcode
names; `none` stands for the first wheel slot that begins after the reply instant (R358). -/
structure Answer where
  status : Status
  effectFrame : Option W32
  results : List Byte
  deriving DecidableEq, Repr

/-- A reply (R344, R357): the command it answers, its content, and how it is sealed and carried.
`untagged` replies carry only STATUS and NEXT (R344). -/
structure Reply where
  pol : PolId
  esn : Nat
  opcode : Byte
  handle : W16
  status : Status
  origStatus : Status
  effectFrame : W32
  results : List Byte
  dup : Bool
  untagged : Bool
  next : W16
  path : Path
  key : BitVec 128
  number : Nat
  deriving DecidableEq, Repr

/-- An entry of a polder's command queue (R349, R352): an admitted command, a duplicate request (R363) or an
ANSWER part (R349 step 4). -/
inductive EntryKind where
  | command
  | duplicate
  | answerPart
  deriving DecidableEq, Repr

/-- One queue entry: what the packet held that service needs (R338, R349). -/
structure QEntry where
  kind : EntryKind
  opcode : Byte
  req : Req
  params : List Byte
  plen : Nat
  esn : Nat
  key : BitVec 128                 -- the key the command was admitted under
  raw : List Byte                  -- the packet's bytes, for the comparison of R351
  deriving DecidableEq, Repr

/-- The rule under which a served command holds the head of its queue (R353). -/
inductive HoldRule where
  | timeSetLoad        -- R125
  | powerChange        -- R143, R147
  | pointChange        -- R169
  | itemCommit (item : Nat)   -- R420, R554: the item whose commit is awaited
  | pageProgram        -- R562, R563: an ARR_OPEN marker or an ARR_WRITE page
  | regionCommit       -- R564
  | swapOutcome        -- R445
  | lifecycleLeave     -- R459
  | blockUnderTest     -- R620
  | powerIdle          -- R143, R353: a PWR_SET that waits for the return of a wake
  | voided             -- R375: a command that can finish no longer and waits to be answered VOIDED
  deriving DecidableEq, Repr

/-- A command in service that has not replied yet, or that holds the head after its reply (R353, R143):
`answer` is the reply once it is known, `ready` says that nothing but the reply instant is waited for, `replied`
that the reply has left. -/
structure Serving where
  entry : QEntry
  rule : HoldRule
  answer : Option Answer
  ready : Bool
  replied : Bool
  deriving DecidableEq, Repr

/-- An open command assembly (R356): `expired` once 500 ms passed without its next part. -/
structure Assembly where
  handle : W16
  opcode : Byte
  parts : List (List Byte)
  expired : Bool
  deriving DecidableEq, Repr

/-- ANSWER parts 0 and 1 held for part 2 (R436). -/
structure AnswerHold where
  handle : W16
  qT : List Byte
  identity : Option (List Byte)
  deriving DecidableEq, Repr

/-- The packet of part 2 kept after a completed key agreement, with the CONFIRM it was answered with (R351). -/
structure KeptAnswer where
  part2 : List Byte
  confirm : Reply
  deriving DecidableEq, Repr

/-- One occupancy area of a selection (R290). -/
structure Area where
  zones : BitVec 300
  th : Nat
  confirm : Nat
  holdSeconds : Nat
  deriving DecidableEq, Repr

/-- A statistics selection (R290): SECTIONS as the six bits of R403, rho in per cent, and the areas. -/
structure Selection where
  sections : BitVec 6
  rho : Nat
  areas : List Area
  deriving DecidableEq, Repr

/-- A charter (R311), less the polder number that holds it: BIND bits are HOST, TRIG_IN, DALI, STROBE_OUT (R335). -/
structure Charter where
  slots : W16
  zoneMask : BitVec 300
  selection : Selection
  readQuota : Nat
  bind : BitVec 4
  idHash : BitVec 256
  creationNo : W32
  deriving DecidableEq, Repr

/-- The lock source of an exposure set (R187). -/
inductive LockSrc where
  | none
  | localSync
  | beacon
  deriving DecidableEq, Repr

/-- A whole exposure setting set (R187, R390) with the lock allowance held with it (R203). -/
structure Expo where
  x0 : Nat
  w : Nat
  y0 : Nat
  h : Nat
  bin : Nat
  depth10 : Bool
  nexp : Nat
  triggered : Bool
  srcTrigIn : Bool
  srcCompare : Bool
  srcCommand : Bool
  lock : LockSrc
  phase : Nat
  lockDiv : Nat
  again : Nat
  eL : Nat
  dM : Nat
  dS : Nat
  lockDelay : Nat
  aLock : Nat
  deriving DecidableEq, Repr

/-- A trigger source (R192), coded as TRIG of R299: 1 TRIG_IN, 2 COMPARE, 3 COMMAND. -/
inductive TrigSrc where
  | trigIn
  | compare
  | command
  deriving DecidableEq, Repr

/-- A trigger with its trigger time (R192), as a count of elapsed ticks. -/
structure Trigger where
  src : TrigSrc
  at_ : Nat
  deriving DecidableEq, Repr

/-- One occupancy machine (R289): the state code, the confirmation count and the hold elapsed in ticks (R291). -/
structure OccMachine where
  state : Nat
  count : Nat
  hold : Nat
  deriving DecidableEq, Repr

/-- An EVENT record that has occurred and waits to be issued (R296, R302). `tcmp` names the compare channel
of an EV_TCMP that is still open (R122). -/
structure EventRec where
  code : Nat
  frame : W32
  tb : Tb
  payload : List Byte
  deriving DecidableEq, Repr

/-- A record in a delivery queue (R295, R298, R321, R367, R370): its extended number, its header FRAME and TYPE, its
body, its fragments, how many have left, the path it was queued for (R368), and the key it is sealed with. -/
structure DlvRec where
  ersEq : Nat
  rtype : Nat
  frame : W32
  body : List Byte
  frags : Nat
  sent : Nat
  path : Option Path
  key : BitVec 128
  deriving DecidableEq, Repr

/-- The state of a polder (R335). -/
inductive PolState where
  | absent
  | chartered
  | active
  | dissolving
  deriving DecidableEq, Repr

/-- A dissolution in progress (R329, R331): REASON, the first frame of the boundary revolution, GONE_COUNT,
LAST_FRAME, whether the boundary has passed and whether the DISSOLVED record has been issued. -/
structure Dissolution where
  reason : Nat
  boundary : W32
  goneCount : Nat
  lastFrame : W32
  passed : Bool
  issued : Bool
  tb : Tb                          -- R331: the time base at the boundary
  deriving DecidableEq, Repr

/-- The seven per-polder counters of R376. -/
structure PolCounters where
  intakeDrop : Nat
  authFail : Nat
  seqGap : Nat
  queueFull : Nat
  retryQueued : Nat
  dupServed : Nat
  dlvSpill : Nat
  deriving DecidableEq, Repr

/-- Everything one polder holds (R19, R311, R345, R348, R352, R356, R362, R365, R370, R187, R196, R289). -/
structure Polder where
  state : PolState
  key : BitVec 128                 -- R321
  charter : Charter                -- R311
  charterNext : Option Charter     -- R312, R433: applies at the next revolution boundary
  nextAdmit : Nat                  -- R345
  intake : List Packet             -- R348
  queue : List QEntry              -- R352
  serving : Option Serving         -- R353
  replyQ : List Reply              -- R354
  journal : List Reply             -- R362, newest first
  assembly : Option Assembly       -- R356
  answerHold : Option AnswerHold   -- R436
  kept : Option KeptAnswer         -- R351
  path : Option Path               -- R368
  cR : Nat                         -- R365
  sR : Nat                         -- R365
  ersEq : Nat                      -- R346
  dlv : List DlvRec                -- R370
  events : List EventRec           -- R296
  lastFrame : Option W32           -- R296: FRAME of the latest record issued
  cnt : PolCounters                -- R376
  expo : Expo                      -- R187
  shadow : Option Expo             -- R189
  shadowFrame : W32                -- R396
  trigPending : Option Trigger     -- R194
  trigOverrun : Nat                -- R196
  trigDropped : Nat                -- R196
  occ : Vector OccMachine 4        -- R289
  lastEval : Option (W32 × Nat)    -- R291, R407: the last evaluated frame and its exposure start in elapsed ticks
  holdFresh : Bool                 -- R291: the next evaluation adds 0 to hold elapsed
  motionRef : List Frac            -- R286: 300 zones × 16 cells
  motionInit : Bool                -- R286: the next STATS frame is a MOTION_INIT frame
  initFrom : List W32              -- R286, R408: so is the first STATS frame at or after each of these frames
  throttled : Bool                 -- R591: the next STATS or VOID record carries THROTTLED
  slow : Nat                       -- R170: slices the command at the head has already taken at P1 or P2
  gone : Option Dissolution        -- R329
  deriving DecidableEq, Repr

/-- A key agreement in progress (R324, R325, R433): the polder, its charter, whether the OFFER has been formed,
the ephemeral private key d_E, and the public point and signature of the OFFER. -/
structure KeyAgreement where
  pol : PolId
  charter : Charter
  offered : Bool
  dE : Nat
  qE : List Byte
  signature : List Byte
  deriving DecidableEq, Repr

/-- An EV_TCMP not yet issued (R121, R122): the TB and FRAME of its first firing and its count. -/
structure TcmpEvent where
  tb : Tb
  frame : W32
  count : Nat
  deriving DecidableEq, Repr

/-- A compare channel (R117) with its open and its closed, not yet issued EV_TCMP (R122). `wrapped` holds after an addition
has carried SEC past its end: the channel waits for TB to wrap (R120). -/
structure Tcmp where
  value : Tb
  period : W32
  arm : Bool
  wake : Bool
  expose : Bool
  stamp : Bool
  fired : Bool
  missed : Nat
  fires : Nat
  wrapped : Bool
  openEv : Option TcmpEvent
  closedEvs : List TcmpEvent
  deriving DecidableEq, Repr

/-- A slew in progress (R130, R133): whether it advances, the offset still to absorb, the rate, the elapsed
ticks since it took effect, the interval number k of the next adjusted update, whether a reeve imposed it. -/
structure Slew where
  advance : Bool
  remain : Nat
  rate : Nat
  elapsed : Nat
  k : Nat
  imposed : Bool
  deriving DecidableEq, Repr

/-- A PLL hold (R667, R668): relock attempts made, ticks elapsed at the declaration, slots voided. -/
structure ClockHold where
  attempts : Nat
  since : Nat
  voided : Nat
  deriving DecidableEq, Repr

/-- The clocks and the time base (R104, R109 to R131, R666 to R668). -/
structure Clock where
  tb : Tb
  elapsed : Nat                    -- ticks since the time base last started, unadjusted (R128, R130)
  running : Bool                   -- R112
  pllOn : Bool                     -- R104
  onPix : Bool                     -- R110: the time base counted on PIX at its last update
  hold : Option ClockHold          -- R668
  secShadow : W32                  -- R115
  subOut : W32                     -- R115, R636: the word the last TIME_SUB read returned
  staged : Option Tb               -- R124
  slew : Option Slew               -- R130
  tcmp : Vector Tcmp 16            -- R116
  deriving DecidableEq, Repr

/-- The state of a switched power domain (R134, R135). -/
inductive DomState where
  | on
  | ret
  | off
  deriving DecidableEq, Repr

/-- The steps of a return (R154). -/
inductive RetStep where
  | v
  | c
  | m
  | l
  deriving DecidableEq, Repr

/-- Why a return runs: a PWR_SET that raises (R143), an abandoned entry with the wake settings it restores (R151, R161, R426), or
a wake (R160). -/
inductive RetCause where
  | raise
  | abandoned (wakeSet : BitVec 16) (wakeEn : BitVec 5)
  | wake
  deriving DecidableEq, Repr

/-- A return in progress (R154): the returning domains (bit n − 1: domain n) and the step they are in. -/
structure Returning where
  doms : BitVec 12
  step : RetStep
  cause : RetCause
  relock : Nat
  deriving DecidableEq, Repr

/-- An entry in progress (R145): the target states, the step whose abort point comes next (1 to 13), the
domains this entry has lowered from ON, the wake settings in force before it, the PWR_SET's ESN, whether it
stopped the wheel, and the refusal or abandonment met so far. -/
structure Entry where
  target : Vector DomState 12
  step : Nat
  lowered : BitVec 12
  oldWakeSet : BitVec 16
  oldWakeEn : BitVec 5
  esn : Nat
  stoppedWheel : Bool
  finalPassed : Bool
  deriving DecidableEq, Repr

/-- An entry of the refusal log (R153). -/
structure RefusalEntry where
  tb : Tb
  domain : Nat
  reason : Nat
  step : Nat
  cmdSeq : W16
  deriving DecidableEq, Repr

/-- The port mode (R74, R494). -/
inductive PortMode where
  | unknown
  | tap
  | bridge
  deriving DecidableEq, Repr

/-- The power controller (R77, R134 to R168, R72, R86). -/
structure Power where
  presentA : Bool                  -- R77
  presentB : Bool                  -- R77
  feedA : Bool                     -- R77: the voltage last reported of port A is at or above 16 V
  feedB : Bool                     -- R77: likewise of port B
  lineGood : Bool                  -- R77
  shedding : Bool                  -- R96
  resetLow : Bool                  -- R648
  aonReady : Bool                  -- R57
  seqRunning : Bool                -- R100, R567
  accepting : Bool                 -- R100
  discoveryOver : Bool             -- R506
  vauxOn : Bool                    -- R86
  vauxFaultSent : Bool             -- R86
  vioLost : Bool                   -- R72
  vioWaits : Bool                  -- R72: VIO is restored and the lands work again from the next service round on
  doms : Vector DomState 12        -- R134: index n − 1 is domain n
  points : Vector (Fin 3) 4        -- R165: PIPE, STAT, SEQ, ENC
  pointNext : Vector (Option (Fin 3)) 4  -- R167: a raise waits for RDY_V
  wakeSet : BitVec 16              -- R141, R426
  wakeEn : BitVec 5                -- R141, R426
  portMode : PortMode              -- R494
  entry : Option Entry             -- R145
  pendingEntry : Option Entry      -- R143: the entry that follows the raise of the same PWR_SET
  ret : Option Returning           -- R154
  latches : BitVec 8               -- R157, R159
  firstLatch : Option Tb           -- R160
  lateWake : Bool                  -- R160, R162
  entryEnd : Tb                    -- R160
  entryRef : Nat                   -- R147: the entry reference instant, in elapsed ticks
  replay : List (PolId × TrigSrc)  -- R161: triggers latched as wakes while the wheel was stopped by an entry, to be replayed
  refusals : Vector Nat 12         -- R152
  refusalLog : List RefusalEntry   -- R153, newest first
  deriving DecidableEq, Repr

/-- The holdup store (R88 to R95). -/
structure Holdup where
  low : Bool                       -- R91
  charger : Bool                   -- R88
  lastMv : Nat                     -- R89
  startedBelow4 : Bool             -- R89
  firstMeasure : Bool              -- R89: no measurement yet since the charger's start
  sinceV4 : Option Nat             -- R89: milliseconds since the first measurement at or above 4 V
  chargeSum : Nat                  -- R89: charge currents measured since then, in µA
  reached14 : Bool                 -- R91: 14 V has been measured since the charger's start
  seen12 : Bool                    -- R91: the last measurement since the charger's start was at or above 12 V
  checkPassed : Bool               -- R92
  firstOkDone : Bool               -- R93
  lowSent : Bool                   -- R93
  deadlineOpen : Bool              -- R91
  starting : Bool                  -- R95: 400 ms have not passed since the charger's last start
  holding : Bool                   -- R90: HOLD has reached 16 V
  lastReason : Nat                 -- R94, R428
  deriving DecidableEq, Repr

/-- One sample as it leaves the converter banks (R211, R214, R217): CODE, CG, SRC. -/
structure Sample where
  code : Nat
  cg : Bool
  src : Bool
  deriving DecidableEq, Repr

/-- One read (R180, R193, R256, R278, R297). -/
structure RowRead where
  codes : List Sample              -- 1,600 samples as forwarded (R217), column order
  bad : List Nat                   -- columns whose sample carries BAD = 1 (R237)
  deriving DecidableEq, Repr

/-- A repair in a slot (R233): column, first good row, and the number of reads excluded for it. -/
structure Repair where
  column : Nat
  firstGoodRow : Nat
  excludedReads : Nat
  deriving DecidableEq, Repr

/-- The lock state a record reports (R204, R299). -/
inductive LockState where
  | none
  | locked
  | free
  | missed
  deriving DecidableEq, Repr

/-- The parts of a calibration slot (R256). -/
structure CalParts where
  ramp : Bool
  columns : Bool
  deriving DecidableEq, Repr

/-- The quality figures (R269). -/
structure Quality where
  ofsResA : Nat
  ofsResB : Nat
  gainResA : Nat
  gainResB : Nat
  rampErrA : Int
  rampErrB : Int
  rampFrame : W32
  resFrame : W32
  deriving DecidableEq, Repr

/-- What EV_CAL_DONE will report of a calibration slot (R267, R302): `parts` are all the parts reported, `old` the slope
codes and quality figures before the slot, which an expired lease restores (R264). -/
structure CalReport where
  parts : CalParts
  rampResA : Nat
  rampReasonA : Nat
  rampResB : Nat
  rampReasonB : Nat
  accepted : Nat
  rejected : Nat
  rejectList : List (Nat × Nat)
  expired : Bool
  rampDone : Bool
  columnsDone : Bool
  old : Int × Int × Quality
  deriving DecidableEq, Repr

/-- The lock reference of a slot, taken at its start (R202, R208, R209): the edge, in elapsed ticks for LOCAL, in time-base
ticks for BEACON (R527), the period, and whether it runs free. -/
structure LockRef where
  edge : Nat
  fabric : Bool
  period : Nat
  free : Bool
  deriving DecidableEq, Repr

/-- A wheel slot in progress (R30, R37, R180, R193). -/
structure Slot where
  frame : W32
  holder : Option PolId
  charter : Charter                -- R290, R311: its holder's charter in this revolution
  expo : Expo
  startTb : Tb
  startAt : Nat
  trig : Option Trigger            -- the trigger the slot has accepted or consumed (R193, R194)
  deadlinePassed : Bool            -- R193
  te : Option Tb                   -- T_E once the exposure has started (R180)
  teAt : Nat                       -- T_E in elapsed ticks (R128, R291)
  lockRef : Option LockRef         -- R208
  lockState : LockState            -- R204
  cal : Option CalParts            -- R256: the parts this slot runs
  calRep : Option CalReport        -- R267
  throttled : Bool                 -- R591
  voidReason : Option Nat          -- R297
  checked : Bool                   -- R225: the blank-interval check has run
  reads : List RowRead             -- in read order
  repairs : List Repair            -- R233
  readsDone : Bool                 -- R201: the last read has ended
  mapFull : Bool                   -- R239: the map-full flag at the slot start
  faultBlocks : BitVec 16          -- R664: blocks that gave an uncorrectable word in this slot
  pix : Nat                        -- R303, R463: the pixel port mode of this slot, 0 where its frame does not go out
  pixCut : Option Nat              -- R24, R46, R47: the reads made when the pixel port was silenced inside the slot
  deriving DecidableEq, Repr

/-- The internal sample bus (R276, R277): its qualifiers, the four frame-start tag words of lane 0, and the sample words that the four
lanes carried in the last read, 400 cycles to a lane. ROW_VALID is high only within a read, which is one step. -/
structure SampleBus where
  frameValid : Bool
  tag : List W16
  lanes : List (List W16)
  deriving DecidableEq, Repr

/-- A finished slot on its way to the fork (R295). -/
structure DoneSlot where
  slot : Slot
  holder : PolId
  machines : Option (Vector OccMachine 4)  -- R289, R312: the machines of a selection replaced since the slot ended
  deriving DecidableEq, Repr

/-- A sealed record on its way to a delivery queue (R295). -/
structure DoneRec where
  pol : PolId
  rtype : Nat
  frame : W32
  body : List Byte
  deriving DecidableEq, Repr

/-- The frame wheel (R30 to R35, R589 to R591, R673, R674). -/
structure Wheel where
  turning : Bool
  nextFrame : W32                  -- the next frame number to be issued (R30)
  period : Nat                     -- R191
  periodNext : Option Nat          -- R401
  holders : Vector (Option PolId) 16  -- R316
  slot : Option Slot
  bus : SampleBus                  -- R276, R277
  slotTb : Tb                      -- R402: time base at the start of the current wheel slot
  fork : Option DoneSlot           -- R295
  enclave : Option DoneRec         -- R295
  lastSlotFrame : Vector (Option W32) 8  -- R331: each polder's last wheel slot
  stopRequested : Bool             -- R146
  pauses : Nat                     -- R591: pauses still to pass
  pauseCount : Nat                 -- R462
  fR : Nat                         -- R673: the committed frame reservation
  uncovered : Bool                 -- R674
  announcedUncovered : Bool        -- R674
  firstFrame : W32                 -- R675: the first frame number of the run
  heldPeriods : List Nat           -- R448: the fabric periods reported held
  deriving DecidableEq, Repr

/-- The SYNC_IN measurement (R206 to R208). -/
structure SyncIn where
  lastEdge : Option Nat            -- the edge the next period is measured from, in elapsed ticks
  missingRun : Nat                 -- R207: periods counted missing since the last edge
  badRun : Nat                     -- R207: consecutive periods missing or not valid
  validPeriod : Nat                -- last valid period in ticks, 0: none since reset
  validEdge : Tb                   -- R208, R400: last valid edge
  validAt : Nat                    -- R208: the same in elapsed ticks
  lost : Bool                      -- R207
  agreeRun : Nat                   -- R208
  measured : Nat                   -- R206: last valid period measured while SYNC_LOST holds
  prev : Option Nat                -- R208: the period just before, where it was valid
  deriving DecidableEq, Repr

/-- The BEACON lock source (R209, R527). -/
structure BeaconPhase where
  valid : Bool
  everValid : Bool
  edge : Tb
  period : Nat
  deriving DecidableEq, Repr

/-- The imaging-control lands and the pixel port (R58, R198, R201, R303). -/
structure Lands where
  straps : Straps                  -- R57: as last sampled
  commissionStays : Bool           -- R58: COMMISSION_N has stayed low since its sampling
  pixDisable : Bool                -- R58: disable at the next frame boundary
  pixMode : Nat                    -- R463: 0 OFF, 1 RAW, 2 RAWCG, 3 PROC
  pixNext : Option Nat             -- R463
  pixFrame : List (List Nat)       -- R303: PD[11:0] of the rows of the last owner slot the pixel port put out
  refractory : Bool                -- R198
  strobe : Bool                    -- R201
  sync : SyncIn                    -- R206
  beaconPhase : BeaconPhase        -- R209
  deriving DecidableEq, Repr

/-- The state of a converter group (R236). -/
inductive GroupState where
  | live
  | replacing
  | spareFailed
  deriving DecidableEq, Repr

/-- One converter group (R228, R229, R231, R236, R240). -/
structure Group where
  state : GroupState
  replOffset : Nat
  defects : Nat
  maxDiff : Nat
  runMax : Nat
  diffCount : Nat
  abandoned : Bool                 -- R222, R232, R235: this revolution's job has ended
  deriving DecidableEq, Repr

/-- An entry of the defect map (R239). -/
structure Defect where
  column : Nat
  frame : W32
  cause : Nat
  deriving DecidableEq, Repr

/-- The trim codes of one converter (R245). -/
structure Trim where
  offset : Int
  gain : Int
  deriving DecidableEq, Repr

/-- A trim result waiting to take effect (R247, R253, R259): the converter, its codes, and whether it is a
background trim (at the revolution boundary) or comes from COLUMNS (at the next slot start) or a spare trim. -/
inductive TrimKind where
  | background
  | spare
  | columns
  deriving DecidableEq, Repr

structure TrimPending where
  converter : Nat
  trim : Trim
  kind : TrimKind
  deriving DecidableEq, Repr

/-- The reference set of a bank in one slot (R250), in reference LSB: mean offset, mean span, mean low and mean high code. -/
structure BankRef where
  offset : Frac
  span : Frac
  low : Frac
  high : Frac
  deriving DecidableEq, Repr

/-- Check conversions of one owner slot, kept for a spare trim or for the quality figures (R255, R269), with the scale to
reference LSB (R249) and the slot's reference sets. -/
structure CheckSlot where
  frame : W32
  scaleNum : Nat
  scaleDen : Nat
  conv : List CheckConv
  refA : BankRef
  refB : BankRef
  deriving DecidableEq, Repr

/-- The seven calibration counters (R268). -/
structure CalCounters where
  bgDone : Nat
  bgReject : Nat
  bgSkipped : Nat
  spareDone : Nat
  spareReject : Nat
  rampDone : Nat
  rampReject : Nat
  deriving DecidableEq, Repr

/-- Converters, trims and calibration (R221 to R243, R245 to R272). -/
structure Columns where
  groups : List Group              -- 32 (R240)
  defectMap : List Defect          -- R239, order of declaration
  mapFull : Bool                   -- R239
  trims : List Trim                -- 1,632 (R245), the AON shadow
  slopeA : Int                     -- R245
  slopeB : Int                     -- R245
  pendingTrims : List TrimPending
  measured : Option W32            -- R252: this revolution's measuring slot, once it has been met
  bgSettled : List Nat             -- R268: stood-in converters whose trim is already counted (rejected or cancelled)
  beyondMap : List Nat             -- R239: failed columns beyond the full map, known until the next reload
  spareSlots : List CheckSlot      -- R255: up to 32 owner slots
  qualSlots : List CheckSlot       -- R269: up to 32 owner slots
  calRun : Option CalParts         -- R261: the CAL_RUN in progress
  calFrame : W32                   -- R261: the frame of its calibration slot
  calStarted : Bool                -- R261: its calibration slot has begun
  calRedo : Option CalReport       -- R668: parts due again after a clock hold, with what stands of the others
  restartDue : Bool                -- R260: a ramp calibration is due in the first RAMP_SLOT slot after the (next) start of the wheel
  rampInterval : Nat               -- R260
  rampSlot : Nat                   -- R260; 0xFF: the owner's lowest
  scheduleNext : Option (Nat × Nat) -- R410
  counters : CalCounters           -- R268
  quality : Quality                -- R269
  trimChanged : Bool               -- R272
  revsSinceWrite : Option Nat      -- R272; none: no write since start-up
  deriving DecidableEq, Repr

/-- The CHARTER p item (R551). -/
structure StoredPolder where
  state : PolState
  key : BitVec 128
  charter : Charter
  mark : Option (Nat × W32 × W32)  -- dissolution mark: REASON, boundary, last frame (R329, R676)
  deriving DecidableEq, Repr

/-- The SEQ p item (R365, R368, R551). -/
structure StoredSeq where
  cR : Nat
  sR : Nat
  path : Option Path
  deriving DecidableEq, Repr

/-- The FABRIC item (R551). -/
structure FabricItem where
  addr : BitVec 12
  addrNext : BitVec 12
  key : BitVec 128
  keyId : Byte
  keyNext : BitVec 128
  keyIdNext : Byte
  rank : Byte
  root : Bool
  periodFabric : Bool
  fabPeriod : Nat
  deriving DecidableEq, Repr

/-- The WHEEL item (R551, R673). -/
structure WheelItem where
  period : Nat
  rampInterval : Nat
  rampSlot : Nat
  fR : Nat
  deriving DecidableEq, Repr

/-- The DALI item (R551, R656). -/
structure DaliItem where
  occArea : Byte
  lightArea : Byte
  shortAddr : Byte
  randomAddr : BitVec 24
  settings : Nat                   -- R656: the instance settings, as IEC 62386 keeps them
  deriving DecidableEq, Repr

/-- The COLSTATE item (R243, R551). -/
structure ColStateItem where
  groups : List (GroupState × Nat × Nat)
  defectMap : List Defect
  mapFull : Bool
  deriving DecidableEq, Repr

/-- The TRIMTAB item (R271). -/
structure TrimTab where
  trims : List Trim
  slopeA : Int
  slopeB : Int
  deriving DecidableEq, Repr

/-- The MFG item (R245, R246, R287, R288, R424, R551). `matrix` is the 3 × 3 colour matrix in units of 1/65,536,
`shading` the F_z of the 300 zone centres of the full window in units of 1/1,000, `kLin` is K; `refTrims` and `biasTrims` are the
reference-level and bias trims of REF, whose number and widths no rule states. -/
structure MfgItem where
  valid : Bool
  kLin : Nat
  shading : List Nat
  matrix : List Int
  refTrims : List Int
  biasTrims : List Int
  certificate : List Byte
  hasKeyPair : Bool
  deriving DecidableEq, Repr

/-- A value on its way into an item (R551, R552). -/
inductive ItemValue where
  | fabric (v : FabricItem)
  | wheel (v : WheelItem)
  | boot (image : Fin 2) (field : Bool)
  | dali (v : DaliItem)
  | node (creation : W32)
  | stored (p : PolId) (v : Option StoredPolder)
  | seqs (p : PolId) (v : Option StoredSeq)
  | colState (v : ColStateItem)
  | trimTab (v : TrimTab)
  | mfg (v : MfgItem)
  | marker (region : Nat)
  | remap (bank : Fin 2) (page : Nat)
  deriving DecidableEq, Repr

/-- An item write that waits or runs (R549, R552, R554): its value, the polder it is attributed to, the pages
still to program once it has started. -/
structure ItemWrite where
  value : ItemValue
  pol : PolId
  pagesLeft : Nat
  started : Bool
  deriving DecidableEq, Repr

/-- A valid copy slot of an item (R552, R553): the item, the slot, its GEN and the value it holds. -/
structure ItemCopy where
  item : Nat
  slot : Nat
  gen : Nat
  value : ItemValue
  deriving DecidableEq, Repr

/-- An open region update (R377, R451, R452, R560): its HANDLE, region, the TB of its grant, lease expiry, the bytes written so far. -/
structure Update where
  handle : W16
  region : Fin 7
  grant : Tb
  expiry : Tb
  data : List (Nat × Byte)
  deriving DecidableEq, Repr

/-- What a page program of a polder is for (R546, R549): the next page of its started item write, the OPEN marker
of an ARR_OPEN, the page of an ARR_WRITE with its offset and bytes, a fill page or the marker page of an ARR_COMMIT
with the pages still to program, or a log page. -/
inductive PageJob where
  | item
  | arrOpen (handle : W16)
  | arrWrite (handle : W16) (offset : Nat) (bytes : List Byte)
  | arrCommit (handle : W16) (pagesLeft : Nat)
  | log
  deriving DecidableEq, Repr

/-- The committed state of a region (R450, R550, R560, R566). -/
structure Region where
  content : List Host.Cell         -- committed bytes, canonical
  len : Nat
  isOpen : Bool
  valid : Bool
  sig : Nat
  half : Bool
  version : W32
  deriving DecidableEq, Repr

/-- One LOG entry (R568). -/
structure LogEntry where
  tb : Tb
  frame : W32
  code : W16
  plen : Nat
  lseq : W32
  payload : List Byte
  deriving DecidableEq, Repr

/-- The array (R543 to R571). -/
structure ArrayS where
  cells : List Host.Cell           -- R543: bytes of the array programmed by address, canonical
  mfg : MfgItem
  trimTab : Option TrimTab         -- R271: the committed trim table; none: neither copy valid
  colState : Option ColStateItem   -- R243
  fabric : FabricItem
  wheel : WheelItem
  bootImage : Fin 2                -- R457
  bootField : Option Bool          -- R598: none, factory value
  dali : DaliItem
  creation : W32                   -- R311: item NODE
  stored : Vector (Option StoredPolder) 8
  seqs : Vector (Option StoredSeq) 8
  copies : List ItemCopy           -- R552, R553: the valid copy slots
  writes : List ItemWrite          -- R549, R554: in order requested
  jobs : List (PolId × PageJob)    -- R546, R549: page programs; a polder's first is in progress, later ones wait
  heldJobs : List (PolId × PageJob)  -- R95, R559: page programs that wait for HOLDUP_OK
  applied : Vector Nat 8           -- R548: pulses applied to the page program in progress of each polder
  used : Nat × Nat                 -- R548: pulses applied in the slice in progress, to the executing bank and to the other
  commitTimes : List (Nat × Nat)   -- R554: items committed in this run and the elapsed ticks of each one's last commit
  updates : List Update            -- R451
  lostHandles : List W16           -- R374: handles whose lease expired and were not told yet
  fw0 : Region
  fw1 : Region
  user : Region
  logCells : List Host.Cell        -- R568: the LOG region's bytes, canonical
  logPage : Nat                    -- R570: the ring's next page
  lseqDone : W32                   -- R570: one above the highest LSEQ programmed
  logBuf : List LogEntry           -- R570: entries not yet programmed
  lseq : W32                       -- R568
  logTimes : List Nat              -- R569: elapsed ticks of the last 16 logged entries
  logSpill : Nat                   -- R569
  retired : List (Nat × Nat)       -- R571: page addresses and their spares' numbers
  spares0 : Nat                    -- R544
  spares1 : Nat                    -- R544
  running : Fin 2                  -- R567: the running image
  fabricWaits : Bool               -- R95, R607: the FABRIC item is to be zeroed once the holdup state is HOLDUP_OK
  ownerStarts : Nat                -- R593: service rounds since the last owner page-program start
  deriving DecidableEq, Repr

/-- The lifecycle states (R421). -/
inductive Lc where
  | manufacture
  | commission
  | field
  | ret
  | scrapped
  deriving DecidableEq, Repr

/-- A lifecycle transition in progress (R601, R603). -/
structure LcPending where
  target : Lc
  waitCarried : Bool
  deriving DecidableEq, Repr

/-- The lifecycle (R598, R607, R609). -/
structure Life where
  mfgDone : Bool
  fieldOnce : Bool
  fuseReturn : Bool
  fuseScrapped : Bool
  shadow : Lc
  cleared : Bool
  pending : Option LcPending
  uid : BitVec 64
  deriving DecidableEq, Repr

/-- A self-test in progress (R620, R625). -/
structure BistJob where
  algo : Nat
  region : Nat
  blocks : BitVec 16
  left : BitVec 16
  failed : BitVec 16
  started : Bool
  pagesLeft : Nat
  below : Nat
  deriving DecidableEq, Repr

/-- Self-test results (R461, R617, R623). -/
structure Bist where
  unusable : BitVec 16
  lastBlocks : BitVec 16
  lastFailed : BitVec 16
  lastAlgo : Nat
  job : Option BistJob
  faultSlots : Vector Nat 12       -- R664: slots of this revolution with uncorrectable words, per block
  deriving DecidableEq, Repr

/-- The thermal model and the throttle (R576 to R592). Temperatures are exact, in units of 0.01 °C. -/
structure Thermal where
  sites : Vector Frac 6            -- R582
  module : Frac                    -- R582
  raised : List (Nat × Nat × Nat × Nat)  -- R581: domain, state code, point, raised charge in mW
  overCount : Vector Nat 13        -- R581
  broken : Vector Bool 13          -- R588
  disagree : Vector Nat 13         -- R587
  currents : Vector Nat 13         -- R462
  moduleDraw : Nat                 -- R462
  step : Nat                       -- R590
  chargeSum : Vector Frac 13       -- R579, R583: charge × ticks in mW, summed since the last run
  chargeTicks : Nat                -- R583: the ticks that sum spans
  deriving DecidableEq, Repr

/-- A packet the node sends (R342, R344, R367): a reply, or a fragment of a record. -/
inductive OutPacket where
  | reply (r : Reply)
  | frag (pol : PolId) (ersEq : Nat) (index : Nat) (recLen : Nat) (content : List Byte) (key : BitVec 128)
  | relayed (pk : Packet)
  deriving DecidableEq, Repr

/-- A host transfer in progress (R632, R633, R641, R646): the bus, whether it reads, the register index, the bytes of the register or
packet it is in the middle of, the bytes still to consume without effect, and whether the rest of it is ignored. -/
structure Xfer where
  bus : HostBus
  read : Bool
  index : Nat
  part : List Byte
  skip : Nat
  dead : Bool
  deriving DecidableEq, Repr

/-- The host port (R626 to R645). -/
structure HostPort where
  sel : Option HostBus             -- R637
  xfer : Option Xfer               -- R646
  leaving : Option PolId           -- R645: the binding has left this polder within the transfer in progress, whose end clears the port
  tx : List Packet                 -- R640: complete packets, oldest first
  rx : List OutPacket              -- R640, oldest first
  rxRead : Nat                     -- R643: bytes of the first packet already read, its length word included
  readOut : List OutPacket         -- packets wholly read by the last read
  readBytes : List Byte            -- data bytes returned by the last read
  headerOut : Byte                 -- R629: STATUS[7:0] as SPI_SDO carried it during the last header byte
  wakeDone : Bool                  -- R638
  txOvf : Bool
  pktErr : Bool
  rxUnf : Bool
  lcChange : Bool
  irqEn : W32                      -- R638
  txOvfCnt : Nat                   -- R637
  pktErrCnt : Nat
  bindMissCnt : Nat
  rxUnfCnt : Nat
  waiting : List Reply             -- R643: untagged replies for the host waiting for room
  deriving DecidableEq, Repr

/-- The DALI-2 function (R651 to R657). -/
structure Dali where
  busDown : Bool                   -- R657
  occupied : Bool                  -- R653
  movement : Bool                  -- R653
  lux : Nat                        -- R654
  occArea : Byte                   -- R464: OCC_AREA as it acts since the last STATS frame
  lightArea : Byte                 -- R464: LIGHT_AREA, likewise
  areasNext : Option (Byte × Byte) -- R464: both, committed by a DALI_CFG, for the sender's next STATS frame
  pendingEv : List (Nat × Nat)     -- events waiting to be sent: instance, event information
  timerOn : Vector Bool 2          -- R652: report or deadtime timer running
  searchAddr : BitVec 24           -- R652
  initialised : Bool               -- R652
  answer : Option Byte             -- R652: the last backward frame sent
  sentEv : List (Nat × Nat)        -- events sent, newest first, at most one kept
  deriving DecidableEq, Repr

/-- A flow (R489): SRC, DST and, for DATA, the polder; `none` for management kinds. -/
structure Flow where
  src : BitVec 12
  dst : BitVec 12
  pol : Option PolId
  deriving DecidableEq, Repr

/-- What a line frame carries (R472). -/
inductive TxBody where
  | ackOnly
  | data (p : OutPacket)
  | wake
  | join (j : JoinFields)
  | beacon (b : BeaconFields)
  | discover (filter : Byte) (value : BitVec 56)
  | route (hops : List Byte)
  | drain (d : DrainFields)
  | drainDone (d : DrainFields)
  deriving DecidableEq, Repr

/-- A line frame the node sends (R471). -/
structure TxFrame where
  dst : BitVec 12
  src : BitVec 12
  ackmap : BitVec 63
  isNew : Bool
  fseq : BitVec 3
  body : TxBody
  deriving DecidableEq, Repr

/-- A sent frame that waits for its acknowledgement (R488). -/
structure Unacked where
  flow : Flow
  frame : TxFrame
  hop : BitVec 12
  tries : Nat
  slot : Nat                       -- R487: the data slot it was last sent in
  cycle : W32
  unread : Bool                    -- R488: the hop receiver's first frame after it has not been heard
  at_ : Nat                        -- R491: the elapsed ticks since which it has waited in this node
  deriving DecidableEq, Repr

/-- A receiver's state of a flow (R490). -/
structure RxFlow where
  flow : Flow
  fseq : BitVec 3
  wasNew : Bool
  at_ : Nat
  deriving DecidableEq, Repr

/-- A sender's state of a flow (R373, R489, R490): the next FSEQ, whether its first frame has been sent, and the elapsed ticks at
which a new frame was sent last. -/
structure TxFlow where
  flow : Flow
  next : BitVec 3
  started : Bool
  sentAt : Nat
  deriving DecidableEq, Repr

/-- A frame in a bridge's forward buffer (R491), and the port it leaves by. -/
structure FwdFrame where
  flow : Flow
  body : TxBody
  at_ : Nat
  deriving DecidableEq, Repr

/-- A claimant change being drained (R501). -/
structure HoldBack where
  segU : BitVec 6
  old : BitVec 12
  frames : List FwdFrame
  deriving DecidableEq, Repr

/-- An advert heard from a bridge (R498, R499). -/
structure Advert where
  from_ : BitVec 12
  hops : List Byte
  deriving DecidableEq, Repr

/-- One line port (R474 to R509). -/
structure LinePort where
  counters : Vector Nat 15         -- R509, in its order
  modeBeacons : Nat                -- R494: beacons heard, up to 3
  modeSeg : BitVec 6
  modeReeve : BitVec 64
  modeRun : Nat                    -- R494: beacons heard in a row of one SEGMENT and REEVE_ID, up to 3
  heardBeacon : Bool               -- R477, R506
  last : Option BeaconFields       -- last accepted beacon
  lastSrc : BitVec 12
  reeveBeacons : Nat               -- R520: beacons heard in a row from lastSrc, up to 3
  skip : Nat                       -- R592: the line skip level in effect
  rxTb : Tb                        -- R515: t_r of the last beacon
  missed : Nat                     -- R475
  cycle : W32                      -- R474: the current CYCLE
  slotFrom : Bool                  -- R477, R497: the data slot may be used in this cycle
  slotNext : Bool                  -- R482, R497: the latest beacon leaves the node its slot from the next cycle on
  slotsSent : Nat                  -- R477: data slots of this cycle the node has used
  window : Nat                     -- R476: W
  attempts : Nat                   -- R476
  backoff : Nat                    -- R476
  contention : List TxFrame        -- frames waiting for contention
  mgmt : List TxFrame              -- management traffic waiting for a slot (R485)
  unacked : List Unacked           -- R488, R489
  rxFlows : List RxFlow            -- R490
  txFlows : List TxFlow            -- R490
  ackPending : BitVec 63           -- R487
  conflictRun : Nat                -- R496
  conflictNow : Bool               -- R496: a collision in this cycle
  conflict : Bool                  -- R496
  mismatch : Bool                  -- R495
  fwd : List FwdFrame              -- R491
  adverts : List Advert            -- R498
  claimants : List (BitVec 6 × BitVec 12)  -- R500
  holdBacks : List HoldBack        -- R501
  wakeSent : List (BitVec 12)      -- R505: destinations a WAKE has been sent to
  lastTx : Option TxFrame          -- the frame last put on the line
  txBits : List Bool               -- R470, R471: its bits, preamble included, in the order sent
  deriving DecidableEq, Repr

/-- A ROLE_SWAP pending on this node (R445, R535, R537). -/
structure SwapPending where
  role : SwapRole
  peer : BitVec 12
  stamp : Tb
  crossed : Option Tb              -- the peer's stamp once the requests have crossed
  stands : Bool
  answered : Bool                  -- R535 step 1: the request is repeated no more
  deriving DecidableEq, Repr

/-- A handover the node takes part in (R538, R539). -/
structure Handover where
  role : SwapRole
  peer : BitVec 12
  stamp : BitVec 48
  holder : Bool
  phase : Nat
  at_ : Tb                         -- R445: the time base at the change
  deriving DecidableEq, Repr

/-- An entry of the routing table (R447, R499). -/
structure RouteEntry where
  segment : BitVec 6
  port : Port
  hops : Nat
  draining : Bool
  nextHop : BitVec 12
  deriving DecidableEq, Repr

/-- The fabric role and its procedures (R442 to R449, R475 to R541). -/
structure Fabric where
  addr : BitVec 12                 -- R442: in force
  provisional : Bool               -- R483
  key : BitVec 128                 -- R443: in force
  keyId : Byte
  rank : Byte                      -- R444
  role : Fin 3                     -- R441
  homeB : Bool                     -- R478: the home port is B
  hops : Byte                      -- R516
  following : Bool                 -- R521
  synced : Bool                    -- R524
  timeFar : Bool                   -- R523
  delay : Nat                      -- R520: d in ticks
  ranged : Bool                    -- R520
  thetas : List Int                -- R522: offsets of the last 16 followed beacons
  cycle : W32                      -- R492: CYCLE of the reeve's next beacon
  held : BitVec 64                 -- R480
  present : BitVec 64              -- R480
  heardNow : BitVec 64             -- R480: slots heard in the current cycle
  lend : BitVec 64                 -- R480
  bridges : BitVec 64              -- R480
  absent : List Nat                -- R481: 64 counts
  copyPresent : Nat                -- R532: beacons that still copy PRESENT
  joinQueue : List (BitVec 64)     -- R483
  known : List (BitVec 12 × BitVec 64)  -- R446, R538: unique IDs heard with an address, from JOIN and BEACON
  grantId : BitVec 64              -- R483
  grantSlot : Byte                 -- R483
  candidate : Bool                 -- R531: a delay is running
  presumed : Bool                  -- R530
  swap : Option SwapPending        -- R535
  handover : Option Handover       -- R538, R539
  doneSent : Option (SwapRole × BitVec 12 × BitVec 48)  -- R537: the SWAP_DONE last sent
  doneLeft : Nat                   -- R535 step 4: repeats of it still to send
  routes : List RouteEntry         -- R499
  drainCount : W16                 -- R502
  drainsSeen : List (Bool × DrainFields × Nat)  -- R502: DRAIN_DONE or DRAIN, and the elapsed ticks it was handled at
  spill : Nat                      -- R361: untagged spillway
  spillDest : List Path            -- R361: destinations served in this round
  deriving DecidableEq, Repr

/-- The JTAG instructions (R611). -/
inductive JtagIr where
  | extest
  | idcode
  | samplePreload
  | debug
  | array
  | mbist
  | scan
  | release
  | bypass
  deriving DecidableEq, Repr

/-- The test access port (R611 to R614, R695). -/
structure Jtag where
  ir : JtagIr
  boundary : BitVec 99             -- R613
  halted : Bool                    -- R611
  dataOut : List Byte              -- what the selected data register returned last
  tcm : List Host.Cell             -- R134: TCM bytes written by DEBUG, canonical
  deriving DecidableEq, Repr

/-- What waits until the transport has carried an owner reply (R148, R425, R603, R620). -/
inductive CarryWhy where
  | powerEntry
  | sysReset
  | lifecycle
  | selfTest
  deriving DecidableEq, Repr

/-- A wait for the reply with ESN `esn` to be carried (R148). -/
structure Carry where
  why : CarryWhy
  esn : Nat
  carried : Bool
  deriving DecidableEq, Repr

/-- The node. `pending` is the queue of commands waiting for `step`; `freeCtr` is the model's own counter of the
free values drawn so far. -/
structure State where
  pending : List Instr
  freeCtr : Nat
  clock : Clock
  power : Power
  holdup : Holdup
  wheel : Wheel
  lands : Lands
  cols : Columns
  pols : Vector Polder 8
  ka : Option KeyAgreement         -- R324
  curSlice : Option PolId          -- R352: the slice in progress
  arr : ArrayS
  life : Life
  bist : Bist
  therm : Thermal
  host : HostPort
  dali : Dali
  lineA : LinePort
  lineB : LinePort
  fab : Fabric
  jtag : Jtag
  restartCause : Nat               -- R679
  carries : List Carry             -- R148, R425, R603, R620: what waits for a reply to be carried
  early : List EventRec            -- R72, R273, R483, R623, R675: owner events that wait for the owner's records to flow
  deriving DecidableEq, Repr

/-- Why a step stops with a fault. -/
inductive Fault where
  /-- Raised by an input outside the absolute maximum or operating ratings (R69, R70, R697), for which the spec
  gives no result. Safe: the model stops where the hardware's behaviour has no specified function. -/
  | outsideRatings
  deriving DecidableEq, Repr

/-- Why a step has no meaning. -/
inductive Refusal where
  /-- The row of this mnemonic has no meaning in the model yet. Safe. -/
  | notModelled (mnemonic : String)
  deriving DecidableEq, Repr

/-- An empty selection with the default sections and reflectance of R290. -/
def Selection.initial : Selection := { sections := 0x3f, rho := 20, areas := [] }

/-- The charter of an absent polder: every field 0 (R335). -/
def Charter.none : Charter :=
  { slots := 0, zoneMask := 0, selection := Selection.initial, readQuota := 0, bind := 0, idHash := 0, creationNo := 0 }

/-- The defaults of R187 at the default frame period. -/
def Expo.initial : Expo :=
  { x0 := 0, w := 1600, y0 := 0, h := 1200, bin := 0, depth10 := false, nexp := 1, triggered := false,
    srcTrigIn := false, srcCompare := false, srcCommand := true, lock := .none, phase := 0, lockDiv := 2,
    again := 1, eL := 400000, dM := 1, dS := 1, lockDelay := 0, aLock := 0 }

/-- Counters at 0 (R376). -/
def PolCounters.zero : PolCounters :=
  { intakeDrop := 0, authFail := 0, seqGap := 0, queueFull := 0, retryQueued := 0, dupServed := 0, dlvSpill := 0 }

/-- The key of the test session and of the claimant: all zero (R609). -/
def testKey : BitVec 128 := 0

/-- An absent polder: nothing of it exists (R332). -/
def Polder.none : Polder :=
  { state := .absent, key := testKey, charter := Charter.none, charterNext := Option.none, nextAdmit := 0,
    intake := [], queue := [], serving := Option.none, replyQ := [], journal := [], assembly := Option.none,
    answerHold := Option.none, kept := Option.none, path := Option.none, cR := 65536, sR := 65536, ersEq := 0,
    dlv := [], events := [], lastFrame := Option.none, cnt := PolCounters.zero, expo := Expo.initial,
    shadow := Option.none, shadowFrame := 0, trigPending := Option.none, trigOverrun := 0, trigDropped := 0,
    occ := Vector.replicate 4 { state := 0, count := 0, hold := 0 }, lastEval := Option.none, holdFresh := true,
    motionRef := List.replicate 4800 { num := 0, den := 1 }, motionInit := true, initFrom := [],
    throttled := false, slow := 0, gone := Option.none }

/-- A disarmed compare channel with every field 0 (R117). -/
def Tcmp.zero : Tcmp :=
  { value := { sec := 0, sub := 0 }, period := 0, arm := false, wake := false, expose := false, stamp := false,
    fired := false, missed := 0, fires := 0, wrapped := false, openEv := none, closedEvs := [] }

/-- TB = 0. -/
def Tb.zero : Tb := { sec := 0, sub := 0 }

/-- A line port that has just started (R490, R497, R509). -/
def LinePort.initial : LinePort :=
  { counters := Vector.replicate 15 0, modeBeacons := 0, modeSeg := 0, modeReeve := 0, modeRun := 0,
    heardBeacon := false, last := none, lastSrc := 0, reeveBeacons := 0, skip := 0, rxTb := Tb.zero, missed := 0, cycle := 0xffffffff,
    slotFrom := false, slotNext := false, slotsSent := 0, window := 64, attempts := 0, backoff := 0, contention := [], mgmt := [], unacked := [],
    rxFlows := [], txFlows := [], ackPending := 0, conflictRun := 0, conflictNow := false, conflict := false, mismatch := false,
    fwd := [], adverts := [], claimants := [], holdBacks := [], wakeSent := [], lastTx := none, txBits := [] }

/-- The host window and FIFOs at their reset values (R634 to R640). -/
def HostPort.initial : HostPort :=
  { sel := none, xfer := none, leaving := none, tx := [], rx := [], rxRead := 0, readOut := [], readBytes := [], headerOut := 0, wakeDone := false, txOvf := false,
    pktErr := false, rxUnf := false, lcChange := false, irqEn := 0x00000005, txOvfCnt := 0, pktErrCnt := 0,
    bindMissCnt := 0, rxUnfCnt := 0, waiting := [] }

/-- The DALI item at its reset values (R656). -/
def DaliItem.initial : DaliItem :=
  { occArea := 0xff, lightArea := 0xff, shortAddr := 0xff, randomAddr := 0xffffff, settings := 0 }

/-- The DALI function with an idle bus (R657). -/
def Dali.initial : Dali :=
  { busDown := false, occupied := false, movement := false, lux := 0, occArea := 0xff, lightArea := 0xff, areasNext := none, pendingEv := [],
    timerOn := Vector.replicate 2 false, searchAddr := 0xffffff, initialised := false, answer := none, sentEv := [] }

/-- The fabric roles of a node that has just started (R511, R516, R524). -/
def Fabric.initial : Fabric :=
  { addr := 0xfff, provisional := false, key := 0, keyId := 0, rank := 0, role := 0, homeB := false, hops := 0xff,
    following := false, synced := false, timeFar := false, delay := 0,
    ranged := false, thetas := [], cycle := 0, held := 0, present := 0, heardNow := 0, lend := 0, bridges := 0,
    absent := List.replicate 64 0, copyPresent := 0, joinQueue := [], known := [], grantId := 0, grantSlot := 0xff,
    candidate := false, presumed := false, swap := none, handover := none, doneSent := none, doneLeft := 0, routes := [],
    drainCount := 0, drainsSeen := [], spill := 0, spillDest := [] }

/-- The FABRIC item at its factory values (R478, R479, R513, R529). -/
def FabricItem.factory : FabricItem :=
  { addr := 0xfff, addrNext := 0xfff, key := 0, keyId := 0, keyNext := 0, keyIdNext := 0, rank := 0, root := false,
    periodFabric := false, fabPeriod := 0 }

/-- The WHEEL item at its factory values (R191, R260, R673). -/
def WheelItem.factory : WheelItem := { period := 6666800, rampInterval := 1125, rampSlot := 0xff, fR := 0 }

/-- A region without a valid commit. -/
def Region.blank : Region :=
  { content := [], len := 0, isOpen := false, valid := false, sig := 0, half := false, version := 0 }

/-- MFG as shipped (notes/assumptions/2.md). -/
def MfgItem.factory : MfgItem :=
  { valid := true, kLin := 200, shading := List.replicate 300 1000, matrix := [65536, 0, 0, 0, 65536, 0, 0, 0, 65536], refTrims := [],
    biasTrims := [], certificate := List.replicate 144 0, hasKeyPair := true }

/-- Every trim code 0 (R273). -/
def TrimTab.zero : TrimTab := { trims := List.replicate 1632 { offset := 0, gain := 0 }, slopeA := 0, slopeB := 0 }

/-- The array of a node as shipped: MFG and TRIMTAB have a copy, every other item has its factory value (R1, R555;
notes/assumptions/2.md). -/
def ArrayS.factory : ArrayS :=
  { cells := [], mfg := MfgItem.factory, trimTab := some TrimTab.zero,
    colState := none, fabric := FabricItem.factory, wheel := WheelItem.factory, bootImage := 0, bootField := none,
    dali := DaliItem.initial, creation := 0, stored := Vector.replicate 8 none, seqs := Vector.replicate 8 none,
    copies := [{ item := 0x01, slot := 0, gen := 1, value := .mfg MfgItem.factory },
               { item := 0x02, slot := 0, gen := 1, value := .trimTab TrimTab.zero }],
    writes := [], jobs := [], heldJobs := [], applied := Vector.replicate 8 0, used := (0, 0), commitTimes := [], updates := [], lostHandles := [],
    fw0 := { content := [], len := 128, isOpen := false, valid := true, sig := 1, half := false, version := 1 },
    fw1 := Region.blank, user := Region.blank, logCells := [], logPage := 0, lseqDone := 0, logBuf := [], lseq := 0, logTimes := [], logSpill := 0,
    retired := [], spares0 := 256, spares1 := 256, running := 0, fabricWaits := false, ownerStarts := 16 }

/-- The converters with every group LIVE and every trim 0 (R240, R245). -/
def Columns.initial : Columns :=
  { groups := List.replicate 32 { state := .live, replOffset := 0, defects := 0, maxDiff := 0, runMax := 0,
                                  diffCount := 0, abandoned := false },
    defectMap := [], mapFull := false, trims := List.replicate 1632 { offset := 0, gain := 0 }, slopeA := 0, slopeB := 0,
    pendingTrims := [], measured := none, bgSettled := [], beyondMap := [], spareSlots := [], qualSlots := [],
    calRun := none, calFrame := 0, calStarted := false, calRedo := none, restartDue := true, rampInterval := 1125,
    rampSlot := 0xff, scheduleNext := none,
    counters := { bgDone := 0, bgReject := 0, bgSkipped := 0, spareDone := 0, spareReject := 0, rampDone := 0, rampReject := 0 },
    quality := { ofsResA := 0, ofsResB := 0, gainResA := 0, gainResB := 0, rampErrA := 0, rampErrB := 0, rampFrame := 0, resFrame := 0 },
    trimChanged := false, revsSinceWrite := none }

/-- The wheel stopped, its next frame number 0 (R139, R673). -/
def Wheel.initial : Wheel :=
  { turning := false, nextFrame := 0, period := 6666800, periodNext := none, holders := Vector.replicate 16 none,
    slot := none, bus := { frameValid := false, tag := [0, 0, 0, 0], lanes := [] }, slotTb := Tb.zero, fork := none, enclave := none, lastSlotFrame := Vector.replicate 8 none, stopRequested := false,
    pauses := 0, pauseCount := 0, fR := 0, uncovered := false, announcedUncovered := false, firstFrame := 0,
    heldPeriods := [] }

/-- The imaging-control lands at reset (R45, R206, R209). -/
def Lands.initial : Lands :=
  { straps := { commissionLow := false, adr0High := false, adr1High := false }, commissionStays := false,
    pixDisable := false, pixMode := 0, pixNext := none, pixFrame := [], refractory := false, strobe := false,
    sync := { lastEdge := none, missingRun := 0, badRun := 0, validPeriod := 0, validEdge := Tb.zero, validAt := 0,
              lost := false, agreeRun := 0, measured := 0, prev := none },
    beaconPhase := { valid := false, everValid := false, edge := Tb.zero, period := 0 } }

/-- The domains as they come up (R139): 1 to 4 OFF, 5 to 12 ON. -/
def domainsAtReset : Vector DomState 12 :=
  #v[.off, .off, .off, .off, .on, .on, .on, .on, .on, .on, .on, .on]

/-- The power controller at the release of RESET_N with line power on port A (R139, R648). -/
def Power.initial : Power :=
  { presentA := true, presentB := false, feedA := true, feedB := false, lineGood := true, shedding := false, resetLow := false, aonReady := true,
    seqRunning := false, accepting := false, discoveryOver := false, vauxOn := true, vauxFaultSent := false,
    vioLost := false, vioWaits := false, doms := domainsAtReset, points := Vector.replicate 4 0, pointNext := Vector.replicate 4 none,
    wakeSet := 0, wakeEn := 0, portMode := .unknown, entry := none, pendingEntry := none, ret := none, latches := 0,
    firstLatch := none, lateWake := false, entryEnd := Tb.zero, entryRef := 0, replay := [],
    refusals := Vector.replicate 12 0, refusalLog := [] }

/-- The holdup store at a start of the charger (R93). -/
def Holdup.initial : Holdup :=
  { low := true, charger := true, lastMv := 0, startedBelow4 := true, firstMeasure := true, sinceV4 := none, chargeSum := 0,
    reached14 := false, seen12 := false, checkPassed := false, firstOkDone := false, lowSent := false, deadlineOpen := true, starting := true, holding := false,
    lastReason := 0 }

/-- The thermal model at its initial values (R582, R583). -/
def Thermal.initial : Thermal :=
  { sites := Vector.replicate 6 { num := 10000, den := 1 }, module := { num := 10000, den := 1 }, raised := [],
    overCount := Vector.replicate 13 0, broken := Vector.replicate 13 false, disagree := Vector.replicate 13 0,
    currents := Vector.replicate 13 0, moduleDraw := 0, step := 0,
    chargeSum := Vector.replicate 13 { num := 0, den := 1 }, chargeTicks := 0 }

/-- The clocks at the release of RESET_N: TB = 0 and counting (R112). -/
def Clock.initial : Clock :=
  { tb := Tb.zero, elapsed := 0, running := true, pllOn := true, onPix := true, hold := none, secShadow := 0, subOut := 0, staged := none,
    slew := none, tcmp := Vector.replicate 16 Tcmp.zero }

/-- No self-test has found a fault (R617). -/
def Bist.initial : Bist :=
  { unusable := 0, lastBlocks := 0, lastFailed := 0, lastAlgo := 0, job := none, faultSlots := Vector.replicate 12 0 }

/-- The node right after reset: a node as shipped, at the release of RESET_N with line power on port A, before
its firmware has started (R1, R139, R648; notes/assumptions/1.md and 2.md). Values the spec does not state are
named in notes/assumptions/2.md. -/
def State.reset : State :=
  { pending := [], freeCtr := 0, clock := Clock.initial, power := Power.initial, holdup := Holdup.initial,
    wheel := Wheel.initial, lands := Lands.initial, cols := Columns.initial, pols := Vector.replicate 8 Polder.none,
    ka := none, curSlice := none, arr := ArrayS.factory,
    life := { mfgDone := true, fieldOnce := false, fuseReturn := false, fuseScrapped := false, shadow := .commission,
              cleared := false, pending := none, uid := 0x1612000000000001 },
    bist := Bist.initial, therm := Thermal.initial, host := HostPort.initial, dali := Dali.initial,
    lineA := LinePort.initial, lineB := LinePort.initial, fab := Fabric.initial,
    jtag := { ir := .idcode, boundary := 0, halted := false, dataOut := [], tcm := [] },
    restartCause := 2, carries := [], early := [] }

end Sys2Proof.Machine
end

