-- ==== Sys2Proof/Machine/Arith.lean ====
section
/-! DEFINITION. Arithmetic the rules use: saturating counters, little-endian fields, fractions, time-base words
and frame numbers. -/

namespace Sys2Proof.Machine

/-- One more, saturating at `top` (R152, R196, R268, R376, R509, R637). -/
def satInc (top n : Nat) : Nat := if n < top then n + 1 else top

/-- A 16-bit saturating count (R376). -/
def sat16 (n : Nat) : Nat := satInc 65535 n

/-- Bits hi to lo of a word (R8). -/
def bits (v hi lo : Nat) : Nat := (v / 2 ^ lo) % 2 ^ (hi - lo + 1)

/-- Bit i of a word. -/
def bit (v i : Nat) : Bool := v.testBit i

/-- The n bytes of a value, little-endian (R9). -/
def leBytes : Nat → Nat → List Byte
  | 0, _ => []
  | n + 1, v => BitVec.ofNat 8 v :: leBytes n (v / 256)

/-- The value of little-endian bytes (R9). -/
def leNat : List Byte → Nat
  | [] => 0
  | b :: rest => b.toNat + 256 * leNat rest

/-- The value of `n` bytes at byte `off` of a parameter area; bytes beyond its end read 0. -/
def field (params : List Byte) (off n : Nat) : Nat := leNat ((params.drop off).take n)

/-- Byte i of a list, 0 beyond its end. -/
def byteAt (bs : List Byte) (i : Nat) : Byte := bs.getD i 0

/-- A signed value of `n` bits from its two's complement word. -/
def signedOf (n v : Nat) : Int := if v % 2 ^ n < 2 ^ (n - 1) then (v % 2 ^ n : Nat) else ((v % 2 ^ n : Nat) : Int) - (2 ^ n : Nat)

/-- The two's complement word of `n` bits of a signed value. -/
def wordOf (n : Nat) (v : Int) : Nat := (v.emod ((2 ^ n : Nat) : Int)).toNat

/-- Padding of a byte list with zeros to `n` bytes. -/
def padTo (n : Nat) (bs : List Byte) : List Byte := bs ++ List.replicate (n - bs.length) 0

/-- The number a Bool stands for in a field. -/
def b2n (b : Bool) : Nat := if b then 1 else 0

/-- The lowest set bit of a map below `n`, if any. -/
def lowestBit (n : Nat) (v : Nat) : Option Nat := (List.range n).find? (fun i => v.testBit i)

/-- The number of set bits of a map below `n`. -/
def countBits (n : Nat) (v : Nat) : Nat := ((List.range n).filter (fun i => v.testBit i)).length

end Sys2Proof.Machine

namespace Sys2Proof

/-! ### Fractions -/

/-- A fraction in lowest terms. -/
def Frac.norm (a : Frac) : Frac :=
  let g := Nat.gcd a.num.natAbs a.den
  if g = 0 then { num := 0, den := 1 } else { num := a.num / (g : Int), den := a.den / g }

def Frac.ofInt (n : Int) : Frac := { num := n, den := 1 }
def Frac.ofNat (n : Nat) : Frac := { num := n, den := 1 }
def Frac.add (a b : Frac) : Frac := Frac.norm { num := a.num * b.den + b.num * a.den, den := a.den * b.den }
def Frac.neg (a : Frac) : Frac := { num := -a.num, den := a.den }
def Frac.sub (a b : Frac) : Frac := a.add b.neg
def Frac.mul (a b : Frac) : Frac := Frac.norm { num := a.num * b.num, den := a.den * b.den }

/-- The quotient; 0 where the divisor is 0 (callers exclude it). -/
def Frac.div (a b : Frac) : Frac :=
  if b.num = 0 then { num := 0, den := 1 }
  else if 0 < b.num then Frac.norm { num := a.num * b.den, den := a.den * b.num.natAbs }
  else Frac.norm { num := -(a.num * b.den), den := a.den * b.num.natAbs }

def Frac.lt (a b : Frac) : Bool := decide (a.num * b.den < b.num * a.den)
def Frac.le (a b : Frac) : Bool := decide (a.num * b.den ≤ b.num * a.den)
def Frac.abs (a : Frac) : Frac := { num := a.num.natAbs, den := a.den }
def Frac.max (a b : Frac) : Frac := if a.lt b then b else a
def Frac.min (a b : Frac) : Frac := if b.lt a then b else a
def Frac.isZero (a : Frac) : Bool := a.num == 0

/-- The greatest whole number not above the fraction. -/
def Frac.floor (a : Frac) : Int := if a.den = 0 then 0 else a.num / (a.den : Int)

/-- Rounding to nearest, halves away from zero (R253, R293). -/
def Frac.round (a : Frac) : Int :=
  if a.den = 0 then 0
  else if 0 ≤ a.num then (2 * a.num + a.den) / (2 * (a.den : Int))
  else -((2 * (-a.num) + a.den) / (2 * (a.den : Int)))

/-- The sum of fractions. -/
def Frac.sum (l : List Frac) : Frac := l.foldl Frac.add (Frac.ofInt 0)

/-- The mean of fractions; 0 of none. -/
def Frac.mean (l : List Frac) : Frac := if l.isEmpty then Frac.ofInt 0 else (Frac.sum l).div (Frac.ofNat l.length)

/-- The mean of whole numbers; 0 of none. -/
def meanNat (l : List Nat) : Frac :=
  if l.isEmpty then Frac.ofInt 0 else Frac.norm { num := (l.sum : Nat), den := l.length }

/-- The whole square root, rounded down. -/
def isqrt (n : Nat) : Nat := Nat.sqrt n

/-! ### Time base (R109, R111, R120) -/

/-- The ticks a TB word stands for. -/
def Tb.ticks (t : Tb) : Nat := t.sec.toNat * ticksPerSec + t.sub.toNat

/-- The TB word of a count of ticks, SEC wrapping modulo 2^32 (R111). -/
def Tb.ofTicks (n : Nat) : Tb :=
  { sec := BitVec.ofNat 32 (n / ticksPerSec), sub := BitVec.ofNat 29 (n % ticksPerSec) }

/-- TB as the 64-bit word of R109. -/
def Tb.word (t : Tb) : Nat := t.sec.toNat * 2 ^ 32 + t.sub.toNat

/-- The TB of a 64-bit word in the layout of R109; reserved bits are dropped. -/
def Tb.ofWord (w : Nat) : Tb := { sec := BitVec.ofNat 32 (w / 2 ^ 32), sub := BitVec.ofNat 29 w }

/-- Unsigned comparison of TB words (R119). -/
def Tb.le (a b : Tb) : Bool := decide (a.word ≤ b.word)

/-- A TB word as eight bytes. -/
def Tb.bytes (t : Tb) : List Byte := Machine.leBytes 8 t.word

/-- A TB moved on by a count of ticks. -/
def Tb.plus (t : Tb) (n : Nat) : Tb := Tb.ofTicks (t.ticks + n)

/-- The signed difference of two TB words in ticks. -/
def Tb.diff (a b : Tb) : Int := (a.ticks : Int) - (b.ticks : Int)

end Sys2Proof

namespace Sys2Proof.Machine

/-! ### Frame numbers (R33) -/

/-- `a` is later than `b` under modulo-2^32 comparison (R33). -/
def frameLater (a b : W32) : Bool := decide (a ≠ b) && decide ((a - b).toNat < 2 ^ 31)

/-- The later of two frame numbers. -/
def frameMax (a b : W32) : W32 := if frameLater a b then a else b

/-- The wheel slot index of a frame (R30). -/
def slotIndex (f : W32) : Nat := f.toNat % 16

/-- The first frame of the first revolution that begins at or after frame `f` (R30). -/
def revolutionAtOrAfter (f : W32) : W32 := BitVec.ofNat 32 ((f.toNat + 15) / 16 * 16)

/-- The first frame of the revolution that holds frame `f`. -/
def revolutionOf (f : W32) : W32 := BitVec.ofNat 32 (f.toNat / 16 * 16)

/-- The first frame at or after `f` whose wheel slot is in the map; `f` where the map is empty. -/
def nextFrameOf (slots : W16) (f : W32) : W32 :=
  match (List.range 16).find? (fun i => slots.toNat.testBit ((f.toNat + i) % 16)) with
  | some i => f + BitVec.ofNat 32 i
  | none => f

/-- The lowest wheel slot of a map (R394, R437); 0 where the map is empty. -/
def lowestSlot (slots : W16) : Nat := (lowestBit 16 slots.toNat).getD 0

end Sys2Proof.Machine
end

