-- ==== Sys2Proof/Machine/Crypto.lean ====
section
/-! DEFINITION. The cryptographic standards the rules name and do not restate (R321, R322, R341, R416, R507): SHA-256 (FIPS 180-4),
HMAC and HKDF (RFC 2104, RFC 5869), AES-128 (FIPS 197), CMAC (SP 800-38B), CCM (SP 800-38C), and P-256 with ECDSA (FIPS 186-4).
Their tables and constants are the standards' (PRESUMED: notes/assumptions/4.md). -/

namespace Sys2Proof.Machine

/-! ### Big-endian integers (R416) -/

/-- The value of big-endian bytes. -/
def beNat (bs : List Byte) : Nat := bs.foldl (fun n b => 256 * n + b.toNat) 0

/-- The n bytes of a value, big-endian. -/
def beBytes (n v : Nat) : List Byte := (leBytes n v).reverse

/-- Bytes as numbers. -/
def octets (bs : List Byte) : List Nat := bs.map (fun b => b.toNat)

/-- Numbers as bytes. -/
def ofOctets (l : List Nat) : List Byte := l.map (fun v => BitVec.ofNat 8 v)

/-! ### SHA-256 -/

/-- The round constants, four 32-bit words to a row, lowest word first. -/
def shaTable : List Nat :=
  [0xE9B5DBA5B5C0FBCF71374491428A2F98, 0xAB1C5ED5923F82A459F111F13956C25B,
   0x550C7DC3243185BE12835B01D807AA98, 0xC19BF1749BDC06A780DEB1FE72BE5D74,
   0x240CA1CC0FC19DC6EFBE4786E49B69C1, 0x76F988DA5CB0A9DC4A7484AA2DE92C6F,
   0xBF597FC7B00327C8A831C66D983E5152, 0x1429296706CA6351D5A79147C6E00BF3,
   0x53380D134D2C6DFC2E1B213827B70A85, 0x92722C8581C2C92E766A0ABB650A7354,
   0xC76C51A3C24B8B70A81A664BA2BFE8A1, 0x106AA070F40E3585D6990624D192E819,
   0x34B0BCB52748774C1E376C0819A4C116, 0x682E6FF35B9CCA4F4ED8AA4A391C0CB3,
   0x8CC7020884C8781478A5636F748F82EE, 0xC67178F2BEF9A3F7A4506CEB90BEFFFA]

/-- Round constant t. -/
def shaK (t : Nat) : Nat := (shaTable.getD (t / 4) 0 >>> (32 * (t % 4))) % 2 ^ 32

/-- A 32-bit word rotated right. -/
def rotr (n x : Nat) : Nat := ((x >>> n) ||| (x <<< (32 - n))) % 2 ^ 32

/-- The 16 words of a block, big-endian. -/
def blockWords : Nat → List Byte → List Nat
  | 0, _ => []
  | n + 1, bs => beNat (bs.take 4) :: blockWords n (bs.drop 4)

/-- The next word of the message schedule from the last 16. -/
def nextWord (w : List Nat) : Nat :=
  let x := w.getD 1 0
  let y := w.getD 14 0
  (w.getD 0 0 + (rotr 7 x ^^^ rotr 18 x ^^^ (x >>> 3)) + w.getD 9 0 + (rotr 17 y ^^^ rotr 19 y ^^^ (y >>> 10))) % 2 ^ 32

/-- One round on the eight working words. -/
def shaRound (k w : Nat) : List Nat → List Nat
  | [a, b, c, d, e, f, g, h] =>
    let t1 := h + (rotr 6 e ^^^ rotr 11 e ^^^ rotr 25 e) + ((e &&& f) ^^^ ((0xFFFFFFFF ^^^ e) &&& g)) + k + w
    let t2 := (rotr 2 a ^^^ rotr 13 a ^^^ rotr 22 a) + ((a &&& b) ^^^ (a &&& c) ^^^ (b &&& c))
    [(t1 + t2) % 2 ^ 32, a, b, c, (d + t1) % 2 ^ 32, e, f, g]
  | l => l

/-- `n` rounds from round t on: the schedule's window of 16 words and the working words. -/
def shaRounds : Nat → Nat → List Nat → List Nat → List Nat
  | 0, _, _, v => v
  | n + 1, t, w, v => shaRounds n (t + 1) (w.drop 1 ++ [nextWord w]) (shaRound (shaK t) (w.getD 0 0) v)

/-- One block into the hash value. -/
def shaBlock (h : List Nat) (block : List Byte) : List Nat :=
  List.zipWith (fun x y => (x + y) % 2 ^ 32) h (shaRounds 64 0 (blockWords 16 block) h)

/-- The blocks of a padded message, one after the other. -/
def shaBlocks : Nat → List Byte → List Nat → List Nat
  | 0, _, h => h
  | n + 1, bs, h => shaBlocks n (bs.drop 64) (shaBlock h (bs.take 64))

/-- The message padded to whole blocks. -/
def shaPad (bs : List Byte) : List Byte :=
  bs ++ [0x80] ++ List.replicate ((119 - bs.length % 64) % 64) 0 ++ beBytes 8 (8 * bs.length)

/-- The SHA-256 digest, 32 bytes (R322, R416). -/
def sha256 (bs : List Byte) : List Byte :=
  ((shaBlocks ((bs.length + 72) / 64) (shaPad bs)
    ([0x6A09E667, 0xBB67AE85, 0x3C6EF372, 0xA54FF53A] ++ [0x510E527F, 0x9B05688C, 0x1F83D9AB, 0x5BE0CD19])).map (beBytes 4)).flatten

/-- A digest as the word whose little-endian bytes are the digest's. -/
def sha256Word (bs : List Byte) : BitVec 256 := BitVec.ofNat 256 (leNat (sha256 bs))

/-- Bytes combined with one constant byte. -/
def xorAll (c : Byte) (bs : List Byte) : List Byte := bs.map (fun b => b ^^^ c)

/-- HMAC-SHA-256 under a key of at most 64 bytes. -/
def hmac (key msg : List Byte) : List Byte :=
  let k := padTo 64 key
  sha256 (xorAll 0x5C k ++ sha256 (xorAll 0x36 k ++ msg))

/-- The first 16 bytes of HKDF-SHA-256 (R321). -/
def hkdf16 (ikm salt info : List Byte) : List Byte := (hmac (hmac salt ikm) (info ++ [1])).take 16

/-! ### AES-128 -/

/-- The substitution table, 16 bytes to a row, lowest byte first. -/
def aesTable : List Nat :=
  [0x76ABD7FE2B670130C56F6BF27B777C63, 0xC072A49CAFA2D4ADF04759FA7DC982CA,
   0x1531D871F1E5A534CCF73F362693FDB7, 0x75B227EBE28012079A059618C323C704,
   0x842FE329B3D63B52A05A6E1B1A2C8309, 0xCF584C4A39BECB6A5BB1FC20ED00D153,
   0xA89F3C507F02F94585334D43FBAAEFD0, 0xD2F3FF1021DAB6BCF5389D928F40A351,
   0x73195D643D7EA7C41744975FEC130CCD, 0xDB0B5EDE14B8EE4688902A22DC4F8160,
   0x79E4959162ACD3C25C2406490A3A32E0, 0x08AE7A65EAF4566CA94ED58D6D37C8E7,
   0x8A8BBD4B1F74DDE8C6B4A61C2E2578BA, 0x9E1DC186B95735610EF6034866B53E70,
   0xDF2855CEE9871E9B948ED9691198F8E1, 0x16BB54B00F2D99416842E6BF0D89A18C]

/-- The substitution of one byte. -/
def sbox (b : Nat) : Nat := (aesTable.getD (b / 16) 0 >>> (8 * (b % 16))) % 256

/-- A byte multiplied by x in the field of AES. -/
def xtime (b : Nat) : Nat := if b < 128 then 2 * b else (2 * b ^^^ 0x11B) % 256

/-- Two lists combined place by place. -/
def xorLists (a b : List Nat) : List Nat := List.zipWith (fun x y => x ^^^ y) a b

/-- The state's bytes after ShiftRows, column by column. -/
def shiftRows (l : List Nat) : List Nat :=
  ([0, 5, 10, 15, 4, 9, 14, 3] ++ [8, 13, 2, 7, 12, 1, 6, 11]).map (fun i => l.getD i 0)

/-- MixColumns. -/
def mixColumns : List Nat → List Nat
  | a :: b :: c :: d :: rest =>
    let t := a ^^^ b ^^^ c ^^^ d
    (a ^^^ t ^^^ xtime (a ^^^ b)) :: (b ^^^ t ^^^ xtime (b ^^^ c)) :: (c ^^^ t ^^^ xtime (c ^^^ d)) :: (d ^^^ t ^^^ xtime (d ^^^ a)) :: mixColumns rest
  | l => l

/-- The next round key. -/
def nextRoundKey (rcon : Nat) (k : List Nat) : List Nat :=
  let t := [sbox (k.getD 13 0) ^^^ rcon, sbox (k.getD 14 0), sbox (k.getD 15 0), sbox (k.getD 12 0)]
  let w0 := xorLists (k.take 4) t
  let w1 := xorLists ((k.drop 4).take 4) w0
  let w2 := xorLists ((k.drop 8).take 4) w1
  w0 ++ w1 ++ w2 ++ xorLists (k.drop 12) w2

/-- Rounds 1 to 10, the last without MixColumns: rounds still to run, the round constant, the round key, the state. -/
def aesRounds : Nat → Nat → List Nat → List Nat → List Nat
  | 0, _, _, st => st
  | n + 1, rcon, k, st =>
    let k1 := nextRoundKey rcon k
    let s1 := shiftRows (st.map sbox)
    aesRounds n (xtime rcon) k1 (xorLists (if n = 0 then s1 else mixColumns s1) k1)

/-- AES-128 on one block of 16 bytes. -/
def aes128 (key block : List Nat) : List Nat := aesRounds 10 1 key (xorLists block key)

/-- A 128-bit key as its 16 bytes: byte 0 is the lowest of the word. -/
def keyOctets (key : BitVec 128) : List Nat := octets (leBytes 16 key.toNat)

/-- CBC-MAC over whole blocks, from a chaining value. -/
def cbcMac (key : List Nat) : Nat → List Nat → List Nat → List Nat
  | 0, _, c => c
  | n + 1, l, c => cbcMac key n (l.drop 16) (aes128 key (xorLists c (l.take 16)))

/-- Padding with zeros to whole blocks of 16. -/
def blockPad (l : List Nat) : List Nat := l ++ List.replicate ((16 - l.length % 16) % 16) 0

/-- Doubling in the field of CMAC. -/
def cmacDouble (l : List Nat) : List Nat :=
  let v := l.foldl (fun n b => 256 * n + b) 0
  octets (beBytes 16 (if v < 2 ^ 127 then 2 * v else (2 * v ^^^ 0x87) % 2 ^ 128))

/-- AES-CMAC, 16 bytes (SP 800-38B). -/
def cmac (key : List Nat) (msg : List Nat) : List Nat :=
  let k1 := cmacDouble (aes128 key (List.replicate 16 0))
  let n := if msg.length = 0 then 1 else (msg.length + 15) / 16
  let whole := msg.length % 16 = 0 ∧ msg.length ≠ 0
  let last := msg.drop (16 * (n - 1))
  let final := if whole then xorLists last k1 else xorLists (blockPad (last ++ [128])) (cmacDouble k1)
  cbcMac key n (msg.take (16 * (n - 1)) ++ final) (List.replicate 16 0)

/-! ### CCM with a tag of 8 bytes and a length field of 2 (R341) -/

/-- The counter block i of a nonce. -/
def ccmCounter (nonce : List Nat) (i : Nat) : List Nat := 1 :: nonce ++ [i / 256, i % 256]

/-- The key stream of n blocks from counter i on. -/
def ccmStream (key nonce : List Nat) : Nat → Nat → List Nat
  | 0, _ => []
  | n + 1, i => aes128 key (ccmCounter nonce i) ++ ccmStream key nonce n (i + 1)

/-- A payload combined with its key stream. -/
def ccmCrypt (key nonce payload : List Nat) : List Nat := xorLists payload (ccmStream key nonce ((payload.length + 15) / 16) 1)

/-- The tag of associated data (fewer than 65,280 bytes) and a payload. -/
def ccmTag (key nonce aad payload : List Nat) : List Nat :=
  let b0 := (64 * b2n (decide (aad ≠ [])) + 25) :: nonce ++ [payload.length / 256, payload.length % 256]
  let a := if aad = [] then [] else blockPad ([aad.length / 256, aad.length % 256] ++ aad)
  let m := b0 ++ a ++ blockPad payload
  xorLists ((cbcMac key (m.length / 16) m (List.replicate 16 0)).take 8) (aes128 key (ccmCounter nonce 0))

/-- The sealed form of a payload: encrypted, then the tag. -/
def ccmSeal (key nonce aad payload : List Nat) : List Nat := ccmCrypt key nonce payload ++ ccmTag key nonce aad payload

/-- The payload of a sealed form; `none` where the tag fails. -/
def ccmOpen (key nonce aad sealed : List Nat) : Option (List Nat) :=
  let payload := ccmCrypt key nonce (sealed.take (sealed.length - 8))
  if 8 ≤ sealed.length ∧ ccmTag key nonce aad payload = sealed.drop (sealed.length - 8) then some payload else none

/-! ### P-256 and ECDSA -/

/-- The field prime. -/
def p256 : Nat := 2 ^ 256 - 2 ^ 224 + 2 ^ 192 + 2 ^ 96 - 1

/-- The order of the base point. -/
def n256 : Nat := 0xFFFFFFFF00000000FFFFFFFFFFFFFFFFBCE6FAADA7179E84F3B9CAC2FC632551

/-- The coefficient b of the curve y² = x³ − 3x + b. -/
def b256 : Nat := 0x5AC635D8AA3A93E7B3EBBD55769886BC651D06B0CC53B0F63BCE3C3E27D2604B

/-- A point in Jacobian coordinates: (X / Z², Y / Z³), and the point at infinity where Z is 0. -/
structure JPoint where
  x : Nat
  y : Nat
  z : Nat
  deriving DecidableEq, Repr

/-- The base point. -/
def base256 : JPoint :=
  { x := 0x6B17D1F2E12C4247F8BCE6E563A440F277037D812DEB33A0F4A13945D898C296,
    y := 0x4FE342E2FE1A7F9B8EE7EB4A7C0F9E162BCE33576B315ECECBB6406837BF51F5, z := 1 }

/-- The point at infinity. -/
def infinity256 : JPoint := { x := 1, y := 1, z := 0 }

/-- a minus b modulo the prime, both below it. -/
def subP (a b : Nat) : Nat := (a + (p256 - b)) % p256

/-- The double of a point. -/
def JPoint.double (p : JPoint) : JPoint :=
  if p.z = 0 then infinity256
  else
    let yy := p.y * p.y % p256
    let s := 4 * p.x * yy % p256
    let zz := p.z * p.z % p256
    let m := 3 * subP p.x zz * (p.x + zz) % p256
    let x := subP (m * m % p256) (2 * s % p256)
    { x := x, y := subP (m * subP s x % p256) (8 * (yy * yy) % p256), z := 2 * p.y * p.z % p256 }

/-- The sum of two points. -/
def JPoint.add (p q : JPoint) : JPoint :=
  if p.z = 0 then q
  else if q.z = 0 then p
  else
    let z1 := p.z * p.z % p256
    let z2 := q.z * q.z % p256
    let u1 := p.x * z2 % p256
    let u2 := q.x * z1 % p256
    let s1 := p.y * q.z * z2 % p256
    let s2 := q.y * p.z * z1 % p256
    if u1 = u2 then (if s1 = s2 then p.double else infinity256)
    else
      let h := subP u2 u1
      let r := subP s2 s1
      let h2 := h * h % p256
      let h3 := h * h2 % p256
      let v := u1 * h2 % p256
      let x := subP (subP (r * r % p256) h3) (2 * v % p256)
      { x := x, y := subP (r * subP v x % p256) (s1 * h3 % p256), z := h * p.z * q.z % p256 }

/-- k times a point, over the n lowest bits of k. -/
def JPoint.mulBits : Nat → Nat → JPoint → JPoint → JPoint
  | 0, _, _, acc => acc
  | n + 1, k, p, acc => JPoint.mulBits n (k / 2) p.double (if k % 2 = 1 then acc.add p else acc)

/-- k times a point, k below 2²⁵⁶. -/
def JPoint.mul (k : Nat) (p : JPoint) : JPoint := JPoint.mulBits 256 k p infinity256

/-- b to the power e modulo m, over the n lowest bits of e. -/
def powModBits (m : Nat) : Nat → Nat → Nat → Nat → Nat
  | 0, _, _, acc => acc
  | n + 1, b, e, acc => powModBits m n (b * b % m) (e / 2) (if e % 2 = 1 then acc * b % m else acc)

/-- The inverse modulo a prime of at most 256 bits. -/
def invMod (m a : Nat) : Nat := powModBits m 256 (a % m) (m - 2) 1

/-- The affine coordinates of a point other than infinity. -/
def JPoint.affine (p : JPoint) : Nat × Nat :=
  let i := invMod p256 p.z
  let i2 := i * i % p256
  (p.x * i2 % p256, p.y * (i * i2 % p256) % p256)

/-- A point as 64 bytes, x then y (R416). -/
def JPoint.bytes (p : JPoint) : List Byte := beBytes 32 p.affine.1 ++ beBytes 32 p.affine.2

/-- The point of 64 bytes, where it is a valid point of P-256 (R325, R416). -/
def pointOf (bs : List Byte) : Option JPoint :=
  let x := beNat (bs.take 32)
  let y := beNat ((bs.drop 32).take 32)
  if bs.length = 64 ∧ x < p256 ∧ y < p256 ∧ y * y % p256 = (x * x * x + (p256 - 3) * x + b256) % p256 then some { x := x, y := y, z := 1 } else none

/-- ECDSA with SHA-256: whether r and s, 32 bytes each, sign a message under a public point (R416). -/
def ecdsaOk (key : JPoint) (msg sig : List Byte) : Bool :=
  let r := beNat (sig.take 32)
  let t := beNat ((sig.drop 32).take 32)
  let w := invMod n256 t
  let u1 := beNat (sha256 msg) * w % n256
  let u2 := r * w % n256
  let q := (base256.mul u1).add (key.mul u2)
  decide (sig.length = 64) && decide (0 < r) && decide (r < n256) && decide (0 < t) && decide (t < n256) && decide (q.z ≠ 0) &&
    decide (q.affine.1 % n256 = r)

/-- An ECDSA signature of a message under a private key with the secret number k, 64 bytes (R416). -/
def ecdsaSign (key k : Nat) (msg : List Byte) : List Byte :=
  let r := (base256.mul k).affine.1 % n256
  beBytes 32 r ++ beBytes 32 (invMod n256 k * (beNat (sha256 msg) + r * key) % n256)

/-- A private key or a secret number in 1 to n − 1, of a free value. -/
def scalarOf (draw : Nat) : Nat := draw % (n256 - 1) + 1

/-- The x-coordinate of the ECDH shared point, 32 bytes (R321). -/
def ecdhX (key : Nat) (q : JPoint) : List Byte := beBytes 32 (q.mul key).affine.1

end Sys2Proof.Machine
end

