-- ==== Sys2Proof/Machine/Operands.lean ====
section
/-! DEFINITION. Operand forms: the parameter and result layouts of commands, the exposure arithmetic, selections,
charters and power words. -/

namespace Sys2Proof.Machine

/-! ### Exposure arithmetic (R175 to R186, R193, R315, R395) -/

/-- Row time in ticks (R175). -/
def Expo.tRow (e : Expo) : Nat := if e.depth10 then 1536 else 4608

/-- Read period in ticks (R176). -/
def Expo.tG (e : Expo) : Nat := e.nexp * e.tRow

/-- Optical-black row reads (R178). -/
def Expo.nOb (e : Expo) : Nat := if e.bin = 1 then 8 else 16

/-- Active row reads (R178). -/
def Expo.nAct (e : Expo) : Nat := if e.bin = 1 then e.h / 2 else e.h

/-- N_read (R179). -/
def Expo.nRead (e : Expo) : Nat := e.nOb + e.nAct

/-- The stagger D (R184). -/
def Expo.stagger (e : Expo) : Nat :=
  if e.nexp = 3 then e.dM + e.dS else if e.nexp = 2 then e.dS else 0

/-- E_M in ticks (R184). -/
def Expo.eM (e : Expo) : Nat := e.dM * e.tG + e.tRow

/-- E_S in ticks (R184). -/
def Expo.eS (e : Expo) : Nat := e.dS * e.tG + e.tRow

/-- The read time of a slot (R315). -/
def Expo.readTime (e : Expo) : Nat := (e.nRead + e.stagger) * e.tG

/-- T_need (R182). -/
def Expo.tNeed (e : Expo) : Nat := e.readTime + max (34 * e.tRow) (10 * e.tRow + e.eL) + e.aLock

/-- The settings fit a frame period (R182). -/
def Expo.fits (e : Expo) (period : Nat) : Bool := decide (e.tNeed ≤ period)

/-- T_E,min as an offset from the slot start (R181). -/
def Expo.teMin (e : Expo) : Nat := e.nOb * e.tG + max (10 * e.tRow) (34 * e.tRow - e.eL)

/-- The trigger deadline as an offset from the slot start; 0 where it lies at or before the start (R193, R395). -/
def Expo.deadline (e : Expo) (period : Nat) : Nat :=
  period - (e.aLock + e.eL + (e.nAct + e.stagger) * e.tG + 4096)

/-- The end of the last read as an offset from T_E (R180). -/
def Expo.lastRead (e : Expo) : Nat := e.eL + (e.nAct + e.stagger) * e.tG

/-- E_L_MAX (R395). -/
def Expo.eLMax (e : Expo) (period : Nat) : Nat :=
  if period < e.readTime + e.aLock + 34 * e.tRow then 0
  else (period - e.readTime - e.aLock - 10 * e.tRow) / 16 * 16

/-- The defaults at a frame period (R187, R703). -/
def Expo.defaults (period : Nat) : Expo :=
  let m := Expo.initial.eLMax period
  { Expo.initial with eL := if m = 0 then 400 else min 400000 m }

/-- Horizontal and vertical binning factor (R178). -/
def Expo.binFactor (e : Expo) : Nat := if e.bin = 1 then 2 else if e.bin = 2 then 4 else 1

/-- Output width W′ (R281). -/
def Expo.outW (e : Expo) : Nat := e.w / e.binFactor

/-- Output height H′ (R281). -/
def Expo.outH (e : Expo) : Nat := e.h / e.binFactor

/-- The window rules of R177. -/
def Expo.windowOk (e : Expo) : Bool :=
  e.x0 % 16 == 0 && e.w % 16 == 0 && decide (320 ≤ e.w) && decide (e.x0 + e.w ≤ 1600) &&
  e.y0 % 2 == 0 && e.h % 2 == 0 && decide (240 ≤ e.h) && decide (e.y0 + e.h ≤ 1200) &&
  (if e.bin = 1 then e.h % 4 == 0 else if e.bin = 2 then e.h % 8 == 0 else true)

/-- The exposure order of R185. -/
def Expo.orderOk (e : Expo) : Bool :=
  if e.nexp = 2 then decide (e.eS < e.eL)
  else if e.nexp = 3 then decide (e.eM < e.eL) && decide (e.eS < e.eM) && decide (e.dS < e.dM)
  else true

/-- R304: whether a pixel port mode and a set go together. -/
def pixPortOk (mode : Nat) (e : Expo) : Bool :=
  if mode = 0 then true
  else if mode = 3 then decide ((e.outW + 16) * 8 ≤ (if e.bin = 2 then 4 * e.tG else e.tG))
  else decide ((e.w + 16) * 8 ≤ e.tG)

/-- The code of a lock source (R390). -/
def LockSrc.code : LockSrc → Nat
  | .none => 0
  | .localSync => 1
  | .beacon => 2

/-- The lock source of a code; 3 is refused before this is used (R391). -/
def LockSrc.ofCode (n : Nat) : LockSrc := if n = 1 then .localSync else if n = 2 then .beacon else .none

/-- The setting set of the 24 bytes of R390. -/
def Expo.decode (ps : List Byte) : Expo :=
  let b8 := (byteAt ps 8).toNat
  let b9 := (byteAt ps 9).toNat
  { x0 := field ps 0 2, w := field ps 2 2, y0 := field ps 4 2, h := field ps 6 2,
    bin := bits b8 1 0, depth10 := bit b8 2, nexp := bits b8 4 3, triggered := bit b8 5,
    srcTrigIn := bit b9 0, srcCompare := bit b9 1, srcCommand := bit b9 2,
    lock := LockSrc.ofCode (bits b9 4 3), phase := bits b9 6 5,
    lockDiv := (byteAt ps 10).toNat, again := (byteAt ps 11).toNat, eL := field ps 12 4,
    dM := (byteAt ps 16).toNat, dS := (byteAt ps 17).toNat, lockDelay := field ps 20 4, aLock := 0 }

/-- The 24 bytes of a setting set (R390, R396). -/
def Expo.encode (e : Expo) : List Byte :=
  leBytes 2 e.x0 ++ leBytes 2 e.w ++ leBytes 2 e.y0 ++ leBytes 2 e.h ++
  leBytes 1 (e.bin + 4 * b2n e.depth10 + 8 * e.nexp + 32 * b2n e.triggered) ++
  leBytes 1 (b2n e.srcTrigIn + 2 * b2n e.srcCompare + 4 * b2n e.srcCommand + 8 * e.lock.code + 32 * e.phase) ++
  leBytes 1 e.lockDiv ++ leBytes 1 e.again ++ leBytes 4 e.eL ++ leBytes 1 e.dM ++ leBytes 1 e.dS ++
  leBytes 2 0 ++ leBytes 4 e.lockDelay

/-- The range checks of R391 step 1. -/
def expoRangesOk (ps : List Byte) : Bool :=
  let e := Expo.decode ps
  let lockCode := bits (byteAt ps 9).toNat 4 3
  decide (e.bin ≤ 2) && decide (1 ≤ e.nexp) && decide (lockCode ≤ 2) && decide (e.phase ≤ 2) &&
  (e.phase == 0 || lockCode == 2) && (e.srcTrigIn || e.srcCompare || e.srcCommand) &&
  (e.lockDelay == 0 || lockCode != 0) && e.eL % 16 == 0 && e.lockDelay % 16 == 0 && decide (400 ≤ e.eL) &&
  decide (1 ≤ e.dM) && decide (1 ≤ e.dS) && [1, 2, 4, 8].contains e.again && [1, 2, 3, 4, 6].contains e.lockDiv

/-- The range of the frame period (R191). -/
def periodInRange (n : Nat) : Bool := decide (2000000 ≤ n) && decide (n ≤ 400000000) && n % 16 == 0

/-! ### Selections and zone maps (R290, R300, R403, R405) -/

/-- The number of zones set in a map. -/
def zoneCount (m : BitVec 300) : Nat := countBits 300 m.toNat

/-- STATS_LEN without the header (R300, R405). -/
def Selection.statsLen (sel : Selection) (nU : Nat) : Nat :=
  52 + 768 * b2n (sel.sections.toNat.testBit 0) + 6 * nU * b2n (sel.sections.toNat.testBit 1) +
  (nU + nU % 2) * b2n (sel.sections.toNat.testBit 2) + 2 * nU * b2n (sel.sections.toNat.testBit 3) +
  4 * b2n (sel.sections.toNat.testBit 4) + 16 * b2n (sel.sections.toNat.testBit 5)

/-- The bytes of one area entry of a selection head (R403). -/
def areaEntry : Option Area → List Byte
  | some a => leBytes 1 a.th ++ leBytes 1 a.confirm ++ leBytes 2 a.holdSeconds
  | none => leBytes 4 0

/-- The 20 bytes of a selection head with PART 0 (R403). -/
def Selection.head (sel : Selection) : List Byte :=
  leBytes 1 0 ++ leBytes 1 sel.sections.toNat ++ leBytes 1 sel.rho ++ leBytes 1 sel.areas.length ++
  areaEntry sel.areas[0]? ++ areaEntry sel.areas[1]? ++ areaEntry sel.areas[2]? ++ areaEntry sel.areas[3]?

/-- A zone map as the 304-bit string of R430. -/
def zoneBytes (m : BitVec 300) : List Byte := leBytes 38 m.toNat

/-- The area of entry a of a head, with an empty map until its map arrives. -/
def headArea (ps : List Byte) (a : Nat) : Area :=
  { zones := 0, th := field ps (4 + 4 * a) 1, confirm := field ps (5 + 4 * a) 1, holdSeconds := field ps (6 + 4 * a) 2 }

/-- The ranges of R290 for one area entry. -/
def Area.rangesOk (a : Area) : Bool :=
  decide (1 ≤ a.th) && decide (1 ≤ a.confirm) && decide (a.confirm ≤ 8) && decide (1 ≤ a.holdSeconds) &&
  decide (a.holdSeconds ≤ 3600)

/-- The value checks of a selection head (R404): the ranges of R290, absent area entries zero. -/
def headOk (ps : List Byte) : Bool :=
  let areas := (byteAt ps 3).toNat
  let rho := (byteAt ps 2).toNat
  (byteAt ps 0) == 0 && bits (byteAt ps 1).toNat 7 6 == 0 && decide (5 ≤ rho) && decide (rho ≤ 95) &&
  decide (areas ≤ 4) &&
  (List.range 4).all (fun a => if a < areas then (headArea ps a).rangesOk else field ps (4 + 4 * a) 4 == 0)

/-- The selection of a head and its area maps. -/
def selectionOf (head : List Byte) (maps : List (BitVec 300)) : Selection :=
  { sections := BitVec.ofNat 6 (byteAt head 1).toNat, rho := (byteAt head 2).toNat,
    areas := (List.range (byteAt head 3).toNat).map
      (fun a => { headArea head a with zones := maps.getD a 0 }) }

/-- A zone map may belong to an area under a mask (R404): not empty, every zone unmasked. -/
def areaMapOk (mask m : BitVec 300) : Bool := m != 0 && (m &&& ~~~mask) == 0

/-! ### Charters (R311, R430) -/

/-- LEN of a charter (R430). -/
def Charter.len (c : Charter) : Nat := 102 + 38 * c.selection.areas.length

/-- The canonical bytes of the charter of polder p (R430). -/
def Charter.encode (p : Nat) (c : Charter) : List Byte :=
  leBytes 1 p ++ leBytes 1 c.bind.toNat ++ leBytes 2 c.slots.toNat ++ leBytes 4 c.readQuota ++
  leBytes 4 c.creationNo.toNat ++ leBytes 32 c.idHash.toNat ++ leBytes 38 c.zoneMask.toNat ++ c.selection.head ++
  (c.selection.areas.map (fun a => zoneBytes a.zones)).flatten

/-- The charter of canonical bytes, CREATION_NO left to the node (R430). -/
def Charter.decode (bs : List Byte) : Charter :=
  let head := bs.drop 82
  { slots := BitVec.ofNat 16 (field bs 2 2), zoneMask := BitVec.ofNat 300 (field bs 44 38),
    selection := selectionOf head ((List.range (byteAt head 3).toNat).map (fun a => BitVec.ofNat 300 (field bs (102 + 38 * a) 38))),
    readQuota := field bs 4 4, bind := BitVec.ofNat 4 (byteAt bs 1).toNat, idHash := BitVec.ofNat 256 (field bs 12 32),
    creationNo := 0 }

/-- The field rules of R311 for the bytes of a charter: SLOTS not empty, N_u at least 1, a selection in range whose
area zones are unmasked, and the bits the layout fixes at 0. -/
def charterFieldsOk (bs : List Byte) : Bool :=
  let c := Charter.decode bs
  decide (bits (byteAt bs 1).toNat 7 4 = 0) && c.slots != 0 &&
  decide (field bs 44 38 < 2 ^ 300) && decide (1 ≤ zoneCount c.zoneMask) && headOk (bs.drop 82) &&
  (List.range (byteAt bs 85).toNat).all (fun a => decide (field bs (102 + 38 * a) 38 < 2 ^ 300)) &&
  c.selection.areas.all (fun a => areaMapOk c.zoneMask a.zones)

/-- The charter digest, 32 bytes (R322). -/
def charterDigest (p : Nat) (c : Charter) : List Byte := sha256 (Charter.encode p c)

/-! ### Power words (R137, R427) -/

/-- The 2-bit code of a domain state (R137). -/
def DomState.code : DomState → Nat
  | .on => 0
  | .ret => 1
  | .off => 2

/-- A state word (R137). -/
def stateWord (d : Vector DomState 12) : Nat :=
  (List.range 12).foldl (fun acc i => acc + (d.toList.getD i .on).code * 4 ^ i) 0

/-- The requested state of domain i + 1 in a state word: KEEP keeps (R137). -/
def requested (w i : Nat) (now : DomState) : DomState :=
  match bits w (2 * i + 1) (2 * i) with
  | 0 => .on
  | 1 => .ret
  | 2 => .off
  | _ => now

/-- The configuration a state word asks for (R137). -/
def requestedConfig (w : Nat) (now : Vector DomState 12) : Vector DomState 12 :=
  now.mapIdx (fun i d => requested w i d)

/-- The points of PIPE, STAT, SEQ and ENC as the byte of R427. -/
def pointsByte (v : Vector (Fin 3) 4) : Nat :=
  v[0].val + 4 * v[1].val + 16 * v[2].val + 64 * v[3].val

/-! ### Lifecycle, trigger and lock codes -/

/-- R421. -/
def Lc.code : Lc → Nat
  | .manufacture => 0
  | .commission => 1
  | .field => 2
  | .ret => 3
  | .scrapped => 4

/-- The lifecycle state of a code (R421). -/
def Lc.ofCode : Nat → Option Lc
  | 0 => some .manufacture
  | 1 => some .commission
  | 2 => some .field
  | 3 => some .ret
  | 4 => some .scrapped
  | _ => none

/-- TRIG of R299. -/
def TrigSrc.code : TrigSrc → Nat
  | .trigIn => 1
  | .compare => 2
  | .command => 3

/-- LOCK of R299. -/
def LockState.code : LockState → Nat
  | .none => 0
  | .locked => 1
  | .free => 2
  | .missed => 3

/-- STATE of R335. -/
def PolState.code : PolState → Nat
  | .absent => 0
  | .chartered => 1
  | .active => 2
  | .dissolving => 3

/-- R359. -/
def Status.code : Status → Nat
  | .ok => 0x00
  | .accepted => 0x01
  | .notReady => 0x02
  | .busy => 0x03
  | .badOpcode => 0x04
  | .badParam => 0x05
  | .badLength => 0x06
  | .notPermitted => 0x07
  | .authFail => 0x08
  | .seqGap => 0x09
  | .duplicate => 0x0A
  | .lifecycle => 0x0B
  | .regionBusy => 0x0C
  | .activeImage => 0x0D
  | .holdupLow => 0x0E
  | .noResource => 0x0F
  | .leaseExpired => 0x10
  | .swapCrossed => 0x11
  | .refused => 0x12
  | .aborted => 0x13
  | .calReject => 0x14
  | .defect => 0x15
  | .throttled => 0x16
  | .voided => 0x17
  | .unreachable => 0x18
  | .timeout => 0x19
  | .polderGone => 0x1A

/-- The 16 bytes of a compare descriptor (R117). -/
def Tcmp.descriptor (t : Tcmp) : List Byte :=
  t.value.bytes ++ leBytes 4 t.period.toNat ++
  leBytes 1 (b2n t.arm + 2 * b2n t.wake + 4 * b2n t.expose + 8 * b2n t.stamp) ++
  leBytes 1 (b2n t.fired) ++ leBytes 1 (min 255 t.missed) ++ leBytes 1 (t.fires % 256)

/-! ### Packets and records on the transport -/

/-- The STATUS-and-results parameter content of a tagged reply (R357). -/
def Reply.content (r : Reply) : List Byte :=
  leBytes 1 r.status.code ++ leBytes 1 r.origStatus.code ++ leBytes 2 0 ++ leBytes 4 r.effectFrame.toNat ++ r.results

/-- The 12-byte header of a record (R298). -/
def recordHeader (p : Nat) (rtype : Nat) (frame : W32) (bodyLen rseq : Nat) : List Byte :=
  leBytes 1 rtype ++ leBytes 1 p ++ leBytes 2 bodyLen ++ leBytes 4 frame.toNat ++ leBytes 4 rseq

/-- The bytes of a record of polder p (R298). -/
def DlvRec.bytes (p : Nat) (r : DlvRec) : List Byte :=
  recordHeader p r.rtype r.frame r.body.length r.ersEq ++ r.body

/-- The number of 112-byte fragments of a record with a body of n bytes (R367). -/
def fragments (n : Nat) : Nat := (12 + n + 111) / 112

/-- Fragment i of a record's bytes (R367). -/
def fragment (bs : List Byte) (i : Nat) : List Byte := (bs.drop (112 * i)).take 112

/-- The body of an EVENT record (R302). -/
def EventRec.body (e : EventRec) : List Byte :=
  leBytes 2 e.code ++ leBytes 2 e.payload.length ++ e.tb.bytes ++ e.payload

end Sys2Proof.Machine
end

