-- ==== Sys2Proof/Machine/Packets.lean ====
section
/-! DEFINITION. Packets as bytes: the header, the nonce, sealing and opening, and the packets the node sends (R338 to R344, R357,
R367). -/

namespace Sys2Proof

open Sys2Proof.Machine

/-! ### The clear part of a packet that arrives (R338 to R340) -/

/-- The length the transport gives (R343). -/
def Packet.len (pk : Packet) : Nat := pk.bytes.length

/-- TYPE (R338). -/
def Packet.ptype (pk : Packet) : Byte := byteAt pk.bytes 0

/-- POLDER (R338). -/
def Packet.pol (pk : Packet) : PolId := Fin.ofNat 8 (byteAt pk.bytes 1).toNat

/-- FLAGS, bit 0 for bit 11 of the header (R338, R339). -/
def Packet.flags (pk : Packet) : Nat := (byteAt pk.bytes 1).toNat / 8

/-- SEQ (R338). -/
def Packet.seq (pk : Packet) : W16 := BitVec.ofNat 16 (field pk.bytes 2 2)

/-- MORE of a command packet (R339). -/
def Packet.more (pk : Packet) : Bool := bit pk.flags 0

/-- UNTAGGED of a command packet (R339). -/
def Packet.untagged (pk : Packet) : Bool := bit pk.flags 1

namespace Machine

/-! ### The sealed part (R338, R340, R341) -/

/-- The 8 header bytes (R338). -/
def headerBytes (ptype pol flags seq opcode plen handle : Nat) : List Byte :=
  leBytes 1 ptype ++ leBytes 1 (pol + 8 * flags) ++ leBytes 2 seq ++ leBytes 1 opcode ++ leBytes 1 plen ++ leBytes 2 handle

/-- The 13-byte nonce: KIND is 0 CMD, 1 REPLY, 2 REC (R341). -/
def packetNonce (fromNode : Bool) (kind : Nat) (dup : Bool) (frag number : Nat) : List Nat :=
  [128 * b2n fromNode + 32 * kind + 16 * b2n dup, frag] ++ octets (leBytes 6 number) ++ List.replicate 5 0

/-- A sealed packet: header bytes 0 to 3 in clear, the rest encrypted, the tag over both (R340, R341). -/
def sealPacket (key : BitVec 128) (nonce : List Nat) (header area : List Byte) : List Byte :=
  header.take 4 ++ ofOctets (ccmSeal (keyOctets key) nonce (octets (header.take 4)) (octets (header.drop 4 ++ area)))

/-- Header bytes 4 to 7 and the parameter area of a sealed packet; `none` where the tag fails (R340, R341). -/
def openPacket (key : BitVec 128) (nonce : List Nat) (bytes : List Byte) : Option (List Byte) :=
  (ccmOpen (keyOctets key) nonce (octets (bytes.take 4)) (octets (bytes.drop 4))).map ofOctets

/-- What header bytes 4 to 7 and the parameter area hold (R338). -/
structure PacketBody where
  opcode : Byte
  plen : Nat
  handle : W16
  params : List Byte
  deriving DecidableEq, Repr

/-- The body that bytes from header byte 4 on spell (R338). -/
def bodyOf (bs : List Byte) : PacketBody :=
  { opcode := byteAt bs 0, plen := (byteAt bs 1).toNat, handle := BitVec.ofNat 16 (field bs 2 2), params := bs.drop 4 }

/-- The body of an untagged packet (R344). -/
def clearBody (pk : Packet) : PacketBody := bodyOf (pk.bytes.drop 4)

/-- The body of a command packet sealed under a key with an ESN; `none` where the tag fails (R341). -/
def commandBody (key : BitVec 128) (esn : Nat) (pk : Packet) : Option PacketBody :=
  (openPacket key (packetNonce false 0 false 0 esn) pk.bytes).map bodyOf

/-! ### Packets the node sends (R342 to R344, R357, R367) -/

/-- An untagged reply: 16 bytes (R344). -/
def untaggedBytes (r : Reply) : List Byte :=
  headerBytes 2 r.pol.val 2 r.esn 0 8 0 ++ leBytes 1 r.status.code ++ leBytes 1 0 ++ leBytes 2 r.next.toNat ++ leBytes 4 0

/-- A tagged reply: the content of R357, padded to 112 bytes and sealed (R341, R342, R357). -/
def taggedBytes (r : Reply) : List Byte :=
  sealPacket r.key (packetNonce true 1 r.dup 0 r.number)
    (headerBytes 2 r.pol.val (4 * b2n r.dup) r.esn r.opcode.toNat r.content.length r.handle.toNat) (padTo 112 r.content)

/-- A fragment of a record, padded and sealed (R341, R342, R367). -/
def fragmentBytes (pol : PolId) (ersEq index recLen : Nat) (content : List Byte) (key : BitVec 128) : List Byte :=
  sealPacket key (packetNonce true 2 false index ersEq) (headerBytes 3 pol.val index ersEq 0 content.length recLen) (padTo 112 content)

/-- The bytes of a packet the node sends (R342, R344); a relayed packet is as it came. -/
def OutPacket.bytes : OutPacket → List Byte
  | .reply r => if r.untagged then untaggedBytes r else taggedBytes r
  | .frag pol ersEq index recLen content key => fragmentBytes pol ersEq index recLen content key
  | .relayed pk => pk.bytes

/-- The packet a reply or fragment becomes is 128 bytes tagged, 16 bytes untagged (R342, R344); a relayed packet
keeps its length. -/
def OutPacket.size : OutPacket → Nat
  | .reply r => if r.untagged then 16 else 128
  | .frag .. => 128
  | .relayed pk => pk.len

/-! ### CRC-32 (R470, R550, R568) -/

/-- One bit of the CRC-32 of IEEE 802.3, reflected. -/
def crcBit (c : Nat) : Nat := if c % 2 = 1 then (c / 2) ^^^ 0xEDB88320 else c / 2

/-- One byte of the CRC-32. -/
def crcByte (c : Nat) (b : Byte) : Nat :=
  crcBit (crcBit (crcBit (crcBit (crcBit (crcBit (crcBit (crcBit (c ^^^ b.toNat))))))))

/-- CRC-32 of IEEE 802.3 (R470, R550, R568). -/
def crc32 (bs : List Byte) : Nat := (bs.foldl crcByte 0xFFFFFFFF) ^^^ 0xFFFFFFFF

end Machine

end Sys2Proof
end

