-- ==== Sys2Proof/Machine/Frames.lean ====
section
/-! DEFINITION. Line frames as bits: polarity, bit and byte order, the fields of a frame, its FCS and CMAC, and the payloads of every
kind (R469 to R472, R487, R492, R493, R498, R502, R503, R507, R517). -/

namespace Sys2Proof

open Sys2Proof.Machine

/-! ### Bits and bytes (R469, R470) -/

namespace Machine

/-- Bytes as they stand on the line: each least significant bit first (R470). -/
def lineBits (bs : List Byte) : List Bool := bs.flatMap (fun b => (List.range 8).map (fun i => b.toNat.testBit i))

/-- The whole bytes that bits of the line spell (R470). -/
def lineBytes : List Bool → List Byte
  | b0 :: b1 :: b2 :: b3 :: b4 :: b5 :: b6 :: b7 :: rest =>
    BitVec.ofNat 8 (b2n b0 + 2 * b2n b1 + 4 * b2n b2 + 8 * b2n b3 + 16 * b2n b4 + 32 * b2n b5 + 64 * b2n b6 + 128 * b2n b7) :: lineBytes rest
  | _ => []

/-- The frame after its start delimiter, in true polarity: a delimiter received as 0x2A marks an inverted frame (R469). -/
def uninverted (bits : List Bool) : Option (List Byte) :=
  match lineBytes bits with
  | sd :: rest => if sd = 0xD5 then some rest else if sd = 0x2A then some (rest.map (fun b => ~~~b)) else none
  | [] => none

/-! ### The kinds (R472, R517) -/

/-- The LENGTH a kind may have (R472); a reserved kind has none. -/
def lengthOk (kind len : Nat) : Bool :=
  match kind with
  | 0 => len == 0
  | 1 => decide (16 ≤ len) && decide (len ≤ 128)
  | 2 => len == 96
  | 3 => len == 0
  | 4 => len == 24
  | 5 => len == 16
  | 6 => len == 72
  | 7 => len == 16
  | 8 => len == 16
  | _ => false

/-- KIND of what a frame carries (R472). -/
def TxBody.kind : TxBody → Nat
  | .ackOnly => 0
  | .data _ => 1
  | .beacon _ => 2
  | .wake => 3
  | .join _ => 4
  | .discover .. => 5
  | .route _ => 6
  | .drain _ => 7
  | .drainDone _ => 8

/-- The kind ends in a CMAC (R507). -/
def kindSigned (kind : Nat) : Bool := kind == 2 || decide (4 ≤ kind)

/-- The kind of a frame forwarded hop by hop, in the management flow (R489). -/
def kindManaged (kind : Nat) : Bool := decide (5 ≤ kind)

end Machine

/-! ### Payloads (R492, R493, R498, R502, R517) -/

/-- The 88 payload bytes of a BEACON before its CMAC (R492). -/
def BeaconFields.bytes (b : BeaconFields) : List Byte :=
  leBytes 4 b.cycle.toNat ++ leBytes 1 b.segment.toNat ++ leBytes 1 b.rank.toNat ++ leBytes 1 b.keyId.toNat ++
  leBytes 1 (b2n b.fabricReeve + 2 * b2n b.timeValid + 4 * b2n b.phaseValid) ++ leBytes 8 b.reeveId.toNat ++ leBytes 8 b.held.toNat ++
  leBytes 8 b.present.toNat ++ leBytes 8 b.lend.toNat ++ leBytes 8 b.bridges.toNat ++ leBytes 8 b.grantId.toNat ++
  leBytes 1 b.grantSlot.toNat ++ leBytes 1 b.hops.toNat ++ leBytes 2 0 ++ leBytes 4 b.fabPeriod.toNat ++ leBytes 8 b.tbTx.toNat ++
  leBytes 8 b.phaseEdge.toNat ++ leBytes 4 b.phasePeriod.toNat ++ leBytes 4 0

/-- The BEACON of a payload; reserved bits are dropped (R492). -/
def BeaconFields.decode (bs : List Byte) : BeaconFields :=
  let flags := (byteAt bs 7).toNat
  { cycle := BitVec.ofNat 32 (field bs 0 4), segment := BitVec.ofNat 6 (byteAt bs 4).toNat, rank := byteAt bs 5, keyId := byteAt bs 6,
    fabricReeve := bit flags 0, timeValid := bit flags 1, phaseValid := bit flags 2, reeveId := BitVec.ofNat 64 (field bs 8 8),
    held := BitVec.ofNat 64 (field bs 16 8), present := BitVec.ofNat 64 (field bs 24 8), lend := BitVec.ofNat 64 (field bs 32 8),
    bridges := BitVec.ofNat 64 (field bs 40 8), grantId := BitVec.ofNat 64 (field bs 48 8), grantSlot := byteAt bs 56, hops := byteAt bs 57,
    fabPeriod := BitVec.ofNat 32 (field bs 60 4), tbTx := BitVec.ofNat 64 (field bs 64 8), phaseEdge := BitVec.ofNat 64 (field bs 72 8),
    phasePeriod := BitVec.ofNat 32 (field bs 80 4) }

/-- The 16 payload bytes of a JOIN before its CMAC (R493). -/
def JoinFields.bytes (j : JoinFields) : List Byte :=
  leBytes 8 j.uid.toNat ++
  leBytes 2 (j.addr.toNat + 4096 * b2n j.unaddressed + 8192 * b2n j.mismatch + 16384 * b2n j.conflict + 32768 * b2n j.reclaim) ++
  [j.keyId, j.lc, j.rank, j.portMode, j.fwMajor, j.fwMinor]

/-- The JOIN of a payload (R493). -/
def JoinFields.decode (bs : List Byte) : JoinFields :=
  let w := field bs 8 2
  { uid := BitVec.ofNat 64 (field bs 0 8), addr := BitVec.ofNat 12 w, unaddressed := bit w 12, mismatch := bit w 13, conflict := bit w 14,
    reclaim := bit w 15, keyId := byteAt bs 10, lc := byteAt bs 11, rank := byteAt bs 12, portMode := byteAt bs 13, fwMajor := byteAt bs 14,
    fwMinor := byteAt bs 15 }

/-- The 8 payload bytes of a DRAIN or DRAIN_DONE before its CMAC (R502). -/
def DrainFields.bytes (d : DrainFields) : List Byte :=
  leBytes 1 d.segS.toNat ++ leBytes 1 d.segU.toNat ++ leBytes 2 d.oldClaimant.toNat ++ leBytes 2 d.marker.toNat ++ leBytes 2 0

/-- The DRAIN or DRAIN_DONE of a payload (R502). -/
def DrainFields.decode (bs : List Byte) : DrainFields :=
  { segS := BitVec.ofNat 6 (byteAt bs 0).toNat, segU := BitVec.ofNat 6 (byteAt bs 1).toNat, oldClaimant := BitVec.ofNat 12 (field bs 2 2),
    marker := BitVec.ofNat 16 (field bs 4 2) }

namespace Machine

/-- The payload of a frame before its CMAC (R472, R492, R493, R498, R502, R517). -/
def TxBody.payload : TxBody → List Byte
  | .ackOnly => []
  | .data p => p.bytes
  | .wake => []
  | .join j => j.bytes
  | .beacon b => b.bytes
  | .discover filter value => filter :: leBytes 7 value.toNat
  | .route hops => 0 :: hops
  | .drain d => d.bytes
  | .drainDone d => d.bytes

/-! ### Frames (R470, R471, R503, R507) -/

/-- The line key in force at a node: the key, or none under KEY_ID 0 (R443, R507). -/
def lineKey (keyId : Byte) (key : BitVec 128) : Option (BitVec 128) := if keyId = 0 then none else some key

/-- The CMAC field: the first 8 bytes of AES-CMAC over CYCLE, ADDR, TYPE, LENGTH and the payload before it; 0 under KEY_ID 0 (R507). -/
def frameMac (key : Option (BitVec 128)) (cycle : W32) (head payload : List Byte) : List Byte :=
  match key with
  | some k => ofOctets ((cmac (keyOctets k) (octets (leBytes 4 cycle.toNat ++ head ++ payload))).take 8)
  | none => List.replicate 8 0

/-- ADDR, TYPE and LENGTH (R471). -/
def frameHead (dst src : BitVec 12) (kind : Nat) (slotted : Bool) (fseq : BitVec 3) (len : Nat) : List Byte :=
  leBytes 3 (dst.toNat + 4096 * src.toNat) ++ leBytes 1 (kind + 16 * b2n slotted + 32 * fseq.toNat) ++ leBytes 1 len

/-- A frame from ADDR through its payload, sent in a data slot (with ACK, A = 1) or not (R471, R472, R507). -/
def TxFrame.bytes (slotted : Bool) (key : Option (BitVec 128)) (cycle : W32) (f : TxFrame) : List Byte :=
  let kind := f.body.kind
  let p := f.body.payload
  let head := frameHead f.dst f.src kind slotted f.fseq (p.length + 8 * b2n (kindSigned kind))
  head ++ (if slotted then leBytes 8 (f.ackmap.toNat + 2 ^ 63 * b2n f.isNew) else []) ++ p ++
    (if kindSigned kind then frameMac key cycle head p else [])

/-- The wake burst: 8 repetitions of the wake word (R503). -/
def wakeBurst (target : BitVec 12) : List Byte :=
  (List.replicate 8 (leBytes 4 (0xA7 + 256 * target.toNat + 2 ^ 20 * (~~~target).toNat))).flatten

/-- The bits of a sent frame: preamble, wake burst in a WAKE, start delimiter, the fields and the FCS (R470, R471). -/
def TxFrame.bits (slotted : Bool) (key : Option (BitVec 128)) (cycle : W32) (f : TxFrame) : List Bool :=
  let bs := f.bytes slotted key cycle
  lineBits ([0x55, 0x55] ++ (if f.body.kind = 3 then wakeBurst f.dst else []) ++ [0xD5] ++ bs ++ leBytes 4 (crc32 bs))

/-- A received frame after its form has been checked (R471, R472): where it was heard, ADDR, TYPE, ACK and the payload, with the head
its CMAC covers. -/
structure Heard where
  port : Port
  slot : Option (Fin 63)
  dst : BitVec 12
  src : BitVec 12
  kind : Nat
  fseq : BitVec 3
  ackmap : BitVec 63
  isNew : Bool
  head : List Byte
  payload : List Byte
  deriving DecidableEq, Repr

/-- The frame of bytes from ADDR through the FCS; `none` for a reserved KIND, a LENGTH outside its kind's range or a failed FCS
(R471, R472). -/
def parseFrame (port : Port) (slot : Option (Fin 63)) (bs : List Byte) : Option Heard :=
  let type := (byteAt bs 3).toNat
  let len := (byteAt bs 4).toNat
  let ack := 8 * b2n (bit type 4)
  let body := bs.take (5 + ack + len)
  if bs.length = 9 + ack + len ∧ lengthOk (bits type 3 0) len = true ∧ field bs (5 + ack + len) 4 = crc32 body then
    some { port := port, slot := slot, dst := BitVec.ofNat 12 (field bs 0 3), src := BitVec.ofNat 12 (field bs 0 3 / 4096),
           kind := Machine.bits type 3 0, fseq := BitVec.ofNat 3 (type / 32),
           ackmap := if ack = 0 then 0 else BitVec.ofNat 63 (field bs 5 8), isNew := ack != 0 && (field bs 5 8).testBit 63,
           head := bs.take 5, payload := body.drop (5 + ack) }
  else none

/-- The payload before the CMAC of a kind that ends in one (R507). -/
def Heard.signed (h : Heard) : List Byte := h.payload.take (h.payload.length - 8)

/-- The CMAC verifies under a line key at a cycle; under KEY_ID 0 it is 0 (R507, R508). -/
def Heard.macOk (key : Option (BitVec 128)) (cycle : W32) (h : Heard) : Bool :=
  h.payload.drop (h.payload.length - 8) == frameMac key cycle h.head h.signed

/-- The packet of a DATA frame (R472). -/
def Heard.packet (h : Heard) : Packet := { bytes := h.payload, path := .line h.src }

end Machine

/-- The received frame as its bits give it, if it is well formed (R469, R470, R472). -/
def LineRx.heard (f : LineRx) : Option Machine.Heard := (Machine.uninverted f.bits).bind (Machine.parseFrame f.port f.slot)

end Sys2Proof
end

