-- ==== Sys2Proof/Machine/Ops.lean ====
section
/-! DEFINITION. The named operations over the state: stored cells, polders, events, records, replies, array items,
triggers, wakes, compares, command admission and service, and restarts. -/

namespace Sys2Proof.Machine

/-! ### Sparse byte stores: rising addresses, no byte equal to the 0x00 of an unlisted address (R455, R560) -/

/-- What a store reads at an address. -/
def cellsRead : List Host.Cell → Nat → Byte
  | [], _ => 0
  | (a, b) :: rest, x => if x = a then b else cellsRead rest x

/-- A byte written to a store, in canonical form. -/
def cellsWrite : List Host.Cell → Nat → Byte → List Host.Cell
  | [], x, v => if v = 0 then [] else [(x, v)]
  | (a, b) :: rest, x, v =>
    if x < a then (if v = 0 then (a, b) :: rest else (x, v) :: (a, b) :: rest)
    else if x = a then (if v = 0 then rest else (a, v) :: rest)
    else (a, b) :: cellsWrite rest x v

/-- Bytes written from an address on. -/
def cellsWriteList : List Host.Cell → Nat → List Byte → List Host.Cell
  | m, _, [] => m
  | m, x, v :: vs => cellsWriteList (cellsWrite m x v) (x + 1) vs

/-- `n` bytes of a store from an address on. -/
def cellsReadList (m : List Host.Cell) (x n : Nat) : List Byte := (List.range n).map (fun i => cellsRead m (x + i))

/-- Every address of a store lies at or above `lo`, addresses rise, and no byte is 0. -/
def cellsFrom : Nat → List Host.Cell → Bool
  | _, [] => true
  | lo, (a, b) :: rest => decide (lo ≤ a) && b != 0 && cellsFrom (a + 1) rest

/-- The canonical form of a store. -/
def cellsWf (m : List Host.Cell) : Bool := cellsFrom 0 m

/-! ### Polders, domains, ports -/

/-- The owner is polder 0 (R19, R25). -/
def owner : PolId := 0

/-- A polder of the node. -/
def State.pol (s : State) (p : PolId) : Polder := s.pols[p]

/-- A change of one polder. -/
def State.modPol (p : PolId) (f : Polder → Polder) (s : State) : State :=
  { s with pols := s.pols.set p (f s.pols[p]) }

/-- A change of every polder. -/
def State.mapPols (f : PolId → Polder → Polder) (s : State) : State :=
  { s with pols := Vector.ofFn (fun p => f p s.pols[p]) }

/-- The polder receives records: ACTIVE or DISSOLVING (R335). -/
def State.lives (s : State) (p : PolId) : Bool :=
  (s.pol p).state == .active || (s.pol p).state == .dissolving

/-- The owner is ACTIVE (R610). -/
def State.ownerActive (s : State) : Bool := (s.pol owner).state == .active

/-- Some tenant is CHARTERED, ACTIVE or DISSOLVING. -/
def State.tenantExists (s : State) : Bool :=
  (List.finRange 8).any (fun p => p != owner && (s.pol p).state != .absent)

/-- Domain n, 1 to 12, is ON (R134). -/
def State.domOn (s : State) (n : Nat) : Bool := s.power.doms.toList.getD (n - 1) .off == .on

/-- All four sensor domains are ON (R35). -/
def State.sensorsOn (s : State) : Bool := s.domOn 1 && s.domOn 2 && s.domOn 3 && s.domOn 4

/-- The sequencer runs commands, records and events: started, SEQ and ENC ON, no debug halt, no clock hold. -/
def State.sequencing (s : State) : Bool :=
  s.power.seqRunning && s.domOn 7 && s.domOn 8 && !s.jtag.halted && s.clock.hold.isNone

/-- The last frame number issued (R296). -/
def State.lastFrame (s : State) : W32 := s.wheel.nextFrame - 1

/-- A line port. -/
def State.port (s : State) : Port → LinePort
  | .a => s.lineA
  | .b => s.lineB

/-- A change of one line port. -/
def State.modPort (p : Port) (f : LinePort → LinePort) (s : State) : State :=
  match p with
  | .a => { s with lineA := f s.lineA }
  | .b => { s with lineB := f s.lineB }

/-- One more on counter i, 1 to 15, of a port (R509). -/
def LinePort.count (i : Nat) (l : LinePort) : LinePort :=
  { l with counters := l.counters.mapIdx (fun j c => if j + 1 = i then sat16 c else c) }

/-- One more on a port counter (R509). -/
def State.countPort (p : Port) (i : Nat) (s : State) : State := s.modPort p (LinePort.count i)

/-- A port is present and its buffer is usable: one without counts as not present for the port mode and the port that transmits
(R77, R494, R623; notes/assumptions/21.md). -/
def State.portPresent (s : State) : Port → Bool
  | .a => s.power.presentA && !s.bist.unusable.toNat.testBit 8
  | .b => s.power.presentB && !s.bist.unusable.toNat.testBit 9

/-- The home port (R478); a tap node transmits on port A while it is present, otherwise on port B (R494). -/
def State.homePort (s : State) : Port :=
  if s.power.portMode = .tap then (if s.portPresent .a then .a else .b) else if s.fab.homeB then .b else .a

/-- The port a frame to a destination leaves by: the route's port in bridge mode for another segment, otherwise the
home port (R478, R499). -/
def State.portToward (s : State) (dst : BitVec 12) : Port :=
  if s.power.portMode = .bridge then
    match s.fab.routes.find? (fun r => r.segment == dst.extractLsb' 6 6) with
    | some r => r.port
    | none => s.homePort
  else s.homePort

/-- The polder that holds binding bit i (R313, R644): HOST (bit 0) from the charter's commit, the others while the
tenant exists; else the owner. -/
def State.bindHolder (s : State) (i : Nat) : PolId :=
  ((List.finRange 8).find? (fun p => p != owner && (s.pol p).charter.bind.toNat.testBit i &&
    (s.lives p || (i == 0 && (s.pol p).state == .chartered)))).getD owner

/-- The polder the host port serves (R644). -/
def State.hostPol (s : State) : PolId := s.bindHolder 0

/-- The wheel slots a polder holds on the wheel (R316). -/
def State.heldSlots (s : State) (p : PolId) : W16 :=
  BitVec.ofNat 16 ((List.range 16).foldl (fun acc i => if s.wheel.holders.toList.getD i none == some p then acc + 2 ^ i else acc) 0)

/-- The wheel slots a polder holds or has reserved: those of its charter and of a replacement that has not yet applied (R312). -/
def Polder.claims (q : Polder) : W16 :=
  if q.state == .absent then 0
  else q.charter.slots ||| (match q.charterNext with
    | some c => c.slots
    | .none => 0)

/-- The wheel slots that polders hold or reserve (R312). -/
def State.takenSlots (s : State) : W16 := (List.finRange 8).foldl (fun acc p => acc ||| (s.pol p).claims) 0

/-- The digital lands work: AON ready, RESET_N high, VIO present, and not driven by EXTEST (R46, R72, R614). -/
def State.landsFree (s : State) : Bool := s.power.aonReady && !s.power.resetLow && !s.power.vioLost && s.jtag.ir != .extest

/-- The pixel port loses its function inside a wheel slot: nothing read from now on is put out (R24, R46, R47). -/
def State.silencePix (s : State) : State :=
  { s with wheel := { s.wheel with slot := s.wheel.slot.map (fun x => { x with pixCut := some (x.pixCut.getD x.reads.length) }) } }

/-- The next free value (notes/assumptions/3.md). -/
def State.draw (s : State) : Nat := Config.freeNat s.freeCtr

/-- The counter of free values moved on. -/
def State.drawn (s : State) : State := { s with freeCtr := s.freeCtr + 1 }

/-! ### Array items (R547 to R556, R673) -/

/-- The item ID a value belongs to (R551). -/
def ItemValue.item : ItemValue → Nat
  | .trimTab _ => 0x02
  | .colState _ => 0x03
  | .fabric _ => 0x10
  | .wheel _ => 0x11
  | .boot .. => 0x12
  | .dali _ => 0x13
  | .node _ => 0x20
  | .stored p _ => 0x30 + p.val
  | .seqs p _ => 0x38 + p.val
  | .mfg _ => 0x01
  | .marker r => 0x40 + r
  | .remap b _ => 0x50 + b.val

/-- Pages of a copy slot (R551). -/
def itemPages (item : Nat) : Nat :=
  if item = 0x01 then 32 else if item = 0x02 then 14 else if item = 0x03 then 3
  else if 0x30 ≤ item ∧ item ≤ 0x37 then 2 else 1

/-- Copy slots of an item (R551). -/
def itemSlots (item : Nat) : Nat := if item = 0x01 ∨ item = 0x02 then 2 else 16

/-- Replaces the waiting value of an item in place; `none` where none waits (R554). -/
def replaceWaiting (v : ItemValue) (p : PolId) : List ItemWrite → Option (List ItemWrite)
  | [] => none
  | w :: rest =>
    if !w.started && w.value.item == v.item then some ({ w with value := v, pol := p } :: rest)
    else (replaceWaiting v p rest).map (w :: ·)

/-- An item write is requested: it replaces a waiting write of the same item, else it waits behind the polder's
others (R549, R554). -/
def State.requestItem (p : PolId) (v : ItemValue) (s : State) : State :=
  let w : ItemWrite := { value := v, pol := p, pagesLeft := itemPages v.item, started := false }
  { s with arr := { s.arr with writes := (replaceWaiting v p s.arr.writes).getD (s.arr.writes ++ [w]) } }

/-- The latest requested value of an item, if a write of it waits or runs. -/
def State.requested? (s : State) (item : Nat) : Option ItemValue :=
  (s.arr.writes.reverse.find? (fun w => w.value.item == item)).map (·.value)

/-- The FABRIC item as last requested. -/
def State.fabricWanted (s : State) : FabricItem :=
  match s.requested? 0x10 with
  | some (.fabric v) => v
  | _ => s.arr.fabric

/-- The WHEEL item as last requested. -/
def State.wheelWanted (s : State) : WheelItem :=
  match s.requested? 0x11 with
  | some (.wheel v) => v
  | _ => s.arr.wheel

/-- The BOOT item as last requested. -/
def State.bootWanted (s : State) : Fin 2 × Bool :=
  match s.requested? 0x12 with
  | some (.boot i f) => (i, f)
  | _ => (s.arr.bootImage, s.arr.bootField.getD s.life.fieldOnce)

/-- The DALI item as last requested. -/
def State.daliWanted (s : State) : DaliItem :=
  match s.requested? 0x13 with
  | some (.dali v) => v
  | _ => s.arr.dali

/-- The COLSTATE item of the converters as they stand (R243). -/
def State.colStateNow (s : State) : ColStateItem :=
  { groups := s.cols.groups.map (fun g => (g.state, g.replOffset, g.defects)), defectMap := s.cols.defectMap,
    mapFull := s.cols.mapFull }

/-- The CHARTER item of a polder as it stands (R551). -/
def State.storedNow (s : State) (p : PolId) : StoredPolder :=
  let q := s.pol p
  { state := q.state, key := q.key, charter := q.charterNext.getD q.charter,
    mark := q.gone.map (fun g => (g.reason, g.boundary, g.lastFrame)) }

/-- The valid copy slot with the highest GEN of an item (R552, R555). -/
def newestCopy (item : Nat) (l : List ItemCopy) : Option ItemCopy :=
  l.foldl (fun best c => if c.item ≠ item then best else
    match best with
    | some b => if b.gen < c.gen then some c else some b
    | none => some c) none

/-- The copy a write of an item makes: in the slot that follows the one with the highest valid GEN, with that GEN plus 1; slot 0 and
GEN 1 where no slot is valid (R552). -/
def nextCopy (v : ItemValue) (l : List ItemCopy) : ItemCopy :=
  match newestCopy v.item l with
  | some c => { item := v.item, slot := (c.slot + 1) % itemSlots v.item, gen := c.gen + 1, value := v }
  | none => { item := v.item, slot := 0, gen := 1, value := v }

/-- A copy takes its slot (R552). -/
def putCopy (c : ItemCopy) (l : List ItemCopy) : List ItemCopy := l.filter (fun x => x.item ≠ c.item || x.slot ≠ c.slot) ++ [c]

/-- The copies once a value has been written (R552). -/
def addCopy (v : ItemValue) (l : List ItemCopy) : List ItemCopy := putCopy (nextCopy v l) l

/-- The region markers regions 0, 1 and 6 keep. -/
def ArrayS.region (a : ArrayS) (r : Nat) : Region := if r = 0 then a.fw0 else if r = 1 then a.fw1 else a.user

/-- A change of region 0, 1 or 6. -/
def ArrayS.modRegion (a : ArrayS) (r : Nat) (f : Region → Region) : ArrayS :=
  if r = 0 then { a with fw0 := f a.fw0 } else if r = 1 then { a with fw1 := f a.fw1 } else { a with user := f a.user }

/-- What the node holds of an item once its value is the committed one (R552, R555). -/
def ArrayS.take (v : ItemValue) (a : ArrayS) : ArrayS :=
  match v with
  | .trimTab t => { a with trimTab := some t }
  | .colState c => { a with colState := some c }
  | .fabric f => { a with fabric := f }
  | .wheel w => { a with wheel := w }
  | .boot i f => { a with bootImage := i, bootField := some f }
  | .dali d => { a with dali := d }
  | .node c => { a with creation := c }
  | .stored p x => { a with stored := a.stored.set p x }
  | .seqs p x => { a with seqs := a.seqs.set p x }
  | .mfg m => { a with mfg := m }
  | .marker _ => a
  | .remap _ _ => a

/-- A written value is committed: its copy slot is the newest valid one (R552). -/
def ArrayS.commit (v : ItemValue) (a : ArrayS) : ArrayS := ({ a with copies := addCopy v a.copies }).take v

/-- A JTAG instruction acts in a lifecycle state (R611). -/
def jtagActs (ir : JtagIr) (lc : Lc) (cleared : Bool) : Bool :=
  match ir, lc with
  | .idcode, _ => true
  | .bypass, _ => true
  | _, .scrapped => false
  | .extest, _ => true
  | .samplePreload, _ => true
  | .debug, .field => false
  | .debug, _ => true
  | .array, .field => false
  | .array, _ => true
  | .mbist, .manufacture => true
  | .mbist, .ret => true
  | .scan, .manufacture => true
  | .scan, .ret => cleared
  | .release, .commission => true
  | _, _ => false

/-- A lifecycle state takes effect: the shadow, the host's LC_CHANGE flag, and the test access port (R598, R603, R612, R638). -/
def State.enterLc (target : Lc) (s : State) : State :=
  let s := if target = .commission then s else s.silencePix
  { s with life := { s.life with shadow := target, pending := none },
           host := { s.host with lcChange := true },
           jtag := { s.jtag with ir := if jtagActs s.jtag.ir target s.life.cleared then s.jtag.ir else .bypass,
                                 halted := s.jtag.halted && jtagActs .debug target s.life.cleared } }

/-- The live effect of a commit beside the array's own content: a committed reservation opens admission and sealing
(R365), a committed rank is the rank in force (R444), a committed frame reservation covers frames (R673), a committed
BOOT flag ends a transition to FIELD or COMMISSION (R603), the areas of a committed DALI_CFG wait for the next STATS frame (R464). -/
def State.commitEffect (v : ItemValue) (s : State) : State :=
  match v with
  | .seqs p (some x) =>
    if s.lives p || !(s.pol p).dlv.isEmpty then s.modPol p (fun q => { q with cR := max q.cR x.cR, sR := max q.sR x.sR }) else s
  | .fabric f => { s with fab := { s.fab with rank := f.rank } }
  | .wheel w => { s with wheel := { s.wheel with fR := w.fR } }
  | .dali d =>
    if s.pols.toList.any (fun q => q.serving.any (fun v => v.rule == .itemCommit 0x13)) then
      { s with dali := { s.dali with areasNext := some (d.occArea, d.lightArea) } }
    else s
  | .boot _ f =>
    match s.life.pending with
    | some x => if !x.waitCarried && f == decide (x.target = .field) then s.enterLc x.target else s
    | none => s
  | _ => s

/-- An item write takes its committed effect (R552). -/
def State.commitItem (v : ItemValue) (s : State) : State :=
  ({ s with arr := s.arr.commit v }).commitEffect v

/-! ### Reservations (R365, R673) -/

/-- A reservation raised by 65,536 where its counter has come within 32,768 of it (R365). -/
def raised (counter reservation : Nat) : Nat := if reservation ≤ counter + 32768 then reservation + 65536 else reservation

/-- The SEQ item a polder wants committed: its reservations, raised where due, and its delivery path (R365, R368). -/
def State.seqsWanted (s : State) (p : PolId) : StoredSeq :=
  let q := s.pol p
  { cR := raised q.nextAdmit q.cR, sR := raised q.ersEq q.sR, path := q.path }

/-- Requests the commit of a raised reservation of a polder where one is due (R365). -/
def State.reserveSeq (p : PolId) (s : State) : State :=
  let w := s.seqsWanted p
  if s.lives p && (w.cR != (s.pol p).cR || w.sR != (s.pol p).sR) then s.requestItem p (.seqs p (some w)) else s

/-- Requests the commit of the next frame reservation where it is due: the next frame number has come within 32,768 of the
committed one, and no higher one is requested (R673). -/
def State.reserveFrames (s : State) : State :=
  let f := s.wheelWanted
  let d := (BitVec.ofNat 32 s.wheel.fR - s.wheel.nextFrame : W32).toNat
  if (d ≤ 32768 || 2 ^ 31 ≤ d) && f.fR == s.wheel.fR then
    s.requestItem owner (.wheel { f with fR := (s.wheel.fR + 65536) % 2 ^ 32 })
  else s

/-! ### The log (R568 to R570) -/

/-- The 64 bytes of a log entry (R568). -/
def LogEntry.bytes (e : LogEntry) : List Byte :=
  let b := e.tb.bytes ++ leBytes 4 e.frame.toNat ++ leBytes 2 e.code.toNat ++ leBytes 2 e.plen ++ leBytes 4 e.lseq.toNat ++ padTo 40 e.payload
  b ++ leBytes 4 (crc32 b)

/-- The page buffer's first four entries are programmed into the ring's next page, the rest of the page 0 (R568, R570). -/
def ArrayS.programLog (a : ArrayS) : ArrayS :=
  let now := a.logBuf.take 4
  if now.isEmpty then a
  else
  { a with logCells := cellsWriteList a.logCells (256 * a.logPage) (padTo 256 ((now.map LogEntry.bytes).flatten)),
           logPage := (a.logPage + 1) % 1024, logBuf := a.logBuf.drop 4,
           lseqDone := match now.getLast? with
             | some e => e.lseq + 1
             | none => a.lseqDone }

/-- The codes the log leaves out (R569). -/
def unlogged (code : Nat) : Bool := [0x0001, 0x0002, 0x0003, 0x0005, 0x0010, 0x0011, 0x0012].contains code

/-- A page program is asked for at the end of a polder's list; under HOLDUP_LOW it waits (R95, R549, R559). -/
def State.addJob (p : PolId) (j : PageJob) (s : State) : State :=
  if s.holdup.low then { s with arr := { s.arr with heldJobs := s.arr.heldJobs ++ [(p, j)] } }
  else { s with arr := { s.arr with jobs := s.arr.jobs ++ [(p, j)] } }

/-- Log pages asked for and not yet programmed (R570). -/
def ArrayS.logAsked (a : ArrayS) : Nat := ((a.jobs ++ a.heldJobs).filter (fun j => j.2 == .log)).length

/-- One entry into the page buffer; a full buffer asks for its page program (R570). -/
def State.pushLog (tb : Tb) (frame : W32) (code : Nat) (payload : List Byte) (s : State) : State :=
  let e : LogEntry := { tb := tb, frame := frame, code := BitVec.ofNat 16 code, plen := payload.length, lseq := s.arr.lseq,
                        payload := padTo 40 (payload.take 40) }
  let buf := s.arr.logBuf ++ [e]
  let s := { s with arr := { s.arr with logBuf := buf, lseq := s.arr.lseq + 1,
                                        logTimes := (s.clock.elapsed :: s.arr.logTimes).take 16 } }
  if 4 * s.arr.logAsked < buf.length / 4 * 4 then s.addJob owner .log else s

/-- Fewer than 16 entries were logged in the last 1.000 s (R569). -/
def State.logOpen (s : State) : Bool :=
  decide ((s.arr.logTimes.filter (fun t => s.clock.elapsed < t + ticksPerSec)).length < 16)

/-- An entry is logged, or dropped and counted; after drops a SPILL entry with their count comes first (R569). -/
def State.logEntry (tb : Tb) (frame : W32) (code : Nat) (payload : List Byte) (s : State) : State :=
  let drop : State → State := fun s => { s with arr := { s.arr with logSpill := s.arr.logSpill + 1 } }
  if !s.logOpen then drop s
  else if s.arr.logSpill = 0 then s.pushLog tb frame code payload
  else
    let s := ({ s with arr := { s.arr with logSpill := 0 } } : State).pushLog s.clock.tb s.lastFrame 0xffff (leBytes 2 (min 65535 s.arr.logSpill))
    if s.logOpen then s.pushLog tb frame code payload else drop s

/-! ### Records and events (R295, R296, R365, R367, R370) -/

/-- Places of a delivery queue that are taken (R370). -/
def dlvPlaces (l : List DlvRec) : Nat := (l.map (fun r => r.frags - r.sent)).sum

/-- Displaces records whose first fragment has not left, oldest first, until `excess` places are free; answers what
stays, what is still missing and how many were displaced (R370). -/
def displace : Nat → List DlvRec → List DlvRec × Nat × Nat
  | excess, [] => ([], excess, 0)
  | excess, r :: rest =>
    if excess = 0 then (r :: rest, 0, 0)
    else if r.sent = 0 then
      let (l, e, n) := displace (excess - r.frags) rest
      (l, e, n + 1)
    else
      let (l, e, n) := displace excess rest
      (r :: l, e, n)

/-- A record enters a delivery queue of 128 places (R370). -/
def enterDelivery (r : DlvRec) (q : Polder) : Polder :=
  let (kept, missing, n) := displace (dlvPlaces q.dlv + r.frags - 128) q.dlv
  let spill := (List.range (if missing = 0 then n else n + 1)).foldl (fun c _ => sat16 c) q.cnt.dlvSpill
  { q with dlv := if missing = 0 then kept ++ [r] else kept, cnt := { q.cnt with dlvSpill := spill } }

/-- A record is issued to a polder: it takes the next record number and enters the delivery queue (R295, R298). -/
def State.issueRecord (p : PolId) (rtype : Nat) (frame : W32) (body : List Byte) (s : State) : State :=
  (s.modPol p (fun q =>
    { enterDelivery { ersEq := q.ersEq, rtype := rtype, frame := frame, body := body, frags := fragments body.length, sent := 0,
                      path := q.path, key := q.key } q with
      ersEq := q.ersEq + 1, lastFrame := some frame })).reserveSeq p

/-- A record of polder p with a frame at or before `f` is still on its way to the delivery queue (R296). -/
def State.recordDue (s : State) (p : PolId) (f : W32) : Bool :=
  (match s.wheel.slot with
   | some x => x.holder == some p && !frameLater x.frame f
   | none => false) ||
  (match s.wheel.fork with
   | some x => x.holder == p && !frameLater x.slot.frame f
   | none => false) ||
  (match s.wheel.enclave with
   | some x => x.pol == p && !frameLater x.frame f
   | none => false)

/-- The EV_TCMP a marker event of channel `ch` stands for: the oldest closed one, else the open one (R121, R122). -/
def Tcmp.takeEvent (t : Tcmp) : Option TcmpEvent × Tcmp :=
  match t.closedEvs, t.openEv with
  | e :: rest, _ => (some e, { t with closedEvs := rest })
  | [], some e => (some e, { t with openEv := none })
  | [], none => (none, t)

/-- A change of compare channel `ch`. -/
def State.modTcmp (ch : Fin 16) (f : Tcmp → Tcmp) (s : State) : State :=
  { s with clock := { s.clock with tcmp := s.clock.tcmp.set ch (f s.clock.tcmp[ch]) } }

/-- The channel of a marker event. -/
def EventRec.channel (e : EventRec) : Fin 16 := Fin.ofNat 16 (byteAt e.payload 0).toNat

/-- An EV_TCMP marker as the record it becomes when it is issued (R121). -/
def State.resolveEvent (e : EventRec) (s : State) : Option EventRec × State :=
  if e.code = 0x0003 then
    let (x, t) := (s.clock.tcmp[e.channel]).takeEvent
    (x.map (fun x => { code := 0x0003, frame := x.frame, tb := x.tb,
                       payload := leBytes 1 e.channel.val ++ leBytes 1 0 ++ leBytes 2 (min 65535 x.count) ++ x.tb.bytes }),
     s.modTcmp e.channel (fun _ => t))
  else (some e, s)

/-- The header FRAME of an event issued now: its own, raised to that of the latest record issued (R296). -/
def raisedFrame (last : Option W32) (f : W32) : W32 :=
  match last with
  | some l => frameMax f l
  | none => f

/-- One event is issued as a record; the owner's are logged (R296, R302, R569). -/
def State.issueEvent (p : PolId) (e : EventRec) (s : State) : State :=
  match s.resolveEvent e with
  | (some e, s) =>
    let f := raisedFrame (s.pol p).lastFrame e.frame
    let s := s.issueRecord p 0x03 f e.body
    if p = owner && !unlogged e.code then s.logEntry e.tb f e.code e.payload else s
  | (none, s) => s

/-- The events of a polder that may be issued are issued in the order in which they occurred, each after every
record of its frame or an earlier one (R296); `n` bounds the list. -/
def State.issueEventsN : Nat → PolId → State → State
  | 0, _, s => s
  | n + 1, p, s =>
    match (s.pol p).events with
    | [] => s
    | e :: rest =>
      if s.recordDue p e.frame then s
      else ((s.modPol p (fun q => { q with events := rest })).issueEvent p e).issueEventsN n p

/-- Issues what may be issued to a polder while the sequencer runs (R122, R296). -/
def State.issueEvents (p : PolId) (s : State) : State :=
  if s.sequencing then s.issueEventsN (s.pol p).events.length p else s

/-- Issues what may be issued to every polder. -/
def State.issueAll (s : State) : State := (List.finRange 8).foldl (fun s p => s.issueEvents p) s

/-- A dissolution under way drops events later than the DISSOLVED record's FRAME (R331). -/
def Polder.takesEvent (q : Polder) (f : W32) : Bool :=
  match q.state, q.gone with
  | .active, _ => true
  | .dissolving, some g => !g.issued && !(g.passed && frameLater f (g.boundary - 1))
  | _, _ => false

/-- An event takes its place among those that wait: after every one whose FRAME is not later (R292, R296). -/
def insertEvent (e : EventRec) : List EventRec → List EventRec
  | [] => [e]
  | x :: rest => if frameLater x.frame e.frame then e :: x :: rest else x :: insertEvent e rest

/-- An event with its own frame and time occurs for a polder (R292, R296, R302). -/
def State.eventAt (p : PolId) (code : Nat) (frame : W32) (tb : Tb) (payload : List Byte) (s : State) : State :=
  if (s.pol p).takesEvent frame then
    (s.modPol p (fun q => { q with events := insertEvent { code := code, frame := frame, tb := tb, payload := payload } q.events })).issueEvents p
  else s

/-- An event occurs now for a polder. -/
def State.event (p : PolId) (code : Nat) (payload : List Byte) (s : State) : State :=
  s.eventAt p code s.lastFrame s.clock.tb payload

/-- An event occurs now for the owner. -/
def State.ownerEvent (code : Nat) (payload : List Byte) (s : State) : State := s.event owner code payload

/-- An owner event that waits where the owner's records cannot flow yet: before the sequencer runs, or while no owner is ACTIVE
(R72, R273, R483, R623, R675). -/
def State.patientEvent (code : Nat) (payload : List Byte) (s : State) : State :=
  if s.power.seqRunning && s.ownerActive then s.ownerEvent code payload
  else { s with early := s.early ++ [{ code := code, frame := s.lastFrame, tb := s.clock.tb, payload := payload }] }

/-- An owner event that waits only where it occurs before the sequencer runs (R675). -/
def State.supplyEvent (code : Nat) (payload : List Byte) (s : State) : State :=
  if s.power.seqRunning then s.ownerEvent code payload else s.patientEvent code payload

/-- The owner's records can flow: the events that waited are issued to it in order, with the FRAME and time of their occurrence
(R72, R273, R296, R483, R623). -/
def State.flushEarly (s : State) : State :=
  if s.ownerActive then s.early.foldl (fun s e => s.eventAt owner e.code e.frame e.tb e.payload) { s with early := [] } else s

/-- A port has heard 3 beacons, all of one SEGMENT and REEVE_ID (R494). -/
def LinePort.steady (l : LinePort) : Bool := decide (3 ≤ l.modeRun)

/-- The port mode the beacons heard so far decide, if any (R494). -/
def State.portModeHeard (s : State) : PortMode :=
  let a := s.lineA
  let b := s.lineB
  match s.portPresent .a, s.portPresent .b with
  | true, true =>
    if 0 < a.modeBeacons ∧ 0 < b.modeBeacons ∧ a.modeSeg ≠ b.modeSeg then .bridge
    else if a.steady && b.steady && a.modeSeg == b.modeSeg && a.modeReeve == b.modeReeve then .tap
    else .unknown
  | true, false => if 3 ≤ a.modeBeacons then .tap else .unknown
  | false, true => if 3 ≤ b.modeBeacons then .tap else .unknown
  | false, false => .unknown

/-- The port mode is decided once per start-up, and reported (R494). -/
def State.decidePortMode (s : State) : State :=
  if s.power.portMode ≠ .unknown ∨ s.portModeHeard = .unknown then s
  else
    let m : PortMode := s.portModeHeard
    ({ s with power := { s.power with portMode := m } }).ownerEvent 0x0048 (leBytes 1 (if m == PortMode.tap then 1 else 2) ++ leBytes 3 0)

/-- An event occurs now for every polder that receives records. -/
def State.eventAll (code : Nat) (payload : List Byte) (s : State) : State :=
  (List.finRange 8).foldl (fun s p => if s.lives p then s.event p code payload else s) s

/-! ### Replies (R344, R352, R357, R361, R362) -/

/-- The key under which packets of a polder are checked, if any party may send for it (R349 step 5, R609, R610). -/
def State.sessionKey (s : State) (p : PolId) (path : Path) : Option (BitVec 128) :=
  if s.lives p then some (s.pol p).key
  else if p = owner then
    match s.life.shadow, path with
    | .commission, _ => some testKey
    | .manufacture, .host => some testKey
    | .ret, .host => some testKey
    | _, _ => none
  else none

/-- The reply to a served command (R357, R358). -/
def replyOf (p : PolId) (e : QEntry) (a : Answer) (s : State) : Reply :=
  { pol := p, esn := e.esn, opcode := e.opcode, handle := e.req.handle, status := a.status, origStatus := a.status,
    effectFrame := a.effectFrame.getD s.wheel.nextFrame, results := a.results, dup := false, untagged := false, next := 0,
    path := e.req.path, key := e.key, number := e.esn }

/-- A reply enters the polder's reply queue (R352). -/
def State.queueReply (p : PolId) (r : Reply) (s : State) : State :=
  s.modPol p (fun q => { q with replyQ := q.replyQ ++ [r] })

/-- The reply of a finished command at its reply instant: queued, and journalled among the last 16 (R352, R362). -/
def State.deliver (p : PolId) (e : QEntry) (a : Answer) (s : State) : State :=
  s.modPol p (fun q => { q with replyQ := q.replyQ ++ [replyOf p e a s], journal := (replyOf p e a s :: q.journal).take 16 })

/-- A new backoff is drawn from 0 to W − 1: a free value (R476; notes/assumptions/3.md). -/
def State.drawBackoff (p : Port) (s : State) : State := (s.modPort p (fun l => { l with backoff := s.draw % l.window })).drawn

/-- A frame into a port's contention queue; the first one there draws its backoff (R476). -/
def State.contend (p : Port) (f : TxFrame) (s : State) : State :=
  let s1 := s.modPort p (fun l => { l with contention := l.contention ++ [f] })
  if (s.port p).contention.isEmpty then s1.drawBackoff p else s1

/-- The line frame of a packet in contention (R472). -/
def State.contendPacket (dst : BitVec 12) (k : OutPacket) (s : State) : State :=
  s.contend (s.portToward dst) { dst := dst, src := s.fab.addr, ackmap := 0, isNew := true, fseq := 0, body := .data k }

/-- An untagged reply: at most one per service round and destination, the others counted on the spillway
(R344, R360, R361). -/
def State.untagged (p : PolId) (seq : W16) (st : Status) (next : W16) (path : Path) (s : State) : State :=
  let r : Reply := { pol := p, esn := seq.toNat, opcode := 0, handle := 0, status := st, origStatus := st, effectFrame := 0,
                     results := [], dup := false, untagged := true, next := next, path := path, key := 0, number := 0 }
  if s.fab.spillDest.contains path then
    let s := { s with fab := { s.fab with spill := s.fab.spill + 1 } }
    match path with
    | .host => s
    | .line d => s.countPort (s.portToward d) 12
  else
    let s := { s with fab := { s.fab with spillDest := path :: s.fab.spillDest } }
    match path with
    | .host => if s.domOn 12 then { s with host := { s.host with waiting := s.host.waiting ++ [r] } } else s
    | .line d => s.contendPacket d (.reply r)

/-! ### Triggers, wakes and compares (R119 to R122, R157 to R162, R192 to R196) -/

/-- The settings in force name a trigger source (R196, R398). -/
def Expo.hasSource (e : Expo) : TrigSrc → Bool
  | .trigIn => e.srcTrigIn
  | .compare => e.srcCompare
  | .command => e.srcCommand

/-- What becomes of a trigger (R397). -/
inductive TrigOutcome where
  | accepted
  | pending
  | overrun
  | dropped
  deriving DecidableEq, Repr

/-- OUTCOME of R397. -/
def TrigOutcome.code : TrigOutcome → Nat
  | .accepted => 0
  | .pending => 1
  | .overrun => 2
  | .dropped => 3

/-- The current slot's acceptance window is open for a polder (R193, R668). -/
def State.windowOpen (s : State) (p : PolId) : Bool :=
  match s.wheel.slot with
  | some x => x.holder == some p && x.expo.triggered && x.trig.isNone && !x.deadlinePassed && s.clock.hold.isNone
  | none => false

/-- What a trigger of a source does to a polder (R193 to R196, R398). -/
def State.trigOutcome (s : State) (p : PolId) (src : TrigSrc) : TrigOutcome :=
  let q := s.pol p
  if !s.wheel.turning || !q.expo.triggered || !q.expo.hasSource src then .dropped
  else if s.windowOpen p then .accepted
  else if q.trigPending.isNone then .pending
  else .overrun

/-- A trigger is presented to a polder (R192 to R196). -/
def State.trigger (p : PolId) (src : TrigSrc) (s : State) : State :=
  let t : Trigger := { src := src, at_ := s.clock.elapsed }
  match s.trigOutcome p src with
  | .accepted => { s with wheel := { s.wheel with slot := s.wheel.slot.map (fun x => { x with trig := some t }) } }
  | .pending => s.modPol p (fun q => { q with trigPending := some t })
  | .overrun => s.modPol p (fun q => { q with trigOverrun := sat16 q.trigOverrun })
  | .dropped => s.modPol p (fun q => { q with trigDropped := sat16 q.trigDropped })

/-- A wake of bit i is latched, only during an entry or while SEQ is not ON (R159, R160, R162). -/
def State.latchWake (i : Nat) (s : State) : State :=
  if s.power.entry.isSome || !s.domOn 7 then
    let late := match s.power.entry with
      | some e => e.finalPassed
      | none => false
    { s with power := { s.power with latches := s.power.latches ||| BitVec.ofNat 8 (2 ^ i),
                                     firstLatch := some (s.power.firstLatch.getD s.clock.tb),
                                     lateWake := s.power.lateWake || late } }
  else s

/-- A trigger whose source has been latched as a wake waits for the replay of R161 while an entry that can still be abandoned has the
wheel stopped; any other is presented at once (R159, R161; notes/assumptions/64.md). -/
def State.wakeTrigger (woke : Bool) (p : PolId) (src : TrigSrc) (s : State) : State :=
  let replayable := match s.power.entry with
    | some e => !e.finalPassed && !s.wheel.turning
    | none => false
  if woke && replayable then { s with power := { s.power with replay := s.power.replay ++ [(p, src)] } } else s.trigger p src

/-- The triggers that waited are presented, at the return of an abandoned entry or where the entry can no longer be abandoned
(R161, R196). -/
def State.replayTriggers (s : State) : State :=
  s.power.replay.foldl (fun s x => s.trigger x.1 x.2) { s with power := { s.power with replay := [] } }

/-- The end of SEC's range in ticks (R111). -/
def tbRange : Nat := 2 ^ 32 * ticksPerSec

/-- A periodic channel's VALUE after a firing at time `t`: PERIOD added until it is greater than TB, or once to the
wrap of SEC (R120). -/
def Tcmp.reload (c : Tcmp) (t : Tb) : Tcmp :=
  let v := c.value.ticks
  let k := (t.ticks - v) / c.period.toNat + 1
  let m := (tbRange - v + c.period.toNat - 1) / c.period.toNat
  if k < m then { c with value := Tb.ofTicks (v + k * c.period.toNat), missed := min 255 (c.missed + (k - 1)) }
  else { c with value := Tb.ofTicks (v + m * c.period.toNat), missed := min 255 (c.missed + (m - 1)), wrapped := true }

/-- What a firing leaves in the channel (R120). -/
def Tcmp.fire (c : Tcmp) (t : Tb) : Tcmp :=
  let c := { c with fired := true, fires := (c.fires + 1) % 256 }
  if c.period = 0 then { c with arm := false } else c.reload t

/-- The polder of a channel (R116). -/
def channelPol (ch : Fin 16) : PolId := ⟨ch.val / 2, by omega⟩

/-- STAMP: a firing opens an EV_TCMP, or merges into the open one (R121, R122). -/
def State.stamp (ch : Fin 16) (s : State) : State :=
  match (s.clock.tcmp[ch]).openEv with
  | some e => s.modTcmp ch (fun t => { t with openEv := some { e with count := e.count + 1 } })
  | none =>
    if (s.pol (channelPol ch)).takesEvent s.lastFrame then
      (s.modTcmp ch (fun t => { t with openEv := some { tb := s.clock.tb, frame := s.lastFrame, count := 1 } })).event
        (channelPol ch) 0x0003 (leBytes 1 ch.val)
    else s

/-- A compare channel fires (R120, R121). -/
def State.fireTcmp (ch : Fin 16) (s : State) : State :=
  let c := s.clock.tcmp[ch]
  let s := s.modTcmp ch (fun t => t.fire s.clock.tb)
  let s := if c.wake then s.latchWake (5 + ch.val) else s
  let s := if c.expose then s.wakeTrigger c.wake (channelPol ch) .compare else s
  if c.stamp then s.stamp ch else s

/-- A channel is due: armed, not waiting for the wrap, its VALUE at or below TB (R119, R120). -/
def Tcmp.due (c : Tcmp) (t : Tb) : Bool := c.arm && !c.wrapped && c.value.le t

/-- Every due channel fires, in ascending order (R119, R120, R126). -/
def State.fireDue (s : State) : State :=
  (List.finRange 16).foldl (fun s ch => if (s.clock.tcmp[ch]).due s.clock.tb then s.fireTcmp ch else s) s

/-! ### Holdup, writes and the answers that need them (R95, R420, R623) -/

/-- NVM_BUF, block 10, is under test (R620). -/
def State.blockUnderTest (s : State) (n : Nat) : Bool :=
  match s.bist.job with
  | some j => j.started && decide (j.algo ≤ 1) && lowestBit 16 j.left.toNat == some n
  | none => false

/-- The answers a committing command may get in place of its commit: HOLDUP_LOW, then DEFECT without a usable page
buffer (R95, R420, R623; notes/assumptions/15.md). -/
def State.writeRefusal (s : State) : Option Status :=
  if s.holdup.low then some .holdupLow
  else if s.bist.unusable.toNat.testBit 10 then some .defect
  else none

/-! ### Service (R352 to R355) -/

/-- What serving a command answers: finished with a reply, held at the head of the queue under a rule, or held there
after its reply has left (R143, R353). -/
inductive CmdOut where
  | done (a : Answer) (s : State)
  | hold (rule : HoldRule) (a : Option Answer) (s : State)
  | replyHold (rule : HoldRule) (a : Answer) (s : State)
  deriving DecidableEq, Repr

/-- A finished command with results and the EFFECT_FRAME of R358. -/
def doneOk (rs : List Byte) (s : State) : CmdOut := .done { status := .ok, effectFrame := none, results := rs } s

/-- A finished command with results that names its EFFECT_FRAME. -/
def doneAt (f : W32) (rs : List Byte) (s : State) : CmdOut := .done { status := .ok, effectFrame := some f, results := rs } s

/-- A refusal: a status and no results (R383, R419). -/
def refuse (st : Status) (s : State) : CmdOut := .done { status := st, effectFrame := none, results := [] } s

/-- Who may issue an opcode (R380, R417). -/
inductive Issuer where
  | all
  | owner
  | bound
  deriving DecidableEq, Repr

/-- The row of an opcode (R380, R381, R417): issuer, lifecycle states, PLEN and the reserved
parameter bits at that PLEN. -/
structure OpSpec where
  issuer : Issuer
  states : List Lc
  plenOk : Nat → Bool
  reserved : Nat → List (Nat × Nat)

/-- COMMISSION and FIELD (R381). -/
def cf : List Lc := [.commission, .field]

/-- MANUFACTURE, COMMISSION, FIELD and RETURN (R417). -/
def mcfr : List Lc := [.manufacture, .commission, .field, .ret]

/-- Polder 0's sender is the claimant (R610). -/
def State.claimant (s : State) (p : PolId) : Bool := p == owner && !s.ownerActive && s.life.shadow == .commission

/-- The opcodes the claimant may issue (R610). -/
def claimantOps : List Byte := [0x00, 0x02, 0x50, 0x51, 0x90]

/-- The sender may issue the opcode (R355 step 4, R380, R417, R610). -/
def State.permitted (s : State) (sp : OpSpec) (e : QEntry) : Bool :=
  (match sp.issuer with
   | .all => true
   | .owner => e.req.pol == owner
   | .bound => e.req.pol == s.bindHolder 2) &&
  (!s.claimant e.req.pol || claimantOps.contains e.opcode)

/-- The assembly rule of R356 for a command served: BAD_PARAM for another HANDLE or opcode, LEASE_EXPIRED for the
next part of an expired assembly; the assembly is then gone. -/
def State.assemblyCheck (s : State) (e : QEntry) : Option Status × State :=
  match (s.pol e.req.pol).assembly with
  | none => (none, s)
  | some a =>
    let cleared := s.modPol e.req.pol (fun q => { q with assembly := none })
    if a.expired then
      if a.opcode = e.opcode ∧ a.handle = e.req.handle then (some .leaseExpired, cleared) else (none, s)
    else if a.opcode = e.opcode ∧ a.handle = e.req.handle then (none, s)
    else (some .badParam, cleared)

/-- The parameter bits the row reserves are 0 (R15). -/
def reservedClear (ranges : List (Nat × Nat)) (ps : List Byte) : Bool :=
  ranges.all (fun r => bits (leNat ps) r.1 r.2 == 0)

/-- The checks every command meets, in order, before its own (R355, R356, R555). -/
def checked (sp : OpSpec) (own : QEntry → State → CmdOut) (e : QEntry) (s : State) : CmdOut :=
  if !s.arr.mfg.valid && bits e.opcode.toNat 7 4 != 9 then refuse .defect s
  else if e.params.length < e.plen || !sp.plenOk e.plen then refuse .badLength s
  else if !reservedClear (sp.reserved e.plen) (e.params.take e.plen) then refuse .badParam s
  else if !s.permitted sp e then refuse .notPermitted s
  else if !sp.states.contains s.life.shadow then refuse .lifecycle s
  else
    match s.assemblyCheck e with
    | (some st, s) => refuse st s
    | (none, s) => own { e with params := e.params.take e.plen } s

/-- A command that writes the array before its reply leaves: it waits while the page buffer is under test, is refused where
no write may start, or does its work and holds the head under a rule (R420, R554, R562 to R564, R620). -/
def writeThen (rule : HoldRule) (a : Answer) (s : State) (req : State → State) : CmdOut :=
  if s.blockUnderTest 10 then .hold .blockUnderTest none s
  else
    match s.writeRefusal with
    | some st => refuse st s
    | none => .hold rule (some a) (req s)

/-- A command that commits an item before its reply leaves: its volatile effect now, its reply at the commit (R420,
R554); `req` requests the write. -/
def commitThen (item : Nat) (a : Answer) (s : State) (req : State → State) : CmdOut := writeThen (.itemCommit item) a s req

/-- A dissolving polder answers every command POLDER_GONE, sealed, and counts it (R330, R331). -/
def goneAnswer (e : QEntry) (s : State) : CmdOut :=
  refuse .polderGone (s.modPol e.req.pol (fun q => { q with gone := q.gone.map (fun g => { g with goneCount := g.goneCount + 1 }) }))

/-- The outcome of a service takes its place: a reply at the reply instant, or a command that holds the head
(R352, R353). -/
def settle (e : QEntry) (o : CmdOut) : State :=
  match o with
  | .done a s => s.deliver e.req.pol e a
  | .hold r a s => s.modPol e.req.pol (fun q => { q with serving := some { entry := e, rule := r, answer := a, ready := false, replied := false } })
  | .replyHold r a s => (s.deliver e.req.pol e a).modPol e.req.pol (fun q =>
      { q with serving := some { entry := e, rule := r, answer := some a, ready := true, replied := true } })

/-- An entry is served with a meaning (R330, R352, R355). -/
def serveWith (f : QEntry → State → CmdOut) (e : QEntry) (s : State) : State :=
  if (s.pol e.req.pol).state == .dissolving then settle e (goneAnswer e s) else settle e (f e s)

/-- The polder's slice may serve now and finish in it: nothing held or queued, room for a reply, the sequencer running at P0
(R170, R352 to R354). -/
def State.sliceFree (s : State) (p : PolId) : Bool :=
  s.sequencing && s.power.points[2] == 0 && (s.pol p).serving.isNone && (s.pol p).queue.isEmpty && decide ((s.pol p).replyQ.length < 8)

/-- A command is admitted: NEXT_ADMIT moves on, the delivery path follows, a kept ANSWER is erased, a due
reservation is requested (R349 step 11, R351, R365, R368). -/
def State.admitCommand (e : QEntry) (s : State) : State :=
  let p := e.req.pol
  let moved := s.lives p && (s.pol p).path != some e.req.path
  let s := s.modPol p (fun q => { q with nextAdmit := q.nextAdmit + 1, path := some e.req.path, kept := none })
  let s := if moved then s.requestItem p (.seqs p (some (s.seqsWanted p))) else s
  s.reserveSeq p

/-- The entries a polder's command queue holds: a head in service stays one of them until it is released (R352, R353). -/
def Polder.queued (q : Polder) : Nat := q.queue.length + b2n q.serving.isSome

/-- Admission is closed: the queue holds 8 entries, or NEXT_ADMIT has reached the committed C_R of a polder that has
one (R349 step 9). -/
def State.queueClosed (s : State) (p : PolId) : Bool :=
  decide (8 ≤ (s.pol p).queued) || (s.lives p && decide ((s.pol p).cR ≤ (s.pol p).nextAdmit))

/-- The polder no longer takes packets: absent, CHARTERED, or its dissolution has taken effect (R330, R333). -/
def State.polderGone (s : State) (p : PolId) : Bool :=
  p != owner && (!s.lives p || (match (s.pol p).gone with
    | some g => g.passed
    | none => false))

/-- Wakes SEQ for traffic while it is not ON (R157 bit 7, R164). -/
def State.trafficWake (path : Path) (s : State) : State :=
  if s.domOn 7 then s
  else
  match path with
  | .host => if s.domOn 12 && s.hostPol == owner then s.latchWake 7 else s
  | .line _ => if s.domOn 9 || s.domOn 10 then s.latchWake 7 else s

/-- A host packet for another polder than the bound one is discarded and counted (R637, R642). -/
def State.bindMiss (s : State) : State := { s with host := { s.host with bindMissCnt := satInc 255 s.host.bindMissCnt } }

/-- A command row: the command arrives sealed in order, is admitted at NEXT_ADMIT (R349), and is served in its
polder's slice, at once where the slice is free, else from the queue (R352; notes/assumptions/8.md). -/
def runCommand (opcode : Byte) (f : QEntry → State → CmdOut) (r : Req) (params : List Byte) (s : State) : State :=
  let seq : W16 := BitVec.ofNat 16 (s.pol r.pol).nextAdmit
  if !s.power.seqRunning then s
  else if r.path = .host ∧ s.hostPol ≠ r.pol then s.bindMiss
  else if !s.power.accepting then
    match r.path with
    | .host => s.untagged r.pol seq .notReady 0 r.path
    | .line d => s.countPort (s.portToward d) 3
  else if s.polderGone r.pol then s.untagged r.pol seq .polderGone 0 r.path
  else
    match s.sessionKey r.pol r.path with
    | none => (s.modPol r.pol (fun q => { q with cnt := { q.cnt with authFail := sat16 q.cnt.authFail } })).untagged r.pol seq .authFail 0 r.path
    | some key =>
      if s.queueClosed r.pol then
        (s.modPol r.pol (fun q => { q with cnt := { q.cnt with queueFull := sat16 q.cnt.queueFull } })).untagged r.pol seq .busy 0 r.path
      else
        let e : QEntry := { kind := .command, opcode := opcode, req := r, params := params, plen := params.length,
                            esn := (s.pol r.pol).nextAdmit, key := key, raw := [] }
        let s1 := s.admitCommand e
        if s1.sliceFree r.pol then serveWith f e s1
        else
          (s1.modPol r.pol (fun q => { q with queue := q.queue ++ [e] })).trafficWake r.path

/-- A command held at the head gets its reply: at this reply instant where there is room, else at the polder's next
(R352, R354). -/
def State.answerHeld (p : PolId) (a : Answer) (s : State) : State :=
  match (s.pol p).serving with
  | none => s
  | some v =>
    if decide ((s.pol p).replyQ.length < 8) && s.sequencing then
      (s.deliver p v.entry a).modPol p (fun q => { q with serving := none })
    else s.modPol p (fun q => { q with serving := some { v with answer := some a, ready := true } })

/-- The command held at a polder's head under a rule becomes ready with an answer for the next reply instant. -/
def State.readyHeld (p : PolId) (rule : HoldRule) (a : Answer) (s : State) : State :=
  s.modPol p (fun q => { q with serving := q.serving.map (fun v => if v.rule = rule then { v with answer := some a, ready := true } else v) })

/-- The commit of an item releases every command that waits for it: in its own polder's slice at once, in another's
at that polder's next reply instant (R554). -/
def State.releaseCommit (item : Nat) (p : PolId) (ok : Bool) (s : State) : State :=
  (List.finRange 8).foldl (fun s q =>
    match (s.pol q).serving with
    | some v =>
      if v.rule = .itemCommit item then
        let a : Answer := if ok then v.answer.getD { status := .ok, effectFrame := none, results := [] }
                          else { status := .defect, effectFrame := none, results := [] }
        if q = p then s.answerHeld q a else s.readyHeld q v.rule a
      else s
    | none => s) s

/-- A command that holds the head and has not replied can finish no longer: it is answered VOIDED at its polder's next reply instant
(R375). -/
def State.voidHeld (p : PolId) (s : State) : State :=
  s.modPol p (fun q => { q with serving := q.serving.map (fun v =>
    if v.replied then v
    else { v with rule := .voided, answer := some { status := .voided, effectFrame := none, results := [] }, ready := true }) })

/-- The transport has carried the owner's reply to ESN `n` (R148). -/
def State.markCarried (n : Nat) (s : State) : State :=
  { s with carries := s.carries.map (fun c => if c.esn = n then { c with carried := true } else c) }

/-- What waits for a reply has had it carried. -/
def State.carried (s : State) (why : CarryWhy) : Bool := s.carries.any (fun c => c.why = why && c.carried)

/-- Some wait of this kind is open, carried or not. -/
def State.waitsCarry (s : State) (why : CarryWhy) : Bool := s.carries.any (fun c => c.why = why)

/-- A wait is over. -/
def State.dropCarry (why : CarryWhy) (s : State) : State := { s with carries := s.carries.filter (fun c => c.why ≠ why) }

/-! ### Items at a start-up and the places of copy slots (R271, R543, R544, R551, R555) -/

/-- The items the node loads at a start-up (R551, R555). -/
def itemIds : List Nat := [0x01, 0x02, 0x03, 0x10, 0x11, 0x12, 0x13, 0x20] ++ List.range' 0x30 16

/-- Every item's default: what holds where no copy slot of it is valid (R273, R555). -/
def ArrayS.defaults (a : ArrayS) : ArrayS :=
  { a with mfg := { a.mfg with valid := false }, trimTab := none, colState := none, fabric := FabricItem.factory, wheel := WheelItem.factory,
           bootImage := 0, bootField := none, dali := DaliItem.initial, creation := 0, stored := Vector.replicate 8 none,
           seqs := Vector.replicate 8 none }

/-- Every item is loaded from its copy slot with the highest valid GEN, or takes its default (R271, R555). -/
def ArrayS.load (a : ArrayS) : ArrayS :=
  itemIds.foldl (fun b i =>
    match newestCopy i a.copies with
    | some c => b.take c.value
    | none => b) a.defaults

/-- The array address of bank b at an offset (R543). -/
def bankAddress (b offset : Nat) : Nat := b * 0x200000 + offset

/-- The array address at which a region begins; USER has two halves (R544). -/
def regionBase (r : Nat) (half : Bool) : Nat :=
  match r with
  | 0 => bankAddress 0 0
  | 1 => bankAddress 1 0
  | 2 => bankAddress 0 0x0C0000
  | 3 => bankAddress 1 0x0C0000
  | 4 => bankAddress 0 0x0D0000
  | 5 => bankAddress 0 0x0E0000
  | _ => bankAddress 1 (if half then 0x120000 else 0x0E0000)

/-- The array address of a page of a copy slot: region markers and remap items lie where R544 says, the others inside their region where
no rule says (R544, R551; notes/assumptions/6.md). -/
def copyPage (item slot page : Nat) : Nat :=
  match item with
  | 0x40 => bankAddress 0 (0x120000 + 256 * slot)
  | 0x41 => bankAddress 1 (0x160000 + 256 * slot)
  | 0x46 => bankAddress 1 (0x161000 + 256 * slot)
  | 0x50 => bankAddress 0 (0x121000 + 256 * slot)
  | 0x51 => bankAddress 1 (0x162000 + 256 * slot)
  | _ => Config.copyAddress item slot + 256 * page

/-- The pages of a copy slot (R551). -/
def ItemCopy.pages (c : ItemCopy) : List Nat := (List.range (itemPages c.item)).map (copyPage c.item c.slot)

/-- A copy slot takes in the page that begins at an address (R551). -/
def ItemCopy.covers (page : Nat) (c : ItemCopy) : Bool := c.pages.contains page

/-- A page of the 16 copy slots of the FABRIC item (R551, R605). -/
def fabricPage (page : Nat) : Bool := (List.range 16).any (fun i => copyPage 0x10 i 0 == page)

/-! ### The firmware region updates of the array (R560 to R566) -/

/-- The content of an update: LENGTH bytes, unwritten ones 0x00 (R560). -/
def Update.content (u : Update) (len : Nat) : List Byte :=
  (List.range len).map (fun i => ((u.data.find? (fun c => c.1 = i)).map (·.2)).getD 0)

/-- The signature of an image verifies over its header and body under the firmware key that the fuses hold for its SIGN_KEY_ID
(R416, R565, R566). -/
def imageSigned (bs : List Byte) : Bool :=
  let n := 64 + field bs 8 4
  match pointOf (Config.firmwareKey (byteAt bs 20).toNat) with
  | some key => ecdsaOk key (bs.take n) (bs.drop n)
  | none => false

/-- SIG of an image (R566): 3 for a major version other than 1, 2 for a wrong magic, length, SIGN_KEY_ID or signature, else 1. -/
def imageSig (bs : List Byte) : Nat :=
  if byteAt bs 4 ≠ 1 then 3
  else if field bs 0 4 ≠ 0x5A4E3136 ∨ field bs 8 4 % 8 ≠ 0 ∨ bs.length ≠ 128 + field bs 8 4 ∨ 65536 < field bs 12 4 ∨
    field bs 8 4 < field bs 12 4 ∨ imageSigned bs = false then 2
  else 1

/-- A region's bytes as its store keeps them. -/
def cellsOf (bs : List Byte) : List Host.Cell := cellsWriteList [] 0 bs

/-- An accepted ARR_COMMIT takes effect: the content is the update's, the marker closes the update (R564). -/
def ArrayS.commitRegion (h : W16) (len : Nat) (a : ArrayS) : ArrayS :=
  match a.updates.find? (fun u => u.handle = h) with
  | none => a
  | some u =>
    let bs := u.content len
    let sig := if u.region.val = 6 then 0 else imageSig bs
    let a := a.modRegion u.region.val (fun x =>
      { content := cellsOf bs, len := len, isOpen := false, valid := true, sig := sig,
        half := if u.region.val = 6 ∧ x.valid then !x.half else false,
        version := if u.region.val = 6 then 0 else BitVec.ofNat 32 (field bs 4 4) })
    { a with updates := a.updates.filter (fun x => x.handle ≠ h), copies := addCopy (.marker u.region.val) a.copies }

/-- The OPEN marker of an ARR_OPEN (R562): a firmware region has no valid commit from then on. -/
def ArrayS.openRegion (h : W16) (a : ArrayS) : ArrayS :=
  match a.updates.find? (fun u => u.handle = h) with
  | none => a
  | some u =>
    { a.modRegion u.region.val (fun x =>
        if u.region.val = 6 then { x with isOpen := true } else { x with isOpen := true, len := 0, valid := false, sig := 0, version := 0 }) with
      copies := addCopy (.marker u.region.val) a.copies }

/-! ### Power loss and restarts (R557, R558, R671, R672) -/

/-- The page program in progress: that of the slice's polder, else the first (R547, R557). -/
def State.activeJob (s : State) : Option (PolId × PageJob) :=
  match s.curSlice with
  | some p => (s.arr.jobs.find? (fun j => j.1 = p)).or s.arr.jobs.head?
  | none => s.arr.jobs.head?

/-- LENGTH of the ARR_COMMIT that holds the owner's queue. -/
def State.commitLen (s : State) : Nat :=
  match (s.pol owner).serving with
  | some v => field v.entry.params 0 4
  | none => 0

/-- What power loss or a reset still completes in the array: the page in progress, and an item's marker page where
it comes next; everything else is invisible afterwards (R553, R557, R558). -/
def State.finishPage (s : State) : State :=
  match s.activeJob with
  | some (p, .item) =>
    match s.arr.writes.find? (fun w => w.started && w.pol = p) with
    | some w => if w.pagesLeft ≤ 2 then { s with arr := s.arr.commit w.value } else s
    | none => s
  | some (_, .arrOpen h) => { s with arr := s.arr.openRegion h }
  | some (_, .arrCommit h left) => if left = 1 then { s with arr := s.arr.commitRegion h s.commitLen } else s
  | some (_, .log) => { s with arr := s.arr.programLog }
  | _ => s

/-- The array after a restart: only what was committed (R672). -/
def ArrayS.kept (a : ArrayS) : ArrayS :=
  { a with writes := [], jobs := [], heldJobs := [], applied := Vector.replicate 8 0, used := (0, 0), fabricWaits := false, commitTimes := [], updates := [], lostHandles := [], logBuf := [], logTimes := [], logSpill := 0,
           ownerStarts := 16,
           lseq := a.lseqDone }

/-- The lifecycle state the fuses and the BOOT flag give (R598, R599). -/
def State.lcDerived (s : State) : Lc :=
  if s.life.fuseScrapped then .scrapped
  else if s.life.fuseReturn then .ret
  else if !s.life.mfgDone then .manufacture
  else if s.arr.bootField.getD s.life.fieldOnce then .field
  else .commission

/-- The 16 copy slots of the FABRIC item hold zeros, and CLEARED is set (R605, R607). -/
def State.zeroFabric (s : State) : State :=
  { s with arr := { s.arr with fabric := FabricItem.factory, copies := s.arr.copies.filter (fun c => c.item ≠ 0x10), fabricWaits := false },
           life := { s.life with cleared := true } }

/-- A start of the charger at a return of NVM: HOLD is as last measured (R89, R93). -/
def Holdup.start (h : Holdup) : Holdup :=
  { Holdup.initial with lastMv := h.lastMv, lastReason := h.lastReason, startedBelow4 := decide (h.lastMv < 4000), firstMeasure := false }

/-- The straps as a release of RESET_N that the node gives itself samples them: COMMISSION_N is low where it has stayed low, else as
the environment holds it, high where VIO is absent; the ADR straps are as last sampled, low where VIO is absent (R57, R72; notes/assumptions/65.md). -/
def State.strapsNow (s : State) : Straps :=
  if s.power.vioLost then { commissionLow := false, adr0High := false, adr1High := false }
  else { s.lands.straps with commissionLow := s.lands.commissionStays || s.draw.testBit 0 }

/-- The test access port held in reset (R45, R46, R612). -/
def Jtag.inReset (j : Jtag) : Jtag := { j with ir := .idcode, boundary := 0, dataOut := [] }

/-- A restart with its cause (R671, R672, R679): every volatile part of the node is as at the release of RESET_N, which samples the
straps again; the array keeps what was committed, the fuses and the supply stay (R57, R648). -/
def State.restart (cause : Nat) (s : State) : State :=
  let s := s.finishPage
  { State.reset with
      pending := s.pending, freeCtr := s.drawn.freeCtr, arr := s.arr.kept,
      power := { Power.initial with presentA := s.power.presentA, presentB := s.power.presentB,
                                    feedA := s.power.feedA, feedB := s.power.feedB, lineGood := s.power.lineGood,
                                    vauxOn := s.power.vauxOn, vauxFaultSent := s.power.vauxFaultSent, vioLost := s.power.vioLost, vioWaits := s.power.vioWaits },
      holdup := { s.holdup.start with lastReason := 0 },
      lands := { Lands.initial with straps := s.strapsNow, commissionStays := s.strapsNow.commissionLow },
      life := { s.life with shadow := s.lcDerived, cleared := false, pending := none },
      jtag := { Jtag.inReset s.jtag with halted := false, tcm := [] },
      restartCause := cause }

/-- SYS_RESET takes effect once its reply has been carried and every waiting item write is committed, while line power is good
(R98, R425, R558). -/
def State.sysResetDue (s : State) : State :=
  if s.carried .sysReset && s.arr.writes.isEmpty && !s.power.shedding then (s.dropCarry .sysReset).restart 3 else s

end Sys2Proof.Machine
end

