-- ==== Sys2Proof/Machine/Calendar.lean ====
section
/-! DEFINITION. Which polder turns which frame, and which owner slots are calibration slots (R30, R40, R260, R316,
R394). -/

namespace Sys2Proof.Machine

/-- The owner's and a tenant's charter as it will stand at the next revolution boundary (R312). -/
def Polder.nextCharter (q : Polder) : Charter := q.charterNext.getD q.charter

/-- The wheel slots a polder has in the revolution of a frame: those on the wheel in the current revolution, those of
its charter after the next boundary (R316). -/
def State.slotsAt (s : State) (p : PolId) (f : W32) : W16 :=
  if s.wheel.turning && revolutionOf f == revolutionOf s.lastFrame then s.heldSlots p
  else if (s.pol p).state == .active then (s.pol p).nextCharter.slots
  else 0

/-- Polder p turns frame f. -/
def State.turnsFrame (s : State) (p : PolId) (f : W32) : Bool := (s.slotsAt p f).toNat.testBit (slotIndex f)

/-- The schedule of ramp calibration in force in the revolution of a frame (R260, R410). -/
def State.scheduleAt (s : State) (f : W32) : Nat × Nat :=
  if s.wheel.turning && revolutionOf f == revolutionOf s.lastFrame then (s.cols.rampInterval, s.cols.rampSlot)
  else s.cols.scheduleNext.getD (s.cols.rampInterval, s.cols.rampSlot)

/-- RAMP_SLOT as it acts: the owner's lowest-held slot for 0xFF or for a slot the owner does not hold (R260, R410). -/
def effectiveSlot (slots : W16) (rampSlot : Nat) : Nat :=
  if rampSlot < 16 ∧ slots.toNat.testBit rampSlot then rampSlot else lowestSlot slots

/-- A frame lies in the owner's RAMP_SLOT slot (R260). -/
def State.rampSlotAt (s : State) (f : W32) : Bool :=
  s.turnsFrame owner f && slotIndex f == effectiveSlot (s.slotsAt owner f) (s.scheduleAt f).2

/-- The first of `n` frames from `f` on that satisfies a condition. -/
def firstFrame : Nat → W32 → (W32 → Bool) → Option W32
  | 0, _, _ => none
  | n + 1, f, c => if c f then some f else firstFrame n (f + 1) c

/-- Ramp calibration is due in a frame, where `from_` is the first frame that has not begun: in the RAMP_SLOT slot of a due revolution,
and in the first RAMP_SLOT slot since the wheel started (R260). -/
def State.rampDueFrom (s : State) (from_ f : W32) : Bool :=
  (s.scheduleAt f).1 != 0 && s.rampSlotAt f &&
  ((f.toNat / 16) % (s.scheduleAt f).1 == 0 || (s.cols.restartDue && firstFrame 33 from_ s.rampSlotAt == some f))

/-- Ramp calibration is due in a frame that has not begun (R260). -/
def State.rampDue (s : State) (f : W32) : Bool := s.rampDueFrom s.wheel.nextFrame f

/-- The frame periods a set must pass: the one in force and a pending one (R393). -/
def State.periods (s : State) : List Nat := s.wheel.period :: s.wheel.periodNext.toList

/-- The polder's next wheel slot that has not begun (R37, R194). -/
def State.nextSlotOf (s : State) (p : PolId) : W32 :=
  (firstFrame 32 s.wheel.nextFrame (s.turnsFrame p)).getD (nextFrameOf (s.pol p).nextCharter.slots s.wheel.nextFrame)

/-- A frame is known to be a calibration slot: that of a CAL_RUN, of parts due again, or of the schedule (R40, R260,
R261, R668). -/
def State.calKnown (s : State) (f : W32) : Bool :=
  (s.cols.calRun.isSome && s.cols.calFrame == f) || (s.cols.calRedo.isSome && s.nextSlotOf owner == f) || s.rampDue f

/-- The frame of R37 for a setting: the polder's next slot; for the owner not one already known to be a calibration
slot, while the wheel turns (R37, R394). -/
def State.settingFrame (s : State) (p : PolId) : W32 :=
  if p = owner && s.wheel.turning then
    (firstFrame 96 s.wheel.nextFrame (fun f => s.turnsFrame p f && !s.calKnown f)).getD (s.nextSlotOf p)
  else s.nextSlotOf p

/-- The frame at which a polder's shadow applies: its first slot from the named one on that has not begun, for the owner not one
known to be a calibration slot (R37, R394, R396). -/
def State.shadowAt (s : State) (p : PolId) : W32 :=
  (firstFrame 96 (frameMax (s.pol p).shadowFrame s.wheel.nextFrame)
    (fun f => s.turnsFrame p f && !(p = owner && s.wheel.turning && s.calKnown f))).getD (s.nextSlotOf p)

/-- The first frame of the next revolution (R30, R401). -/
def State.nextRevolution (s : State) : W32 := revolutionAtOrAfter s.wheel.nextFrame

/-- NEXT_DUE: the first due frame of a schedule from a revolution on (R410); 0 while the schedule is off. Revolutions are numbered from
0 again when the frame number wraps. -/
def State.nextDue (s : State) (interval slot : Nat) (boundary : W32) : W32 :=
  if interval = 0 then 0
  else
    let r := (boundary.toNat / 16 + interval - 1) / interval * interval
    BitVec.ofNat 32 (16 * (if r < 2 ^ 28 then r else 0) + effectiveSlot (s.pol owner).nextCharter.slots slot)

/-- RAMP_INTERVAL, RAMP_SLOT as the held index and NEXT_DUE of a CAL_READ (R411): of the schedule in force where it makes a frame of
this revolution due, otherwise of the one that stands from the next boundary on (notes/assumptions/67.md). -/
def State.scheduleShown (s : State) : Nat × Nat × W32 :=
  let next := s.cols.scheduleNext.getD (s.cols.rampInterval, s.cols.rampSlot)
  match firstFrame 32 s.wheel.nextFrame s.rampDue with
  | some f => ((s.scheduleAt f).1, slotIndex f, f)
  | none => (next.1, effectiveSlot (s.pol owner).nextCharter.slots next.2, s.nextDue next.1 next.2 s.nextRevolution)

end Sys2Proof.Machine
end

