-- ==== Sys2Proof/Machine/CmdPower.lean ====
section
/-! DEFINITION. Commands of the power family: PWR_SET, PSTATE_SET, PWR_GET, REFUSAL_READ, REFUSAL_CLEAR (R141 to R144,
R169, R426 to R429). -/

namespace Sys2Proof.Machine

/-- The state of domain n in a configuration. -/
def domAt (c : Vector DomState 12) (n : Nat) : DomState := c.toList.getD (n - 1) .off

/-- The rules every configuration satisfies (R138). -/
def configOk (c : Vector DomState 12) : Bool :=
  let on : Nat → Bool := fun n => domAt c n == .on
  (!(on 1 || on 2 || on 3 || on 4) || (on 5 && on 6 && on 8 && on 7 && on 11)) && (!on 7 || (on 8 && on 11))

/-- Domains a request raises: those that will be ON and are not, and those that go from OFF to RET (R143). -/
def raises (now target : Vector DomState 12) : List Nat :=
  (List.range' 1 12).filter (fun n => (domAt target n == .on && domAt now n != .on) || (domAt target n == .ret && domAt now n == .off))

/-- Domains a request lowers: from ON, from RET to OFF, or to RET after a raise (R143, R145). -/
def lowers (now target : Vector DomState 12) : List Nat :=
  (List.range' 1 12).filter (fun n => domAt target n != .on && domAt target n != domAt now n)

/-- A request raises a sensor domain (R144). -/
def raisesSensor (now target : Vector DomState 12) : Bool := (raises now target).any (· ≤ 4)

/-- The checks of R142, then R621 and R623, in order. -/
def State.pwrRefusal (s : State) (w wakeSet wakeEn : Nat) : Option Status :=
  let now := s.power.doms
  let t := requestedConfig w now
  let retBad := (List.range 4).any (fun i => bits w (2 * i + 1) (2 * i) == 1)
  let leaves : Nat → Bool := fun n => domAt now n == .on && domAt t n != .on
  let enBound := ((bit wakeEn 2 || bit wakeEn 3) && s.hostPol != owner) || (bit wakeEn 4 && s.bindHolder 1 != owner)
  let set := (s.pol owner).shadow.getD (s.pol owner).expo
  if bits w 31 24 ≠ 0 ∨ retBad then some .badParam
  else if !configOk t then some .badParam
  else if !(bit wakeSet 7 && bit wakeSet 8 && bit wakeSet 11) || bits wakeSet 6 0 != 0 || bits wakeSet 15 13 != 0 then some .badParam
  else if (bit wakeEn 0 && !bit wakeSet 9) || (bit wakeEn 1 && !bit wakeSet 10) || (bit wakeEn 2 && !bit wakeSet 12) then some .badParam
  else if leaves 7 && bits wakeEn 3 0 == 0 then some .badParam
  else if domAt t 8 == .off && domAt now 8 != .off && (s.ownerActive || s.tenantExists) then some .notPermitted
  else if domAt t 6 == .off && domAt now 6 != .off && s.tenantExists then some .notPermitted
  else if (leaves 9 || leaves 10) && s.power.portMode != .tap then some .notPermitted
  else if enBound then some .notPermitted
  else if raisesSensor now t && !set.fits (s.wheel.periodNext.getD s.wheel.period) then some .noResource
  else if raisesSensor now t && (match s.bist.job with
    | some j => bits j.blocks.toNat 5 2 != 0
    | none => false) then some .busy
  else if raisesSensor now t && bits s.bist.unusable.toNat 5 2 != 0 then some .defect
  else none

/-- A list of domain numbers as a 12-bit map, bit n − 1 for domain n. -/
def domMap (l : List Nat) : BitVec 12 := BitVec.ofNat 12 (l.foldl (fun a n => a + 2 ^ (n - 1)) 0)

/-- The points of PIPE, STAT and ENC go to P0 before sensor domains return: at once for a domain that is not ON, at
RDY_V for one that is (R144, R156). -/
def Power.sensorPoints (p : Power) : Power :=
  let set : Nat → Nat → Power → Power := fun i n p =>
    if p.points.toList.getD i 0 = 0 then p
    else if domAt p.doms n = .on then { p with pointNext := p.pointNext.mapIdx (fun j x => if j = i then some 0 else x) }
    else { p with points := p.points.mapIdx (fun j x => if j = i then 0 else x) }
  set 3 8 (set 1 6 (set 0 5 p))

/-- A return of some domains begins at step V (R154). -/
def Power.beginReturn (doms : BitVec 12) (cause : RetCause) (p : Power) : Power :=
  { p with ret := some { doms := doms, step := .v, cause := cause, relock := 0 } }

/-- An entry begins: its wake settings are used from now on (R145, R426), and the wheel is to stop at the next
revolution boundary where a sensor domain is lowered (R146). -/
def State.beginEntry (e : Entry) (s : State) : State :=
  let sensor := (lowers s.power.doms e.target).any (· ≤ 4)
  { s with power := { s.power with entry := some e },
           wheel := { s.wheel with stopRequested := s.wheel.stopRequested || (sensor && s.wheel.turning) } }

/-- PWR_SET (R141 to R144, R147, R426). -/
def ownPwrSet (e : QEntry) (s : State) : CmdOut :=
  let w := field e.params 0 4
  let wakeSet := field e.params 4 2
  let wakeEn := (byteAt e.params 6).toNat
  match s.pwrRefusal w wakeSet wakeEn with
  | some st => refuse st s
  | none =>
    if s.power.ret.isSome || s.power.entry.isSome then .hold .powerIdle none s else
    let t := requestedConfig w s.power.doms
    let up := raises s.power.doms t
    let down := lowers s.power.doms t
    let a : Answer := { status := .ok, effectFrame := none, results := leBytes 4 (stateWord t) ++ leBytes 3 0 }
    let entry : Entry := { target := t, step := 1, lowered := 0, oldWakeSet := s.power.wakeSet, oldWakeEn := s.power.wakeEn, esn := e.esn,
                           stoppedWheel := false, finalPassed := false }
    let s := { s with power := { s.power with wakeSet := BitVec.ofNat 16 wakeSet, wakeEn := BitVec.ofNat 5 wakeEn,
                                              entryRef := s.clock.elapsed } }
    let pw := if raisesSensor s.power.doms t then s.power.sensorPoints else s.power
    if down.isEmpty then
      if up.isEmpty then .done a s
      else .replyHold .powerChange a { s with power := pw.beginReturn (domMap up) .raise }
    else if up.isEmpty then .hold .powerChange none (s.beginEntry entry)
    else .hold .powerChange none { s with power := { pw.beginReturn (domMap up) .raise with pendingEntry := some entry } }

def cmdPwrSet : QEntry → State → CmdOut :=
  checked { issuer := .owner, states := cf, plenOk := (· == 7), reserved := fun _ => [(31, 24), (32, 32), (47, 45), (55, 53)] } ownPwrSet

/-- The point requested for entry i of R427, `none` for KEEP. -/
def pointAsked (b i : Nat) : Option (Fin 3) :=
  match bits b (2 * i + 1) (2 * i) with
  | 0 => some 0
  | 1 => some 1
  | 2 => some 2
  | _ => none

/-- The domain of an operating point entry: PIPE, STAT, SEQ, ENC (R165). -/
def pointDomain (i : Nat) : Nat := if i = 0 then 5 else if i = 1 then 6 else if i = 2 then 7 else 8

/-- The point changes of a PSTATE_SET in order: a lowering changes its divider at once, a raise of an ON domain waits
for RDY_V and later ones wait for it (R167, R427). Answers whether every change is complete. -/
def Power.changePoints : List Nat → Nat → Power → Power × Bool
  | [], _, p => (p, true)
  | i :: rest, b, p =>
    match pointAsked b i with
    | none => p.changePoints rest b
    | some t =>
      if p.points.toList.getD i 0 ≤ t ∨ domAt p.doms (pointDomain i) ≠ .on then
        { p with points := p.points.mapIdx (fun j x => if j = i then t else x) }.changePoints rest b
      else ({ p with pointNext := p.pointNext.mapIdx (fun j x => if j = i then some t else x) }, false)

/-- A block of the self-test in progress lies in the domain of a point entry (R615, R621). -/
def State.bistNamesPoint (s : State) (i : Nat) : Bool :=
  match s.bist.job with
  | some j =>
    let bl := j.blocks.toNat
    if i = 0 then bits bl 3 2 != 0 else if i = 1 then bits bl 5 4 != 0 else if i = 2 then bits bl 1 0 != 0 else bits bl 7 6 != 0
  | none => false

/-- PSTATE_SET (R169, R427, R621). -/
def ownPstateSet (e : QEntry) (s : State) : CmdOut :=
  let b := (byteAt e.params 0).toNat
  let lowersPoint : Nat → Bool := fun i => match pointAsked b i with
    | some t => t != 0
    | none => false
  if s.wheel.turning && (lowersPoint 0 || lowersPoint 1 || lowersPoint 3) then refuse .notPermitted s
  else if (List.range 4).any (fun i => lowersPoint i && s.bistNamesPoint i) then refuse .busy s
  else
    match s.power.changePoints (List.range 4) b with
    | (p, true) => doneOk (leBytes 1 (pointsByte p.points)) { s with power := p }
    | (p, false) => .hold .pointChange none { s with power := p }

def cmdPstateSet : QEntry → State → CmdOut :=
  checked { issuer := .owner, states := cf, plenOk := (· == 1), reserved := fun _ => [] } ownPstateSet

/-- The port mode code (R428, R441). -/
def PortMode.code : PortMode → Nat
  | .unknown => 0
  | .tap => 1
  | .bridge => 2

/-- PWR_GET (R428). -/
def ownPwrGet (_ : QEntry) (s : State) : CmdOut :=
  let p := s.power
  doneOk (leBytes 4 (stateWord p.doms) ++ leBytes 1 (pointsByte p.points) ++ leBytes 1 p.wakeEn.toNat ++ leBytes 2 p.wakeSet.toNat ++
    leBytes 1 p.portMode.code ++ leBytes 1 (b2n s.holdup.low) ++ leBytes 2 s.holdup.lastMv ++ leBytes 1 s.holdup.lastReason) s

def cmdPwrGet : QEntry → State → CmdOut :=
  checked { issuer := .owner, states := cf, plenOk := (· == 0), reserved := fun _ => [] } ownPwrGet

/-- A refusal log entry, 16 bytes (R153). -/
def RefusalEntry.bytes (r : RefusalEntry) : List Byte :=
  r.tb.bytes ++ leBytes 1 r.domain ++ leBytes 1 r.reason ++ leBytes 1 r.step ++ leBytes 1 0 ++ leBytes 2 r.cmdSeq.toNat ++ leBytes 2 0

/-- REFUSAL_READ (R429). -/
def ownRefusalRead (e : QEntry) (s : State) : CmdOut :=
  let l := s.power.refusalLog
  let head := leBytes 1 l.length ++ leBytes 3 0
  let page : Nat → Nat → List Byte := fun from_ n => padTo (16 * n) ((((l.drop from_).take n).map RefusalEntry.bytes).flatten)
  match (byteAt e.params 0).toNat with
  | 0 => doneOk (head ++ (s.power.refusals.toList.map (leBytes 2)).flatten) s
  | 1 => doneOk (head ++ page 0 6) s
  | 2 => doneOk (head ++ page 6 6) s
  | 3 => doneOk (head ++ page 12 4) s
  | _ => refuse .badParam s

def cmdRefusalRead : QEntry → State → CmdOut :=
  checked { issuer := .owner, states := cf, plenOk := (· == 1), reserved := fun _ => [] } ownRefusalRead

/-- REFUSAL_CLEAR (R152, R429). -/
def ownRefusalClear (_ : QEntry) (s : State) : CmdOut :=
  doneOk [] { s with power := { s.power with refusals := Vector.replicate 12 0, refusalLog := [] } }

def cmdRefusalClear : QEntry → State → CmdOut :=
  checked { issuer := .owner, states := cf, plenOk := (· == 0), reserved := fun _ => [] } ownRefusalClear

/-- PWR_SET as a command row. -/
def execPwrSet (r : Req) (params : List Byte) (s : State) : Host.Outcome State Fault Refusal :=
  .next (runCommand 0x10 cmdPwrSet r params s)

/-- PSTATE_SET as a command row. -/
def execPstateSet (r : Req) (params : List Byte) (s : State) : Host.Outcome State Fault Refusal :=
  .next (runCommand 0x11 cmdPstateSet r params s)

/-- PWR_GET as a command row. -/
def execPwrGet (r : Req) (params : List Byte) (s : State) : Host.Outcome State Fault Refusal :=
  .next (runCommand 0x12 cmdPwrGet r params s)

/-- REFUSAL_READ as a command row. -/
def execRefusalRead (r : Req) (params : List Byte) (s : State) : Host.Outcome State Fault Refusal :=
  .next (runCommand 0x13 cmdRefusalRead r params s)

/-- REFUSAL_CLEAR as a command row. -/
def execRefusalClear (r : Req) (params : List Byte) (s : State) : Host.Outcome State Fault Refusal :=
  .next (runCommand 0x14 cmdRefusalClear r params s)

end Sys2Proof.Machine
end

