-- ==== Sys2Proof/Machine/CmdFabric.lean ====
section
/-! DEFINITION. Commands of the fabric family: FAB_READ, FAB_ADDR_SET, FAB_KEY_SET, FAB_RANK_SET, ROLE_SWAP, FAB_ROUTES,
FAB_PERIOD_SRC, FAB_PERIOD_SET (R440 to R449, R535, R536). -/

namespace Sys2Proof.Machine

/-- SEGMENT of a node address (R440). -/
def addrSegment (a : BitVec 12) : BitVec 6 := a.extractLsb' 6 6

/-- SLOT of a node address (R440). -/
def addrSlot (a : BitVec 12) : Nat := a.toNat % 64

/-- A value of 63 in either field names no one node (R440). -/
def addrBroadcast (a : BitVec 12) : Bool := addrSegment a == 63 || addrSlot a == 63

/-- The sender of the latest beacon of a port, where it is the fabric reeve's own (R492). -/
def LinePort.reeveHeard (l : LinePort) : Option (BitVec 12) :=
  match l.last with
  | some b => if b.fabricReeve then some l.lastSrc else none
  | none => none

/-- The address of the fabric reeve: the node's own, or the sender of a beacon with FABRIC_REEVE = 1 heard on either port;
elsewhere no rule carries it, and it is a free value (R441, R492; notes/assumptions/3.md). -/
def State.reeveAddress (s : State) : Nat :=
  if s.fab.role = 2 then s.fab.addr.toNat
  else
    match (s.port s.homePort).reeveHeard.or (s.lineA.reeveHeard.or s.lineB.reeveHeard) with
    | some a => a.toNat
    | none => s.draw % 4096

/-- The 14 bytes of FAB_READ SEL 0 (R441). -/
def State.fabricWords (s : State) : List Byte :=
  leBytes 2 s.fab.addr.toNat ++ leBytes 1 s.fab.role.val ++ leBytes 1 s.fab.rank.toNat ++ leBytes 1 s.power.portMode.code ++
  leBytes 1 (if s.fab.role = 2 then 0 else s.fab.hops.toNat) ++ leBytes 2 s.reeveAddress ++ leBytes 1 s.fab.keyId.toNat ++
  leBytes 1 (b2n s.arr.fabric.periodFabric) ++ leBytes 4 s.fabricWanted.fabPeriod

/-- The fifteen counters of a port (R441, R509). -/
def LinePort.words (l : LinePort) : List Byte := (l.counters.toList.map (leBytes 2)).flatten

/-- FAB_READ (R441). -/
def ownFabRead (e : QEntry) (s : State) : CmdOut :=
  match (byteAt e.params 0).toNat with
  | 0 => doneOk s.fabricWords s.drawn
  | 1 => doneOk s.lineA.words s
  | 2 => doneOk s.lineB.words s
  | _ => refuse .badParam s

def cmdFabRead : QEntry → State → CmdOut :=
  checked { issuer := .owner, states := cf, plenOk := (· == 1), reserved := fun _ => [] } ownFabRead

/-- A new value of the FABRIC item is requested (R442 to R449). -/
def State.requestFabric (f : FabricItem → FabricItem) (s : State) : State := s.requestItem owner (.fabric (f s.fabricWanted))

/-- FAB_ADDR_SET (R442). -/
def ownFabAddrSet (e : QEntry) (s : State) : CmdOut :=
  let a := BitVec.ofNat 12 (field e.params 0 2)
  if addrBroadcast a then refuse .badParam s
  else commitThen 0x10 { status := .ok, effectFrame := none, results := leBytes 2 s.fab.addr.toNat ++ leBytes 2 a.toNat } s
    (fun s => s.requestFabric (fun f => { f with addrNext := a }))

def cmdFabAddrSet : QEntry → State → CmdOut :=
  checked { issuer := .owner, states := [.commission], plenOk := (· == 2), reserved := fun _ => [(15, 12)] } ownFabAddrSet

/-- FAB_KEY_SET (R443). -/
def ownFabKeySet (e : QEntry) (s : State) : CmdOut :=
  let id := byteAt e.params 0
  if id = 0 then refuse .badParam s
  else commitThen 0x10 { status := .ok, effectFrame := none, results := [id] } s
    (fun s => s.requestFabric (fun f => { f with keyIdNext := id, keyNext := BitVec.ofNat 128 (field e.params 1 16) }))

def cmdFabKeySet : QEntry → State → CmdOut :=
  checked { issuer := .owner, states := [.commission], plenOk := (· == 17), reserved := fun _ => [] } ownFabKeySet

/-- FAB_RANK_SET (R444). -/
def ownFabRankSet (e : QEntry) (s : State) : CmdOut :=
  commitThen 0x10 { status := .ok, effectFrame := none, results := [] } s
    (fun s => s.requestFabric (fun f => { f with rank := byteAt e.params 0 }))

def cmdFabRankSet : QEntry → State → CmdOut :=
  checked { issuer := .owner, states := cf, plenOk := (· == 1), reserved := fun _ => [] } ownFabRankSet

/-- ROLE of a code (R445). -/
def swapOfCode (n : Nat) : Option SwapRole := if n = 1 then some .segment else if n = 2 then some .fabric else none

/-- The code of a role that is swapped (R445, R517). -/
def swapCode : SwapRole → Nat
  | .segment => 1
  | .fabric => 2

/-- This node holds a role (R511). -/
def State.holdsRole (s : State) : SwapRole → Bool
  | .segment => s.fab.role != 0
  | .fabric => s.fab.role == 2

/-- What the node's beacons say of the peer: it is the segment's reeve, or for FABRIC the fabric reeve heard on a port
(R511, R513). A peer on another segment may hold the fabric role unseen. -/
def State.peerMayHold (s : State) (role : SwapRole) (peer : BitVec 12) : Bool :=
  let heard : Port → Bool := fun p => (s.port p).lastSrc == peer && (s.port p).last.isSome
  match role with
  | .segment => heard s.homePort
  | .fabric => heard .a || heard .b || addrSegment peer != addrSegment s.fab.addr

/-- A peer has a route: it lies on the node's segment, on a bridge's far segment, or in a segment with a route or a claimant
(R445, R500). -/
def State.hasRoute (s : State) (peer : BitVec 12) : Bool :=
  let g := addrSegment peer
  g == addrSegment s.fab.addr ||
  (s.lineA.last.map (·.segment)) == some g || (s.lineB.last.map (·.segment)) == some g ||
  s.fab.routes.any (fun r => r.segment == g) || s.lineA.claimants.any (fun c => c.1 == g) || s.lineB.claimants.any (fun c => c.1 == g)

/-- STAMP48 of a time base value (R518). -/
def stamp48 (t : Tb) : BitVec 48 := BitVec.ofNat 48 ((t.sec.toNat % 2 ^ 19) * 2 ^ 29 + t.sub.toNat)

/-- The 56 bits of a fabric service frame after its FILTER: byte 1, then 48 bits (R517). -/
def serviceValue (byte1 : Nat) (value : BitVec 48) : BitVec 56 := BitVec.ofNat 56 (byte1 + 256 * value.toNat)

/-- A fabric service frame for a node: in contention on the own segment, as management traffic for another (R519). -/
def State.sendService (dst : BitVec 12) (filter : Nat) (byte1 : Nat) (value : BitVec 48) (s : State) : State :=
  let f : TxFrame := { dst := dst, src := s.fab.addr, ackmap := 0, isNew := true, fseq := 0,
                       body := .discover (BitVec.ofNat 8 filter) (serviceValue byte1 value) }
  let p := s.portToward dst
  if addrSegment dst = addrSegment s.fab.addr then s.contend p f
  else s.modPort p (fun l => { l with mgmt := l.mgmt ++ [f] })

/-- ROLE_SWAP: the checks of R445 that this node can make, then the request (R445, R535, R536). -/
def ownRoleSwap (e : QEntry) (s : State) : CmdOut :=
  let peer := BitVec.ofNat 12 (field e.params 0 2)
  match swapOfCode (byteAt e.params 2).toNat with
  | none => refuse .badParam s
  | some role =>
    let receives := !s.holdsRole role
    if addrBroadcast peer || peer == s.fab.addr || (role == .segment && addrSegment peer != addrSegment s.fab.addr) then refuse .badParam s
    else if receives && (!s.peerMayHold role peer || s.fab.rank == 0 || (role == .fabric && s.fab.role == 0)) then refuse .notPermitted s
    else if !s.hasRoute peer then refuse .unreachable s
    else
      let w : SwapPending := { role := role, peer := peer, stamp := s.clock.tb, crossed := none, stands := true, answered := false }
      .hold .swapOutcome none (({ s with fab := { s.fab with swap := some w } }).sendService peer 4 (swapCode role) (stamp48 s.clock.tb))

def cmdRoleSwap : QEntry → State → CmdOut :=
  checked { issuer := .owner, states := cf, plenOk := (· == 4), reserved := fun _ => [(15, 12), (31, 24)] } ownRoleSwap

/-- An entry of FAB_ROUTES (R447). -/
def RouteEntry.word (r : RouteEntry) : List Byte :=
  leBytes 4 (r.segment.toNat + 64 * (if r.port = .b then 1 else 0) + 256 * r.hops + 4096 * b2n r.draining + 65536 * r.nextHop.toNat)

/-- FAB_ROUTES (R447): a node in tap mode reports none. -/
def ownFabRoutes (e : QEntry) (s : State) : CmdOut :=
  let start := (byteAt e.params 0).toNat
  let table := if s.power.portMode = .tap then [] else s.fab.routes
  let l := (table.drop start).take 24
  if 63 < start then refuse .badParam s
  else doneOk (leBytes 1 table.length ++ leBytes 1 l.length ++ leBytes 2 0 ++ (l.map RouteEntry.word).flatten) s

def cmdFabRoutes : QEntry → State → CmdOut :=
  checked { issuer := .owner, states := cf, plenOk := (· == 1), reserved := fun _ => [] } ownFabRoutes

/-- FAB_PERIOD_SRC (R448). -/
def ownFabPeriodSrc (e : QEntry) (s : State) : CmdOut :=
  if s.tenantExists then refuse .notPermitted s
  else commitThen 0x10 { status := .ok, effectFrame := none, results := [] } s
    (fun s => s.requestFabric (fun f => { f with periodFabric := bit (byteAt e.params 0).toNat 0 }))

def cmdFabPeriodSrc : QEntry → State → CmdOut :=
  checked { issuer := .owner, states := cf, plenOk := (· == 1), reserved := fun _ => [(7, 1)] } ownFabPeriodSrc

/-- FAB_PERIOD_SET (R449). -/
def ownFabPeriodSet (e : QEntry) (s : State) : CmdOut :=
  let v := field e.params 0 4
  if s.fab.role ≠ 2 then refuse .notPermitted s
  else if !periodInRange v then refuse .badParam s
  else commitThen 0x10 { status := .ok, effectFrame := none, results := [] } s (fun s => s.requestFabric (fun f => { f with fabPeriod := v }))

def cmdFabPeriodSet : QEntry → State → CmdOut :=
  checked { issuer := .owner, states := cf, plenOk := (· == 4), reserved := fun _ => [] } ownFabPeriodSet

/-- FAB_READ as a command row. -/
def execFabRead (r : Req) (params : List Byte) (s : State) : Host.Outcome State Fault Refusal :=
  .next (runCommand 0x60 cmdFabRead r params s)

/-- FAB_ADDR_SET as a command row. -/
def execFabAddrSet (r : Req) (params : List Byte) (s : State) : Host.Outcome State Fault Refusal :=
  .next (runCommand 0x61 cmdFabAddrSet r params s)

/-- FAB_KEY_SET as a command row. -/
def execFabKeySet (r : Req) (params : List Byte) (s : State) : Host.Outcome State Fault Refusal :=
  .next (runCommand 0x62 cmdFabKeySet r params s)

/-- FAB_RANK_SET as a command row. -/
def execFabRankSet (r : Req) (params : List Byte) (s : State) : Host.Outcome State Fault Refusal :=
  .next (runCommand 0x63 cmdFabRankSet r params s)

/-- ROLE_SWAP as a command row. -/
def execRoleSwap (r : Req) (params : List Byte) (s : State) : Host.Outcome State Fault Refusal :=
  .next (runCommand 0x64 cmdRoleSwap r params s)

/-- FAB_ROUTES as a command row. -/
def execFabRoutes (r : Req) (params : List Byte) (s : State) : Host.Outcome State Fault Refusal :=
  .next (runCommand 0x65 cmdFabRoutes r params s)

/-- FAB_PERIOD_SRC as a command row. -/
def execFabPeriodSrc (r : Req) (params : List Byte) (s : State) : Host.Outcome State Fault Refusal :=
  .next (runCommand 0x66 cmdFabPeriodSrc r params s)

/-- FAB_PERIOD_SET as a command row. -/
def execFabPeriodSet (r : Req) (params : List Byte) (s : State) : Host.Outcome State Fault Refusal :=
  .next (runCommand 0x67 cmdFabPeriodSet r params s)

end Sys2Proof.Machine
end

