-- ==== Sys2Proof/Machine/CmdArray.lean ====
section
/-! DEFINITION. Commands of the array family: ARR_OPEN, ARR_WRITE, ARR_COMMIT, ARR_ABORT, ARR_READ, ARR_INFO, FW_ACTIVATE
(R450 to R457, R560 to R564). -/

namespace Sys2Proof.Machine

/-- The size of a region in bytes (R450). -/
def regionSize (r : Nat) : Nat :=
  if r = 0 ∨ r = 1 then 786432 else if r = 2 ∨ r = 4 then 65536 else if r = 3 then 131072 else 262144

/-- The lease of R373: 2 s. -/
def leaseTicks : Nat := 2 * ticksPerSec

/-- The open update under a handle. -/
def State.update? (s : State) (h : W16) : Option Update := s.arr.updates.find? (fun u => u.handle == h)

/-- A region update's lease has run out: it is abandoned, and its handle is remembered until its next command (R373,
R374). -/
def ArrayS.loseUpdate (h : W16) (a : ArrayS) : ArrayS :=
  { a with updates := a.updates.filter (fun u => u.handle ≠ h), lostHandles := a.lostHandles ++ [h] }

/-- The lease of a handle has expired before this command was served: the update goes first (R374). -/
def State.leaseSettled (h : W16) (s : State) : State :=
  match s.update? h with
  | some u => if u.expiry.le s.clock.tb then { s with arr := s.arr.loseUpdate h } else s
  | none => s

/-- The command is the first under a handle whose lease has expired (R374). -/
def State.handleLost (s : State) (h : W16) : Bool := s.arr.lostHandles.contains h

/-- The handle is told of its lost lease and forgotten. -/
def State.forgetHandle (h : W16) (s : State) : State :=
  { s with arr := { s.arr with lostHandles := s.arr.lostHandles.filter (· ≠ h) } }

/-- The lease of a handle renewed (R373, R452). -/
def State.renewLease (h : W16) (s : State) : State :=
  { s with arr := { s.arr with updates := s.arr.updates.map (fun u =>
      if u.handle = h then { u with expiry := s.clock.tb.plus leaseTicks } else u) } }

/-- A command that the owner sends under the handle of an open update renews its lease as it is served, whatever it is then answered.
DESIGN CHOICE: R373 says so of each served command, while R452 speaks of each accepted write and R15 lets a refused command have no effect
but its reply (notes/assumptions/52.md). -/
def State.renewed (p : PolId) (h : W16) (s : State) : State := if p = owner then (s.leaseSettled h).renewLease h else s

/-- A command of an update: its lease is settled and renewed before the checks (R373, R374; notes/assumptions/52.md). -/
def renewing (f : QEntry → State → CmdOut) (e : QEntry) (s : State) : CmdOut := f e (s.renewed e.req.pol e.req.handle)

/-- A command of an update: LEASE_EXPIRED once under a lost handle, BAD_PARAM without an open update, else its own
meaning (R373, R374, R452). -/
def underHandle (e : QEntry) (s : State) (f : Update → State → CmdOut) : CmdOut :=
  let h := e.req.handle
  if s.handleLost h then refuse .leaseExpired (s.forgetHandle h)
  else
    match s.update? h with
    | none => refuse .badParam s
    | some u => f u s

/-- A pending selection of a firmware image is cancelled: the running image is selected (R451). -/
def State.cancelSelection (region : Nat) (s : State) : State :=
  if region = s.bootWanted.1.val ∧ region ≠ s.arr.running.val then
    s.requestItem owner (.boot s.arr.running s.bootWanted.2)
  else s

/-- The first page program of a list that belongs to a polder. -/
def firstJob (p : PolId) (l : List (PolId × PageJob)) : Option PageJob := (l.find? (fun j => j.1 = p)).map (·.2)

/-- The bank of an item's region (R544, R551). -/
def itemBank (item : Nat) : Fin 2 :=
  if (0x20 ≤ item ∧ item < 0x40) ∨ item = 0x51 then 1 else 0

/-- The bank a page program writes (R544). -/
def State.jobBank (s : State) (p : PolId) (j : PageJob) : Fin 2 :=
  let ofHandle : W16 → Fin 2 := fun h => match s.arr.updates.find? (fun u => u.handle = h) with
    | some u => if u.region.val = 0 then 0 else 1
    | none => 0
  match j with
  | .item => match s.arr.writes.find? (fun w => w.started && w.pol = p) with
    | some w => itemBank w.value.item
    | none => 0
  | .arrOpen h => ofHandle h
  | .arrWrite h _ _ => ofHandle h
  | .arrCommit h _ => ofHandle h
  | .log => 0

/-- The pulses still to be applied to a bank in the slice in progress: 4 in all to the executing bank, that of the running image, 17 to
the other (R548). -/
def ArrayS.pulsesLeft (a : ArrayS) (b : Fin 2) : Nat := if b = a.running then 4 - a.used.1 else 17 - a.used.2

/-- The pulses counted in the slice in progress once n more have been applied to a bank (R548). -/
def ArrayS.usePulses (b : Fin 2) (n : Nat) (a : ArrayS) : ArrayS :=
  { a with used := if b = a.running then (a.used.1 + n, a.used.2) else (a.used.1, a.used.2 + n) }

/-- The slice in progress ends: a page program of its polder that is not complete may have taken every pulse the slice had left, and
goes on in the polder's next slice (R547 to R549). -/
def State.closeSlice (s : State) : State :=
  let a := match s.curSlice with
    | some p => match firstJob p s.arr.jobs with
      | some j => { s.arr with applied := s.arr.applied.set p (s.arr.applied[p] + s.arr.pulsesLeft (s.jobBank p j)) }
      | none => s.arr
    | none => s.arr
  { s with arr := { a with used := (0, 0) } }

/-- ARR_OPEN (R451, R562). -/
def ownArrOpen (e : QEntry) (s : State) : CmdOut :=
  let h := e.req.handle
  let r := (byteAt e.params 0).toNat
  let s := (s.leaseSettled h).forgetHandle h
  if h = 0 ∨ 6 < r ∨ (s.update? h).isSome = true then refuse .badParam s
  else if r ≠ 0 ∧ r ≠ 1 ∧ r ≠ 6 then refuse .notPermitted s
  else if r = s.arr.running.val then refuse .activeImage s
  else if s.arr.updates.any (fun u => u.region.val == r) then refuse .regionBusy s
  else
    let expiry := s.clock.tb.plus leaseTicks
    writeThen .pageProgram
      { status := .ok, effectFrame := none, results := leBytes 1 r ++ leBytes 3 0 ++ leBytes 4 (regionSize r) ++ expiry.bytes } s
      (fun s =>
        let u : Update := { handle := h, region := Fin.ofNat 7 r, grant := s.clock.tb, expiry := expiry, data := [] }
        (({ s with arr := { s.arr with updates := s.arr.updates ++ [u] } }).cancelSelection r).addJob owner (.arrOpen h))

def cmdArrOpen : QEntry → State → CmdOut :=
  checked { issuer := .owner, states := cf, plenOk := (· == 1), reserved := fun _ => [] } ownArrOpen

/-- ARR_WRITE (R452, R563). -/
def ownArrWrite (e : QEntry) (s : State) : CmdOut :=
  underHandle e s (fun u s =>
    let off := field e.params 0 4
    let data := e.params.drop 4
    if off % 8 ≠ 0 ∨ data.length % 8 ≠ 0 ∨ 256 < off % 256 + data.length ∨ regionSize u.region.val < off + data.length then
      refuse .badParam s
    else
      writeThen .pageProgram { status := .ok, effectFrame := none, results := (s.clock.tb.plus leaseTicks).bytes } s
        (fun s => s.addJob owner (.arrWrite u.handle off data)))

def cmdArrWrite : QEntry → State → CmdOut :=
  renewing (checked { issuer := .owner, states := cf, plenOk := fun n => decide (12 ≤ n) && decide (n ≤ 68), reserved := fun _ => [] } ownArrWrite)

/-- The pages below LENGTH that an update has not written (R564 step 1). -/
def Update.fillPages (u : Update) (len : Nat) : Nat :=
  ((List.range ((len + 255) / 256)).filter (fun pg => !u.data.any (fun c => c.1 / 256 == pg))).length

/-- The content an update commits has the digest asked for (R453, R564 step 2). -/
def Update.digestOk (u : Update) (params : List Byte) : Bool :=
  sha256 (u.content (field params 0 4)) == (params.drop 4).take 32

/-- SIG of an update's content at a length (R453, R566). -/
def Update.sig (u : Update) (len : Nat) : Nat := if u.region.val = 6 then 0 else imageSig (u.content len)

/-- The reply of a commit (R453). -/
def Update.commitAnswer (u : Update) (len : Nat) : Answer :=
  { status := .ok, effectFrame := none, results := leBytes 1 u.region.val ++ leBytes 1 (u.sig len) ++ leBytes 2 0 ++ leBytes 4 len }

/-- ARR_COMMIT: the fill pages, then the digest, then the marker (R453, R564). -/
def ownArrCommit (e : QEntry) (s : State) : CmdOut :=
  underHandle e s (fun u s =>
    let len := field e.params 0 4
    let fill := u.fillPages len
    if regionSize u.region.val < len ∨ (fill = 0 ∧ u.digestOk e.params = false) then refuse .badParam s
    else
      writeThen .regionCommit (u.commitAnswer len) s (fun s => s.addJob owner (.arrCommit u.handle (fill + 1))))

def cmdArrCommit : QEntry → State → CmdOut :=
  renewing (checked { issuer := .owner, states := cf, plenOk := (· == 36), reserved := fun _ => [] } ownArrCommit)

/-- ARR_ABORT (R454). -/
def ownArrAbort (e : QEntry) (s : State) : CmdOut :=
  underHandle e s (fun u s =>
    doneOk [] { s with arr := { s.arr with updates := s.arr.updates.filter (fun x => x.handle ≠ u.handle) } })

def cmdArrAbort : QEntry → State → CmdOut :=
  renewing (checked { issuer := .owner, states := cf, plenOk := (· == 0), reserved := fun _ => [] } ownArrAbort)

/-- ARR_READ (R455). -/
def ownArrRead (e : QEntry) (s : State) : CmdOut :=
  let r := (byteAt e.params 0).toNat
  let off := field e.params 1 4
  let len := (byteAt e.params 5).toNat
  if r ≠ 5 ∧ r ≠ 6 then refuse .notPermitted s
  else if off % 8 ≠ 0 ∨ len % 8 ≠ 0 ∨ len < 8 ∨ 96 < len ∨ regionSize r < off + len then refuse .badParam s
  else doneOk (cellsReadList (if r = 5 then s.arr.logCells else s.arr.user.content) off len) s

def cmdArrRead : QEntry → State → CmdOut :=
  checked { issuer := .owner, states := cf, plenOk := (· == 6), reserved := fun _ => [] } ownArrRead

/-- The map of regions with an open update (R456). -/
def ArrayS.openMap (a : ArrayS) : Nat :=
  b2n (a.updates.any (fun u => u.region == 0)) + 2 * b2n (a.updates.any (fun u => u.region == 1)) +
  64 * b2n (a.updates.any (fun u => u.region == 6))

/-- ARR_INFO (R456). -/
def ownArrInfo (_ : QEntry) (s : State) : CmdOut :=
  doneOk (leBytes 1 s.arr.running.val ++ leBytes 1 s.bootWanted.1.val ++ leBytes 1 s.arr.openMap ++ leBytes 1 (b2n s.holdup.low) ++
    leBytes 4 s.arr.fw0.version.toNat ++ leBytes 4 s.arr.fw1.version.toNat ++ leBytes 1 s.arr.fw0.sig ++ leBytes 1 s.arr.fw1.sig) s

def cmdArrInfo : QEntry → State → CmdOut :=
  checked { issuer := .owner, states := cf, plenOk := (· == 0), reserved := fun _ => [] } ownArrInfo

/-- FW_ACTIVATE (R457). -/
def ownFwActivate (e : QEntry) (s : State) : CmdOut :=
  let i := (byteAt e.params 0).toNat
  if 1 < i then refuse .badParam s
  else if s.arr.updates.any (fun u => u.region.val == i) then refuse .regionBusy s
  else if (s.arr.region i).sig ≠ 1 then
    .done { status := .badParam, effectFrame := none, results := leBytes 1 0 ++ leBytes 1 (s.arr.region i).sig } s
  else
    commitThen 0x12 { status := .ok, effectFrame := none, results := leBytes 1 i } s
      (fun s => s.requestItem owner (.boot (Fin.ofNat 2 i) s.bootWanted.2))

def cmdFwActivate : QEntry → State → CmdOut :=
  checked { issuer := .owner, states := cf, plenOk := (· == 1), reserved := fun _ => [] } ownFwActivate

/-- ARR_OPEN as a command row. -/
def execArrOpen (r : Req) (params : List Byte) (s : State) : Host.Outcome State Fault Refusal :=
  .next (runCommand 0x70 cmdArrOpen r params s)

/-- ARR_WRITE as a command row. -/
def execArrWrite (r : Req) (params : List Byte) (s : State) : Host.Outcome State Fault Refusal :=
  .next (runCommand 0x71 cmdArrWrite r params s)

/-- ARR_COMMIT as a command row. -/
def execArrCommit (r : Req) (params : List Byte) (s : State) : Host.Outcome State Fault Refusal :=
  .next (runCommand 0x72 cmdArrCommit r params s)

/-- ARR_ABORT as a command row. -/
def execArrAbort (r : Req) (params : List Byte) (s : State) : Host.Outcome State Fault Refusal :=
  .next (runCommand 0x73 cmdArrAbort r params s)

/-- ARR_READ as a command row. -/
def execArrRead (r : Req) (params : List Byte) (s : State) : Host.Outcome State Fault Refusal :=
  .next (runCommand 0x74 cmdArrRead r params s)

/-- ARR_INFO as a command row. -/
def execArrInfo (r : Req) (params : List Byte) (s : State) : Host.Outcome State Fault Refusal :=
  .next (runCommand 0x75 cmdArrInfo r params s)

/-- FW_ACTIVATE as a command row. -/
def execFwActivate (r : Req) (params : List Byte) (s : State) : Host.Outcome State Fault Refusal :=
  .next (runCommand 0x76 cmdFwActivate r params s)

end Sys2Proof.Machine
end

