-- ==== Sys2Proof/Machine/CmdStats.lean ====
section
/-! DEFINITION. Commands of the statistics family: STAT_SELECT, STAT_GET, OCC_GET, MOTION_REBASE (R403 to R408). -/

namespace Sys2Proof.Machine

/-- A refused part: the open assembly goes with it (R403, R431). -/
def refusePart (p : PolId) (st : Status) (s : State) : CmdOut :=
  refuse st (s.modPol p (fun q => { q with assembly := none }))

/-- The parts of the open assembly; an expired one has none (R356). -/
def Polder.openParts (q : Polder) : List (List Byte) :=
  match q.assembly with
  | some a => if a.expired then [] else a.parts
  | .none => []

/-- The open assembly with one part more (R356). -/
def openPart (e : QEntry) (q : Polder) : Assembly :=
  { handle := e.req.handle, opcode := e.opcode, parts := q.openParts ++ [e.params], expired := false }

/-- An accepted part that is not the last: it is kept, with zero results (R356, R405, R431). -/
def keepPart (e : QEntry) (s : State) : CmdOut :=
  doneOk [] (s.modPol e.req.pol (fun q => { q with assembly := some (openPart e q) }))

/-- The parts of the open assembly. -/
def State.parts (s : State) (p : PolId) : List (List Byte) := (s.pol p).openParts

/-- The zone map of an area part (R403). -/
def areaPartMap (ps : List Byte) : BitVec 300 := BitVec.ofNat 300 (field ps 2 38)

/-- The checks of one STAT_SELECT part against the parts before it (R403, R404). -/
def statPartOk (parts : List (List Byte)) (mask : BitVec 300) (e : QEntry) : Bool :=
  let areas := (byteAt (parts.headD e.params) 3).toNat
  decide ((byteAt e.params 0).toNat = parts.length) && decide (e.plen = (if parts.length = 0 then 20 else 40)) &&
  (if parts.length = 0 then headOk e.params else areaMapOk mask (areaPartMap e.params)) &&
  (e.req.more == decide (parts.length < areas)) && (!e.req.more || e.req.handle != 0)

/-- STAT_SELECT: one part of the assembly, the last of which commits the selection (R403 to R405). -/
def ownStatSelect (e : QEntry) (s : State) : CmdOut :=
  let p := e.req.pol
  let parts := s.parts p
  let c := (s.pol p).nextCharter
  if s.tenantExists then refusePart p .notPermitted s
  else if !statPartOk parts c.zoneMask e then refusePart p .badParam s
  else if e.req.more then keepPart e s
  else
    let all := parts ++ [e.params]
    let sel := selectionOf (all.headD []) ((all.drop 1).map areaPartMap)
    let n := zoneCount c.zoneMask
    let s := s.modPol p (fun q => { q with assembly := none })
    commitThen 0x30 { status := .ok, effectFrame := some (nextFrameOf c.slots s.nextRevolution),
                      results := leBytes 2 n ++ leBytes 2 (sel.statsLen n) } s
      (fun s =>
        let s := s.modPol p (fun q => { q with charterNext := some { c with selection := sel } })
        s.requestItem owner (.stored owner (some (s.storedNow owner))))

def cmdStatSelect : QEntry → State → CmdOut :=
  checked { issuer := .owner, states := cf, plenOk := fun n => n == 20 || n == 40,
            reserved := fun n => if n = 40 then [(15, 8), (319, 316)] else [(15, 14)] } ownStatSelect

/-- A part in the area-part layout (R403, R406). -/
def mapPart (part : Nat) (m : BitVec 300) : List Byte := leBytes 1 part ++ leBytes 1 0 ++ zoneBytes m

/-- STAT_GET (R406). -/
def ownStatGet (e : QEntry) (s : State) : CmdOut :=
  let part := (byteAt e.params 0).toNat
  let c := (s.pol e.req.pol).charter
  let n := zoneCount c.zoneMask
  if part = 0 then doneOk (c.selection.head ++ leBytes 2 n ++ leBytes 2 (c.selection.statsLen n)) s
  else if part = 1 then doneOk (mapPart 1 c.zoneMask) s
  else
    match c.selection.areas[part - 2]? with
    | some a => doneOk (mapPart part a.zones) s
    | none => refuse .badParam s

def cmdStatGet : QEntry → State → CmdOut :=
  checked { issuer := .all, states := cf, plenOk := (· == 1), reserved := fun _ => [] } ownStatGet

/-- The four bytes of an area in the OCC section: state, count, hold remaining in whole seconds, rounded up (R300). -/
def occEntry (a : Option Area) (m : OccMachine) : List Byte :=
  match a with
  | none => leBytes 4 0
  | some a =>
    leBytes 1 m.state ++ leBytes 1 m.count ++
    leBytes 2 (if m.state = 3 then (a.holdSeconds * ticksPerSec - m.hold + ticksPerSec - 1) / ticksPerSec else 0)

/-- The OCC section of a polder (R300). -/
def occSection (sel : Selection) (occ : Vector OccMachine 4) : List Byte :=
  occEntry sel.areas[0]? occ[0] ++ occEntry sel.areas[1]? occ[1] ++ occEntry sel.areas[2]? occ[2] ++ occEntry sel.areas[3]? occ[3]

/-- OCC_GET (R407). -/
def ownOccGet (e : QEntry) (s : State) : CmdOut :=
  let q := s.pol e.req.pol
  let f := match q.lastEval with
    | some x => x.1.toNat
    | none => 0
  doneOk (leBytes 4 f ++ occSection q.charter.selection q.occ) s

def cmdOccGet : QEntry → State → CmdOut :=
  checked { issuer := .all, states := cf, plenOk := (· == 0), reserved := fun _ => [] } ownOccGet

/-- MOTION_REBASE: the next STATS frame whose slot starts after now is a MOTION_INIT frame (R408). -/
def ownMotionRebase (e : QEntry) (s : State) : CmdOut :=
  doneAt (s.nextSlotOf e.req.pol) [] (s.modPol e.req.pol (fun q => { q with initFrom := q.initFrom ++ [s.wheel.nextFrame] }))

def cmdMotionRebase : QEntry → State → CmdOut :=
  checked { issuer := .all, states := cf, plenOk := (· == 0), reserved := fun _ => [] } ownMotionRebase

/-- STAT_SELECT as a command row. -/
def execStatSelect (r : Req) (params : List Byte) (s : State) : Host.Outcome State Fault Refusal :=
  .next (runCommand 0x40 cmdStatSelect r params s)

/-- STAT_GET as a command row. -/
def execStatGet (r : Req) (params : List Byte) (s : State) : Host.Outcome State Fault Refusal :=
  .next (runCommand 0x41 cmdStatGet r params s)

/-- OCC_GET as a command row. -/
def execOccGet (r : Req) (params : List Byte) (s : State) : Host.Outcome State Fault Refusal :=
  .next (runCommand 0x42 cmdOccGet r params s)

/-- MOTION_REBASE as a command row. -/
def execMotionRebase (r : Req) (params : List Byte) (s : State) : Host.Outcome State Fault Refusal :=
  .next (runCommand 0x43 cmdMotionRebase r params s)

end Sys2Proof.Machine
end

