-- ==== Sys2Proof/Machine/CmdPolder.lean ====
section
/-! DEFINITION. Commands of the polder family and the key agreement: POLD_CREATE, POLD_OFFER, POLD_ANSWER,
POLD_DISSOLVE, POLD_STATUS, POLD_CHARTER (R323 to R331, R335, R430 to R439). -/

namespace Sys2Proof.Machine

/-- The host port after its binding has left a polder: the FIFOs empty, the window and the selection reset, packets waiting for the host
discarded, and a host delivery path of the old holder unset (R645). -/
def State.clearBinding (old : PolId) (s : State) : State :=
  ({ s with host := HostPort.initial }).modPol old (fun q =>
    { q with replyQ := q.replyQ.filter (fun r => r.path != Path.host), dlv := q.dlv.filter (fun r => r.path != some Path.host),
             path := if q.path = some Path.host then Option.none else q.path })

/-- The host binding may have changed hands since `old` held it: a transfer in progress is completed first (R645). -/
def State.rebindFrom (old : PolId) (s : State) : State :=
  if s.hostPol = old then s
  else if s.host.xfer.isSome then { s with host := { s.host with leaving := some (s.host.leaving.getD old) } }
  else s.clearBinding old

/-- The CHARTER item of a polder is to be erased, or written as the polder stands (R332, R551). -/
def State.storePolder (p : PolId) (s : State) : State :=
  s.requestItem p (.stored p (if s.lives p || (s.pol p).state == .chartered then some (s.storedNow p) else none))

/-- The SEQ item of a polder is to be erased, or written as the polder stands (R332, R365, R551). -/
def State.storeSeqs (p : PolId) (s : State) : State :=
  s.requestItem p (.seqs p (if s.lives p then some (s.seqsWanted p) else none))

/-- The creation counter with waiting values counted (R311). -/
def State.creationNow (s : State) : W32 :=
  match s.requested? 0x20 with
  | some (.node c) => c
  | _ => s.arr.creation

/-- The results of a POLD_CREATE commit (R432). -/
def createResults (p : Nat) (c : Charter) : List Byte :=
  leBytes 1 p ++ leBytes 3 0 ++ leBytes 4 c.creationNo.toNat ++ charterDigest p c

/-- A named resource of BIND is bound to a tenant (R311). -/
def State.bindTaken (s : State) (b : BitVec 4) : Bool :=
  (List.finRange 8).any (fun p => p != owner && (s.pol p).state != .absent && ((s.pol p).charter.bind &&& b) != 0)

/-- The checks of R323 after the lifecycle, in order. -/
def State.createRefusal (s : State) (bs : List Byte) : Option Status :=
  let n := (byteAt bs 0).toNat
  let c := Charter.decode bs
  if s.ka.isSome then some .busy
  else if 7 < n ∨ charterFieldsOk bs = false ∨ c.readQuota < 5603328 ∨ s.wheel.period < c.readQuota then some .badParam
  else if (s.pol (Fin.ofNat 8 n)).state ≠ .absent ∨ (c.slots &&& s.takenSlots) ≠ 0 ∨ s.bindTaken c.bind = true then some .noResource
  else if !s.periods.all (fun t => (Expo.defaults t).fits t) then some .noResource
  else none

/-- What a polder number keeps from an earlier holder: packets and entries that still get their POLDER_GONE, replies and records still
to be sent, under the keys they were sealed with (R330 to R333, R379; notes/assumptions/40.md). -/
def Polder.emptied (q : Polder) : Polder :=
  { Polder.none with intake := q.intake, queue := q.queue, serving := q.serving, replyQ := q.replyQ, dlv := q.dlv, path := q.path, sR := q.sR }

/-- A key agreement begins: no OFFER yet (R324, R433). -/
def newAgreement (p : PolId) (c : Charter) : KeyAgreement :=
  { pol := p, charter := c, offered := false, dE := 0, qE := [], signature := [] }

/-- A tenant's charter is committed: the polder becomes CHARTERED and a key agreement starts (R324). -/
def commitTenant (p : PolId) (c : Charter) (s : State) : CmdOut :=
  let c := { c with creationNo := s.creationNow + 1 }
  commitThen (0x30 + p.val) { status := .accepted, effectFrame := none, results := createResults p.val c } s (fun s =>
    let old := s.hostPol
    let s := s.requestItem owner (.node c.creationNo)
    let s := s.modPol p (fun q => { q.emptied with state := .chartered, charter := c })
    (({ s with ka := some (newAgreement p c) } : State).storePolder p).rebindFrom old)

/-- The owner's charter replaced in its second form: with an unchanged ID_HASH it applies at the next revolution
boundary, with a new one an owner key agreement starts (R433, R610). -/
def commitOwner (c : Charter) (s : State) : CmdOut :=
  let c := { c with creationNo := s.creationNow + 1 }
  if s.ownerActive && c.idHash == (s.pol owner).nextCharter.idHash then
    commitThen 0x30 { status := .ok, effectFrame := none, results := createResults 0 c } s (fun s =>
      let s := s.requestItem owner (.node c.creationNo)
      (s.modPol owner (fun q => { q with charterNext := some c })).storePolder owner)
  else
    commitThen 0x20 { status := .accepted, effectFrame := none, results := createResults 0 c } s (fun s =>
      ({ s with ka := some (newAgreement owner c) } : State).requestItem owner (.node c.creationNo))

/-- The commit of an assembled charter (R432, R433). -/
def commitCharter (p : PolId) (bs : List Byte) (s : State) : CmdOut :=
  let c := Charter.decode bs
  let n := (byteAt bs 0).toNat
  if bs.length ≠ 102 + 38 * (byteAt bs 85).toNat then refuse .badParam s
  else if n = 0 then
    if s.tenantExists then refuse .notPermitted s
    else if s.ka.isSome then refuse .busy s
    else if c.readQuota ≠ 0 ∨ c.bind ≠ 0 ∨ charterFieldsOk bs = false then refuse .badParam s
    else commitOwner c s
  else if s.claimant p then refuse .notPermitted s
  else if s.life.shadow ≠ .field then refuse .lifecycle s
  else
    match s.createRefusal bs with
    | some st => refuse st s
    | none => commitTenant (Fin.ofNat 8 n) c s

/-- The checks of one POLD_CREATE part against the parts before it (R431). -/
def createPartOk (parts : List (List Byte)) (e : QEntry) : Bool :=
  let len := field e.params 2 2
  let part := (byteAt e.params 0).toNat
  e.req.handle != 0 && decide (part = parts.length) && decide (part ≤ 2) && decide (len ≤ 254) &&
  decide (field (parts.headD e.params) 2 2 = len) && decide (104 * part < len) &&
  decide (e.plen = 4 + min 104 (len - 104 * part)) && (e.req.more == decide (104 * (part + 1) < len))

/-- POLD_CREATE: one part of the assembly, the last of which is the commit (R431). -/
def ownPoldCreate (e : QEntry) (s : State) : CmdOut :=
  let p := e.req.pol
  let parts := s.parts p
  if !createPartOk parts e then refusePart p .badParam s
  else if e.req.more then keepPart e s
  else
    commitCharter p (((parts ++ [e.params]).map (fun x => x.drop 4)).flatten) (s.modPol p (fun q => { q with assembly := none }))

def cmdPoldCreate : QEntry → State → CmdOut :=
  checked { issuer := .owner, states := cf, plenOk := fun n => decide (5 ≤ n) && decide (n ≤ 108), reserved := fun _ => [(15, 8)] }
    ownPoldCreate

/-- The first 108 bytes of an OFFER, those it signs (R434). -/
def offerSigned (uid : BitVec 64) (k : KeyAgreement) : List Byte :=
  k.qE ++ charterDigest k.pol.val k.charter ++ leBytes 4 k.charter.creationNo.toNat ++ leBytes 8 uid.toNat

/-- The 172 bytes of an OFFER (R434). -/
def offerBytes (uid : BitVec 64) (k : KeyAgreement) : List Byte := offerSigned uid k ++ k.signature

/-- POLD_OFFER (R434, R435). -/
def ownPoldOffer (e : QEntry) (s : State) : CmdOut :=
  let n := (byteAt e.params 0).toNat
  let part := (byteAt e.params 1).toNat
  if s.claimant e.req.pol && n != 0 then refuse .notPermitted s
  else
    match s.ka with
    | none => refuse .badParam s
    | some k =>
      if 1 < part ∨ n ≠ k.pol.val then refuse .badParam s
      else if !k.offered then refuse .notReady s
      else
        let offer := offerBytes s.life.uid k
        let content := if part = 0 then offer.take 100 else offer.drop 100
        doneOk (leBytes 1 part ++ leBytes 1 content.length ++ leBytes 2 0 ++ content) s

def cmdPoldOffer : QEntry → State → CmdOut :=
  checked { issuer := .owner, states := cf, plenOk := (· == 2), reserved := fun _ => [] } ownPoldOffer

/-- A key agreement ends without a key: a tenant's charter is discarded with its slots and number, and the owner
receives EV_POLD_EXPIRED (R327, R433). -/
def State.abandonAgreement (cause : Nat) (s : State) : State :=
  match s.ka with
  | none => s
  | some k =>
    let old := s.hostPol
    let s := { s with ka := none }
    let s := if k.pol = owner then s.modPol owner (fun q => { q with answerHold := none })
             else ((s.modPol k.pol Polder.emptied).storePolder k.pol).storeSeqs k.pol
    (s.rebindFrom old).ownerEvent 0x0041 (leBytes 1 k.pol.val ++ leBytes 1 cause ++ leBytes 2 0)

/-- The CONFIRM, sealed under the new key with NUMBER 0xFFFFFFFFFFFF (R341, R437). -/
def confirmReply (k : KeyAgreement) (key : BitVec 128) (r : Req) (first : W32) : Reply :=
  { pol := k.pol, esn := 0, opcode := 0x52, handle := r.handle, status := .ok, origStatus := .ok, effectFrame := first,
    results := leBytes 1 k.pol.val ++ leBytes 3 0 ++ leBytes 4 k.charter.creationNo.toNat ++ leBytes 4 first.toNat ++
      charterDigest k.pol.val k.charter,
    dup := false, untagged := false, next := 0, path := r.path, key := key, number := 0xFFFFFFFFFFFF }

/-- The polder after its key agreement: a tenant is new, with the defaults of R187; the owner keeps its settings, and a
new charter applies at the next revolution boundary (R328, R433). -/
def agreedPolder (k : KeyAgreement) (key : BitVec 128) (r : Req) (period : Nat) (q : Polder) : Polder :=
  if q.state = .active then
    { q with key := key, charterNext := some k.charter, nextAdmit := 0, cR := 65536, journal := [], path := some r.path,
             answerHold := Option.none }
  else
    { q.emptied with state := .active, key := key, charter := k.charter, path := some r.path, expo := Expo.defaults period, sR := 65536 }

/-- The DALI binding changes hands: every DALI setting returns to its reset value at once, a write of the new holder (R464, R656). -/
def State.resetDali (p : PolId) (s : State) : State :=
  ({ s with dali := { Dali.initial with busDown := s.dali.busDown } }).requestItem p (.dali DaliItem.initial)

/-- A polder's key from the shared point's x-coordinate (R321); the unique ID is little-endian in the info string (R9). -/
def polderKey (k : KeyAgreement) (qT : JPoint) (uid : BitVec 64) : BitVec 128 :=
  BitVec.ofNat 128 (leNat (hkdf16 (ecdhX k.dE qT) (charterDigest k.pol.val k.charter) (leBytes 8 uid.toNat ++ leBytes 1 k.pol.val)))

/-- The point of an ANSWER that passes its check: the identity public key hashes to ID_HASH, its signature over Q_T and the OFFER
verifies, and Q_T is a point of P-256 (R325 step 5, R436). -/
def answerPoint (uid : BitVec 64) (k : KeyAgreement) (qT ident sig : List Byte) : Option JPoint :=
  match pointOf ident with
  | some key =>
    if sha256Word (4 :: ident) == k.charter.idHash && ecdsaOk key (qT ++ offerBytes uid k) sig then pointOf qT else none
  | none => none

/-- A key agreement completes (R325 steps 6 and 7, R328, R336, R433, R437, R610). -/
def State.completeAgreement (k : KeyAgreement) (qT : JPoint) (part2 : List Byte) (r : Req) (s : State) : State :=
  let p := k.pol
  let key := polderKey k qT s.life.uid
  let first := BitVec.ofNat 32 (s.nextRevolution.toNat + lowestSlot k.charter.slots)
  let c := confirmReply k key r first
  let s := { s with ka := none }
  let s := s.modPol p (fun q => { agreedPolder k key r (s.periods.foldl min s.wheel.period) q with kept := some { part2 := part2, confirm := c } })
  let s := ((s.queueReply p c).storePolder p).storeSeqs p
  let s := if p ≠ owner ∧ k.charter.bind.toNat.testBit 2 = true then s.resetDali p else s
  if p = owner then s.flushEarly else s.ownerEvent 0x0040 (leBytes 1 p.val ++ leBytes 3 0 ++ leBytes 4 first.toNat)

/-- The parts held are dropped (R436). -/
def State.dropParts (p : PolId) (s : State) : State := s.modPol p (fun q => { q with answerHold := none })

/-- Part 2 of an ANSWER with parts 0 and 1 held: checked under R325 step 5, or compared with the kept one (R326, R351). -/
def State.answerFinal (qT ident : List Byte) (e : QEntry) (s : State) : State :=
  let p := e.req.pol
  let fail := (s.dropParts p).untagged p 0 .authFail 0 e.req.path
  match (s.pol p).kept with
  | some v =>
    if v.part2 = e.raw then
      ((s.dropParts p).queueReply p { v.confirm with dup := true, path := e.req.path }).modPol p
        (fun q => { q with cnt := { q.cnt with dupServed := sat16 q.cnt.dupServed } })
    else fail
  | none =>
    match s.ka with
    | some k =>
      if k.pol = p && k.offered then
        match answerPoint s.life.uid k qT ident ((e.params.drop 2).take 64) with
        | some q => s.completeAgreement k q e.raw e.req
        | none => fail
      else fail
    | none => fail

/-- An ANSWER part is served (R325, R351, R436): parts 0 and 1 are held in order, part 2 is judged, and a part out of
order is dropped with the parts held. -/
def State.serveAnswer (e : QEntry) (s : State) : State :=
  let p := e.req.pol
  let part := (byteAt e.params 0).toNat
  let body := (e.params.drop 2).take 64
  let okForm := decide (e.plen = 66) && decide (66 ≤ e.params.length) && (byteAt e.params 1) == 0 && e.req.handle != 0
  match (s.pol p).answerHold with
  | none =>
    if okForm && part == 0 && e.req.more then
      s.modPol p (fun q => { q with answerHold := some { handle := e.req.handle, qT := body, identity := none } })
    else s
  | some h =>
    match h.identity with
    | none =>
      if okForm && part == 1 && e.req.more && h.handle == e.req.handle then
        s.modPol p (fun q => { q with answerHold := some { h with identity := some body } })
      else s.dropParts p
    | some ident =>
      if okForm && part == 2 && !e.req.more && h.handle == e.req.handle then s.answerFinal h.qT ident e else s.dropParts p

/-- ANSWER parts are admitted for a polder whose key agreement is in progress, or has completed with no command
admitted since (R349 step 4, R351). -/
def State.takesAnswer (s : State) (p : PolId) : Bool :=
  (match s.ka with
   | some k => k.pol == p
   | none => false) || (s.pol p).kept.isSome

/-- The queue entry of an ANSWER part, with the packet as it came (R349 step 4, R351). -/
def answerEntry (r : Req) (params : List Byte) (plen : Nat) (raw : List Byte) : QEntry :=
  { kind := .answerPart, opcode := 0x52, req := r, params := params, plen := plen, esn := 0, key := 0, raw := raw }

/-- The untagged packet of an ANSWER part (R338, R339, R436). -/
def answerPacket (r : Req) (params : List Byte) : List Byte :=
  headerBytes 1 r.pol.val (2 + b2n r.more) 0 0x52 params.length r.handle.toNat ++ params

/-- A polder's last wheel slot before a revolution boundary (R331). -/
def State.lastSlotBefore (s : State) (p : PolId) (boundary : W32) : W32 :=
  let inRev := (List.range 16).filter (fun i => s.wheel.turning && (s.heldSlots p).toNat.testBit i)
  match inRev.getLast? with
  | some i => boundary - 16 + BitVec.ofNat 32 i
  | none => (s.wheel.lastSlotFrame[p]).getD 0

/-- A dissolution starts: the boundary is the next revolution's first frame, the queue is closed, and a command in service is ended
(R329, R330, R375). -/
def State.dissolve (p : PolId) (reason : Nat) (s : State) : State :=
  let g : Dissolution := { reason := reason, boundary := s.nextRevolution, goneCount := 0,
                           lastFrame := s.lastSlotBefore p s.nextRevolution, passed := false, issued := false, tb := Tb.zero }
  ((s.voidHeld p).modPol p (fun q => { q with state := .dissolving, gone := some g })).storePolder p

/-- POLD_DISSOLVE (R329, R438). -/
def ownPoldDissolve (e : QEntry) (s : State) : CmdOut :=
  let n := (byteAt e.params 0).toNat
  let p : PolId := Fin.ofNat 8 n
  if e.req.pol ≠ owner ∧ n ≠ e.req.pol.val then refuse .notPermitted s
  else if n = 0 ∨ 7 < n ∨ (s.pol p).state = .absent then refuse .badParam s
  else
    match (s.pol p).gone with
    | some g =>
      match s.writeRefusal with
      | some st => refuse st s
      | none => doneOk (leBytes 4 g.boundary.toNat) s
    | none =>
      if (s.pol p).state = .chartered then
        commitThen (0x30 + n) { status := .ok, effectFrame := none, results := leBytes 4 0 } s (fun s => s.abandonAgreement 2)
      else
        commitThen (0x30 + n) { status := .ok, effectFrame := none, results := leBytes 4 s.nextRevolution.toNat } s
          (fun s => s.dissolve p (if e.req.pol = owner then 1 else 2))

def cmdPoldDissolve : QEntry → State → CmdOut :=
  checked { issuer := .all, states := [.field], plenOk := (· == 1), reserved := fun _ => [] } ownPoldDissolve

/-- The status word of a polder, 16 bytes (R335). -/
def State.polderStatus (s : State) (p : PolId) : List Byte :=
  let q := s.pol p
  let c := q.charter
  if q.state = .absent then leBytes 16 0
  else leBytes 1 q.state.code ++ leBytes 1 c.bind.toNat ++ leBytes 2 c.slots.toNat ++ leBytes 4 (zoneCount c.zoneMask) ++
    leBytes 4 (if p = owner then s.wheel.period else c.readQuota) ++ leBytes 4 c.creationNo.toNat

/-- POLD_STATUS (R335, R439). -/
def ownPoldStatus (e : QEntry) (s : State) : CmdOut :=
  let n := (byteAt e.params 0).toNat
  if e.req.pol ≠ owner ∧ n ≠ e.req.pol.val then refuse .notPermitted s
  else if 7 < n then refuse .badParam s
  else doneOk (s.polderStatus (Fin.ofNat 8 n)) s

def cmdPoldStatus : QEntry → State → CmdOut :=
  checked { issuer := .all, states := cf, plenOk := (· == 1), reserved := fun _ => [] } ownPoldStatus

/-- POLD_CHARTER: the part layout of R431, of which a reply holds 100 charter bytes (R357, R439; notes/assumptions/14.md). -/
def ownPoldCharter (e : QEntry) (s : State) : CmdOut :=
  let n := (byteAt e.params 0).toNat
  let part := (byteAt e.params 1).toNat
  let q := s.pol (Fin.ofNat 8 n)
  if e.req.pol ≠ owner ∧ n ≠ e.req.pol.val then refuse .notPermitted s
  else if 7 < n ∨ q.state = .absent ∨ q.charter.len ≤ 104 * part then refuse .badParam s
  else doneOk (leBytes 2 q.charter.len ++ leBytes 2 0 ++ ((Charter.encode n q.charter).drop (104 * part)).take 100) s

def cmdPoldCharter : QEntry → State → CmdOut :=
  checked { issuer := .all, states := cf, plenOk := (· == 2), reserved := fun _ => [] } ownPoldCharter

/-- POLD_CREATE as a command row. -/
def execPoldCreate (r : Req) (params : List Byte) (s : State) : Host.Outcome State Fault Refusal :=
  .next (runCommand 0x50 cmdPoldCreate r params s)

/-- POLD_OFFER as a command row. -/
def execPoldOffer (r : Req) (params : List Byte) (s : State) : Host.Outcome State Fault Refusal :=
  .next (runCommand 0x51 cmdPoldOffer r params s)

/-- POLD_ANSWER as a row: an untagged part is admitted outside the ESN space and served in the polder's slice; where
no key agreement takes it, it fails as R349 says (R349 steps 2 to 5, R436). DESIGN CHOICE: a part that step 4 admits at a full queue is
answered BUSY and counted as step 9 says (notes/assumptions/68.md). -/
def execPoldAnswer (r : Req) (params : List Byte) (s : State) : Host.Outcome State Fault Refusal :=
  let e := answerEntry r params params.length (answerPacket r params)
  .next (
    if !s.power.seqRunning then s
    else if r.path = .host ∧ s.hostPol ≠ r.pol then s.bindMiss
    else if !s.power.accepting then
      match r.path with
      | .host => s.untagged r.pol 0 .notReady 0 r.path
      | .line d => s.countPort (s.portToward d) 3
    else if s.takesAnswer r.pol then
      if 8 ≤ (s.pol r.pol).queued then
        (s.modPol r.pol (fun q => { q with cnt := { q.cnt with queueFull := sat16 q.cnt.queueFull } })).untagged r.pol 0 .busy 0 r.path
      else if s.sliceFree r.pol then s.serveAnswer e
      else s.modPol r.pol (fun q => { q with queue := q.queue ++ [e] })
    else if s.polderGone r.pol then s.untagged r.pol 0 .polderGone 0 r.path
    else (s.modPol r.pol (fun q => { q with cnt := { q.cnt with authFail := sat16 q.cnt.authFail } })).untagged r.pol 0 .authFail 0 r.path)

/-- POLD_DISSOLVE as a command row. -/
def execPoldDissolve (r : Req) (params : List Byte) (s : State) : Host.Outcome State Fault Refusal :=
  .next (runCommand 0x53 cmdPoldDissolve r params s)

/-- POLD_STATUS as a command row. -/
def execPoldStatus (r : Req) (params : List Byte) (s : State) : Host.Outcome State Fault Refusal :=
  .next (runCommand 0x54 cmdPoldStatus r params s)

/-- POLD_CHARTER as a command row. -/
def execPoldCharter (r : Req) (params : List Byte) (s : State) : Host.Outcome State Fault Refusal :=
  .next (runCommand 0x55 cmdPoldCharter r params s)

end Sys2Proof.Machine
end

