-- ==== Sys2Proof/Machine/CmdLife.lean ====
section
/-! DEFINITION. Commands of the lifecycle and self-test family: LC_GET, LC_ADVANCE, BIST_RUN, BIST_READ (R458 to R461, R601 to
R603, R615 to R625). -/

namespace Sys2Proof.Machine

/-- LC_GET (R458). -/
def ownLcGet (_ : QEntry) (s : State) : CmdOut :=
  let target := match s.life.pending with
    | some x => x.target.code
    | none => 0xff
  doneOk (leBytes 1 s.life.shadow.code ++ leBytes 1 (b2n s.lands.straps.commissionLow) ++ leBytes 1 target) s

def cmdLcGet : QEntry → State → CmdOut :=
  checked { issuer := .all, states := mcfr, plenOk := (· == 0), reserved := fun _ => [] } ownLcGet

/-- The preconditions of a transition; `none` where it does not exist (R601). -/
def transition : Lc → Lc → Option (List Nat)
  | .manufacture, .commission => some [4, 5, 6, 7]
  | .manufacture, .scrapped => some [4]
  | .commission, .field => some [1, 2, 3, 4, 5]
  | .commission, .ret => some [4, 5]
  | .commission, .scrapped => some [4]
  | .field, .commission => some [4, 5]
  | .field, .ret => some [4, 5]
  | .field, .scrapped => some [4]
  | .ret, .scrapped => some [4]
  | _, _ => none

/-- The pixel port mode as last commanded (R463). -/
def State.pixModeNow (s : State) : Nat := s.lands.pixNext.getD s.lands.pixMode

/-- A precondition is unmet (R602). -/
def State.unmet (s : State) : Nat → Bool
  | 1 => !s.ownerActive
  | 2 => s.ka.isSome
  | 3 => s.pixModeNow != 0
  | 4 => s.bist.job.isSome
  | 5 => !s.arr.updates.isEmpty
  | 6 => !s.arr.mfg.valid || !s.arr.mfg.hasKeyPair || s.arr.mfg.certificate.isEmpty
  | 7 => s.arr.trimTab.isNone
  | _ => false

/-- RESULTS of an accepted LC_ADVANCE (R459). -/
def lcAnswer (now target : Lc) : Answer :=
  { status := .ok, effectFrame := none, results := leBytes 1 now.code ++ leBytes 1 target.code }

/-- A pending transition is recorded. -/
def State.expectLc (target : Lc) (s : State) : State := { s with life := { s.life with pending := some { target := target, waitCarried := false } } }

/-- COMMISSION to FIELD and back: the fuse where it is unblown, then the BOOT item whose commit is the effect (R601, R603). -/
def State.requestField (target : Lc) (s : State) : State :=
  let s := s.expectLc target
  ({ s with life := { s.life with fieldOnce := s.life.fieldOnce || decide (target = Lc.field) } }).requestItem owner
    (.boot s.bootWanted.1 (decide (target = Lc.field)))

/-- Every tenant of FIELD is dissolved with reason 3 and a CHARTERED polder discarded (R307, R327, R603). -/
def State.dissolveAll (s : State) : State :=
  let s := match s.ka with
    | some k => if k.pol = owner then s else s.abandonAgreement 2
    | none => s
  (List.finRange 8).foldl (fun s p =>
    if p ≠ owner ∧ (s.pol p).state = .active then s.dissolve p 3 else s) s

/-- A transition that ends with a reset: the reply first, the effect once it has been carried (R603). -/
def State.awaitReset (target : Lc) (esn : Nat) (s : State) : State :=
  { s with life := { s.life with pending := some { target := target, waitCarried := true } },
           carries := s.carries ++ [{ why := .lifecycle, esn := esn, carried := false }] }

/-- LC_ADVANCE (R459, R601 to R603). -/
def ownLcAdvance (e : QEntry) (s : State) : CmdOut :=
  let now := s.life.shadow
  match Lc.ofCode (byteAt e.params 0).toNat with
  | none => refuse .lifecycle s
  | some target =>
    match transition now target with
    | none => refuse .lifecycle s
    | some pre =>
      if field e.params 1 4 ≠ s.life.uid.toNat % 2 ^ 32 then refuse .badParam s
      else if s.life.pending.isSome then refuse .busy s
      else
        match pre.find? s.unmet with
        | some n => .done { status := .notReady, effectFrame := none, results := leBytes 1 n } s
        | none =>
          match s.writeRefusal with
          | some st => refuse st s
          | none =>
            let s := if now = .field then s.dissolveAll else s
            if now = .field ∧ s.tenantExists = true then .hold .lifecycleLeave (some (lcAnswer now target)) (s.expectLc target)
            else if target = .field ∨ (now = .field ∧ target = .commission) then
              .hold (.itemCommit 0x12) (some (lcAnswer now target)) (s.requestField target)
            else .done (lcAnswer now target) (s.awaitReset target e.esn)

def cmdLcAdvance : QEntry → State → CmdOut :=
  checked { issuer := .owner, states := mcfr, plenOk := (· == 5), reserved := fun _ => [] } ownLcAdvance

/-- The domain of a self-test block (R615). -/
def blockDomain (b : Nat) : Nat :=
  if b ≤ 1 then 7 else if b ≤ 3 then 5 else if b ≤ 5 then 6 else if b ≤ 7 then 8 else b + 1

/-- A domain runs at 0.90 V: it is ON, at P0 where it has points (R165, R460). -/
def State.fullVoltage (s : State) (n : Nat) : Bool :=
  s.domOn n && (if n < 5 ∨ 8 < n then true else s.power.points.toList.getD (n - 5) 0 == 0)

/-- A block is idle (R618, R619). -/
def State.blockIdle (s : State) (path : Path) (b : Nat) : Bool :=
  if s.life.shadow = .ret then true
  else if s.life.shadow = .field ∧ s.tenantExists = true then false
  else if b = 1 then true
  else if 2 ≤ b ∧ b ≤ 5 then !s.wheel.turning
  else if b = 8 then s.domOn 9 && !s.power.presentA
  else if b = 9 then s.domOn 10 && !s.power.presentB
  else if b = 10 then s.arr.writes.isEmpty && s.arr.updates.isEmpty
  else if b = 11 then s.hostPol == owner && s.host.tx.isEmpty && s.host.rx.isEmpty && path != Path.host
  else false

/-- The pages a read-margin check reads (R544, R624). -/
def marginPages (r : Nat) : Nat :=
  if r = 6 then 2 * (regionSize 6 / 256) + 16 else regionSize r / 256 + (if r ≤ 1 then 16 else 0)

/-- The blocks of a map. -/
def blocksOf (m : BitVec 16) : List Nat := (List.range 12).filter (fun b => m.toNat.testBit b)

/-- A self-test ends: its result stays readable and EV_BIST_DONE is queued (R461, R466, R620, R625). -/
def State.finishBist (j : BistJob) (s : State) : State :=
  ({ s with bist := { s.bist with job := none, lastBlocks := j.blocks, lastFailed := j.failed, lastAlgo := j.algo } } : State).ownerEvent 0x0045
    (leBytes 1 j.algo ++ leBytes 1 j.region ++ leBytes 2 j.blocks.toNat ++ leBytes 2 j.failed.toNat ++ leBytes 2 j.below)

/-- BIST_RUN (R460, R618 to R620, R624). -/
def ownBistRun (e : QEntry) (s : State) : CmdOut :=
  let blocks : BitVec 16 := BitVec.ofNat 16 (field e.params 0 2)
  let algo := (byteAt e.params 2).toNat
  let region := (byteAt e.params 3).toNat
  let doms := if algo = 2 then [11] else (blocksOf blocks).map blockDomain
  if 2 < algo ∨ (algo ≤ 1 ∧ blocks = 0) ∨ (algo = 2 ∧ blocks ≠ 0) ∨ 6 < region ∨
      (algo ≤ 1 ∧ blocks.toNat.testBit 0 = true) then refuse .badParam s
  else if !s.clock.pllOn || !doms.all s.fullVoltage then refuse .notReady s
  else if s.bist.job.isSome || !(blocksOf blocks).all (s.blockIdle e.req.path) then refuse .busy s
  else
    let j : BistJob := { algo := algo, region := if algo = 2 then region else 0, blocks := blocks, left := blocks, failed := 0, started := false,
                         pagesLeft := if algo = 2 then marginPages region else 0, below := 0 }
    .done { status := .accepted, effectFrame := none, results := leBytes 2 blocks.toNat }
      { s with bist := { s.bist with job := some j }, carries := s.carries ++ [{ why := .selfTest, esn := e.esn, carried := false }] }

def cmdBistRun : QEntry → State → CmdOut :=
  checked { issuer := .owner, states := [.commission, .field, .ret], plenOk := (· == 4), reserved := fun _ => [(15, 12)] } ownBistRun

/-- BIST_READ (R461). -/
def ownBistRead (_ : QEntry) (s : State) : CmdOut :=
  doneOk (leBytes 2 s.bist.unusable.toNat ++ leBytes 2 s.bist.lastBlocks.toNat ++ leBytes 2 s.bist.lastFailed.toNat ++
    leBytes 1 s.bist.lastAlgo ++ leBytes 1 (b2n s.bist.job.isSome)) s

def cmdBistRead : QEntry → State → CmdOut :=
  checked { issuer := .owner, states := [.commission, .field, .ret], plenOk := (· == 0), reserved := fun _ => [] } ownBistRead

/-- LC_GET as a command row. -/
def execLcGet (r : Req) (params : List Byte) (s : State) : Host.Outcome State Fault Refusal :=
  .next (runCommand 0x90 cmdLcGet r params s)

/-- LC_ADVANCE as a command row. -/
def execLcAdvance (r : Req) (params : List Byte) (s : State) : Host.Outcome State Fault Refusal :=
  .next (runCommand 0x91 cmdLcAdvance r params s)

/-- BIST_RUN as a command row. -/
def execBistRun (r : Req) (params : List Byte) (s : State) : Host.Outcome State Fault Refusal :=
  .next (runCommand 0x92 cmdBistRun r params s)

/-- BIST_READ as a command row. -/
def execBistRead (r : Req) (params : List Byte) (s : State) : Host.Outcome State Fault Refusal :=
  .next (runCommand 0x93 cmdBistRead r params s)

end Sys2Proof.Machine
end

