-- ==== Sys2Proof/Machine/Flags.lean ====
section
/-! DEFINITION. Status words, interrupt flags and indicator lands computed from the state: the host window's ID, STATUS,
IRQ_FLAGS, LC_STATE, XPORT and HOST_ERR, IRQ_N, and STATUS_LED (R60, R634 to R640). -/

namespace Sys2Proof.Machine

/-- Bytes a packet takes in a FIFO: its length word and itself (R640). -/
def fifoBytes (len : Nat) : Nat := 2 + len

/-- Free bytes of TXFIFO (R635, R640). -/
def HostPort.txFree (h : HostPort) : Nat := 1024 - (h.tx.map (fun p => fifoBytes p.len)).sum

/-- Free bytes of RXFIFO; bytes already read have left it (R640, R643). -/
def HostPort.rxFree (h : HostPort) : Nat := 1024 - ((h.rx.map (fun p => fifoBytes p.size)).sum - h.rxRead)

/-- IRQ_FLAGS (R638). -/
def HostPort.irqFlags (h : HostPort) : Nat :=
  b2n (!h.rx.isEmpty) + 2 * b2n (decide (130 ≤ h.txFree)) + 4 * b2n h.wakeDone + 8 * b2n h.txOvf + 16 * b2n h.pktErr +
  32 * b2n h.rxUnf + 64 * b2n h.lcChange

/-- IRQ_N is asserted low (R639), while its function is not disabled (R46, R72). -/
def State.irqAsserted (s : State) : Bool := s.landsFree && s.domOn 12 && (s.host.irqFlags &&& s.host.irqEn.toNat) != 0

/-- BOUND_VALID (R635). -/
def State.boundValid (s : State) : Bool :=
  if s.hostPol = owner then s.ownerActive else (s.pol s.hostPol).state == .chartered || (s.pol s.hostPol).state == .active

/-- STATUS (R635). -/
def State.statusWord (s : State) : Nat :=
  b2n s.power.accepting + 2 * s.hostPol.val + 16 * b2n s.boundValid + 32 * bits s.host.irqFlags 1 0 + 128 * b2n s.holdup.low +
  65536 * s.host.txFree

/-- LC_STATE (R635). -/
def State.lcWord (s : State) : Nat := s.life.shadow.code + 256 * b2n s.lands.straps.commissionLow

/-- XPORT (R637). -/
def HostPort.xport (h : HostPort) : Nat :=
  match h.sel with
  | none => 0
  | some .spi => 1
  | some .i2c => 2

/-- HOST_ERR (R637). -/
def HostPort.errWord (h : HostPort) : Nat := h.txOvfCnt + 256 * h.pktErrCnt + 65536 * h.bindMissCnt + 16777216 * h.rxUnfCnt

/-- The register of an index other than the FIFOs and TIME_SUB, 0 where it is reserved (R634 to R637). -/
def State.windowWord (s : State) (i : Nat) : Nat :=
  if i = 0 then 0x00011612
  else if i = 1 then s.statusWord
  else if i = 2 then s.host.irqFlags
  else if i = 3 then s.host.irqEn.toNat
  else if i = 7 then s.clock.secShadow.toNat
  else if i = 8 then s.lcWord
  else if i = 9 then s.host.xport
  else if i = 10 then s.host.errWord
  else 0

/-- What STATUS_LED shows (R60). -/
inductive Led where
  | off
  | on
  | hz1
  | hz4
  deriving DecidableEq, Repr

/-- The domain of a line port (R134). -/
def portDom : Port → Nat
  | .a => 9
  | .b => 10

/-- A port's segment is joined and its beacons are heard: the port is ON, the latest beacon leaves an addressed node its data slot, and
no more cycles have passed without one than the node keeps by itself (R60, R475, R477; notes/assumptions/66.md). -/
def State.joined (s : State) (p : Port) : Bool :=
  let l := s.port p
  s.domOn (portDom p) && l.heardBeacon && l.slotNext && decide (l.missed ≤ 3) && s.fab.addr != 0xfff

/-- STATUS_LED: the lowest row of R60 that holds; HOLDUP_LOW is not shown in the first 400 ms of the charger (R95). -/
def State.led (s : State) : Led :=
  if !s.power.lineGood || s.power.resetLow then .off
  else if (s.holdup.low && !s.holdup.starting) || s.bist.unusable != 0 then .hz4
  else if s.joined .a || s.joined .b then .hz1
  else if s.power.seqRunning && s.domOn 7 then .on
  else .off

/-! ### Output lands (R45 to R47) -/

/-- What an output land does: high impedance, driven low, or carrying its function. -/
inductive Drive where
  | highZ
  | low
  | active
  deriving DecidableEq, Repr

/-- SPI_SDO: high impedance but in a read over SPI (R45, R46, R47, R629). -/
def State.spiSdo (s : State) : Drive :=
  if s.landsFree && s.domOn 12 && s.host.xfer.any (fun x => x.bus == .spi && x.read) then .active else .highZ

/-- DALI_TX: driven low, the bus released, but within a frame the node sends, which is one step (R45, R46, R651). -/
def daliTx : Drive := .low

/-- TDO: high impedance but within a scan, which is one step (R45, R46, R611). -/
def tdo : Drive := .highZ

/-- The pixel port is enabled: COMMISSION, COMMISSION_N sampled low and low since (R24, R46, R47, R58). -/
def State.pixEnabled (s : State) : Bool :=
  s.life.shadow == .commission && s.lands.straps.commissionLow && s.lands.commissionStays && s.landsFree && s.domOn 12

/-- PD0 to PD11, PCLK, FV and LV: high impedance, pulled down, but within a wheel slot that the pixel port puts out (R24, R45 to R47,
R303). -/
def State.pixelLands (s : State) : Drive :=
  match s.wheel.slot with
  | some x => if x.pix != 0 && x.pixCut.isNone && s.landsFree && s.domOn 12 then .active else .highZ
  | none => .highZ

/-- STROBE_OUT (R201), low while PXA is not ON (R47) and at its reset state while VIO is lost (R72). -/
def State.strobeOut (s : State) : Bool := s.lands.strobe && s.domOn 1 && s.landsFree

end Sys2Proof.Machine
end

