-- ==== Sys2Proof/Machine/Columns.lean ====
section
/-! DEFINITION. Column converters, their spares and their trims: jobs, declarations, forwarding, reference sets and
acceptance (R218 to R243, R245 to R272). -/

namespace Sys2Proof.Machine

/-! ### Groups and jobs -/

/-- The group of a column (R218). -/
def groupOf (c : Nat) : Nat := c / 50

/-- A group's record; a group beyond the last reads as one whose spare has failed. -/
def Columns.group (k : Columns) (g : Nat) : Group :=
  k.groups.getD g { state := .spareFailed, replOffset := 0, defects := 0, maxDiff := 0, runMax := 0, diffCount := 0, abandoned := false }

/-- A change of one group. -/
def Columns.modGroup (g : Nat) (f : Group → Group) (k : Columns) : Columns := { k with groups := k.groups.modify g f }

/-- The revolution of a frame (R221). -/
def revolutionNo (f : W32) : Nat := f.toNat / 16

/-- The column offset of a revolution's job (R221). -/
def jobOffset (r : Nat) : Nat := (r / 2) % 50

/-- The job of revolution r is a stand-in (R221). -/
def standsIn (r : Nat) : Bool := r % 2 == 1

/-- The column is one the group's spare replaces (R232, R240). -/
def Columns.replaced (k : Columns) (c : Nat) : Bool :=
  (k.group (groupOf c)).state == .replacing && (k.group (groupOf c)).replOffset == c % 50

/-- The column is stood in for in revolution r (R221, R224). -/
def Columns.stoodIn (k : Columns) (r c : Nat) : Bool :=
  standsIn r && (k.group (groupOf c)).state == .live && c % 50 == jobOffset r

/-- The column is on the defect map (R239). -/
def Columns.defective (k : Columns) (c : Nat) : Bool := k.defectMap.any (fun d => d.column == c)

/-- The column's converter has been declared failed (R225). -/
def Columns.failed (k : Columns) (c : Nat) : Bool := k.replaced c || k.defective c || k.beyondMap.contains c

/-- The spare of a group works: LIVE or REPLACING (R236). -/
def Columns.spareGood (k : Columns) (g : Nat) : Bool := (k.group g).state != .spareFailed

/-- The spare's code is forwarded for the column (R224, R232). -/
def Columns.spareServes (k : Columns) (r c : Nat) : Bool := k.replaced c || k.stoodIn r c

/-! ### Declarations (R226, R227, R232 to R243) -/

/-- EV_COL_FAIL for the owner (R241, R302): kind, means, group, column, first good row. -/
def State.colFail (kind means c row : Nat) (f : W32) (s : State) : State :=
  s.eventAt owner 0x0006 f s.clock.tb
    (leBytes 1 kind ++ leBytes 1 means ++ leBytes 1 (groupOf c) ++ leBytes 1 0 ++ leBytes 2 c ++ leBytes 2 row)

/-- The column becomes a defect column, or, on a full map, is left as it is with the map-full flag (R237, R239). -/
def State.declareDefect (c cause : Nat) (f : W32) (s : State) : State :=
  let k := s.cols.modGroup (groupOf c) (fun g => { g with defects := min 255 (g.defects + 1) })
  if s.cols.defectMap.length < 64 then
    ({ s with cols := { k with defectMap := k.defectMap ++ [{ column := c, frame := f, cause := cause }] } } : State).colFail 2 2 c 0 f
  else ({ s with cols := { k with mapFull := true, beyondMap := c :: k.beyondMap } } : State).colFail 4 2 c 0 f

/-- The group's spare replaces a column for good (R232, R236). -/
def State.declareReplaced (c means row : Nat) (f : W32) (s : State) : State :=
  ({ s with cols := s.cols.modGroup (groupOf c) (fun g => { g with state := .replacing, replOffset := c % 50, abandoned := true }) } : State).colFail
    1 means c row f

/-- The spare of a live group is declared failed (R227, R235, R241). -/
def State.declareSpare (g : Nat) (f : W32) (s : State) : State :=
  ({ s with cols := s.cols.modGroup g (fun x => { x with state := .spareFailed, replOffset := 0, abandoned := true }) } : State).colFail
    3 2 (50 * g + jobOffset (revolutionNo f)) 0 f

/-- The code of a conversion: the PIX ticks from the ramp's start to the comparator's trip, the full-scale code where it has not tripped
by the end of the ramp phase (R211, R212). -/
def rampCode (depth10 : Bool) (trip : Nat) : Nat := min trip (if depth10 then 1023 else 4095)

/-- The four codes of a check (R211, R225). -/
def codedCheck (depth10 : Bool) (v : CheckConv) : CheckConv :=
  { low0 := rampCode depth10 v.low0, low1 := rampCode depth10 v.low1, high0 := rampCode depth10 v.high0, high1 := rampCode depth10 v.high1 }

/-- The codes of a trim measurement (R211, R252). -/
def codedMeas (depth10 : Bool) (m : TrimMeas) : TrimMeas :=
  { lowA := m.lowA.map (rampCode depth10), highA := m.highA.map (rampCode depth10),
    lowB := m.lowB.map (rampCode depth10), highB := m.highB.map (rampCode depth10) }

/-- A conversion fails (R226). -/
def convFails (depth10 high : Bool) (code : Nat) : Bool :=
  let nominal := if depth10 then (if high then 896 else 128) else (if high then 3584 else 512)
  decide ((if depth10 then 12 else 48) < ((code : Int) - (nominal : Int)).natAbs)

/-- A converter fails the check (R226). -/
def checkFails (depth10 : Bool) (v : CheckConv) : Bool :=
  (convFails depth10 false v.low0 && convFails depth10 false v.low1) || (convFails depth10 true v.high0 && convFails depth10 true v.high1)

/-- The codes of converter n; a converter the operand leaves out reads nominal codes. -/
def convOf (depth10 : Bool) (conv : List CheckConv) (n : Nat) : CheckConv :=
  codedCheck depth10 <| conv.getD n (if depth10 then { low0 := 128, low1 := 128, high0 := 896, high1 := 896 }
               else { low0 := 512, low1 := 512, high0 := 3584, high1 := 3584 })

/-- The columns of a group that take part in the check and fail it, lowest first (R225, R226). -/
def Columns.failing (k : Columns) (depth10 : Bool) (conv : List CheckConv) (g : Nat) : List Nat :=
  (List.range' (50 * g) 50).filter (fun c => !k.failed c && checkFails depth10 (convOf depth10 conv c))

/-- The failed columns of a group are declared: the first of a live group is replaced, the others become defect columns
(R232, R237). -/
def State.declareColumns (f : W32) : List Nat → State → State
  | [], s => s
  | c :: rest, s =>
    if (s.cols.group (groupOf c)).state = .live then (s.declareReplaced c 2 0 f).declareColumns f rest
    else (s.declareDefect c 1 f).declareColumns f rest

/-- The check of one group: its spare first, then its columns (R227, R237). -/
def State.checkGroup (depth10 : Bool) (conv : List CheckConv) (f : W32) (s : State) (g : Nat) : State :=
  let x := s.cols.group g
  let columns := s.cols.failing depth10 conv g
  let spareFails := x.state != .spareFailed && checkFails depth10 (convOf depth10 conv (1600 + g))
  let s :=
    if !spareFails then s
    else if x.state = .live then s.declareSpare g f
    else
      ({ s with cols := s.cols.modGroup g (fun y => { y with state := .spareFailed, replOffset := 0 }) } : State).declareDefect
        (50 * g + x.replOffset) 2 f
  s.declareColumns f columns

/-- The columns' state is written to TRIM as the node's own write where it has changed (R243). -/
def State.storeColumns (before : ColStateItem) (s : State) : State :=
  if s.colStateNow = before then s else s.requestItem owner (.colState s.colStateNow)

/-! ### Converter errors (R249, R250) -/

/-- The scale of a code to reference LSB as a fraction (R249). -/
def scaleOf (e : Expo) : Frac := Frac.norm { num := if e.depth10 then 4 else 1, den := e.again }

/-- The zero-input offset of mean low and high codes (R250). -/
def zeroOffset (l h : Frac) : Frac := l.sub ((Frac.ofNat 512).mul ((h.sub l).div (Frac.ofNat 3072)))

/-- The reference set of one bank from the mean low and high codes of its converters (R250). -/
def bankRef (l : List (Frac × Frac)) : BankRef :=
  { offset := Frac.mean (l.map (fun x => zeroOffset x.1 x.2)), span := Frac.mean (l.map (fun x => x.2.sub x.1)),
    low := Frac.mean (l.map (·.1)), high := Frac.mean (l.map (·.2)) }

/-- The bank of a converter: true for CVB (R213, R218). -/
def bankB (n : Nat) : Bool := if n < 1600 then decide (800 ≤ n) else decide (1616 ≤ n)

/-- The converter is in service in revolution r: a column converter that supplies its column, or a replacing spare (R250). -/
def Columns.inService (k : Columns) (r n : Nat) : Bool :=
  if n < 1600 then !k.failed n && !k.stoodIn r n else (k.group (n - 1600)).state == .replacing

/-- The mean low and high codes of a converter in one check, in reference LSB. -/
def checkMeans (scale : Frac) (v : CheckConv) : Frac × Frac :=
  (scale.mul (meanNat [v.low0, v.low1]), scale.mul (meanNat [v.high0, v.high1]))

/-- The reference set of a bank in one check. -/
def Columns.checkRef (k : Columns) (r : Nat) (depth10 : Bool) (scale : Frac) (conv : List CheckConv) (b : Bool) : BankRef :=
  bankRef (((List.range 1632).filter (fun n => bankB n == b && k.inService r n)).map (fun n => checkMeans scale (convOf depth10 conv n)))

/-- Offset and gain error against a reference set (R250). -/
def errorOf (l h : Frac) (ref : BankRef) : Frac × Frac :=
  ((zeroOffset l h).sub ref.offset, ((h.sub l).div ref.span).sub (Frac.ofNat 1))

/-- The variance of measured values is at most a squared limit (R265). -/
def spreadOk (limit : Nat) (l : List Frac) : Bool :=
  let m := Frac.mean l
  (Frac.mean (l.map (fun x => (x.sub m).mul (x.sub m)))).le (Frac.ofNat (limit * limit))

/-- What a trim measurement ends in: new codes, or the reason of its rejection (R265). -/
inductive Verdict where
  | accepted (t : Trim)
  | rejected (reason : Nat)
  deriving DecidableEq, Repr

/-- The acceptance of a converter trim from the errors of A and B (R253, R265); `spread` says that the SPREAD check passed. -/
def judge (spread : Bool) (a b : Frac × Frac) (old : Trim) : Verdict :=
  let half : Frac := { num := 1, den := 2 }
  let e := half.mul (a.1.add b.1)
  let g := half.mul (a.2.add b.2)
  let t : Trim := { offset := old.offset - ((Frac.ofNat 4).mul e).round, gain := old.gain - ((Frac.ofNat 4000).mul g).round }
  if !spread then .rejected 1
  else if !(a.1.sub b.1).abs.le (Frac.ofNat 2) then .rejected 2
  else if !(a.2.sub b.2).abs.le { num := 1, den := 1000 } then .rejected 3
  else if !e.abs.le (Frac.ofNat 8) || !g.abs.le { num := 4, den := 1000 } then .rejected 4
  else if t.offset < -127 ∨ 126 < t.offset ∨ t.gain < -31 ∨ 30 < t.gain then .rejected 5
  else .accepted t

/-- Codes as fractions in reference LSB. -/
def scaled (scale : Frac) (l : List Nat) : List Frac := l.map (fun c => scale.mul (Frac.ofNat c))

/-- Every level of A and of B keeps the SPREAD limit of 3 reference LSB (R265). -/
def trimSpread (scale : Frac) (m : TrimMeas) : Bool :=
  [m.lowA, m.highA, m.lowB, m.highB].all (fun l => spreadOk 3 (scaled scale l))

/-- Errors of A, then of B, of a measurement against the reference sets of A and of B. -/
def trimErrors (scale : Frac) (refA refB : BankRef) (m : TrimMeas) : (Frac × Frac) × (Frac × Frac) :=
  (errorOf (scale.mul (meanNat m.lowA)) (scale.mul (meanNat m.highA)) refA,
   errorOf (scale.mul (meanNat m.lowB)) (scale.mul (meanNat m.highB)) refB)

/-- The codes of converter n in force. -/
def Columns.trimOf (k : Columns) (n : Nat) : Trim := k.trims.getD n { offset := 0, gain := 0 }

/-- The verdict on a converter's measurement. -/
def Columns.judgeMeas (k : Columns) (scale : Frac) (refA refB : BankRef) (n : Nat) (m : TrimMeas) : Verdict :=
  let (a, b) := trimErrors scale refA refB m
  judge (trimSpread scale m) a b (k.trimOf n)

/-- New codes take effect in the AON shadow (R247, R272). -/
def Columns.applyTrim (p : TrimPending) (k : Columns) : Columns :=
  { k with trims := k.trims.set p.converter p.trim, trimChanged := k.trimChanged || decide (k.trimOf p.converter ≠ p.trim) }

/-- Pending trims of some kinds take effect (R247). -/
def Columns.applyPending (now : TrimPending → Bool) (k : Columns) : Columns :=
  { (k.pendingTrims.filter now).foldl (fun k p => k.applyTrim p) k with pendingTrims := k.pendingTrims.filter (fun p => !now p) }

/-- EV_CAL_REJECT (R267, R302). -/
def State.calReject (kind reason n : Nat) (f : W32) (s : State) : State :=
  s.ownerEvent 0x0008 (leBytes 1 kind ++ leBytes 1 reason ++ leBytes 2 n ++ leBytes 4 f.toNat)

/-! ### The boundary (R222, R224, R231, R253 to R255, R268, R272) -/

/-- The outcome of a stand-in at the end of its revolution: its accepted trim enters the shadow, or it counts as skipped
unless it was counted already (R253, R254, R268). -/
def Columns.settleStandIn (r : Nat) (k : Columns) (g : Nat) : Columns :=
  let n := 50 * g + jobOffset r
  let x := k.group g
  if (x.state != .live && !x.abandoned) || k.bgSettled.contains n then k
  else
    match k.pendingTrims.find? (fun p => p.converter = n && p.kind = .background) with
    | some p =>
      if x.abandoned then { k with counters := { k.counters with bgSkipped := sat16 k.counters.bgSkipped } }
      else { k.applyTrim p with counters := { k.counters with bgDone := sat16 k.counters.bgDone } }
    | none => { k with counters := { k.counters with bgSkipped := sat16 k.counters.bgSkipped } }

/-- A group at the end of a revolution: MAXDIFF of a completed shadow job; every job has ended (R222, R231). -/
def Group.endJob (r : Nat) (x : Group) : Group :=
  { x with maxDiff := if !standsIn r && x.state == .live && !x.abandoned then min 255 x.runMax else x.maxDiff,
           runMax := 0, diffCount := 0, abandoned := false }

/-- The converters at the end of revolution r: stand-ins settle, spare trims enter the shadow (R222, R253, R255, R268). A spare's own
pending codes enter although a COLUMNS result has been accepted for that spare meanwhile (notes/assumptions/54.md). -/
def Columns.endRevolution (r : Nat) (k : Columns) : Columns :=
  let k := if standsIn r then (List.range 32).foldl (fun k g => k.settleStandIn r g) k else k
  let spares := k.pendingTrims.filter (fun p => p.kind = .spare)
  let k := spares.foldl (fun k p => { k.applyTrim p with counters := { k.counters with spareDone := sat16 k.counters.spareDone } }) k
  { k with groups := k.groups.map (Group.endJob r), pendingTrims := k.pendingTrims.filter (fun p => p.kind = .columns),
           measured := none, bgSettled := [] }

/-- A revolution has passed since the last write of the trim table (R272). -/
def Columns.countRevolution (k : Columns) : Columns := { k with revsSinceWrite := k.revsSinceWrite.map (· + 1) }

/-- The write of the trim table where it is due at a revolution boundary (R272). -/
def State.writeTrims (s : State) : State :=
  let k := s.cols
  let due := k.trimChanged && (match k.revsSinceWrite with
    | none => true
    | some n => decide (1000 ≤ n))
  if due then
    ({ s with cols := { k with trimChanged := false, revsSinceWrite := some 0 } } : State).requestItem owner
      (.trimTab { trims := k.trims, slopeA := k.slopeA, slopeB := k.slopeB })
  else s

/-- Accepted COLUMNS codes take effect at a wheel slot start (R247, R259). -/
def State.applyColumns (s : State) : State := { s with cols := s.cols.applyPending (fun p => p.kind = TrimKind.columns) }

end Sys2Proof.Machine
end

