-- ==== Sys2Proof/Machine/Statistics.lean ====
section
/-! DEFINITION. The pixel pipeline and the statistics of a slot, computed from its row reads: dark level, gain merge, defect
interpolation, binning, zones, motion, illuminance, colour temperature, illumination step, pixel port (R276 to R294, R303). -/

namespace Sys2Proof.Machine

/-! ### Reads (R176, R180, R184, R228) -/

/-- The stagger of exposure i behind the long one, in read periods (R184). -/
def Expo.lag (e : Expo) (i : Nat) : Nat :=
  if i = 0 then 0 else if e.nexp = 3 then (if i = 1 then e.dM else e.dM + e.dS) else e.dS

/-- The sub-reads of read period k: exposure and row read (R176, R184). -/
def Expo.subReads (e : Expo) (k : Nat) : List (Nat × Nat × Nat) :=
  (List.range e.nexp).filterMap (fun i => if e.lag i ≤ k ∧ k - e.lag i < e.nRead then some (k, i, k - e.lag i) else none)

/-- Every read of a slot in read order: read period, exposure (0 long), row read (optical-black first) (R174, R180, R228). -/
def Expo.schedule (e : Expo) : List (Nat × Nat × Nat) := ((List.range (e.nRead + e.stagger)).map e.subReads).flatten

/-- The array row of active read j; under 2×2 the first of the two combined (R178, R233, R281). -/
def Expo.rowOf (e : Expo) (j : Nat) : Nat := if e.bin = 1 then e.y0 + 4 * (j / 2) + j % 2 else e.y0 + j

/-- The first good row after a declaration in read period k (R233). -/
def Expo.firstGoodRow (e : Expo) (k : Nat) : Nat :=
  if k + 1 < e.nOb then 0
  else if e.nAct ≤ k + 1 - e.nOb then e.y0 + e.h
  else e.rowOf (k + 1 - e.nOb)

/-- The reads of a slot with their places in the schedule. -/
def Slot.placed (x : Slot) : List ((Nat × Nat × Nat) × RowRead) := x.expo.schedule.zip x.reads

/-- The index in read order of the read of row read j by exposure i. -/
def Slot.readIndex (x : Slot) (i j : Nat) : Nat := x.expo.schedule.findIdx (fun p => p.2.1 = i && p.2.2 = j)

/-- The samples of a read; beyond the reads made, none. -/
def Slot.read (x : Slot) (n : Nat) : RowRead := x.reads.getD n { codes := [], bad := [] }

/-- No sample: every field of the word at its reset value (R217). -/
def Sample.none : Sample := { code := 0, cg := false, src := false }

/-- The sample of a column in a read. -/
def RowRead.sample (r : RowRead) (c : Nat) : Sample := r.codes.getD c Sample.none

/-- A read of a column is excluded after a mid-slot replacement (R233). -/
def Slot.excluded (x : Slot) (n c : Nat) : Bool := x.repairs.any (fun r => r.column == c && decide (n < r.excludedReads))

/-! ### Stages 1 to 4 (R278 to R281) -/

/-- The code scale s of the slot (R278). -/
def Expo.codeScale (e : Expo) : Nat := if e.depth10 then 4 else 1

/-- The optical-black samples of exposure i, bank and colour site that enter its dark level (R278). -/
def Slot.darkSamples (x : Slot) (i : Nat) (b : Bool) (py px : Nat) : List Nat :=
  (((List.range x.expo.nOb).filter (fun j => j % 2 = py)).map (fun j =>
    let n := x.readIndex i j
    let r := x.read n
    ((List.range 1600).filter (fun c => decide (c % 2 = px) && bankB c == b && !(r.sample c).cg && !r.bad.contains c && !x.excluded n c)).map
      (fun c => (r.sample c).code * x.expo.codeScale))).flatten

/-- The dark level D, held to 1/16 of a code step; where no sample remains, a free value (R278; notes/assumptions/3.md,
notes/assumptions/16.md). -/
def Slot.dark (x : Slot) (draw : Nat) (i : Nat) (b : Bool) (py px : Nat) : Frac :=
  match x.darkSamples i b py px with
  | [] => { num := Config.freeNat (draw + 8 * i + 4 * b2n b + 2 * py + px), den := 16 }
  | l => { num := ((Frac.ofNat 16).mul (meanNat l)).round, den := 16 }

/-- The 24 dark levels of a slot: three exposures, two banks, four colour sites (R278). -/
def Slot.darks (x : Slot) (draw : Nat) : List Frac :=
  (List.range 24).map (fun k => x.dark draw (k / 8) (k / 4 % 2 == 1) (k / 2 % 2) (k % 2))

/-- The merged value V of active row read j of exposure i at a column (R279). -/
def Slot.merged (x : Slot) (d : List Frac) (i j c : Nat) : Nat :=
  let m := (x.read (x.readIndex i (x.expo.nOb + j))).sample c
  let v := ((Frac.ofNat (m.code * x.expo.codeScale)).sub (d.getD (8 * i + 4 * b2n (bankB c) + 2 * (j % 2) + c % 2) (Frac.ofNat 0))).mul (Frac.ofNat (if m.cg then 8 else 1))
  (max 0 (min 32767 v.round)).toNat

/-- E_L over another exposure as a 16.16 fixed-point ratio (R279; notes/assumptions/16.md). -/
def ratio16 (eL e : Nat) : Nat := if e = 0 then 0 else (2 * eL * 65536 + e) / (2 * e)

/-- A value scaled by a 16.16 ratio, rounded and saturated (R279). -/
def scaleBy (v r : Nat) : Nat := min 16777215 ((v * r + 32768) / 65536)

/-- LIN of an active pixel (R279). -/
def Slot.lin (x : Slot) (d : List Frac) (j c : Nat) : Nat :=
  let e := x.expo
  let l := x.merged d 0 j c
  if e.nexp = 1 ∨ l < 28672 then l
  else if e.nexp = 3 ∧ x.merged d 1 j c < 28672 then scaleBy (x.merged d 1 j c) (ratio16 e.eL e.eM)
  else scaleBy (x.merged d (e.nexp - 1) j c) (ratio16 e.eL e.eS)

/-- The nearest same-colour columns on one side, up to 8 away, without a defect (R280). -/
def goodNeighbour (bad : List Nat) (c : Nat) (left : Bool) : Option Nat :=
  ([2, 4, 6, 8].filterMap (fun n => if left then (if n ≤ c then some (c - n) else none) else (if c + n < 1600 then some (c + n) else none))).find?
    (fun n => !bad.contains n)

/-- An active pixel after defect interpolation; `none`: excluded (R233, R280). -/
def Slot.pixel (x : Slot) (d : List Frac) (j c : Nat) : Option Frac :=
  let n := x.readIndex 0 (x.expo.nOb + j)
  let bad := (x.read n).bad
  if x.excluded n c then none
  else if !bad.contains c then some (Frac.ofNat (x.lin d j c))
  else
    match goodNeighbour bad c true, goodNeighbour bad c false with
    | some a, some b => some (meanNat [x.lin d j a, x.lin d j b])
    | some a, none => some (Frac.ofNat (x.lin d j a))
    | none, some b => some (Frac.ofNat (x.lin d j b))
    | none, none => none

/-- Input positions that output position v combines, along one axis with factor b (R281). -/
def inputs (b v : Nat) : List Nat := if b = 1 then [v] else (List.range b).map (fun k => 2 * b * (v / 2) + v % 2 + 2 * k)

/-- An output pixel; `none`: excluded (R281). -/
def Slot.out (x : Slot) (d : List Frac) (xo yo : Nat) : Option Frac :=
  let b := x.expo.binFactor
  let rows := if b = 4 then inputs 4 yo else [yo]
  let ps := (rows.map (fun j => (inputs b xo).filterMap (fun c => x.pixel d j (x.expo.x0 + c)))).flatten
  if ps.isEmpty then none else some (Frac.mean ps)

/-! ### Zones and quads (R283 to R287) -/

/-- The zone of an output pixel (R283). -/
def Expo.zoneOf (e : Expo) (xo yo : Nat) : Nat := 20 * (15 * yo / e.outH) + 20 * xo / e.outW

/-- The first output position of part k of n along an axis of length len. -/
def zoneStart (len n k : Nat) : Nat := (len * k + n - 1) / n

/-- The cell of a quad within a zone (R286). -/
def Expo.cellOf (e : Expo) (xo yo : Nat) : Nat :=
  let zx := 20 * xo / e.outW
  let zy := 15 * yo / e.outH
  let cx := 4 * (xo - zoneStart e.outW 20 zx) / (zoneStart e.outW 20 (zx + 1) - zoneStart e.outW 20 zx)
  let cy := 4 * (yo - zoneStart e.outH 15 zy) / (zoneStart e.outH 15 (zy + 1) - zoneStart e.outH 15 zy)
  4 * cy + cx

/-- The luma of quad (i, j); `none`: excluded (R283, R284). -/
def Slot.quad (x : Slot) (d : List Frac) (i j : Nat) : Option Frac :=
  match x.out d (2 * i) (2 * j), x.out d (2 * i + 1) (2 * j), x.out d (2 * i) (2 * j + 1), x.out d (2 * i + 1) (2 * j + 1) with
  | some r, some g0, some g1, some b =>
    some (((((Frac.ofNat 54).mul r).add ((Frac.ofNat 183).mul (Frac.mean [g0, g1]))).add ((Frac.ofNat 19).mul b)).div (Frac.ofNat 256))
  | _, _, _, _ => none

/-- Every quad that is not excluded: its zone, its cell and its luma. -/
def Slot.quads (x : Slot) (d : List Frac) : List (Nat × Nat × Frac) :=
  ((List.range (x.expo.outH / 2)).map (fun j => (List.range (x.expo.outW / 2)).filterMap (fun i =>
    (x.quad d i j).map (fun y => (x.expo.zoneOf (2 * i) (2 * j), x.expo.cellOf (2 * i) (2 * j), y))))).flatten

/-- The colour of an output pixel: 0 R, 1 G, 2 B (R173, R281). -/
def colourOf (xo yo : Nat) : Nat := if xo % 2 = 0 ∧ yo % 2 = 0 then 0 else if xo % 2 = 1 ∧ yo % 2 = 1 then 2 else 1

/-- Every output pixel that is not excluded: its zone, its colour and its LIN. -/
def Slot.outputs (x : Slot) (d : List Frac) : List (Nat × Nat × Frac) :=
  ((List.range x.expo.outH).map (fun yo => (List.range x.expo.outW).filterMap (fun xo =>
    (x.out d xo yo).map (fun v => (x.expo.zoneOf xo yo, colourOf xo yo, v))))).flatten

/-- What the fork computes of one zone (R285 to R287). -/
structure ZoneStat where
  hist : List Nat
  r : Frac
  g : Frac
  b : Frac
  luma : Frac
  cells : List (Option Frac)
  deriving DecidableEq, Repr

/-- The factor of normalised luma (R284). -/
def Expo.normFactor (e : Expo) : Frac := Frac.norm { num := 400000, den := e.eL * e.again }

/-- The statistics of zone z (R284 to R286). -/
def zoneStat (e : Expo) (quads outs : List (Nat × Nat × Frac)) (z : Nat) : ZoneStat :=
  let q := quads.filter (fun t => t.1 = z)
  let o := outs.filter (fun t => t.1 = z)
  let mean : Nat → Frac := fun c => Frac.mean ((o.filter (fun t => t.2.1 = c)).map (·.2.2))
  { hist := (List.range 256).map (fun b => (q.filter (fun t => min 255 (t.2.2.div (Frac.ofNat 128)).floor.toNat = b)).length),
    r := mean 0, g := mean 1, b := mean 2, luma := Frac.mean (q.map (·.2.2)),
    cells := (List.range 16).map (fun c =>
      let l := (q.filter (fun t => t.2.1 = c)).map (·.2.2)
      if l.isEmpty then none else some (e.normFactor.mul (Frac.mean l))) }

/-- The zone's motion from its cells and their references (R286). -/
def zoneMotion (cells : List (Option Frac)) (refs : List Frac) : Nat :=
  let parts := (cells.zip refs).map (fun p =>
    match p.1 with
    | some c => ((c.sub p.2).abs).div (Frac.max p.2 (Frac.ofNat 16))
    | none => Frac.ofNat 0)
  (min 255 ((Frac.ofNat 256).mul (Frac.mean parts)).round).toNat

/-- A cell's reference after the frame: r + (c − r) / 16, or c on a MOTION_INIT frame; a cell without a quad keeps it (R286). -/
def nextRef (init : Bool) (c : Option Frac) (r : Frac) : Frac :=
  match c with
  | none => r
  | some c => if init then c else r.add ((c.sub r).div (Frac.ofNat 16))

/-- π as a fraction (notes/assumptions/17.md). -/
def piFrac : Frac := { num := 3141592653589793, den := 1000000000000000 }

/-- The zone of the full window that holds the centre of zone z of a window: where F_z is looked up (R287; notes/assumptions/16.md). -/
def Expo.shadingZone (e : Expo) (z : Nat) : Nat :=
  let b := e.binFactor
  let zx := z % 20
  let zy := z / 20
  let cx := e.x0 + b * (zoneStart e.outW 20 zx + zoneStart e.outW 20 (zx + 1)) / 2
  let cy := e.y0 + b * (zoneStart e.outH 15 zy + zoneStart e.outH 15 (zy + 1)) / 2
  20 * (min 14 (cy / 80)) + min 19 (cx / 80)

/-- The illuminance of a zone in mlux (R287). -/
def illuminance (m : MfgItem) (e : Expo) (rho : Nat) (z : Nat) (luma : Frac) : Frac :=
  let fz : Frac := { num := m.shading.getD (e.shadingZone z) 1000, den := 1000 }
  let t : Frac := Frac.norm { num := e.eL, den := ticksPerSec }
  let l := (luma.mul fz).div (((Frac.ofNat m.kLin).mul t).mul (Frac.ofNat e.again))
  (((Frac.ofNat 100000).mul piFrac).mul l).div (Frac.ofNat rho)

/-- A value rounded to the nearest whole number after division by 2^k, halves up (R293). -/
def lfPart (v : Frac) (k : Nat) : Nat := (v.div (Frac.ofNat (2 ^ k))).round.toNat

/-- An LF16 field (R293). -/
def lf16 (v : Frac) : Nat :=
  match (List.range 16).find? (fun k => decide (lfPart v k ≤ 4095)) with
  | some k => 4096 * k + lfPart v k
  | none => 0xffff

/-- The daylight CCT from summed colour means; `none` where the result, before it is rounded to a whole kelvin, is not within 2,000 K to
12,000 K (R288; notes/assumptions/18.md, notes/assumptions/56.md). -/
def cctOf (matrix : List Int) (r g b : Frac) : Option Nat :=
  let row : Nat → Frac := fun k =>
    (((Frac.ofInt (matrix.getD (3 * k) 0)).mul r).add ((Frac.ofInt (matrix.getD (3 * k + 1) 0)).mul g)).add ((Frac.ofInt (matrix.getD (3 * k + 2) 0)).mul b)
  let total := ((row 0).add (row 1)).add (row 2)
  let x := (row 0).div total
  let y := (row 1).div total
  let d := (Frac.norm { num := 1858, den := 10000 }).sub y
  let n := (x.sub (Frac.norm { num := 3320, den := 10000 })).div d
  let n2 := n.mul n
  let v := ((((Frac.ofNat 449).mul (n2.mul n)).add ((Frac.ofNat 3525).mul n2)).add ((Frac.norm { num := 68233, den := 10 }).mul n)).add
    (Frac.norm { num := 552033, den := 100 })
  if total.isZero || d.isZero || v.lt (Frac.ofNat 2000) || (Frac.ofNat 12000).lt v then none else some v.round.toNat

/-! ### Illumination step (R294) -/

/-- The mean LIN of the G pixels of an output row; 0 of none (notes/assumptions/16.md). -/
def Slot.rowMean (x : Slot) (d : List Frac) (yo : Nat) : Frac :=
  Frac.mean (((List.range x.expo.outW).filter (fun xo => colourOf xo yo = 1)).filterMap (fun xo => x.out d xo yo))

/-- An illumination step lies at row y of the row means (R294). -/
def stepAt (m : List Frac) (y : Nat) : Bool :=
  let b := Frac.mean ((m.drop (y - 8)).take 8)
  let f := Frac.mean ((m.drop y).take 8)
  (Frac.max (Frac.ofNat 64) ((Frac.norm { num := 1, den := 4 }).mul (Frac.min f b))).lt ((f.sub b).abs)

/-- The first output row with an illumination step (R294). -/
def Slot.illumStep (x : Slot) (d : List Frac) : Option Nat :=
  let m := (List.range x.expo.outH).map (x.rowMean d)
  (List.range' 8 (x.expo.outH - 15)).find? (stepAt m)

/-- The lowest-numbered array row of an output row (R281, R294). -/
def Expo.arrayRow (e : Expo) (yo : Nat) : Nat := if e.bin = 2 then e.y0 + 8 * (yo / 2) + yo % 2 else e.rowOf yo

/-! ### The pixel port (R303) -/

/-- The pixels of one output row on PD[11:0] in a mode (R303); PROC puts out 0 for an excluded output pixel, for which no rule gives a
LIN (notes/assumptions/57.md). -/
def Slot.portRow (x : Slot) (d : List Frac) (y : Nat) : List Nat :=
  let r := x.read (x.readIndex 0 (x.expo.nOb + y))
  let raw := (List.range x.expo.w).map (fun c => r.sample (x.expo.x0 + c))
  if x.pix = 1 then raw.map (·.code)
  else if x.pix = 2 then raw.map (fun m => 2048 * b2n m.cg + m.code / 2)
  else if x.pix = 3 then (List.range x.expo.outW).map (fun xo => min 4095 (((x.out d xo y).getD (Frac.ofNat 0)).floor.toNat / 8))
  else []

/-- The reads that a row on the pixel port takes, those of every exposure for PROC, are among the first n of the slot. -/
def Slot.rowRead (x : Slot) (n y : Nat) : Bool :=
  let rows := if x.pix = 3 ∧ x.expo.binFactor = 4 then inputs 4 y else [y]
  rows.all (fun j => (List.range (if x.pix = 3 then x.expo.nexp else 1)).all (fun i => decide (x.readIndex i (x.expo.nOb + j) < n)))

/-- The rows of a slot on the pixel port: the long-exposure active reads made, or the output rows of PROC whose reads were made, up to
the instant at which the port was silenced; none where it was not exposed (R24, R46, R47, R303). -/
def Slot.portFrame (x : Slot) (d : List Frac) : List (List Nat) :=
  if x.te.isNone then []
  else
    let n := min x.reads.length (x.pixCut.getD x.reads.length)
    ((List.range (if x.pix = 3 then x.expo.outH else x.expo.nAct)).filter (x.rowRead n)).map (x.portRow d)

end Sys2Proof.Machine
end

