-- ==== Sys2Proof/Machine/CmdHost.lean ====
section
/-! DEFINITION. Commands of the thermal, host and DALI families: THERM_GET, PIX_PORT, DALI_CFG, DALI_GET (R462 to R465,
R576, R583, R585). -/

namespace Sys2Proof.Machine

/-- The estimated junction temperature in 0.01 °C: the highest site (R583). -/
def Thermal.estimate (t : Thermal) : Int := (t.sites.toList.foldl Frac.max t.sites[0]).round

/-- Freeboard in 0.01 °C (R585). -/
def Thermal.freeboard (t : Thermal) : Int := 11500 - t.estimate

/-- A signed 16-bit value. -/
def le16 (v : Int) : List Byte := leBytes 2 (wordOf 16 v)

/-- The broken-monitor map (R462, R588). -/
def Thermal.brokenMap (t : Thermal) : Nat := ((List.range 13).map (fun i => if t.broken.toList.getD i false then 2 ^ i else 0)).sum

/-- THERM_GET (R462). -/
def ownThermGet (e : QEntry) (s : State) : CmdOut :=
  let t := s.therm
  match (byteAt e.params 0).toNat with
  | 0 => doneOk (le16 t.freeboard ++ le16 t.estimate ++ leBytes 1 t.step ++ leBytes 1 0 ++ leBytes 2 t.brokenMap ++
      leBytes 2 t.moduleDraw ++ leBytes 4 s.wheel.pauseCount) s
  | 1 => doneOk ((t.sites.toList.map (fun x => le16 x.round)).flatten ++ le16 t.module.round) s
  | 2 => doneOk ((t.currents.toList.map (leBytes 2)).flatten) s
  | _ => refuse .badParam s

def cmdThermGet : QEntry → State → CmdOut :=
  checked { issuer := .owner, states := cf, plenOk := (· == 1), reserved := fun _ => [] } ownThermGet

/-- PIX_PORT (R58, R304, R463). -/
def ownPixPort (e : QEntry) (s : State) : CmdOut :=
  let m := (byteAt e.params 0).toNat
  let x := s.pol owner
  if 3 < m then refuse .badParam s
  else if !s.lands.straps.commissionLow || !s.lands.commissionStays then refuse .notPermitted s
  else if !pixPortOk m x.expo || !pixPortOk m (x.shadow.getD x.expo) then refuse .noResource s
  else doneAt (s.settingFrame owner) [] { s with lands := { s.lands with pixNext := some m } }

def cmdPixPort : QEntry → State → CmdOut :=
  checked { issuer := .owner, states := [.commission], plenOk := (· == 1), reserved := fun _ => [] } ownPixPort

/-- A DALI area value names an area of the sender, or is off (R464). -/
def areaOk (areas : Nat) (v : Byte) : Bool := v == 0xff || decide (v.toNat < areas)

/-- DALI_CFG (R464). -/
def ownDaliCfg (e : QEntry) (s : State) : CmdOut :=
  let n := (s.pol e.req.pol).charter.selection.areas.length
  let occ := byteAt e.params 0
  let light := byteAt e.params 1
  if !areaOk n occ || !areaOk n light then refuse .badParam s
  else commitThen 0x13 { status := .ok, effectFrame := none, results := [] } s
    (fun s => s.requestItem e.req.pol (.dali { s.daliWanted with occArea := occ, lightArea := light }))

def cmdDaliCfg : QEntry → State → CmdOut :=
  checked { issuer := .bound, states := cf, plenOk := (· == 2), reserved := fun _ => [] } ownDaliCfg

/-- DALI_GET: the item as last requested, which is what the node acts on (R465, R554). -/
def ownDaliGet (_ : QEntry) (s : State) : CmdOut :=
  let d := s.daliWanted
  doneOk [d.occArea, d.lightArea, d.shortAddr, BitVec.ofNat 8 (b2n s.dali.busDown)] s

def cmdDaliGet : QEntry → State → CmdOut :=
  checked { issuer := .bound, states := cf, plenOk := (· == 0), reserved := fun _ => [] } ownDaliGet

/-- THERM_GET as a command row. -/
def execThermGet (r : Req) (params : List Byte) (s : State) : Host.Outcome State Fault Refusal :=
  .next (runCommand 0xA0 cmdThermGet r params s)

/-- PIX_PORT as a command row. -/
def execPixPort (r : Req) (params : List Byte) (s : State) : Host.Outcome State Fault Refusal :=
  .next (runCommand 0xB0 cmdPixPort r params s)

/-- DALI_CFG as a command row. -/
def execDaliCfg (r : Req) (params : List Byte) (s : State) : Host.Outcome State Fault Refusal :=
  .next (runCommand 0xB1 cmdDaliCfg r params s)

/-- DALI_GET as a command row. -/
def execDaliGet (r : Req) (params : List Byte) (s : State) : Host.Outcome State Fault Refusal :=
  .next (runCommand 0xB2 cmdDaliGet r params s)

end Sys2Proof.Machine
end

