-- ==== Sys2Proof/Machine/Throttle.lean ====
section
/-! DEFINITION. The throttle: target step, step in force, pauses (R589 to R592). -/

namespace Sys2Proof.Machine

/-- The target step of an estimate in 0.01 °C (R589). -/
def targetStep (e : Int) : Nat := if e < 10500 then 0 else min 6 (((e - 10500) / 200).toNat + 1)

/-- The lowest estimate of a step (R589). -/
def stepLow (step : Nat) : Int := 10300 + 200 * (step : Int)

/-- The step in force after a decision (R590). -/
def nextStep (e : Int) (step : Nat) : Nat :=
  if step < targetStep e then targetStep e
  else if targetStep e < step ∧ e < stepLow step - 100 then step - 1
  else step

/-- Pauses after a revolution (R589). -/
def pausesOf (step : Nat) : Nat := if step = 0 then 0 else if 5 ≤ step then 16 else 2 ^ (step - 1)

/-- Line skip level (R589). -/
def skipOf (step : Nat) : Nat := if step = 0 then 0 else if step ≤ 2 then 1 else if step = 3 then 2 else 3

/-- Service rounds between two page-program starts of the owner; 0 without a limit (R589, R593). -/
def programGap (step : Nat) : Nat := if step = 0 then 0 else min 16 (2 ^ step)

/-- The throttle decision: the step in force, and EV_THROTTLE where it changes (R590, R596). -/
def State.decideStep (s : State) : State :=
  let e := s.therm.estimate
  let old := s.therm.step
  let new := nextStep e old
  if new = old then s
  else
    ({ s with therm := { s.therm with step := new } } : State).ownerEvent 0x004E
      (leBytes 1 old ++ leBytes 1 new ++ leBytes 2 0 ++ le16 e ++ le16 (11500 - e))

/-- Pauses are inserted: counted, and marked on every polder that receives records (R462, R591). -/
def State.insertPauses (n : Nat) (s : State) : State :=
  if n = 0 then s
  else
    ({ s with wheel := { s.wheel with pauses := n, pauseCount := (s.wheel.pauseCount + n) % 2 ^ 32 } } : State).mapPols
      (fun _ q => { q with throttled := q.throttled || q.state == .active || q.state == .dissolving })

/-- The decision at a revolution boundary with the wheel turning on (R589, R591). -/
def State.decideBoundary (s : State) : State :=
  let s := s.decideStep
  s.insertPauses (pausesOf s.therm.step)

/-- The decision at the end of the pauses of step 6: further pauses while step 6 holds, else the next revolution turns
(R591). -/
def State.decideAgain (s : State) : State :=
  let s := s.decideStep
  if s.therm.step = 6 then s.insertPauses 16 else s

end Sys2Proof.Machine
end

