-- ==== Sys2Proof/Machine/WheelSlot.lean ====
section
/-! DEFINITION. The frame wheel and the imaging-control lands: WHEEL_SLOT_START, EXPOSURE_START, TRIGGER_DEADLINE, SLOT_END,
TRIG_IN_EDGE, TRIG_REFRACTORY_END, SYNC_IN_EDGE, SYNC_PERIOD_MISSING, COMMISSION_N_RISE (R30 to R37, R58, R180 to R210,
R316, R329, R591). -/

namespace Sys2Proof.Machine

/-! ### Phase points (R202 to R210) -/

/-- A phase point: the first of the points edge + PHASE × P / 360° + k × lock period + LOCK_DELAY at or after an instant
(R202). -/
def phasePoint (e : Expo) (edge : Int) (period : Nat) (at_ : Int) : Int :=
  let l := period / e.lockDiv
  let base := edge + ((2 * period * e.phase + 3) / 6 : Nat) + (e.lockDelay : Int)
  if l = 0 then at_ else at_ + (base - at_).emod (l : Int)

/-- The clock in which the edges of a lock source are kept: fabric time for BEACON, elapsed ticks for LOCAL (R128, R527). -/
def LockSrc.clockNow (src : LockSrc) (s : State) : Int :=
  match src with
  | .beacon => s.clock.tb.ticks
  | _ => s.clock.elapsed

/-- The lock reference a slot takes at its start (R208, R209); whether it runs free is decided there, and a loss declared between the slot
start and T_E changes nothing in the slot (notes/assumptions/58.md). -/
def State.lockRefNow (s : State) (src : LockSrc) : Option LockRef :=
  let y := s.lands.sync
  let b := s.lands.beaconPhase
  match src with
  | .none => none
  | .localSync => if y.validPeriod = 0 then none else some { edge := y.validAt, fabric := false, period := y.validPeriod, free := y.lost }
  | .beacon => if b.everValid then some { edge := b.edge.ticks, fabric := true, period := b.period, free := !b.valid } else none

/-- The step of EV_SYNC_OK: the first restored phase point at or after now, less the free-running point nearest to it, the
earlier of two equally near (R210). -/
def lockStep (e : Expo) (old new : Nat × Nat) (now : Int) : Int :=
  let nr := phasePoint e new.1 new.2 now
  let fr := phasePoint e old.1 old.2 nr
  let l : Int := (old.2 / e.lockDiv : Nat)
  let fr := if fr ≠ nr ∧ nr - (fr - l) ≤ fr - nr then fr - l else fr
  max (-2147483648) (min 2147483647 (nr - fr))

/-- EV_SYNC_LOST for each polder whose lock uses the source (R210). -/
def State.syncLostEvents (src : LockSrc) (s : State) : State :=
  (List.finRange 8).foldl (fun s p => if (s.pol p).expo.lock = src then s.event p 0x0010 (leBytes 1 src.code) else s) s

/-- EV_SYNC_OK for each polder whose lock uses the source, with its step (R210). -/
def State.syncOkEvents (src : LockSrc) (old new : Nat × Nat) (s : State) : State :=
  (List.finRange 8).foldl (fun s p =>
    if (s.pol p).expo.lock = src then
      s.event p 0x0011 (leBytes 1 src.code ++ leBytes 3 0 ++
        leBytes 4 (wordOf 32 (lockStep (s.pol p).expo old new (src.clockNow s))))
    else s) s

/-! ### Revolutions -/

/-- A PWR_SET waits at its step 1 for the revolution boundary to stop the wheel (R146). -/
def State.entryStops (s : State) : Bool :=
  match s.power.entry with
  | some e => e.step == 1 && s.wheel.turning && (lowers s.power.doms e.target).any (· ≤ 4)
  | none => false

/-- A PIPE or STAT block is marked unusable (R623, R664). -/
def State.imagingBroken (s : State) : Bool := bits s.bist.unusable.toNat 5 2 != 0

/-- A dissolution whose boundary has come takes effect: its slots are free (R329, R331, R332). -/
def passDissolution (now : W32) (tb : Tb) (q : Polder) : Polder :=
  match q.gone with
  | some g => if !g.passed && !frameLater g.boundary now then { q with gone := some { g with passed := true, tb := tb } } else q
  | none => q

/-- Every dissolution whose boundary has come takes effect. -/
def State.passDissolutions (s : State) : State := s.mapPols (fun _ q => passDissolution s.wheel.nextFrame s.clock.tb q)

/-- The polder's slots turn for it: ACTIVE, or DISSOLVING before its boundary (R316, R329). -/
def Polder.turns (q : Polder) : Bool :=
  q.state == .active || (q.state == .dissolving && (match q.gone with
    | some g => !g.passed
    | .none => true))

/-- The wheel stops at a revolution boundary: EV_WHEEL_STOP, pending triggers dropped, dissolutions due there take effect, the
trim table is written where due, a throttle decision without pauses (R35, R146, R196, R272, R589). -/
def State.stopWheel (s : State) : State :=
  let last := s.lastFrame
  let s := ({ s with wheel := { s.wheel with turning := false, stopRequested := false, pauses := 0 } } : State).eventAll 0x0001
    (leBytes 4 last.toNat)
  let s := s.mapPols (fun _ q =>
    { q with trigPending := none, trigDropped := if q.trigPending.isSome then sat16 q.trigDropped else q.trigDropped })
  let s := { s with cols := { s.cols with restartDue := true } }
  s.passDissolutions.writeTrims.decideStep

/-- The wheel starts: EV_WHEEL_START to each polder with the first frame number, hold timers add nothing at the next
evaluation, MAXDIFF is 0, and a ramp calibration is due; nothing while a PIPE or STAT block is unusable (R35, R231, R260, R291,
R623). -/
def State.startWheel (s : State) : State :=
  if s.wheel.turning || s.imagingBroken then s
  else
    let s := s.eventAll 0x0002 (leBytes 4 s.wheel.nextFrame.toNat)
    let s := s.mapPols (fun _ q => { q with holdFresh := true })
    { s with wheel := { s.wheel with turning := true, pauses := 0, stopRequested := false },
             cols := { s.cols with restartDue := true, groups := s.cols.groups.map (fun g => { g with maxDiff := 0, runMax := 0, diffCount := 0 }) } }

/-- Blocks with uncorrectable words in three slots of the revolution are marked unusable at its boundary (R664). -/
def State.markBlocks (s : State) : State :=
  let worn := (List.range 12).foldl (fun m b => if 3 ≤ s.bist.faultSlots.toList.getD b 0 then m + 2 ^ b else m) 0
  { s with bist := { s.bist with unusable := s.bist.unusable ||| BitVec.ofNat 16 worn, faultSlots := Vector.replicate 12 0 } }

/-- The end of a revolution: jobs end and trims settle; then the wheel stops where a PIPE or STAT block has become unusable or a
stop is due, or the throttle decides on pauses; a PWR_SET that waits stops the wheel itself (R146, R222, R589, R664). -/
def State.endRevolution (s : State) : State :=
  let s := { s with cols := (s.cols.endRevolution (revolutionNo s.lastFrame)).countRevolution }
  let s := s.markBlocks
  if s.imagingBroken then s.stopWheel
  else if s.entryStops then s
  else if s.wheel.stopRequested then s.stopWheel
  else s.decideBoundary

/-- The fabric period a FABRIC node has heard and does not hold: adopted where no tenant exists and the owner's sets fit, else
reported once for each value (R448). -/
def State.adoptPeriod (s : State) : State :=
  let v := s.fabricWanted.fabPeriod
  let q := s.pol owner
  if !s.arr.fabric.periodFabric || !periodInRange v || v = s.wheel.period then s
  else if s.tenantExists || !q.expo.fits v || !(q.shadow.getD q.expo).fits v then
    if s.wheel.heldPeriods.contains v then s
    else
      ({ s with wheel := { s.wheel with heldPeriods := v :: s.wheel.heldPeriods } } : State).ownerEvent 0x0046
        (leBytes 1 (if s.tenantExists then 1 else 2) ++ leBytes 3 0 ++ leBytes 4 v)
  else
    ({ s with wheel := { s.wheel with period := v } } : State).requestItem owner (.wheel { s.wheelWanted with period := v })

/-- A polder whose pending charter takes effect while its last frame is in the fork leaves that frame the machines it is evaluated with
(R289, R312). -/
def State.keepMachines (s : State) : State :=
  { s with wheel := { s.wheel with fork := s.wheel.fork.map (fun d =>
      if (s.pol d.holder).charterNext.isSome then { d with machines := some (d.machines.getD (s.pol d.holder).occ) } else d) } }

/-- A pending charter takes effect; the occupancy machines restart in VACANT with it (R312, R405). -/
def Polder.takeCharter (q : Polder) : Polder :=
  match q.charterNext with
  | some c => { q with charter := c, charterNext := .none, occ := Vector.replicate 4 { state := 0, count := 0, hold := 0 } }
  | .none => q

/-- The start of a revolution: pending charters, periods and schedules apply, dissolutions take effect, the holders of the 16
slots are set, the trim table is written where due (R34, R272, R312, R316, R329, R401, R405, R410). -/
def State.beginRevolution (s : State) : State :=
  let s := s.writeTrims
  let s := s.passDissolutions
  let s := s.keepMachines.mapPols (fun _ q => q.takeCharter)
  let s := { s with wheel := { s.wheel with period := s.wheel.periodNext.getD s.wheel.period, periodNext := none } }
  let s := s.adoptPeriod
  let holders := Vector.ofFn (fun i : Fin 16 =>
    (List.finRange 8).find? (fun p => (s.pol p).turns && (s.pol p).charter.slots.toNat.testBit i.val))
  let sched := s.cols.scheduleNext.getD (s.cols.rampInterval, s.cols.rampSlot)
  { s with wheel := { s.wheel with holders := holders },
           cols := { s.cols with rampInterval := sched.1, rampSlot := sched.2, scheduleNext := none } }

/-! ### Slots -/

/-- EV_FRAME_RESERVE for the first uncovered frame of a run and for the first covered one after it (R674). -/
def State.announceCover (f : W32) (s : State) : State :=
  let covered := frameLater (BitVec.ofNat 32 s.wheel.fR) f
  let tell : Nat → State → State := fun state s =>
    (List.finRange 8).foldl (fun s p =>
      if (s.pol p).state = .active then s.event p 0x0054 (leBytes 1 state ++ leBytes 3 0 ++ leBytes 4 f.toNat) else s) s
  if !covered && !s.wheel.announcedUncovered then
    tell 1 { s with wheel := { s.wheel with announcedUncovered := true, uncovered := true } }
  else if covered && s.wheel.uncovered then tell 2 { s with wheel := { s.wheel with uncovered := false } }
  else s

/-- The calibration parts a frame runs: those due again, those of an accepted CAL_RUN, and the scheduled RAMP (R256, R260, R261,
R263, R668). -/
def State.calPartsAt (s : State) (f : W32) : Option CalParts :=
  let redo := s.cols.calRedo
  let run := if s.cols.calStarted || frameLater s.cols.calFrame f then none else s.cols.calRun
  let due := s.rampDueFrom f f
  let ramp := due || run.any (·.ramp) || redo.any (fun r => r.parts.ramp && !r.rampDone)
  let columns := run.any (·.columns) || redo.any (fun r => r.parts.columns && !r.columnsDone)
  if ramp || columns then some { ramp := ramp, columns := columns } else none

/-- The report a calibration slot starts with: fresh, or what stands of the one cut short; an expired lease undoes this slot's results
alone (R264, R267, R668). -/
def State.newReport (s : State) (p : CalParts) : CalReport :=
  match s.cols.calRedo with
  | some r => { r with parts := { ramp := r.parts.ramp || p.ramp, columns := r.parts.columns || p.columns },
                       rampDone := r.rampDone && !p.ramp, columnsDone := r.columnsDone && !p.columns,
                       old := (s.cols.slopeA, s.cols.slopeB, s.cols.quality) }
  | none => { parts := p, rampResA := 0, rampReasonA := 0, rampResB := 0, rampReasonB := 0, accepted := 0, rejected := 0,
              rejectList := [], expired := false, rampDone := false, columnsDone := false,
              old := (s.cols.slopeA, s.cols.slopeB, s.cols.quality) }

/-- Window and BIN of a settings set (R286). -/
def Expo.frameKey (e : Expo) : Nat × Nat × Nat × Nat × Nat := (e.x0, e.w, e.y0, e.h, e.bin)

/-- The holder's shadow takes effect at its slot start; a pending trigger goes with a change to non-triggered settings, and a change of
window or BIN makes the next STATS frame a MOTION_INIT frame (R37, R189, R196, R286). -/
def applyShadow (f : W32) (q : Polder) : Polder :=
  match q.shadow with
  | some e =>
    if frameLater q.shadowFrame f then q
    else
      let marks := if e.frameKey = q.expo.frameKey then q.initFrom else q.initFrom ++ [f]
      if !e.triggered && q.trigPending.isSome then
        { q with expo := e, shadow := none, initFrom := marks, trigPending := none, trigDropped := sat16 q.trigDropped }
      else { q with expo := e, shadow := none, initFrom := marks }
  | none => q

/-- The pixel port at a slot start: a disable acts at every frame boundary, a new mode at the owner's next slot (R58, R463). -/
def State.pixBoundary (ownerSlot : Bool) (s : State) : State :=
  let l := s.lands
  if l.pixDisable then { s with lands := { l with pixDisable := false, pixMode := 0, pixNext := none } }
  else if ownerSlot then { s with lands := { l with pixMode := l.pixNext.getD l.pixMode, pixNext := none } }
  else s

/-- A slot without exposure, readout or record (R31). -/
def State.emptySlot (s : State) (f : W32) : Slot :=
  { frame := f, holder := none, charter := Charter.none, expo := Expo.initial, startTb := s.clock.tb, startAt := s.clock.elapsed, trig := none,
    deadlinePassed := false, te := none, teAt := 0, lockRef := none, lockState := .none, cal := none, calRep := none,
    throttled := false, voidReason := none, checked := false, reads := [], repairs := [], readsDone := false,
    mapFull := s.cols.mapFull, faultBlocks := 0, pix := 0, pixCut := none }

/-- The converters' calibration as a calibration slot of frame f begins: parts due again have their slot; an accepted CAL_RUN whose slot has
come is in progress, and where its parts were due again this is its slot (R261, R668). -/
def Columns.beginCal (f : W32) (k : Columns) : Columns :=
  let mine := if k.calStarted then k.calRedo.isSome else k.calRun.isSome && !frameLater k.calFrame f
  { k with calRedo := none, calStarted := k.calStarted || mine, calFrame := if mine then f else k.calFrame }

/-- The slot of polder p begins with the settings in force, consuming a pending trigger where they are triggered (R180, R194,
R195, R256). -/
def State.openSlot (p : PolId) (f : W32) (cal : Option CalParts) (s : State) : State :=
  let q := s.pol p
  let trig := if q.expo.triggered then q.trigPending.map (fun t => { t with at_ := s.clock.elapsed }) else none
  let x : Slot := { s.emptySlot f with
    holder := some p, charter := q.charter, expo := q.expo, trig := trig, lockRef := s.lockRefNow q.expo.lock, cal := cal,
    calRep := cal.map s.newReport, throttled := q.throttled,
    voidReason := if s.clock.hold.isSome then some 4 else if cal.isSome then some 2 else none,
    pix := if p = owner && s.pixEnabled && cal.isNone then s.lands.pixMode else 0 }
  let s := s.modPol p (fun q => { q with throttled := false, trigPending := if trig.isSome then none else q.trigPending })
  let cols := s.cols
  { s with
    wheel := { s.wheel with slot := some x, lastSlotFrame := s.wheel.lastSlotFrame.set p (some f) },
    clock := { s.clock with hold := s.clock.hold.map (fun h => { h with voided := h.voided + 1 }) },
    cols := if cal.isSome then cols.beginCal f
            else if s.clock.hold.isSome && p == owner && cols.measured.isNone then { cols with measured := some f }
            else cols }

/-- The first RAMP_SLOT slot after the wheel's start has come, whatever the schedule (R260). -/
def State.passRestart (f : W32) (s : State) : State :=
  if s.rampSlotAt f then { s with cols := { s.cols with restartDue := false } } else s

/-- The holder's slot, or an empty one where nobody holds it or the holder's settings do not fit (R31, R182). -/
def State.turnSlot (f : W32) (s : State) : State :=
  match s.wheel.holders.toList.getD (slotIndex f) none with
  | none => { s with wheel := { s.wheel with slot := some (s.emptySlot f) } }
  | some p =>
    let cal := if p = owner then s.calPartsAt f else none
    let s := s.pixBoundary (p = owner && cal.isNone)
    let s := if cal.isSome then s else s.modPol p (applyShadow f)
    if cal.isNone && !(s.pol p).expo.fits s.wheel.period then { s with wheel := { s.wheel with slot := some (s.emptySlot f) } }
    else s.openSlot p f cal

/-- A wheel slot can start: the wheel turns, no slot or pause is in progress, and no PWR_SET stops the wheel here. -/
def State.slotDue (s : State) : Bool :=
  s.wheel.turning && s.wheel.slot.isNone && s.wheel.pauses == 0 && !(s.wheel.nextFrame.toNat % 16 == 0 && s.entryStops)

/-- Each slot starts its differing-read counts afresh (R229). -/
def Group.freshCount (g : Group) : Group := { g with diffCount := 0 }

/-- WHEEL_SLOT_START: accepted COLUMNS codes and a new revolution's changes apply, and the next frame number is issued to the slot (R30,
R34, R37, R247, R316, R673, R674). -/
def State.startSlot (s : State) : State :=
  let s := s.applyColumns
  let s := if s.wheel.nextFrame.toNat % 16 = 0 then s.beginRevolution else s
  let f := s.wheel.nextFrame
  let s := { s with wheel := { s.wheel with nextFrame := f + 1, slotTb := s.clock.tb },
                    lands := { s.lands with strobe := false } }
  let s := if s.lands.pixDisable then s.pixBoundary false else s
  let s := { s with cols := { s.cols with groups := s.cols.groups.map Group.freshCount } }
  (((s.turnSlot f).passRestart f).announceCover f).reserveFrames

/-- WHEEL_SLOT_START. -/
def execWheelSlotStart (s : State) : Host.Outcome State Fault Refusal := .next (if s.slotDue then s.startSlot else s)

/-- T_E of a slot: elapsed ticks, time base and lock state, from the unlocked start, the trigger and the phase points (R180,
R181, R193, R203, R204). -/
def State.exposureStart (s : State) (x : Slot) : Nat × Tb × LockState :=
  let byTrigger := match x.trig with
    | some t => t.at_ + 4096
    | none => 0
  let te0 := max (x.startAt + x.expo.teMin) byTrigger
  let tb0 : Int := (s.clock.tb.ticks : Int) + te0 - s.clock.elapsed
  let (wait, lock) : Nat × LockState :=
    match x.lockRef with
    | none => (0, .none)
    | some r =>
      let base : Int := if r.fabric then tb0 else te0
      let w := (phasePoint x.expo r.edge r.period base - base).toNat
      if x.expo.aLock < w then (x.expo.aLock, .missed) else (w, if r.free then .free else .locked)
  (te0 + wait, Tb.ofTicks ((tb0 + wait).emod tbRange).toNat, lock)

/-- The exposure of a slot can start: held, not displaced, not voided by a clock fault, its trigger accepted (R193, R256, R668). -/
def Slot.exposes (x : Slot) : Bool :=
  x.holder.isSome && x.cal.isNone && x.te.isNone && x.voidReason != some 4 && (!x.expo.triggered || x.trig.isSome)

/-- EXPOSURE_START: T_E is stamped, and STROBE_OUT rises where the slot's polder holds it (R180, R193, R201, R203). -/
def execExposureStart (s : State) : Host.Outcome State Fault Refusal :=
  .next (
    match s.wheel.slot with
    | some x =>
      if x.exposes && s.clock.hold.isNone then
        let (te, tb, lock) := s.exposureStart x
        { s with wheel := { s.wheel with slot := some { x with te := some tb, teAt := te, lockState := lock } },
                 lands := { s.lands with strobe := x.voidReason.isNone && x.holder == some (s.bindHolder 3) } }
      else s
    | none => s)

/-- TRIGGER_DEADLINE: later triggers become the pending trigger (R193, R194). -/
def execTriggerDeadline (s : State) : Host.Outcome State Fault Refusal :=
  .next { s with wheel := { s.wheel with slot := s.wheel.slot.map (fun x => if x.expo.triggered then { x with deadlinePassed := true } else x) } }

/-- Every part of a calibration slot has ended (R257, R264). -/
def CalReport.finished (r : CalReport) : Bool := r.expired || ((!r.parts.ramp || r.rampDone) && (!r.parts.columns || r.columnsDone))

/-- The work of a slot is over, so that it may end (R180, R195, R257, R668). -/
def Slot.over (x : Slot) : Bool :=
  x.holder.isNone || x.voidReason == some 4 || x.calRep.any CalReport.finished ||
  (x.cal.isNone && (x.readsDone || (x.expo.triggered && x.trig.isNone)))

/-- The slot as its record sees it: without an accepted trigger it is void with reason NO_TRIGGER (R195). -/
def Slot.ended (x : Slot) : Slot :=
  { x with voidReason := match x.voidReason with
      | some r => some r
      | none => if x.te.isNone then some 1 else none }

/-- The four tag words of a slot, with 0 for one that has reads, else its VOID reason (R277). -/
def Slot.tagWords (x : Slot) (reason : Nat) : List W16 :=
  let e := x.expo
  [x.frame.setWidth 16, BitVec.ofNat 16 (x.frame.toNat / 65536),
   BitVec.ofNat 16 ((x.holder.getD owner).val + 8 * e.bin + 32 * b2n e.depth10 + 64 * e.nexp), BitVec.ofNat 16 reason]

/-- The sample bus at the end of a slot: a held slot without a read raises FRAME_VALID there and gives its tag; it is low again at the end
of the step (R277; notes/assumptions/61.md). -/
def Slot.endBus (x : Slot) (b : SampleBus) : SampleBus :=
  if x.holder.isSome && x.reads.isEmpty then { b with frameValid := false, tag := x.tagWords (x.voidReason.getD 0) }
  else { b with frameValid := false }

/-- What the pixel port put out in a slot, shown as a whole at its end (R24, R303; notes/assumptions/29.md); the free values of its
dark levels are drawn. -/
def State.showPixels (x : Slot) (s : State) : State :=
  { s with freeCtr := s.freeCtr + 24, lands := { s.lands with pixFrame := x.portFrame (x.darks s.freeCtr) } }

/-- SLOT_END: the slot goes to the fork, STROBE_OUT is low, and a revolution may end (R180, R195, R201, R277); what a clock fault cut
short of a calibration is due again (R668). -/
def execSlotEnd (s : State) : Host.Outcome State Fault Refusal :=
  .next (
    match s.wheel.slot with
    | some x =>
      if x.over && s.wheel.fork.isNone then
        let cut := x.voidReason == some 4 && x.calRep.any (fun r => !r.finished)
        let y := if cut then { x.ended with calRep := none } else x.ended
        let s := { s with wheel := { s.wheel with slot := none, bus := x.ended.endBus s.wheel.bus, fork := x.holder.map (fun p => { slot := y, holder := p, machines := none }) },
                          cols := if cut then { s.cols with calRedo := x.calRep } else s.cols,
                          lands := { s.lands with strobe := false } }
        let s := if x.pix = 0 then s else s.showPixels x
        (if s.wheel.nextFrame.toNat % 16 = 0 then s.endRevolution else s).issueAll
      else s
    | none => s)

/-! ### Imaging-control lands -/

/-- A TRIG_IN edge inside the refractory period is counted (R196, R198). -/
def State.countEdge (p : PolId) (s : State) : State :=
  s.modPol p (fun q =>
    if s.wheel.turning && q.expo.triggered then { q with trigOverrun := sat16 q.trigOverrun } else { q with trigDropped := sat16 q.trigDropped })

/-- TRIG_IN_EDGE, the instant of an edge that the level filter has accepted, less the filter's delay (R72, R157, R161, R192, R196 to R200;
notes/assumptions/59.md). -/
def execTrigInEdge (s : State) : Host.Outcome State Fault Refusal :=
  .next (
    let p := s.bindHolder 1
    if !s.landsFree then s
    else if s.lands.refractory then s.countEdge p
    else
      let s : State := { s with lands := { s.lands with refractory := true } }
      let woke := s.power.wakeEn.toNat.testBit 4 && p == owner
      (if woke then s.latchWake 4 else s).wakeTrigger woke p .trigIn)

/-- TRIG_REFRACTORY_END (R198). -/
def execTrigRefractoryEnd (s : State) : Host.Outcome State Fault Refusal := .next { s with lands := { s.lands with refractory := false } }

/-- SYNC_LOST is declared (R207, R210). -/
def State.loseSync (s : State) : State :=
  let y := s.lands.sync
  ({ s with lands := { s.lands with sync := { y with lost := true, agreeRun := 0, measured := y.validPeriod, prev := none } } } : State).syncLostEvents
    .localSync

/-- One more period missing or not valid; three in a row declare SYNC_LOST (R207). -/
def State.badPeriod (s : State) : State :=
  let y := s.lands.sync
  let s := { s with lands := { s.lands with sync := { y with badRun := y.badRun + 1 } } }
  if 3 ≤ y.badRun + 1 then s.loseSync else s

/-- A period of p ticks is valid against the previous valid one (R206). -/
def periodValid (p prev : Nat) : Bool :=
  decide (200000 ≤ p) && decide (p ≤ 10000000) && (prev == 0 || decide (10 * ((p : Int) - prev).natAbs ≤ prev))

/-- A SYNC_IN period measured while SYNC_LOST does not hold (R206, R207). -/
def State.syncPeriod (p : Nat) (s : State) : State :=
  let y := s.lands.sync
  if periodValid p y.validPeriod then
    { s with lands := { s.lands with sync := { y with validPeriod := p, validEdge := s.clock.tb, validAt := s.clock.elapsed, badRun := 0 } } }
  else s.badPeriod

/-- A SYNC_IN period measured under SYNC_LOST: three valid periods in a row that each agree with the one before within 1 % end
it (R208, R210). -/
def State.lostPeriod (p : Nat) (s : State) : State :=
  let y := s.lands.sync
  let ok := periodValid p y.measured
  let agrees := ok && y.prev.any (fun v => decide (100 * ((p : Int) - v).natAbs ≤ v))
  let n := if agrees then y.agreeRun + 1 else 0
  let y' : SyncIn := { y with measured := if ok then p else y.measured, prev := if ok then some p else none, agreeRun := n }
  if n < 3 then { s with lands := { s.lands with sync := y' } }
  else
    ({ s with lands := { s.lands with sync := { y' with lost := false, badRun := 0, agreeRun := 0, validPeriod := p, validEdge := s.clock.tb,
                                                        validAt := s.clock.elapsed } } } : State).syncOkEvents
      .localSync (y.validAt, y.validPeriod) (s.clock.elapsed, p)

/-- SYNC_IN_EDGE, an edge that the level filter has accepted (R72, R200, R206 to R208; notes/assumptions/59.md). -/
def execSyncInEdge (s : State) : Host.Outcome State Fault Refusal :=
  .next (
    let y := s.lands.sync
    let mark : State → State := fun s =>
      { s with lands := { s.lands with sync := { s.lands.sync with lastEdge := some s.clock.elapsed, missingRun := 0 } } }
    if !s.landsFree then s
    else
      match y.lastEdge with
      | none => mark s
      | some e =>
        if y.missingRun ≠ 0 then mark { s with lands := { s.lands with sync := { y with agreeRun := 0, prev := none } } }
        else mark (if y.lost then s.lostPeriod (s.clock.elapsed - e) else s.syncPeriod (s.clock.elapsed - e)))

/-- SYNC_PERIOD_MISSING (R207). -/
def execSyncPeriodMissing (s : State) : Host.Outcome State Fault Refusal :=
  .next (
    let y := s.lands.sync
    if y.validPeriod = 0 ∨ y.lastEdge.isNone then s
    else
      let s := { s with lands := { s.lands with sync := { y with missingRun := y.missingRun + 1, agreeRun := 0, prev := none } } }
      if y.lost then s else s.badPeriod)

/-- COMMISSION_N_RISE (R58). -/
def execCommissionNRise (s : State) : Host.Outcome State Fault Refusal :=
  .next (if s.landsFree then { s with lands := { s.lands with commissionStays := false, pixDisable := true } } else s)

end Sys2Proof.Machine
end

