-- ==== Sys2Proof/Machine/PowerEv.lean ====
section
/-! DEFINITION. Domain entry, domain return, operating points and wakes: POWER_ENTRY_STEP, RETURN_STEP_READY,
REPLY_CARRIED_TIMEOUT, OP_POINT_VOLTAGE_READY, WAKE_EVENT, WAKE_MATCH, I2C_ADDR_MATCH, WAKE_N_FALL (R134 to R170). -/

namespace Sys2Proof.Machine

/-! ### Lowering and returning one domain (R135, R154, R243) -/

/-- The state of domain n is set. -/
def Power.setDom (n : Nat) (d : DomState) (p : Power) : Power := { p with doms := p.doms.mapIdx (fun i x => if i + 1 = n then d else x) }

/-- A line port that loses everything but its counters (R135, R497, R509). -/
def LinePort.off (l : LinePort) : LinePort := { LinePort.initial with counters := l.counters, skip := l.skip }

/-- The occupancy machines and motion references of a polder start afresh, without EV_OCC (R135, R622). -/
def Polder.freshStat (q : Polder) : Polder :=
  { q with occ := Vector.replicate 4 { state := 0, count := 0, hold := 0 }, lastEval := .none, motionInit := true }

/-- An item write cut by the lowering of NVM starts again from its first page (R556). -/
def ItemWrite.again (w : ItemWrite) : ItemWrite := { w with started := false, pagesLeft := itemPages w.value.item }

/-- TCM as loaded from the running image: its TCM_LEN body bytes; nothing is known of it where the image's header is not known (R155, R565,
R567; notes/assumptions/63.md). -/
def ArrayS.tcmImage (a : ArrayS) : List Host.Cell :=
  let c := (if a.running = 0 then a.fw0 else a.fw1).content
  if leNat (cellsReadList c 0 4) = 0x5A4E3136 then
    let n := min 65536 (min (leNat (cellsReadList c 12 4)) (leNat (cellsReadList c 8 4)))
    (List.range n).zip (cellsReadList c 64 n)
  else []

/-- Domain n is lowered to RET or OFF, with what it loses (R47, R88, R135, R556). -/
def State.lowerDomain (n : Nat) (d : DomState) (s : State) : State :=
  let s := { s with power := s.power.setDom n d }
  let off := d == .off
  match n with
  | 6 => if off then s.mapPols (fun _ q => q.freshStat) else s.mapPols (fun _ q => { q with holdFresh := true })
  | 7 => if off then { s with jtag := { s.jtag with tcm := [] } } else s
  | 8 => if off then { s with pols := Vector.replicate 8 Polder.none, ka := none } else s
  | 9 => if off then s.modPort .a LinePort.off else s
  | 10 => if off then s.modPort .b LinePort.off else s
  | 11 => { s with holdup := { s.holdup with charger := false, deadlineOpen := false, holding := false },
                   arr := { s.arr with writes := s.arr.writes.map ItemWrite.again, heldJobs := s.arr.heldJobs.filter (fun j => j.2 != .item) } }
  | 12 =>
    let s := s.silencePix
    if off then
      { s with host := HostPort.initial,
               dali := { Dali.initial with busDown := s.dali.busDown, occArea := s.dali.occArea, lightArea := s.dali.lightArea,
                                           areasNext := s.dali.areasNext },
               lands := { s.lands with pixMode := 0, pixNext := none } }
    else s
  | _ => s

/-- The group states, replacement offsets and defect map are loaded from the COLSTATE item, all LIVE and empty by default; a
column beyond the full map is forgotten (R239, R243, R555). -/
def Columns.load (c : Option ColStateItem) (k : Columns) : Columns :=
  match c with
  | some c =>
    { k with groups := k.groups.zipWith (fun g x => { g with state := x.1, replOffset := x.2.1, defects := x.2.2 }) c.groups,
             defectMap := c.defectMap, mapFull := c.mapFull, beyondMap := [] }
  | none =>
    { k with groups := k.groups.map (fun g => { g with state := .live, replOffset := 0, defects := 0 }),
             defectMap := [], mapFull := false, beyondMap := [] }

/-- The COLSTATE item as last requested: a waiting write is held in ENC (R243, R556). -/
def State.colStateWanted (s : State) : Option ColStateItem :=
  match s.requested? 0x03 with
  | some (.colState c) => some c
  | _ => s.arr.colState

/-- Domain n reports RDY_L and is ON; SEQ from OFF has its TCM loaded again (R88, R93, R135, R154, R243, R638). -/
def State.domainReady (s : State) (n : Nat) : State :=
  let was := domAt s.power.doms n
  let s := { s with power := s.power.setDom n .on }
  if (n = 2 ∨ n = 3 ∨ n = 5) ∧ was = .off then { s with cols := s.cols.load s.colStateWanted }
  else if n = 7 ∧ was = .off then { s with jtag := { s.jtag with tcm := s.arr.tcmImage } }
  else if n = 11 then { s with holdup := s.holdup.start }
  else if n = 12 then { s with host := { s.host with wakeDone := true } }
  else s

/-! ### Refusals (R150 to R153) -/

/-- The domain of an entry step; step 8 checks the domains of steps 9 to 13 (R145). -/
def stepDomain (k : Nat) : Nat :=
  match k with
  | 1 => 1
  | 2 => 2
  | 3 => 3
  | 4 => 4
  | 5 => 6
  | 6 => 5
  | 7 => 11
  | 9 => 8
  | 10 => 12
  | 11 => 10
  | 12 => 9
  | _ => 7

/-- A block in the domain is under self-test (R150, R620). -/
def State.selfTestIn (s : State) (n : Nat) : Bool := (List.range 12).any (fun b => blockDomain b == n && s.blockUnderTest b)

/-- The reason with which a domain refuses, its own before SELF_TEST (R150). -/
def State.refusalOf (s : State) (n : Nat) : Option Nat :=
  if n = 4 ∧ s.cols.calRun.isSome then some 1
  else if n = 11 ∧ s.arr.updates.isEmpty = false then some 2
  else if n = 8 ∧ s.ka.isSome then some 3
  else if n = 12 ∧ s.hostPol = owner ∧ s.host.xfer.isSome then some 4
  else if (n = 9 ∨ n = 10) ∧ s.fab.role ≠ 0 then some 5
  else if n = 7 ∧ ((s.pol owner).queue.any (fun e => e.kind == .command) || s.jtag.halted) = true then some 6
  else if s.selfTestIn n then some 7
  else none

/-- The domains an entry still has to lower. -/
def State.toLower (s : State) (e : Entry) : List Nat := lowers s.power.doms e.target

/-- The first domain of a list, in step order, that refuses (R150). -/
def State.firstRefusal (s : State) : List Nat → Option (Nat × Nat)
  | [] => none
  | n :: rest =>
    match s.refusalOf n with
    | some r => some (n, r)
    | none => s.firstRefusal rest

/-- A refusal is counted and logged, 16 entries at most, newest first (R151 to R153). -/
def State.logRefusal (n reason step esn : Nat) (s : State) : State :=
  let entry : RefusalEntry := { tb := s.clock.tb, domain := n, reason := reason, step := step, cmdSeq := BitVec.ofNat 16 esn }
  { s with power := { s.power with refusals := s.power.refusals.mapIdx (fun i c => if i + 1 = n then sat16 c else c),
                                   refusalLog := (entry :: s.power.refusalLog).take 16 } }

/-! ### Return (R154 to R162) -/

/-- The domains of a map, in ascending order. -/
def domsOf (m : BitVec 12) : List Nat := (List.range' 1 12).filter (fun n => m.toNat.testBit (n - 1))

/-- A PWR_SET that has replied releases the head of the owner's queue (R143). -/
def State.releasePower (s : State) : State :=
  s.modPol owner (fun q => { q with serving := match q.serving with
    | some v => if v.rule = .powerChange ∧ v.replied = true then none else some v
    | none => none })

/-- A return is complete: the wheel starts once all sensor domains are ON; then the entry of the same PWR_SET begins, the wake
settings of an abandoned entry return and what it latched is replayed as what arrives in that configuration, or the owner receives
EV_WAKE (R35, R143, R144, R159 to R161, R426; notes/assumptions/64.md). -/
def State.finishReturn (doms : BitVec 12) (cause : RetCause) (s : State) : State :=
  let s := (domsOf doms).foldl State.domainReady { s with power := { s.power with ret := none } }
  let s := if s.sensorsOn then s.startWheel else s
  let cleared : State → State := fun s => { s with power := { s.power with latches := 0, firstLatch := none, lateWake := false } }
  match cause with
  | .raise =>
    match s.power.pendingEntry with
    | some e => ({ s with power := { s.power with pendingEntry := none, entryRef := s.clock.elapsed } } : State).beginEntry e
    | none => s.releasePower
  | .abandoned ws we => (cleared { s with power := { s.power with wakeSet := ws, wakeEn := we } }).replayTriggers.releasePower
  | .wake =>
    cleared (s.ownerEvent 0x0005 (leBytes 1 s.power.latches.toNat ++ leBytes 1 (b2n s.power.lateWake) ++ leBytes 2 0 ++
      (s.power.firstLatch.getD s.clock.tb).bytes ++ s.power.entryEnd.bytes))

/-- A return starts with step V; one without domains is complete at once (R151, R154). -/
def State.startReturn (doms : BitVec 12) (cause : RetCause) (s : State) : State :=
  if doms = 0 then s.finishReturn doms cause else { s with power := s.power.beginReturn doms cause }

/-- A point raise of PIPE, STAT or ENC is still waiting for RDY_V (R144). -/
def Power.sensorPointsWait (p : Power) : Bool :=
  (p.pointNext.toList.getD 0 none).isSome || (p.pointNext.toList.getD 1 none).isSome || (p.pointNext.toList.getD 3 none).isSome

/-- RETURN_STEP_READY: every returning domain has passed the step, and the next begins; sensor domains wait for their operating
points; step C locks the PLL where it was stopped; after step L every one is ON (R104, R110, R144, R154). -/
def execReturnStepReady (s : State) : Host.Outcome State Fault Refusal :=
  .next (
    match s.power.ret with
    | some r =>
      let next : RetStep → State := fun st => { s with power := { s.power with ret := some { r with step := st } } }
      match r.step with
      | .v => if bits r.doms.toNat 3 0 ≠ 0 ∧ s.power.sensorPointsWait = true then s else next .c
      | .c => { next .m with clock := { s.clock with pllOn := true } }
      | .m => next .l
      | .l => s.finishReturn r.doms r.cause
    | none => s)

/-! ### Entry (R145 to R151, R161, R162) -/

/-- The reply of a PWR_SET (R426). -/
def pwrAnswer (st : Status) (after : Vector DomState 12) (n reason wake : Nat) : Answer :=
  { status := st, effectFrame := none, results := leBytes 4 (stateWord after) ++ leBytes 1 n ++ leBytes 1 reason ++ leBytes 1 wake }

/-- The state of every domain once those of a map are ON again. -/
def Power.withOn (p : Power) (m : BitVec 12) : Vector DomState 12 := p.doms.mapIdx (fun i d => if m.toNat.testBit i then .on else d)

/-- An entry is abandoned at the abort point of a step, for a refusal or for a wake: what it lowered from ON returns (R151, R161,
R426). -/
def State.abandonEntry (e : Entry) (step : Nat) (refusal : Option (Nat × Nat)) (s : State) : State :=
  let after := s.power.withOn e.lowered
  let (a, s) : Answer × State := match refusal with
    | some (n, reason) => (pwrAnswer .refused after n reason 0, s.logRefusal n reason step e.esn)
    | none => (pwrAnswer .aborted after 0 0 s.power.latches.toNat, s)
  let s := ({ s with power := { s.power with entry := none } } : State).readyHeld owner .powerChange a
  s.startReturn e.lowered (.abandoned e.oldWakeSet e.oldWakeEn)

/-- The quiet configuration: every switched domain OFF or in RET (R139). -/
def Power.quiet (p : Power) : Bool := p.doms.toList.all (fun d => d != .on)

/-- An entry is complete: the head of the owner's queue is free once the reply has left (R143, R160). -/
def State.finishEntry (s : State) : State :=
  (({ s with power := { s.power with entry := none, entryEnd := s.clock.tb } } : State).dropCarry .powerEntry).releasePower

/-- The steps from k on that still have a domain to lower. -/
def State.stepsLeft (s : State) (e : Entry) (k : Nat) : List Nat :=
  (List.range' k (14 - k)).filter (fun j => j ≠ 8 && (s.toLower e).contains (stepDomain j))

/-- Step k lowers its domain; the PLL stops in the quiet configuration; after the last step the entry is complete (R104, R145). -/
def State.lowerStep (e : Entry) (k : Nat) (s : State) : State :=
  let n := stepDomain k
  let fromOn := s.domOn n
  let s := s.lowerDomain n (domAt e.target n)
  let e : Entry := { e with step := k + 1, lowered := if fromOn then e.lowered ||| domMap [n] else e.lowered }
  let s : State := { s with power := { s.power with entry := some e }, clock := { s.clock with pllOn := s.clock.pllOn && !s.power.quiet } }
  if 8 < k ∧ s.stepsLeft e (k + 1) = [] then s.finishEntry else s

/-- The final abort point: a domain of steps 9 to 13 may refuse; otherwise the reply is ready, and the steps that lower them wait
until it has been carried (R145, R148, R150). -/
def State.finalPoint (e : Entry) (s : State) : State :=
  match s.firstRefusal ([8, 12, 10, 9, 7].filter (s.toLower e).contains) with
  | some r => s.abandonEntry e 8 (some r)
  | none =>
    let e := { e with step := 9, finalPassed := true }
    let s := ({ s with power := { s.power with entry := some e } } : State).readyHeld owner .powerChange (pwrAnswer .ok e.target 0 0 0)
    if s.stepsLeft e 9 = [] then s.finishEntry
    else { s with carries := s.carries ++ [{ why := .powerEntry, esn := e.esn, carried := false }] }

/-- A step of 1 to 7 can act: STAT waits for the last record to leave the fork, NVM for the page program in progress (R145, R146). -/
def State.stepCanAct (s : State) (k : Nat) : Bool :=
  if k = 5 then s.wheel.fork.isNone && s.wheel.slot.isNone else if k = 7 then s.arr.jobs.isEmpty else true

/-- An abort point: a latched wake abandons the entry, else the step's domain may refuse, else it is lowered; steps without a
domain to lower are passed (R145, R150, R161). -/
def State.abortPoint (e : Entry) (s : State) : State :=
  if s.power.latches ≠ 0 then s.abandonEntry e e.step none
  else
    match (s.stepsLeft e e.step).find? (· ≤ 7) with
    | none => s.finalPoint e
    | some k =>
      match s.refusalOf (stepDomain k) with
      | some reason => s.abandonEntry e k (some (stepDomain k, reason))
      | none => if s.stepCanAct k then s.lowerStep e k else { s with power := { s.power with entry := some { e with step := k } } }

/-- The wheel stands at a revolution boundary. -/
def State.atBoundary (s : State) : Bool := s.wheel.slot.isNone && s.wheel.nextFrame.toNat % 16 == 0

/-- The abort point of step 1 of an entry that stops the wheel lies at the revolution boundary: a wake abandons it there and the
wheel turns on; otherwise the wheel stops (R146, R147, R161). -/
def State.boundaryPoint (e : Entry) (s : State) : State :=
  let s := { s with power := { s.power with entryRef := s.clock.elapsed + 400000 } }
  if s.power.latches ≠ 0 then
    let s := { s with wheel := { s.wheel with stopRequested := false } }
    (if s.wheel.pauses = 0 then s.decideBoundary else s).abandonEntry e 1 none
  else s.stopWheel.abortPoint { e with stoppedWheel := true }

/-- A line port has sent what was pending on it (R145, R148). -/
def LinePort.drained (l : LinePort) : Bool := l.unacked.isEmpty && l.contention.isEmpty && l.mgmt.isEmpty

/-- Steps 9 to 13, once the reply has been carried; HOST waits for the transfer in progress (R145, R148, R149, R646). -/
def State.lateStep (e : Entry) (s : State) : State :=
  if !s.carried .powerEntry then s
  else
    match s.stepsLeft e e.step with
    | [] => s.finishEntry
    | k :: _ =>
      if (k = 10 ∧ s.host.xfer.isSome = true) ∨ (k = 11 ∧ s.lineB.drained = false) ∨ (k = 12 ∧ s.lineA.drained = false) then s else s.lowerStep e k

/-- POWER_ENTRY_STEP (R145 to R151, R161, R162). -/
def execPowerEntryStep (s : State) : Host.Outcome State Fault Refusal :=
  .next (
    match s.power.entry with
    | some e =>
      if s.entryStops then (if s.atBoundary then s.boundaryPoint e else s)
      else if e.step ≤ 8 then s.abortPoint e
      else s.lateStep e
    | none => s)

/-- The wait for a reply that went to the host is over. -/
def State.hostCarried (s : State) (c : Carry) : Carry :=
  if (s.pol owner).journal.any (fun r => r.esn = c.esn && r.path == Path.host) then { c with carried := true } else c

/-- REPLY_CARRIED_TIMEOUT: an owner reply queued for the host 100 ms ago counts as carried; a node that sheds runs to its power-down reset
(R98, R148). -/
def execReplyCarriedTimeout (s : State) : Host.Outcome State Fault Refusal :=
  .next (if s.power.shedding then s else ({ s with carries := s.carries.map s.hostCarried } : State).sysResetDue)

/-! ### Operating points (R167, R169) -/

/-- OP_POINT_VOLTAGE_READY: the divider follows the raised voltage; later changes of a PSTATE_SET go on, and it is answered when
the last is complete (R167, R169, R427). -/
def execOpPointVoltageReady (domain : Fin 4) (s : State) : Host.Outcome State Fault Refusal :=
  .next (
    match s.power.pointNext[domain] with
    | none => s
    | some t =>
      let p := { s.power with points := s.power.points.set domain t, pointNext := s.power.pointNext.set domain none }
      match (s.pol owner).serving with
      | some v =>
        if v.rule = .pointChange then
          let (p, complete) := p.changePoints ((List.range 4).drop (domain.val + 1)) (byteAt v.entry.params 0).toNat
          let s := { s with power := p }
          if complete then s.readyHeld owner .pointChange { status := .ok, effectFrame := none, results := leBytes 1 (pointsByte p.points) }
          else s
        else { s with power := p }
      | none => { s with power := p })

/-! ### Wakes (R157 to R164, R504, R649, R650) -/

/-- WAKE_EVENT: a latched wake starts the return of the wake set, while SEQ is not ON or after an entry it came too late for
(R160, R162); none while the node sheds (R98). -/
def execWakeEvent (s : State) : Host.Outcome State Fault Refusal :=
  let p := s.power
  .next (
    if p.latches ≠ 0 ∧ p.shedding = false ∧ p.entry.isNone ∧ p.ret.isNone ∧ (p.lateWake || !s.domOn 7) = true then
      s.startReturn (domMap ((List.range' 1 12).filter (fun n => p.wakeSet.toNat.testBit n && !s.domOn n))) .wake
    else s)

/-- A target names the node: its own address, its segment or slot group, or the fabric group; an unaddressed node has the fabric
group only (R504). -/
def wakeNames (addr target : BitVec 12) : Bool :=
  let seg := bits addr.toNat 11 6
  let slot := bits addr.toNat 5 0
  let t := target.toNat
  if addr = 0xfff then target == 0xfff
  else target == addr || target == 0xfff || t == seg * 64 + 63 || t == 63 * 64 + slot

/-- WAKE_MATCH: the port's matcher counts a match of its address while the port is not ON, and latches LINE_A or LINE_B where that
is enabled (R157, R159, R504, R509). -/
def execWakeMatch (port : Port) (target : WakeTarget) (s : State) : Host.Outcome State Fault Refusal :=
  .next (
    let i := if port = .a then 0 else 1
    if s.domOn (9 + i) || !wakeNames s.fab.addr target || !s.power.lineGood then s
    else
      let s := s.countPort port 15
      if s.power.wakeEn.toNat.testBit i then s.latchWake i else s)

/-- The I²C target address the straps give (R59). -/
def Straps.i2cAddress (y : Straps) : BitVec 7 := 0x4c + BitVec.ofNat 7 (b2n y.adr0High + 2 * b2n y.adr1High)

/-- I2C_ADDR_MATCH (R59, R157, R163, R649, R650). -/
def execI2cAddrMatch (addr : BitVec 7) (s : State) : Host.Outcome State Fault Refusal :=
  .next (
    if !s.domOn 12 && s.jtag.ir != .extest && addr == Straps.i2cAddress s.lands.straps && s.power.wakeEn.toNat.testBit 2 &&
        s.hostPol == owner then s.latchWake 2 else s)

/-- WAKE_N_FALL: it wakes only while enabled and bound to the owner (R72, R157, R159, R647). -/
def execWakeNFall (s : State) : Host.Outcome State Fault Refusal :=
  .next (if s.power.wakeEn.toNat.testBit 3 && s.landsFree && s.hostPol == owner then s.latchWake 3 else s)

end Sys2Proof.Machine
end

