-- ==== Sys2Proof/Machine/ArrayEv.lean ====
section
/-! DEFINITION. The array's own steps: PAGE_PROGRAM_COMPLETE, ITEM_WRITE_START, ARRAY_LEASE_EXPIRED, LOG_PAGE_TIMER (R372 to
R374, R546 to R575, R593). -/

namespace Sys2Proof.Machine

/-! ### Item writes (R549, R552, R554, R556) -/

/-- A CFG or POLD item or COLSTATE: written at most once per 1.000 s (R554). -/
def spacedItem (item : Nat) : Bool := item == 0x03 || (decide (0x10 ≤ item) && decide (item < 0x40))

/-- The spacing of R554 allows a write of an item: 1.000 s since its last commit in this run. -/
def State.itemSpaced (s : State) (item : Nat) : Bool :=
  !spacedItem item || s.arr.commitTimes.all (fun c => c.1 != item || decide (c.2 + ticksPerSec ≤ s.clock.elapsed))

/-- The polder's item write that may start or go on: the started one, else the first in the order requested that the spacing
allows (R549, R554, R559). -/
def State.nextWrite (s : State) (p : PolId) : Option ItemWrite :=
  match s.arr.writes.find? (fun w => w.pol = p && w.started) with
  | some w => some w
  | none => s.arr.writes.find? (fun w => w.pol = p && s.itemSpaced w.value.item)

/-- The list with its first occurrence of a write started. -/
def startWrite (w : ItemWrite) : List ItemWrite → List ItemWrite
  | [] => []
  | x :: rest => if x = w then { x with started := true } :: rest else x :: startWrite w rest

/-- NVM is ON, its page buffer usable and free, and the sequencer gives slices (R95, R547, R556, R620, R623). -/
def State.arrayServes (s : State) : Bool :=
  s.sequencing && s.domOn 11 && !s.bist.unusable.toNat.testBit 10 && !s.blockUnderTest 10

/-- A PWR_SET waits at step 7 for the page program in progress: no further page starts (R145). -/
def State.nvmLeaving (s : State) : Bool :=
  match s.power.entry with
  | some e => e.step == 7 && (s.toLower e).contains 11
  | none => false

/-- ITEM_WRITE_START: the polder's next item write starts, or goes on, with its next page (R95, R549, R552, R554, R556, R559). -/
def execItemWriteStart (p : PolId) (s : State) : Host.Outcome State Fault Refusal :=
  .next (
    if !s.arrayServes || s.holdup.low || s.nvmLeaving || (s.arr.jobs ++ s.arr.heldJobs).contains (p, .item) then s
    else
      match s.nextWrite p with
      | some w => ({ s with arr := { s.arr with writes := startWrite w s.arr.writes } } : State).addJob p .item
      | none => s)

/-! ### Page programs (R546 to R549, R559, R562 to R564, R570, R571, R593) -/

/-- A page program of the owner may start: enough service rounds have passed since its last one (R593). -/
def State.ownerMayProgram (s : State) : Bool := decide (programGap s.therm.step ≤ s.arr.ownerStarts)

/-- The list without its first page program of a polder. -/
def dropJob (p : PolId) : List (PolId × PageJob) → List (PolId × PageJob)
  | [] => []
  | j :: rest => if j.1 = p then rest else j :: dropJob p rest

/-- A next page follows: at once, or under HOLDUP_LOW only where it is a marker page (R549, R559). -/
def State.followPage (p : PolId) (j : PageJob) (marker : Bool) (s : State) : State :=
  if marker then { s with arr := { s.arr with jobs := s.arr.jobs ++ [(p, j)] } } else s.addJob p j

/-- A command that waits for a page program is answered (R562 to R564). -/
def State.answerPage (a : Answer) (s : State) : State := s.answerHeld owner a

/-- The reply the held command was given when it was served. -/
def State.heldAnswer (s : State) : Answer :=
  match (s.pol owner).serving with
  | some v => v.answer.getD { status := .ok, effectFrame := none, results := [] }
  | none => { status := .ok, effectFrame := none, results := [] }

/-- The parameters of the command held at the owner's head. -/
def State.heldParams (s : State) : List Byte :=
  match (s.pol owner).serving with
  | some v => v.entry.params
  | none => []

/-- A page of a polder's started item write is programmed; the last one commits the item and releases what waits for it (R549,
R552, R554). -/
def State.itemPage (p : PolId) (s : State) : State :=
  match s.arr.writes.find? (fun w => w.started && w.pol = p) with
  | none => s
  | some w =>
    if w.pagesLeft ≤ 1 then
      let item := w.value.item
      let s := ({ s with arr := { s.arr with writes := s.arr.writes.erase w,
                                             commitTimes := (item, s.clock.elapsed) :: s.arr.commitTimes.filter (fun c => c.1 ≠ item) } } : State).commitItem
        w.value
      (s.releaseCommit item p true).sysResetDue
    else
      let w1 := { w with pagesLeft := w.pagesLeft - 1 }
      let s := { s with arr := { s.arr with writes := s.arr.writes.map (fun x => if x = w then w1 else x) } }
      if s.nvmLeaving then s else s.followPage p .item (w1.pagesLeft == 1)

/-- The bytes an ARR_WRITE adds to its update (R452, R560). -/
def Update.write (off : Nat) (bytes : List Byte) (u : Update) : Update :=
  { u with data := (bytes.mapIdx (fun i b => (off + i, b))) ++ u.data.filter (fun c => c.1 < off || off + bytes.length ≤ c.1) }

/-- A change of the update under a handle. -/
def ArrayS.modUpdate (h : W16) (f : Update → Update) (a : ArrayS) : ArrayS :=
  { a with updates := a.updates.map (fun u => if u.handle = h then f u else u) }

/-- A page of an ARR_COMMIT: a fill page, after the last of which the digest is compared, or the marker page, which completes the
commit (R453, R564). -/
def State.commitPage (h : W16) (left : Nat) (s : State) : State :=
  if left ≤ 1 then
    let a := s.heldAnswer
    ({ s with arr := s.arr.commitRegion h s.commitLen } : State).answerPage a
  else
    let ok := match s.arr.updates.find? (fun u => u.handle = h) with
      | some u => u.digestOk s.heldParams
      | none => false
    if left = 2 ∧ ok = false then s.answerPage { status := .badParam, effectFrame := none, results := [] }
    else s.followPage owner (.arrCommit h (left - 1)) (left == 2)

/-- A page program of a polder has passed its verify (R546). -/
def State.pageDone (p : PolId) (j : PageJob) (s : State) : State :=
  match j with
  | .item => s.itemPage p
  | .arrOpen h =>
    let a := s.heldAnswer
    ({ s with arr := s.arr.openRegion h } : State).answerPage a
  | .arrWrite h off bytes =>
    let a := s.heldAnswer
    ({ s with arr := s.arr.modUpdate h (Update.write off bytes) } : State).answerPage a
  | .arrCommit h left => s.commitPage h left
  | .log => { s with arr := s.arr.programLog }

/-- Spare pages left in a bank (R544, R571). -/
def ArrayS.spares (a : ArrayS) (b : Fin 2) : Nat := if b = 0 then a.spares0 else a.spares1

/-- An item write that has failed is dropped; with the BOOT item goes the transition it would have recorded (R571, R603). -/
def State.dropWrite (w : ItemWrite) (s : State) : State :=
  { s with arr := { s.arr with writes := s.arr.writes.erase w },
           life := { s.life with pending := if w.value.item = 0x12 then none else s.life.pending } }

/-- The write of a page that no spare can take fails: the command is answered DEFECT, an open update stays open, an item keeps its
committed value (R571). -/
def State.pageFails (p : PolId) (j : PageJob) (s : State) : State :=
  let defect : Answer := { status := .defect, effectFrame := none, results := [] }
  match j with
  | .item =>
    match s.arr.writes.find? (fun w => w.started && w.pol = p) with
    | some w => ((s.dropWrite w).releaseCommit w.value.item p false).sysResetDue
    | none => s
  | .arrOpen h => ({ s with arr := { s.arr with updates := s.arr.updates.filter (fun u => u.handle ≠ h) } } : State).answerPage defect
  | .arrWrite _ _ _ => s.answerPage defect
  | .arrCommit _ _ => s.answerPage defect
  | .log => { s with arr := { s.arr with logBuf := s.arr.logBuf.drop 4, logPage := (s.arr.logPage + 1) % 1024 } }

/-- The pages below LENGTH that an update has not written, in increasing order (R564 step 1). -/
def Update.unwritten (u : Update) (len : Nat) : List Nat :=
  (List.range ((len + 255) / 256)).filter (fun pg => !u.data.any (fun c => c.1 / 256 == pg))

/-- The array address of the page a program writes (R544, R551, R552, R561 to R564, R570). -/
def State.jobAddress (s : State) (p : PolId) (j : PageJob) : Nat :=
  let inUpdate : W16 → (Update → Nat) → Nat := fun h f => match s.arr.updates.find? (fun u => u.handle = h) with
    | some u => f u
    | none => 0
  let marker : Update → Nat := fun u => copyPage (0x40 + u.region.val) (nextCopy (.marker u.region.val) s.arr.copies).slot 0
  let page : Update → Nat → Nat := fun u off => regionBase u.region.val (s.arr.user.valid && !s.arr.user.half) + off / 256 * 256
  match j with
  | .item => match s.arr.writes.find? (fun w => w.started && w.pol = p) with
    | some w => copyPage w.value.item (nextCopy w.value s.arr.copies).slot (itemPages w.value.item - w.pagesLeft)
    | none => 0
  | .arrOpen h => inUpdate h marker
  | .arrWrite h off _ => inUpdate h (fun u => page u off)
  | .arrCommit h left => inUpdate h (fun u =>
      if left ≤ 1 then marker u
      else
        let l := u.unwritten s.commitLen
        page u (256 * l.getD (l.length + 1 - left) 0))
  | .log => regionBase 5 false + 256 * s.arr.logPage

/-- A page that fails its verify after 100 pulses is retired to the next spare of its bank, where the program is repeated (R543, R544,
R571, R575). -/
def State.retirePage (p : PolId) (j : PageJob) (s : State) : State :=
  let b := s.jobBank p j
  let left := s.arr.spares b
  if left = 0 then ({ s with arr := { s.arr with jobs := dropJob p s.arr.jobs } } : State).pageFails p j
  else
    let addr := s.jobAddress p j
    let s := { s with arr := { s.arr with retired := s.arr.retired ++ [(addr, 256 - left)],
                                          spares0 := if b = 0 then left - 1 else s.arr.spares0,
                                          spares1 := if b = 0 then s.arr.spares1 else left - 1 } }
    (s.requestItem owner (.remap b addr)).ownerEvent 0x004D (leBytes 1 b.val ++ leBytes 1 0 ++ leBytes 2 (left - 1) ++ leBytes 4 addr)

/-- The pulses of a page program that ends now fit: one at least in this slice, and no more than its polder's slices allow (R546 to
R548). -/
def State.pulsesFit (s : State) (p : PolId) (j : PageJob) (pulses : Nat) : Bool :=
  let left := s.arr.pulsesLeft (s.jobBank p j)
  decide (1 ≤ pulses) && decide (1 ≤ left) && decide (pulses ≤ s.arr.applied[p] + left)

/-- The pulses of a page program that has ended are counted against the slice; the polder's next one has none yet (R548). -/
def State.countPulses (p : PolId) (j : PageJob) (pulses : Nat) (s : State) : State :=
  let a := s.arr.usePulses (s.jobBank p j) (max 1 (pulses - s.arr.applied[p]))
  { s with arr := { a with applied := a.applied.set p 0 } }

/-- PAGE_PROGRAM_COMPLETE: the page program of the slice's polder ends, in its own slice only, within the pulses of R548, failed only
after 100; the throttle spaces the owner's, and a node that sheds completes the one in progress (R546 to R548, R557, R571, R593). -/
def execPageProgramComplete (verified : Bool) (pulses : Nat) (s : State) : Host.Outcome State Fault Refusal :=
  .next (
    if s.power.shedding then
      let s := if verified then s.finishPage else s
      { s with arr := { s.arr with jobs := [] } }
    else if !s.arrayServes || (!verified && pulses != 100) then s
    else
      match s.curSlice with
      | none => s
      | some p =>
        match firstJob p s.arr.jobs with
        | none => s
        | some j =>
          if (p = owner ∧ s.ownerMayProgram = false ∧ s.holdup.low = false) ∨ s.pulsesFit p j pulses = false then s
          else
            let s := s.countPulses p j pulses
            let s := if p = owner then { s with arr := { s.arr with ownerStarts := 0 } } else s
            if verified then ({ s with arr := { s.arr with jobs := dropJob p s.arr.jobs } } : State).pageDone p j else s.retirePage p j)

/-! ### Leases and the log page (R373, R374, R570) -/

/-- An ARR_COMMIT of this update is being served (R564). -/
def State.commitServed (s : State) (h : W16) : Bool :=
  match (s.pol owner).serving with
  | some v => v.rule == .regionCommit && v.entry.req.handle == h
  | none => false

/-- An ARR_WRITE of this update waits for its page. -/
def State.writeServed (s : State) (h : W16) : Bool :=
  match (s.pol owner).serving with
  | some v => v.rule == .pageProgram && v.entry.req.handle == h
  | none => false

/-- ARRAY_LEASE_EXPIRED: the update is abandoned; a command that waits on it is answered LEASE_EXPIRED, and without one the owner
receives EV_LEASE_EXPIRED with the TB of the grant (R372 to R374, R382, R564). -/
def execArrayLeaseExpired (handle : W16) (s : State) : Host.Outcome State Fault Refusal :=
  .next (
    match s.arr.updates.find? (fun u => u.handle = handle) with
    | none => s
    | some u =>
      if s.commitServed handle then s
      else
        let mine : PolId × PageJob → Bool := fun j => match j.2 with
          | .arrOpen h => h == handle
          | .arrWrite h _ _ => h == handle
          | _ => false
        let queued := (s.pol owner).queue.any (fun e => e.req.handle == handle && e.kind == .command)
        let s1 : State := { s with arr := { s.arr.loseUpdate handle with applied := s.arr.applied.set owner 0, jobs := s.arr.jobs.filter (fun j => !mine j),
                                                                         heldJobs := s.arr.heldJobs.filter (fun j => !mine j) } }
        if s.writeServed handle then s1.answerPage { status := .leaseExpired, effectFrame := none, results := [] }
        else if queued then s1
        else s1.ownerEvent 0x0044 (leBytes 1 1 ++ leBytes 1 0 ++ leBytes 2 handle.toNat ++
          u.grant.bytes))

/-- LOG_PAGE_TIMER: 60 s after its first entry a log page is programmed without its fourth (R570). -/
def execLogPageTimer (s : State) : Host.Outcome State Fault Refusal :=
  .next (
    if 4 * s.arr.logAsked < s.arr.logBuf.length then s.addJob owner .log else s)

end Sys2Proof.Machine
end

