-- ==== Sys2Proof/Machine/ColumnEv.lean ====
section
/-! DEFINITION. BLANK_INTERVAL_CHECK: the check of every converter, and the trim measurements an owner slot gives (R225 to
R227, R252 to R255, R269). -/

namespace Sys2Proof.Machine

/-- The verdict on a stood-in converter takes its place: a pending background trim, or a rejection (R253, R266 to R268). -/
def State.settleVerdict (n : Nat) (f : W32) (v : Verdict) (s : State) : State :=
  let k := s.cols
  match v with
  | .accepted t => { s with cols := { k with pendingTrims := k.pendingTrims ++ [{ converter := n, trim := t, kind := .background }] } }
  | .rejected reason =>
    ({ s with cols := { k with bgSettled := n :: k.bgSettled, counters := { k.counters with bgReject := sat16 k.counters.bgReject } } } : State).calReject
      1 reason n f

/-- The measuring slot of a stand-in revolution: every converter out of service is judged (R252 to R254). -/
def State.measureStandIns (x : Slot) (scale : Frac) (refA refB : BankRef) (trim : List (Nat × TrimMeas)) (s : State) : State :=
  let r := revolutionNo x.frame
  if !standsIn r || s.cols.measured.isSome then s
  else
    let s := { s with cols := { s.cols with measured := some x.frame } }
    let ns := ((List.range 32).filter (fun g => (s.cols.group g).state == .live)).map (fun g => 50 * g + jobOffset r)
    ns.foldl (fun s n =>
      match trim.find? (fun m => m.1 = n) with
      | some m =>
        let ref := if bankB n then refB else refA
        s.settleVerdict n x.frame (s.cols.judgeMeas scale ref ref n (codedMeas x.expo.depth10 m.2))
      | none => s) s

/-- The scale of a kept slot. -/
def CheckSlot.scale (c : CheckSlot) : Frac := { num := c.scaleNum, den := c.scaleDen }

/-- The bank reference of a converter in a kept slot. -/
def CheckSlot.ref (c : CheckSlot) (n : Nat) : BankRef := if bankB n then c.refB else c.refA

/-- The errors of spare g over the slots of one measurement, each referred to its own reference set (R255). -/
def spareErrors (g : Nat) (l : List CheckSlot) : Frac × Frac :=
  let es := l.map (fun c =>
    let m := checkMeans c.scale (convOf false c.conv (1600 + g))
    errorOf m.1 m.2 (c.ref (1600 + g)))
  (Frac.mean (es.map (·.1)), Frac.mean (es.map (·.2)))

/-- The codes of spare g at one level over the slots of one measurement, less each slot's reference mean. -/
def spareLevel (g : Nat) (high : Bool) (l : List CheckSlot) : List Frac :=
  (l.map (fun c =>
    let v := convOf false c.conv (1600 + g)
    let codes := if high then [v.high0, v.high1] else [v.low0, v.low1]
    (scaled c.scale codes).map (fun y => y.sub (if high then (c.ref (1600 + g)).high else (c.ref (1600 + g)).low)))).flatten

/-- The verdict on spare g after its 32 slots: measurement A is the first 16, B the next 16 (R255, R265). -/
def Columns.judgeSpare (k : Columns) (g : Nat) : Verdict :=
  let a := k.spareSlots.take 16
  let b := k.spareSlots.drop 16
  judge ([spareLevel g false a, spareLevel g true a, spareLevel g false b, spareLevel g true b].all (spreadOk 3))
    (spareErrors g a) (spareErrors g b) (k.trimOf (1600 + g))

/-- The spares of LIVE and REPLACING groups are judged; the next measurement A starts with the next owner slot (R255, R267,
R268). -/
def State.judgeSpares (f : W32) (s : State) : State :=
  let k0 := s.cols
  let s := { s with cols := { k0 with spareSlots := [] } }
  ((List.range 32).filter k0.spareGood).foldl (fun s g =>
    let k := s.cols
    match k0.judgeSpare g with
    | .accepted t => { s with cols := { k with pendingTrims := k.pendingTrims ++ [{ converter := 1600 + g, trim := t, kind := .spare }] } }
    | .rejected reason =>
      ({ s with cols := { k with counters := { k.counters with spareReject := sat16 k.counters.spareReject } } } : State).calReject
        2 reason (1600 + g) f) s

/-- An owner slot that is not displaced gives its conversions to the background trims, the spare trims and the quality
figures (R252, R255, R269, R275). -/
def State.ownerConversions (x : Slot) (conv : List CheckConv) (trim : List (Nat × TrimMeas)) (s : State) : State :=
  let scale := scaleOf x.expo
  let r := revolutionNo x.frame
  let refA := s.cols.checkRef r x.expo.depth10 scale conv false
  let refB := s.cols.checkRef r x.expo.depth10 scale conv true
  let kept : CheckSlot := { frame := x.frame, scaleNum := scale.num.toNat, scaleDen := scale.den,
                            conv := (List.range 1632).map (convOf x.expo.depth10 conv), refA := refA, refB := refB }
  let s := s.measureStandIns x scale refA refB trim
  let k := s.cols
  let s := { s with cols := { k with spareSlots := k.spareSlots ++ [kept],
                                     qualSlots := if k.qualSlots.length < 32 then k.qualSlots ++ [kept] else k.qualSlots } }
  if s.cols.spareSlots.length = 32 then s.judgeSpares x.frame else s

/-- BLANK_INTERVAL_CHECK: in every held slot but a displaced one, void or not, the converters and spares are checked while the clocks
run, and failures declared; an owner slot also measures (R225 to R227, R251 to R255). -/
def execBlankIntervalCheck (conv : List CheckConv) (trim : List (Nat × TrimMeas)) (s : State) : Host.Outcome State Fault Refusal :=
  .next (
    match s.wheel.slot with
    | some x =>
      if x.holder.isSome && x.cal.isNone && !x.checked && s.clock.hold.isNone then
        let before := s.colStateNow
        let s := { s with wheel := { s.wheel with slot := some { x with checked := true } } }
        let s := ((List.range 32).foldl (State.checkGroup x.expo.depth10 conv x.frame) s).storeColumns before
        if x.holder == some owner then s.ownerConversions x conv trim else s
      else s
    | none => s)

/-- The root mean square of fractions in millionths or thousandths, rounded to nearest, at most 65,535 (R269). -/
def rmsOf (unit : Nat) (l : List Frac) : Nat :=
  let q := (Frac.mean (l.map (fun e => e.mul e))).mul (Frac.ofNat (unit * unit))
  let n := isqrt q.floor.toNat
  min 65535 (if (Frac.norm { num := (2 * (n : Int) + 1) * (2 * n + 1), den := 4 }).le q then n + 1 else n)

/-- The mean low and high codes of a converter over kept slots. -/
def keptMeans (l : List CheckSlot) (n : Nat) : Frac × Frac :=
  let ms := l.map (fun c => checkMeans c.scale (convOf false c.conv n))
  (Frac.mean (ms.map (·.1)), Frac.mean (ms.map (·.2)))

/-- The residuals of one bank over kept slots: RMS of e in milli-LSB and of g in ppm across its converters in service (R250,
R269). -/
def Columns.residuals (k : Columns) (r : Nat) (b : Bool) : Nat × Nat :=
  let ms := ((List.range 1632).filter (fun n => bankB n == b && k.inService r n)).map (keptMeans k.qualSlots)
  let ref := bankRef ms
  let es := ms.map (fun m => errorOf m.1 m.2 ref)
  (rmsOf 1000 (es.map (·.1)), rmsOf 1000000 (es.map (·.2)))

/-- QUALITY_RECOMPUTE: after 32 owner slots that were not displaced (R269); in service are the converters that are so in the last
frame's revolution (notes/assumptions/55.md). -/
def execQualityRecompute (s : State) : Host.Outcome State Fault Refusal :=
  .next (
    let k := s.cols
    match k.qualSlots.getLast? with
    | some last =>
      if k.qualSlots.length < 32 then s
      else
        let a := k.residuals (revolutionNo s.lastFrame) false
        let b := k.residuals (revolutionNo s.lastFrame) true
        { s with cols := { k with qualSlots := [],
                                  quality := { k.quality with ofsResA := a.1, gainResA := a.2, ofsResB := b.1, gainResB := b.2, resFrame := last.frame } } }
    | none => s)

end Sys2Proof.Machine
end

