-- ==== Sys2Proof/Machine/CalEv.lean ====
section
/-! DEFINITION. Calibration slots: CAL_RAMP_DONE, CAL_COLUMNS_DONE, CAL_LEASE_EXPIRED (R256 to R268). -/

namespace Sys2Proof.Machine

/-- A change of the report of the calibration slot in progress. -/
def State.modReport (f : CalReport → CalReport) (s : State) : State :=
  { s with wheel := { s.wheel with slot := s.wheel.slot.map (fun x => { x with calRep := x.calRep.map f }) } }

/-- The slope error of a measurement: 3,072 / I − 1, where I is the mean interval (R258). -/
def slopeError (l : List Nat) : Frac := ((Frac.ofNat 3072).div (meanNat l)).sub (Frac.ofNat 1)

/-- What a ramp measurement ends in: the new slope code and RAMP_ERR in ppm, or the reason of its rejection (R258, R265,
R269). -/
def judgeRamp (intervals : List Nat) (old : Int) : Except Nat (Int × Int) :=
  let a := intervals.take 64
  let b := (intervals.drop 64).take 64
  let s : Frac := Frac.mul { num := 1, den := 2 } ((slopeError a).add (slopeError b))
  let new := old - ((Frac.ofNat 50000).mul s).round
  if !spreadOk 8 (scaled (Frac.ofNat 1) a) || !spreadOk 8 (scaled (Frac.ofNat 1) b) then .error 1
  else if !((slopeError a).sub (slopeError b)).abs.le { num := 1, den := 1000 } then .error 3
  else if !s.abs.le { num := 2, den := 1000 } then .error 4
  else if new < -511 ∨ 510 < new then .error 5
  else .ok (new, (((Frac.ofNat 1000000).mul s).add (Frac.ofInt (20 * (new - old)))).round)

/-- The converters after an accepted slope code of bank A (`false`) or B; RAMP_DONE and RAMP_FRAME follow (R258, R268, R269). -/
def Columns.acceptSlope (b : Bool) (f : W32) (new err : Int) (k : Columns) : Columns :=
  let changed := k.trimChanged || decide ((if b then k.slopeB else k.slopeA) ≠ new)
  let k := { k with trimChanged := changed, counters := { k.counters with rampDone := sat16 k.counters.rampDone } }
  if b then { k with slopeB := new, quality := { k.quality with rampErrB := err, rampFrame := f } }
  else { k with slopeA := new, quality := { k.quality with rampErrA := err, rampFrame := f } }

/-- One bank of RAMP: the accepted code takes effect at once; the report notes the result and the reason (R258, R266 to R268). -/
def State.rampBank (b : Bool) (f : W32) (intervals : List Nat) (s : State) : State :=
  match judgeRamp intervals (if b then s.cols.slopeB else s.cols.slopeA) with
  | .ok (new, err) =>
    ({ s with cols := s.cols.acceptSlope b f new err } : State).modReport (fun r =>
      if b then { r with rampResB := 1, rampReasonB := 0 } else { r with rampResA := 1, rampReasonA := 0 })
  | .error e =>
    ({ s with cols := { s.cols with counters := { s.cols.counters with rampReject := sat16 s.cols.counters.rampReject } } } : State).modReport
      (fun r => if b then { r with rampResB := 2, rampReasonB := e } else { r with rampResA := 2, rampReasonA := e })

/-- The calibration slot in progress, where it can still work: no clock hold, no fault, its lease not expired. -/
def State.calSlot (s : State) : Option (Slot × CalReport) :=
  match s.wheel.slot with
  | some x =>
    match x.calRep with
    | some r => if s.clock.hold.isNone && x.voidReason != some 4 && !r.expired then some (x, r) else none
    | none => none
  | none => none

/-- CAL_RAMP_DONE (R257, R258, R265 to R268). -/
def execCalRampDone (intervalsA : List Nat) (intervalsB : List Nat) (s : State) : Host.Outcome State Fault Refusal :=
  .next (
    match s.calSlot with
    | some (x, r) =>
      if r.parts.ramp && !r.rampDone && x.cal.any (·.ramp) then
        ((s.rampBank false x.frame intervalsA).rampBank true x.frame intervalsB).modReport (fun r => { r with rampDone := true })
      else s
    | none => s)

/-- The converters COLUMNS measures: every column converter and spare not declared failed (R259). -/
def Columns.measurable (k : Columns) (n : Nat) : Bool := if n < 1600 then !k.failed n else k.spareGood (n - 1600)

/-- A COLUMNS result accepted after the measuring slot cancels the background trim of a converter that is stood in for (R268). -/
def Columns.cancelBackground (f : W32) (n : Nat) (k : Columns) : Columns :=
  if n < 1600 && k.measured.isSome && k.stoodIn (revolutionNo f) n && !k.bgSettled.contains n then
    { k with bgSettled := n :: k.bgSettled, pendingTrims := k.pendingTrims.filter (fun p => !(p.converter = n && p.kind = .background)),
             counters := { k.counters with bgSkipped := sat16 k.counters.bgSkipped } }
  else k

/-- One converter's COLUMNS verdict: accepted codes wait for the next slot start; the report counts (R259, R266, R267). -/
def State.columnVerdict (f : W32) (n : Nat) (v : Verdict) (s : State) : State :=
  match v with
  | .accepted t =>
    let k := s.cols.cancelBackground f n
    ({ s with cols := { k with pendingTrims := k.pendingTrims ++ [{ converter := n, trim := t, kind := .columns }] } } : State).modReport
      (fun r => { r with accepted := r.accepted + 1 })
  | .rejected e =>
    s.modReport (fun r => { r with rejected := r.rejected + 1, rejectList := if r.rejectList.length < 16 then r.rejectList ++ [(n, e)] else r.rejectList })

/-- The reference set of a bank in COLUMNS: every measured converter of the bank, from measurement A or B (R259). -/
def columnsRef (meas : List (Nat × TrimMeas)) (b second : Bool) : BankRef :=
  bankRef ((meas.filter (fun m => bankB m.1 == b)).map (fun m =>
    if second then (meanNat m.2.lowB, meanNat m.2.highB) else (meanNat m.2.lowA, meanNat m.2.highA)))

/-- CAL_COLUMNS_DONE (R257, R259, R265 to R268). -/
def execCalColumnsDone (meas : List (Nat × TrimMeas)) (s : State) : Host.Outcome State Fault Refusal :=
  .next (
    match s.calSlot with
    | some (x, r) =>
      if r.parts.columns && !r.columnsDone && (!r.parts.ramp || r.rampDone) && x.cal.any (·.columns) then
        let found := (List.range 1632).filterMap (fun n => if s.cols.measurable n then (meas.find? (fun m => m.1 = n)).map (fun m => (m.1, codedMeas false m.2)) else none)
        let ref := columnsRef found
        (found.foldl (fun s m =>
          s.columnVerdict x.frame m.1 (s.cols.judgeMeas (Frac.ofNat 1) (ref (bankB m.1) false) (ref (bankB m.1) true) m.1 m.2)) s).modReport
          (fun r => { r with columnsDone := true })
      else s
    | none => s)

/-- A report without the results of the parts its slot runs, its lease expired (R264, R668). -/
def CalReport.expire (p : CalParts) (r : CalReport) : CalReport :=
  let r := { r with expired := true }
  let r := if p.ramp then { r with rampResA := 0, rampReasonA := 0, rampResB := 0, rampReasonB := 0 } else r
  if p.columns then { r with accepted := 0, rejected := 0, rejectList := [] } else r

/-- CAL_LEASE_EXPIRED: every result of the slot is discarded, and EV_CAL_DONE will say LEASE_EXPIRED (R264); once every part of the slot has
ended, the expiry of its lease discards nothing (notes/assumptions/60.md). -/
def execCalLeaseExpired (s : State) : Host.Outcome State Fault Refusal :=
  .next (
    match s.calSlot with
    | some (x, r) =>
      if r.finished then s
      else
        let k := s.cols
        let old := r.old.2.2
        ({ s with cols := { k with slopeA := r.old.1, slopeB := r.old.2.1,
                                   quality := { k.quality with rampErrA := old.rampErrA, rampErrB := old.rampErrB, rampFrame := old.rampFrame },
                                   pendingTrims := k.pendingTrims.filter (fun p => p.kind ≠ .columns) } } : State).modReport
          (CalReport.expire (x.cal.getD r.parts))
    | none => s)

/-- The bytes of one bank in EV_CAL_DONE (R302). -/
def rampBytes (res reason : Nat) (code err : Int) : List Byte := leBytes 1 res ++ leBytes 1 reason ++ le16 code ++ le16 err

/-- EV_CAL_DONE's payload (R267, R302). -/
def CalReport.payload (k : Columns) (r : CalReport) : List Byte :=
  let status := if r.expired then 0x10 else if r.rampResA = 2 ∨ r.rampResB = 2 ∨ 0 < r.rejected then 0x14 else 0x00
  leBytes 1 status ++ leBytes 1 (b2n r.parts.ramp + 2 * b2n r.parts.columns) ++
  rampBytes r.rampResA r.rampReasonA k.slopeA k.quality.rampErrA ++ rampBytes r.rampResB r.rampReasonB k.slopeB k.quality.rampErrB ++
  leBytes 2 r.accepted ++ leBytes 2 r.rejected ++ leBytes 1 r.rejectList.length ++
  (r.rejectList.map (fun x => leBytes 2 x.1 ++ leBytes 1 x.2)).flatten

/-- A calibration slot's record leaves the fork: EV_CAL_DONE where every part has finally run, else the parts due again wait for
the owner's next slot; a CAL_RUN ends with the event of its own slot (R261, R263, R267, R668). -/
def State.reportCal (f : W32) (r : CalReport) (s : State) : State :=
  if r.finished then
    let s := s.eventAt owner 0x0007 f s.clock.tb (r.payload s.cols)
    if s.cols.calStarted && s.cols.calFrame == f then { s with cols := { s.cols with calRun := none, calStarted := false } } else s
  else s

end Sys2Proof.Machine
end

