-- ==== Sys2Proof/Machine/CmdCal.lean ====
section
/-! DEFINITION. Commands of the calibration family: CAL_RUN, CAL_SCHEDULE, CAL_READ, CAL_CLEAR, COL_GET, DEFECT_GET,
TRIM_GET (R409 to R415). -/

namespace Sys2Proof.Machine

/-- CAL_RUN (R261, R262, R409). -/
def ownCalRun (e : QEntry) (s : State) : CmdOut :=
  let b := (byteAt e.params 0).toNat
  if !s.wheel.turning then refuse .notReady s
  else if s.cols.calRun.isSome then refuse .busy s
  else if bits b 1 0 = 0 then refuse .badParam s
  else
    let f := s.nextSlotOf owner
    .done { status := .accepted, effectFrame := some f, results := leBytes 4 f.toNat ++ leBytes 1 (b2n (s.rampDue f)) }
      { s with cols := { s.cols with calRun := some { ramp := bit b 0, columns := bit b 1 }, calFrame := f, calStarted := false } }

def cmdCalRun : QEntry → State → CmdOut :=
  checked { issuer := .owner, states := cf, plenOk := (· == 1), reserved := fun _ => [(7, 2)] } ownCalRun

/-- CAL_SCHEDULE (R260, R410). -/
def ownCalSchedule (e : QEntry) (s : State) : CmdOut :=
  let interval := field e.params 0 2
  let slot := (byteAt e.params 2).toNat
  if (1 ≤ interval ∧ interval ≤ 15) ∨ (16 ≤ slot ∧ slot ≤ 254) ∨
      (slot < 16 ∧ (s.pol owner).nextCharter.slots.toNat.testBit slot = false) then refuse .badParam s
  else
    commitThen 0x11 { status := .ok, effectFrame := none, results := leBytes 4 (s.nextDue interval slot s.nextRevolution).toNat } s
      (fun s => ({ s with cols := { s.cols with scheduleNext := some (interval, slot) } }).requestItem owner
        (.wheel { s.wheelWanted with rampInterval := interval, rampSlot := slot }))

def cmdCalSchedule : QEntry → State → CmdOut :=
  checked { issuer := .owner, states := cf, plenOk := (· == 3), reserved := fun _ => [] } ownCalSchedule

/-- The quality figures, 20 bytes (R269). -/
def Quality.bytes (q : Quality) : List Byte :=
  leBytes 2 q.ofsResA ++ leBytes 2 q.ofsResB ++ leBytes 2 q.gainResA ++ leBytes 2 q.gainResB ++
  leBytes 2 (wordOf 16 q.rampErrA) ++ leBytes 2 (wordOf 16 q.rampErrB) ++ leBytes 4 q.rampFrame.toNat ++ leBytes 4 q.resFrame.toNat

/-- CAL_READ (R411). -/
def ownCalRead (e : QEntry) (s : State) : CmdOut :=
  let k := s.cols.counters
  match (byteAt e.params 0).toNat with
  | 0 => doneOk s.cols.quality.bytes s
  | 1 => doneOk (leBytes 2 k.bgDone ++ leBytes 2 k.bgReject ++ leBytes 2 k.bgSkipped ++ leBytes 2 k.spareDone ++
      leBytes 2 k.spareReject ++ leBytes 2 k.rampDone ++ leBytes 2 k.rampReject) s
  | 2 => let n := s.scheduleShown
    doneOk (leBytes 2 n.1 ++ leBytes 1 n.2.1 ++ leBytes 1 0 ++ leBytes 4 n.2.2.toNat) s
  | 3 => doneOk (leBytes 2 (wordOf 16 s.cols.slopeA) ++ leBytes 2 (wordOf 16 s.cols.slopeB)) s
  | _ => refuse .badParam s

def cmdCalRead : QEntry → State → CmdOut :=
  checked { issuer := .owner, states := cf, plenOk := (· == 1), reserved := fun _ => [] } ownCalRead

/-- CAL_CLEAR (R412). -/
def ownCalClear (_ : QEntry) (s : State) : CmdOut :=
  doneOk [] { s with cols := { s.cols with counters := Columns.initial.counters } }

def cmdCalClear : QEntry → State → CmdOut :=
  checked { issuer := .owner, states := cf, plenOk := (· == 0), reserved := fun _ => [] } ownCalClear

/-- The status word of a group (R240). -/
def Group.word (g : Group) : List Byte :=
  let st := match g.state with
    | .live => 0
    | .replacing => 1
    | .spareFailed => 2
  leBytes 1 (st + 4 * (if g.state = .replacing then g.replOffset else 0)) ++ leBytes 1 g.defects ++ leBytes 1 g.maxDiff ++ leBytes 1 0

/-- COL_GET (R413). -/
def ownColGet (e : QEntry) (s : State) : CmdOut :=
  let half := (byteAt e.params 0).toNat
  if 1 < half then refuse .badParam s
  else doneOk (((s.cols.groups.drop (16 * half)).take 16).map Group.word).flatten s

def cmdColGet : QEntry → State → CmdOut :=
  checked { issuer := .owner, states := cf, plenOk := (· == 1), reserved := fun _ => [] } ownColGet

/-- The entry of a defect in DEFECT_GET (R414). -/
def Defect.entry (d : Defect) : List Byte := leBytes 2 d.column ++ leBytes 1 d.cause ++ leBytes 1 0 ++ leBytes 4 d.frame.toNat

/-- DEFECT_GET (R414). -/
def ownDefectGet (e : QEntry) (s : State) : CmdOut :=
  let start := (byteAt e.params 0).toNat
  let l := (s.cols.defectMap.drop start).take 12
  if 63 < start then refuse .badParam s
  else doneOk (leBytes 1 s.cols.defectMap.length ++ leBytes 1 l.length ++ leBytes 2 0 ++ (l.map Defect.entry).flatten) s

def cmdDefectGet : QEntry → State → CmdOut :=
  checked { issuer := .owner, states := cf, plenOk := (· == 1), reserved := fun _ => [] } ownDefectGet

/-- TRIM_GET (R415). -/
def ownTrimGet (e : QEntry) (s : State) : CmdOut :=
  let first := field e.params 0 2
  let count := (byteAt e.params 2).toNat
  if count < 1 ∨ 48 < count ∨ 1632 < first + count then refuse .badParam s
  else doneOk (leBytes 2 first ++ leBytes 1 count ++ leBytes 1 0 ++
    (((s.cols.trims.drop first).take count).map (fun t => leBytes 1 (wordOf 8 t.offset) ++ leBytes 1 (wordOf 8 t.gain))).flatten) s

def cmdTrimGet : QEntry → State → CmdOut :=
  checked { issuer := .owner, states := cf, plenOk := (· == 3), reserved := fun _ => [] } ownTrimGet

/-- CAL_RUN as a command row. -/
def execCalRun (r : Req) (params : List Byte) (s : State) : Host.Outcome State Fault Refusal :=
  .next (runCommand 0x80 cmdCalRun r params s)

/-- CAL_SCHEDULE as a command row. -/
def execCalSchedule (r : Req) (params : List Byte) (s : State) : Host.Outcome State Fault Refusal :=
  .next (runCommand 0x81 cmdCalSchedule r params s)

/-- CAL_READ as a command row. -/
def execCalRead (r : Req) (params : List Byte) (s : State) : Host.Outcome State Fault Refusal :=
  .next (runCommand 0x82 cmdCalRead r params s)

/-- CAL_CLEAR as a command row. -/
def execCalClear (r : Req) (params : List Byte) (s : State) : Host.Outcome State Fault Refusal :=
  .next (runCommand 0x83 cmdCalClear r params s)

/-- COL_GET as a command row. -/
def execColGet (r : Req) (params : List Byte) (s : State) : Host.Outcome State Fault Refusal :=
  .next (runCommand 0x84 cmdColGet r params s)

/-- DEFECT_GET as a command row. -/
def execDefectGet (r : Req) (params : List Byte) (s : State) : Host.Outcome State Fault Refusal :=
  .next (runCommand 0x85 cmdDefectGet r params s)

/-- TRIM_GET as a command row. -/
def execTrimGet (r : Req) (params : List Byte) (s : State) : Host.Outcome State Fault Refusal :=
  .next (runCommand 0x86 cmdTrimGet r params s)

end Sys2Proof.Machine
end

