-- ==== Sys2Proof/Machine/CmdExposure.lean ====
section
/-! DEFINITION. Commands of the exposure family: EXPO_SET, EXPO_GET, TRIG_FIRE, TRIG_READ, SYNC_GET, PERIOD_SET,
WHEEL_GET (R390 to R402). -/

namespace Sys2Proof.Machine

/-- The reference period held for a lock source (R202, R392). -/
def State.refPeriod (s : State) : LockSrc → Nat
  | .none => 0
  | .localSync => s.lands.sync.validPeriod
  | .beacon => s.lands.beaconPhase.period

/-- The lock period P / LOCK_DIV (R202). -/
def State.lockPeriod (s : State) (e : Expo) : Nat := s.refPeriod e.lock / e.lockDiv

/-- The lock source is ready (R188). -/
def State.lockReady (s : State) : LockSrc → Bool
  | .none => true
  | .localSync => s.lands.sync.validPeriod != 0
  | .beacon => s.lands.beaconPhase.valid

/-- A set with its lock allowance measured now, rounded up to whole ticks (R203, R392). -/
def State.withLock (s : State) (e : Expo) : Expo :=
  { e with aLock := if e.lock = .none then 0 else (101 * s.lockPeriod e + 99) / 100 }

/-- The pixel port modes an owner set must pass: the one in force and the one that applies next (R304, R391). -/
def State.pixModes (s : State) : List Nat := s.lands.pixMode :: s.lands.pixNext.toList

/-- The NO_RESOURCE checks of R391, steps 6 to 8. -/
def State.expoPlaced (s : State) (p : PolId) (e : Expo) : Bool :=
  s.periods.all (fun t => e.fits t) && (p == owner || decide (e.readTime ≤ (s.pol p).charter.readQuota)) &&
  (p != owner || s.pixModes.all (fun m => pixPortOk m e))

/-- The results of R395. -/
def State.expoResults (s : State) (e : Expo) : List Byte :=
  leBytes 4 e.tNeed ++ leBytes 4 (e.eLMax s.wheel.period) ++ leBytes 4 e.readTime ++ leBytes 4 e.aLock ++
  leBytes 4 (if e.triggered then e.deadline s.wheel.period else 0)

/-- EXPO_SET: the checks of R391 in order, then the whole shadow replaced (R188, R189, R394, R395). -/
def ownExpoSet (q : QEntry) (s : State) : CmdOut :=
  let p := q.req.pol
  let raw := Expo.decode q.params
  if !expoRangesOk q.params then refuse .badParam s
  else if !raw.windowOk || !raw.orderOk then refuse .badParam s
  else if raw.srcTrigIn && s.bindHolder 1 != p then refuse .notPermitted s
  else if !s.lockReady raw.lock then refuse .notReady s
  else if raw.lock != .none && decide (s.lockPeriod raw < raw.lockDelay + 16) then refuse .badParam s
  else
    let e := s.withLock raw
    if !s.expoPlaced p e then .done { status := .noResource, effectFrame := none, results := s.expoResults e } s
    else
      let f := s.settingFrame p
      doneAt f (s.expoResults e) (s.modPol p (fun x => { x with shadow := some e, shadowFrame := f }))

def cmdExpoSet : QEntry → State → CmdOut :=
  checked { issuer := .all, states := cf, plenOk := (· == 24), reserved := fun _ => [(71, 70), (79, 79), (159, 144)] } ownExpoSet

/-- EXPO_GET (R396). -/
def ownExpoGet (q : QEntry) (s : State) : CmdOut :=
  let x := s.pol q.req.pol
  let sh := x.shadow.getD x.expo
  let pending := sh.encode != x.expo.encode
  doneOk (x.expo.encode ++ sh.encode ++ leBytes 1 (b2n pending) ++ leBytes 4 (if pending then (s.shadowAt q.req.pol).toNat else 0)) s

def cmdExpoGet : QEntry → State → CmdOut :=
  checked { issuer := .all, states := cf, plenOk := (· == 0), reserved := fun _ => [] } ownExpoGet

/-- TRIG_FIRE (R397, R398). -/
def ownTrigFire (q : QEntry) (s : State) : CmdOut :=
  let p := q.req.pol
  let o := s.trigOutcome p .command
  let s' := s.trigger p .command
  let res : W32 → List Byte := fun f => leBytes 1 o.code ++ leBytes 3 0 ++ leBytes 4 f.toNat
  match o with
  | .accepted => doneAt s.lastFrame (res s.lastFrame) s'
  | .pending => doneAt (s.nextSlotOf p) (res (s.nextSlotOf p)) s'
  | .overrun => doneOk (res 0) s'
  | .dropped => doneOk (res 0) s'

def cmdTrigFire : QEntry → State → CmdOut :=
  checked { issuer := .all, states := cf, plenOk := (· == 0), reserved := fun _ => [] } ownTrigFire

/-- TRIG_READ (R399). -/
def ownTrigRead (q : QEntry) (s : State) : CmdOut :=
  let p := q.req.pol
  let x := s.pol p
  let src := match x.trigPending with
    | some t => t.src.code
    | none => 0
  doneOk (leBytes 2 x.trigOverrun ++ leBytes 2 x.trigDropped ++ leBytes 4 (b2n x.trigPending.isSome + 2 * src))
    (if bit (byteAt q.params 0).toNat 0 then s.modPol p (fun y => { y with trigOverrun := 0, trigDropped := 0 }) else s)

def cmdTrigRead : QEntry → State → CmdOut :=
  checked { issuer := .all, states := cf, plenOk := (· == 1), reserved := fun _ => [(7, 1)] } ownTrigRead

/-- SYNC_GET (R400). -/
def ownSyncGet (_ : QEntry) (s : State) : CmdOut :=
  let y := s.lands.sync
  let b := s.lands.beaconPhase
  doneOk (leBytes 1 (if y.lost then 2 else if y.validPeriod = 0 then 0 else 1) ++
    leBytes 1 (if b.valid then 1 else if b.everValid then 2 else 0) ++ leBytes 2 0 ++
    leBytes 4 y.validPeriod ++ y.validEdge.bytes ++ leBytes 4 b.period) s

def cmdSyncGet : QEntry → State → CmdOut :=
  checked { issuer := .all, states := cf, plenOk := (· == 0), reserved := fun _ => [] } ownSyncGet

/-- PERIOD_SET (R34, R191, R401, R448). -/
def ownPeriodSet (q : QEntry) (s : State) : CmdOut :=
  let v := field q.params 0 4
  let x := s.pol owner
  if s.arr.fabric.periodFabric || s.tenantExists then refuse .notPermitted s
  else if !periodInRange v then refuse .badParam s
  else if !x.expo.fits v || !(x.shadow.getD x.expo).fits v then refuse .noResource s
  else
    commitThen 0x11 { status := .ok, effectFrame := some s.nextRevolution, results := leBytes 4 s.wheel.period } s
      (fun s => ({ s with wheel := { s.wheel with periodNext := some v } }).requestItem owner (.wheel { s.wheelWanted with period := v }))

def cmdPeriodSet : QEntry → State → CmdOut :=
  checked { issuer := .owner, states := cf, plenOk := (· == 4), reserved := fun _ => [] } ownPeriodSet

/-- WHEEL_GET (R402). -/
def ownWheelGet (q : QEntry) (s : State) : CmdOut :=
  let slots := if s.wheel.turning then s.heldSlots q.req.pol else s.slotsAt q.req.pol s.wheel.nextFrame
  doneOk (leBytes 1 (b2n s.wheel.turning) ++ leBytes 1 0 ++ leBytes 2 slots.toNat ++ leBytes 4 s.lastFrame.toNat ++
    leBytes 4 s.wheel.period ++ leBytes 4 (s.wheel.periodNext.getD 0) ++
    (if s.wheel.turning then s.wheel.slotTb else Tb.zero).bytes) s

def cmdWheelGet : QEntry → State → CmdOut :=
  checked { issuer := .all, states := cf, plenOk := (· == 0), reserved := fun _ => [] } ownWheelGet

/-- EXPO_SET as a command row. -/
def execExpoSet (r : Req) (params : List Byte) (s : State) : Host.Outcome State Fault Refusal :=
  .next (runCommand 0x30 cmdExpoSet r params s)

/-- EXPO_GET as a command row. -/
def execExpoGet (r : Req) (params : List Byte) (s : State) : Host.Outcome State Fault Refusal :=
  .next (runCommand 0x31 cmdExpoGet r params s)

/-- TRIG_FIRE as a command row. -/
def execTrigFire (r : Req) (params : List Byte) (s : State) : Host.Outcome State Fault Refusal :=
  .next (runCommand 0x32 cmdTrigFire r params s)

/-- TRIG_READ as a command row. -/
def execTrigRead (r : Req) (params : List Byte) (s : State) : Host.Outcome State Fault Refusal :=
  .next (runCommand 0x33 cmdTrigRead r params s)

/-- SYNC_GET as a command row. -/
def execSyncGet (r : Req) (params : List Byte) (s : State) : Host.Outcome State Fault Refusal :=
  .next (runCommand 0x34 cmdSyncGet r params s)

/-- PERIOD_SET as a command row. -/
def execPeriodSet (r : Req) (params : List Byte) (s : State) : Host.Outcome State Fault Refusal :=
  .next (runCommand 0x35 cmdPeriodSet r params s)

/-- WHEEL_GET as a command row. -/
def execWheelGet (r : Req) (params : List Byte) (s : State) : Host.Outcome State Fault Refusal :=
  .next (runCommand 0x36 cmdWheelGet r params s)

end Sys2Proof.Machine
end

