-- ==== Sys2Proof/Machine/CmdSystem.lean ====
section
/-! DEFINITION. Commands of the system family: SYS_INFO, SYS_COUNTERS, ATTEST_GET, SYS_RESET (R422 to R425). -/

namespace Sys2Proof.Machine

/-- SYS_INFO (R422). -/
def ownSysInfo (_ : QEntry) (s : State) : CmdOut :=
  doneOk (leBytes 2 0x1612 ++ leBytes 4 (s.arr.region s.arr.running.val).version.toNat ++ leBytes 1 s.arr.running.val ++
    leBytes 1 s.life.shadow.code ++ leBytes 8 s.life.uid.toNat) s

def cmdSysInfo : QEntry → State → CmdOut :=
  checked { issuer := .all, states := mcfr, plenOk := (· == 0), reserved := fun _ => [] } ownSysInfo

/-- SYS_COUNTERS (R376, R423). -/
def ownSysCounters (e : QEntry) (s : State) : CmdOut :=
  let c := (s.pol e.req.pol).cnt
  doneOk (leBytes 2 c.intakeDrop ++ leBytes 2 c.authFail ++ leBytes 2 c.seqGap ++ leBytes 2 c.queueFull ++
      leBytes 2 c.retryQueued ++ leBytes 2 c.dupServed ++ leBytes 2 c.dlvSpill)
    (if bit (byteAt e.params 0).toNat 0 then s.modPol e.req.pol (fun q => { q with cnt := PolCounters.zero }) else s)

def cmdSysCounters : QEntry → State → CmdOut :=
  checked { issuer := .all, states := cf, plenOk := (· == 1), reserved := fun _ => [(7, 1)] } ownSysCounters

/-- ATTEST_GET (R424). -/
def ownAttestGet (e : QEntry) (s : State) : CmdOut :=
  let part := (byteAt e.params 0).toNat
  let c := padTo 144 s.arr.mfg.certificate
  if 1 < part then refuse .badParam s
  else
    let content := if part = 0 then c.take 80 else (c.drop 80).take 64
    doneOk (leBytes 1 part ++ leBytes 1 content.length ++ leBytes 2 0 ++ content) s

def cmdAttestGet : QEntry → State → CmdOut :=
  checked { issuer := .all, states := cf, plenOk := (· == 1), reserved := fun _ => [] } ownAttestGet

/-- SYS_RESET: OK leaves first; the reset follows once it has been carried and waiting item writes are committed
(R425, R558). -/
def ownSysReset (e : QEntry) (s : State) : CmdOut :=
  if field e.params 0 4 ≠ s.life.uid.toNat % 2 ^ 32 then refuse .badParam s
  else if !s.arr.updates.isEmpty || s.cols.calRun.isSome || s.ka.isSome || s.bist.job.isSome then refuse .busy s
  else doneOk [] { s with carries := s.carries ++ [{ why := .sysReset, esn := e.esn, carried := false }] }

def cmdSysReset : QEntry → State → CmdOut :=
  checked { issuer := .owner, states := cf, plenOk := (· == 4), reserved := fun _ => [] } ownSysReset

/-- SYS_INFO as a command row. -/
def execSysInfo (r : Req) (params : List Byte) (s : State) : Host.Outcome State Fault Refusal :=
  .next (runCommand 0x00 cmdSysInfo r params s)

/-- SYS_COUNTERS as a command row. -/
def execSysCounters (r : Req) (params : List Byte) (s : State) : Host.Outcome State Fault Refusal :=
  .next (runCommand 0x01 cmdSysCounters r params s)

/-- ATTEST_GET as a command row. -/
def execAttestGet (r : Req) (params : List Byte) (s : State) : Host.Outcome State Fault Refusal :=
  .next (runCommand 0x02 cmdAttestGet r params s)

/-- SYS_RESET as a command row. -/
def execSysReset (r : Req) (params : List Byte) (s : State) : Host.Outcome State Fault Refusal :=
  .next (runCommand 0x03 cmdSysReset r params s)

end Sys2Proof.Machine
end

