-- ==== Sys2Proof/Machine/CmdTime.lean ====
section
/-! DEFINITION. Commands of the time family: TIME_GET, TIME_SET, TIME_SLEW, TCMP_ARM (R385 to R389). -/

namespace Sys2Proof.Machine

/-- The signed offset a slew has still to absorb (R130). -/
def Slew.signed (w : Slew) : Int := if w.advance then w.remain else -(w.remain : Int)

/-- The offset still to absorb, 0 without a slew. -/
def State.slewRemain (s : State) : Int :=
  match s.clock.slew with
  | some w => w.signed
  | none => 0

/-- A slew that a reeve imposed has offset left (R123, R385). -/
def State.slewImposed (s : State) : Bool :=
  match s.clock.slew with
  | some w => w.imposed && decide (0 < w.remain)
  | none => false

/-- SYNC of R385. -/
def State.syncCode (s : State) : Nat := if !s.fab.synced then 0 else if s.slewImposed then 2 else 1

/-- TIME_GET (R385). -/
def ownTimeGet (e : QEntry) (s : State) : CmdOut :=
  let rate := match s.clock.slew with
    | some w => w.rate
    | none => 0
  if e.req.pol = owner then
    doneOk (s.clock.tb.bytes ++ leBytes 4 (wordOf 32 s.slewRemain) ++ leBytes 1 rate ++ leBytes 1 s.syncCode) s
  else doneOk (s.clock.tb.bytes ++ leBytes 6 0) s

def cmdTimeGet : QEntry → State → CmdOut :=
  checked { issuer := .all, states := cf, plenOk := (· == 0), reserved := fun _ => [] } ownTimeGet

/-- TIME_SET stages its value and holds the head of the queue until the load (R123 to R125, R386). -/
def ownTimeSet (e : QEntry) (s : State) : CmdOut :=
  let w := field e.params 0 8
  if s.tenantExists || (s.fab.synced && s.fab.role != 2) || s.slewImposed then refuse .notPermitted s
  else if 399999999 < bits w 28 0 then refuse .badParam s
  else .hold .timeSetLoad none { s with clock := { s.clock with staged := some (Tb.ofWord w) } }

def cmdTimeSet : QEntry → State → CmdOut :=
  checked { issuer := .owner, states := cf, plenOk := (· == 8), reserved := fun _ => [(31, 29)] } ownTimeSet

/-- TIME_SLEW (R133, R387). -/
def ownTimeSlew (e : QEntry) (s : State) : CmdOut :=
  let offset := signedOf 32 (field e.params 0 4)
  let rate := (byteAt e.params 4).toNat
  if s.fab.synced && s.fab.role != 2 then refuse .notPermitted s
  else if offset = -2147483648 ∨ rate < 1 ∨ 100 < rate then refuse .badParam s
  else
    let slew : Option Slew := if offset = 0 then none else
      some { advance := decide (0 < offset), remain := offset.natAbs, rate := rate, elapsed := 0, k := 1, imposed := false }
    doneOk (leBytes 4 (wordOf 32 s.slewRemain) ++ leBytes 8 (offset.natAbs * (1000000 / rate)))
      { s with clock := { s.clock with slew := slew } }

def cmdTimeSlew : QEntry → State → CmdOut :=
  checked { issuer := .owner, states := cf, plenOk := (· == 5), reserved := fun _ => [] } ownTimeSlew

/-- What TCMP_ARM with READ = 0 writes to a channel: the RW fields; arming clears FIRED and MISSED; the open EV_TCMP
is closed (R117, R119, R122, R388). -/
def Tcmp.arming (ps : List Byte) (t : Tcmp) : Tcmp :=
  let b := (byteAt ps 16).toNat
  let arm := bit b 0
  { t with value := Tb.ofWord (field ps 4 8), period := BitVec.ofNat 32 (field ps 12 4), arm := arm, wake := bit b 1,
           expose := bit b 2, stamp := bit b 3, fired := if arm then false else t.fired,
           missed := if arm then 0 else t.missed, wrapped := if arm then false else t.wrapped,
           closedEvs := t.closedEvs ++ t.openEv.toList, openEv := none }

/-- TCMP_ARM (R116 to R119, R388, R389). -/
def ownTcmpArm (e : QEntry) (s : State) : CmdOut :=
  let ch := (byteAt e.params 0).toNat
  let read := bit (byteAt e.params 1).toNat 0
  let per := field e.params 12 4
  if read != (e.plen == 4) then refuse .badLength s
  else if ch / 2 ≠ e.req.pol.val ∨ 15 < ch then refuse .notPermitted s
  else if read then doneOk (s.clock.tcmp[Fin.ofNat 16 ch]).descriptor s
  else if bit (byteAt e.params 16).toNat 1 && decide (1 < ch) then refuse .notPermitted s
  else if 399999999 < bits (field e.params 4 4) 28 0 ∨ (1 ≤ per ∧ per < 400000) then refuse .badParam s
  else
    let t := (s.clock.tcmp[Fin.ofNat 16 ch]).arming e.params
    doneOk t.descriptor (s.modTcmp (Fin.ofNat 16 ch) (fun _ => t))

def cmdTcmpArm : QEntry → State → CmdOut :=
  checked { issuer := .all, states := cf, plenOk := fun n => n == 4 || n == 17, reserved := fun _ => [(31, 9), (63, 61), (135, 132)] }
    ownTcmpArm

/-- TIME_GET as a command row. -/
def execTimeGet (r : Req) (params : List Byte) (s : State) : Host.Outcome State Fault Refusal :=
  .next (runCommand 0x20 cmdTimeGet r params s)

/-- TIME_SET as a command row. -/
def execTimeSet (r : Req) (params : List Byte) (s : State) : Host.Outcome State Fault Refusal :=
  .next (runCommand 0x21 cmdTimeSet r params s)

/-- TIME_SLEW as a command row. -/
def execTimeSlew (r : Req) (params : List Byte) (s : State) : Host.Outcome State Fault Refusal :=
  .next (runCommand 0x22 cmdTimeSlew r params s)

/-- TCMP_ARM as a command row. -/
def execTcmpArm (r : Req) (params : List Byte) (s : State) : Host.Outcome State Fault Refusal :=
  .next (runCommand 0x23 cmdTcmpArm r params s)

end Sys2Proof.Machine
end

