-- ==== Sys2Proof/Machine/Service.lean ====
section
/-! DEFINITION. Intake, command slices and the polder timers: PACKET_ARRIVAL, SERVICE_SLICE, ASSEMBLY_TIMEOUT,
ANSWER_HOLD_EXPIRY, OFFER_GENERATE, KEY_AGREEMENT_TIMEOUT, POLDER_ERASE (R318, R325 to R337, R345 to R364). -/

namespace Sys2Proof.Machine

/-- POLD_ANSWER in a tagged packet: the issuer is an untagged sender only (R417). -/
def cmdTaggedAnswer : QEntry → State → CmdOut :=
  checked { issuer := .all, states := mcfr, plenOk := (· == 66), reserved := fun _ => [] } (fun _ s => refuse .notPermitted s)

/-- An unassigned opcode (R355 step 1, R555). -/
def cmdUnassigned (_ : QEntry) (s : State) : CmdOut := if s.arr.mfg.valid then refuse .badOpcode s else refuse .defect s

/-- The opcodes 0x00 to 0x3F (R380, R417). -/
def serveLow (op : Nat) : QEntry → State → CmdOut :=
  match op with
  | 0x00 => cmdSysInfo
  | 0x01 => cmdSysCounters
  | 0x02 => cmdAttestGet
  | 0x03 => cmdSysReset
  | 0x10 => cmdPwrSet
  | 0x11 => cmdPstateSet
  | 0x12 => cmdPwrGet
  | 0x13 => cmdRefusalRead
  | 0x14 => cmdRefusalClear
  | 0x20 => cmdTimeGet
  | 0x21 => cmdTimeSet
  | 0x22 => cmdTimeSlew
  | 0x23 => cmdTcmpArm
  | 0x30 => cmdExpoSet
  | 0x31 => cmdExpoGet
  | 0x32 => cmdTrigFire
  | 0x33 => cmdTrigRead
  | 0x34 => cmdSyncGet
  | 0x35 => cmdPeriodSet
  | 0x36 => cmdWheelGet
  | _ => cmdUnassigned

/-- The opcodes 0x40 to 0x6F (R380, R417). -/
def serveMid (op : Nat) : QEntry → State → CmdOut :=
  match op with
  | 0x40 => cmdStatSelect
  | 0x41 => cmdStatGet
  | 0x42 => cmdOccGet
  | 0x43 => cmdMotionRebase
  | 0x50 => cmdPoldCreate
  | 0x51 => cmdPoldOffer
  | 0x52 => cmdTaggedAnswer
  | 0x53 => cmdPoldDissolve
  | 0x54 => cmdPoldStatus
  | 0x55 => cmdPoldCharter
  | 0x60 => cmdFabRead
  | 0x61 => cmdFabAddrSet
  | 0x62 => cmdFabKeySet
  | 0x63 => cmdFabRankSet
  | 0x64 => cmdRoleSwap
  | 0x65 => cmdFabRoutes
  | 0x66 => cmdFabPeriodSrc
  | 0x67 => cmdFabPeriodSet
  | _ => cmdUnassigned

/-- The opcodes from 0x70 on (R380, R417). -/
def serveHigh (op : Nat) : QEntry → State → CmdOut :=
  match op with
  | 0x70 => cmdArrOpen
  | 0x71 => cmdArrWrite
  | 0x72 => cmdArrCommit
  | 0x73 => cmdArrAbort
  | 0x74 => cmdArrRead
  | 0x75 => cmdArrInfo
  | 0x76 => cmdFwActivate
  | 0x80 => cmdCalRun
  | 0x81 => cmdCalSchedule
  | 0x82 => cmdCalRead
  | 0x83 => cmdCalClear
  | 0x84 => cmdColGet
  | 0x85 => cmdDefectGet
  | 0x86 => cmdTrimGet
  | 0x90 => cmdLcGet
  | 0x91 => cmdLcAdvance
  | 0x92 => cmdBistRun
  | 0x93 => cmdBistRead
  | 0xA0 => cmdThermGet
  | 0xB0 => cmdPixPort
  | 0xB1 => cmdDaliCfg
  | 0xB2 => cmdDaliGet
  | _ => cmdUnassigned

/-- The meaning of an opcode (R380, R417); every other opcode is BAD_OPCODE (R355). -/
def serveOpcode (op : Byte) : QEntry → State → CmdOut :=
  if op.toNat < 0x40 then serveLow op.toNat else if op.toNat < 0x70 then serveMid op.toNat else serveHigh op.toNat

/-- The ESN of a received SEQ: the nearest to NEXT_ADMIT, a tie behind it (R345). -/
def assignEsn (next : Nat) (seq : W16) : Nat :=
  let d := (seq - BitVec.ofNat 16 next).toNat
  if d < 32768 ∨ next + d < 65536 then next + d else next + d - 65536

/-- One more on an intake counter of a polder. -/
def State.countPol (p : PolId) (f : PolCounters → PolCounters) (s : State) : State := s.modPol p (fun q => { q with cnt := f q.cnt })

/-- The form of a command packet (R338, R339, R349 step 1). -/
def packetFormOk (pk : Packet) : Bool := pk.ptype == 1 && pk.flags / 4 == 0 && decide (16 ≤ pk.len) && decide (pk.len ≤ 128)

/-- The ESN is queued or being served, where a head that has replied is still held (R349 step 7, R353). -/
def Polder.holdsEsn (q : Polder) (n : Nat) : Bool :=
  q.queue.any (fun e => e.kind == .command && e.esn == n) || q.serving.any (fun v => v.entry.esn == n)

/-- The sender's side of a packet whose body has been read (R338, R339). -/
def reqOf (pk : Packet) (b : PacketBody) : Req := { pol := pk.pol, more := pk.more, handle := b.handle, path := pk.path }

/-- The queue entry of a packet whose tag has passed (R338, R349). -/
def entryOf (kind : EntryKind) (pk : Packet) (b : PacketBody) (esn : Nat) (key : BitVec 128) : QEntry :=
  { kind := kind, opcode := b.opcode, req := reqOf pk b, params := b.params, plen := b.plen, esn := esn, key := key, raw := pk.bytes }

/-- Intake steps 6 to 11 for a packet whose tag has passed (R349). -/
def State.admitTagged (pk : Packet) (b : PacketBody) (n : Nat) (key : BitVec 128) (s : State) : State :=
  let p := pk.pol
  let q := s.pol p
  let gap := (s.countPol p (fun c => { c with seqGap := sat16 c.seqGap })).untagged p pk.seq .seqGap (BitVec.ofNat 16 q.nextAdmit) pk.path
  let busy := (s.countPol p (fun c => { c with queueFull := sat16 c.queueFull })).untagged p pk.seq .busy 0 pk.path
  if q.nextAdmit < n then gap
  else if n < q.nextAdmit then
    if q.holdsEsn n then s.countPol p (fun c => { c with retryQueued := sat16 c.retryQueued })
    else if !q.journal.any (fun r => r.esn == n) then gap
    else if 8 ≤ q.queued then busy
    else s.modPol p (fun q => { q with queue := q.queue ++ [entryOf .duplicate pk b n key] })
  else if s.queueClosed p then busy
  else
    let e := entryOf .command pk b n key
    (s.admitCommand e).modPol p (fun q => { q with queue := q.queue ++ [e] })

/-- The body of a packet whose tag passes under a key with the ESN of its SEQ, and that ESN (R341, R345, R349 step 5). -/
def State.unsealed (s : State) (pk : Packet) : Option (PacketBody × Nat × BitVec 128) :=
  let n := assignEsn (s.pol pk.pol).nextAdmit pk.seq
  if pk.untagged then none
  else (s.sessionKey pk.pol pk.path).bind (fun key => (commandBody key n pk).map (fun b => (b, n, key)))

/-- One packet through the intake phase (R349). DESIGN CHOICE: an ANSWER part that step 4 admits at a full queue is answered BUSY and
counted as step 9 says (notes/assumptions/68.md). -/
def State.intakeStep (pk : Packet) (s : State) : State :=
  let p := pk.pol
  let body := clearBody pk
  let answer := pk.untagged && body.opcode == 0x52
  if !packetFormOk pk then s.countPol p (fun c => { c with intakeDrop := sat16 c.intakeDrop })
  else if pk.path = .host ∧ s.power.accepting = false then s.untagged p pk.seq .notReady 0 pk.path
  else if s.polderGone p && !(answer && (s.pol p).state == .chartered) then s.untagged p pk.seq .polderGone 0 pk.path
  else if answer && s.takesAnswer p then
    if 8 ≤ (s.pol p).queued then
      (s.countPol p (fun c => { c with queueFull := sat16 c.queueFull })).untagged p pk.seq .busy 0 pk.path
    else s.modPol p (fun q => { q with queue := q.queue ++ [answerEntry (reqOf pk body) body.params body.plen pk.bytes] })
  else
    match s.unsealed pk with
    | some (b, n, key) => s.admitTagged pk b n key
    | none => (s.countPol p (fun c => { c with authFail := sat16 c.authFail })).untagged p pk.seq .authFail 0 pk.path

/-- The intake phase of a slice: every packet that waits, in arrival order (R348). -/
def State.runIntake (p : PolId) (s : State) : State :=
  let waiting := (s.pol p).intake
  waiting.foldl (fun s pk => s.intakeStep pk) (s.modPol p (fun q => { q with intake := [] }))

/-- A duplicate request is answered from the journal, or with an untagged SEQ_GAP (R363, R364). -/
def State.serveDuplicate (e : QEntry) (s : State) : State :=
  let p := e.req.pol
  let q := s.pol p
  match q.journal.find? (fun r => r.esn == e.esn) with
  | some r =>
    (s.queueReply p { r with status := .duplicate, origStatus := r.status, dup := true, path := e.req.path }).countPol p
      (fun c => { c with dupServed := sat16 c.dupServed })
  | none =>
    (s.countPol p (fun c => { c with seqGap := sat16 c.seqGap })).untagged p (BitVec.ofNat 16 e.esn) .seqGap (BitVec.ofNat 16 q.nextAdmit) e.req.path

/-- The polder an entry was admitted for is no more: absent, or its number has a new holder (R330, R332, R333). -/
def State.entryGone (s : State) (e : QEntry) : Bool :=
  let p := e.req.pol
  p != owner && !(e.kind == .answerPart && s.takesAnswer p) && (!s.lives p || (e.kind != .answerPart && e.key != (s.pol p).key))

/-- An entry of a polder that is no more: a command is answered POLDER_GONE under the key it was admitted under, anything else
without a tag; neither is journalled (R330, R333). -/
def State.serveGone (e : QEntry) (s : State) : State :=
  let p := e.req.pol
  if e.kind = .command then s.queueReply p (replyOf p e { status := .polderGone, effectFrame := none, results := [] } s)
  else s.untagged p (BitVec.ofNat 16 e.esn) .polderGone 0 e.req.path

/-- A queue entry is served (R352, R363, R436). -/
def State.serveEntry (e : QEntry) (s : State) : State :=
  if s.entryGone e then s.serveGone e
  else
    match e.kind with
    | .command => serveWith (serveOpcode e.opcode) e s
    | .duplicate => s.serveDuplicate e
    | .answerPart => s.serveAnswer e

/-- Slices a command may take beyond its first at the point of SEQ: at most twice as many at P1, four times at P2 (R170). -/
def slowBound (point : Fin 3) : Nat := if point = 0 then 0 else if point = 1 then 1 else 3

/-- The command at the head takes one more slice at P1 or P2: how many it takes is not specified within the bound, and is a
free value (R170; notes/assumptions/3.md). -/
def State.tarries (s : State) (p : PolId) : Bool :=
  decide ((s.pol p).slow < slowBound s.power.points[2]) && s.draw % 2 == 1

/-- A PWR_SET's entry or return is in progress (R143). -/
def State.powerBusy (s : State) : Bool := s.power.entry.isSome || s.power.ret.isSome || s.power.pendingEntry.isSome

/-- The reply of a PWR_SET leaves in the first owner slice that ends at least 4.000 ms after the entry reference instant; every
other one as soon as its command is finished (R147, R352). -/
def State.replyDue (s : State) (rule : HoldRule) : Bool :=
  if rule = .powerChange then decide (s.power.entryRef + 1600000 ≤ s.clock.elapsed) else true

/-- The head of the queue is served (R352 to R354): a command held there may become ready, wait, or start again once the block
it needs is free; otherwise the next entry. -/
def State.serveHead (p : PolId) (s : State) : State :=
  let q := s.pol p
  if 8 ≤ q.replyQ.length then s
  else
    match q.serving with
    | some v =>
      match v.answer with
      | some a =>
        if v.ready && !v.replied && s.replyDue v.rule then
          (s.deliver p v.entry a).modPol p (fun q =>
            { q with serving := if v.rule = .powerChange ∧ s.powerBusy = true then some { v with replied := true } else none })
        else s
      | none =>
        if (v.rule = .blockUnderTest ∧ s.blockUnderTest 10 = false) ∨ (v.rule = .powerIdle ∧ s.powerBusy = false) then
          (s.modPol p (fun q => { q with serving := none })).serveEntry v.entry
        else s
    | none =>
      match q.queue with
      | [] => s
      | e :: rest =>
        if s.tarries p then (s.modPol p (fun q => { q with slow := q.slow + 1 })).drawn
        else (s.drawn.modPol p (fun q => { q with queue := rest, slow := 0 })).serveEntry e

/-- What the start of a service round renews: the untagged reply of each destination, the spacing of the owner's page programs, and the
lands whose supply has returned (R72, R361, R593). -/
def State.startRound (s : State) : State :=
  { s with fab := { s.fab with spillDest := [] }, arr := { s.arr with ownerStarts := s.arr.ownerStarts + 1 },
           power := { s.power with vioLost := s.power.vioLost && !s.power.vioWaits, vioWaits := false } }

/-- The pages a read-margin check reads in an owner slice, none while a page program of the owner is in progress; how many are
below margin is a free value within the pages read (R624, R625; notes/assumptions/3.md). -/
def State.marginSlice (s : State) : State :=
  match s.bist.job with
  | some j =>
    if j.algo ≠ 2 ∨ j.started = false ∨ s.arr.jobs.any (fun x => x.1 = owner) = true ∨ s.domOn 11 = false then s
    else
      let n := min 50 j.pagesLeft
      let j1 := { j with pagesLeft := j.pagesLeft - n, below := min 65535 (j.below + s.draw % (n + 1)) }
      let s : State := { s.drawn with bist := { s.bist with job := some j1 } }
      if j1.pagesLeft = 0 then s.finishBist j1 else s
  | none => s

/-- SERVICE_SLICE: the intake phase, the head of the queue, the reply instant (R318, R348, R352). -/
def execServiceSlice (p : PolId) (s : State) : Host.Outcome State Fault Refusal :=
  if !s.sequencing then .next s
  else
    let s := s.closeSlice
    let s := if p = owner then s.startRound.marginSlice else s
    .next ((({ s with curSlice := some p }).runIntake p).serveHead p).issueAll

/-- A packet reaches its polder's intake of 4, or is dropped; line packets in MANUFACTURE and RETURN do not reach it (R348,
R609); a wake for traffic is latched (R157, R164). -/
def State.arrive (pk : Packet) (s : State) : State :=
  if pk.path ≠ .host ∧ (s.life.shadow = .manufacture ∨ s.life.shadow = .ret) then s
  else if pk.path = .host ∧ s.hostPol ≠ pk.pol then s.bindMiss
  else
    let s := s.trafficWake pk.path
    if 4 ≤ (s.pol pk.pol).intake.length then s.countPol pk.pol (fun c => { c with intakeDrop := sat16 c.intakeDrop })
    else s.modPol pk.pol (fun q => { q with intake := q.intake ++ [pk] })

/-- PACKET_ARRIVAL: before commands are accepted a line packet is dropped and counted (R350, R506); otherwise the packet reaches
its polder's intake (R348). -/
def execPacketArrival (pk : Packet) (s : State) : Host.Outcome State Fault Refusal :=
  .next (
    match pk.path with
    | .line d => if s.power.accepting then s.arrive pk else s.countPort (s.portToward d) 3
    | .host => s.arrive pk)

/-- ASSEMBLY_TIMEOUT: the open assembly is discarded; its next part is answered LEASE_EXPIRED (R356). -/
def execAssemblyTimeout (p : PolId) (s : State) : Host.Outcome State Fault Refusal :=
  .next (s.modPol p (fun q => { q with assembly := q.assembly.map (fun a => { a with parts := [], expired := true }) }))

/-- ANSWER_HOLD_EXPIRY: the ANSWER parts held are dropped (R436). -/
def execAnswerHoldExpiry (p : PolId) (s : State) : Host.Outcome State Fault Refusal := .next (s.dropParts p)

/-- OFFER_GENERATE: the ephemeral key pair and the signed OFFER of the key agreement of polder p (R325 step 2, R434). -/
def execOfferGenerate (p : PolId) (s : State) : Host.Outcome State Fault Refusal :=
  .next (
    match s.ka with
    | some k =>
      if k.pol = p ∧ k.offered = false ∧ s.sequencing = true then
        let d := scalarOf s.draw
        let k1 := { k with offered := true, dE := d, qE := (base256.mul d).bytes }
        let sig := ecdsaSign (scalarOf Config.attestKey) (scalarOf s.drawn.draw) (offerSigned s.life.uid k1)
        (({ s with ka := some { k1 with signature := sig } } : State).drawn).drawn
      else s
    | none => s)

/-- KEY_AGREEMENT_TIMEOUT: the key agreement is abandoned with cause TIMEOUT (R327, R336). -/
def execKeyAgreementTimeout (s : State) : Host.Outcome State Fault Refusal := .next (s.abandonAgreement 1)

/-- Once no tenant is left, a transition out of FIELD goes on: to COMMISSION with the BOOT item, to RETURN or SCRAPPED with the
reply that the reset waits for (R459, R603). -/
def State.leaveField (s : State) : State :=
  match (s.pol owner).serving, s.life.pending with
  | some v, some x =>
    if v.rule = .lifecycleLeave ∧ s.tenantExists = false then
      if x.target = .commission then
        (s.modPol owner (fun q => { q with serving := some { v with rule := .itemCommit 0x12 } })).requestField .commission
      else
        (s.awaitReset x.target v.entry.esn).answerHeld owner (lcAnswer s.life.shadow x.target)
    else s
  | _, _ => s

/-- POLDER_ERASE: everything of a polder whose DISSOLVED record has been issued is erased, its bindings return, its slots and
number are free, and the owner is told (R116, R313, R332, R464, R645). DESIGN CHOICE: of the counters R197 clears when a binding moves, the
tenant's TRIG_OVERRUN and TRIG_DROPPED go with it and the owner's stay as they are (notes/assumptions/53.md). -/
def execPolderErase (p : PolId) (s : State) : Host.Outcome State Fault Refusal :=
  .next (
    match (s.pol p).gone with
    | some g =>
      if g.issued then
        let old := s.hostPol
        let heldDali := (s.pol p).charter.bind.toNat.testBit 2
        let s := ((s.modPol p Polder.emptied).storePolder p).storeSeqs p
        let s := (s.modTcmp (Fin.ofNat 16 (2 * p.val)) (fun _ => Tcmp.zero)).modTcmp (Fin.ofNat 16 (2 * p.val + 1)) (fun _ => Tcmp.zero)
        let s := s.rebindFrom old
        let s := if heldDali then s.resetDali owner else s
        (s.ownerEvent 0x0042 (leBytes 1 p.val ++ leBytes 1 g.reason ++ leBytes 2 g.goneCount ++ leBytes 4 g.lastFrame.toNat)).leaveField
      else s
    | none => s)

end Sys2Proof.Machine
end

