-- ==== Sys2Proof/Machine/DaliEv.lean ====
section
/-! DEFINITION. The DALI-2 port: DALI_FRAME_RECEIVE, DALI_BUS_POWER_LOST, DALI_BUS_POWER_RESTORED, DALI_REPORT_TIMER,
DALI_EVENT_SEND (R651 to R657). The codes of IEC 62386-103, -303 and -304 are the standard's (notes/assumptions/7.md). -/

namespace Sys2Proof.Machine

/-- The port runs: HOST ON, COMMISSION or FIELD, VIO present (R651, R72). -/
def State.daliActive (s : State) : Bool :=
  s.domOn 12 && s.landsFree && (s.life.shadow == .commission || s.life.shadow == .field)

/-- The area an instance reports, if any: OCC_AREA for 0, LIGHT_AREA for 1, as they act since the last STATS frame (R464, R653, R654). -/
def State.daliArea (s : State) (inst : Nat) : Option Area :=
  let a := if inst = 0 then s.dali.occArea else s.dali.lightArea
  if a = 0xff then none else (s.pol (s.bindHolder 2)).charter.selection.areas[a.toNat]?

/-- The input value byte of instance 0: occupancy and movement, two bits repeated (R653). -/
def Dali.occValue (d : Dali) : Byte := BitVec.ofNat 8 (85 * (2 * b2n d.occupied + b2n d.movement))

/-- The event information of an instance's present value. -/
def Dali.eventInfo (d : Dali) (inst : Nat) : Nat :=
  if inst = 0 then 2 * b2n d.occupied + b2n d.movement else d.lux / 64

/-- HOLD_T in units of 10 s, rounded up and capped (R653). -/
def holdTimerUnits (a : Area) : Byte := BitVec.ofNat 8 (min 254 ((a.holdSeconds + 9) / 10))

/-- A frame addresses this device (R652): broadcast, broadcast to unaddressed devices, or its short address. -/
def daliAddressed (f : DaliFrame) (short : Byte) : Bool :=
  f.address == 0xff || (f.address == 0xfd && short == 0xff) || (f.address.toNat % 2 == 1 && f.address.toNat / 2 == short.toNat)

/-- What the spec fixes of a query's answer; `none` leaves it to IEC 62386 (R652 to R655). -/
def State.daliQuery (s : State) (f : DaliFrame) : Option (Option Byte) :=
  let inst := f.inst.toNat
  if f.inst = 0xfe ∧ f.opcode = 0x35 then some (some 2)
  else if 1 < inst then none
  else if f.opcode = 0x80 then some (some (if inst = 0 then 3 else 4))
  else if f.opcode = 0x82 then some (if (s.daliArea inst).isNone then some 0xff else none)
  else if f.opcode = 0x8c then
    some ((s.daliArea inst).map (fun _ => if inst = 0 then s.dali.occValue else BitVec.ofNat 8 (s.dali.lux / 256)))
  else if f.opcode = 0x8d ∧ inst = 1 then some ((s.daliArea 1).map (fun _ => BitVec.ofNat 8 s.dali.lux))
  else if f.opcode = 0x2d ∧ inst = 0 then some ((s.daliArea 0).map holdTimerUnits)
  else if f.opcode = 0x21 ∧ inst = 0 then some none
  else none

/-- The short or random address, or the settings, changed from the bus: the node's own write, attributed to the bound polder
(R656). -/
def State.daliStore (d : DaliItem) (s : State) : State :=
  if d = s.daliWanted then s else s.requestItem (s.bindHolder 2) (.dali d)

/-- The answer to a frame. -/
def State.daliAnswer (a : Option Byte) (s : State) : State := { s with dali := { s.dali with answer := a } }

/-- A byte of the search address replaced (R652). -/
def setSearch (a : BitVec 24) (k : Nat) (v : Byte) : BitVec 24 :=
  BitVec.ofNat 24 (a.toNat - (a.toNat / 256 ^ k % 256) * 256 ^ k + v.toNat * 256 ^ k)

/-- A DALI_CFG committed since the holder's last STATS frame acts from this one on (R464). -/
def Dali.takeAreas (d : Dali) : Dali :=
  match d.areasNext with
  | some a => { d with occArea := a.1, lightArea := a.2, areasNext := none }
  | none => d

/-- The addressing commands of IEC 62386-103 (R652): INITIALISE, RANDOMISE, search and programming. -/
def State.daliSpecial (cmd v : Byte) (s : State) : State :=
  let d := s.daliWanted
  let found := s.dali.initialised && d.randomAddr == s.dali.searchAddr
  let s := s.daliAnswer none
  match cmd.toNat with
  | 0x00 => { s with dali := { s.dali with initialised := false } }
  | 0x01 => { s with dali := { s.dali with initialised := s.dali.initialised || v == 0xff || (v == 0x7f && d.shortAddr == 0xff) || v == d.shortAddr } }
  | 0x02 => if s.dali.initialised then (s.daliStore { d with randomAddr := BitVec.ofNat 24 s.draw }).drawn else s
  | 0x03 => s.daliAnswer (if s.dali.initialised && decide (d.randomAddr.toNat ≤ s.dali.searchAddr.toNat) then some 0xff else none)
  | 0x04 => if found then { s with dali := { s.dali with initialised := false } } else s
  | 0x05 => { s with dali := { s.dali with searchAddr := setSearch s.dali.searchAddr 2 v } }
  | 0x06 => { s with dali := { s.dali with searchAddr := setSearch s.dali.searchAddr 1 v } }
  | 0x07 => { s with dali := { s.dali with searchAddr := setSearch s.dali.searchAddr 0 v } }
  | 0x08 => if found && (v == 0xff || decide (v.toNat < 64)) then s.daliStore { d with shortAddr := v } else s
  | 0x09 => s.daliAnswer (if found && v == d.shortAddr then some 0xff else none)
  | 0x0a => s.daliAnswer (if found then some d.shortAddr else none)
  | _ => (s.daliAnswer (Config.daliAnswer d.settings 0xc1 cmd v)).daliStore { d with settings := Config.daliSettings d.settings 0xc1 cmd v }

/-- DALI_FRAME_RECEIVE (R651 to R656, R658). -/
def execDaliFrameReceive (f : DaliFrame) (s : State) : Host.Outcome State Fault Refusal :=
  .next (
    if !s.daliActive || s.dali.busDown then s
    else if f.address = 0xc1 then s.daliSpecial f.inst f.opcode
    else if !daliAddressed f s.daliWanted.shortAddr then s.daliAnswer none
    else
      match s.daliQuery f with
      | some a => s.daliAnswer a
      | none =>
        let d := s.daliWanted
        (s.daliAnswer (Config.daliAnswer d.settings f.address f.inst f.opcode)).daliStore
          { d with settings := Config.daliSettings d.settings f.address f.inst f.opcode })

/-- DALI_BUS_POWER_LOST: no bus power; events that arose are not sent (R657). -/
def execDaliBusPowerLost (s : State) : Host.Outcome State Fault Refusal :=
  .next (if s.daliActive then { s with dali := { s.dali with busDown := true, pendingEv := [] } } else s)

/-- DALI_BUS_POWER_RESTORED (R657). -/
def execDaliBusPowerRestored (s : State) : Host.Outcome State Fault Refusal :=
  .next (if s.daliActive then { s with dali := { s.dali with busDown := false } } else s)

/-- An event of an instance waits to be sent, unless the bus has no power or the instance reports nothing (R655, R657). -/
def State.daliEvent (inst : Fin 2) (s : State) : State :=
  if s.dali.busDown || (s.daliArea inst.val).isNone || !s.daliActive then s
  else
    { s with dali := { s.dali with pendingEv := s.dali.pendingEv ++ [(inst.val, s.dali.eventInfo inst.val)],
                                   timerOn := s.dali.timerOn.set inst true } }

/-- DALI_REPORT_TIMER: the repeat event, or the events held by the deadtime timer (R652). -/
def execDaliReportTimer (inst : Fin 2) (s : State) : Host.Outcome State Fault Refusal :=
  .next (if s.dali.timerOn[inst] then s.daliEvent inst else s)

/-- DALI_EVENT_SEND: the oldest event is sent on an idle bus; after a collision it is sent again later (R652, R657). -/
def execDaliEventSend (collided : Bool) (s : State) : Host.Outcome State Fault Refusal :=
  .next (
    match s.dali.pendingEv with
    | e :: rest =>
      if s.daliActive && !s.dali.busDown && !collided then { s with dali := { s.dali with pendingEv := rest, sentEv := [e] } } else s
    | [] => s)

end Sys2Proof.Machine
end

