-- ==== Sys2Proof/Machine/HostEv.lean ====
section
/-! DEFINITION. The host port: TXFIFO, TXFIFO_PACKET_TO_INTAKE, RXFIFO, RXFIFO_ENQUEUE, IRQ_FLAGS, HOST_REGISTER_WRITE,
TIME_SUB_READ (R115, R626 to R645). -/

namespace Sys2Proof.Machine

/-- The host port answers transactions: HOST ON, VIO present, no reset, its FIFO usable and not under test (R47, R72, R620,
R623). -/
def State.hostActive (s : State) : Bool :=
  s.landsFree && s.domOn 12 && !s.bist.unusable.toNat.testBit 11 && !s.blockUnderTest 11

/-- A transaction on a bus reaches the node: no transport is selected yet, or this one is (R626). -/
def State.busServes (s : State) (b : HostBus) : Bool := s.hostActive && (s.host.sel.isNone || s.host.sel == some b)

/-- The first transaction selects the serving transport (R626). -/
def State.selectBus (b : HostBus) (s : State) : State := { s with host := { s.host with sel := some (s.host.sel.getD b) } }

/-- A packet discarded for bad framing (R637, R641). -/
def HostPort.packetError (h : HostPort) : HostPort := { h with pktErr := true, pktErrCnt := satInc 255 h.pktErrCnt }

/-- A packet discarded for lack of room (R637, R641). -/
def HostPort.overflow (h : HostPort) : HostPort := { h with txOvf := true, txOvfCnt := satInc 255 h.txOvfCnt }

/-! ### Transactions (R626 to R633, R641, R643, R646) -/

/-- The transfer in progress ends: a packet that it is inside of is discarded for bad framing, and a binding that has left meanwhile clears
the port (R641, R645, R646). -/
def State.endXfer (s : State) : State :=
  match s.host.xfer with
  | none => s
  | some x =>
    let h := if !x.dead && !x.read && x.index == 4 && !x.part.isEmpty then s.host.packetError else s.host
    let s : State := { s with host := { h with xfer := none } }
    match s.host.leaving with
    | some old => s.clearBinding old
    | none => s

/-- A transaction starts with its header or index byte: one that still runs has ended, the bus is selected, and over SPI the header byte
carries STATUS[7:0] back (R626, R629, R631). -/
def State.startXfer (bus : HostBus) (read : Bool) (index : Nat) (dead : Bool) (s : State) : State :=
  let s := s.endXfer.selectBus bus
  { s with host := { s.host with xfer := some { bus := bus, read := read, index := index, part := [], skip := 0, dead := dead },
                                 headerOut := if bus = .spi then BitVec.ofNat 8 s.statusWord else s.host.headerOut } }

/-- The transfer in progress, or a new one, at a FIFO (R632). -/
def State.fifoXfer (bus : HostBus) (read : Bool) (index : Nat) (s : State) : State :=
  if s.host.xfer.any (fun x => x.bus == bus && x.read == read && x.index == index) then s else s.startXfer bus read index false

/-- The W1C bits of IRQ_FLAGS cleared where the word has 1 (R638). -/
def HostPort.clearFlags (w : Nat) (h : HostPort) : HostPort :=
  { h with wakeDone := h.wakeDone && !bit w 2, txOvf := h.txOvf && !bit w 3, pktErr := h.pktErr && !bit w 4,
           rxUnf := h.rxUnf && !bit w 5, lcChange := h.lcChange && !bit w 6 }

/-- A complete register write (R633 to R638): IRQ_FLAGS and IRQ_EN take it, every other register ignores it; the reserved bits of
IRQ_EN read 0. -/
def HostPort.writeRegister (i w : Nat) (h : HostPort) : HostPort :=
  if i = 2 then h.clearFlags w else if i = 3 then { h with irqEn := BitVec.ofNat 32 (w % 128) } else h

/-- A byte written to TXFIFO: the length word, then the packet, which enters when it is complete; one without room is consumed without
effect, and a length outside 16 to 128 ends the transaction's effect (R157, R164, R640, R641). -/
def State.writeTxByte (b : Byte) (x : Xfer) (s : State) : State :=
  let next : Xfer → HostPort → State := fun y h => { s with host := { h with xfer := some y } }
  if x.skip ≠ 0 then next { x with skip := x.skip - 1 } s.host
  else
    let part := x.part ++ [b]
    let len := leNat (part.take 2)
    if part.length < 2 then next { x with part := part } s.host
    else if part.length = 2 ∧ (len < 16 ∨ 128 < len) then next { x with part := [], dead := true } s.host.packetError
    else if part.length = 2 ∧ s.host.txFree < fifoBytes len then next { x with part := [], skip := len } s.host.overflow
    else if part.length < fifoBytes len then next { x with part := part } s.host
    else
      (next { x with part := [] } { s.host with tx := s.host.tx ++ [{ bytes := part.drop 2, path := Path.host }] }).trafficWake .host

/-- A data byte of a write: to TXFIFO, or to a register, which takes effect at its fourth byte and moves the index on; RXFIFO and indices
beyond 0x1F ignore it (R632, R633). -/
def State.writeByte (s : State) (b : Byte) : State :=
  match s.host.xfer with
  | none => s
  | some x =>
    if x.dead || x.read || x.index == 5 || decide (0x20 ≤ x.index) then s
    else if x.index = 4 then s.writeTxByte b x
    else
      let part := x.part ++ [b]
      if part.length < 4 then { s with host := { s.host with xfer := some { x with part := part } } }
      else { s with host := { s.host.writeRegister x.index (leNat part) with xfer := some { x with index := x.index + 1, part := [] } } }

/-- TIME_SUB read: SUB is returned, and SEC latched into the shadow on the same edge (R115, R636). -/
def State.latchTime (s : State) : State :=
  { s with clock := { s.clock with secShadow := s.clock.tb.sec, subOut := BitVec.ofNat 32 s.clock.tb.sub.toNat } }

/-- A packet wholly read by the host: an owner's reply counts as carried (R148, R643). -/
def State.packetRead (k : OutPacket) (s : State) : State :=
  match k with
  | .reply r => if r.pol = owner ∧ r.untagged = false then s.markCarried r.esn else s
  | _ => s

/-- A packet as it stands in a FIFO: its length word and its bytes (R640). -/
def OutPacket.fifo (k : OutPacket) : List Byte := leBytes 2 k.size ++ k.bytes

/-- A byte read from RXFIFO: the next of the oldest packet, which leaves with its last byte; without one 0, and RX_UNF (R640, R643). -/
def State.readRxByte (s : State) : Byte × State :=
  match s.host.rx with
  | [] => (0, { s with host := { s.host with rxUnf := true, rxUnfCnt := satInc 255 s.host.rxUnfCnt } })
  | k :: rest =>
    let b := byteAt k.fifo s.host.rxRead
    if s.host.rxRead + 1 < fifoBytes k.size then (b, { s with host := { s.host with rxRead := s.host.rxRead + 1 } })
    else (b, ({ s with host := { s.host with rx := rest, rxRead := 0, readOut := s.host.readOut ++ [k] } } : State).packetRead k)

/-- The value of a register as a read captures it; TIME_SUB latches SEC (R115, R633, R636). -/
def State.captureRegister (i : Nat) (s : State) : Nat × State :=
  if i = 6 then (s.latchTime.clock.subOut.toNat, s.latchTime) else (s.windowWord i, s)

/-- A data byte of a read: from RXFIFO, or of a register, which is captured as its first byte goes out; TXFIFO and indices beyond 0x1F
read 0 (R632, R633). -/
def State.readByte (s : State) : Byte × State :=
  match s.host.xfer with
  | none => (0, s)
  | some x =>
    let at_ : Xfer → State → State := fun y s => { s with host := { s.host with xfer := some y } }
    if x.dead || !x.read || x.index == 4 || decide (0x20 ≤ x.index) then (0, s)
    else if x.index = 5 then s.readRxByte
    else
      match x.part with
      | [] => ((leBytes 4 (s.captureRegister x.index).1).headD 0,
               at_ { x with part := (leBytes 4 (s.captureRegister x.index).1).drop 1 } (s.captureRegister x.index).2)
      | [b] => (b, at_ { x with index := x.index + 1, part := [] } s)
      | b :: rest => (b, at_ { x with part := rest } s)

/-- `n` data bytes read in a row. -/
def State.readMany : Nat → State → List Byte × State
  | 0, s => ([], s)
  | n + 1, s => ((s.readByte).1 :: (s.readByte.2.readMany n).1, (s.readByte.2.readMany n).2)

/-- `n` data bytes read by the host. -/
def State.hostRead (n : Nat) (s : State) : State :=
  let r := ({ s with host := { s.host with readOut := [] } } : State).readMany n
  { r.2 with host := { r.2.host with readBytes := r.1 } }

/-- TXFIFO: bytes of a write transaction at TXFIFO, which this one continues or starts, and may end (R157, R164, R626, R641, R646). -/
def execTxfifo (bus : HostBus) (bytes : List Byte) (ends : Bool) (s : State) : Host.Outcome State Fault Refusal :=
  .next (
    if s.busServes bus then
      let s := bytes.foldl State.writeByte (s.fifoXfer bus false 4)
      if ends then s.endXfer else s
    else s)

/-- TXFIFO_PACKET_TO_INTAKE: the oldest packet leaves while SEQ and ENC are ON and the bound polder's intake has room; one for
another polder is discarded and counted (R642). -/
def execTxfifoPacketToIntake (s : State) : Host.Outcome State Fault Refusal :=
  .next (
    match s.host.tx with
    | [] => s
    | pk :: rest =>
      let p := s.hostPol
      if !s.hostActive || !s.domOn 7 || !s.domOn 8 || s.host.leaving.isSome then s
      else if pk.pol ≠ p then ({ s with host := { s.host with tx := rest } }).bindMiss
      else if (s.pol p).intake.length < 4 then
        ({ s with host := { s.host with tx := rest } }).modPol p (fun q => { q with intake := q.intake ++ [pk] })
      else s)

/-- RXFIFO: bytes of a read transaction at RXFIFO, which this one continues or starts, and may end (R148, R626, R643, R646). -/
def execRxfifo (bus : HostBus) (bytes : Nat) (ends : Bool) (s : State) : Host.Outcome State Fault Refusal :=
  .next (
    if s.busServes bus then
      let s := (s.fifoXfer bus true 5).hostRead bytes
      (if ends then s.endXfer else s).sysResetDue
    else s)

/-- A reply of a polder whose path is the host port, the oldest, and the queue without it (R369, R643). -/
def takeReply (path : Path) : List Reply → Option (Reply × List Reply)
  | [] => none
  | r :: rest =>
    if r.path = path then some (r, rest)
    else (takeReply path rest).map (fun x => (x.1, r :: x.2))

/-- The next fragment of a delivery record (R367). -/
def DlvRec.nextFragment (p : PolId) (r : DlvRec) : OutPacket :=
  .frag p r.ersEq r.sent (12 + r.body.length) (fragment (r.bytes p.val) r.sent) r.key

/-- The delivery queue after its first record of one path has sent one fragment (R370). -/
def sendFragment (mine : DlvRec → Bool) : List DlvRec → List DlvRec
  | [] => []
  | r :: rest =>
    if mine r then (if r.sent + 1 < r.frags then { r with sent := r.sent + 1 } :: rest else rest) else r :: sendFragment mine rest

/-- The path a record leaves on: the delivery path at its entry into the queue, or today's where there was none then (R368, R369,
R645). -/
def Polder.pathOf (q : Polder) (r : DlvRec) : Option Path := r.path.or q.path

/-- A record may be sealed: its number is below the committed S_R, which an owner's new key leaves and a tenant's number gets afresh with its
next key; or its key is neither its polder's nor the array's any more, so that no restart can resume it (R332, R365, R366, R433;
notes/assumptions/40.md). -/
def State.sealable (s : State) (p : PolId) (r : DlvRec) : Bool :=
  let q := s.pol p
  (decide (r.ersEq < q.sR) && (r.key == q.key || p == owner || q.state != .active)) ||
  (r.key != q.key && !(s.arr.stored[p]).any (fun y => y.key == r.key))

/-- The record that may be sent of those on one path: their first, where it may be sealed (R365, R368, R369). -/
def State.recordReady (s : State) (p : PolId) (mine : DlvRec → Bool) : Option DlvRec := ((s.pol p).dlv.find? mine).filter (s.sealable p)

/-- A record leaves by the host port (R368, R643). -/
def Polder.hostBound (q : Polder) (r : DlvRec) : Bool := q.pathOf r == some Path.host

/-- A packet enters RXFIFO. -/
def State.pushRx (k : OutPacket) (s : State) : State := { s with host := { s.host with rx := s.host.rx ++ [k] } }

/-- RXFIFO_ENQUEUE: the next packet for the host enters RXFIFO where it has room: untagged replies first, then replies, then
record fragments (R369, R643). -/
def execRxfifoEnqueue (s : State) : Host.Outcome State Fault Refusal :=
  let p := s.hostPol
  let q := s.pol p
  let room := s.host.rxFree
  .next (
    if !s.domOn 12 || s.host.leaving.isSome || s.bist.unusable.toNat.testBit 11 || s.blockUnderTest 11 then s
    else
      match s.host.waiting with
      | r :: rest => if fifoBytes 16 ≤ room then ({ s with host := { s.host with waiting := rest } }).pushRx (.reply r) else s
      | [] =>
        if room < fifoBytes 128 then s
        else
          match takeReply .host q.replyQ with
          | some (r, rest) => (s.modPol p (fun q => { q with replyQ := rest })).pushRx (.reply r)
          | none =>
            match s.recordReady p q.hostBound with
            | some r => (s.modPol p (fun x => { x with dlv := sendFragment q.hostBound x.dlv })).pushRx (r.nextFragment p)
            | none => s)

/-- IRQ_FLAGS: a write of 1 clears a W1C bit (R638). -/
def execIrqFlags (w : W32) (s : State) : Host.Outcome State Fault Refusal :=
  .next (if s.hostActive then { s with host := s.host.clearFlags w.toNat } else s)

/-- HOST_REGISTER_WRITE: a transaction at a window register, as far as its bytes go. A header or index byte with a reserved bit set makes
the node ignore the rest; a read, asked for by the SPI header's RW bit or over I²C by the repeated START, returns the bytes asked for
(R629 to R633, R646). -/
def execHostRegisterWrite (bus : HostBus) (header : Byte) (read : Bool) (bytes : List Byte) (ends : Bool) (s : State) :
    Host.Outcome State Fault Refusal :=
  let h := header.toNat
  let isRead := if bus = .spi then bit h 7 else read
  let dead := if bus = .spi then bits h 6 5 != 0 else bits h 7 5 != 0
  .next (
    if !s.busServes bus then s
    else
      let s := s.startXfer bus isRead (bits h 4 0) dead
      let s := if isRead then s.hostRead bytes.length else bytes.foldl State.writeByte s
      (if ends then s.endXfer else s).sysResetDue)

/-- TIME_SUB_READ (R115, R636). -/
def execTimeSubRead (s : State) : Host.Outcome State Fault Refusal := .next (if s.hostActive then s.latchTime else s)

end Sys2Proof.Machine
end

