-- ==== Sys2Proof/Machine/Line.lean ====
section
/-! DEFINITION. The shared operations of the line: ports, segments, cycles, flows, claimants, JOIN frames, received frames,
acknowledgements and give-ups (R469 to R509). -/

namespace Sys2Proof.Machine

/-! ### Ports, segments and cycles (R473 to R497) -/

/-- A port's number: 0 for A, 1 for B. -/
def portNo : Port → Nat
  | .a => 0
  | .b => 1

/-- The other port. -/
def otherPort : Port → Port
  | .a => .b
  | .b => .a

/-- A port receives and transmits: the node has started, the port is present with a usable buffer, ON, not under test, and no clock
hold runs (R77, R497, R620, R623, R667). -/
def State.portLive (s : State) (p : Port) : Bool :=
  s.power.seqRunning && s.clock.hold.isNone && s.portPresent p && s.domOn (9 + portNo p) && !s.blockUnderTest (8 + portNo p)

/-- The node has no address (R479). -/
def State.unaddressed (s : State) : Bool := s.fab.addr == 0xfff

/-- SLOT of the node's own address (R440). -/
def State.ownSlot (s : State) : Nat := addrSlot s.fab.addr

/-- SEGMENT of the node's own address (R440). -/
def State.ownSegment (s : State) : BitVec 6 := addrSegment s.fab.addr

/-- The node is in bridge mode (R494). -/
def State.bridging (s : State) : Bool := s.power.portMode == PortMode.bridge

/-- A port takes part in more than beacons: both ports of a bridge, else the one that transmits (R478, R494;
notes/assumptions/24.md). -/
def State.portServes (s : State) (p : Port) : Bool := s.bridging || p == s.homePort

/-- The port a node sends JOIN on before it has heard a beacon: its home port, or the present one where that is not present (R478,
R506). -/
def State.joinPort (s : State) : Port := if s.portPresent s.homePort then s.homePort else otherPort s.homePort

/-- The segment a port hangs on: the node's own on the home port, else that of the last beacon (R478); 63 while unknown. -/
def State.portSegment (s : State) (p : Port) : BitVec 6 :=
  if p = s.homePort ∧ s.unaddressed = false then s.ownSegment
  else
    match (s.port p).last with
    | some b => b.segment
    | none => 63

/-- A beacon of the node's own segment has been heard on a port (R477, R506). -/
def State.heardOwn (s : State) (p : Port) : Bool := !s.unaddressed && (s.port p).last.any (fun b => b.segment == s.ownSegment)

/-- The broadcast address of a segment (R440). -/
def segmentAll (g : BitVec 6) : BitVec 12 := BitVec.ofNat 12 (64 * g.toNat + 63)

/-- A frame with this DST is accepted on a port: the node's own address, the broadcast of the port's segment, or the fabric
broadcast (R473). -/
def State.accepts (s : State) (p : Port) (dst : BitVec 12) : Bool :=
  dst == s.fab.addr || dst == segmentAll (s.portSegment p) || dst == 0xfff

/-- The claimant of a segment on a port, if any (R500). -/
def LinePort.claimant (l : LinePort) (g : BitVec 6) : Option (BitVec 12) := (l.claimants.find? (fun c => c.1 == g)).map (·.2)

/-- Frames for a segment that this node claims reach it too (R486, R501). -/
def State.takes (s : State) (p : Port) (dst : BitVec 12) : Bool :=
  s.accepts p dst || (s.port p).claimant (addrSegment dst) == some s.fab.addr

/-- The line key in force (R443, R507). -/
def State.lineKeyNow (s : State) : Option (BitVec 128) := lineKey s.fab.keyId s.fab.key

/-- A frame's CMAC verifies under the line key in force and the current CYCLE, 0xFFFFFFFF before any beacon; a BEACON's under its own CYCLE,
which it begins (R507, R508; notes/assumptions/69.md). -/
def State.macOk (s : State) (h : Heard) : Bool :=
  let cycle := if h.kind = 2 then BitVec.ofNat 32 (field h.payload 0 4) else (s.port h.port).cycle
  h.macOk s.lineKeyNow cycle

/-- The hop receiver of a frame sent on a port: none for a broadcast, the node on the segment itself, else the claimant (R486). -/
def State.hopOf (s : State) (p : Port) (dst : BitVec 12) : Option (BitVec 12) :=
  if addrBroadcast dst then none
  else if addrSegment dst = s.portSegment p then some dst
  else (s.port p).claimant (addrSegment dst)

/-- This node is the hop receiver of a frame heard on a port (R486). -/
def State.isHop (s : State) (p : Port) (dst : BitVec 12) : Bool := !s.unaddressed && s.hopOf p dst == some s.fab.addr

/-- The port a bridge forwards a frame for a segment out of, from the port it came in on: the route's, or the one on that segment
(R499); none back where it came from. -/
def State.forwardPort (s : State) (p : Port) (g : BitVec 6) : Option Port :=
  if !s.bridging then none
  else if g = s.portSegment (otherPort p) then some (otherPort p)
  else
    match s.fab.routes.find? (fun r => r.segment == g) with
    | some r => if r.port = p then none else some r.port
    | none => none

/-- A new cycle begins on a port: its data slot may be used where the previous beacon left it and this one does not lend it; a new
line skip level takes effect at a multiple of 64 cycles, 128 on a bridge (R474, R482, R496, R497, R592). -/
def State.newCycle (p : Port) (c : W32) (lentNow lentNext : Bool) (s : State) : State :=
  let every := if s.bridging then 128 else 64
  s.modPort p (fun l =>
    { l with cycle := c, slotFrom := l.slotNext && !lentNow, slotNext := !lentNext, slotsSent := 0,
             conflictRun := if l.conflictNow then l.conflictRun else 0, conflictNow := false,
             skip := if c.toNat % every = 0 then skipOf s.therm.step else l.skip })

/-! ### JOIN (R493, R506) -/

/-- The payload of a JOIN of this node (R493). -/
def State.joinFields (s : State) (p : Port) (reclaim : Bool) : JoinFields :=
  let v := (s.arr.region s.arr.running.val).version
  { uid := s.life.uid, addr := s.fab.addr, unaddressed := s.unaddressed, mismatch := (s.port p).mismatch,
    conflict := (s.port p).conflict, reclaim := reclaim, keyId := s.fab.keyId, lc := BitVec.ofNat 8 s.life.shadow.code,
    rank := s.fab.rank, portMode := BitVec.ofNat 8 s.power.portMode.code, fwMajor := v.extractLsb' 0 8, fwMinor := v.extractLsb' 8 8 }

/-- A JOIN frame (R493). -/
def State.joinFrame (s : State) (p : Port) (reclaim : Bool) : TxFrame :=
  { dst := 0xfff, src := s.fab.addr, ackmap := 0, isNew := false, fseq := 0, body := .join (s.joinFields p reclaim) }

/-- A frame is a JOIN. -/
def TxFrame.isJoin (f : TxFrame) : Bool :=
  match f.body with
  | .join _ => true
  | _ => false

/-- One JOIN waits in contention, with its fields as they stand. -/
def State.queueJoin (p : Port) (reclaim : Bool) (s : State) : State :=
  if (s.port p).contention.any TxFrame.isJoin then s else s.contend p (s.joinFrame p reclaim)

/-- A frame is put on the line: what it carries and its bits, under the line key and cycle in force (R470, R471, R507). -/
def State.putLine (p : Port) (slotted : Bool) (f : TxFrame) (s : State) : State :=
  let key := s.lineKeyNow
  s.modPort p (fun l => { l with lastTx := some f, txBits := f.bits slotted key l.cycle })

/-! ### Give-up and acknowledgement (R148, R379, R488) -/

/-- What a frame of this node's own stood for is over: an owner's reply counts as carried, acknowledged or given up (R148). -/
def State.packetCarried (k : OutPacket) (s : State) : State := s.packetRead k

/-- A frame of the node's own is given up: the remaining fragments of its record leave the delivery queue unsent (R379), an owner's
reply counts as carried (R148). -/
def State.packetGivenUp (k : OutPacket) (s : State) : State :=
  match k with
  | .frag p n .. => s.modPol p (fun q => { q with dlv := q.dlv.filter (fun r => r.ersEq ≠ n) })
  | k => s.packetCarried k

/-- An unacknowledged frame is the same transmission. -/
def Unacked.same (u v : Unacked) : Bool := u.flow == v.flow && u.frame == v.frame

/-- A frame leaves the list of those that wait for an acknowledgement. -/
def LinePort.settle (u : Unacked) (l : LinePort) : LinePort := { l with unacked := l.unacked.filter (fun v => !v.same u) }

/-- A frame is given up after its last retransmission, and counted in GIVEUP (R488). -/
def State.giveUp (p : Port) (u : Unacked) (s : State) : State :=
  let s := (s.modPort p (LinePort.settle u)).countPort p 7
  match u.frame.body with
  | .data k => if u.flow.src = s.fab.addr then s.packetGivenUp k else s
  | _ => s

/-- A frame is acknowledged (R488). -/
def State.acknowledged (p : Port) (u : Unacked) (s : State) : State :=
  let s := s.modPort p (LinePort.settle u)
  match u.frame.body with
  | .data k => if u.flow.src = s.fab.addr then s.packetCarried k else s
  | _ => s

/-- A data slot is its holder's in the current cycle: the latest beacon does not lend it (R477, R481). -/
def LinePort.ownerSlot (n : Nat) (l : LinePort) : Bool := !l.last.any (fun b => b.lend.toNat.testBit n)

/-- The acknowledgement that the frame in a data slot carries, whoever's frame it forwards: each frame that waits for the slot's holder
and has not been read yet is acknowledged, or stays to be sent again (R487, R488). -/
def State.readAcks (h : Heard) (s : State) : State :=
  let p := h.port
  match h.slot with
  | none => s
  | some n =>
    (s.port p).unacked.foldl (fun s u =>
      if addrSlot u.hop ≠ n.val ∨ (h.src ≠ u.hop ∧ (s.port p).ownerSlot n.val = false) ∨ u.unread = false then s
      else if h.ackmap.toNat.testBit u.slot then s.acknowledged p u
      else s.modPort p (fun l => { l with unacked := l.unacked.map (fun v => if v.same u then { v with unread := false } else v) })) s

/-- A waiting frame may be sent again in data slot `n` of cycle `c`: its receiver's first frame had the bit clear, or is missing
(R488). -/
def Unacked.missed (u : Unacked) (c : W32) (n : Nat) : Bool :=
  let e := (c - u.cycle).toNat
  let d := if u.slot < addrSlot u.hop then 0 else 1
  !u.unread || decide (d < e) || (e == d && decide (addrSlot u.hop < n))

/-- A line port restarts as from OFF with the frames in its buffer lost: their senders give them up (R497, R665). -/
def State.losePort (p : Port) (s : State) : State :=
  let s := (s.port p).unacked.foldl (fun s u => s.giveUp p u) s
  s.modPort p LinePort.off

/-! ### Frames heard (R480, R487, R496) -/

/-- A map with one bit set. -/
def bitOf (n i : Nat) : BitVec n := BitVec.ofNat n (2 ^ i)

/-- Any line frame heard: a reeve's maps, for which a frame in a slot that is not lent is its holder's, whatever it forwards, and a
frame in the node's own data slot, which is a collision there (R480, R496; notes/assumptions/25.md). -/
def State.hear (h : Heard) (s : State) : State :=
  let p := h.port
  let home := p == s.homePort
  let mine := addrSegment h.src == s.ownSegment && !addrBroadcast h.src
  let now : BitVec 64 := match h.slot with
    | some n => if home && ((s.port p).ownerSlot n.val || (mine && n.val == addrSlot h.src)) then bitOf 64 n.val else 0
    | none => 0
  let held : BitVec 64 := if home && mine then bitOf 64 (addrSlot h.src) else 0
  let s : State := { s with fab := { s.fab with held := s.fab.held ||| held ||| now, heardNow := s.fab.heardNow ||| now } }
  let l := s.port p
  let clash := match h.slot with
    | some n => !s.unaddressed && n.val == s.ownSlot && l.slotFrom && !l.conflict && !l.conflictNow
    | none => false
  if clash then
    let run := l.conflictRun + 1
    let s := (s.countPort p 8).modPort p (fun l => { l with conflictNow := true, conflictRun := run, conflict := decide (3 ≤ run) })
    if 3 ≤ run then (s.queueJoin p false).patientEvent 0x0047 (leBytes 2 2 ++ leBytes 2 s.fab.addr.toNat) else s
  else s

/-- An accepted frame is counted (R509). -/
def State.rxOk (p : Port) (s : State) : State := s.countPort p 1

/-- A frame from a data slot will be acknowledged in the node's next slot-n frame (R487). -/
def State.willAck (h : Heard) (s : State) : State :=
  match h.slot with
  | some n => s.modPort h.port (fun l => { l with ackPending := l.ackPending ||| bitOf 63 n.val })
  | none => s

/-! ### Flows (R489 to R491) -/

/-- A receiver's verdict on a frame of a flow: a duplicate or not (R490). -/
def LinePort.isDuplicate (f : Flow) (isNew : Bool) (fseq : BitVec 3) (now : Nat) (l : LinePort) : Bool :=
  match l.rxFlows.find? (fun x => x.flow == f) with
  | none => false
  | some x =>
    if isNew then x.wasNew && x.fseq == 0 && decide (now < x.at_ + ticksPerSec) else fseq == x.fseq

/-- The flow's state after an accepted frame (R490). -/
def LinePort.acceptFlow (f : Flow) (isNew : Bool) (fseq : BitVec 3) (now : Nat) (l : LinePort) : LinePort :=
  { l with rxFlows := { flow := f, fseq := fseq, wasNew := isNew, at_ := now } :: l.rxFlows.filter (fun x => x.flow ≠ f) }

/-- The frames a bridge holds for a port: queued, held back or sent and not yet acknowledged, of which there are 64 at most (R491,
R501). -/
def State.buffered (s : State) (from_ out : Port) : Nat :=
  ((s.port from_).holdBacks.map (fun b => b.frames.length)).sum + (s.port out).fwd.length +
    ((s.port out).unacked.filter (fun u => u.flow.src != s.fab.addr)).length

/-- A frame enters a bridge's forward buffer of 64 frames, or joins the frames held back for its segment (R491, R501); the flag says
whether it had room. -/
def State.buffer (from_ out : Port) (f : FwdFrame) (s : State) : Bool × State :=
  let g := addrSegment f.flow.dst
  if 64 ≤ s.buffered from_ out then (false, s.countPort out 10)
  else if (s.port from_).holdBacks.any (fun b => b.segU == g) then
    (true, s.modPort from_ (fun l =>
      { l with holdBacks := l.holdBacks.map (fun b => if b.segU = g then { b with frames := b.frames ++ [f] } else b) }))
  else (true, s.modPort out (fun l => { l with fwd := l.fwd ++ [f] }))

/-- A frame that its hop receiver keeps: out of contention it is taken as it is; from a data slot it is checked for a duplicate,
acknowledged and counted, and passed up where the flag says so, or forwarded (R486, R487, R490, R491). -/
def State.receiveHop (h : Heard) (pol : Option PolId) (body : TxBody) (s : State) : Bool × State :=
  let p := h.port
  let f : Flow := { src := h.src, dst := h.dst, pol := pol }
  let now := s.clock.elapsed
  if h.slot.isNone then
    if h.dst = s.fab.addr ∧ s.unaddressed = false then (true, s.rxOk p) else (false, s)
  else if !s.isHop p h.dst then (false, s)
  else if (s.port p).isDuplicate f h.isNew h.fseq now then
    (false, (s.willAck h).countPort p 4)
  else
    let accept : State → State := fun s => ((s.willAck h).rxOk p).modPort p (fun l => l.acceptFlow f h.isNew h.fseq now)
    if h.dst = s.fab.addr then (true, accept s)
    else
      match s.forwardPort p (addrSegment h.dst) with
      | none => (false, s)
      | some out =>
        match s.buffer p out { flow := f, body := body, at_ := now } with
        | (true, s) => (false, accept s)
        | (false, s) => (false, s)

/-! ### Receiving (R469 to R473, R508) -/

/-- A port receives a frame: a malformed one is discarded and counted; of another, what its header says is taken first, then the meaning
of its kind, where the row is of that kind; an owner's reply that it acknowledges may be the one SYS_RESET waits for (R148, R425, R469 to
R472, R480, R488). -/
def State.heardOn (f : LineRx) (is : Heard → Bool) (act : Heard → State → State) (s : State) : State :=
  if s.portLive f.port && s.portServes f.port then
    match f.heard with
    | none => s.countPort f.port 2
    | some h => if is h then (act h ((s.hear h).readAcks h)).sysResetDue else s
  else s

/-- A frame of a keyed kind: its CMAC is checked first; a node without a line key checks none (R508). -/
def State.keyed (act : Heard → State → State) (h : Heard) (s : State) : State :=
  if s.fab.keyId == 0 || s.macOk h then act h s else s.countPort h.port 13

/-- A frame of a kind. -/
def Heard.isKind (kind : Nat) (h : Heard) : Bool := h.kind == kind

/-- FILTER of a DISCOVER (R506, R517). -/
def Heard.filter (h : Heard) : Byte := byteAt h.payload 0

end Sys2Proof.Machine
end

