-- ==== Sys2Proof/Machine/FaultEv.lean ====
section
/-! DEFINITION. Faults: DATA_FAULT, UNCORRECTABLE_WORD, LOCK_LOST, RELOCK_ATTEMPT_END, WATCHDOG_EXPIRY (R659 to R671). -/

namespace Sys2Proof.Machine

/-! ### Data faults (R662 to R665) -/

/-- The slot a data fault voids: the held one in progress, else the one in the fork (R663). -/
def State.faultSlot (s : State) : Option Slot :=
  match s.wheel.slot with
  | some x => if x.holder.isSome then some x else s.wheel.fork.map (·.slot)
  | none => s.wheel.fork.map (·.slot)

/-- A change of that slot. -/
def State.modFaultSlot (f : Slot → Slot) (s : State) : State :=
  match s.wheel.slot with
  | some x =>
    if x.holder.isSome then { s with wheel := { s.wheel with slot := some (f x) } }
    else { s with wheel := { s.wheel with fork := s.wheel.fork.map (fun d => { d with slot := f d.slot }) } }
  | none => { s with wheel := { s.wheel with fork := s.wheel.fork.map (fun d => { d with slot := f d.slot }) } }

/-- The slot is void with reason DATA_FAULT, which a clock fault overrides; STROBE_OUT is low in a VOID slot, and the owner hears of it once
per slot (R201, R663, R679). -/
def State.voidData (kind block lane : Nat) (x : Slot) (s : State) : State :=
  let inSlot := s.wheel.slot.any (fun y => y.holder.isSome)
  let s := s.modFaultSlot (fun y => if y.voidReason = some 4 then y else { y with voidReason := some 3 })
  let s := { s with lands := { s.lands with strobe := s.lands.strobe && !inSlot } }
  if x.voidReason = some 3 then s
  else s.ownerEvent 0x0052 (leBytes 1 kind ++ leBytes 1 block ++ leBytes 1 lane ++ leBytes 1 0 ++ leBytes 4 x.frame.toNat)

/-- A block counts the slots of the revolution in which it gave an uncorrectable word (R664). -/
def State.countFaultSlot (b : Fin 12) (x : Slot) (s : State) : State :=
  if x.faultBlocks.toNat.testBit b.val then s
  else
    ({ s with bist := { s.bist with faultSlots := s.bist.faultSlots.set b (s.bist.faultSlots[b] + 1) } } : State).modFaultSlot
      (fun y => { y with faultBlocks := y.faultBlocks ||| bitOf 16 b.val })

/-- What an uncorrectable word of a block loses beside the slot: the polder's references and machines, or the defect list (R663). -/
def State.faultLoss (b : Fin 12) (inReference : Bool) (x : Slot) (s : State) : State :=
  if b.val = 3 then { s with cols := s.cols.load s.colStateWanted }
  else if b.val = 5 ∧ inReference = true then
    match x.holder with
    | some p => s.modPol p Polder.freshStat
    | none => s
  else s

/-- DATA_FAULT: a bus parity error, or an uncorrectable word of a PIPE or STAT block (R662 to R664). -/
def execDataFault (parity : Bool) (block : Fin 12) (lane : Fin 4) (inReference : Bool) (s : State) : Host.Outcome State Fault Refusal :=
  .next (
    match s.faultSlot with
    | none => s
    | some x =>
      if s.clock.hold.isSome || !s.sensorsOn then s
      else if parity then s.voidData 1 0xff lane.val x
      else if block.val < 2 ∨ 5 < block.val ∨ s.domOn (blockDomain block.val) = false then s
      else ((s.voidData 2 block.val 0xff x).countFaultSlot block x).faultLoss block inReference x)

/-- The page program in progress is abandoned: an item write starts again from its first page, an ARR_WRITE is answered VOIDED, any
other program is repeated (R665). -/
def State.abandonPage (s : State) : State :=
  match s.activeJob with
  | some (p, .item) =>
    { s with arr := { s.arr with jobs := dropJob p s.arr.jobs, applied := s.arr.applied.set p 0,
                                 writes := s.arr.writes.map (fun w => if w.started && w.pol = p then ItemWrite.again w else w) } }
  | some (p, .arrWrite _ _ _) =>
    ({ s with arr := { s.arr with jobs := dropJob p s.arr.jobs, applied := s.arr.applied.set p 0 } } : State).answerPage { status := .voided, effectFrame := none, results := [] }
  | some (p, _) => { s with arr := { s.arr with applied := s.arr.applied.set p 0 } }
  | none => s

/-- UNCORRECTABLE_WORD in a block outside PIPE and STAT (R662, R665). -/
def execUncorrectableWord (block : Fin 12) (s : State) : Host.Outcome State Fault Refusal :=
  .next (
    if !s.power.seqRunning || !s.domOn (blockDomain block.val) then s
    else
      match block.val with
      | 0 => s.restart 6
      | 6 => s.restart 6
      | 7 => s.restart 6
      | 8 => (s.losePort .a).sysResetDue
      | 9 => (s.losePort .b).sysResetDue
      | 10 => s.abandonPage
      | 11 => { s with host := HostPort.initial }
      | _ => s)

/-! ### Clock faults (R666 to R669) -/

/-- A slot that the hold overlaps: void with reason CLOCK_FAULT (R668). -/
def Slot.clockFault (x : Slot) : Slot := { x with voidReason := some 4 }

/-- A background-trim measuring slot that the hold overlaps counts as absent: no other slot takes its place (R254, R668). -/
def State.loseMeasuring (s : State) : State :=
  match s.wheel.slot with
  | some x =>
    if x.holder = some owner ∧ x.cal.isNone = true ∧ (s.cols.measured = none ∨ s.cols.measured = some x.frame) then
      { s with cols := { s.cols with measured := some x.frame, pendingTrims := s.cols.pendingTrims.filter (fun p => p.kind ≠ .background) } }
    else s
  | none => s

/-- LOCK_LOST: the PLL's clocks stop and the time base counts in XO; the slot in progress and the record in finalisation are void
(R110, R201, R666 to R668). -/
def execLockLost (s : State) : Host.Outcome State Fault Refusal :=
  .next (
    if !s.clock.pllOn || s.clock.hold.isSome || !s.power.aonReady then s
    else
      let s := s.loseMeasuring
      let held := match s.wheel.slot with
        | some x => x.holder.isSome
        | none => false
      { s with
        clock := { s.clock with pllOn := false,
                                hold := some { attempts := 0, since := s.clock.elapsed, voided := b2n held + b2n s.wheel.fork.isSome } },
        wheel := { s.wheel with slot := s.wheel.slot.map Slot.clockFault, fork := s.wheel.fork.map (fun d => { d with slot := d.slot.clockFault }) },
        lands := { s.lands with strobe := false } })

/-- The hold ends with the clocks locked: a page program that it cut short begins again, the owner is told, and what waited is issued (R668,
R679; chapter 20, at the edges). -/
def State.endHold (h : ClockHold) (s : State) : State :=
  let s : State := { s with clock := { s.clock with pllOn := true, hold := none },
                            arr := { s.arr with applied := Vector.replicate 8 0 } }
  (s.ownerEvent 0x0053 (leBytes 1 h.attempts ++ leBytes 1 (min 255 h.voided) ++ leBytes 2 0 ++
    leBytes 4 (min 4294967295 (s.clock.elapsed - h.since)))).issueAll

/-- RELOCK_ATTEMPT_END: in a hold, or in step C of a return; the third failure resets the node with cause CLOCK (R154, R668, R669);
nothing follows while the node sheds (R98). -/
def execRelockAttemptEnd (locked : Bool) (s : State) : Host.Outcome State Fault Refusal :=
  .next (
    if s.power.shedding then s
    else
    match s.clock.hold with
    | some h =>
      let h := { h with attempts := h.attempts + 1 }
      if locked then s.endHold h
      else if 3 ≤ h.attempts then s.restart 4
      else { s with clock := { s.clock with hold := some h } }
    | none =>
      match s.power.ret with
      | some r =>
        if r.step ≠ .c ∨ s.clock.pllOn = true then s
        else if locked then { s with clock := { s.clock with pllOn := true } }
        else if 2 ≤ r.relock then s.restart 4
        else { s with power := { s.power with ret := some { r with relock := r.relock + 1 } } }
      | none => s)

/-- WATCHDOG_EXPIRY: the node resets itself; the watchdog is suspended while SEQ is not ON and during a debug halt (R670, R671). -/
def execWatchdogExpiry (s : State) : Host.Outcome State Fault Refusal :=
  .next (if s.power.seqRunning && s.domOn 7 && !s.jtag.halted then s.restart 5 else s)

end Sys2Proof.Machine
end

