-- ==== Sys2Proof/Machine/HoldupEv.lean ====
section
/-! DEFINITION. The holdup store: HOLD_MEASURE, PULSE_TEST, HOLDUP_DEADLINE (R88 to R95). -/

namespace Sys2Proof.Machine

/-- The page program in progress goes on, and further pages wait for HOLDUP_OK (R559). -/
def State.holdJobs (s : State) : State :=
  { s with arr := { s.arr with jobs := s.activeJob.toList, heldJobs := s.arr.heldJobs ++ s.arr.jobs.erase (s.activeJob.getD (owner, .log)) } }

/-- A condition of R91 is met: the state becomes HOLDUP_LOW, reported at each change, and once before the first HOLDUP_OK after a
start (R91, R93, R94). -/
def State.holdupLow (reason : Nat) (s : State) : State :=
  let h := s.holdup
  let s := if h.low then s else s.holdJobs
  if h.low && (h.firstOkDone || h.lowSent) then s
  else ({ s with holdup := { h with low := true, lowSent := true, lastReason := reason } } : State).supplyEvent 0x000A (leBytes 1 reason)

/-- HOLDUP_OK once HOLD is at 14 V and the latest capacitance check has passed; the first after a start is reported only if an
EV_HOLDUP_LOW was sent. Array writes that waited go on, the zeroing of FABRIC among them (R92, R93, R95, R607). -/
def State.holdupJudge (s : State) : State :=
  let h := s.holdup
  if h.low && h.checkPassed && decide (14000 ≤ h.lastMv) then
    let s1 : State := { s with holdup := { h with low := false, firstOkDone := true, lowSent := false },
                               arr := { s.arr with jobs := s.arr.jobs ++ s.arr.heldJobs, heldJobs := [] } }
    let s1 := if s1.arr.fabricWaits then s1.zeroFabric else s1
    if h.firstOkDone || h.lowSent then s1.supplyEvent 0x000B [] else s1
  else s

/-- What a measurement adds to the capacitance estimate: the milliseconds since the first measurement at or above 4 V and the sum
of the charge currents since then (R89). -/
def Holdup.charge (mv current : Nat) (h : Holdup) : Holdup :=
  if !h.charger || !h.startedBelow4 then h
  else
    match h.sinceV4 with
    | none => if 4000 ≤ mv then { h with sinceV4 := some 0, chargeSum := 0 } else h
    | some n => { h with sinceV4 := some (n + 1), chargeSum := h.chargeSum + current }

/-- The estimate C = I × t / 10 V is complete at 14 V: I is the mean of the t readings, so that C in nF is a tenth of their sum in
µA ms (R89). -/
def Holdup.estimateDone (mv : Nat) (h : Holdup) : Bool := h.charger && h.startedBelow4 && h.sinceV4.isSome && decide (14000 ≤ mv)

/-- The estimate is at least 200 µF (R91). -/
def Holdup.estimateOk (h : Holdup) : Bool := decide (2000000 ≤ h.chargeSum)

/-- The first measurement after line power good settles whether the charge started below 4 V: it did where the last one before was below 4 V
or this one is; a HOLD that was above before, and may have decayed while the node was down, is a free value (R88, R89;
notes/assumptions/22.md). -/
def State.placeStart (mv : Nat) (s : State) : State :=
  let h := s.holdup
  if !h.firstMeasure then s
  else if h.lastMv < 4000 ∨ mv < 4000 then { s with holdup := { h with firstMeasure := false, startedBelow4 := true } }
  else ({ s with holdup := { h with firstMeasure := false, startedBelow4 := s.draw.testBit 0 } } : State).drawn

/-- HOLD_MEASURE: the 1 ms measurement of HOLD and of the charge current. While the node sheds, a HOLD below 6 V tears the write in
progress (R88 to R93, R99); beyond the rating of HOLD_P the results are undefined (R69, R70). -/
def execHoldMeasure (millivolts chargeMicroamps : Nat) (s : State) : Host.Outcome State Fault Refusal :=
  if 18000 < millivolts then .fault .outsideRatings
  else
    .next (
      if s.power.shedding then
        (if millivolts < 6000 then { s with holdup := { s.holdup with lastMv := millivolts }, arr := { s.arr with jobs := [] } }
         else { s with holdup := { s.holdup with lastMv := millivolts } })
      else if !s.power.aonReady || !s.power.lineGood then s
      else
        let s := s.placeStart millivolts
        let h := s.holdup.charge millivolts chargeMicroamps
        let fell := h.seen12 && decide (millivolts < 12000)
        let complete := h.estimateDone millivolts
        let ok := h.estimateOk
        let h1 : Holdup := { h with lastMv := millivolts, seen12 := decide (12000 ≤ millivolts), reached14 := h.reached14 || decide (14000 ≤ millivolts),
                                    holding := h.charger && (h.holding || decide (15500 ≤ millivolts)),
                                    startedBelow4 := h.startedBelow4 && !complete,
                                    checkPassed := if complete then ok else h.checkPassed }
        let s := { s with holdup := h1 }
        let s := if complete && !ok then s.holdupLow 3 else s
        let s := if fell then s.holdupLow 2 else s
        s.holdupJudge)

/-- PULSE_TEST: a fall of more than 100 mV fails the test; one below 12 V belongs to the test (R90 to R92). -/
def execPulseTest (fallMillivolts : Nat) (s : State) : Host.Outcome State Fault Refusal :=
  .next (
    let h := s.holdup
    if !h.charger || !h.holding || !s.power.lineGood then s
    else
      let ok := decide (fallMillivolts ≤ 100)
      let s : State := { s with holdup := { h with checkPassed := ok, seen12 := decide (12000 ≤ h.lastMv - fallMillivolts) } }
      (if ok then s else s.holdupLow 4).holdupJudge)

/-- HOLDUP_DEADLINE: 400 ms have passed since the charger's start; without a stop of it and without 14 V the state is HOLDUP_LOW (R91,
R95). -/
def execHoldupDeadline (s : State) : Host.Outcome State Fault Refusal :=
  .next (
    let s : State := { s with holdup := { s.holdup with starting := false } }
    if !s.holdup.deadlineOpen then s
    else
      let s1 : State := { s with holdup := { s.holdup with deadlineOpen := false } }
      if s.holdup.charger && !s.holdup.reached14 then s1.holdupLow 1 else s1)

end Sys2Proof.Machine
end

