-- ==== Sys2Proof/Machine/LifeEv.lean ====
section
/-! DEFINITION. Lifecycle transitions and self-test: LC_TRANSITION_EXECUTE, BIST_START, BIST_BLOCK_DONE (R600 to R608, R616 to
R623). -/

namespace Sys2Proof.Machine

/-- A copy of MFG without its sealed private key; any other copy as it is (R606). -/
def ItemCopy.unsealed (c : ItemCopy) : ItemCopy :=
  match c.value with
  | .mfg m => { c with value := .mfg { m with hasKeyPair := false } }
  | _ => c

/-- A copy that clearing leaves: not of FABRIC, and not sealed under the storage key (R605, R606). -/
def ItemCopy.survives (c : ItemCopy) : Bool := c.item ≠ 0x10 && c.item ≠ 0x20 && !(decide (0x30 ≤ c.item ∧ c.item < 0x40))

/-- Clearing: every ENC memory is zeroed, the fuse blown, the FABRIC item zeroed; the POLD items and the attestation private key
are unreadable from then on (R604 to R606). -/
def State.clearSecrets (s : State) : State :=
  let gone : Nat → Bool := fun page => fabricPage page || s.arr.copies.any (fun c => !c.survives && c.covers page)
  { s with
    pols := Vector.replicate 8 Polder.none, ka := none,
    arr := { s.arr with writes := [], jobs := [], heldJobs := [], stored := Vector.replicate 8 none, creation := 0, seqs := Vector.replicate 8 none,
                        fabric := FabricItem.factory, copies := (s.arr.copies.filter ItemCopy.survives).map ItemCopy.unsealed,
                        cells := s.arr.cells.filter (fun c => !gone (c.1 / 256 * 256)), mfg := { s.arr.mfg with hasKeyPair := false } } }

/-- The fuse of a transition that ends with a reset is blown (R598, R601). -/
def Life.blow (target : Lc) (l : Life) : Life :=
  match target with
  | .ret => { l with fuseReturn := true }
  | .scrapped => { l with fuseScrapped := true }
  | .commission => { l with mfgDone := true }
  | _ => l

/-- LC_TRANSITION_EXECUTE: once the reply has been carried, under HOLDUP_OK and with no page program in progress, the node clears
its secrets where the target asks for it, blows the fuse and resets itself as SYS_RESET does (R425, R558, R600, R603). -/
def execLcTransitionExecute (s : State) : Host.Outcome State Fault Refusal :=
  .next (
    match s.life.pending with
    | some x =>
      let clears := x.target == .ret || x.target == .scrapped
      if !x.waitCarried || !s.carried .lifecycle || s.holdup.low || !s.arr.jobs.isEmpty || (!clears && !s.arr.writes.isEmpty) then s
      else
        let s := if clears then s.clearSecrets else s
        (({ s with life := s.life.blow x.target } : State).dropCarry .lifecycle).restart 3
    | none => s)

/-- BIST_START: the test begins once its ACCEPTED reply has been carried (R620). -/
def execBistStart (s : State) : Host.Outcome State Fault Refusal :=
  .next (
    match s.bist.job with
    | some j =>
      if j.started || !s.carried .selfTest then s
      else ({ s with bist := { s.bist with job := some { j with started := true } } } : State).dropCarry .selfTest
    | none => s)

/-- A tested block is re-initialised (R622). -/
def State.reinit (b : Nat) (s : State) : State :=
  match b with
  | 3 => { s with cols := s.cols.load s.colStateWanted }
  | 5 => s.modPol owner Polder.freshStat
  | 8 => s.modPort .a LinePort.off
  | 9 => s.modPort .b LinePort.off
  | 11 => { s with host := HostPort.initial }
  | _ => s

/-- BIST_BLOCK_DONE: the block under test passes or is marked unusable, is re-initialised, and the next one follows, or the test
ends (R620, R622, R623). -/
def execBistBlockDone (failed : Bool) (s : State) : Host.Outcome State Fault Refusal :=
  .next (
    match s.bist.job with
    | some j =>
      match lowestBit 16 j.left.toNat with
      | some b =>
        if !j.started || decide (1 < j.algo) then s
        else
          let m : BitVec 16 := BitVec.ofNat 16 (2 ^ b)
          let j1 := { j with left := j.left &&& ~~~m, failed := if failed then j.failed ||| m else j.failed }
          let s := ({ s with bist := { s.bist with job := some j1, unusable := if failed then s.bist.unusable ||| m else s.bist.unusable } } : State).reinit
            b
          if j1.left = 0 then s.finishBist j1 else s
      | none => s
    | none => s)

end Sys2Proof.Machine
end

