-- ==== Sys2Proof/Machine/JtagEv.lean ====
section
/-! DEFINITION. The test access port: JTAG_EXTEST, JTAG_IDCODE, JTAG_SAMPLE_PRELOAD, JTAG_DEBUG, JTAG_ARRAY, JTAG_MBIST, JTAG_SCAN,
JTAG_RELEASE, JTAG_BYPASS, TRST_N_ASSERT (R611 to R616, R695). -/

namespace Sys2Proof.Machine

/-- An instruction is loaded with the bytes its data register returns; one the state does not permit acts as BYPASS (R611, R612). -/
def State.loadIr (ir : JtagIr) (out : List Byte) (s : State) : State :=
  if jtagActs ir s.life.shadow s.life.cleared then { s with jtag := { s.jtag with ir := ir, dataOut := out } }
  else { s with jtag := { s.jtag with ir := .bypass, dataOut := [0] } }

/-- The test access port works: AON ready, RESET_N high and VIO present, without which it is held in reset (R45, R46, R72). -/
def State.tapWorks (s : State) : Bool := s.power.aonReady && !s.power.resetLow && !s.power.vioLost

/-- An instruction that acts beyond its data register, where the state permits it (R611, R612). -/
def State.jtagDo (ir : JtagIr) (out : List Byte) (act : State → State) (s : State) : State :=
  if !s.tapWorks then s
  else if jtagActs ir s.life.shadow s.life.cleared then act (s.loadIr ir out)
  else s.loadIr ir out

/-- JTAG_EXTEST: the boundary register drives and samples the digital lands, whose functions are suspended (R611, R613, R614). -/
def execJtagExtest (outputs : BitVec 99) (s : State) : Host.Outcome State Fault Refusal :=
  .next (s.jtagDo .extest (leBytes 13 outputs.toNat) (fun s =>
    ({ s with jtag := { s.jtag with boundary := outputs } } : State).silencePix))

/-- JTAG_IDCODE (R613). -/
def execJtagIdcode (s : State) : Host.Outcome State Fault Refusal := .next (s.jtagDo .idcode (leBytes 4 0x116125CB) (fun s => s))

/-- JTAG_SAMPLE_PRELOAD (R611, R613). -/
def execJtagSamplePreload (lands : BitVec 99) (s : State) : Host.Outcome State Fault Refusal :=
  .next (s.jtagDo .samplePreload (leBytes 13 lands.toNat) (fun s => { s with jtag := { s.jtag with boundary := lands } }))

/-- What DEBUG has written at a TCM address, in rising order; nothing is known of any other byte. -/
def tcmWrite : List Host.Cell → Nat → Byte → List Host.Cell
  | [], a, v => [(a, v)]
  | (x, w) :: rest, a, v => if a < x then (a, v) :: (x, w) :: rest else if a = x then (a, v) :: rest else (x, w) :: tcmWrite rest a v

/-- JTAG_DEBUG: the sequencer is halted, stepped or resumed, or a TCM byte is read or written. What the firmware keeps in TCM above the
image's TCM_LEN bytes is not stated: a byte there that DEBUG has not written since the last halt reads a free value (R155, R565, R611,
R612; notes/assumptions/3.md, 63.md). -/
def execJtagDebug (a : DebugAction) (s : State) : Host.Outcome State Fault Refusal :=
  .next (s.jtagDo .debug [] (fun s =>
    match a with
    | .halt => { s with jtag := { s.jtag with halted := s.power.seqRunning } }
    | .step => s
    | .resume =>
      { s with jtag := { s.jtag with halted := false, tcm := s.jtag.tcm.filter (fun c => decide (c.1 < s.arr.tcmImage.length)) } }.issueAll
    | .readTcm addr =>
      if 65536 ≤ addr then s
      else
        match s.jtag.tcm.find? (fun c => c.1 = addr) with
        | some c => { s with jtag := { s.jtag with dataOut := [c.2] } }
        | none => { s with jtag := { s.jtag with dataOut := [BitVec.ofNat 8 s.draw] } }.drawn
    | .writeTcm addr byte => if 65536 ≤ addr then s else { s with jtag := { s.jtag with tcm := tcmWrite s.jtag.tcm addr byte } }))

/-! ### ARRAY (R543, R544, R550, R614) -/

/-- The region an array address lies in and the offset within it, for regions 0, 1, 5 and the two halves of 6 (R544). -/
def arrayPlace (addr : Nat) : Option (Nat × Nat × Bool) :=
  if addr < 0x0C0000 then some (0, addr, false)
  else if 0x0E0000 ≤ addr ∧ addr < 0x120000 then some (5, addr - 0x0E0000, false)
  else if 0x200000 ≤ addr ∧ addr < 0x2C0000 then some (1, addr - 0x200000, false)
  else if 0x2E0000 ≤ addr ∧ addr < 0x320000 then some (6, addr - 0x2E0000, false)
  else if 0x320000 ≤ addr ∧ addr < 0x360000 then some (6, addr - 0x320000, true)
  else none

/-- The region and copy slot of a marker page (R544, R551). -/
def markerPlace (addr : Nat) : Option (Nat × Nat) :=
  if 0x120000 ≤ addr ∧ addr < 0x121000 then some (0, (addr - 0x120000) / 256)
  else if 0x360000 ≤ addr ∧ addr < 0x361000 then some (1, (addr - 0x360000) / 256)
  else if 0x361000 ≤ addr ∧ addr < 0x362000 then some (6, (addr - 0x361000) / 256)
  else none

/-- A byte of the array as ARRAY reads it: a region's bytes; zeros in a FABRIC item that has been zeroed; what ARRAY has programmed and no
write of the node has replaced; else a byte no rule states, ciphertext among them (R543, R545, R605, R614; notes/assumptions/6.md). -/
def State.arrayByte (s : State) (addr : Nat) : Byte :=
  let page := addr / 256 * 256
  let holders := s.arr.copies.filter (ItemCopy.covers page)
  let unstated := Config.arrayByte addr ((holders.map (fun c => c.gen)).sum)
  let programmed := (s.arr.cells.find? (fun c => c.1 = addr)).map (·.2)
  match arrayPlace addr with
  | some (0, off, _) => cellsRead s.arr.fw0.content off
  | some (1, off, _) => cellsRead s.arr.fw1.content off
  | some (5, off, _) => cellsRead s.arr.logCells off
  | some (_, off, half) => if half = s.arr.user.half then cellsRead s.arr.user.content off else programmed.getD unstated
  | none =>
    if !holders.isEmpty then unstated
    else
      match programmed with
      | some b => b
      | none => if s.life.cleared && fabricPage page then 0 else unstated

/-- A page's bytes stored at an address, in rising order. -/
def storePage : List Host.Cell → Nat → List Byte → List Host.Cell
  | m, _, [] => m
  | m, a, b :: bs => storePage (tcmWrite m a b) (a + 1) bs

/-- The copy slots that a page falls into are no longer valid; their other pages keep the bytes they hold (R551, R553). -/
def State.spoilCopies (page : Nat) (s : State) : State :=
  let pages := (s.arr.copies.filter (ItemCopy.covers page)).flatMap ItemCopy.pages
  { s with arr := { s.arr with copies := s.arr.copies.filter (fun c => !c.covers page),
                               cells := pages.foldl (fun m a => storePage m a ((List.range 256).map (fun i => s.arrayByte (a + i)))) s.arr.cells } }

/-- What a region's newest marker says of it (R550, R567). -/
def Region.marked (bs : List Byte) (x : Region) : Region :=
  let w := field bs 0 4
  let isOpen := bit w 24
  { x with isOpen := isOpen, valid := !isOpen, len := field bs 4 4, sig := bits w 27 26,
           version := if isOpen then 0 else BitVec.ofNat 32 (leNat (cellsReadList x.content 4 4)) }

/-- The marker under the newest one comes back: markers of an opening and of a commit follow each other; without any, the region has no
content (R552, R560). -/
def Region.unmarked (any : Bool) (x : Region) : Region := { x with isOpen := any && !x.isOpen, valid := any && x.isOpen }

/-- A USER marker that names the other half: that half's bytes are the region's, the old half's are the array's (R544, R550). -/
def ArrayS.turnHalf (half : Bool) (a : ArrayS) : ArrayS :=
  if a.user.half = half then a
  else
    let base := regionBase 6 half
    let inside : Host.Cell → Bool := fun c => decide (base ≤ c.1) && decide (c.1 < base + 0x40000)
    let other := a.user.content.map (fun c => (c.1 + regionBase 6 (!half), c.2))
    { a with user := { a.user with half := half, content := (a.cells.filter inside).foldl (fun m c => cellsWrite m (c.1 - base) c.2) [] },
             cells := other.foldl (fun m c => tcmWrite m c.1 c.2) (a.cells.filter (fun c => !inside c)) }

/-- A marker page programmed by ARRAY: with the right MAGIC, ITEM and CRC it is a valid marker of its slot, and the region's where its
GEN is the highest; else its slot is no longer valid (R550, R552, R553). -/
def ArrayS.takeMarker (r slot : Nat) (bs : List Byte) (a : ArrayS) : ArrayS :=
  let w := field bs 0 4
  let gen := field bs 8 8
  let item := 0x40 + r
  let newest := newestCopy item a.copies
  let rest := a.copies.filter (fun c => c.item ≠ item || c.slot ≠ slot)
  if bits w 15 0 = 0x5AC3 ∧ bits w 23 16 = item ∧ field bs 48 4 = crc32 (bs.take 48) then
    let a := { a with copies := putCopy { item := item, slot := slot, gen := gen, value := .marker r } a.copies }
    if newest.all (fun c => decide (c.gen < gen)) then (if r = 6 then a.turnHalf (bit w 25) else a).modRegion r (Region.marked bs) else a
  else
    let a := { a with copies := rest }
    if newest.any (fun c => c.slot == slot) then a.modRegion r (Region.unmarked (rest.any (fun c => c.item == item))) else a

/-- A page programmed by ARRAY: FW0, FW1 and their marker pages in every state it acts in, anything else in MANUFACTURE and RETURN; a
copy slot it falls into is no longer valid, which tells at the next start-up (R244, R246, R553, R555, R614). -/
def State.programPage (addr : Nat) (bs : List Byte) (s : State) : State :=
  let base := addr / 256 * 256
  let page := padTo 256 (bs.take 256)
  let full := s.life.shadow == .manufacture || s.life.shadow == .ret
  let store : State → State := fun s => { s with arr := { s.arr with cells := storePage s.arr.cells base page } }
  if 0x400000 ≤ addr then s
  else
    match arrayPlace base, markerPlace base with
    | some (0, off, _), _ => { s with arr := s.arr.modRegion 0 (fun x => { x with content := cellsWriteList x.content off page }) }
    | some (1, off, _), _ => { s with arr := s.arr.modRegion 1 (fun x => { x with content := cellsWriteList x.content off page }) }
    | _, some (r, slot) => if full || r != 6 then { s with arr := (s.arr.takeMarker r slot page) } else s
    | some (5, off, _), none => if full then { s with arr := { s.arr with logCells := cellsWriteList s.arr.logCells off page } } else s
    | some (_, off, half), none =>
      if !full then s
      else if half = s.arr.user.half then { s with arr := s.arr.modRegion 6 (fun x => { x with content := cellsWriteList x.content off page }) }
      else store s
    | none, none =>
      if full then store (s.spoilCopies base) else s

/-- A copy slot that ARRAY programs whole, its marker's GEN above every other: the item's value from the next start-up on (R246, R551,
R552, R555). -/
def ArrayS.programCopy (v : ItemValue) (slot : Nat) (a : ArrayS) : ArrayS :=
  let gen := (newestCopy v.item a.copies).elim 1 (fun c => c.gen + 1)
  { a with copies := putCopy { item := v.item, slot := slot, gen := gen, value := v } a.copies }

/-- JTAG_ARRAY: a page is read or programmed by array address, or a copy slot of MFG or TRIMTAB is written in MANUFACTURE and RETURN;
nothing is programmed while the holdup state is HOLDUP_LOW (R95, R551, R611, R614). -/
def execJtagArray (a : ArrayAccess) (s : State) : Host.Outcome State Fault Refusal :=
  .next (s.jtagDo .array [] (fun s =>
    let full := s.life.shadow == .manufacture || s.life.shadow == .ret
    if !s.domOn 11 then s
    else
      match a with
      | .readPage addr => { s with jtag := { s.jtag with dataOut := (List.range 256).map (fun i => s.arrayByte (addr / 256 * 256 + i)) } }
      | .programPage addr bytes => if s.holdup.low then s else s.programPage addr bytes
      | .programMfg slot kLin shading matrix refTrims biasTrims certificate hasKeyPair =>
        if full && !s.holdup.low then
          { s with arr := s.arr.programCopy (.mfg { valid := true, kLin := kLin, shading := shading, matrix := matrix, refTrims := refTrims,
                                                    biasTrims := biasTrims, certificate := certificate, hasKeyPair := hasKeyPair }) slot.val }
        else s
      | .programTrimTab slot codes slopeA slopeB =>
        if full && !s.holdup.low then
          { s with arr := s.arr.programCopy (.trimTab { trims := codes.map (fun c => { offset := c.1, gain := c.2 }), slopeA := slopeA,
                                                        slopeB := slopeB }) slot.val }
        else s))

/-- JTAG_MBIST: the march algorithms run on the named blocks; one that fails is marked, and each is re-initialised (R611, R616,
R622, R623). -/
def execJtagMbist (blocks failed : BitVec 16) (s : State) : Host.Outcome State Fault Refusal :=
  let bad := failed &&& blocks &&& 0x0fff
  .next (s.jtagDo .mbist (leBytes 2 bad.toNat) (fun s =>
    (blocksOf blocks).foldl (fun s b => s.reinit b) { s with bist := { s.bist with unusable := s.bist.unusable ||| bad } }))

/-- JTAG_SCAN: the scan chains are selected; what scanning leaves in the logic is not stated, and the model keeps the state
(R607, R611; notes/assumptions/23.md). -/
def execJtagScan (s : State) : Host.Outcome State Fault Refusal := .next (s.jtagDo .scan [] (fun s => s))

/-- The wheel of a node that has no owner: the owner's places are free, the slot in progress is nobody's, and its records on their
way are gone with the charter and the key (R31, R312, R611; notes/assumptions/51.md). -/
def Wheel.ownerless (w : Wheel) : Wheel :=
  { w with holders := w.holders.map (fun h => if h = some owner then none else h),
           slot := w.slot.map (fun x => if x.holder = some owner then { x with holder := none } else x),
           fork := w.fork.filter (fun d => d.holder ≠ owner), enclave := w.enclave.filter (fun d => d.pol ≠ owner) }

/-- JTAG_RELEASE: the owner's charter, key and journal are erased with its compare channels, and the node has no owner; a command that
holds the head is answered VOIDED, those behind it go, and what was sealed before still leaves (R116, R332, R375, R610, R611;
notes/assumptions/51.md). -/
def execJtagRelease (s : State) : Host.Outcome State Fault Refusal :=
  .next (s.jtagDo .release [] (fun s =>
    let s := s.voidHeld owner
    let s := ({ s with ka := if s.ka.any (fun k => k.pol = owner) then none else s.ka, wheel := s.wheel.ownerless } : State).modPol owner
      (fun q => { q.emptied with queue := [] })
    (((s.modTcmp 0 (fun _ => Tcmp.zero)).modTcmp 1 (fun _ => Tcmp.zero)).storePolder owner).storeSeqs owner))

/-- JTAG_BYPASS: the 1-bit bypass register (R611, R612). -/
def execJtagBypass (_code : BitVec 5) (s : State) : Host.Outcome State Fault Refusal := .next (s.jtagDo .bypass [0] (fun s => s))

/-- TRST_N_ASSERT: the test access port is reset and IDCODE is selected (R611, R695). -/
def execTrstNAssert (s : State) : Host.Outcome State Fault Refusal :=
  .next { s with jtag := Jtag.inReset s.jtag }

end Sys2Proof.Machine
end

