-- ==== Sys2Proof/Machine/LineTx.lean ====
section
/-! DEFINITION. What the node sends on the line: DATA_SLOT_TX, CONTENTION_TX, and the timers JOIN_RETRY_TIMER,
SLOT_CONFLICT_RETRY, ROUTE_ADVERT_TIMER (R476 to R506, R592). -/

namespace Sys2Proof.Machine

/-! ### Data slots (R477, R481, R484, R592) -/

/-- A node sends in data slots while it has an address that matches, no conflict, and no more than three beacons are missed (R475,
R477, R495, R496). -/
def State.usesSlots (s : State) (p : Port) : Bool :=
  s.portLive p && s.portServes p && !s.unaddressed && !s.lineA.mismatch && !s.lineB.mismatch && !(s.port p).conflict &&
  (s.port p).last.isSome && decide ((s.port p).missed ≤ 3)

/-- The lent slots of the current cycle that go to this bridge: the j-th lent slot goes to the bridge at index j mod m (R481). -/
def State.lentSlots (s : State) (p : Port) : List Nat :=
  match (s.port p).last with
  | some b =>
    let bridges := (List.range 63).filter (fun i => b.bridges.toNat.testBit i)
    let lent := (List.range 63).filter (fun i => b.lend.toNat.testBit i)
    match bridges.findIdx? (fun i => i == s.ownSlot) with
    | some k =>
      if s.bridging && (s.port p).missed == 0 then
        (lent.zipIdx.filter (fun x => x.2 % bridges.length == k)).map (·.1)
      else []
    | none => []
  | none => []

/-- A slot is the node's own in this cycle: its slot n, and not lent (R477, R481). -/
def State.slotMine (s : State) (p : Port) (slot : Nat) : Bool := slot == s.ownSlot && (s.port p).slotFrom

/-- The data slots of the current cycle a port sends in, in order (R477, R481). -/
def State.slotsNow (s : State) (p : Port) : List Nat :=
  (List.range 63).filter (fun i => s.slotMine p i || (s.lentSlots p).contains i)

/-- The current cycle is skipped (R592). -/
def State.skipped (s : State) (p : Port) : Bool :=
  let l := s.port p
  decide ((l.cycle.toNat / (if s.bridging then 32 else 16)) % 4 < l.skip)

/-- The current cycle carries forwarding: an odd cycle of a bridge (R484). -/
def State.forwardCycle (s : State) (p : Port) : Bool := s.bridging && (s.port p).cycle.toNat % 2 == 1

/-- The wheel slot whose polder the current cycle serves (R484). -/
def State.shareSlot (s : State) (p : Port) : Nat :=
  let c := (s.port p).cycle.toNat
  if s.bridging then (c / 2) % 16 else c % 16

/-- The polder a share serves: the one whose charter holds the wheel slot; before there is an owner polder 0 (R610), else an erased
one with records still in the path (R331, R484). -/
def State.sharePolder (s : State) (i : Nat) : Option PolId :=
  match (List.finRange 8).find? (fun p => s.lives p && (s.pol p).charter.slots.toNat.testBit i) with
  | some p => some p
  | none =>
    if (s.pol owner).state == .absent && (s.pol owner).dlv.isEmpty then some owner
    else (List.finRange 8).find? (fun p => (s.pol p).state == .absent && !(s.pol p).dlv.isEmpty)

/-! ### Putting a frame on the line -/

/-- A frame leaves in a data slot: the one in slot n carries ACKMAP, which then starts afresh; a lent slot's ACKMAP is 0 (R487). -/
def State.putSlot (p : Port) (slot : Nat) (f : TxFrame) (s : State) : State :=
  let own := s.slotMine p slot
  let map := if own then (s.port p).ackPending else 0
  (((s.modPort p (fun l => { l with ackPending := if own then 0 else l.ackPending })).putLine p true { f with ackmap := map })).countPort p 5

/-- An ACK frame, sent when there is nothing else (R472, R477). -/
def State.ackFrame (s : State) (p : Port) : TxFrame :=
  { dst := segmentAll (s.portSegment p), src := s.fab.addr, ackmap := 0, isNew := false, fseq := 0, body := .ackOnly }

/-- The sender's state of a flow, fresh where there is none (R489, R490). -/
def LinePort.txFlow (f : Flow) (l : LinePort) : TxFlow :=
  (l.txFlows.find? (fun x => x.flow == f)).getD { flow := f, next := 0, started := false, sentAt := 0 }

/-- The next frame of a flow, which came to this node at `arrived`, with FSEQ and NEW of R489 and R490; with a hop receiver it waits for its
acknowledgement, and where no claimant is known nobody acknowledges it (R486, R488, R500). -/
def State.sendFlow (p : Port) (slot : Nat) (f : Flow) (body : TxBody) (arrived : Nat) (s : State) : State :=
  let x := (s.port p).txFlow f
  let frame : TxFrame := { dst := f.dst, src := f.src, ackmap := 0, isNew := !x.started, fseq := x.next, body := body }
  let wait : List Unacked :=
    if addrBroadcast f.dst then []
    else [{ flow := f, frame := frame, hop := (s.hopOf p f.dst).getD 0xfff, tries := 0, slot := slot, cycle := (s.port p).cycle, unread := true,
            at_ := arrived }]
  (s.modPort p (fun l =>
    { l with txFlows := { x with next := x.next + 1, started := true, sentAt := s.clock.elapsed } :: l.txFlows.filter (fun y => y.flow ≠ f),
             unacked := l.unacked ++ wait, wakeSent := l.wakeSent.filter (fun d => d ≠ f.dst) })).putSlot p slot frame

/-- A frame is sent again as it was, but for the ACKMAP and CMAC of its new slot and cycle, and counted in RETX (R487, R488, R507;
notes/assumptions/71.md). -/
def State.sendAgain (p : Port) (slot : Nat) (u : Unacked) (s : State) : State :=
  ((s.modPort p (fun l =>
    { l with unacked := l.unacked.map (fun v =>
        if v.same u then { v with tries := u.tries + 1, slot := slot, cycle := l.cycle, unread := true } else v) })).countPort p 6).putSlot
    p slot u.frame

/-- A destination on the port's segment is HELD but absent from the latest beacon's PRESENT, and has not been sent a WAKE for this
frame (R505; notes/assumptions/26.md). -/
def State.needsWake (s : State) (p : Port) (dst : BitVec 12) : Bool :=
  let l := s.port p
  !addrBroadcast dst && addrSegment dst == s.portSegment p && !l.wakeSent.contains dst &&
  l.last.any (fun b => b.held.toNat.testBit (addrSlot dst) && !b.present.toNat.testBit (addrSlot dst))

/-- A WAKE frame (R505). -/
def State.sendWake (p : Port) (slot : Nat) (dst : BitVec 12) (s : State) : State :=
  ((s.modPort p (fun l => { l with wakeSent := dst :: l.wakeSent })).countPort p 14).putSlot p slot
    { dst := dst, src := s.fab.addr, ackmap := 0, isNew := false, fseq := 0, body := .wake }

/-- A flow has no frame waiting for its acknowledgement (R489). -/
def LinePort.flowFree (f : Flow) (l : LinePort) : Bool := !l.unacked.any (fun u => u.flow == f)

/-! ### What a slot carries (R484, R485, R488, R498) -/

/-- The waiting frames of a kind that are due for their next transmission: one with retransmissions left is sent again, those
without are given up first (R488). The answer is the frame to send again, if any. -/
def State.dueAgain (p : Port) (slot : Nat) (mine : Flow → Bool) (s : State) : Option Unacked × State :=
  let due := (s.port p).unacked.filter (fun u => mine u.flow && u.missed (s.port p).cycle slot)
  let s := due.foldl (fun s u => if 4 ≤ u.tries then s.giveUp p u else s) s
  (due.find? (fun u => decide (u.tries < 4)), s)

/-- A record leaves on the line by a port (R368, R369). -/
def State.lineBound (s : State) (p : Port) (q : PolId) (r : DlvRec) : Bool :=
  match (s.pol q).pathOf r with
  | some (.line d) => s.portToward d == p
  | _ => false

/-- A polder's next packet for a port, and the queue it leaves: its oldest reply for the line, else its record (R369). -/
def State.nextPacket (s : State) (p : Port) (q : PolId) : Option (BitVec 12 × OutPacket × (Polder → Polder)) :=
  let x := s.pol q
  let reply := x.replyQ.find? (fun r => match r.path with
    | .line d => s.portToward d == p
    | .host => false)
  match reply with
  | some r =>
    match r.path with
    | .line d => some (d, .reply r, fun x => { x with replyQ := x.replyQ.erase r })
    | .host => none
  | none =>
    match s.recordReady q (s.lineBound p q) with
    | some r =>
      match x.pathOf r with
      | some (.line d) => some (d, r.nextFragment q, fun x => { x with dlv := sendFragment (s.lineBound p q) x.dlv })
      | _ => none
    | none => none

/-- The share of a polder in a slot: a retransmission, a WAKE or its next packet; `none` where it has nothing to send (R485,
R488). -/
def State.shareTx (p : Port) (slot : Nat) (q : PolId) (s : State) : Option State × State :=
  match s.dueAgain p slot (fun f => f.src == s.fab.addr && f.pol == some q) with
  | (some u, s) => (some (s.sendAgain p slot u), s)
  | (none, s) =>
    match s.nextPacket p q with
    | some (d, k, pop) =>
      let f : Flow := { src := s.fab.addr, dst := d, pol := some q }
      if !(s.port p).flowFree f then (none, s)
      else if s.needsWake p d then (some (s.sendWake p slot d), s)
      else (some ((s.modPol q pop).sendFlow p slot f (.data k) s.clock.elapsed), s)
    | none => (none, s)

/-- A management frame may leave in a share: on a bridge ROUTE and DRAIN_DONE wait for a forwarding cycle (R485, R498, R501). -/
def TxFrame.inShare (f : TxFrame) (bridge : Bool) : Bool :=
  match f.body with
  | .discover _ _ => true
  | _ => !bridge

/-- The next management frame that passes leaves, where its flow is free (R485, R489, R519). -/
def State.mgmtTx (p : Port) (slot : Nat) (ok : TxFrame → Bool) (s : State) : Option State :=
  match (s.port p).mgmt.find? ok with
  | some f =>
    let fl : Flow := { src := s.fab.addr, dst := f.dst, pol := none }
    if (s.port p).flowFree fl then
      some ((s.modPort p (fun l => { l with mgmt := l.mgmt.erase f })).sendFlow p slot fl f.body s.clock.elapsed)
    else none
  | none => none

/-- Management traffic of a share without DATA: a retransmission, else the next frame; the slot then carries an ACK frame at the
least (R477, R485). -/
def State.idleShareTx (p : Port) (slot : Nat) (s : State) : State :=
  match s.dueAgain p slot (fun f => f.src == s.fab.addr && f.pol == none) with
  | (some u, s) => s.sendAgain p slot u
  | (none, s) => (s.mgmtTx p slot (fun f => f.inShare s.bridging)).getD (s.putSlot p slot (s.ackFrame p))

/-- The bridge that puts a DRAIN onto its target segment sends DRAIN_DONE three times towards the old segment (R501). -/
def State.drainPut (p : Port) (body : TxBody) (s : State) : State :=
  match body with
  | .drain d =>
    if d.segU = s.portSegment p then
      let f : TxFrame := { dst := segmentAll d.segS, src := s.fab.addr, ackmap := 0, isNew := false, fseq := 0, body := .drainDone d }
      s.modPort (otherPort p) (fun l => { l with mgmt := l.mgmt ++ [f, f, f] })
    else s
  | _ => s

/-- The body is DATA. -/
def TxBody.isData : TxBody → Bool
  | .data _ => true
  | _ => false

/-- Forwarding in a slot: a retransmission, else the oldest frame whose flow is free, after a WAKE where its destination needs one
(R488, R491, R505). -/
def State.forwardTx (p : Port) (slot : Nat) (s : State) : Option State × State :=
  match s.dueAgain p slot (fun f => f.src != s.fab.addr) with
  | (some u, s) => (some (s.sendAgain p slot u), s)
  | (none, s) =>
    match (s.port p).fwd.find? (fun f => (s.port p).flowFree f.flow) with
    | some f =>
      if f.body.isData && s.needsWake p f.flow.dst then (some (s.sendWake p slot f.flow.dst), s)
      else (some (((s.modPort p (fun l => { l with fwd := l.fwd.erase f })).sendFlow p slot f.flow f.body f.at_).drainPut p f.body), s)
    | none => (none, s)

/-- The node's own slot in a forwarding cycle: ROUTE and DRAIN_DONE ahead of forwarded frames, then an ACK frame (R484, R498,
R501). -/
def State.forwardSlotTx (p : Port) (slot : Nat) (s : State) : State :=
  match s.mgmtTx p slot (fun f => !f.inShare true) with
  | some t => t
  | none =>
    match s.forwardTx p slot with
    | (some t, _) => t
    | (none, s) => s.putSlot p slot (s.ackFrame p)

/-- The node's own slot in a share (R484, R485). -/
def State.shareSlotTx (p : Port) (slot : Nat) (s : State) : State :=
  match s.sharePolder (s.shareSlot p) with
  | some q =>
    match s.shareTx p slot q with
    | (some t, _) => t
    | (none, s) => s.idleShareTx p slot
  | none => s.idleShareTx p slot

/-- One data slot of the current cycle; a lent one carries forwarding only, the node's own among them (R477, R481, R484, R592). -/
def State.slotTx (p : Port) (slot : Nat) (s : State) : State :=
  if s.slotMine p slot then
    (if s.skipped p then s.putSlot p slot (s.ackFrame p)
     else if s.forwardCycle p then s.forwardSlotTx p slot else s.shareSlotTx p slot)
  else if s.skipped p then s
  else
    match s.forwardTx p slot with
    | (some t, _) => t
    | (none, s) => s

/-- DATA_SLOT_TX: the port's next data slot of this cycle (R477 to R491, R592). -/
def execDataSlotTx (port : Port) (s : State) : Host.Outcome State Fault Refusal :=
  .next (
    if !s.usesSlots port then s
    else
      match (s.slotsNow port)[(s.port port).slotsSent]? with
      | some slot => ((s.modPort port (fun l => { l with slotsSent := l.slotsSent + 1 })).slotTx port slot).sysResetDue
      | none => s)

/-! ### Contention (R476, R506) -/

/-- The initial value of W: 64 in the first 1,200 ms, then 8 (R506). -/
def State.startWindow (s : State) : Nat := if s.power.discoveryOver then 8 else 64

/-- In the first 1,200 ms a node that has heard no beacon of its segment sends JOIN once per backoff (R506). -/
def State.announces (s : State) (p : Port) : Bool := !s.power.discoveryOver && p == s.joinPort && !s.heardOwn p

/-- The frame whose turn it is in contention, and those left: in mismatch or conflict only a JOIN (R495, R496, R506). -/
def State.contentionHead (s : State) (p : Port) : Option (TxFrame × List TxFrame) :=
  let l := s.port p
  let head := if l.mismatch || l.conflict then l.contention.find? TxFrame.isJoin else l.contention.head?
  match head with
  | some f => some (f, l.contention.erase f)
  | none => if s.announces p then some (s.joinFrame p false, l.contention) else none

/-- CONTENTION_TX: the backoff has been counted down to 0; the frame is sent, or collides, and is dropped after five attempts; a new
backoff is drawn where there is more to send (R476, R506). -/
def execContentionTx (port : Port) (collided : Bool) (s : State) : Host.Outcome State Fault Refusal :=
  .next (
    if !s.portLive port then s
    else
      match s.contentionHead port with
      | none => s
      | some (f, rest) =>
        let attempts := (s.port port).attempts
        let s := s.modPort port (fun l => { l with backoff := 0 })
        let s := if !collided then
            (((s.putLine port false f).modPort port (fun l => { l with contention := rest, window := s.startWindow, attempts := 0 })).countPort port 5)
          else if 4 ≤ attempts then (s.modPort port (fun l =>
            { l with contention := rest, attempts := 0, window := min 1024 (2 * l.window) })).countPort port 8
          else (s.modPort port (fun l =>
            { l with contention := f :: rest, attempts := attempts + 1, window := min 1024 (2 * l.window) })).countPort port 8
        if (s.contentionHead port).isSome then s.drawBackoff port else s)

/-! ### Timers -/

/-- JOIN_RETRY_TIMER: each port in mismatch or conflict sends JOIN (R495, R496). -/
def execJoinRetryTimer (s : State) : Host.Outcome State Fault Refusal :=
  let on : Port → State → State := fun p s =>
    if s.portLive p && ((s.port p).mismatch || (s.port p).conflict) then s.queueJoin p false else s
  .next (on .b (on .a s))

/-- SLOT_CONFLICT_RETRY: the node tries its slot again (R496). -/
def execSlotConflictRetry (s : State) : Host.Outcome State Fault Refusal :=
  let on : Port → State → State := fun p s =>
    if (s.port p).conflict then s.modPort p (fun l => { l with conflict := false, conflictRun := 0, conflictNow := false }) else s
  .next (on .b (on .a s))

/-- The HOPS values a bridge advertises on a port: 0 for its own segments while their ports are present, the route's value, 0xFF for
what is unreachable or was learned through that port (R498). -/
def State.advertised (s : State) (p : Port) : List Byte :=
  (List.range 63).map (fun i =>
    let g : BitVec 6 := BitVec.ofNat 6 i
    let own : Port → Bool := fun q => g == s.portSegment q
    if (own .a && s.portPresent .a) || (own .b && s.portPresent .b) then 0
    else if own .a || own .b then 0xff
    else
      match s.fab.routes.find? (fun r => r.segment == g) with
      | some r => if r.port = p then 0xff else BitVec.ofNat 8 r.hops
      | none => 0xff)

/-- A ROUTE frame waits on a port, in place of an older one (R498). -/
def State.queueRoute (p : Port) (s : State) : State :=
  let isRoute : TxFrame → Bool := fun f => match f.body with
    | .route _ => true
    | _ => false
  let f : TxFrame := { dst := segmentAll (s.portSegment p), src := s.fab.addr, ackmap := 0, isNew := false, fseq := 0, body := .route (s.advertised p) }
  s.modPort p (fun l => { l with mgmt := f :: l.mgmt.filter (fun x => !isRoute x) })

/-- ROUTE_ADVERT_TIMER: a bridge sends a ROUTE frame on each port (R498). -/
def execRouteAdvertTimer (s : State) : Host.Outcome State Fault Refusal :=
  let on : Port → State → State := fun p s => if s.portLive p then s.queueRoute p else s
  .next (if s.bridging && !s.unaddressed then on .b (on .a s) else s)

end Sys2Proof.Machine
end

