-- ==== Sys2Proof/Machine/LineRx.lean ====
section
/-! DEFINITION. Frames received on the line other than beacons and role frames: ACK, DATA, WAKE, JOIN, DISCOVER, ROUTE, DRAIN,
DRAIN_DONE, LINE_FRAME_BAD, and the timers ROUTE_LAPSE, HOLDBACK_EXPIRED, FWD_FRAME_TIMEOUT, FLOW_STATE_EXPIRY (R471 to R509). -/

namespace Sys2Proof.Machine

/-- ACK: the frame settles what it acknowledges (R472, R488). -/
def execAck (f : LineRx) (s : State) : Host.Outcome State Fault Refusal :=
  .next (s.heardOn f (Heard.isKind 0) (fun h s => if s.accepts h.port h.dst then s.rxOk h.port else s))

/-- A DATA frame for this node: before commands are accepted it is dropped and counted in RX_EARLY (R506). -/
def State.dataUp (h : Heard) (s : State) : State :=
  if s.power.accepting then s.arrive h.packet else s.countPort h.port 3

/-- DATA (R473, R486 to R491, R506). -/
def execData (f : LineRx) (s : State) : Host.Outcome State Fault Refusal :=
  .next (s.heardOn f (Heard.isKind 1) (fun h s =>
    match s.receiveHop h (some h.packet.pol) (.data (.relayed h.packet)) with
    | (true, s) => s.dataUp h
    | (false, s) => s))

/-- WAKE: an awake node discards it without acknowledgement (R488). -/
def execWake (f : LineRx) (s : State) : Host.Outcome State Fault Refusal := .next (s.heardOn f (Heard.isKind 3) (fun _ s => s))

/-- A unique ID is known by its node's address (R446, R538). -/
def State.noteUid (addr : BitVec 12) (uid : BitVec 64) (s : State) : State :=
  if addrBroadcast addr then s
  else { s with fab := { s.fab with known := ((addr, uid) :: s.fab.known.filter (fun x => x.1 ≠ addr)).take 128 } }

/-- What a reeve notes of a JOIN on its segment: an unaddressed node waits for its grant in order, a node whose slot is lent gets it back
in the next beacon, a bridge's slot, home or far, enters BRIDGES (R480 to R483). -/
def State.noteJoin (j : JoinFields) (s : State) : State :=
  let n := addrSlot j.addr
  if j.unaddressed then
    if s.fab.joinQueue.contains j.uid then s else { s with fab := { s.fab with joinQueue := s.fab.joinQueue ++ [j.uid] } }
  else if j.mismatch || addrBroadcast j.addr then s
  else
    let s : State := if j.portMode = 2 then { s with fab := { s.fab with bridges := s.fab.bridges ||| bitOf 64 n } } else s
    if j.reclaim then
      { s with fab := { s.fab with absent := s.fab.absent.mapIdx (fun i c => if i = n then 0 else c), held := s.fab.held ||| bitOf 64 n } }
    else s

/-- JOIN (R473, R493). -/
def execJoin (f : LineRx) (s : State) : Host.Outcome State Fault Refusal :=
  .next (s.heardOn f (Heard.isKind 4) (State.keyed (fun h s =>
    let j := JoinFields.decode h.payload
    if !s.accepts h.port h.dst then s
    else
      let s := (s.rxOk h.port).noteUid j.addr j.uid
      if s.fab.role != 0 && h.port == s.homePort then s.noteJoin j else s)))

/-- DISCOVER with filter 0 or 1: a node that the filter selects and whose key matches answers with one JOIN (R506, R508); the
service frames have rows of their own, and the other filters are reserved (R16, R517). -/
def execDiscover (f : LineRx) (s : State) : Host.Outcome State Fault Refusal :=
  .next (s.heardOn f (Heard.isKind 5) (State.keyed (fun h s =>
    if !s.accepts h.port h.dst || 1 < h.filter.toNat then s
    else
      let s := s.rxOk h.port
      if s.macOk h && (h.filter == 0 || s.unaddressed) then s.queueJoin h.port false else s)))

/-! ### Routing (R498 to R502) -/

/-- The value an advert gives a segment, 16 for unreachable (R498). -/
def Advert.value (a : Advert) (g : BitVec 6) : Nat :=
  let v := (byteAt a.hops g.toNat).toNat
  if v ≤ 15 then v else 16

/-- The better of two advertisers of a segment: the lower value, then the lower address (R499, R500). -/
def betterAdvert (a b : Nat × BitVec 12) : Bool := decide (a.1 < b.1) || (a.1 == b.1 && decide (a.2.toNat ≤ b.2.toNat))

/-- The best of a list of advertisers. -/
def bestAdvert : List (Nat × BitVec 12) → Option (Nat × BitVec 12)
  | [] => none
  | a :: rest =>
    match bestAdvert rest with
    | some b => some (if betterAdvert a b then a else b)
    | none => some a

/-- The advertisers of a segment heard on a port (R499). -/
def LinePort.advertisers (l : LinePort) (g : BitVec 6) : List (Nat × BitVec 12) :=
  (l.adverts.map (fun a => (a.value g, a.from_))).filter (fun x => decide (x.1 ≤ 15))

/-- The claimants on a port: for every other segment the bridge that advertises the lowest value, this node among them (R500). -/
def State.claimantsOn (s : State) (p : Port) : List (BitVec 6 × BitVec 12) :=
  (List.range 63).filterMap (fun i =>
    let g : BitVec 6 := BitVec.ofNat 6 i
    let own := (byteAt (s.advertised p) i).toNat
    let mine := if s.bridging && !s.unaddressed && decide (own ≤ 15) then [(own, s.fab.addr)] else []
    if g = s.portSegment p then none
    else (bestAdvert (mine ++ (s.port p).advertisers g)).map (fun b => (g, b.2)))

/-- The routing table: for every segment not its own the best advert heard on either port, plus 1, up to 15 (R499); a segment whose
frames are held back shows as DRAINING (R501). -/
def State.routeTable (s : State) : List RouteEntry :=
  let draining : BitVec 6 → Bool := fun g => (s.lineA.holdBacks ++ s.lineB.holdBacks).any (fun b => b.segU == g)
  (List.range 63).filterMap (fun i =>
    let g : BitVec 6 := BitVec.ofNat 6 i
    if !s.bridging || g = s.portSegment .a || g = s.portSegment .b then none
    else
      let a := bestAdvert (s.lineA.advertisers g)
      let b := bestAdvert (s.lineB.advertisers g)
      let pick : Option (Port × Nat × BitVec 12) :=
        match a, b with
        | some x, some y => if betterAdvert x y then some (.a, x) else some (.b, y)
        | some x, none => some (.a, x)
        | none, some y => some (.b, y)
        | none, none => none
      match pick with
      | some (p, v, hop) => if v + 1 ≤ 15 then some { segment := g, port := p, hops := v + 1, draining := draining g, nextHop := hop } else none
      | none => none)

/-- The routing table is computed anew (R499). -/
def State.reroute (s : State) : State := { s with fab := { s.fab with routes := s.routeTable } }

/-- This bridge was the claimant and is no longer: it sends DRAIN behind its queued frames for the segment (R501, R502). -/
def State.sendDrain (p : Port) (g : BitVec 6) (s : State) : State :=
  let d : DrainFields := { segS := s.portSegment p, segU := g, oldClaimant := s.fab.addr, marker := s.fab.drainCount }
  let f : FwdFrame := { flow := { src := s.fab.addr, dst := segmentAll g, pol := none }, body := .drain d, at_ := s.clock.elapsed }
  { s with fab := { s.fab with drainCount := s.fab.drainCount + 1 } }.modPort (otherPort p) (fun l => { l with fwd := l.fwd ++ [f] })

/-- The change of one claimant on a port (R501): the old one drains, the new one holds frames back. -/
def State.claimantChange (p : Port) (g : BitVec 6) (old new : Option (BitVec 12)) (s : State) : State :=
  if old = new ∨ s.bridging = false then s
  else
    match old with
    | none => s
    | some x =>
      if x = s.fab.addr then s.sendDrain p g
      else if new = some s.fab.addr then
        s.modPort p (fun l => { l with holdBacks := { segU := g, old := x, frames := [] } :: l.holdBacks.filter (fun b => b.segU ≠ g) })
      else s

/-- The claimants of a port are computed anew, with what each change brings (R500, R501). -/
def State.reclaim (p : Port) (s : State) : State :=
  let old := (s.port p).claimants
  let new := s.claimantsOn p
  let find : List (BitVec 6 × BitVec 12) → BitVec 6 → Option (BitVec 12) := fun l g => (l.find? (fun c => c.1 == g)).map (·.2)
  let s := s.modPort p (fun l => { l with claimants := new })
  (List.range 63).foldl (fun s i => s.claimantChange p (BitVec.ofNat 6 i) (find old (BitVec.ofNat 6 i)) (find new (BitVec.ofNat 6 i))) s

/-- Routes and claimants follow a change of the adverts (R499 to R501). -/
def State.reroutes (s : State) : State := ((s.reroute.reclaim .a).reclaim .b).reroute

/-- ROUTE: the advert replaces the bridge's last one on the port (R473, R480, R498 to R501). -/
def execRoute (f : LineRx) (s : State) : Host.Outcome State Fault Refusal :=
  .next (s.heardOn f (Heard.isKind 6) (State.keyed (fun h s =>
    if !s.accepts h.port h.dst then s
    else
      let hops := (h.payload.drop 1).take 63
      let s := (s.rxOk h.port).modPort h.port (fun l =>
        { l with adverts := { from_ := h.src, hops := hops } :: l.adverts.filter (fun a => a.from_ ≠ h.src) })
      let s : State := if s.fab.role != 0 && h.port == s.homePort then
        { s with fab := { s.fab with bridges := s.fab.bridges ||| bitOf 64 (addrSlot h.src) } } else s
      s.reroutes)))

/-- ROUTE_LAPSE: the next hop's value for the segment is forgotten on the port it was heard on (R499). -/
def execRouteLapse (segment : Fin 63) (s : State) : Host.Outcome State Fault Refusal :=
  let g : BitVec 6 := BitVec.ofNat 6 segment.val
  let forget : BitVec 12 → LinePort → LinePort := fun hop l =>
    { l with adverts := l.adverts.map (fun a =>
        if a.from_ = hop then { a with hops := a.hops.mapIdx (fun i b => if i = segment.val then 0xff else b) } else a) }
  let on : Port → State → State := fun p s =>
    match (s.port p).claimant g with
    | some hop => s.modPort p (forget hop)
    | none => s
  .next (
    match s.fab.routes.find? (fun r => r.segment == g) with
    | some r => (s.modPort r.port (forget r.nextHop)).reroutes
    | none => if s.bridging then s else (on .b (on .a s)).reroutes)

/-- A DRAIN or DRAIN_DONE with the same six bytes has been handled within the last 8,000 ms (R502). -/
def State.drainSeen (s : State) (isDone : Bool) (d : DrainFields) : Bool :=
  s.fab.drainsSeen.any (fun x => x.1 == isDone && x.2.1 == d && decide (s.clock.elapsed < x.2.2 + 8 * ticksPerSec))

/-- One is handled now; what is older is forgotten (R502). -/
def State.noteDrain (isDone : Bool) (d : DrainFields) (s : State) : State :=
  let recent := s.fab.drainsSeen.filter (fun x => decide (s.clock.elapsed < x.2.2 + 8 * ticksPerSec))
  { s with fab := { s.fab with drainsSeen := (isDone, d, s.clock.elapsed) :: recent } }

/-- The claimant of a frame's segment forwards it in flow order (R501). -/
def State.forwardDrain (h : Heard) (g : BitVec 6) (body : TxBody) (s : State) : State :=
  if (s.port h.port).claimant g = some s.fab.addr then
    match s.forwardPort h.port g with
    | some out => (s.buffer h.port out { flow := { src := h.src, dst := h.dst, pol := none }, body := body, at_ := s.clock.elapsed }).2
    | none => s
  else s

/-- DRAIN: the claimant of the segment forwards it once (R473, R501, R502). -/
def execDrain (f : LineRx) (s : State) : Host.Outcome State Fault Refusal :=
  .next (s.heardOn f (Heard.isKind 7) (State.keyed (fun h s =>
    let d := DrainFields.decode h.payload
    if !s.takes h.port h.dst || s.drainSeen false d then s
    else ((s.rxOk h.port).noteDrain false d).forwardDrain h d.segU (.drain d))))

/-- Frames held back for a segment are released into the forward buffer they were meant for (R501). -/
def State.release (p : Port) (g : BitVec 6) (s : State) : State :=
  let frames := (((s.port p).holdBacks.filter (fun b => b.segU == g)).map (fun b => b.frames)).flatten
  let s := s.modPort p (fun l => { l with holdBacks := l.holdBacks.filter (fun b => b.segU ≠ g) })
  (s.modPort (otherPort p) (fun l => { l with fwd := l.fwd ++ frames })).reroute

/-- DRAIN_DONE: the new claimant of the segment on the old one releases what it held back; elsewhere the frame is forwarded
(R473, R501, R502). -/
def execDrainDone (f : LineRx) (s : State) : Host.Outcome State Fault Refusal :=
  .next (s.heardOn f (Heard.isKind 8) (State.keyed (fun h s =>
    let d := DrainFields.decode h.payload
    if !s.takes h.port h.dst || s.drainSeen true d then s
    else
      let s := (s.rxOk h.port).noteDrain true d
      let on : Port → State → State := fun p s =>
        if s.portSegment p = d.segS ∧ (s.port p).holdBacks.any (fun b => b.segU == d.segU && b.old == d.oldClaimant) = true then s.release p d.segU
        else s
      (on .b (on .a s)).forwardDrain h d.segS (.drainDone d))))

/-- HOLDBACK_EXPIRED (R501, R509). -/
def execHoldbackExpired (port : Port) (segment : Fin 63) (s : State) : Host.Outcome State Fault Refusal :=
  let g : BitVec 6 := BitVec.ofNat 6 segment.val
  .next (if (s.port port).holdBacks.any (fun b => b.segU == g) then (s.release port g).countPort port 11 else s)

/-! ### The forward buffer's limits (R373, R491) -/

/-- The frames a bridge holds for a port and their flows, each with the elapsed ticks since which it has waited (R491, R501). -/
def State.heldFor (s : State) (out : Port) : List (Flow × Nat) :=
  ((s.port out).unacked.filter (fun u => u.flow.src != s.fab.addr)).map (fun u => (u.flow, u.at_)) ++
    (s.port out).fwd.map (fun f => (f.flow, f.at_)) ++
    ((s.port (otherPort out)).holdBacks.flatMap (fun b => b.frames)).map (fun f => (f.flow, f.at_))

/-- The one that has waited longest. -/
def oldestHeld : List (Flow × Nat) → Option (Flow × Nat)
  | [] => none
  | x :: rest =>
    match oldestHeld rest with
    | some y => some (if x.2 ≤ y.2 then x else y)
    | none => some x

/-- A flow's buffering is leased: a frame of it has been forwarded in the last 500 ms (R373, R491). -/
def State.flowLeased (s : State) (out : Port) (f : Flow) : Bool :=
  (s.port out).txFlows.any (fun x => x.flow == f && x.started && decide (s.clock.elapsed < x.sentAt + ticksPerSec / 2))

/-- Frames of a flow leave the buffers of a port: those that wait as long as the oldest, or all of them (R373, R491). -/
def State.dropHeld (out : Port) (f : Flow) (arrived : Nat) (all : Bool) (s : State) : State :=
  let keep : Flow → Nat → Bool := fun g t => g != f || (!all && t != arrived)
  (s.modPort out (fun l =>
    { l with unacked := l.unacked.filter (fun u => keep u.flow u.at_), fwd := l.fwd.filter (fun x => keep x.flow x.at_) })).modPort
    (otherPort out) (fun l => { l with holdBacks := l.holdBacks.map (fun b => { b with frames := b.frames.filter (fun x => keep x.flow x.at_) }) })

/-- FWD_FRAME_TIMEOUT: the frame that has waited longest in the bridge is dropped, with the rest of its flow where the flow's lease has run
out, and each is counted (R373, R491, R509; notes/assumptions/70.md). -/
def execFwdFrameTimeout (port : Port) (s : State) : Host.Outcome State Fault Refusal :=
  .next (
    match oldestHeld (s.heldFor port) with
    | none => s
    | some (f, arrived) =>
      let t := s.dropHeld port f arrived (!s.flowLeased port f)
      (List.range ((s.heldFor port).length - (t.heldFor port).length)).foldl (fun s _ => s.countPort port 10) t)

/-- FLOW_STATE_EXPIRY (R490). -/
def execFlowStateExpiry (port : Port) (src : BitVec 12) (dst : BitVec 12) (pol : Option PolId) (s : State) : Host.Outcome State Fault Refusal :=
  .next (s.modPort port (fun l => { l with rxFlows := l.rxFlows.filter (fun x => x.flow ≠ { src := src, dst := dst, pol := pol }) }))

/-- LINE_FRAME_BAD: a malformed frame is discarded and counted in RX_ERR, one of a keyed kind whose CMAC fails in MAC_FAIL by a node with a
line key (R472, R508); any other frame is none of this row's. -/
def execLineFrameBad (f : LineRx) (s : State) : Host.Outcome State Fault Refusal :=
  .next (
    if !s.portLive f.port then s
    else
      match f.heard with
      | none => s.countPort f.port 2
      | some h => if kindSigned h.kind && s.fab.keyId != 0 && !s.macOk h then s.countPort f.port 13 else s)

end Sys2Proof.Machine
end

