-- ==== Sys2Proof/Machine/Pipeline.lean ====
section
/-! DEFINITION. Row reads and records: ROW_READ, RECORD_LEAVES_FORK, RECORD_ENTERS_DELIVERY (R228 to R233, R285 to R302, R331,
R655). -/

namespace Sys2Proof.Machine

/-! ### ROW_READ -/

/-- The gain decision of a converter: at or above 7/8 of the slot's full-scale swing the pixel is sampled at LCG (R214, R215). -/
def convLow (depth10 : Bool) (v : Conversion) : Bool := decide ((if depth10 then 896 else 3584) ≤ v.gainLevel)

/-- The code of a converter at a gain (R211, R215). -/
def convCode (depth10 cg : Bool) (v : Conversion) : Nat := rampCode depth10 (if cg then v.tripLcg else v.tripHcg)

/-- A converter that meets no column voltage. -/
def darkConv : Conversion := { gainLevel := 0, tripHcg := 0, tripLcg := 0 }

/-- The sample a converter takes by its own gain decision (R211, R214, R217). -/
def convSample (depth10 src : Bool) (v : Conversion) : Sample :=
  { code := convCode depth10 (convLow depth10 v) v, cg := convLow depth10 v, src := src }

/-- The samples of a read as they are forwarded: where the spare stands in for a column or replaces it, its own decision and code with SRC
= 1, else the column's (R214, R216, R217, R224, R230, R232). -/
def forwarded (k : Columns) (r : Nat) (depth10 : Bool) (columns spares : List Conversion) : List Sample :=
  (List.range 1600).map (fun c =>
    if k.spareServes r c then convSample depth10 true (spares.getD (groupOf c) darkConv)
    else convSample depth10 false (columns.getD c darkConv))

/-- The internal 16-bit word of a sample (R217). -/
def Sample.word (m : Sample) (bad : Bool) : W16 := BitVec.ofNat 16 (m.code + 4096 * b2n m.cg + 8192 * b2n m.src + 16384 * b2n bad)

/-- The sample bus through a read: FRAME_VALID rises with the tag before the first one and falls after the last; cycle i of lane l carries
column 400l + i (R276, R277). -/
def Slot.readBus (x : Slot) (read : RowRead) (done : Bool) (b : SampleBus) : SampleBus :=
  { frameValid := !done, tag := if x.reads.isEmpty then x.tagWords 0 else b.tag,
    lanes := (List.range 4).map (fun l => (List.range 400).map (fun i =>
      (read.codes.getD (400 * l + i) Sample.none).word (read.bad.contains (400 * l + i)))) }

/-- Reads of a slot up to the end of read period k: those a replacement declared in it excludes (R233). -/
def Expo.readsThrough (e : Expo) (k : Nat) : Nat := (e.schedule.filter (fun p => p.1 ≤ k)).length

/-- A repair is noted in the slot (R233). -/
def State.noteRepair (r : Repair) (s : State) : State :=
  { s with wheel := { s.wheel with slot := s.wheel.slot.map (fun x => { x with repairs := x.repairs ++ [r] }) } }

/-- The shadow comparison of one live group in read period k, at the gain the column's converter chose: MAXDIFF and the run of differing reads; the fourth declares the
column failed (R216, R228, R229, R231 to R233). -/
def State.compareShadow (x : Slot) (k : Nat) (columns spares : List Conversion) (s : State) (g : Nat) : State :=
  let c := 50 * g + jobOffset (revolutionNo x.frame)
  if (s.cols.group g).state ≠ .live then s
  else
    let m := convSample x.expo.depth10 false (columns.getD c darkConv)
    let d := ((m.code : Int) - (convCode x.expo.depth10 m.cg (spares.getD g darkConv) : Nat)).natAbs
    let n := if (if x.expo.depth10 then 6 else 24) < d then (s.cols.group g).diffCount + 1 else 0
    let s := { s with cols := s.cols.modGroup g (fun y => { y with runMax := max y.runMax d, diffCount := n }) }
    if n < 4 then s
    else
      let row := x.expo.firstGoodRow k
      (s.noteRepair { column := c, firstGoodRow := row, excludedReads := x.expo.readsThrough k }).declareReplaced c 1 row x.frame

/-- ROW_READ: the slot's next read in order (R174, R176, R211 to R217, R228 to R233, R276, R277). -/
def execRowRead (columns : List Conversion) (spares : List Conversion) (s : State) : Host.Outcome State Fault Refusal :=
  .next (
    match s.wheel.slot with
    | some x =>
      match x.expo.schedule[x.reads.length]? with
      | some (k, _, _) =>
        if x.te.isSome && x.cal.isNone && s.clock.hold.isNone && x.voidReason != some 4 then
          let r := revolutionNo x.frame
          let read : RowRead := { codes := forwarded s.cols r x.expo.depth10 columns spares, bad := s.cols.defectMap.map (·.column) }
          let done := decide (x.reads.length + 1 = x.expo.schedule.length)
          let s1 : State := { s with wheel := { s.wheel with slot := some { x with reads := x.reads ++ [read], readsDone := done },
                                                             bus := x.readBus read done s.wheel.bus },
                                     lands := { s.lands with strobe := s.lands.strobe && !done } }
          if standsIn r then s1
          else ((List.range 32).foldl (State.compareShadow x k columns spares) s1).storeColumns s.colStateNow
        else s
      | none => s
    | none => s)

/-! ### Occupancy (R289 to R292) -/

/-- A machine after one evaluated frame (R289, R291): area motion, and what hold elapsed grows by. The count stays what it reached until the
machine is VACANT again (notes/assumptions/62.md). -/
def OccMachine.next (a : Area) (motion grow : Nat) (m : OccMachine) : OccMachine :=
  if a.th ≤ motion then
    if m.state = 0 then { state := if a.confirm = 1 then 2 else 1, count := 1, hold := 0 }
    else if m.state = 1 then { state := if a.confirm ≤ m.count + 1 then 2 else 1, count := m.count + 1, hold := 0 }
    else { m with state := 2, hold := 0 }
  else
    if m.state = 2 then { m with state := 3, hold := 0 }
    else if m.state = 3 then
      (if a.holdSeconds * ticksPerSec ≤ m.hold + grow then { state := 0, count := 0, hold := 0 } else { m with hold := m.hold + grow })
    else { state := 0, count := 0, hold := 0 }

/-- A change that produces EV_OCC: into OCCUPIED from ENTERING or VACANT, into VACANT from HOLD (R292). -/
def occReports (old new : Nat) : Bool := (new == 2 && (old == 0 || old == 1)) || (new == 0 && old == 3)

/-- The largest zone motion of an area (R289). -/
def areaMotion (a : Area) (motion : List Nat) : Nat :=
  ((List.range 300).filter (fun z => a.zones.toNat.testBit z)).foldl (fun m z => max m (motion.getD z 0)) 0

/-- The machines of a polder after an evaluated frame (R289). -/
def evalAreas (areas : List Area) (motion : List Nat) (grow : Nat) (occ : Vector OccMachine 4) : Vector OccMachine 4 :=
  occ.mapIdx (fun i m =>
    match areas[i]? with
    | some a => m.next a (areaMotion a motion) grow
    | none => m)

/-! ### The STATS record (R299, R300) -/

/-- Everything the statistics of a slot give: zones, motion, references, the step and the colour temperature. -/
structure FrameStats where
  zones : List ZoneStat
  motion : List Nat
  refs : List Frac
  step : Option Nat
  cct : Option Nat
  lux : List Frac
  deriving DecidableEq, Repr

/-- The first STATS frame of a polder, the first after a change of window or BIN, and the one MOTION_REBASE asks for are
MOTION_INIT frames (R286, R408). -/
def motionInit (q : Polder) (x : Slot) : Bool := q.motionInit || q.initFrom.any (fun f => !frameLater f x.frame)

/-- The colour sums over the unmasked zones that qualify, and the CCT they give (R288). -/
def frameCct (m : MfgItem) (mask : BitVec 300) (zones : List ZoneStat) : Option Nat :=
  let ok := ((List.range 300).filter (fun z => mask.toNat.testBit z)).filterMap (fun z =>
    (zones[z]?).filter (fun s => (Frac.ofNat 256).le s.g && s.g.le (Frac.ofNat 28672)))
  if ok.isEmpty then none else cctOf m.matrix (Frac.sum (ok.map (·.r))) (Frac.sum (ok.map (·.g))) (Frac.sum (ok.map (·.b)))

/-- The statistics of a slot (R285 to R288, R294). -/
def frameStats (m : MfgItem) (q : Polder) (x : Slot) (draw : Nat) : FrameStats :=
  let d := x.darks draw
  let quads := x.quads d
  let outs := x.outputs d
  let zones := (List.range 300).map (zoneStat x.expo quads outs)
  let init := motionInit q x
  let refsOf : Nat → List Frac := fun z => (q.motionRef.drop (16 * z)).take 16
  let cellsOf : Nat → List (Option Frac) := fun z => ((zones[z]?).map (·.cells)).getD []
  { zones := zones,
    motion := (List.range 300).map (fun z => if init then 0 else zoneMotion (cellsOf z) (refsOf z)),
    refs := ((List.range 300).map (fun z => ((cellsOf z).zip (refsOf z)).map (fun p => nextRef init p.1 p.2))).flatten,
    step := x.illumStep d, cct := frameCct m x.charter.zoneMask zones,
    lux := (List.range 300).map (fun z => illuminance m x.expo x.charter.selection.rho z (((zones[z]?).map (·.luma)).getD (Frac.ofNat 0))) }

/-- The repaired columns of a slot's window, lowest first; a column outside it is in no record (R233, R242, R299). -/
def Slot.repaired (x : Slot) : List Repair :=
  (List.range' x.expo.x0 x.expo.w).filterMap (fun c => x.repairs.find? (fun r => r.column = c))

/-- The record's window contains a defect column, or the map is full (R238, R239). -/
def Slot.defectCol (x : Slot) : Bool :=
  x.mapFull || x.reads.any (fun r => r.bad.any (fun c => decide (x.expo.x0 ≤ c) && decide (c < x.expo.x0 + x.expo.w)))

/-- A repair entry of the fixed part (R299). -/
def repairBytes : Option Repair → List Byte
  | some r => leBytes 2 r.column ++ leBytes 2 r.firstGoodRow
  | none => leBytes 4 0

/-- The fixed part of a STATS body (R299). -/
def statsFixed (x : Slot) (te : Tb) (init : Bool) (f : FrameStats) : List Byte :=
  let e := x.expo
  let reps := x.repaired
  let trig := match x.trig with
    | some t => t.src.code
    | none => 0
  te.bytes ++ leBytes 4 e.eL ++ leBytes 1 e.again ++
  leBytes 1 (e.bin + 4 * b2n e.depth10 + 8 * e.nexp + 32 * trig) ++
  leBytes 1 (if e.nexp = 3 then e.dM else 0) ++ leBytes 1 (if 2 ≤ e.nexp then e.dS else 0) ++
  leBytes 2 e.x0 ++ leBytes 2 e.w ++ leBytes 2 e.y0 ++ leBytes 2 e.h ++
  leBytes 1 (b2n (!reps.isEmpty) + 2 * b2n x.defectCol + 4 * b2n f.step.isSome + 8 * b2n x.throttled + 16 * x.lockState.code +
    64 * b2n init + 128 * b2n f.cct.isNone) ++
  leBytes 3 (b2n (decide (2 < reps.length))) ++
  leBytes 2 ((f.step.map e.arrayRow).getD 0) ++ leBytes 1 reps.length ++ leBytes 1 x.charter.selection.sections.toNat ++
  repairBytes reps[0]? ++ repairBytes reps[1]?

/-- The selected sections of a STATS body, over the unmasked zones (R288, R293, R300). -/
def statsSections (x : Slot) (occ : Vector OccMachine 4) (f : FrameStats) : List Byte :=
  let zs := (List.range 300).filter (fun z => x.charter.zoneMask.toNat.testBit z)
  let on : Nat → List Byte → List Byte := fun i bs => if x.charter.selection.sections.toNat.testBit i then bs else []
  let stat : Nat → Option ZoneStat := fun z => f.zones[z]?
  let bin : Nat → Nat := fun b => (zs.map (fun z => ((stat z).map (fun s => s.hist.getD b 0)).getD 0)).sum
  let colour : (ZoneStat → Frac) → Nat → List Byte := fun c z => leBytes 2 (lf16 (((stat z).map c).getD (Frac.ofNat 0)))
  on 0 (((List.range 256).map (fun b => leBytes 3 (bin b))).flatten) ++
  on 1 ((zs.map (fun z => colour (·.r) z ++ colour (·.g) z ++ colour (·.b) z)).flatten) ++
  on 2 (((zs.map (fun z => leBytes 1 (f.motion.getD z 0))).flatten) ++ (if zs.length % 2 = 1 then leBytes 1 0 else [])) ++
  on 3 ((zs.map (fun z => leBytes 2 (lf16 (f.lux.getD z (Frac.ofNat 0))))).flatten) ++
  on 4 (leBytes 2 (f.cct.getD 0) ++ leBytes 2 0) ++
  on 5 (occSection x.charter.selection occ)

/-- A VOID body (R301). -/
def voidBody (reason : Nat) (start : Tb) : List Byte := leBytes 1 reason ++ leBytes 7 0 ++ start.bytes

/-- EV_OCC of each machine that reports (R292, R302). -/
def State.occEvents (p : PolId) (f : W32) (old new : Vector OccMachine 4) (s : State) : State :=
  (List.finRange 4).foldl (fun s a =>
    if occReports old[a].state new[a].state then
      s.eventAt p 0x0012 f s.clock.tb (leBytes 1 a.val ++ leBytes 1 old[a].state ++ leBytes 1 new[a].state ++ leBytes 1 0)
    else s) s

/-- The mean illuminance over an area's zones in whole lux (R654). -/
def areaLux (a : Area) (lux : List Frac) : Nat :=
  let l := ((List.range 300).filter (fun z => a.zones.toNat.testBit z)).map (fun z => lux.getD z (Frac.ofNat 0))
  min 65535 ((Frac.mean l).div (Frac.ofNat 1000)).round.toNat

/-- Instance 0 follows the state of its area; a change sends the instance's event (R653, R655). -/
def State.daliOccupancy (occ : Vector OccMachine 4) (s : State) : State :=
  match occ.toList[s.dali.occArea.toNat]? with
  | some m =>
    let occupied := m.state == 2 || m.state == 3
    let movement := m.state == 1 || m.state == 2
    if (s.daliArea 0).isNone || (occupied == s.dali.occupied && movement == s.dali.movement) then s
    else ({ s with dali := { s.dali with occupied := occupied, movement := movement } } : State).daliEvent 0
  | none => s

/-- Instance 1 follows the illuminance of its area; whether a change sends an event is the standard's (R654, R655;
notes/assumptions/7.md). -/
def State.daliLight (lux : List Frac) (s : State) : State :=
  match s.daliArea 1 with
  | some a =>
    let v := areaLux a lux
    if v = s.dali.lux then s
    else
      let send := s.draw % 2 == 1
      let s := ({ s with dali := { s.dali with lux := v } } : State).drawn
      if send then s.daliEvent 1 else s
  | none => s

/-- A STATS frame of the bound polder: a new DALI_CFG acts from it on, and where the frame was evaluated the DALI instances update (R464,
R655). -/
def State.daliUpdate (p : PolId) (evaluated : Bool) (occ : Vector OccMachine 4) (lux : List Frac) (s : State) : State :=
  if p = s.bindHolder 2 then
    let s := { s with dali := s.dali.takeAreas }
    if evaluated then (s.daliOccupancy occ).daliLight lux else s
  else s

/-- The record of a slot with reads leaves the fork as STATS: references, machines, events and DALI follow (R285 to R292, R299,
R655). Machines of a selection that has been replaced since are evaluated once more and go. The free values of the dark levels are drawn. -/
def State.leaveStats (x : Slot) (p : PolId) (te : Tb) (replaced : Option (Vector OccMachine 4)) (s : State) : State :=
  let q := s.pol p
  let f := frameStats s.arr.mfg q x s.freeCtr
  let init := motionInit q x
  let grow := if q.holdFresh then 0 else match q.lastEval with
    | some l => x.teAt - l.2
    | none => 0
  let before := replaced.getD q.occ
  let occ := if init then before else evalAreas x.charter.selection.areas f.motion grow before
  let q' : Polder :=
    { q with motionRef := f.refs, motionInit := false, initFrom := q.initFrom.filter (fun r => frameLater r x.frame),
             occ := if replaced.isSome then q.occ else occ,
             lastEval := if init then q.lastEval else some (x.frame, x.teAt), holdFresh := q.holdFresh && init }
  let body := statsFixed x te init f ++ statsSections x occ f
  let s := ({ s with freeCtr := s.freeCtr + 24 } : State).modPol p (fun _ => q')
  let s := { s with wheel := { s.wheel with enclave := some { pol := p, rtype := 1, frame := x.frame, body := body } } }
  (s.occEvents p x.frame before occ).daliUpdate p (!init) occ f.lux

/-- The record of a slot without reads leaves the fork as VOID; a THROTTLED mark it cannot carry stays due (R297, R301, R591). -/
def State.leaveVoid (x : Slot) (p : PolId) (reason : Nat) (s : State) : State :=
  let s := { s with wheel := { s.wheel with enclave := some { pol := p, rtype := 2, frame := x.frame, body := voidBody reason x.startTb } } }
  if !x.throttled then s
  else
    match s.wheel.slot with
    | some y =>
      if y.holder = some p then { s with wheel := { s.wheel with slot := some { y with throttled := true } } }
      else s.modPol p (fun q => { q with throttled := true })
    | none => s.modPol p (fun q => { q with throttled := true })

/-- RECORD_LEAVES_FORK (R285 to R302, R655). -/
def execRecordLeavesFork (s : State) : Host.Outcome State Fault Refusal :=
  .next (
    match s.wheel.fork with
    | some d =>
      if s.wheel.enclave.isSome then s
      else
        let x := d.slot
        let s := { s with wheel := { s.wheel with fork := none } }
        let s := match x.voidReason, x.te with
          | some r, _ => s.leaveVoid x d.holder r
          | none, some te => s.leaveStats x d.holder te d.machines
          | none, none => s.leaveVoid x d.holder 1
        match x.calRep with
        | some r => s.reportCal x.frame r
        | none => s
    | none => s)

/-- The DISSOLVED body (R331). -/
def Dissolution.body (g : Dissolution) : List Byte :=
  leBytes 1 g.reason ++ leBytes 1 0 ++ leBytes 2 g.goneCount ++ leBytes 4 g.lastFrame.toNat ++ g.tb.bytes

/-- The DISSOLVED record of a polder is due: its dissolution has taken effect, and neither a record nor an event that comes
before it is outstanding (R331). -/
def State.dissolvedDue (s : State) (p : PolId) : Bool :=
  match (s.pol p).gone with
  | some g => g.passed && !g.issued && !s.recordDue p (g.boundary - 1) && !(s.pol p).events.any (fun e => !frameLater e.frame (g.boundary - 1))
  | none => false

/-- The DISSOLVED record is issued as the polder's last (R331). -/
def State.issueDissolved (p : PolId) (s : State) : State :=
  match (s.pol p).gone with
  | some g =>
    (s.issueRecord p 0x04 (g.boundary - 1) g.body).modPol p (fun q => { q with gone := some { g with issued := true }, events := [] })
  | none => s

/-- RECORD_ENTERS_DELIVERY: the sealed record takes the next record number and enters the delivery queue; events that waited for
it follow, then DISSOLVED records that are due (R295, R296, R331, R370). -/
def execRecordEntersDelivery (s : State) : Host.Outcome State Fault Refusal :=
  .next (
    let s := match s.wheel.enclave with
      | some r => ({ s with wheel := { s.wheel with enclave := none } } : State).issueRecord r.pol r.rtype r.frame r.body
      | none => s
    let s := s.issueAll
    if s.sequencing then (List.finRange 8).foldl (fun s p => if s.dissolvedDue p then s.issueDissolved p else s) s else s)

end Sys2Proof.Machine
end

