-- ==== Sys2Proof/Machine/Reeve.lean ====
section
/-! DEFINITION. Reeves and workers: BEACON, BEACON_TX, BEACON_MISSED, REEVE_PRESUMED_LOST, ELECTION_DELAY_EXPIRED, RANGE_REQ,
RANGE_ECHO, RANGE_REQ_TIMER, SWAP_REQ, SWAP_READY, SWAP_NOT, SWAP_DONE, ROLE_SWAP_TIMEOUT (R445, R446, R474 to R483, R492 to R497,
R511 to R542). -/

namespace Sys2Proof.Machine

/-! ### Roles (R511, R542) -/

/-- The role changes, and the owner is told (R542). -/
def State.changeRole (new : Fin 3) (cause : Nat) (cycle : W32) (s : State) : State :=
  ({ s with fab := { s.fab with role := new } } : State).ownerEvent 0x0049
    (leBytes 1 s.fab.role.val ++ leBytes 1 new.val ++ leBytes 1 cause ++ leBytes 1 0 ++ leBytes 4 cycle.toNat)

/-- EV_FABRIC_TIME (R542). -/
def State.timeEvent (state : Nat) (offset : Int) (s : State) : State :=
  s.ownerEvent 0x004B (leBytes 1 state ++ leBytes 1 s.fab.hops.toNat ++ leBytes 2 0 ++
    leBytes 4 (wordOf 32 (max (-2147483648) (min 2147483647 offset))))

/-- Following ends with the loss of the reeve or of its fabric time (R521, R525, R542). -/
def State.stopFollowing (s : State) : State :=
  if s.fab.following then ({ s with fab := { s.fab with following := false } } : State).timeEvent 4 0 else s

/-- The far port of a segment reeve in bridge mode, on which it follows (R516, R521). -/
def State.farPort (s : State) : Port := otherPort s.homePort

/-- The reeve a node ranges against and follows: on the home port for a worker, on the far port for a segment reeve in bridge mode,
none for the fabric reeve (R520, R521). -/
def State.followedPort (s : State) : Option Port :=
  if s.fab.role = 0 then some s.homePort else if s.fab.role = 1 ∧ s.bridging = true then some s.farPort else none

/-! ### The fabric phase (R209, R527, R528) -/

/-- The phase fields of the latest accepted beacon: a valid phase begins or ends with it, and a new phase source is announced like
the end of a free-running period (R209, R210, R527, R528). -/
def State.takePhase (valid newSource : Bool) (edge : Tb) (period : Nat) (s : State) : State :=
  let old := s.lands.beaconPhase
  if valid then
    let s1 : State := { s with lands := { s.lands with beaconPhase := { valid := true, everValid := true, edge := edge, period := period } } }
    if old.everValid && (!old.valid || newSource) then
      s1.syncOkEvents .beacon (old.edge.ticks, old.period) (edge.ticks, period)
    else s1
  else if old.valid then
    ({ s with lands := { s.lands with beaconPhase := { old with valid := false } } } : State).syncLostEvents .beacon
  else s

/-! ### Following time (R515, R520 to R524) -/

/-- The reeve's time at t_r, in ticks (R515). -/
def reeveTime (b : BeaconFields) (delay : Nat) : Nat := (Tb.ofWord b.tbTx.toNat).ticks + 1120 + delay

/-- The slew that replaces any other at a followed beacon (R522); none for an offset of 0. -/
def imposedSlew (offset : Int) : Option Slew :=
  if offset = 0 then none
  else some { advance := decide (0 < offset), remain := offset.natAbs, rate := min 100 (max 1 ((offset.natAbs + 3) / 4)), elapsed := 0,
              k := 1, imposed := true }

/-- A whole number from a free natural one, of either sign. -/
def freeInt (n : Nat) : Int := if n % 2 = 0 then (n / 2 : Nat) else -((n / 2 + 1 : Nat) : Int)

/-- The first followed beacon before commands are accepted loads the time base (R523). -/
def State.loadFabricTime (b : BeaconFields) (theta : Int) (s : State) : State :=
  let old := s.fab.following
  let s1 : State := { s with clock := { s.clock with tb := Tb.ofTicks (reeveTime b s.fab.delay), slew := none },
                             fab := { s.fab with synced := true, following := true, thetas := [theta] } }
  if old then s1 else s1.timeEvent 1 theta

/-- A followed beacon slews the time base; the rate difference over one cycle, estimated by a method no rule gives, is a free value
(R522; notes/assumptions/3.md). -/
def State.slewToFabric (theta : Int) (s : State) : State :=
  let old := s.fab.following
  let thetas := (theta :: s.fab.thetas).take 16
  let drift : Int := if s.fab.thetas.isEmpty then 0 else freeInt s.draw
  let s1 : State := { s.drawn with clock := { s.clock with slew := imposedSlew (theta + drift) },
                                   fab := { s.fab with synced := true, following := true, thetas := thetas } }
  if old then s1 else s1.timeEvent 2 theta

/-- A beacon the node follows (R521 to R524). -/
def State.followTime (b : BeaconFields) (s : State) : State :=
  let theta : Int := (reeveTime b s.fab.delay : Int) - s.clock.tb.ticks
  if s.fab.timeFar then s
  else if s.fab.synced = false ∧ s.power.accepting = false then s.loadFabricTime b theta
  else if 400000 < theta.natAbs then
    ({ s with fab := { s.fab with timeFar := true, following := false } } : State).timeEvent 3 theta
  else s.slewToFabric theta

/-! ### Fabric service frames (R517 to R519, R535) -/

/-- A fabric service frame sent in contention on a port (R519, R520). -/
def State.contendService (p : Port) (dst : BitVec 12) (filter byte1 : Nat) (value : BitVec 48) (s : State) : State :=
  s.contend p { dst := dst, src := s.fab.addr, ackmap := 0, isNew := false, fseq := 0,
                body := .discover (BitVec.ofNat 8 filter) (serviceValue byte1 value) }

/-- A frame is a fabric service frame of a kind. -/
def TxFrame.isService (filter : Nat) (f : TxFrame) : Bool :=
  match f.body with
  | .discover k _ => k.toNat == filter
  | _ => false

/-- No service frame of this kind waits on any port. -/
def State.noService (s : State) (filter : Nat) : Bool :=
  !(s.lineA.contention ++ s.lineA.mgmt ++ s.lineB.contention ++ s.lineB.mgmt).any (TxFrame.isService filter)

/-- What is repeated once a cycle: an unanswered SWAP_REQ, and SWAP_DONE up to three times in all (R535). -/
def State.repeatSwap (s : State) : State :=
  let s := match s.fab.swap with
    | some w => if !w.answered && s.noService 4 then s.sendService w.peer 4 (swapCode w.role) (stamp48 w.stamp) else s
    | none => s
  match s.fab.doneSent with
  | some (role, peer, stamp) =>
    if s.fab.doneLeft = 0 then s
    else ({ s with fab := { s.fab with doneLeft := s.fab.doneLeft - 1 } } : State).sendService peer 7 (swapCode role) stamp
  | none => s

/-- The full time base value of a STAMP48: the SEC nearest to the node's own that has its low 19 bits (R518). -/
def rebuildStamp (now : Tb) (x : BitVec 48) : Tb :=
  let low := x.toNat / 2 ^ 29
  let base := now.sec.toNat
  let d := (low + 2 ^ 19 - base % 2 ^ 19) % 2 ^ 19
  let sec : Nat := if d < 2 ^ 18 then base + d else base + d + 2 ^ 32 - 2 ^ 19
  { sec := BitVec.ofNat 32 sec, sub := BitVec.ofNat 29 x.toNat }

/-- A stamp is earlier than another (R446). -/
def stampBefore (a b : Tb) : Bool := decide (a.word < b.word)

/-- SWAP_DONE leaves now, and again in the next two cycles (R535, R539). -/
def State.sendDone (role : SwapRole) (peer : BitVec 12) (stamp : BitVec 48) (s : State) : State :=
  ({ s with fab := { s.fab with doneSent := some (role, peer, stamp), doneLeft := 2 } } : State).sendService peer 7 (swapCode role) stamp

/-- The node's own ROLE_SWAP has its outcome: OK where the request that stood is its own, else SWAP_CROSSED (R445, R446, R535). -/
def State.finishSwap (role : SwapRole) (peer : BitVec 12) (stood : BitVec 48) (change : Tb) (s : State) : State :=
  match s.fab.swap with
  | some w =>
    if w.role ≠ role ∨ w.peer ≠ peer then s
    else
      let ok := stamp48 w.stamp == stood
      let second := if ok then change else rebuildStamp s.clock.tb stood
      ({ s with fab := { s.fab with swap := none } } : State).readyHeld owner .swapOutcome
        { status := if ok then .ok else .swapCrossed, effectFrame := none, results := w.stamp.bytes ++ second.bytes }
  | none => s

/-- The holder begins the handover: a SEGMENT role goes with its next beacon (R538); a FABRIC role with SWAP_DONE now and its next
beacon (R539). -/
def State.startHandover (role : SwapRole) (peer : BitVec 12) (stamp : BitVec 48) (s : State) : State :=
  let x : Handover := { role := role, peer := peer, stamp := stamp, holder := true, phase := 0, at_ := s.clock.tb }
  let s : State := { s with fab := { s.fab with handover := some x } }
  match role with
  | .segment => s
  | .fabric => (s.sendDone role peer stamp).finishSwap role peer stamp s.clock.tb

/-- This node is the holder in a handover in progress. -/
def State.handingOver (s : State) : Bool := s.fab.handover.any (fun x => x.holder)

/-! ### Sending the beacon (R480 to R483, R514 to R516, R531 to R534, R538, R539) -/

/-- The maps of the next beacon, from the cycle that ends: PRESENT measured or still copied, absence counted, slots lent (R480, R481,
R532); the reeve's own slot is HELD and PRESENT, and a bridge in BRIDGES (notes/assumptions/49.md). -/
def Fabric.nextMaps (own : Nat) (bridge : Bool) (f : Fabric) : Fabric :=
  let heard := f.heardNow ||| bitOf 64 own
  let held := f.held ||| bitOf 64 own
  let present := if f.copyPresent = 0 then heard else f.present
  let absent := if f.copyPresent = 0 then
      f.absent.mapIdx (fun i c => if held.toNat.testBit i && !present.toNat.testBit i then min 300 (c + 1) else 0)
    else List.replicate 64 0
  let lend := (List.range 63).foldl (fun (m : BitVec 64) i =>
    if !held.toNat.testBit i || 300 ≤ absent.getD i 0 then m ||| bitOf 64 i else m) 0
  { f with held := held, present := present, absent := absent, lend := lend,
           bridges := if bridge then f.bridges ||| bitOf 64 own else f.bridges, heardNow := 0, copyPresent := f.copyPresent - 1 }

/-- The grant of the next beacon: repeated until its slot is PRESENT, then the next unaddressed node's (R483). -/
def Fabric.nextGrant (f : Fabric) : Fabric :=
  let f := if f.grantSlot.toNat < 63 ∧ f.present.toNat.testBit f.grantSlot.toNat = true then
      { f with grantId := 0, grantSlot := 0xff, joinQueue := f.joinQueue.filter (fun u => u ≠ f.grantId) }
    else f
  if f.grantId ≠ 0 then f
  else
    match f.joinQueue.head?, (List.range 63).find? (fun i => !f.held.toNat.testBit i) with
    | some u, some i => { f with grantId := u, grantSlot := BitVec.ofNat 8 i }
    | _, _ => f

/-- The unique ID of a node, known from its JOIN or BEACON frames, else a free value (R538; notes/assumptions/3.md). -/
def State.uidOf (s : State) (a : BitVec 12) : BitVec 64 :=
  match s.fab.known.find? (fun x => x.1 == a) with
  | some x => x.2
  | none => BitVec.ofNat 64 s.draw

/-- GRANT_ID and GRANT_SLOT of the next beacon, a handover's in place of a grant (R483, R538, R539). -/
def State.grantFields (s : State) : BitVec 64 × Byte :=
  match s.fab.handover with
  | some x =>
    if x.holder && x.phase == 0 then
      match x.role with
      | .segment => (s.uidOf x.peer, 0xfe)
      | .fabric => (0, 0xfd)
    else (s.fab.grantId, s.fab.grantSlot)
  | none => (s.fab.grantId, s.fab.grantSlot)

/-- The beacon of this cycle (R492, R516). -/
def State.beaconNow (s : State) (keyId : Byte) : BeaconFields :=
  let f := s.fab
  let fabric := f.role == 2
  let far := (s.port s.farPort).last
  let y := s.lands.sync
  let (phaseValid, edge, period) : Bool × BitVec 64 × W32 :=
    if fabric then (y.validPeriod != 0 && !y.lost, BitVec.ofNat 64 y.validEdge.word, BitVec.ofNat 32 y.validPeriod)
    else
      match far with
      | some b => if f.following then (b.phaseValid, b.phaseEdge, b.phasePeriod) else (false, 0, 0)
      | none => (false, 0, 0)
  let period2 := match far with
    | some b => if f.following && !fabric then b.fabPeriod else BitVec.ofNat 32 s.fabricWanted.fabPeriod
    | none => BitVec.ofNat 32 s.fabricWanted.fabPeriod
  { cycle := f.cycle, segment := s.ownSegment, rank := f.rank, keyId := keyId, fabricReeve := fabric, timeValid := fabric || f.following,
    phaseValid := phaseValid, reeveId := s.life.uid, held := f.held, present := f.present, lend := f.lend, bridges := f.bridges,
    grantId := s.grantFields.1, grantSlot := s.grantFields.2, hops := if fabric then 0 else if f.following then f.hops else 0xff,
    fabPeriod := period2, tbTx := BitVec.ofNat 64 s.clock.tb.word, phaseEdge := edge, phasePeriod := period }

/-- A beacon counts towards the port mode on the port that heard or sent it (R494). -/
def LinePort.countMode (seg : BitVec 6) (id : BitVec 64) (l : LinePort) : LinePort :=
  let same := l.modeBeacons != 0 && l.modeSeg == seg && l.modeReeve == id
  { l with modeBeacons := min 3 (l.modeBeacons + 1), modeRun := if same then min 3 (l.modeRun + 1) else 1, modeSeg := seg, modeReeve := id }

/-- The node becomes the reeve of its segment with its next beacon: it takes what it copied from the last one, and the fabric role
with FABRIC_REEVE = 1 there, or with its ROOT flag where it has no copy (R513, R531, R532, R534). -/
def State.becomeReeve (cause : Nat) (cycle : W32) (s : State) : State :=
  let copy := (s.port s.homePort).last
  let fabric := match copy with
    | some b => b.fabricReeve
    | none => s.fabricWanted.root
  let (held, present, lend, bridges, copies) : BitVec 64 × BitVec 64 × BitVec 64 × BitVec 64 × Nat :=
    match copy with
    | some b => (b.held, b.present, b.lend, b.bridges, 2)
    | none => (0, 0, 0, 0, 0)
  let s := if fabric then s else s.stopFollowing
  let s : State := { s with fab := { s.fab with
      cycle := cycle, held := held, present := present, lend := lend, bridges := bridges, copyPresent := copies, heardNow := 0,
      absent := List.replicate 64 0, grantId := 0, grantSlot := 0xff, candidate := false, presumed := false, following := false,
      synced := s.fab.synced && !fabric, hops := if fabric then 0 else 0xff } }
  s.changeRole (if fabric then 2 else 1) cause cycle

/-- Between two beacons of a segment the fabric role has moved: FABRIC_REEVE has changed, or both carry it and their reeves differ
(R528, R539; notes/assumptions/48.md). -/
def movedSource (old new : BeaconFields) : Bool :=
  old.fabricReeve != new.fabricReeve || (new.fabricReeve && old.reeveId != new.reeveId)

/-- The beacon leaves (R514): the cycle begins on the home port, the node's own beacon is its latest, and for the fabric reeve its
own phase (R484, R492, R494, R516, R527). -/
def State.emitBeacon (first : Bool) (s : State) : State :=
  let p := s.homePort
  let f := if first then s.fab else (s.fab.nextMaps s.ownSlot s.bridging).nextGrant
  let s : State := { s with fab := f }
  let keyId := match (s.port p).last with
    | some b => if first then b.keyId else s.fab.keyId
    | none => s.fab.keyId
  let b := s.beaconNow keyId
  let newSource := (s.port p).last.any (fun o => movedSource o b)
  let frame : TxFrame := { dst := segmentAll s.ownSegment, src := s.fab.addr, ackmap := 0, isNew := false, fseq := 0, body := .beacon b }
  let s := (s.newCycle p b.cycle false false).modPort p (fun l =>
    (({ l with last := some b, lastSrc := s.fab.addr, rxTb := s.clock.tb, missed := 0, mismatch := false } : LinePort).countMode
      s.ownSegment s.life.uid).count 5)
  let s := s.putLine p false frame
  let s : State := { s.drawn with fab := { s.fab with cycle := b.cycle + 1, copyPresent := if first then s.fab.copyPresent - 1 else s.fab.copyPresent } }
  let s := s.decidePortMode
  let s := if s.fab.role = 1 ∧ s.fab.following = false then s.takePhase false false Tb.zero 0 else s
  let s := if s.fab.role = 2 then s.takePhase b.phaseValid newSource (Tb.ofWord b.phaseEdge.toNat) b.phasePeriod.toNat else s
  s.repeatSwap

/-- What a handover does at the beacon: the receiver of a SEGMENT role takes over with it (R538), the receiver of the FABRIC role
beacons it, and its old holder no longer does (R539). The answer says whether the beacon is the node's first as reeve. -/
def State.handoverAtBeacon (s : State) : Bool × State :=
  let mark : Nat → State → State := fun n s =>
    { s with fab := { s.fab with handover := s.fab.handover.map (fun x => { x with phase := n, at_ := s.clock.tb }) } }
  match s.fab.handover with
  | none => (false, s)
  | some x =>
    match x.role, x.holder with
    | .segment, false =>
      if s.fab.role = 0 then
        (if x.phase = 1 then (true, mark 2 (s.becomeReeve 2 ((s.port s.homePort).cycle + 1))) else (false, s))
      else if x.phase = 2 then (false, { s with fab := { s.fab with handover := some { x with phase := 3 } } })
      else (false, { s with fab := { s.fab with handover := none } })
    | .fabric, false =>
      if s.fab.role = 1 ∧ x.phase = 1 then
        (false, ({ s with fab := { s.fab with handover := none, following := false, synced := false, hops := 0 } } : State).changeRole 2 2 s.fab.cycle)
      else (false, s)
    | .fabric, true =>
      if s.fab.role = 2 then (false, s.changeRole 1 2 s.fab.cycle) else (false, s)
    | .segment, true => (false, s)

/-- After the beacon, a holder's handover moves on: it sends no further beacon of a SEGMENT role (R538); a FABRIC role has gone
(R539). -/
def State.handoverAfterBeacon (s : State) : State :=
  match s.fab.handover with
  | some x =>
    if x.holder = false then s
    else
      match x.role with
      | .segment => { s with fab := { s.fab with handover := some { x with phase := 1 } } }
      | .fabric => { s with fab := { s.fab with handover := none, following := false, hops := 0xff } }
  | none => s

/-- The node beacons in this cycle: it is a reeve that has not handed its role over, or takes one over now (R511, R514, R538). -/
def State.beacons (s : State) : Bool :=
  s.portLive s.homePort && !s.unaddressed &&
  (match s.fab.handover with
   | some x =>
     if x.role = .segment then (if x.holder then s.fab.role != 0 && x.phase == 0 else s.fab.role != 0 || x.phase == 1)
     else s.fab.role != 0
   | none => s.fab.role != 0)

/-- BEACON_TX (R474, R480 to R483, R492, R514 to R516, R532, R538, R539). -/
def execBeaconTx (s : State) : Host.Outcome State Fault Refusal :=
  .next (
    if s.beacons then
      let (first, s) := s.handoverAtBeacon
      (s.emitBeacon first).handoverAfterBeacon
    else s)

/-! ### Hearing a beacon -/

/-- The home port of a node that hears a beacon of its own segment; port A stays it where both do (R478, R494). -/
def State.findHome (p : Port) (b : BeaconFields) (s : State) : State :=
  if s.unaddressed || b.segment != s.ownSegment then s
  else if p = .a then { s with fab := { s.fab with homeB := false } }
  else if s.heardOwn .a then s
  else { s with fab := { s.fab with homeB := true } }

/-- An unaddressed node takes the slot a beacon grants it (R483). -/
def State.takeGrant (b : BeaconFields) (s : State) : State :=
  if s.unaddressed && b.grantId == s.life.uid && decide (b.grantSlot.toNat < 63) then
    let a : BitVec 12 := BitVec.ofNat 12 (64 * b.segment.toNat + b.grantSlot.toNat)
    ({ s with fab := { s.fab with addr := a, provisional := true } } : State).patientEvent 0x0047 (leBytes 2 3 ++ leBytes 2 a.toNat)
  else s

/-- The node's address matches the beacons on none of its ports, or does again (R495). -/
def State.judgeMismatch (p : Port) (b : BeaconFields) (s : State) : State :=
  let other := otherPort p
  if s.unaddressed then s
  else if b.segment = s.ownSegment then
    (s.modPort p (fun l => { l with mismatch := false })).modPort other (fun l => { l with mismatch := false })
  else if s.heardOwn other || s.fab.role != 0 || (s.port p).mismatch then s
  else
    let told := (s.port other).mismatch
    let s := (s.modPort p (fun l => { l with mismatch := true })).queueJoin p false
    if told then s else s.patientEvent 0x0047 (leBytes 2 1 ++ leBytes 2 s.fab.addr.toNat)

/-- What a port keeps of a beacon: the cycle, its slot, the copy, where and when it was heard (R474, R475, R480, R482, R515, R520). -/
def State.keepBeacon (p : Port) (h : Heard) (b : BeaconFields) (s : State) : State :=
  let lent := b.lend.toNat.testBit s.ownSlot
  let same := (s.port p).last.isSome && (s.port p).lastSrc == h.src
  let s := (s.newCycle p b.cycle lent lent).modPort p (fun l =>
    { l with last := some b, lastSrc := h.src, rxTb := s.clock.tb, missed := 0, heardBeacon := true,
             reeveBeacons := if same then min 3 (l.reeveBeacons + 1) else 1 })
  let s : State := if same || s.followedPort != some p then s else { s with fab := { s.fab with delay := 0, ranged := false } }
  let mine := b.segment == s.ownSegment || s.bridging
  if lent && mine && !s.unaddressed then s.queueJoin p true else s

/-- The node's own record of its segment: the ROOT flag (R513). -/
def State.keepRoot (b : BeaconFields) (s : State) : State :=
  let f := s.fabricWanted
  if f.root = b.fabricReeve then s else s.requestItem owner (.fabric { f with root := b.fabricReeve })

/-- The last fabric period heard, on any port, is kept; the fabric reeve has its own (R449, R511, R516). -/
def State.keepPeriod (b : BeaconFields) (s : State) : State :=
  let f := s.fabricWanted
  if s.fab.role = 2 ∨ b.fabPeriod = 0 ∨ f.fabPeriod = b.fabPeriod.toNat then s
  else s.requestItem owner (.fabric { f with fabPeriod := b.fabPeriod.toNat })

/-- Time and phase of a beacon the node may follow: with fabric time it is followed, without it following ends (R209, R521 to R528). -/
def State.followBeacon (may newSource : Bool) (b : BeaconFields) (s : State) : State :=
  let s := if may then s.followTime b else s.stopFollowing
  s.takePhase (b.phaseValid && b.timeValid) newSource (Tb.ofWord b.phaseEdge.toNat) b.phasePeriod.toNat

/-- The holder of a SEGMENT role hears its successor: the handover is complete; it becomes a worker and sends SWAP_DONE in
this cycle and the next two (R535, R538). The change is the origin of the successor's first beacon (R445, R515). -/
def State.completeHandover (x : Handover) (b : BeaconFields) (s : State) : State :=
  let change := Tb.ofTicks (s.clock.tb.ticks - 1120 - s.fab.delay)
  let s := ({ s with fab := { s.fab with handover := none } } : State).changeRole 0 2 b.cycle
  ({ s with fab := { s.fab with doneSent := some (x.role, x.peer, x.stamp), doneLeft := 3 } } : State).finishSwap x.role x.peer x.stamp change

/-- A beacon that hands the SEGMENT role to this node makes it beacon from the next cycle (R538). -/
def State.takeHandover (h : Heard) (b : BeaconFields) (s : State) : State :=
  if b.grantSlot = 0xfe ∧ b.grantId = s.life.uid ∧ s.fab.role = 0 then
    let stamp := match s.fab.handover, s.fab.swap with
      | some x, _ => x.stamp
      | none, some w => stamp48 w.stamp
      | none, none => 0
    { s with fab := { s.fab with handover := some { role := .segment, peer := h.src, stamp := stamp, holder := false, phase := 1, at_ := s.clock.tb } } }
  else s

/-- What a reeve makes of another beacon of its own segment: the successor's completes a handover, the old holder's return or a
lower REEVE_ID makes it a worker; the flag says that the beacon is then followed as a worker's (R533, R538). -/
def State.meetBeacon (h : Heard) (b : BeaconFields) (s : State) : Bool × State :=
  let yield : Nat → Bool × State := fun cause =>
    (true, ({ s with fab := { s.fab with handover := none, following := false } } : State).changeRole 0 cause b.cycle)
  let duel : Bool × State := if b.reeveId.toNat < s.life.uid.toNat then yield 3 else (false, s)
  if s.fab.role = 0 then (true, s)
  else
    match s.fab.handover with
    | some x =>
      if x.role = .segment ∧ x.peer = h.src then
        (if x.holder then (if x.phase = 1 then (true, s.completeHandover x b) else duel)
         else if 2 ≤ x.phase then yield 4 else duel)
      else duel
    | none => duel

/-- A beacon of the node's own segment on its home port (R475, R480 to R483, R513, R521, R527 to R531). -/
def State.homeBeacon (p : Port) (h : Heard) (b : BeaconFields) (s : State) : State :=
  match s.meetBeacon h b with
  | (false, s) => s
  | (true, s) =>
    let newSource := (s.port p).last.any (fun o => movedSource o b)
    let s := (s.keepBeacon p h b).keepRoot b
    let s : State := { s with fab := { s.fab with candidate := false, presumed := false, hops := b.hops } }
    (((s.followBeacon b.timeValid newSource b).takeHandover h b)).repeatSwap

/-- A beacon on another port: a segment reeve in bridge mode follows it where R521 lets it (R478, R516, R521, R525). -/
def State.farBeacon (p : Port) (h : Heard) (b : BeaconFields) (s : State) : State :=
  let newSource := (s.port p).last.any (fun o => movedSource o b)
  let s := s.keepBeacon p h b
  if s.fab.role = 1 ∧ s.bridging = true ∧ p = s.farPort then
    let may := b.timeValid && decide (b.hops.toNat ≤ 13)
    let old := s.fab.hops
    let s := if may then ({ s with fab := { s.fab with hops := b.hops + 1 } } : State) else s
    let s := s.followBeacon may newSource b
    if s.fab.following then s else { s with fab := { s.fab with hops := old } }
  else s

/-- A beacon of a port's segment that verifies (R473 to R483, R492 to R497, R513 to R534, R538). -/
def State.takeBeacon (h : Heard) (b : BeaconFields) (s : State) : State :=
  let p := h.port
  let s := ((s.modPort p (fun l => l.countMode b.segment b.reeveId)).rxOk p).decidePortMode
  if b.reeveId = s.life.uid then s
  else
    let s := ((((s.findHome p b).noteUid h.src b.reeveId).takeGrant b).judgeMismatch p b).keepPeriod b
    if p = s.homePort ∧ (s.unaddressed = true ∨ b.segment = s.ownSegment) then s.homeBeacon p h b
    else if s.power.portMode = .tap then s.modPort p (fun l => { l with heardBeacon := true })
    else s.farBeacon p h b

/-- BEACON: a well-formed one to its own segment, whose CMAC verifies where the node has a line key (R472, R473, R492, R508). -/
def execBeacon (f : LineRx) (s : State) : Host.Outcome State Fault Refusal :=
  .next (
    if !s.portLive f.port then s
    else
      match f.heard with
      | none => s.countPort f.port 2
      | some h =>
        let b := BeaconFields.decode h.payload
        if h.kind ≠ 2 ∨ h.dst ≠ segmentAll b.segment then s else State.keyed (fun h s => s.takeBeacon h b) h s)

/-! ### Missing beacons and elections (R475, R525, R530 to R534, R538) -/

/-- A holder whose successor did not beacon takes the role back (R538). -/
def State.resumeRole (p : Port) (s : State) : State :=
  match s.fab.handover with
  | some x =>
    if x.holder && x.phase == 1 && x.role == .segment && p == s.homePort then
      let old := s.fab.role
      let c := (s.port p).cycle
      let s : State := { s with fab := { s.fab with handover := none, cycle := c + 1 } }
      (s.changeRole 0 2 c).changeRole old 4 c
    else s
  | none => s

/-- The third beacon missed on a port that carries the node's time or phase: the phase runs free, following ends (R209, R525). -/
def State.loseTime (p : Port) (s : State) : State :=
  if (s.port p).missed = 3 ∧ s.followedPort = some p then (s.takePhase false false Tb.zero 0).stopFollowing else s

/-- BEACON_MISSED: the cycle goes on without its beacon (R475, R509). -/
def execBeaconMissed (port : Port) (s : State) : Host.Outcome State Fault Refusal :=
  .next (
    if !s.portLive port || (s.port port).last.isNone then s
    else
      let s := (s.countPort port 9).modPort port (fun l =>
        { l with missed := l.missed + 1, cycle := l.cycle + 1, slotFrom := l.slotNext, slotsSent := 0,
                 conflictRun := if l.conflictNow then l.conflictRun else 0, conflictNow := false })
      ((s.resumeRole port).loseTime port).repeatSwap)

/-- What makes the node eligible beside its rank: a permanent address, COMMISSION or FIELD, its home port ON (R529). -/
def State.eligible (s : State) : Bool :=
  !s.unaddressed && !s.fab.provisional && (s.life.shadow == .commission || s.life.shadow == .field) && s.portLive s.homePort

/-- The node is a candidate: eligible with a rank of at least 1 (R529). -/
def State.isCandidate (s : State) : Bool := s.fab.rank != 0 && s.eligible

/-- REEVE_PRESUMED_LOST: the owner is told which reeve was lost, and a candidate starts its delay; a node that has heard none
presumes that there is none (R530 to R532, R542). -/
def execReevePresumedLost (port : Port) (s : State) : Host.Outcome State Fault Refusal :=
  .next (
    let l := s.port port
    let home := port == s.homePort
    if !s.portLive port || (home && (s.fab.role != 0 || s.fab.presumed)) then s
    else
      let begin_ : State → State := fun s =>
        if home then { s with fab := { s.fab with presumed := true, candidate := s.isCandidate } } else s
      match l.last with
      | none => if l.heardBeacon then s else begin_ s
      | some b =>
        if l.missed < 3 then s
        else
          (begin_ s).ownerEvent 0x004A (leBytes 2 (portNo port) ++ leBytes 2 l.lastSrc.toNat ++ leBytes 4 b.cycle.toNat))

/-- CYCLE of an elected reeve's first beacon: the last one held plus the whole or part cycles since its origin; 0 where none was held
(R531). -/
def State.electedCycle (s : State) : W32 :=
  let l := s.port s.homePort
  match l.last with
  | some b =>
    let passed := s.clock.tb.ticks + 1120 - l.rxTb.ticks
    b.cycle + BitVec.ofNat 32 ((passed + 3999999) / 4000000)
  | none => 0

/-- ELECTION_DELAY_EXPIRED: the candidate sends its first beacon as reeve, or its beacon collides and a new delay is drawn; a rank set since
the election began counts from the next one (R444, R531 to R534). -/
def execElectionDelayExpired (collided : Bool) (s : State) : Host.Outcome State Fault Refusal :=
  .next (
    if !s.fab.candidate || !s.eligible || s.fab.role != 0 then s
    else if collided then (s.countPort s.homePort 8).drawn
    else (s.becomeReeve 1 s.electedCycle).emitBeacon true)

/-! ### Ranging (R520) -/

/-- The 48 bits of bytes 2 to 7 of a fabric service frame (R517). -/
def Heard.value (h : Heard) : BitVec 48 := BitVec.ofNat 48 (field h.payload 2 6)

/-- A fabric service frame addressed to this node, in contention or as management traffic that has reached it; a node without a line key
answers only what is sent without one (R508, R517, R519). -/
def State.service (f : LineRx) (filter : Nat) (act : Heard → State → State) (s : State) : State :=
  s.heardOn f (fun h => h.kind == 5 && h.filter.toNat == filter) (State.keyed (fun h s =>
    match s.receiveHop h none (.discover h.filter (BitVec.ofNat 56 (field h.payload 1 7))) with
    | (true, s) => if s.macOk h then act h s else s
    | (false, s) => s))

/-- ROLE of a swap frame (R517). -/
def Heard.role (h : Heard) : Option SwapRole :=
  if byteAt h.payload 1 = 1 then some .segment else if byteAt h.payload 1 = 2 then some .fabric else none

/-- A swap frame with a ROLE the spec gives (R517). -/
def State.swapService (f : LineRx) (filter : Nat) (act : Heard → SwapRole → BitVec 48 → State → State) (s : State) : State :=
  s.service f filter (fun h s =>
    match h.role with
    | some role => act h role h.value s
    | none => s)

/-- RANGE_REQ: a segment reeve echoes the round trip it measured, in contention on the same port (R511, R520). -/
def execRangeReq (f : LineRx) (roundTrip : Nat) (s : State) : Host.Outcome State Fault Refusal :=
  .next (s.service f 2 (fun h s =>
    if s.fab.role != 0 && h.port == s.homePort then s.contendService h.port h.src 3 0 (BitVec.ofNat 48 roundTrip) else s))

/-- RANGE_ECHO: the cable delay is half the round trip, in whole ticks (R520; notes/assumptions/27.md). -/
def execRangeEcho (f : LineRx) (s : State) : Host.Outcome State Fault Refusal :=
  .next (s.service f 3 (fun h s =>
    if s.followedPort = some h.port ∧ (s.port h.port).lastSrc = h.src then
      { s with fab := { s.fab with delay := h.value.toNat / 2, ranged := true } }
    else s))

/-- RANGE_REQ_TIMER: the node ranges against the reeve it follows, once it has heard three of its beacons (R520). -/
def execRangeReqTimer (s : State) : Host.Outcome State Fault Refusal :=
  .next (
    match s.followedPort with
    | some p =>
      if s.portLive p && !s.unaddressed && decide (3 ≤ (s.port p).reeveBeacons) && s.noService 2 then
        s.contendService p (s.port p).lastSrc 2 0 0
      else s
    | none => s)

/-! ### ROLE_SWAP between nodes (R445, R446, R535 to R539) -/

/-- The node would accept a role: its rank is at least 1, and the fabric role goes to a segment reeve only (R445, R536). -/
def State.wouldAccept (s : State) (role : SwapRole) : Bool :=
  s.fab.rank != 0 && !s.fab.provisional &&
  (match role with
   | .segment => true
   | .fabric => s.fab.role == 1)

/-- The node without the role answers a request: SWAP_READY where it would accept, and it then expects the handover, else SWAP_NOT
(R535). -/
def State.answerSwap (role : SwapRole) (peer : BitVec 12) (stamp : BitVec 48) (s : State) : State :=
  if s.wouldAccept role then
    let x : Handover := { role := role, peer := peer, stamp := stamp, holder := false, phase := 0, at_ := s.clock.tb }
    ({ s with fab := { s.fab with handover := some x } } : State).sendService peer 5 (swapCode role) stamp
  else s.sendService peer 6 (swapCode role) stamp

/-- A request that stands reaches the node that serves it: the holder hands over, another answers (R535). -/
def State.serveSwap (role : SwapRole) (peer : BitVec 12) (stamp : BitVec 48) (s : State) : State :=
  if s.holdsRole role then (if s.handingOver then s else s.startHandover role peer stamp) else s.answerSwap role peer stamp

/-- The node's own request stands against a crossing one: the earlier stamp, on equal stamps the lower unique ID (R446). -/
def State.ownStands (s : State) (w : SwapPending) (theirs : Tb) : Bool :=
  stampBefore w.stamp theirs || (w.stamp == theirs && decide (s.life.uid.toNat < (s.uidOf w.peer).toNat))

/-- A request that crosses the node's own: both ends decide by the same stamps (R446, R537). -/
def State.crossSwap (w : SwapPending) (stamp : BitVec 48) (s : State) : State :=
  let theirs := rebuildStamp s.clock.tb stamp
  let stands := s.ownStands w theirs
  let s : State := { s.drawn with fab := { s.fab with swap := some { w with crossed := some theirs, stands := stands, answered := true } } }
  if stands then (if s.holdsRole w.role && !s.handingOver then s.startHandover w.role w.peer (stamp48 w.stamp) else s)
  else s.serveSwap w.role w.peer stamp

/-- A request within 1.0 s of the one whose SWAP_DONE this node has sent to the same peer (R518, R537). -/
def State.doneMatches (s : State) (role : SwapRole) (peer : BitVec 12) (stamp : BitVec 48) : Option (BitVec 48) :=
  match s.fab.doneSent with
  | some (r, q, x) =>
    let d := (rebuildStamp s.clock.tb stamp).diff (rebuildStamp s.clock.tb x)
    if r = role ∧ q = peer ∧ d.natAbs ≤ ticksPerSec then some x else none
  | none => none

/-- SWAP_REQ (R535 to R537). -/
def execSwapReq (f : LineRx) (s : State) : Host.Outcome State Fault Refusal :=
  .next (s.swapService f 4 (fun h role stamp s =>
    match s.doneMatches role h.src stamp with
    | some x => s.sendService h.src 7 (swapCode role) x
    | none =>
      match s.fab.swap with
      | some w => if w.role = role ∧ w.peer = h.src then s.crossSwap w stamp else s.serveSwap role h.src stamp
      | none => s.serveSwap role h.src stamp))

/-- The node's own request that a peer's answer names (R517, R535). -/
def State.swapNamed (s : State) (h : Heard) (role : SwapRole) (stamp : BitVec 48) : Option SwapPending :=
  s.fab.swap.filter (fun w => decide (w.role = role) && w.peer == h.src && stamp48 w.stamp == stamp)

/-- The request is repeated no more (R535). -/
def State.swapAnswered (s : State) : State :=
  { s with fab := { s.fab with swap := s.fab.swap.map (fun w => { w with answered := true }) } }

/-- The node's own ROLE_SWAP ends in NOT_PERMITTED (R445, R535). -/
def State.swapRefused (s : State) : State :=
  ({ s with fab := { s.fab with swap := none } } : State).readyHeld owner .swapOutcome
    { status := .notPermitted, effectFrame := none, results := [] }

/-- SWAP_READY: the holder that asked hands over; where neither end holds the role, the command is answered NOT_PERMITTED (R445,
R535). -/
def execSwapReady (f : LineRx) (s : State) : Host.Outcome State Fault Refusal :=
  .next (s.swapService f 5 (fun h role stamp s =>
    match s.swapNamed h role stamp with
    | some w =>
      if s.handingOver then s.swapAnswered
      else if s.holdsRole role then s.swapAnswered.startHandover role w.peer stamp
      else s.swapRefused
    | none => s))

/-- SWAP_NOT: the command is answered NOT_PERMITTED (R535). -/
def execSwapNot (f : LineRx) (s : State) : Host.Outcome State Fault Refusal :=
  .next (s.swapService f 6 (fun h role stamp s => if (s.swapNamed h role stamp).isSome then s.swapRefused else s))

/-- The time base at the change as the receiver of a role knows it: its first beacon, or for the fabric role the end of the holder's
SWAP_DONE (R445, R538, R539; notes/assumptions/28.md). -/
def State.changeTime (s : State) : Tb :=
  match s.fab.handover with
  | some x => if x.role = .segment ∧ x.holder = false then x.at_ else s.clock.tb
  | none => s.clock.tb

/-- SWAP_DONE: the outcome of the node's own request is known, and the receiver of the fabric role takes it with its next beacon (R445,
R535, R539). -/
def execSwapDone (f : LineRx) (s : State) : Host.Outcome State Fault Refusal :=
  .next (s.swapService f 7 (fun h role stamp s =>
    let party := s.fab.swap.any (fun w => decide (w.role = role) && w.peer == h.src) ||
      s.fab.handover.any (fun x => decide (x.role = role) && x.peer == h.src && !x.holder)
    if !party then s
    else
      let change := s.changeTime
      let s := s.finishSwap role h.src stamp change
      match role with
      | .fabric =>
        if s.fab.role = 1 then
          { s with fab := { s.fab with handover := some { role := .fabric, peer := h.src, stamp := stamp, holder := false, phase := 1, at_ := s.clock.tb } } }
        else s
      | .segment => s))

/-- ROLE_SWAP_TIMEOUT: a request without an outcome 1.0 s after its stamp is answered TIMEOUT (R445, R535). -/
def execRoleSwapTimeout (s : State) : Host.Outcome State Fault Refusal :=
  .next (
    match s.fab.swap with
    | some w =>
      ({ s with fab := { s.fab with swap := none } } : State).readyHeld owner .swapOutcome
        { status := .timeout, effectFrame := none, results := w.stamp.bytes }
    | none => s)

end Sys2Proof.Machine
end

