-- ==== Sys2Proof/Machine/StartEv.lean ====
section
/-! DEFINITION. Line power, RESET_N and the start-up timeline: LINE_POWER_GOOD, LINE_POWER_LOST, POWER_DOWN_RESET,
PORT_PRESENCE_CHANGE, AON_READY, FIRMWARE_START, COMMANDS_ACCEPTED_START, DISCOVERY_WINDOW_END, VAUX_TRIP, VAUX_RETRY,
VIO_LOST, VIO_RESTORED, RESET_N_ASSERT, RESET_N_RELEASE (R57, R72, R77, R86, R96 to R100, R112, R366, R555, R567, R675). -/

namespace Sys2Proof.Machine

/-! ### Line power (R77, R96 to R98) -/

/-- LINE_POWER_GOOD: a port has held 18 V for 20 ms on a node that is down: the 5 V converter, AON, VAUX and the holdup charger
start, and the timeline of R100 begins (R77, R93, R100, R139). -/
def execLinePowerGood (s : State) : Host.Outcome State Fault Refusal :=
  .next (
    if s.power.lineGood || s.power.shedding || !(s.power.presentA || s.power.presentB) then s
    else
      let s1 := s.restart 1
      { s1 with power := { s1.power with lineGood := true, resetLow := s.power.resetLow, aonReady := false, vauxOn := true,
                                         vauxFaultSent := false, vioLost := false },
                holdup := { s1.holdup with firstMeasure := true },
                clock := { s1.clock with running := false } })

/-- LINE_POWER_LOST, neither port at 16 V: every switched domain except NVM drops to reset, the transceivers are silent, VAUX is off; the page program
in progress goes on (R96, R97, R557). -/
def execLinePowerLost (s : State) : Host.Outcome State Fault Refusal :=
  .next (
    if !s.power.lineGood || s.power.feedA || s.power.feedB then s
    else
      let nvm := domAt s.power.doms 11
      { s with
        power := { s.power with lineGood := false, shedding := true, vauxOn := false, seqRunning := false, accepting := false, entry := none,
                                pendingEntry := none, ret := none,
                                doms := (Vector.replicate 12 DomState.off).mapIdx (fun i d => if i = 10 then nvm else d) },
        wheel := { s.wheel with turning := false, slot := none, fork := none, enclave := none, pauses := 0, stopRequested := false },
        lands := { s.lands with strobe := false },
        arr := { s.arr with jobs := s.activeJob.toList } })

/-- POWER_DOWN_RESET: once the write in progress has ended, or at once, the node is down and the time base stops (R98, R112). -/
def execPowerDownReset (s : State) : Host.Outcome State Fault Refusal :=
  .next (
    if !s.power.shedding then s
    else
      let s1 := s.restart 1
      { s1 with power := { s1.power with lineGood := false, shedding := false, resetLow := s.power.resetLow, aonReady := false, vauxOn := false,
                                         vauxFaultSent := false, vioLost := false, doms := Vector.replicate 12 .off },
                clock := { s1.clock with running := false, pllOn := false },
                holdup := { s1.holdup with charger := false, deadlineOpen := false } })

/-- PORT_PRESENCE_CHANGE: a port is present from 18 V on and holds line power up from 16 V on; beyond the operating ratings the spec
gives no function (R69, R71, R77,
R697). -/
def execPortPresenceChange (port : Port) (millivolts : Nat) (s : State) : Host.Outcome State Fault Refusal :=
  if 56000 < millivolts then .fault .outsideRatings
  else
    let here := decide (18000 ≤ millivolts)
    .next ({ s with power := match port with
      | .a => { s.power with presentA := here, feedA := decide (16000 ≤ millivolts) }
      | .b => { s.power with presentB := here, feedB := decide (16000 ≤ millivolts) } } : State).decidePortMode

/-! ### AON and the straps (R57, R72, R112) -/

/-- The straps are sampled; while VIO is absent COMMISSION_N reads high and the ADR lands low (R57, R58, R72). -/
def State.sampleStraps (straps : Straps) (vioPresent : Bool) (s : State) : State :=
  let y : Straps := if vioPresent then straps else { commissionLow := false, adr0High := false, adr1High := false }
  { s with lands := { s.lands with straps := y, commissionStays := y.commissionLow } }

/-- VIO is declared lost, which ends a host transfer, silences the pixel port and holds the test access port in reset, or restored, and the
owner is told; the lands work again from the next service round on (R45, R72, R646). -/
def State.setVio (lost : Bool) (s : State) : State :=
  let p := s.power
  if lost then
    if p.vioLost && !p.vioWaits then s
    else
      (({ s with power := { p with vioLost := true, vioWaits := false }, jtag := Jtag.inReset s.jtag } : State).silencePix.endXfer).patientEvent
        0x000C []
  else if !p.vioLost || p.vioWaits then s
  else ({ s with power := { p with vioWaits := true } } : State).patientEvent 0x000D []

/-- AON_READY: the time base starts from 0, the straps are sampled, and a VIO that is absent is declared lost (R57, R72, R100,
R112). -/
def execAonReady (straps : Straps) (vioPresent : Bool) (s : State) : Host.Outcome State Fault Refusal :=
  .next (
    if s.power.aonReady || !s.power.lineGood then s
    else
      (({ s with power := { s.power with aonReady := true },
                 clock := { s.clock with tb := Tb.zero, elapsed := 0, running := !s.power.resetLow } } : State).sampleStraps straps vioPresent).setVio
        (!vioPresent))

/-- RESET_N_ASSERT: the node is reset and held there, its time base stopped; the page program in progress completes (R46, R112,
R558, R648). While VIO is lost the land's input is ignored: a reset takes effect only once VIO is restored and the land is seen low
again (R72; chapter 21, at the edges). -/
def execResetNAssert (s : State) : Host.Outcome State Fault Refusal :=
  .next (
    if s.power.resetLow || s.jtag.ir == .extest || (s.power.aonReady && s.power.vioLost) then s
    else if !s.power.lineGood || !s.power.aonReady then { s with power := { s.power with resetLow := true } }
    else
      let s := s.restart 2
      { s with power := { s.power with resetLow := true }, clock := { s.clock with running := false } })

/-- RESET_N_RELEASE: the node restarts on the timeline of R100, with the time base from 0 and the straps sampled (R57, R112,
R648). -/
def execResetNRelease (straps : Straps) (vioPresent : Bool) (s : State) : Host.Outcome State Fault Refusal :=
  .next (
    if !s.power.resetLow then s
    else
      let s := { s with power := { s.power with resetLow := false } }
      if !s.power.lineGood || !s.power.aonReady then s
      else
        (({ s with clock := { s.clock with tb := Tb.zero, elapsed := 0, running := true }, restartCause := 2 } : State).sampleStraps
          straps vioPresent).setVio (!vioPresent))

/-! ### VAUX and VIO (R72, R86) -/

/-- VAUX_TRIP: VAUX turns off; EV_VAUX_FAULT is sent at the first trip only (R86). -/
def execVauxTrip (s : State) : Host.Outcome State Fault Refusal :=
  .next (
    if !s.power.vauxOn || !s.power.lineGood then s
    else
      let s1 := { s with power := { s.power with vauxOn := false, vauxFaultSent := true } }
      if s.power.vauxFaultSent then s1 else s1.supplyEvent 0x000E [])

/-- VAUX_RETRY: VAUX holds without limiting and is reported restored, or trips again in silence (R86). -/
def execVauxRetry (limiting : Bool) (s : State) : Host.Outcome State Fault Refusal :=
  .next (
    if s.power.vauxOn || !s.power.lineGood || limiting then s
    else
      let s1 := { s with power := { s.power with vauxOn := true, vauxFaultSent := false } }
      if s.power.vauxFaultSent then s1.supplyEvent 0x000F [] else s1)

/-- The VIO monitor runs: AON is ready and the node is neither held in reset nor shedding (R72, R96). -/
def State.vioWatched (s : State) : Bool := s.power.aonReady && s.power.lineGood && !s.power.resetLow

/-- VIO_LOST (R72). -/
def execVioLost (s : State) : Host.Outcome State Fault Refusal := .next (if s.vioWatched then s.setVio true else s)

/-- VIO_RESTORED: the straps are not sampled again (R72). -/
def execVioRestored (s : State) : Host.Outcome State Fault Refusal := .next (if s.vioWatched then s.setVio false else s)

/-! ### The start of the firmware (R366, R555, R567, R598 to R607, R617, R675, R676) -/

/-- An image is accepted: its marker valid with OPEN = 0 and SIG = 1, its digest and its signature (R567). -/
def State.imageOk (s : State) (f : StartFindings) (i : Fin 2) : Bool :=
  let r := s.arr.region i.val
  r.valid && !r.isOpen && r.sig == 1 && (if i = 0 then f.digestOk0 && f.sigOk0 else f.digestOk1 && f.sigOk1)

/-- Why the selected image failed: 1 NO_COMMIT, 2 SIG, 3 DIGEST, 4 SIGNATURE (R567, R572). -/
def State.imageFault (s : State) (f : StartFindings) (i : Fin 2) : Nat :=
  let r := s.arr.region i.val
  if !r.valid || r.isOpen then 1 else if r.sig ≠ 1 then 2 else if (if i = 0 then f.digestOk0 else f.digestOk1) = false then 3 else 4

/-- A polder as the array holds it at a start-up: ACTIVE resumes at its reservations, a dissolution whose mark is committed has its
record still to come, and every other polder is absent (R366, R672, R676). -/
def resumed (first : W32) (period : Nat) (x : Option StoredPolder) (n : Option StoredSeq) : Polder :=
  match x with
  | none => Polder.none
  | some y =>
    let v := n.getD { cR := 65536, sR := 65536, path := none }
    let q : Polder := { Polder.none with state := y.state, key := y.key, charter := y.charter, nextAdmit := v.cR, cR := v.cR, sR := v.sR,
                                         ersEq := v.sR, path := v.path, expo := Expo.defaults period }
    match y.state, y.mark with
    | .active, _ => q
    | .dissolving, some (reason, _, lastFrame) =>
      { q with gone := some { reason := reason, boundary := first, goneCount := 0, lastFrame := lastFrame, passed := true, issued := false,
                              tb := Tb.zero } }
    | _, _ => Polder.none

/-- The volatile part of the node takes what the array holds; what happened before carries the last frame number before the first of this
run (R191, R260, R271, R273, R296, R442 to R444, R464, R555, R672, R673). -/
def State.loadItems (s : State) : State :=
  let w := s.arr.wheel
  let f := s.arr.fabric
  let first : W32 := BitVec.ofNat 32 w.fR
  let t := s.arr.trimTab.getD { trims := List.replicate 1632 { offset := 0, gain := 0 }, slopeA := 0, slopeB := 0 }
  { s with
    wheel := { s.wheel with period := w.period, fR := w.fR, nextFrame := first, firstFrame := first },
    cols := { s.cols.load s.arr.colState with rampInterval := w.rampInterval, rampSlot := w.rampSlot, trims := t.trims, slopeA := t.slopeA,
                                              slopeB := t.slopeB },
    arr := { s.arr with fabric := { f with addr := f.addrNext, key := f.keyNext, keyId := f.keyIdNext } },
    fab := { s.fab with addr := f.addrNext, key := f.keyNext, keyId := f.keyIdNext, rank := f.rank },
    dali := { s.dali with occArea := s.arr.dali.occArea, lightArea := s.arr.dali.lightArea },
    early := s.early.map (fun x => { x with frame := first - 1 }),
    pols := Vector.ofFn (fun p => resumed first w.period s.arr.stored[p] s.arr.seqs[p]) }

/-- In RETURN and SCRAPPED the FABRIC item is checked before the sequencer runs: CLEARED is set where every copy slot is zero, else once the
slots have been zeroed, for which an array write waits while the holdup state is HOLDUP_LOW; the item loaded is the cleared one either way
(R95, R605, R607; notes/assumptions/72.md). -/
def State.clearFabric (s : State) : State :=
  if s.life.shadow = .ret ∨ s.life.shadow = .scrapped then
    if s.arr.copies.any (fun c => c.item == 0x10) && s.holdup.low then
      { s with arr := { s.arr with fabric := FabricItem.factory, fabricWaits := true } }
    else s.zeroFabric
  else s

/-- The start-up test's result: the unusable map is the failed one (R617, R623). -/
def State.startTest (f : StartFindings) (s : State) : State :=
  if s.life.shadow = .scrapped then s
  else
    let failed := f.failedBlocks &&& 0x0fff
    let s := { s with bist := { s.bist with unusable := failed, lastBlocks := 0x0fff, lastFailed := failed, lastAlgo := 0 } }
    if failed = 0 then s else s.patientEvent 0x0045 (leBytes 2 0 ++ leBytes 2 0x0fff ++ leBytes 2 failed.toNat ++ leBytes 2 0)

/-- TCM and the ENC blocks must be usable for the sequencer to start (R623). -/
def State.canStart (s : State) : Bool := s.life.shadow != .scrapped && s.bist.unusable &&& 0x00c1 == 0

/-- EV_SEQ_RESUMED, then EV_RESTART, to every ACTIVE polder (R366, R675, R679). -/
def State.announceRestart (s : State) : State :=
  (List.finRange 8).foldl (fun s p =>
    if (s.pol p).state = .active then
      ((s.reserveSeq p).event p 0x0043 (leBytes 8 (s.pol p).nextAdmit)).event p 0x0051
        (leBytes 1 s.restartCause ++ leBytes 3 0 ++ leBytes 4 s.wheel.firstFrame.toNat)
    else s) s

/-- What was cut short by the restart: a CHARTERED polder is discarded and reported, a committed dissolution mark gives its
DISSOLVED record (R676). -/
def State.settleStored (s : State) : State :=
  (List.finRange 8).foldl (fun s p =>
    match (s.arr.stored[p]).map StoredPolder.state with
    | some PolState.chartered => (s.requestItem p (.stored p none)).ownerEvent 0x0041 (leBytes 1 p.val ++ leBytes 1 3 ++ leBytes 2 0)
    | some PolState.dissolving =>
      (s.modPol p (fun q => { q with gone := q.gone.map (fun g => { g with tb := s.clock.tb }) })).reserveSeq p |>.issueDissolved p
    | _ => s) s

/-- The START entry of the log: the running image, the cause, 3 for a self-reset, and the lifecycle state (R569, R671). -/
def State.logStart (s : State) : State :=
  s.logEntry s.clock.tb s.lastFrame 0xFFFE (leBytes 1 s.arr.running.val ++ leBytes 1 (min 3 s.restartCause) ++ leBytes 1 s.life.shadow.code)

/-- The sequencer runs from an image, its body loaded into TCM, and listens on both line ports (R273, R476, R506, R567, R569, R608, R673,
R675, R676). -/
def State.runImage (f : StartFindings) (i : Fin 2) (s : State) : State :=
  let selected := s.arr.bootImage
  let noTrims := s.arr.trimTab.isNone
  let noPair := s.life.shadow == .manufacture && !s.arr.mfg.hasKeyPair
  let s := { s with power := { s.power with seqRunning := true },
                    jtag := { s.jtag with tcm := ({ s.arr with running := i } : ArrayS).tcmImage },
                    arr := { s.arr with running := i, mfg := { s.arr.mfg with hasKeyPair := s.arr.mfg.hasKeyPair || noPair } } }
  let s := if noPair then s.requestItem owner (.mfg s.arr.mfg) else s
  let s := ((s.logStart.announceRestart.settleStored).drawBackoff .a).drawBackoff .b
  let s := if noTrims then s.patientEvent 0x0009 [] else s
  let s := if i = selected then s
           else s.patientEvent 0x004C (leBytes 1 selected.val ++ leBytes 1 i.val ++ leBytes 1 (s.imageFault f selected) ++ leBytes 1 0)
  s.flushEarly.reserveFrames

/-- FIRMWARE_START: the lifecycle state, the start-up test, the items, then the selected image or else the other one; without an
acceptable image, with TCM or an ENC block unusable, or in SCRAPPED, the sequencer does not start (R555, R567, R597, R598,
R607, R617, R623). -/
def execFirmwareStart (f : StartFindings) (s : State) : Host.Outcome State Fault Refusal :=
  .next (
    if s.power.seqRunning || !s.clock.running || !s.power.lineGood || s.power.resetLow then s
    else
      let s : State := { s with arr := s.arr.load }
      let s := ({ s with life := { s.life with shadow := s.lcDerived } } : State).clearFabric.loadItems.startTest f
      let selected := s.arr.bootImage
      let other : Fin 2 := 1 - selected
      if !s.canStart then s
      else if s.imageOk f selected then s.runImage f selected
      else if s.imageOk f other then s.runImage f other
      else s)

/-- COMMANDS_ACCEPTED_START (R100, R350). -/
def execCommandsAcceptedStart (s : State) : Host.Outcome State Fault Refusal :=
  .next { s with power := { s.power with accepting := s.power.accepting || s.power.seqRunning } }

/-- A contention that has not begun starts at W = 8 (R476, R506). -/
def LinePort.lateWindow (l : LinePort) : LinePort := if l.attempts = 0 then { l with window := 8 } else l

/-- DISCOVERY_WINDOW_END: contention starts at W = 8 from now on (R100, R506). -/
def execDiscoveryWindowEnd (s : State) : Host.Outcome State Fault Refusal :=
  .next (
    if s.power.discoveryOver || !s.power.aonReady then s
    else { s with power := { s.power with discoveryOver := true }, lineA := s.lineA.lateWindow, lineB := s.lineB.lateWindow })

end Sys2Proof.Machine
end

