-- ==== Sys2Proof/Machine/Charge.lean ====
section
/-! DEFINITION. The charges of the thermal model (R578, R579, R581, R583). Monitors are numbered 0 for AON and n for domain n. -/

namespace Sys2Proof.Machine

/-- The state of monitor i's domain; AON is always ON. -/
def State.monState (s : State) (i : Nat) : DomState := if i = 0 then .on else s.power.doms.toList.getD (i - 1) .off

/-- The operating point of monitor i's domain: PIPE, STAT, SEQ and ENC have one, the others stand at P0 (R165). -/
def State.monPoint (s : State) (i : Nat) : Nat := if 5 ≤ i ∧ i ≤ 8 then (s.power.points.toList.getD (i - 5) 0).val else 0

/-- Q / T of the wheel slot in progress: its holder's read quota, whether or not the slot reads; 0 where nobody holds it and in a
pause (R579). -/
def State.readShare (s : State) : Frac :=
  match s.wheel.slot with
  | some x =>
    match s.wheel.holders.toList.getD (slotIndex x.frame) none with
    | some p => if p = owner then Frac.ofNat 1 else Frac.norm { num := (s.pol p).charter.readQuota, den := s.wheel.period }
    | none => Frac.ofNat 0
  | none => Frac.ofNat 0

/-- Idle and read charge of a domain at P0 in mW (R578). -/
def chargeP0 (i : Nat) : Nat × Nat :=
  match i with
  | 0 => (5, 5)
  | 1 => (20, 100)
  | 2 => (25, 170)
  | 3 => (25, 170)
  | 4 => (10, 60)
  | 5 => (120, 120)
  | 6 => (140, 140)
  | 7 => (100, 100)
  | 8 => (50, 50)
  | 9 => (40, 40)
  | 10 => (40, 40)
  | 11 => (60, 60)
  | _ => (30, 30)

/-- The charge the table gives a domain in its state and at its point, in mW (R578, R579). -/
def State.baseCharge (s : State) (i : Nat) : Frac :=
  let c := chargeP0 i
  let base := (Frac.ofNat c.1).add ((Frac.ofNat (c.2 - c.1)).mul s.readShare)
  if s.monState i ≠ .on then Frac.ofNat 0
  else if s.monPoint i = 1 then base.mul (Frac.norm { num := 55, den := 100 })
  else if s.monPoint i = 2 then base.mul (Frac.norm { num := 35, den := 100 })
  else base

/-- The charge of a monitor's domain in mW: the table's, or the raised one of its state and point where that is greater (R578,
R579, R581). -/
def State.charge (s : State) (i : Nat) : Frac :=
  match s.therm.raised.find? (fun r => r.1 = i && r.2.1 = (s.monState i).code && r.2.2.1 = s.monPoint i) with
  | some r => Frac.max (s.baseCharge i) (Frac.ofNat r.2.2.2)
  | none => s.baseCharge i

/-- The thermal model after n ticks: each charge in force, weighted by the ticks that passed under it (R579, R583). -/
def State.meterCharges (n : Nat) (s : State) : Thermal :=
  { s.therm with chargeSum := s.therm.chargeSum.mapIdx (fun i a => a.add ((s.charge i).mul (Frac.ofNat n))),
                 chargeTicks := s.therm.chargeTicks + n }

/-- A charge averaged over the ticks since the last run (R583); the charge in force where none passed. -/
def State.meanCharge (s : State) (i : Nat) : Frac :=
  if s.therm.chargeTicks = 0 then s.charge i
  else (s.therm.chargeSum.toList.getD i (Frac.ofNat 0)).div (Frac.ofNat s.therm.chargeTicks)

end Sys2Proof.Machine
end

