-- ==== Sys2Proof/Machine/ThermalEv.lean ====
section
/-! DEFINITION. The thermal model and the throttle's rows: THERMAL_MODEL_RUN, THROTTLE_DECISION_STOPPED, THROTTLE_PAUSE_END
(R576 to R592). Monitors are numbered 0 for AON and n for domain n. -/

namespace Sys2Proof.Machine

/-- The rail voltage of a monitor in mV (R165, R576). -/
def State.monVoltage (s : State) (i : Nat) : Nat :=
  if 1 ≤ i ∧ i ≤ 4 then 1800 else if s.monPoint i = 1 then 800 else if s.monPoint i = 2 then 720 else 900

/-- The activity prediction of a monitor in 0.1 mA (R586). -/
def State.activity (s : State) (m : ThermReadings) (i : Nat) : Nat :=
  Config.activity i (s.monState i).code (s.monPoint i) (m.activeCycles.getD i 0)

/-- The nearest monitor along the ring in a direction that is not broken and predicts at least 1 mA (R586). -/
def State.ringNext (s : State) (m : ThermReadings) (i : Nat) (up : Bool) : Option Nat :=
  ((List.range' 1 12).map (fun d => if up then (i + d) % 13 else (i + 13 - d) % 13)).find?
    (fun j => !(s.therm.broken.toList.getD j false) && decide (10 ≤ s.activity m j))

/-- A monitor's ratio g (R586). -/
def State.ratio (s : State) (m : ThermReadings) (i : Nat) : Frac := (Frac.ofNat (m.currents.getD i 0)).div (Frac.ofNat (s.activity m i))

/-- The mean ratio of the two check neighbours; `none` where there are fewer (R586, R587). -/
def State.meanRatio (s : State) (m : ThermReadings) (i : Nat) : Option Frac :=
  match s.ringNext m i true, s.ringNext m i false with
  | some a, some b => if a = b then none else some (Frac.mean [s.ratio m a, s.ratio m b])
  | _, _ => none

/-- The replacement estimate of a broken monitor in 0.1 mA (R588). -/
def State.replacement (s : State) (m : ThermReadings) (i : Nat) : Frac :=
  match s.meanRatio m i with
  | some g => (Frac.ofNat (s.activity m i)).mul g
  | none => Frac.ofNat (s.activity m i)

/-- The current the node takes for a monitor (R580, R585, R588). -/
def State.currentOf (s : State) (m : ThermReadings) (i : Nat) : Frac :=
  if s.therm.broken.toList.getD i false then s.replacement m i else Frac.ofNat (m.currents.getD i 0)

/-- A current in 0.1 mA as power in mW at a monitor's rail (R576). -/
def State.powerOf (s : State) (i : Nat) (current : Frac) : Frac := current.mul (Frac.norm { num := s.monVoltage i, den := 10000 })

/-- A value in thousandths, rounded and capped to 16 bits. -/
def milli (g : Frac) : Nat := min 65535 ((Frac.ofNat 1000).mul g).round.toNat

/-- The check of one monitor: eight disagreeing runs in a row declare it broken (R587, R588, R596). -/
def State.checkMonitor (m : ThermReadings) (s : State) (i : Nat) : State :=
  if s.therm.broken.toList.getD i false || decide (s.activity m i < 10) then s
  else
    match s.meanRatio m i with
    | none => s
    | some gb =>
      let g := s.ratio m i
      let n := if ((Frac.norm { num := 1, den := 5 }).mul gb).lt ((g.sub gb).abs) then s.therm.disagree.toList.getD i 0 + 1 else 0
      let t := { s.therm with disagree := s.therm.disagree.mapIdx (fun j v => if j = i then n else v) }
      if n < 8 then { s with therm := t }
      else
        ({ s with therm := { t with broken := t.broken.mapIdx (fun j v => v || decide (j = i)) } } : State).ownerEvent 0x004F
          (leBytes 1 i ++ leBytes 1 0 ++ leBytes 2 (milli g) ++ leBytes 2 (milli gb))

/-- A power rounded up to 10 mW. -/
def upTo10 (p : Frac) : Nat := 10 * (((p.div (Frac.ofNat 10)).neg.floor).neg).toNat

/-- The overdraw check of one monitor's domain: eight evaluations in a row above its charge raise the charge (R581, R596). -/
def State.checkOverdraw (m : ThermReadings) (s : State) (i : Nat) : State :=
  let p := s.powerOf i (s.currentOf m i)
  let above := !(s.therm.broken.toList.getD i false) && (s.meanCharge i).lt p
  let n := if above then s.therm.overCount.toList.getD i 0 + 1 else 0
  let t := { s.therm with overCount := s.therm.overCount.mapIdx (fun j v => if j = i then (if n < 8 then n else 0) else v) }
  if n < 8 then { s with therm := t }
  else
    let key := ((s.monState i).code, s.monPoint i)
    ({ s with therm := { t with raised := (i, key.1, key.2, upTo10 p) :: t.raised.filter (fun r => !(r.1 = i && r.2.1 = key.1 && r.2.2.1 = key.2)) } } : State).ownerEvent
      0x0050 (leBytes 1 i ++ leBytes 1 key.1 ++ leBytes 2 (upTo10 p))

/-- The model's input of a domain in mW, averaged since the last run (R580, R583). -/
def State.input (s : State) (m : ThermReadings) (i : Nat) : Frac := Frac.max (s.meanCharge i) (s.powerOf i (s.currentOf m i))

/-- The input of a site in mW (R578). -/
def State.siteInput (s : State) (m : ThermReadings) (k : Nat) : Frac :=
  let half : Frac := { num := 1, den := 2 }
  match k with
  | 0 => s.input m 1
  | 1 => (s.input m 2).add (half.mul (s.input m 4))
  | 2 => (s.input m 3).add (half.mul (s.input m 4))
  | 3 => (s.input m 5).add (s.input m 6)
  | 4 => Frac.sum [s.input m 7, s.input m 8, s.input m 11]
  | _ => Frac.sum [s.input m 9, s.input m 10, s.input m 12, s.input m 0]

/-- The input of the module node in mW (R577, R578, R580). -/
def State.moduleInput (s : State) (m : ThermReadings) : Frac :=
  let inputs := Frac.sum ((List.range 13).map (s.input m))
  let powers := Frac.sum ((List.range 13).map (fun i => s.powerOf i (s.currentOf m i)))
  let loss := ((Frac.ofNat m.moduleDraw).sub powers).sub (Frac.norm { num := 33 * m.vauxCurrent, den := 100 })
  Frac.max ((Frac.ofNat 90).add (inputs.mul { num := 1, den := 4 })) loss

/-- A site's temperature after one run, in 0.01 °C (R582, R583). -/
def siteNext (t tm p : Frac) : Frac :=
  t.add (((p.div (Frac.ofNat 10)).sub ((t.sub tm).div (Frac.ofNat 8))).div (Frac.ofNat 4))

/-- The module's temperature after one run, in 0.01 °C (R582, R583). -/
def moduleNext (sites : List Frac) (tm p : Frac) : Frac :=
  let flow := Frac.sum (sites.map (fun t => (t.sub tm).div (Frac.ofNat 8)))
  tm.add ((((p.div (Frac.ofNat 10)).add flow).sub ((tm.sub (Frac.ofNat 8500)).div (Frac.ofNat 13))).div (Frac.ofNat 2000))

/-- One run of the model (R583). -/
def State.runModel (m : ThermReadings) (s : State) : State :=
  let sites := s.therm.sites.mapIdx (fun k t => siteNext t s.therm.module (s.siteInput m k))
  { s with therm := { s.therm with sites := sites, module := moduleNext sites.toList s.therm.module (s.moduleInput m),
                                   currents := Vector.ofFn (fun i : Fin 13 => (s.currentOf m i.val).round.toNat),
                                   moduleDraw := m.moduleDraw,
                                   chargeSum := Thermal.initial.chargeSum, chargeTicks := 0 } }

/-- THERMAL_MODEL_RUN: from AON ready on, the monitors are checked, the charges raised where overdrawn, and the model runs
(R576 to R588). -/
def execThermalModelRun (m : ThermReadings) (s : State) : Host.Outcome State Fault Refusal :=
  .next (
    if !s.power.aonReady then s
    else
      let s := (List.range 13).foldl (State.checkMonitor m) s
      ((List.range 13).foldl (State.checkOverdraw m) s).runModel m)

/-- THROTTLE_DECISION_STOPPED: the decision every 16 frame periods while the wheel is stopped (R589); dissolutions whose boundary
cannot come take effect (notes/assumptions/19.md). -/
def execThrottleDecisionStopped (s : State) : Host.Outcome State Fault Refusal :=
  .next (if s.wheel.turning || !s.power.aonReady then s else s.passDissolutions.decideStep)

/-- THROTTLE_PAUSE_END: one pause less; at the end of the pauses of step 6 the next decision (R591). -/
def execThrottlePauseEnd (s : State) : Host.Outcome State Fault Refusal :=
  .next (
    if s.wheel.pauses = 0 then s
    else
      let s := { s with wheel := { s.wheel with pauses := s.wheel.pauses - 1 } }
      if s.wheel.pauses = 0 ∧ s.therm.step = 6 then s.decideAgain else s)

end Sys2Proof.Machine
end

