-- ==== Sys2Proof/Machine/TimeBase.lean ====
section
/-! DEFINITION. The time base: TB_UPDATE, TCMP_FIRE, TIME_SET_LOAD, SLEW_ADJUST (R109 to R112, R119 to R131). -/

namespace Sys2Proof.Machine

/-- The next update is one on PIX: the changeover to the PLL's present state happens on a 16-tick boundary (R106, R110). -/
def Clock.counting (c : Clock) : Bool := if c.elapsed % 16 = 0 then c.pllOn else c.onPix

/-- The increment of an update: 1 on PIX, 16 on XO while the PLL is stopped (R110). -/
def Clock.increment (c : Clock) : Nat := if c.counting then 1 else 16

/-- The next update is an adjusted one: the first at or after k intervals of floor(1,000,000 / r) ticks (R130). -/
def Slew.dueIn (w : Slew) (inc : Nat) : Bool := decide (w.k * (1000000 / w.rate) ≤ w.elapsed + inc)

/-- The slew after an update; it ends when the offset has been absorbed (R130). -/
def Slew.after (w : Slew) (inc : Nat) : Option Slew :=
  if w.dueIn inc then
    (if w.remain ≤ 1 then none else some { w with remain := w.remain - 1, elapsed := w.elapsed + inc, k := w.k + 1 })
  else some { w with elapsed := w.elapsed + inc }

/-- The increment of the next update with a slew's adjustment (R130). -/
def Clock.stepNext (c : Clock) : Nat :=
  match c.slew with
  | none => c.increment
  | some w => if w.dueIn c.increment then (if w.advance then c.increment + 1 else c.increment - 1) else c.increment

/-- The result of the next update in ticks, before SEC wraps (R110, R111). -/
def Clock.next (c : Clock) : Nat := c.tb.ticks + c.stepNext

/-- The next update carries SUB to, or past, a multiple of 400,000 (R124). -/
def Clock.crosses (c : Clock) : Bool := c.tb.ticks / 400000 != c.next / 400000

/-- The next update loads a staged TIME_SET (R124). -/
def Clock.loads (c : Clock) : Bool := c.staged.isSome && c.crosses

/-- The next update is an adjusted one (R130). -/
def Clock.adjusts (c : Clock) : Bool :=
  match c.slew with
  | some w => w.dueIn c.increment
  | none => false

/-- The clock after an update without a load: TB, elapsed time, the slew, and the channels that waited for the wrap of SEC
(R110, R111, R120, R130). -/
def Clock.advanced (c : Clock) : Clock :=
  { c with tb := Tb.ofTicks c.next, onPix := c.counting, elapsed := c.elapsed + c.increment, slew := c.slew.bind (fun w => w.after c.increment),
           tcmp := if tbRange ≤ c.next then c.tcmp.map (fun t => { t with wrapped := false }) else c.tcmp }

/-- The load of a staged TIME_SET: TB takes the staged value, which is no wrap of SEC, the slew ends, the owner is told, and the held
TIME_SET has its reply (R120, R124, R125, R129). -/
def State.loadTime (v : Tb) (s : State) : State :=
  let old := Tb.ofTicks s.clock.next
  let s := { s with clock := { s.clock.advanced with tb := v, slew := none, staged := none, tcmp := s.clock.tcmp } }
  let s := s.ownerEvent 0x0004 (old.bytes ++ v.bytes)
  s.readyHeld owner .timeSetLoad { status := .ok, effectFrame := none, results := old.bytes ++ v.bytes }

/-- One update of the time base: its result or a load, then every due compare channel in ascending order (R110, R119, R124,
R126); the charges of the thermal model are metered (R583). -/
def State.updateTb (s : State) : State :=
  if !s.clock.running then s
  else
    let s := { s with therm := s.meterCharges s.clock.increment }
    match s.clock.staged with
    | some v => if s.clock.crosses then (s.loadTime v).fireDue else ({ s with clock := s.clock.advanced }).fireDue
    | none => ({ s with clock := s.clock.advanced }).fireDue

/-- TB_UPDATE. -/
def execTbUpdate (s : State) : Host.Outcome State Fault Refusal := .next s.updateTb

/-- TCMP_FIRE: channel `ch` fires where it is due (R119, R120). -/
def execTcmpFire (ch : Fin 16) (s : State) : Host.Outcome State Fault Refusal :=
  .next (if s.clock.running && (s.clock.tcmp[ch]).due s.clock.tb then s.fireTcmp ch else s)

/-- TIME_SET_LOAD: the update that loads, where the next one does (R124). -/
def execTimeSetLoad (s : State) : Host.Outcome State Fault Refusal := .next (if s.clock.loads then s.updateTb else s)

/-- SLEW_ADJUST: the adjusted update, where the next one is adjusted (R130). -/
def execSlewAdjust (s : State) : Host.Outcome State Fault Refusal := .next (if s.clock.adjusts then s.updateTb else s)

end Sys2Proof.Machine
end

