-- ==== Sys2Proof/Machine/Dispatch.lean ====
section
/-! DEFINITION. The dispatch of every command to its meaning. -/

namespace Sys2Proof.Machine

/-- The effect of a command on everything but the queue. -/
def exec (i : Instr) (s : State) : Host.Outcome State Fault Refusal :=
  match i with
  | .timeGet r params => Sys2Proof.Machine.execTimeGet r params s
  | .timeSet r params => Sys2Proof.Machine.execTimeSet r params s
  | .timeSlew r params => Sys2Proof.Machine.execTimeSlew r params s
  | .tcmpArm r params => Sys2Proof.Machine.execTcmpArm r params s
  | .expoSet r params => Sys2Proof.Machine.execExpoSet r params s
  | .expoGet r params => Sys2Proof.Machine.execExpoGet r params s
  | .trigFire r params => Sys2Proof.Machine.execTrigFire r params s
  | .trigRead r params => Sys2Proof.Machine.execTrigRead r params s
  | .syncGet r params => Sys2Proof.Machine.execSyncGet r params s
  | .periodSet r params => Sys2Proof.Machine.execPeriodSet r params s
  | .wheelGet r params => Sys2Proof.Machine.execWheelGet r params s
  | .statSelect r params => Sys2Proof.Machine.execStatSelect r params s
  | .statGet r params => Sys2Proof.Machine.execStatGet r params s
  | .occGet r params => Sys2Proof.Machine.execOccGet r params s
  | .motionRebase r params => Sys2Proof.Machine.execMotionRebase r params s
  | .calRun r params => Sys2Proof.Machine.execCalRun r params s
  | .calSchedule r params => Sys2Proof.Machine.execCalSchedule r params s
  | .calRead r params => Sys2Proof.Machine.execCalRead r params s
  | .calClear r params => Sys2Proof.Machine.execCalClear r params s
  | .colGet r params => Sys2Proof.Machine.execColGet r params s
  | .defectGet r params => Sys2Proof.Machine.execDefectGet r params s
  | .trimGet r params => Sys2Proof.Machine.execTrimGet r params s
  | .sysInfo r params => Sys2Proof.Machine.execSysInfo r params s
  | .sysCounters r params => Sys2Proof.Machine.execSysCounters r params s
  | .attestGet r params => Sys2Proof.Machine.execAttestGet r params s
  | .sysReset r params => Sys2Proof.Machine.execSysReset r params s
  | .pwrSet r params => Sys2Proof.Machine.execPwrSet r params s
  | .pstateSet r params => Sys2Proof.Machine.execPstateSet r params s
  | .pwrGet r params => Sys2Proof.Machine.execPwrGet r params s
  | .refusalRead r params => Sys2Proof.Machine.execRefusalRead r params s
  | .refusalClear r params => Sys2Proof.Machine.execRefusalClear r params s
  | .poldCreate r params => Sys2Proof.Machine.execPoldCreate r params s
  | .poldOffer r params => Sys2Proof.Machine.execPoldOffer r params s
  | .poldAnswer r params => Sys2Proof.Machine.execPoldAnswer r params s
  | .poldDissolve r params => Sys2Proof.Machine.execPoldDissolve r params s
  | .poldStatus r params => Sys2Proof.Machine.execPoldStatus r params s
  | .poldCharter r params => Sys2Proof.Machine.execPoldCharter r params s
  | .fabRead r params => Sys2Proof.Machine.execFabRead r params s
  | .fabAddrSet r params => Sys2Proof.Machine.execFabAddrSet r params s
  | .fabKeySet r params => Sys2Proof.Machine.execFabKeySet r params s
  | .fabRankSet r params => Sys2Proof.Machine.execFabRankSet r params s
  | .roleSwap r params => Sys2Proof.Machine.execRoleSwap r params s
  | .fabRoutes r params => Sys2Proof.Machine.execFabRoutes r params s
  | .fabPeriodSrc r params => Sys2Proof.Machine.execFabPeriodSrc r params s
  | .fabPeriodSet r params => Sys2Proof.Machine.execFabPeriodSet r params s
  | .arrOpen r params => Sys2Proof.Machine.execArrOpen r params s
  | .arrWrite r params => Sys2Proof.Machine.execArrWrite r params s
  | .arrCommit r params => Sys2Proof.Machine.execArrCommit r params s
  | .arrAbort r params => Sys2Proof.Machine.execArrAbort r params s
  | .arrRead r params => Sys2Proof.Machine.execArrRead r params s
  | .arrInfo r params => Sys2Proof.Machine.execArrInfo r params s
  | .fwActivate r params => Sys2Proof.Machine.execFwActivate r params s
  | .lcGet r params => Sys2Proof.Machine.execLcGet r params s
  | .lcAdvance r params => Sys2Proof.Machine.execLcAdvance r params s
  | .bistRun r params => Sys2Proof.Machine.execBistRun r params s
  | .bistRead r params => Sys2Proof.Machine.execBistRead r params s
  | .thermGet r params => Sys2Proof.Machine.execThermGet r params s
  | .pixPort r params => Sys2Proof.Machine.execPixPort r params s
  | .daliCfg r params => Sys2Proof.Machine.execDaliCfg r params s
  | .daliGet r params => Sys2Proof.Machine.execDaliGet r params s
  | .packetArrival pk => Sys2Proof.Machine.execPacketArrival pk s
  | .serviceSlice p => Sys2Proof.Machine.execServiceSlice p s
  | .assemblyTimeout p => Sys2Proof.Machine.execAssemblyTimeout p s
  | .answerHoldExpiry p => Sys2Proof.Machine.execAnswerHoldExpiry p s
  | .offerGenerate p => Sys2Proof.Machine.execOfferGenerate p s
  | .keyAgreementTimeout => Sys2Proof.Machine.execKeyAgreementTimeout s
  | .polderErase p => Sys2Proof.Machine.execPolderErase p s
  | .tbUpdate => Sys2Proof.Machine.execTbUpdate s
  | .tcmpFire ch => Sys2Proof.Machine.execTcmpFire ch s
  | .timeSetLoad => Sys2Proof.Machine.execTimeSetLoad s
  | .slewAdjust => Sys2Proof.Machine.execSlewAdjust s
  | .timeSubRead => Sys2Proof.Machine.execTimeSubRead s
  | .wheelSlotStart => Sys2Proof.Machine.execWheelSlotStart s
  | .exposureStart => Sys2Proof.Machine.execExposureStart s
  | .triggerDeadline => Sys2Proof.Machine.execTriggerDeadline s
  | .blankIntervalCheck conv trim => Sys2Proof.Machine.execBlankIntervalCheck conv trim s
  | .rowRead columns spares => Sys2Proof.Machine.execRowRead columns spares s
  | .slotEnd => Sys2Proof.Machine.execSlotEnd s
  | .recordLeavesFork => Sys2Proof.Machine.execRecordLeavesFork s
  | .recordEntersDelivery => Sys2Proof.Machine.execRecordEntersDelivery s
  | .trigInEdge => Sys2Proof.Machine.execTrigInEdge s
  | .trigRefractoryEnd => Sys2Proof.Machine.execTrigRefractoryEnd s
  | .syncInEdge => Sys2Proof.Machine.execSyncInEdge s
  | .syncPeriodMissing => Sys2Proof.Machine.execSyncPeriodMissing s
  | .commissionNRise => Sys2Proof.Machine.execCommissionNRise s
  | .calRampDone intervalsA intervalsB => Sys2Proof.Machine.execCalRampDone intervalsA intervalsB s
  | .calColumnsDone meas => Sys2Proof.Machine.execCalColumnsDone meas s
  | .calLeaseExpired => Sys2Proof.Machine.execCalLeaseExpired s
  | .qualityRecompute => Sys2Proof.Machine.execQualityRecompute s
  | .linePowerGood => Sys2Proof.Machine.execLinePowerGood s
  | .linePowerLost => Sys2Proof.Machine.execLinePowerLost s
  | .powerDownReset => Sys2Proof.Machine.execPowerDownReset s
  | .portPresenceChange port millivolts => Sys2Proof.Machine.execPortPresenceChange port millivolts s
  | .aonReady straps vioPresent => Sys2Proof.Machine.execAonReady straps vioPresent s
  | .firmwareStart f => Sys2Proof.Machine.execFirmwareStart f s
  | .commandsAcceptedStart => Sys2Proof.Machine.execCommandsAcceptedStart s
  | .discoveryWindowEnd => Sys2Proof.Machine.execDiscoveryWindowEnd s
  | .holdMeasure millivolts chargeMicroamps => Sys2Proof.Machine.execHoldMeasure millivolts chargeMicroamps s
  | .pulseTest fallMillivolts => Sys2Proof.Machine.execPulseTest fallMillivolts s
  | .holdupDeadline => Sys2Proof.Machine.execHoldupDeadline s
  | .vauxTrip => Sys2Proof.Machine.execVauxTrip s
  | .vauxRetry limiting => Sys2Proof.Machine.execVauxRetry limiting s
  | .vioLost => Sys2Proof.Machine.execVioLost s
  | .vioRestored => Sys2Proof.Machine.execVioRestored s
  | .resetNAssert => Sys2Proof.Machine.execResetNAssert s
  | .resetNRelease straps vioPresent => Sys2Proof.Machine.execResetNRelease straps vioPresent s
  | .powerEntryStep => Sys2Proof.Machine.execPowerEntryStep s
  | .returnStepReady => Sys2Proof.Machine.execReturnStepReady s
  | .replyCarriedTimeout => Sys2Proof.Machine.execReplyCarriedTimeout s
  | .opPointVoltageReady domain => Sys2Proof.Machine.execOpPointVoltageReady domain s
  | .wakeEvent => Sys2Proof.Machine.execWakeEvent s
  | .wakeMatch port target => Sys2Proof.Machine.execWakeMatch port target s
  | .i2cAddrMatch addr => Sys2Proof.Machine.execI2cAddrMatch addr s
  | .wakeNFall => Sys2Proof.Machine.execWakeNFall s
  | .dataSlotTx port => Sys2Proof.Machine.execDataSlotTx port s
  | .beaconTx => Sys2Proof.Machine.execBeaconTx s
  | .contentionTx port collided => Sys2Proof.Machine.execContentionTx port collided s
  | .ack f => Sys2Proof.Machine.execAck f s
  | .data f => Sys2Proof.Machine.execData f s
  | .beacon f => Sys2Proof.Machine.execBeacon f s
  | .wake f => Sys2Proof.Machine.execWake f s
  | .join f => Sys2Proof.Machine.execJoin f s
  | .discover f => Sys2Proof.Machine.execDiscover f s
  | .route f => Sys2Proof.Machine.execRoute f s
  | .drain f => Sys2Proof.Machine.execDrain f s
  | .drainDone f => Sys2Proof.Machine.execDrainDone f s
  | .rangeReq f roundTrip => Sys2Proof.Machine.execRangeReq f roundTrip s
  | .rangeEcho f => Sys2Proof.Machine.execRangeEcho f s
  | .swapReq f => Sys2Proof.Machine.execSwapReq f s
  | .swapReady f => Sys2Proof.Machine.execSwapReady f s
  | .swapNot f => Sys2Proof.Machine.execSwapNot f s
  | .swapDone f => Sys2Proof.Machine.execSwapDone f s
  | .lineFrameBad f => Sys2Proof.Machine.execLineFrameBad f s
  | .beaconMissed port => Sys2Proof.Machine.execBeaconMissed port s
  | .reevePresumedLost port => Sys2Proof.Machine.execReevePresumedLost port s
  | .electionDelayExpired collided => Sys2Proof.Machine.execElectionDelayExpired collided s
  | .routeAdvertTimer => Sys2Proof.Machine.execRouteAdvertTimer s
  | .routeLapse segment => Sys2Proof.Machine.execRouteLapse segment s
  | .holdbackExpired port segment => Sys2Proof.Machine.execHoldbackExpired port segment s
  | .fwdFrameTimeout port => Sys2Proof.Machine.execFwdFrameTimeout port s
  | .flowStateExpiry port src dst pol => Sys2Proof.Machine.execFlowStateExpiry port src dst pol s
  | .rangeReqTimer => Sys2Proof.Machine.execRangeReqTimer s
  | .joinRetryTimer => Sys2Proof.Machine.execJoinRetryTimer s
  | .slotConflictRetry => Sys2Proof.Machine.execSlotConflictRetry s
  | .roleSwapTimeout => Sys2Proof.Machine.execRoleSwapTimeout s
  | .txfifo bus bytes ends => Sys2Proof.Machine.execTxfifo bus bytes ends s
  | .txfifoPacketToIntake => Sys2Proof.Machine.execTxfifoPacketToIntake s
  | .rxfifo bus bytes ends => Sys2Proof.Machine.execRxfifo bus bytes ends s
  | .rxfifoEnqueue => Sys2Proof.Machine.execRxfifoEnqueue s
  | .irqFlags w => Sys2Proof.Machine.execIrqFlags w s
  | .hostRegisterWrite bus header read bytes ends => Sys2Proof.Machine.execHostRegisterWrite bus header read bytes ends s
  | .daliFrameReceive f => Sys2Proof.Machine.execDaliFrameReceive f s
  | .daliBusPowerLost => Sys2Proof.Machine.execDaliBusPowerLost s
  | .thermalModelRun m => Sys2Proof.Machine.execThermalModelRun m s
  | .throttleDecisionStopped => Sys2Proof.Machine.execThrottleDecisionStopped s
  | .throttlePauseEnd => Sys2Proof.Machine.execThrottlePauseEnd s
  | .pageProgramComplete verified pulses => Sys2Proof.Machine.execPageProgramComplete verified pulses s
  | .itemWriteStart p => Sys2Proof.Machine.execItemWriteStart p s
  | .arrayLeaseExpired handle => Sys2Proof.Machine.execArrayLeaseExpired handle s
  | .logPageTimer => Sys2Proof.Machine.execLogPageTimer s
  | .lcTransitionExecute => Sys2Proof.Machine.execLcTransitionExecute s
  | .bistStart => Sys2Proof.Machine.execBistStart s
  | .bistBlockDone failed => Sys2Proof.Machine.execBistBlockDone failed s
  | .jtagExtest outputs => Sys2Proof.Machine.execJtagExtest outputs s
  | .jtagIdcode => Sys2Proof.Machine.execJtagIdcode s
  | .jtagSamplePreload lands => Sys2Proof.Machine.execJtagSamplePreload lands s
  | .jtagDebug a => Sys2Proof.Machine.execJtagDebug a s
  | .jtagArray a => Sys2Proof.Machine.execJtagArray a s
  | .jtagMbist blocks failed => Sys2Proof.Machine.execJtagMbist blocks failed s
  | .jtagScan => Sys2Proof.Machine.execJtagScan s
  | .jtagRelease => Sys2Proof.Machine.execJtagRelease s
  | .jtagBypass code => Sys2Proof.Machine.execJtagBypass code s
  | .dataFault parity block lane inReference => Sys2Proof.Machine.execDataFault parity block lane inReference s
  | .uncorrectableWord block => Sys2Proof.Machine.execUncorrectableWord block s
  | .lockLost => Sys2Proof.Machine.execLockLost s
  | .relockAttemptEnd locked => Sys2Proof.Machine.execRelockAttemptEnd locked s
  | .watchdogExpiry => Sys2Proof.Machine.execWatchdogExpiry s
  | .daliBusPowerRestored => Sys2Proof.Machine.execDaliBusPowerRestored s
  | .daliReportTimer inst => Sys2Proof.Machine.execDaliReportTimer inst s
  | .daliEventSend collided => Sys2Proof.Machine.execDaliEventSend collided s
  | .trstNAssert => Sys2Proof.Machine.execTrstNAssert s

end Sys2Proof.Machine
end

