-- ==== Sys2Proof/WellFormed.lean ====
section
/-! DEFINITION. Well-formed commands: the operands a transport, a converter, a monitor or a tester can present. `exec` gives every
command a meaning; `Instr.wf` says which can occur. -/

namespace Sys2Proof

/-- The parameter area of a packet holds at most 112 bytes (R338), and its sender on the line has an address (R350, R440). -/
def reqWf (r : Req) (params : List Byte) : Bool :=
  decide (params.length ≤ 112) && (match r.path with
    | .host => true
    | .line peer => peer != 0xfff)

/-- A transport gives a packet at most 255 bytes, in a length byte (R343, R349, R471). -/
def Packet.wf (pk : Packet) : Bool := decide (pk.bytes.length < 256)

/-- Measurements A and B have 32 conversions at each level, of a converter 0 to 1,631 (R240, R252, R259). -/
def measuredWf (m : Nat × TrimMeas) : Bool :=
  decide (m.1 < 1632) && [m.2.lowA, m.2.highA, m.2.lowB, m.2.highB].all (fun l => l.length == 32)

/-- From its start delimiter on a frame has at most 273 bytes: SD, five of ADDR, TYPE and LENGTH, eight of ACK, 255 of payload, four of
FCS (R471). -/
def LineRx.wf (f : LineRx) : Bool := decide (f.bits.length ≤ 2184)

/-- The readings of a thermal run: 13 monitors, 13 activity counts (R576, R586). -/
def ThermReadings.wf (m : ThermReadings) : Bool := m.currents.length == 13 && m.activeCycles.length == 13

/-- TCM is 64 KiB (R134). -/
def DebugAction.wf : DebugAction → Bool
  | .halt => true
  | .step => true
  | .resume => true
  | .readTcm addr => decide (addr < 65536)
  | .writeTcm addr _ => decide (addr < 65536)

/-- The array is 4 MiB in pages of 256 bytes; MFG holds 300 shading factors, nine matrix coefficients and a certificate, TRIMTAB the codes
of 1,632 converters (R271, R287, R288, R424, R543, R551). -/
def ArrayAccess.wf : ArrayAccess → Bool
  | .readPage addr => decide (addr < 0x400000)
  | .programPage addr bytes => decide (addr < 0x400000) && bytes.length == 256
  | .programMfg _ _ shading matrix _ _ certificate _ => shading.length == 300 && matrix.length == 9 && certificate.length == 144
  | .programTrimTab _ codes _ _ => codes.length == 1632

/-- The operands can occur. -/
def Instr.wf : Instr → Bool
  | .timeGet r params => reqWf r params
  | .timeSet r params => reqWf r params
  | .timeSlew r params => reqWf r params
  | .tcmpArm r params => reqWf r params
  | .expoSet r params => reqWf r params
  | .expoGet r params => reqWf r params
  | .trigFire r params => reqWf r params
  | .trigRead r params => reqWf r params
  | .syncGet r params => reqWf r params
  | .periodSet r params => reqWf r params
  | .wheelGet r params => reqWf r params
  | .statSelect r params => reqWf r params
  | .statGet r params => reqWf r params
  | .occGet r params => reqWf r params
  | .motionRebase r params => reqWf r params
  | .calRun r params => reqWf r params
  | .calSchedule r params => reqWf r params
  | .calRead r params => reqWf r params
  | .calClear r params => reqWf r params
  | .colGet r params => reqWf r params
  | .defectGet r params => reqWf r params
  | .trimGet r params => reqWf r params
  | .sysInfo r params => reqWf r params
  | .sysCounters r params => reqWf r params
  | .attestGet r params => reqWf r params
  | .sysReset r params => reqWf r params
  | .pwrSet r params => reqWf r params
  | .pstateSet r params => reqWf r params
  | .pwrGet r params => reqWf r params
  | .refusalRead r params => reqWf r params
  | .refusalClear r params => reqWf r params
  | .poldCreate r params => reqWf r params
  | .poldOffer r params => reqWf r params
  | .poldAnswer r params => reqWf r params
  | .poldDissolve r params => reqWf r params
  | .poldStatus r params => reqWf r params
  | .poldCharter r params => reqWf r params
  | .fabRead r params => reqWf r params
  | .fabAddrSet r params => reqWf r params
  | .fabKeySet r params => reqWf r params
  | .fabRankSet r params => reqWf r params
  | .roleSwap r params => reqWf r params
  | .fabRoutes r params => reqWf r params
  | .fabPeriodSrc r params => reqWf r params
  | .fabPeriodSet r params => reqWf r params
  | .arrOpen r params => reqWf r params
  | .arrWrite r params => reqWf r params
  | .arrCommit r params => reqWf r params
  | .arrAbort r params => reqWf r params
  | .arrRead r params => reqWf r params
  | .arrInfo r params => reqWf r params
  | .fwActivate r params => reqWf r params
  | .lcGet r params => reqWf r params
  | .lcAdvance r params => reqWf r params
  | .bistRun r params => reqWf r params
  | .bistRead r params => reqWf r params
  | .thermGet r params => reqWf r params
  | .pixPort r params => reqWf r params
  | .daliCfg r params => reqWf r params
  | .daliGet r params => reqWf r params
  | .packetArrival pk => pk.wf
  | .serviceSlice _ => true
  | .assemblyTimeout _ => true
  | .answerHoldExpiry _ => true
  | .offerGenerate _ => true
  | .keyAgreementTimeout => true
  | .polderErase _ => true
  | .tbUpdate => true
  | .tcmpFire _ => true
  | .timeSetLoad => true
  | .slewAdjust => true
  | .timeSubRead => true
  | .wheelSlotStart => true
  | .exposureStart => true
  | .triggerDeadline => true
  | .blankIntervalCheck conv trim => conv.length == 1632 && trim.all measuredWf
  | .rowRead columns spares => columns.length == 1600 && spares.length == 32
  | .slotEnd => true
  | .recordLeavesFork => true
  | .recordEntersDelivery => true
  | .trigInEdge => true
  | .trigRefractoryEnd => true
  | .syncInEdge => true
  | .syncPeriodMissing => true
  | .commissionNRise => true
  | .calRampDone a b => a.length == 128 && b.length == 128 && a.all (fun n => decide (0 < n)) && b.all (fun n => decide (0 < n))
  | .calColumnsDone meas => meas.all measuredWf
  | .calLeaseExpired => true
  | .qualityRecompute => true
  | .linePowerGood => true
  | .linePowerLost => true
  | .powerDownReset => true
  | .portPresenceChange _ _ => true
  | .aonReady _ _ => true
  | .firmwareStart _ => true
  | .commandsAcceptedStart => true
  | .discoveryWindowEnd => true
  | .holdMeasure _ _ => true
  | .pulseTest _ => true
  | .holdupDeadline => true
  | .vauxTrip => true
  | .vauxRetry _ => true
  | .vioLost => true
  | .vioRestored => true
  | .resetNAssert => true
  | .resetNRelease _ _ => true
  | .powerEntryStep => true
  | .returnStepReady => true
  | .replyCarriedTimeout => true
  | .opPointVoltageReady _ => true
  | .wakeEvent => true
  | .wakeMatch _ _ => true
  | .i2cAddrMatch _ => true
  | .wakeNFall => true
  | .dataSlotTx _ => true
  | .beaconTx => true
  | .contentionTx _ _ => true
  | .ack f => f.wf
  | .data f => f.wf
  | .beacon f => f.wf
  | .wake f => f.wf
  | .join f => f.wf
  | .discover f => f.wf
  | .route f => f.wf
  | .drain f => f.wf
  | .drainDone f => f.wf
  | .rangeReq f _ => f.wf
  | .rangeEcho f => f.wf
  | .swapReq f => f.wf
  | .swapReady f => f.wf
  | .swapNot f => f.wf
  | .swapDone f => f.wf
  | .lineFrameBad f => f.wf
  | .beaconMissed _ => true
  | .reevePresumedLost _ => true
  | .electionDelayExpired _ => true
  | .routeAdvertTimer => true
  | .routeLapse _ => true
  | .holdbackExpired _ _ => true
  | .fwdFrameTimeout _ => true
  | .flowStateExpiry _ _ _ _ => true
  | .rangeReqTimer => true
  | .joinRetryTimer => true
  | .slotConflictRetry => true
  | .roleSwapTimeout => true
  | .txfifo _ _ _ => true
  | .txfifoPacketToIntake => true
  | .rxfifo _ _ _ => true
  | .rxfifoEnqueue => true
  | .irqFlags _ => true
  | .hostRegisterWrite bus header read _ _ => bus != .spi || read == header.toNat.testBit 7
  | .daliFrameReceive _ => true
  | .daliBusPowerLost => true
  | .thermalModelRun m => m.wf
  | .throttleDecisionStopped => true
  | .throttlePauseEnd => true
  | .pageProgramComplete _ pulses => decide (0 < pulses) && decide (pulses ≤ 100)
  | .itemWriteStart _ => true
  | .arrayLeaseExpired _ => true
  | .logPageTimer => true
  | .lcTransitionExecute => true
  | .bistStart => true
  | .bistBlockDone _ => true
  | .jtagExtest _ => true
  | .jtagIdcode => true
  | .jtagSamplePreload _ => true
  | .jtagDebug a => a.wf
  | .jtagArray a => a.wf
  | .jtagMbist _ _ => true
  | .jtagScan => true
  | .jtagRelease => true
  | .jtagBypass _ => true
  | .dataFault _ _ _ _ => true
  | .uncorrectableWord _ => true
  | .lockLost => true
  | .relockAttemptEnd _ => true
  | .watchdogExpiry => true
  | .daliBusPowerRestored => true
  | .daliReportTimer _ => true
  | .daliEventSend _ => true
  | .trstNAssert => true

end Sys2Proof
end

