-- ==== Sys2Proof/Safety.lean ====
section
/-! DEFINITION. What counts as a safe run: stored bytes in canonical form, fuses that only blow, delivery queues within their places,
and a step that stops nowhere a rule gives an effect. -/

namespace Sys2Proof.Machine

/-- Every address lies at or above `lo`, and addresses rise strictly. -/
def risingFrom : Nat → List Host.Cell → Bool
  | _, [] => true
  | lo, (a, _) :: rest => decide (lo ≤ a) && risingFrom (a + 1) rest

/-- The canonical form of a store whose unlisted bytes have no stated value: each address at most once, rising (R134, R543). -/
def rising (m : List Host.Cell) : Bool := risingFrom 0 m

/-- The stores of the array: regions 0, 1 and 6 and the LOG in canonical form over 0x00 (R455, R560, R568), the rest of the array as
programmed by address (R543). -/
def ArrayS.storesWf (a : ArrayS) : Bool :=
  cellsWf a.fw0.content && cellsWf a.fw1.content && cellsWf a.user.content && cellsWf a.logCells && rising a.cells

/-- Every addressed store of the node is in canonical form. -/
def State.storesWf (s : State) : Bool := s.arr.storesWf && rising s.jtag.tcm

/-- The unique ID and the fuses that a transition ending with a reset blows (R598, R601). -/
structure FuseBlock where
  uid : BitVec 64
  mfgDone : Bool
  fuseReturn : Bool
  fuseScrapped : Bool
  deriving DecidableEq, Repr

/-- The fuse block of a node. -/
def State.fuses (s : State) : FuseBlock :=
  { uid := s.life.uid, mfgDone := s.life.mfgDone, fuseReturn := s.life.fuseReturn, fuseScrapped := s.life.fuseScrapped }

/-- A fuse that is blown stays blown, and the unique ID never changes (R598). -/
def FuseBlock.onlyBlows (a b : FuseBlock) : Bool :=
  a.uid == b.uid && (!a.mfgDone || b.mfgDone) && (!a.fuseReturn || b.fuseReturn) && (!a.fuseScrapped || b.fuseScrapped)

/-- The queues of a polder within their bounds: four packets of intake (R348), eight commands (R352), 16 journalled replies (R362),
128 places of delivery (R370). -/
def Polder.queuesWf (q : Polder) : Bool :=
  decide (q.intake.length ≤ 4) && decide (q.queue.length ≤ 8) && decide (q.journal.length ≤ 16) && decide (dlvPlaces q.dlv ≤ 128)

/-- The queues of every polder are within their bounds. -/
def State.queuesWf (s : State) : Bool := s.pols.all Polder.queuesWf

/-! ### What a command row meets -/

/-- The opcodes 0x00 to 0x36 with their issuers, lifecycle states, PLEN and reserved parameter bits (R380, R417, and each opcode's own rule). -/
def commandRows0 : List (Byte × OpSpec × (Req → List Byte → Instr)) :=
  [(0x00, { issuer := .all, states := mcfr, plenOk := (· == 0), reserved := fun _ => [] }, .sysInfo),
   (0x01, { issuer := .all, states := cf, plenOk := (· == 1), reserved := fun _ => [(7, 1)] }, .sysCounters),
   (0x02, { issuer := .all, states := cf, plenOk := (· == 1), reserved := fun _ => [] }, .attestGet),
   (0x03, { issuer := .owner, states := cf, plenOk := (· == 4), reserved := fun _ => [] }, .sysReset),
   (0x10, { issuer := .owner, states := cf, plenOk := (· == 7), reserved := fun _ => [(31, 24), (32, 32), (47, 45), (55, 53)] }, .pwrSet),
   (0x11, { issuer := .owner, states := cf, plenOk := (· == 1), reserved := fun _ => [] }, .pstateSet),
   (0x12, { issuer := .owner, states := cf, plenOk := (· == 0), reserved := fun _ => [] }, .pwrGet),
   (0x13, { issuer := .owner, states := cf, plenOk := (· == 1), reserved := fun _ => [] }, .refusalRead),
   (0x14, { issuer := .owner, states := cf, plenOk := (· == 0), reserved := fun _ => [] }, .refusalClear)] ++
  [(0x20, { issuer := .all, states := cf, plenOk := (· == 0), reserved := fun _ => [] }, .timeGet),
   (0x21, { issuer := .owner, states := cf, plenOk := (· == 8), reserved := fun _ => [(31, 29)] }, .timeSet),
   (0x22, { issuer := .owner, states := cf, plenOk := (· == 5), reserved := fun _ => [] }, .timeSlew),
   (0x23, { issuer := .all, states := cf, plenOk := fun n => n == 4 || n == 17, reserved := fun _ => [(31, 9), (63, 61), (135, 132)] }, .tcmpArm),
   (0x30, { issuer := .all, states := cf, plenOk := (· == 24), reserved := fun _ => [(71, 70), (79, 79), (159, 144)] }, .expoSet),
   (0x31, { issuer := .all, states := cf, plenOk := (· == 0), reserved := fun _ => [] }, .expoGet),
   (0x32, { issuer := .all, states := cf, plenOk := (· == 0), reserved := fun _ => [] }, .trigFire),
   (0x33, { issuer := .all, states := cf, plenOk := (· == 1), reserved := fun _ => [(7, 1)] }, .trigRead),
   (0x34, { issuer := .all, states := cf, plenOk := (· == 0), reserved := fun _ => [] }, .syncGet),
   (0x35, { issuer := .owner, states := cf, plenOk := (· == 4), reserved := fun _ => [] }, .periodSet),
   (0x36, { issuer := .all, states := cf, plenOk := (· == 0), reserved := fun _ => [] }, .wheelGet)]

/-- The opcodes 0x40 to 0x67 (R380, R417); an ANSWER is no tagged command. -/
def commandRows1 : List (Byte × OpSpec × (Req → List Byte → Instr)) :=
  [(0x40, { issuer := .owner, states := cf, plenOk := fun n => n == 20 || n == 40,
            reserved := fun n => if n = 40 then [(15, 8), (319, 316)] else [(15, 14)] }, .statSelect),
   (0x41, { issuer := .all, states := cf, plenOk := (· == 1), reserved := fun _ => [] }, .statGet),
   (0x42, { issuer := .all, states := cf, plenOk := (· == 0), reserved := fun _ => [] }, .occGet),
   (0x43, { issuer := .all, states := cf, plenOk := (· == 0), reserved := fun _ => [] }, .motionRebase),
   (0x50, { issuer := .owner, states := cf, plenOk := fun n => decide (5 ≤ n) && decide (n ≤ 108), reserved := fun _ => [(15, 8)] }, .poldCreate),
   (0x51, { issuer := .owner, states := cf, plenOk := (· == 2), reserved := fun _ => [] }, .poldOffer),
   (0x53, { issuer := .all, states := [.field], plenOk := (· == 1), reserved := fun _ => [] }, .poldDissolve),
   (0x54, { issuer := .all, states := cf, plenOk := (· == 1), reserved := fun _ => [] }, .poldStatus),
   (0x55, { issuer := .all, states := cf, plenOk := (· == 2), reserved := fun _ => [] }, .poldCharter)] ++
  [(0x60, { issuer := .owner, states := cf, plenOk := (· == 1), reserved := fun _ => [] }, .fabRead),
   (0x61, { issuer := .owner, states := [.commission], plenOk := (· == 2), reserved := fun _ => [(15, 12)] }, .fabAddrSet),
   (0x62, { issuer := .owner, states := [.commission], plenOk := (· == 17), reserved := fun _ => [] }, .fabKeySet),
   (0x63, { issuer := .owner, states := cf, plenOk := (· == 1), reserved := fun _ => [] }, .fabRankSet),
   (0x64, { issuer := .owner, states := cf, plenOk := (· == 4), reserved := fun _ => [(15, 12), (31, 24)] }, .roleSwap),
   (0x65, { issuer := .owner, states := cf, plenOk := (· == 1), reserved := fun _ => [] }, .fabRoutes),
   (0x66, { issuer := .owner, states := cf, plenOk := (· == 1), reserved := fun _ => [(7, 1)] }, .fabPeriodSrc),
   (0x67, { issuer := .owner, states := cf, plenOk := (· == 4), reserved := fun _ => [] }, .fabPeriodSet)]

/-- The opcodes 0x70 to 0xB2 (R380, R417). -/
def commandRows2 : List (Byte × OpSpec × (Req → List Byte → Instr)) :=
  [(0x70, { issuer := .owner, states := cf, plenOk := (· == 1), reserved := fun _ => [] }, .arrOpen),
   (0x71, { issuer := .owner, states := cf, plenOk := fun n => decide (12 ≤ n) && decide (n ≤ 68), reserved := fun _ => [] }, .arrWrite),
   (0x72, { issuer := .owner, states := cf, plenOk := (· == 36), reserved := fun _ => [] }, .arrCommit),
   (0x73, { issuer := .owner, states := cf, plenOk := (· == 0), reserved := fun _ => [] }, .arrAbort),
   (0x74, { issuer := .owner, states := cf, plenOk := (· == 6), reserved := fun _ => [] }, .arrRead),
   (0x75, { issuer := .owner, states := cf, plenOk := (· == 0), reserved := fun _ => [] }, .arrInfo),
   (0x76, { issuer := .owner, states := cf, plenOk := (· == 1), reserved := fun _ => [] }, .fwActivate),
   (0x80, { issuer := .owner, states := cf, plenOk := (· == 1), reserved := fun _ => [(7, 2)] }, .calRun),
   (0x81, { issuer := .owner, states := cf, plenOk := (· == 3), reserved := fun _ => [] }, .calSchedule),
   (0x82, { issuer := .owner, states := cf, plenOk := (· == 1), reserved := fun _ => [] }, .calRead),
   (0x83, { issuer := .owner, states := cf, plenOk := (· == 0), reserved := fun _ => [] }, .calClear)] ++
  [(0x84, { issuer := .owner, states := cf, plenOk := (· == 1), reserved := fun _ => [] }, .colGet),
   (0x85, { issuer := .owner, states := cf, plenOk := (· == 1), reserved := fun _ => [] }, .defectGet),
   (0x86, { issuer := .owner, states := cf, plenOk := (· == 3), reserved := fun _ => [] }, .trimGet),
   (0x90, { issuer := .all, states := mcfr, plenOk := (· == 0), reserved := fun _ => [] }, .lcGet),
   (0x91, { issuer := .owner, states := mcfr, plenOk := (· == 5), reserved := fun _ => [] }, .lcAdvance),
   (0x92, { issuer := .owner, states := [.commission, .field, .ret], plenOk := (· == 4), reserved := fun _ => [(15, 12)] }, .bistRun),
   (0x93, { issuer := .owner, states := [.commission, .field, .ret], plenOk := (· == 0), reserved := fun _ => [] }, .bistRead),
   (0xA0, { issuer := .owner, states := cf, plenOk := (· == 1), reserved := fun _ => [] }, .thermGet),
   (0xB0, { issuer := .owner, states := [.commission], plenOk := (· == 1), reserved := fun _ => [] }, .pixPort),
   (0xB1, { issuer := .bound, states := cf, plenOk := (· == 2), reserved := fun _ => [] }, .daliCfg),
   (0xB2, { issuer := .bound, states := cf, plenOk := (· == 0), reserved := fun _ => [] }, .daliGet)]

/-- Every command with its row (R380, R417). -/
def commandRows : List (Byte × OpSpec × (Req → List Byte → Instr)) := commandRows0 ++ commandRows1 ++ commandRows2

/-- The row of an opcode (R380, R417). -/
def rowOf (op : Byte) : Option OpSpec := (commandRows.find? (fun x => x.1 == op)).map (fun x => x.2.1)

/-- The queue entry of a command row: admitted at NEXT_ADMIT under the key of its sender (R338, R345, R349). -/
def State.entryOf (s : State) (opcode : Byte) (r : Req) (params : List Byte) : QEntry :=
  { kind := .command, opcode := opcode, req := r, params := params, plen := params.length, esn := (s.pol r.pol).nextAdmit,
    key := (s.sessionKey r.pol r.path).getD 0, raw := [] }

/-- The state once a command row has been admitted (R349 step 11). -/
def State.taken (s : State) (opcode : Byte) (r : Req) (params : List Byte) : State := s.admitCommand (s.entryOf opcode r params)

/-- A command is admitted and served at once (R349, R352 to R354): the node accepts commands, the sender's transport reaches the
polder, a key of the polder is in force, admission is open, and the polder's slice is free; the polder is not DISSOLVING (R330). -/
def State.servesNow (s : State) (r : Req) : Bool :=
  s.power.seqRunning && s.power.accepting && (r.path != .host || s.hostPol == r.pol) && !s.polderGone r.pol &&
  (s.sessionKey r.pol r.path).isSome && !s.queueClosed r.pol && (s.pol r.pol).state != .dissolving && s.sliceFree r.pol

/-- The first of the checks every command meets that this one fails: MFG, PLEN, reserved bits, issuer, lifecycle state (R15, R355, R380,
R381, R417 to R419, R555, R610). -/
def State.rowRefusal (s : State) (sp : OpSpec) (op : Byte) (r : Req) (params : List Byte) : Option Status :=
  if !s.arr.mfg.valid && bits op.toNat 7 4 != 9 then some .defect
  else if !sp.plenOk params.length then some .badLength
  else if !reservedClear (sp.reserved params.length) params then some .badParam
  else if !s.permitted sp (s.entryOf op r params) then some .notPermitted
  else if !sp.states.contains s.life.shadow then some .lifecycle
  else none

/-- What precedes the checks of a command row: a command of an update settles and renews its lease (R373, R374;
notes/assumptions/52.md). -/
def State.beforeChecks (op : Byte) (r : Req) (s : State) : State :=
  if op ∈ [(0x71 : Byte), 0x72, 0x73] then s.renewed r.pol r.handle else s

/-- A command passes the checks that every command meets, the assembly rule of R356 among them. -/
def State.passes (s : State) (op : Byte) (r : Req) (params : List Byte) : Bool :=
  match rowOf op with
  | some sp => (s.rowRefusal sp op r params).isNone && (s.assemblyCheck (s.entryOf op r params)).1.isNone
  | none => false

/-- A command row that is served at once and passes every check of its row. -/
def State.runs (s : State) (op : Byte) (r : Req) (params : List Byte) : Bool := s.servesNow r && s.passes op r params

/-- A command row that finishes: admitted, its effect `g`, and its reply in the reply queue and the journal (R349, R352, R362). -/
def State.finishes (s : State) (opcode : Byte) (r : Req) (params : List Byte) (a : Answer) (g : State → State) : State :=
  (g (s.taken opcode r params)).deliver r.pol (s.entryOf opcode r params) a

/-- A command row that holds the head of its queue under a rule: admitted, its effect `g`, its reply still to come (R353). -/
def State.holds (s : State) (opcode : Byte) (r : Req) (params : List Byte) (rule : HoldRule) (a : Option Answer) (g : State → State) : State :=
  (g (s.taken opcode r params)).modPol r.pol (fun q =>
    { q with serving := some { entry := s.entryOf opcode r params, rule := rule, answer := a, ready := false, replied := false } })

/-- A command row that is refused: admitted, and answered with a status and no RESULTS (R383, R419). -/
def State.refuses (s : State) (opcode : Byte) (r : Req) (params : List Byte) (st : Status) : State :=
  s.finishes opcode r params { status := st, effectFrame := none, results := [] } id

/-- A command row that writes the array before its reply leaves, with what its service did before (`base`): it waits while the page buffer is
under test (R620), is refused where no write may start (R95, R420, R623), or does its effect `g` and holds the head under a rule. -/
def State.writes (s : State) (opcode : Byte) (r : Req) (params : List Byte) (base : State → State) (rule : HoldRule) (a : Answer)
    (g : State → State) : State :=
  if s.blockUnderTest 10 then s.holds opcode r params .blockUnderTest none base
  else
    match s.writeRefusal with
    | some st => s.finishes opcode r params { status := st, effectFrame := none, results := [] } base
    | none => s.holds opcode r params rule (some a) (fun x => g (base x))

/-- STATUS OK with RESULTS, EFFECT_FRAME the first wheel slot after the reply instant (R357, R358). -/
def okWith (results : List Byte) : Answer := { status := .ok, effectFrame := none, results := results }

/-- STATUS OK with RESULTS and the EFFECT_FRAME that the opcode names (R358). -/
def okAt (frame : W32) (results : List Byte) : Answer := { status := .ok, effectFrame := some frame, results := results }

/-- A port takes frames: it is live and serves (R478, R494, R497). -/
def State.portTakes (s : State) (p : Port) : Bool := s.portLive p && s.portServes p

/-- No SYS_RESET waits for its reply to be carried (R425). -/
def State.noResetWaits (s : State) : Bool := s.carries.all (fun c => c.why ≠ .sysReset)

/-- What the header of a frame does before its kind: maps, slot collision and acknowledgements (R480, R488, R496). -/
def State.headerTaken (s : State) (h : Heard) : State := (s.hear h).readAcks h

/-- The frame came in contention and names this node (R473, R476). -/
def State.frameForNode (s : State) (h : Heard) : Bool := h.slot.isNone && h.dst == s.fab.addr && !s.unaddressed

/-! ### What an event leaves alone -/

/-- Every addressed byte of the array that the node or a tester can program: FW0, FW1, USER, the LOG, and the rest by array address (R543,
R544). -/
def ArrayS.bytes (a : ArrayS) : List (List Host.Cell) := [a.fw0.content, a.fw1.content, a.user.content, a.logCells, a.cells]

/-- The commands under which a page can be programmed: page programs themselves, JTAG, and the resets and power losses that complete the
page in progress (R546, R557, R558, R614). -/
def programsPages : Instr → Bool
  | .pageProgramComplete _ _ => true
  | .jtagArray _ => true
  | .lcTransitionExecute => true
  | .linePowerGood => true
  | .powerDownReset => true
  | .relockAttemptEnd _ => true
  | .resetNAssert => true
  | .uncorrectableWord _ => true
  | .watchdogExpiry => true
  | _ => false

/-- The events of imaging: slots, reads, checks, calibration parts, records, the lock reference. -/
def imagingEvent : Instr → Bool
  | .wheelSlotStart => true
  | .rowRead _ _ => true
  | .blankIntervalCheck _ _ => true
  | .slotEnd => true
  | .recordLeavesFork => true
  | .recordEntersDelivery => true
  | .calRampDone _ _ => true
  | .calColumnsDone _ => true
  | .calLeaseExpired => true
  | .qualityRecompute => true
  | .syncInEdge => true
  | .syncPeriodMissing => true
  | .dataFault _ _ _ _ => true
  | _ => false

/-- The updates and firings of the time base. -/
def timeEvent : Instr → Bool
  | .tbUpdate => true
  | .tcmpFire _ => true
  | .timeSetLoad => true
  | .slewAdjust => true
  | _ => false

/-- Measurements of HOLD, and supply events that reset nothing. -/
def supplyEvent : Instr → Bool
  | .holdMeasure _ _ => true
  | .pulseTest _ => true
  | .holdupDeadline => true
  | .portPresenceChange _ _ => true
  | .vauxTrip => true
  | .vauxRetry _ => true
  | .vioLost => true
  | .vioRestored => true
  | _ => false

/-- Thermal runs and throttle decisions. -/
def thermalEvent : Instr → Bool
  | .thermalModelRun _ => true
  | .throttleDecisionStopped => true
  | .throttlePauseEnd => true
  | _ => false

/-- Frames heard and sent, and the timers of the line. -/
def lineEvent : Instr → Bool
  | .ack _ => true
  | .data _ => true
  | .wake _ => true
  | .join _ => true
  | .discover _ => true
  | .lineFrameBad _ => true
  | .route _ => true
  | .routeLapse _ => true
  | .drain _ => true
  | .drainDone _ => true
  | .holdbackExpired _ _ => true
  | .fwdFrameTimeout _ => true
  | .flowStateExpiry _ _ _ _ => true
  | .dataSlotTx _ => true
  | .contentionTx _ _ => true
  | .joinRetryTimer => true
  | .slotConflictRetry => true
  | .routeAdvertTimer => true
  | .beaconTx => true
  | .beacon _ => true
  | .beaconMissed _ => true
  | .electionDelayExpired _ => true
  | .rangeReq _ _ => true
  | .rangeEcho _ => true
  | .rangeReqTimer => true
  | .swapReq _ => true
  | .swapReady _ => true
  | .swapNot _ => true
  | .swapDone _ => true
  | _ => false

/-- A step that goes on. -/
def goesOn (o : Host.Outcome State Fault Refusal) : Bool :=
  match o with
  | .next _ => true
  | _ => false

/-- The commands that can stop: a voltage beyond the absolute maximum ratings (R697). Every other one goes on in every state. -/
def withinRatings : Instr → Bool
  | .portPresenceChange _ mv => decide (mv ≤ 56000)
  | .holdMeasure mv _ => decide (mv ≤ 18000)
  | _ => true

end Sys2Proof.Machine
end

