-- ==== Sys2Proof/Certificates/Slice0/Obligations.lean ====
section
/-! DEFINITION. The statements for the provers: what a step is, the invariants and frames of the machine, what every command row and every
event does. -/

section

open Sys2Proof Sys2Proof.Machine

/-- A step takes the command at the front of the queue and runs it on the state with the queue's rest; on an empty queue the block idles, which is the
model's choice (notes/assumptions/10.md). -/
def Obligations.StepTakesFront : Prop :=
  (∀ (s : State) (c : Instr) (rest : List Instr), s.pending = c :: rest → step s = exec c { s with pending := rest }) ∧
  (∀ s : State, s.pending = [] → step s = .next s)

/-- Reset leaves every addressed store in canonical form, every queue of a polder within its bounds, no polder, the time base at 0 and the wheel stopped. -/
def Obligations.ResetState : Prop :=
  State.reset.storesWf = true ∧ State.reset.queuesWf = true ∧ (∀ p, State.reset.pol p = Polder.none) ∧ State.reset.clock.tb = Tb.zero ∧
  State.reset.wheel.turning = false ∧ State.reset.wheel.slot = none ∧ State.reset.power.seqRunning = false ∧ State.reset.pending = []

/-- Every step keeps the addressed stores (regions 0, 1 and 6, the LOG, the bytes programmed by array address, TCM) in canonical form. -/
def Obligations.StepKeepsStores : Prop :=
  ∀ s t : State, s.storesWf = true → step s = .next t → t.storesWf = true

/-- Every step keeps each polder's intake at four packets (R348), its command queue at eight (R352), its journal at 16 replies (R362) and its delivery
queue at 128 places (R370). -/
def Obligations.StepKeepsQueues : Prop :=
  ∀ s t : State, s.queuesWf = true → step s = .next t → t.queuesWf = true

/-- No step changes the unique ID or mends a fuse, and only LC_TRANSITION_EXECUTE blows MFG_DONE, RETURN or SCRAPPED (R598, R601, R603). -/
def Obligations.FusesOnlyBlow : Prop :=
  (∀ s t : State, step s = .next t → s.fuses.onlyBlows t.fuses = true) ∧
  (∀ (s t : State) (c : Instr), c ≠ .lcTransitionExecute → exec c s = .next t → t.fuses = s.fuses)

/-- Every addressed byte of the array stays as it was (R543, R546, R557, R558, R614) under every command but a page program, a JTAG access, and the resets
and power losses that complete the page in progress; a SYS_RESET that waits for its reply is such a reset (R425). -/
def Obligations.MemoryFrame : Prop :=
  ∀ (c : Instr) (s t : State), programsPages c = false → (∀ x ∈ s.carries, x.why ≠ .sysReset) → exec c s = .next t → t.arr.bytes = s.arr.bytes

/-- What imaging, the time base, the supply and the thermal model leave alone (R24, R110, R119, R295, R306, R583, R590): each group of events changes no
state but what is named, and no addressed byte. -/
def Obligations.EventFrames : Prop :=
  ∀ (c : Instr) (s t : State), exec c s = .next t →
    (imagingEvent c = true → t.arr.bytes = s.arr.bytes ∧ t.clock.tb = s.clock.tb ∧
      t = { s with arr := t.arr, bist := t.bist, clock := t.clock, cols := t.cols, dali := t.dali, freeCtr := t.freeCtr, lands := t.lands,
                   pols := t.pols, therm := t.therm, wheel := t.wheel }) ∧
    (timeEvent c = true → t.arr.bytes = s.arr.bytes ∧ t.power.doms = s.power.doms ∧
      t = { s with arr := t.arr, clock := t.clock, pols := t.pols, power := t.power, therm := t.therm, wheel := t.wheel } ∧
      t.therm = { s.therm with chargeSum := t.therm.chargeSum, chargeTicks := t.therm.chargeTicks }) ∧
    (supplyEvent c = true → t.arr.bytes = s.arr.bytes ∧ t.clock.tb = s.clock.tb ∧ t.power.doms = s.power.doms ∧
      t = { s with arr := t.arr, clock := t.clock, early := t.early, freeCtr := t.freeCtr, holdup := t.holdup, host := t.host, jtag := t.jtag,
                   lands := t.lands, life := t.life, pols := t.pols, power := t.power, wheel := t.wheel } ∧
      t.life = { s.life with cleared := t.life.cleared } ∧ t.wheel = { s.wheel with slot := t.wheel.slot }) ∧
    (thermalEvent c = true → t.arr.bytes = s.arr.bytes ∧ t.clock.tb = s.clock.tb ∧
      t = { s with arr := t.arr, clock := t.clock, pols := t.pols, therm := t.therm, wheel := t.wheel })

/-- What the line leaves alone (R306, R473, R478, R532): a frame heard or sent, or a timer of the line, changes no wheel, converter, calibration, thermal,
lifecycle or self-test state, no domain, no key agreement and no addressed byte, while no SYS_RESET waits for its reply. -/
def Obligations.LineFrame : Prop :=
  ∀ (c : Instr) (s t : State), lineEvent c = true → (∀ x ∈ s.carries, x.why ≠ .sysReset) → exec c s = .next t →
    t.arr.bytes = s.arr.bytes ∧ t.power.doms = s.power.doms ∧
    t = { s with arr := t.arr, carries := t.carries, clock := t.clock, early := t.early, fab := t.fab, freeCtr := t.freeCtr, host := t.host,
                 lands := t.lands, lineA := t.lineA, lineB := t.lineB, pols := t.pols, power := t.power }

/-- Every command within the absolute maximum ratings goes on in every state, and the two measurements beyond them stop by name (R697). -/
def Obligations.WithinRatingsGoesOn : Prop :=
  (∀ (c : Instr) (s : State), withinRatings c = true → ∃ t, exec c s = .next t) ∧
  (∀ (c : Instr) (s : State), withinRatings c = false → exec c s = .fault .outsideRatings)

/-- The canonical bytes of a charter (R430) are LEN bytes long and give every field of it back; CREATION_NO is left to the node. -/
def Obligations.CharterRoundTrip : Prop :=
  ∀ (p : PolId) (c : Charter), c.readQuota < 4294967296 → c.selection.rho < 256 → c.selection.areas.length ≤ 4 →
    (∀ a ∈ c.selection.areas, a.th < 256 ∧ a.confirm < 256 ∧ a.holdSeconds < 65536) →
    (Charter.encode p.val c).length = 102 + 38 * c.selection.areas.length ∧ (Charter.encode p.val c).head? = some (BitVec.ofNat 8 p.val) ∧
    Charter.decode (Charter.encode p.val c) = { c with creationNo := 0 }

/-- The 24 bytes of a setting set (R390, R396) give every field of it back. -/
def Obligations.SettingRoundTrip : Prop :=
  ∀ e : Expo, e.x0 < 65536 → e.w < 65536 → e.y0 < 65536 → e.h < 65536 → e.bin < 4 → e.nexp < 4 → e.phase < 4 → e.lockDiv < 256 → e.again < 256 →
    e.eL < 4294967296 → e.dM < 256 → e.dS < 256 → e.lockDelay < 4294967296 → e.aLock = 0 →
    (Expo.encode e).length = 24 ∧ Expo.decode (Expo.encode e) = e

/-- The ESN a node assigns to a received SEQ (R345): its low 16 bits are SEQ, no other such number is nearer to NEXT_ADMIT, and of two as near it is
the one behind. -/
def Obligations.NearestEsn : Prop :=
  ∀ (next : Nat) (seq : W16),
    assignEsn next seq % 65536 = seq.toNat ∧
    ∀ m : Nat, m % 65536 = seq.toNat →
      ((assignEsn next seq : Int) - next).natAbs ≤ ((m : Int) - next).natAbs ∧
      (((assignEsn next seq : Int) - next).natAbs = ((m : Int) - next).natAbs → assignEsn next seq ≤ m)

/-- What a command that finishes leaves (R345, R349 step 11, R352, R357, R358, R362, R365, R368): its polder's NEXT_ADMIT is one more, its delivery path
is the sender's, its reply is at the end of the reply queue and first of the 16 in the journal, item writes may be requested, and nothing else changes
beside the effect its opcode names. -/
def Obligations.FinishedCommandFrame : Prop :=
  ∀ (s : State) (op : Byte) (r : Req) (params : List Byte) (a : Answer), s.servesNow r = true →
    ∃ (reply : Reply) (w : List ItemWrite),
      reply.pol = r.pol ∧ reply.esn = (s.pol r.pol).nextAdmit ∧ reply.opcode = op ∧ reply.handle = r.handle ∧ reply.status = a.status ∧
      reply.results = a.results ∧ reply.effectFrame = a.effectFrame.getD s.wheel.nextFrame ∧ reply.untagged = false ∧ reply.path = r.path ∧
      reply.number = reply.esn ∧ some reply.key = s.sessionKey r.pol r.path ∧
      s.finishes op r params a id = { s with
        pols := s.pols.set r.pol { s.pol r.pol with
          nextAdmit := (s.pol r.pol).nextAdmit + 1, path := some r.path, kept := none,
          replyQ := (s.pol r.pol).replyQ ++ [reply], journal := (reply :: (s.pol r.pol).journal).take 16 },
        arr := { s.arr with writes := w } }

/-- The checks every command meets (R15, R330, R355, R356, R380, R381, R417, R419, R555, R610): the first check of its row that a command fails gives its
status, then the assembly rule, and nothing is changed but the lease of an update whose command it is (R373; notes/assumptions/52.md); a command of a DISSOLVING polder is answered POLDER_GONE and counted; an opcode no row has is BAD_OPCODE. -/
def Obligations.CommandChecks : Prop :=
  (∀ x ∈ commandRows, ∀ (s : State) (r : Req) (params : List Byte) (st : Status), s.servesNow r = true → s.rowRefusal x.2.1 x.1 r params = some st →
    exec (x.2.2 r params) s = .next (s.finishes x.1 r params { status := st, effectFrame := none, results := [] } (fun b => b.beforeChecks x.1 r))) ∧
  (∀ x ∈ commandRows, ∀ (s : State) (r : Req) (params : List Byte) (st : Status), s.servesNow r = true → s.rowRefusal x.2.1 x.1 r params = none →
    (s.assemblyCheck (s.entryOf x.1 r params)).1 = some st →
    exec (x.2.2 r params) s = .next (s.finishes x.1 r params { status := st, effectFrame := none, results := [] }
      (fun b => (b.beforeChecks x.1 r).modPol r.pol (fun q => { q with assembly := none })))) ∧
  (∀ (s : State) (e : QEntry) (a : Assembly), (s.pol e.req.pol).assembly = some a →
    (a.expired = false → a.opcode = e.opcode → a.handle = e.req.handle → (s.assemblyCheck e).1 = none) ∧
    (a.expired = false → (a.opcode ≠ e.opcode ∨ a.handle ≠ e.req.handle) → (s.assemblyCheck e).1 = some .badParam) ∧
    (a.expired = true → a.opcode = e.opcode → a.handle = e.req.handle → (s.assemblyCheck e).1 = some .leaseExpired)) ∧
  (∀ x ∈ commandRows, ∀ (s : State) (r : Req) (params : List Byte), s.power.seqRunning = true → s.power.accepting = true →
    (r.path ≠ .host ∨ s.hostPol = r.pol) → s.polderGone r.pol = false → (s.sessionKey r.pol r.path).isSome = true → s.queueClosed r.pol = false →
    (s.pol r.pol).state = .dissolving → s.sliceFree r.pol = true →
    exec (x.2.2 r params) s = .next (s.finishes x.1 r params { status := .polderGone, effectFrame := none, results := [] }
      (fun b => b.modPol r.pol (fun q => { q with gone := q.gone.map (fun g => { g with goneCount := g.goneCount + 1 }) })))) ∧
  (∀ (s : State) (e : QEntry), e.opcode ≠ 0x52 → (∀ x ∈ commandRows, x.1 ≠ e.opcode) →
    serveOpcode e.opcode e s = .done { status := if s.arr.mfg.valid then .badOpcode else .defect, effectFrame := none, results := [] } s)

/-- A page programmed by array address reads back, and every other byte of the array reads as before (R543, R544, R551, R611, R614), while the test access
port works and the holdup state is HOLDUP_OK (R46, R72, R95): in FW0 and FW1 in every state that permits ARRAY, elsewhere outside the regions and their
markers in MANUFACTURE and RETURN, where no two item copies share a page. -/
def Obligations.ArrayPageReadsBack : Prop :=
  ∀ (s : State) (addr : Nat) (bs : List Byte), s.storesWf = true → s.tapWorks = true → s.life.shadow ≠ .scrapped → s.life.shadow ≠ .field →
    s.domOn 11 = true → s.holdup.low = false → bs.length = 256 →
    (∀ c ∈ s.arr.copies, ∀ d ∈ s.arr.copies, ∀ page, c.covers page = true → d.covers page = true → c = d) →
    (addr < 0x0C0000 ∨ (0x200000 ≤ addr ∧ addr < 0x2C0000) ∨
      (s.life.shadow ≠ .commission ∧ addr < 0x400000 ∧ arrayPlace addr = none ∧ markerPlace addr = none)) →
    ∃ t, exec (.jtagArray (.programPage addr bs)) s = .next t ∧
      ∀ x : Nat, t.arrayByte x = if addr / 256 = x / 256 then bs.getD (x % 256) 0 else s.arrayByte x

/-- TIME_GET, TIME_SET, TIME_SLEW and TCMP_ARM (R385 to R389): the results, the refusals in their order, and the effect of each on every
state that serves it. -/
def Obligations.TimeCommands : Prop :=
  (∀ (s : State) (r : Req) (params : List Byte), s.runs 0x20 r params = true →
    exec (.timeGet r params) s = .next (s.finishes 0x20 r params (okWith
      (if r.pol = owner then
        s.clock.tb.bytes ++ leBytes 4 (wordOf 32 s.slewRemain) ++ leBytes 1 (s.clock.slew.elim 0 Slew.rate) ++ leBytes 1 s.syncCode
       else s.clock.tb.bytes ++ leBytes 6 0)) id)) ∧
  (∀ (s : State) (r : Req) (params : List Byte), s.runs 0x21 r params = true →
    exec (.timeSet r params) s = .next (
      if s.tenantExists || (s.fab.synced && s.fab.role != 2) || s.slewImposed then s.refuses 0x21 r params .notPermitted
      else if 399999999 < bits (field params 0 8) 28 0 then s.refuses 0x21 r params .badParam
      else s.holds 0x21 r params .timeSetLoad none
        (fun a => { a with clock := { a.clock with staged := some (Tb.ofWord (field params 0 8)) } }))) ∧
  (∀ (s : State) (r : Req) (params : List Byte), s.runs 0x22 r params = true →
    let offset := signedOf 32 (field params 0 4)
    let rate := (byteAt params 4).toNat
    let begun : Slew := { advance := decide (0 < offset), remain := offset.natAbs, rate := rate, elapsed := 0, k := 1, imposed := false }
    exec (.timeSlew r params) s = .next (
      if s.fab.synced && s.fab.role != 2 then s.refuses 0x22 r params .notPermitted
      else if offset = -2147483648 ∨ rate < 1 ∨ 100 < rate then s.refuses 0x22 r params .badParam
      else s.finishes 0x22 r params (okWith (leBytes 4 (wordOf 32 s.slewRemain) ++ leBytes 8 (offset.natAbs * (1000000 / rate))))
        (fun a => { a with clock := { a.clock with slew := if offset = 0 then none else some begun } }))) ∧
  (∀ (s : State) (r : Req) (params : List Byte), s.runs 0x23 r params = true →
    let ch := (byteAt params 0).toNat
    let read := bit (byteAt params 1).toNat 0
    let period := field params 12 4
    let c := s.clock.tcmp[Fin.ofNat 16 ch]
    exec (.tcmpArm r params) s = .next (
      if read != (params.length == 4) then s.refuses 0x23 r params .badLength
      else if ch ≠ 2 * r.pol.val ∧ ch ≠ 2 * r.pol.val + 1 then s.refuses 0x23 r params .notPermitted
      else if read then s.finishes 0x23 r params (okWith c.descriptor) id
      else if bit (byteAt params 16).toNat 1 && decide (1 < ch) then s.refuses 0x23 r params .notPermitted
      else if 399999999 < bits (field params 4 4) 28 0 ∨ (1 ≤ period ∧ period < 400000) then s.refuses 0x23 r params .badParam
      else s.finishes 0x23 r params (okWith (c.arming params).descriptor)
        (fun a => a.modTcmp (Fin.ofNat 16 ch) (fun _ => c.arming params))))

/-- EXPO_GET, TRIG_READ, SYNC_GET and WHEEL_GET (R390, R396, R399, R400, R402) answer the sender's settings, its trigger counters, the lock
sources and the wheel. -/
def Obligations.ExposureReads : Prop :=
  (∀ (s : State) (r : Req) (params : List Byte), s.runs 0x31 r params = true →
    let q := s.pol r.pol
    let held := q.shadow.getD q.expo
    let pending := held.encode != q.expo.encode
    exec (.expoGet r params) s = .next (s.finishes 0x31 r params (okWith
      (q.expo.encode ++ held.encode ++ leBytes 1 (b2n pending) ++ leBytes 4 (if pending then (s.shadowAt r.pol).toNat else 0))) id)) ∧
  (∀ (s : State) (r : Req) (params : List Byte), s.runs 0x33 r params = true →
    let q := s.pol r.pol
    exec (.trigRead r params) s = .next (s.finishes 0x33 r params (okWith
      (leBytes 2 q.trigOverrun ++ leBytes 2 q.trigDropped ++
        leBytes 4 (b2n q.trigPending.isSome + 2 * q.trigPending.elim 0 (fun t => t.src.code))))
      (fun a => if bit (byteAt params 0).toNat 0 then a.modPol r.pol (fun x => { x with trigOverrun := 0, trigDropped := 0 }) else a))) ∧
  (∀ (s : State) (r : Req) (params : List Byte), s.runs 0x34 r params = true →
    let y := s.lands.sync
    let b := s.lands.beaconPhase
    exec (.syncGet r params) s = .next (s.finishes 0x34 r params (okWith
      (leBytes 1 (if y.lost then 2 else if y.validPeriod = 0 then 0 else 1) ++
        leBytes 1 (if b.valid then 1 else if b.everValid then 2 else 0) ++ leBytes 2 0 ++
        leBytes 4 y.validPeriod ++ y.validEdge.bytes ++ leBytes 4 b.period)) id)) ∧
  (∀ (s : State) (r : Req) (params : List Byte), s.runs 0x36 r params = true →
    exec (.wheelGet r params) s = .next (s.finishes 0x36 r params (okWith
      (leBytes 1 (b2n s.wheel.turning) ++ leBytes 1 0 ++
        leBytes 2 (if s.wheel.turning then s.heldSlots r.pol else s.slotsAt r.pol s.wheel.nextFrame).toNat ++
        leBytes 4 (s.wheel.nextFrame - 1).toNat ++ leBytes 4 s.wheel.period ++ leBytes 4 (s.wheel.periodNext.getD 0) ++
        (if s.wheel.turning then s.wheel.slotTb else Tb.zero).bytes)) id))

/-- EXPO_SET (R188, R189, R391 to R395): the checks in their order, the results of an accepted set and of one that does not fit, and the whole
shadow replaced. -/
def Obligations.ExposureSet : Prop :=
  ∀ (s : State) (r : Req) (params : List Byte), s.runs 0x30 r params = true →
    let asked := Expo.decode params
    let set := s.withLock asked
    exec (.expoSet r params) s = .next (
      if expoRangesOk params = false ∨ asked.windowOk = false ∨ asked.orderOk = false then s.refuses 0x30 r params .badParam
      else if asked.srcTrigIn = true ∧ s.bindHolder 1 ≠ r.pol then s.refuses 0x30 r params .notPermitted
      else if s.lockReady asked.lock = false then s.refuses 0x30 r params .notReady
      else if asked.lock ≠ .none ∧ s.lockPeriod asked < asked.lockDelay + 16 then s.refuses 0x30 r params .badParam
      else if s.expoPlaced r.pol set = false then
        s.finishes 0x30 r params { status := .noResource, effectFrame := none, results := s.expoResults set } id
      else s.finishes 0x30 r params (okAt (s.settingFrame r.pol) (s.expoResults set))
        (fun a => a.modPol r.pol (fun q => { q with shadow := some set, shadowFrame := s.settingFrame r.pol })))

/-- TRIG_FIRE, MOTION_REBASE and PERIOD_SET (R193 to R196, R397, R398, R401, R408): a COMMAND trigger with its outcome, the first STATS frame of a slot that has not begun as a
MOTION_INIT frame, and a frame period that waits for its commit and the next revolution. -/
def Obligations.ExposureActions : Prop :=
  (∀ (s : State) (r : Req) (params : List Byte), s.runs 0x32 r params = true →
    let word : Nat → W32 → List Byte := fun o f => leBytes 1 o ++ leBytes 3 0 ++ leBytes 4 f.toNat
    let q := s.pol r.pol
    exec (.trigFire r params) s = .next (
      if s.wheel.turning = false ∨ q.expo.triggered = false ∨ q.expo.srcCommand = false then
        s.finishes 0x32 r params (okWith (word 3 0)) (fun a => a.modPol r.pol (fun x => { x with trigDropped := sat16 x.trigDropped }))
      else if s.windowOpen r.pol then
        s.finishes 0x32 r params (okAt (s.wheel.nextFrame - 1) (word 0 (s.wheel.nextFrame - 1)))
          (fun a => { a with wheel := { a.wheel with slot := a.wheel.slot.map (fun x =>
            { x with trig := some { src := .command, at_ := a.clock.elapsed } }) } })
      else if q.trigPending = none then
        s.finishes 0x32 r params (okAt (s.nextSlotOf r.pol) (word 1 (s.nextSlotOf r.pol)))
          (fun a => a.modPol r.pol (fun x => { x with trigPending := some { src := .command, at_ := a.clock.elapsed } }))
      else
        s.finishes 0x32 r params (okWith (word 2 0)) (fun a => a.modPol r.pol (fun x => { x with trigOverrun := sat16 x.trigOverrun })))) ∧
  (∀ (s : State) (r : Req) (params : List Byte), s.runs 0x43 r params = true →
    exec (.motionRebase r params) s = .next (s.finishes 0x43 r params (okAt (s.nextSlotOf r.pol) [])
      (fun a => a.modPol r.pol (fun q => { q with initFrom := q.initFrom ++ [a.wheel.nextFrame] })))) ∧
  (∀ (s : State) (r : Req) (params : List Byte), s.runs 0x35 r params = true →
    let v := field params 0 4
    let q := s.pol owner
    exec (.periodSet r params) s = .next (
      if s.arr.fabric.periodFabric || s.tenantExists then s.refuses 0x35 r params .notPermitted
      else if v < 2000000 ∨ 400000000 < v ∨ v % 16 ≠ 0 then s.refuses 0x35 r params .badParam
      else if q.expo.fits v = false ∨ (q.shadow.getD q.expo).fits v = false then s.refuses 0x35 r params .noResource
      else s.writes 0x35 r params id (.itemCommit 0x11) (okAt s.nextRevolution (leBytes 4 s.wheel.period))
        (fun a => ({ a with wheel := { a.wheel with periodNext := some v } }).requestItem owner (.wheel { a.wheelWanted with period := v }))))

/-- STAT_GET, OCC_GET and STAT_SELECT (R300, R403 to R407): the selection and its maps, the occupancy machines as last evaluated, and a
selection assembled part by part, committed with its last part. -/
def Obligations.StatisticsCommands : Prop :=
  (∀ (s : State) (r : Req) (params : List Byte), s.runs 0x41 r params = true →
    let part := (byteAt params 0).toNat
    let c := (s.pol r.pol).charter
    exec (.statGet r params) s = .next (
      if part = 0 then s.finishes 0x41 r params
        (okWith (c.selection.head ++ leBytes 2 (zoneCount c.zoneMask) ++ leBytes 2 (c.selection.statsLen (zoneCount c.zoneMask)))) id
      else if part = 1 then s.finishes 0x41 r params (okWith (leBytes 1 1 ++ leBytes 1 0 ++ zoneBytes c.zoneMask)) id
      else match c.selection.areas[part - 2]? with
        | some a => s.finishes 0x41 r params (okWith (leBytes 1 part ++ leBytes 1 0 ++ zoneBytes a.zones)) id
        | none => s.refuses 0x41 r params .badParam)) ∧
  (∀ (s : State) (r : Req) (params : List Byte), s.runs 0x42 r params = true →
    let q := s.pol r.pol
    exec (.occGet r params) s = .next (s.finishes 0x42 r params
      (okWith (leBytes 4 (q.lastEval.elim 0 (fun x => x.1.toNat)) ++ occSection q.charter.selection q.occ)) id)) ∧
  (∀ (s : State) (r : Req) (params : List Byte), s.runs 0x40 r params = true →
    let parts := s.parts owner
    let c := (s.pol owner).nextCharter
    let e := s.entryOf 0x40 r params
    let gone : State → State := fun a => a.modPol owner (fun q => { q with assembly := none })
    let chosen := selectionOf ((parts ++ [params]).headD []) (((parts ++ [params]).drop 1).map areaPartMap)
    exec (.statSelect r params) s = .next (
      if s.tenantExists then s.finishes 0x40 r params { status := .notPermitted, effectFrame := none, results := [] } gone
      else if statPartOk parts c.zoneMask e = false then
        s.finishes 0x40 r params { status := .badParam, effectFrame := none, results := [] } gone
      else if r.more then s.finishes 0x40 r params (okWith []) (fun a => a.modPol owner (fun q => { q with assembly := some (openPart e q) }))
      else s.writes 0x40 r params gone (.itemCommit 0x30)
        (okAt (nextFrameOf c.slots s.nextRevolution) (leBytes 2 (zoneCount c.zoneMask) ++ leBytes 2 (chosen.statsLen (zoneCount c.zoneMask))))
        (fun a =>
          let b := a.modPol owner (fun q => { q with charterNext := some { c with selection := chosen } })
          b.requestItem owner (.stored owner (some (b.storedNow owner))))))

/-- COL_GET, DEFECT_GET, TRIM_GET and CAL_READ (R240, R268, R269, R411, R413 to R415). -/
def Obligations.CalibrationReads : Prop :=
  (∀ (s : State) (r : Req) (params : List Byte), s.runs 0x84 r params = true →
    exec (.colGet r params) s = .next (
      if (byteAt params 0).toNat = 0 then s.finishes 0x84 r params (okWith ((s.cols.groups.take 16).map Group.word).flatten) id
      else if (byteAt params 0).toNat = 1 then
        s.finishes 0x84 r params (okWith (((s.cols.groups.drop 16).take 16).map Group.word).flatten) id
      else s.refuses 0x84 r params .badParam)) ∧
  (∀ (s : State) (r : Req) (params : List Byte), s.runs 0x85 r params = true →
    let listed := (s.cols.defectMap.drop (byteAt params 0).toNat).take 12
    exec (.defectGet r params) s = .next (
      if 63 < (byteAt params 0).toNat then s.refuses 0x85 r params .badParam
      else s.finishes 0x85 r params (okWith (leBytes 1 s.cols.defectMap.length ++
        leBytes 1 (min 12 (s.cols.defectMap.length - (byteAt params 0).toNat)) ++ leBytes 2 0 ++
        (listed.map (fun d => leBytes 2 d.column ++ leBytes 1 d.cause ++ leBytes 1 0 ++ leBytes 4 d.frame.toNat)).flatten)) id)) ∧
  (∀ (s : State) (r : Req) (params : List Byte), s.runs 0x86 r params = true →
    let first := field params 0 2
    let count := (byteAt params 2).toNat
    exec (.trimGet r params) s = .next (
      if count < 1 ∨ 48 < count ∨ 1632 < first + count then s.refuses 0x86 r params .badParam
      else s.finishes 0x86 r params (okWith (leBytes 2 first ++ leBytes 1 count ++ leBytes 1 0 ++
        (((s.cols.trims.drop first).take count).map
          (fun t => leBytes 1 (wordOf 8 t.offset) ++ leBytes 1 (wordOf 8 t.gain))).flatten)) id)) ∧
  (∀ (s : State) (r : Req) (params : List Byte), s.runs 0x82 r params = true →
    let k := s.cols.counters
    exec (.calRead r params) s = .next (
      match (byteAt params 0).toNat with
      | 0 => s.finishes 0x82 r params (okWith s.cols.quality.bytes) id
      | 1 => s.finishes 0x82 r params (okWith (leBytes 2 k.bgDone ++ leBytes 2 k.bgReject ++ leBytes 2 k.bgSkipped ++
          leBytes 2 k.spareDone ++ leBytes 2 k.spareReject ++ leBytes 2 k.rampDone ++ leBytes 2 k.rampReject)) id
      | 2 => s.finishes 0x82 r params (okWith (leBytes 2 s.scheduleShown.1 ++ leBytes 1 s.scheduleShown.2.1 ++ leBytes 1 0 ++
          leBytes 4 s.scheduleShown.2.2.toNat)) id
      | 3 => s.finishes 0x82 r params (okWith (leBytes 2 (wordOf 16 s.cols.slopeA) ++ leBytes 2 (wordOf 16 s.cols.slopeB))) id
      | _ => s.refuses 0x82 r params .badParam))

/-- CAL_RUN, CAL_SCHEDULE and CAL_CLEAR (R260 to R262, R409, R410, R412). -/
def Obligations.CalibrationActions : Prop :=
  (∀ (s : State) (r : Req) (params : List Byte), s.runs 0x80 r params = true →
    let f := s.nextSlotOf owner
    let run : CalParts := { ramp := bit (byteAt params 0).toNat 0, columns := bit (byteAt params 0).toNat 1 }
    exec (.calRun r params) s = .next (
      if s.wheel.turning = false then s.refuses 0x80 r params .notReady
      else if s.cols.calRun.isSome then s.refuses 0x80 r params .busy
      else if bits (byteAt params 0).toNat 1 0 = 0 then s.refuses 0x80 r params .badParam
      else s.finishes 0x80 r params
        { status := .accepted, effectFrame := some f, results := leBytes 4 f.toNat ++ leBytes 1 (b2n (s.rampDue f)) }
        (fun a => { a with cols := { a.cols with calFrame := f, calStarted := false, calRun := some run } }))) ∧
  (∀ (s : State) (r : Req) (params : List Byte), s.runs 0x81 r params = true →
    let interval := field params 0 2
    let slot := (byteAt params 2).toNat
    exec (.calSchedule r params) s = .next (
      if (1 ≤ interval ∧ interval ≤ 15) ∨ (16 ≤ slot ∧ slot ≤ 254) ∨
          (slot < 16 ∧ (s.pol owner).nextCharter.slots.toNat.testBit slot = false) then s.refuses 0x81 r params .badParam
      else s.writes 0x81 r params id (.itemCommit 0x11) (okWith (leBytes 4 (s.nextDue interval slot s.nextRevolution).toNat))
        (fun a => ({ a with cols := { a.cols with scheduleNext := some (interval, slot) } }).requestItem owner
          (.wheel { a.wheelWanted with rampInterval := interval, rampSlot := slot })))) ∧
  (∀ (s : State) (r : Req) (params : List Byte), s.runs 0x83 r params = true →
    let zero : CalCounters :=
      { bgDone := 0, bgReject := 0, bgSkipped := 0, spareDone := 0, spareReject := 0, rampDone := 0, rampReject := 0 }
    exec (.calClear r params) s =
      .next (s.finishes 0x83 r params (okWith []) (fun a => { a with cols := { a.cols with counters := zero } })))

/-- SYS_INFO, SYS_COUNTERS, ATTEST_GET and SYS_RESET (R422 to R425): the reset waits until its reply has been carried. -/
def Obligations.SystemCommands : Prop :=
  (∀ (s : State) (r : Req) (params : List Byte), s.runs 0x00 r params = true →
    exec (.sysInfo r params) s = .next (s.finishes 0x00 r params (okWith (leBytes 2 0x1612 ++
      leBytes 4 (if s.arr.running = 0 then s.arr.fw0.version else s.arr.fw1.version).toNat ++ leBytes 1 s.arr.running.val ++
      leBytes 1 s.life.shadow.code ++ leBytes 8 s.life.uid.toNat)) id)) ∧
  (∀ (s : State) (r : Req) (params : List Byte), s.runs 0x01 r params = true →
    let c := (s.pol r.pol).cnt
    let zero : PolCounters := { intakeDrop := 0, authFail := 0, seqGap := 0, queueFull := 0, retryQueued := 0, dupServed := 0, dlvSpill := 0 }
    exec (.sysCounters r params) s = .next (s.finishes 0x01 r params (okWith (leBytes 2 c.intakeDrop ++ leBytes 2 c.authFail ++
      leBytes 2 c.seqGap ++ leBytes 2 c.queueFull ++ leBytes 2 c.retryQueued ++ leBytes 2 c.dupServed ++ leBytes 2 c.dlvSpill))
      (fun a => if bit (byteAt params 0).toNat 0 then a.modPol r.pol (fun q => { q with cnt := zero }) else a))) ∧
  (∀ (s : State) (r : Req) (params : List Byte), s.runs 0x02 r params = true →
    let cert := padTo 144 s.arr.mfg.certificate
    exec (.attestGet r params) s = .next (
      if (byteAt params 0).toNat = 0 then
        s.finishes 0x02 r params (okWith (leBytes 1 0 ++ leBytes 1 80 ++ leBytes 2 0 ++ cert.take 80)) id
      else if (byteAt params 0).toNat = 1 then
        s.finishes 0x02 r params (okWith (leBytes 1 1 ++ leBytes 1 64 ++ leBytes 2 0 ++ (cert.drop 80).take 64)) id
      else s.refuses 0x02 r params .badParam)) ∧
  (∀ (s : State) (r : Req) (params : List Byte), s.runs 0x03 r params = true →
    exec (.sysReset r params) s = .next (
      if field params 0 4 ≠ s.life.uid.toNat % 2 ^ 32 then s.refuses 0x03 r params .badParam
      else if s.arr.updates ≠ [] ∨ s.cols.calRun.isSome = true ∨ s.ka.isSome = true ∨ s.bist.job.isSome = true then
        s.refuses 0x03 r params .busy
      else s.finishes 0x03 r params (okWith [])
        (fun a => { a with carries := a.carries ++ [{ why := .sysReset, esn := (s.pol r.pol).nextAdmit, carried := false }] })))

/-- PWR_GET, REFUSAL_READ, REFUSAL_CLEAR and PSTATE_SET (R152, R153, R167, R169, R427 to R429, R621). -/
def Obligations.PowerReadsAndPoints : Prop :=
  (∀ (s : State) (r : Req) (params : List Byte), s.runs 0x12 r params = true →
    let p := s.power
    exec (.pwrGet r params) s = .next (s.finishes 0x12 r params (okWith (leBytes 4 (stateWord p.doms) ++ leBytes 1 (pointsByte p.points) ++
      leBytes 1 p.wakeEn.toNat ++ leBytes 2 p.wakeSet.toNat ++ leBytes 1 p.portMode.code ++ leBytes 1 (b2n s.holdup.low) ++
      leBytes 2 s.holdup.lastMv ++ leBytes 1 s.holdup.lastReason)) id)) ∧
  (∀ (s : State) (r : Req) (params : List Byte), s.runs 0x13 r params = true →
    let l := s.power.refusalLog
    let page : Nat → Nat → Answer := fun from_ n => okWith (leBytes 1 l.length ++ leBytes 3 0 ++
      padTo (16 * n) (((l.drop from_).take n).map RefusalEntry.bytes).flatten)
    exec (.refusalRead r params) s = .next (
      match (byteAt params 0).toNat with
      | 0 => s.finishes 0x13 r params (okWith (leBytes 1 l.length ++ leBytes 3 0 ++ (s.power.refusals.toList.map (leBytes 2)).flatten)) id
      | 1 => s.finishes 0x13 r params (page 0 6) id
      | 2 => s.finishes 0x13 r params (page 6 6) id
      | 3 => s.finishes 0x13 r params (page 12 4) id
      | _ => s.refuses 0x13 r params .badParam)) ∧
  (∀ (s : State) (r : Req) (params : List Byte), s.runs 0x14 r params = true →
    exec (.refusalClear r params) s = .next (s.finishes 0x14 r params (okWith [])
      (fun a => { a with power := { a.power with refusals := Vector.replicate 12 0, refusalLog := [] } }))) ∧
  (∀ (s : State) (r : Req) (params : List Byte), s.runs 0x11 r params = true →
    let b := (byteAt params 0).toNat
    let slower : Nat → Bool := fun i => pointAsked b i == some 1 || pointAsked b i == some 2
    let x := s.power.changePoints [0, 1, 2, 3] b
    exec (.pstateSet r params) s = .next (
      if s.wheel.turning = true ∧ (slower 0 || slower 1 || slower 3) = true then s.refuses 0x11 r params .notPermitted
      else if [0, 1, 2, 3].any (fun i => slower i && s.bistNamesPoint i) then s.refuses 0x11 r params .busy
      else if x.2 then s.finishes 0x11 r params (okWith (leBytes 1 (pointsByte x.1.points))) (fun a => { a with power := x.1 })
      else s.holds 0x11 r params .pointChange none (fun a => { a with power := x.1 })))

/-- PWR_SET (R137, R141 to R147, R426): the checks, then nothing to do, a raise, an entry, or a raise with the entry after it. -/
def Obligations.PowerSet : Prop :=
  ∀ (s : State) (r : Req) (params : List Byte), s.runs 0x10 r params = true →
    let asked := field params 0 4
    let set := field params 4 2
    let enable := (byteAt params 6).toNat
    let target := requestedConfig asked s.power.doms
    let up := raises s.power.doms target
    let down := lowers s.power.doms target
    let reached : Answer := okWith (leBytes 4 (stateWord target) ++ leBytes 3 0)
    let begun : Entry :=
      { target := target, step := 1, lowered := 0, oldWakeSet := s.power.wakeSet, oldWakeEn := s.power.wakeEn,
        esn := (s.pol r.pol).nextAdmit, stoppedWheel := false, finalPassed := false }
    let armed : State → State := fun a =>
      { a with power := { a.power with wakeSet := BitVec.ofNat 16 set, wakeEn := BitVec.ofNat 5 enable, entryRef := a.clock.elapsed } }
    let replied : Serving := { entry := s.entryOf 0x10 r params, rule := .powerChange, answer := some reached, ready := true, replied := true }
    let raised : State → Power := fun a => (if raisesSensor s.power.doms target then (armed a).power.sensorPoints else (armed a).power).beginReturn
      (domMap up) .raise
    exec (.pwrSet r params) s = .next (
      match s.pwrRefusal asked set enable with
      | some st => s.refuses 0x10 r params st
      | none =>
        if s.power.ret.isSome = true ∨ s.power.entry.isSome = true then s.holds 0x10 r params .powerIdle none id
        else if up = [] ∧ down = [] then s.finishes 0x10 r params reached armed
        else if down = [] then
          (s.finishes 0x10 r params reached (fun a => { armed a with power := raised a })).modPol r.pol (fun q =>
            { q with serving := some replied })
        else if up = [] then s.holds 0x10 r params .powerChange none (fun a => (armed a).beginEntry begun)
        else s.holds 0x10 r params .powerChange none (fun a => { armed a with power := { raised a with pendingEntry := some begun } }))

/-- POLD_STATUS, POLD_CHARTER and POLD_OFFER (R335, R430, R434, R435, R439): the status word, 100 bytes of the charter's part
(notes/assumptions/14.md), and the two parts of the OFFER. -/
def Obligations.PolderReads : Prop :=
  (∀ (s : State) (r : Req) (params : List Byte), s.runs 0x54 r params = true →
    let n := (byteAt params 0).toNat
    let q := s.pol (Fin.ofNat 8 n)
    exec (.poldStatus r params) s = .next (
      if r.pol ≠ owner ∧ n ≠ r.pol.val then s.refuses 0x54 r params .notPermitted
      else if 7 < n then s.refuses 0x54 r params .badParam
      else if q.state = .absent then s.finishes 0x54 r params (okWith (leBytes 16 0)) id
      else s.finishes 0x54 r params (okWith (leBytes 1 q.state.code ++ leBytes 1 q.charter.bind.toNat ++ leBytes 2 q.charter.slots.toNat ++
        leBytes 4 (zoneCount q.charter.zoneMask) ++ leBytes 4 (if n = 0 then s.wheel.period else q.charter.readQuota) ++
        leBytes 4 q.charter.creationNo.toNat)) id)) ∧
  (∀ (s : State) (r : Req) (params : List Byte), s.runs 0x55 r params = true →
    let n := (byteAt params 0).toNat
    let part := (byteAt params 1).toNat
    let q := s.pol (Fin.ofNat 8 n)
    exec (.poldCharter r params) s = .next (
      if r.pol ≠ owner ∧ n ≠ r.pol.val then s.refuses 0x55 r params .notPermitted
      else if 7 < n ∨ q.state = .absent ∨ q.charter.len ≤ 104 * part then s.refuses 0x55 r params .badParam
      else s.finishes 0x55 r params
        (okWith (leBytes 2 q.charter.len ++ leBytes 2 0 ++ ((Charter.encode n q.charter).drop (104 * part)).take 100)) id)) ∧
  (∀ (s : State) (r : Req) (params : List Byte), s.runs 0x51 r params = true →
    let n := (byteAt params 0).toNat
    let part := (byteAt params 1).toNat
    exec (.poldOffer r params) s = .next (
      if s.claimant r.pol = true ∧ n ≠ 0 then s.refuses 0x51 r params .notPermitted
      else match s.ka with
        | none => s.refuses 0x51 r params .badParam
        | some k =>
          let offer := offerSigned s.life.uid k ++ k.signature
          if 1 < part ∨ n ≠ k.pol.val then s.refuses 0x51 r params .badParam
          else if k.offered = false then s.refuses 0x51 r params .notReady
          else if part = 0 then s.finishes 0x51 r params
            (okWith (leBytes 1 0 ++ leBytes 1 (offer.take 100).length ++ leBytes 2 0 ++ offer.take 100)) id
          else s.finishes 0x51 r params (okWith (leBytes 1 1 ++ leBytes 1 (offer.drop 100).length ++ leBytes 2 0 ++ offer.drop 100)) id))

/-- POLD_CREATE and POLD_DISSOLVE (R323, R324, R327, R329, R330, R431, R432, R438): a charter assembled part by part, a tenant CHARTERED with its key
agreement started, and a polder dissolved at the next revolution boundary or discarded. -/
def Obligations.PolderCreateAndDissolve : Prop :=
  (∀ (s : State) (r : Req) (params : List Byte), s.runs 0x50 r params = true →
    let e := s.entryOf 0x50 r params
    let gone : State → State := fun a => a.modPol owner (fun q => { q with assembly := none })
    let bad : Answer := { status := .badParam, effectFrame := none, results := [] }
    createPartOk (s.parts owner) e = false ∨ r.more = true →
    exec (.poldCreate r params) s = .next (
      if createPartOk (s.parts owner) e = false then s.finishes 0x50 r params bad gone
      else s.finishes 0x50 r params (okWith []) (fun a => a.modPol owner (fun q => { q with assembly := some (openPart e q) })))) ∧
  (∀ (s : State) (r : Req) (params : List Byte) (p : PolId), s.runs 0x50 r params = true →
    let bytes := ((s.parts owner ++ [params]).map (fun x => x.drop 4)).flatten
    let gone : State → State := fun a => a.modPol owner (fun q => { q with assembly := none })
    let c : Charter := { Charter.decode bytes with creationNo := s.creationNow + 1 }
    createPartOk (s.parts owner) (s.entryOf 0x50 r params) = true → r.more = false → bytes.length = 102 + 38 * (byteAt bytes 85).toNat →
    (byteAt bytes 0).toNat = p.val → p ≠ owner → s.ownerActive = true → s.life.shadow = .field →
    exec (.poldCreate r params) s = .next (
      match s.createRefusal bytes with
      | some st => s.finishes 0x50 r params { status := st, effectFrame := none, results := [] } gone
      | none => s.writes 0x50 r params gone (.itemCommit (0x30 + p.val))
          { status := .accepted, effectFrame := none, results := leBytes 1 p.val ++ leBytes 3 0 ++ leBytes 4 c.creationNo.toNat ++
                charterDigest p.val c }
          (fun a =>
            let b := (a.requestItem owner (.node c.creationNo)).modPol p (fun q => { q.emptied with state := .chartered, charter := c })
            (({ b with ka := some (newAgreement p c) }).storePolder p).rebindFrom
              a.hostPol))) ∧
  (∀ (s : State) (r : Req) (params : List Byte), s.runs 0x53 r params = true →
    let n := (byteAt params 0).toNat
    let p : PolId := Fin.ofNat 8 n
    exec (.poldDissolve r params) s = .next (
      if r.pol ≠ owner ∧ n ≠ r.pol.val then s.refuses 0x53 r params .notPermitted
      else if n = 0 ∨ 7 < n ∨ (s.pol p).state = .absent then s.refuses 0x53 r params .badParam
      else match (s.pol p).gone with
        | some g =>
          match s.writeRefusal with
          | some st => s.refuses 0x53 r params st
          | none => s.finishes 0x53 r params (okWith (leBytes 4 g.boundary.toNat)) id
        | none =>
          if (s.pol p).state = .chartered then
            s.writes 0x53 r params id (.itemCommit (0x30 + n)) (okWith (leBytes 4 0)) (fun a => a.abandonAgreement 2)
          else s.writes 0x53 r params id (.itemCommit (0x30 + n)) (okWith (leBytes 4 s.nextRevolution.toNat))
            (fun a => a.dissolve p (if r.pol = owner then 1 else 2))))

/-- POLD_ANSWER (R321, R325, R328, R341, R349, R351, R416, R436, R437): parts 0 and 1 are held without a reply, and part 2 of a tenant's ANSWER whose
identity key hashes to ID_HASH, whose signature verifies and whose Q_T is a point gives the tenant its key, ends the key agreement and answers the CONFIRM
under the new key. -/
def Obligations.AnswerCompletes : Prop :=
  ∀ (s : State) (r : Req) (params : List Byte), s.power.seqRunning = true → s.power.accepting = true →
    (r.path ≠ .host ∨ s.hostPol = r.pol) → s.takesAnswer r.pol = true → s.sliceFree r.pol = true → params.length = 66 →
    byteAt params 1 = 0 → r.handle ≠ 0 →
    (byteAt params 0 = 0 → r.more = true → (s.pol r.pol).answerHold = none →
      exec (.poldAnswer r params) s = .next (s.modPol r.pol (fun q =>
        { q with answerHold := some { handle := r.handle, qT := (params.drop 2).take 64, identity := none } }))) ∧
    (∀ h, byteAt params 0 = 1 → r.more = true → (s.pol r.pol).answerHold = some h → h.identity = none → h.handle = r.handle →
      exec (.poldAnswer r params) s = .next (s.modPol r.pol (fun q =>
        { q with answerHold := some { h with identity := some ((params.drop 2).take 64) } }))) ∧
    (∀ h identity k identityKey point, byteAt params 0 = 2 → r.more = false → (s.pol r.pol).answerHold = some h → h.identity = some identity →
      h.handle = r.handle → s.ka = some k → k.pol = r.pol → r.pol ≠ owner → k.offered = true → (s.pol r.pol).kept = none →
      (s.pol r.pol).state = .chartered → pointOf identity = some identityKey → sha256Word (4 :: identity) = k.charter.idHash →
      ecdsaOk identityKey (h.qT ++ offerBytes s.life.uid k) ((params.drop 2).take 64) = true → pointOf h.qT = some point →
      let key := BitVec.ofNat 128 (leNat (hkdf16 (ecdhX k.dE point) (charterDigest k.pol.val k.charter)
        (leBytes 8 s.life.uid.toNat ++ leBytes 1 k.pol.val)))
      let first := BitVec.ofNat 32 (s.nextRevolution.toNat + lowestSlot k.charter.slots)
      let confirm : Reply := confirmReply k key r first
      ∃ t, exec (.poldAnswer r params) s = .next t ∧ t.ka = none ∧
        t.pol r.pol = { (s.pol r.pol).emptied with
          state := .active, key := key, charter := k.charter, path := some r.path, sR := 65536,
          expo := Expo.defaults (s.periods.foldl min s.wheel.period), replyQ := (s.pol r.pol).replyQ ++ [confirm],
          kept := some { part2 := answerPacket r params, confirm := confirm } } ∧
        (∀ q, q ≠ r.pol → q ≠ owner → t.pol q = s.pol q) ∧
        t = { s with pols := t.pols, ka := none, arr := t.arr, dali := t.dali, clock := t.clock })

/-- FAB_READ, FAB_ROUTES, ARR_READ and ARR_INFO (R441, R447, R455, R456): the fabric words and port counters, the routes, bytes of the LOG and of
the committed USER region, and the state of the images. The fabric reeve's address, where no rule tells it, is a free value. -/
def Obligations.FabricAndArrayReads : Prop :=
  (∀ (s : State) (r : Req) (params : List Byte), s.runs 0x60 r params = true →
    exec (.fabRead r params) s = .next (
      match (byteAt params 0).toNat with
      | 0 => s.finishes 0x60 r params (okWith (leBytes 2 s.fab.addr.toNat ++ leBytes 1 s.fab.role.val ++ leBytes 1 s.fab.rank.toNat ++
          leBytes 1 s.power.portMode.code ++ leBytes 1 (if s.fab.role = 2 then 0 else s.fab.hops.toNat) ++ leBytes 2 s.reeveAddress ++
          leBytes 1 s.fab.keyId.toNat ++ leBytes 1 (b2n s.arr.fabric.periodFabric) ++ leBytes 4 s.fabricWanted.fabPeriod))
          (fun a => { a with freeCtr := a.freeCtr + 1 })
      | 1 => s.finishes 0x60 r params (okWith (s.lineA.counters.toList.map (leBytes 2)).flatten) id
      | 2 => s.finishes 0x60 r params (okWith (s.lineB.counters.toList.map (leBytes 2)).flatten) id
      | _ => s.refuses 0x60 r params .badParam)) ∧
  (∀ (s : State) (r : Req) (params : List Byte), s.runs 0x65 r params = true →
    let start := (byteAt params 0).toNat
    let table := if s.power.portMode = .tap then [] else s.fab.routes
    exec (.fabRoutes r params) s = .next (
      if 63 < start then s.refuses 0x65 r params .badParam
      else s.finishes 0x65 r params (okWith (leBytes 1 table.length ++ leBytes 1 (min 24 (table.length - start)) ++ leBytes 2 0 ++
        (((table.drop start).take 24).map RouteEntry.word).flatten)) id)) ∧
  (∀ (s : State) (r : Req) (params : List Byte), s.runs 0x74 r params = true →
    let region := (byteAt params 0).toNat
    let off := field params 1 4
    let len := (byteAt params 5).toNat
    exec (.arrRead r params) s = .next (
      if region ≠ 5 ∧ region ≠ 6 then s.refuses 0x74 r params .notPermitted
      else if off % 8 ≠ 0 ∨ len % 8 ≠ 0 ∨ len < 8 ∨ 96 < len ∨ 262144 < off + len then s.refuses 0x74 r params .badParam
      else s.finishes 0x74 r params (okWith ((List.range len).map (fun i =>
        cellsRead (if region = 5 then s.arr.logCells else s.arr.user.content) (off + i)))) id)) ∧
  (∀ (s : State) (r : Req) (params : List Byte), s.runs 0x75 r params = true →
    exec (.arrInfo r params) s = .next (s.finishes 0x75 r params (okWith (leBytes 1 s.arr.running.val ++ leBytes 1 s.bootWanted.1.val ++
      leBytes 1 s.arr.openMap ++ leBytes 1 (b2n s.holdup.low) ++ leBytes 4 s.arr.fw0.version.toNat ++ leBytes 4 s.arr.fw1.version.toNat ++
      leBytes 1 s.arr.fw0.sig ++ leBytes 1 s.arr.fw1.sig)) id))

/-- FAB_ADDR_SET, FAB_KEY_SET, FAB_RANK_SET, FAB_PERIOD_SRC and FAB_PERIOD_SET (R442 to R444, R448, R449): each commits a changed FABRIC item before
its reply leaves. -/
def Obligations.FabricSettings : Prop :=
  (∀ (s : State) (r : Req) (params : List Byte), s.runs 0x61 r params = true →
    let addr := BitVec.ofNat 12 (field params 0 2)
    exec (.fabAddrSet r params) s = .next (
      if addrSegment addr = 63 ∨ addrSlot addr = 63 then s.refuses 0x61 r params .badParam
      else s.writes 0x61 r params id (.itemCommit 0x10) (okWith (leBytes 2 s.fab.addr.toNat ++ leBytes 2 addr.toNat))
        (fun a => a.requestItem owner (.fabric { a.fabricWanted with addrNext := addr })))) ∧
  (∀ (s : State) (r : Req) (params : List Byte), s.runs 0x62 r params = true →
    exec (.fabKeySet r params) s = .next (
      if byteAt params 0 = 0 then s.refuses 0x62 r params .badParam
      else s.writes 0x62 r params id (.itemCommit 0x10) (okWith [byteAt params 0])
        (fun a => a.requestItem owner
          (.fabric { a.fabricWanted with keyIdNext := byteAt params 0, keyNext := BitVec.ofNat 128 (field params 1 16) })))) ∧
  (∀ (s : State) (r : Req) (params : List Byte), s.runs 0x63 r params = true →
    exec (.fabRankSet r params) s = .next (s.writes 0x63 r params id (.itemCommit 0x10) (okWith [])
      (fun a => a.requestItem owner (.fabric { a.fabricWanted with rank := byteAt params 0 })))) ∧
  (∀ (s : State) (r : Req) (params : List Byte), s.runs 0x66 r params = true →
    exec (.fabPeriodSrc r params) s = .next (
      if s.tenantExists then s.refuses 0x66 r params .notPermitted
      else s.writes 0x66 r params id (.itemCommit 0x10) (okWith [])
        (fun a => a.requestItem owner (.fabric { a.fabricWanted with periodFabric := bit (byteAt params 0).toNat 0 })))) ∧
  (∀ (s : State) (r : Req) (params : List Byte), s.runs 0x67 r params = true →
    let v := field params 0 4
    exec (.fabPeriodSet r params) s = .next (
      if s.fab.role ≠ 2 then s.refuses 0x67 r params .notPermitted
      else if v < 2000000 ∨ 400000000 < v ∨ v % 16 ≠ 0 then s.refuses 0x67 r params .badParam
      else s.writes 0x67 r params id (.itemCommit 0x10) (okWith [])
        (fun a => a.requestItem owner (.fabric { a.fabricWanted with fabPeriod := v }))))

/-- ROLE_SWAP (R440, R445, R517, R519, R535): the refusals in their order, then the request, stamped with the time base, leaves for the peer
and holds the owner's queue. -/
def Obligations.RoleSwap : Prop :=
  ∀ (s : State) (r : Req) (params : List Byte), s.runs 0x64 r params = true →
    let peer := BitVec.ofNat 12 (field params 0 2)
    exec (.roleSwap r params) s = .next (
      match swapOfCode (byteAt params 2).toNat with
      | none => s.refuses 0x64 r params .badParam
      | some role =>
        let pending : SwapPending := { role := role, peer := peer, stamp := s.clock.tb, crossed := none, stands := true, answered := false }
        let request : TxFrame :=
          { dst := peer, src := s.fab.addr, ackmap := 0, isNew := true, fseq := 0,
            body := .discover 4 (serviceValue (swapCode role) (stamp48 s.clock.tb)) }
        if addrBroadcast peer = true ∨ peer = s.fab.addr ∨ (role = .segment ∧ addrSegment peer ≠ addrSegment s.fab.addr) then
          s.refuses 0x64 r params .badParam
        else if s.holdsRole role = false ∧
            (s.peerMayHold role peer = false ∨ s.fab.rank = 0 ∨ (role = .fabric ∧ s.fab.role = 0)) then s.refuses 0x64 r params .notPermitted
        else if s.hasRoute peer = false then s.refuses 0x64 r params .unreachable
        else s.holds 0x64 r params .swapOutcome none (fun a =>
          let b : State := { a with fab := { a.fab with swap := some pending } }
          if addrSegment peer = addrSegment s.fab.addr then b.contend (s.portToward peer) request
          else b.modPort (s.portToward peer) (fun l => { l with mgmt := l.mgmt ++ [request] })))

/-- ARR_OPEN, ARR_WRITE, ARR_COMMIT and ARR_ABORT (R373, R374, R451 to R454, R560 to R564): the checks, the page programs asked for, the lease
renewed by every served command of the update (notes/assumptions/52.md), and a lost lease told once. -/
def Obligations.RegionUpdates : Prop :=
  (∀ (s : State) (r : Req) (params : List Byte), s.runs 0x70 r params = true →
    let region := (byteAt params 0).toNat
    let h := r.handle
    let fresh : State → State := fun a => (a.leaseSettled h).forgetHandle h
    let bad : Status → State := fun st => s.finishes 0x70 r params { status := st, effectFrame := none, results := [] } fresh
    let opened := if (s.update? h).any (fun u => u.expiry.le s.clock.tb) then s.arr.updates.filter (fun u => u.handle ≠ h) else s.arr.updates
    exec (.arrOpen r params) s = .next (
      if h = 0 ∨ 6 < region ∨ (∃ u ∈ opened, u.handle = h) then bad .badParam
      else if region ≠ 0 ∧ region ≠ 1 ∧ region ≠ 6 then bad .notPermitted
      else if region = s.arr.running.val then bad .activeImage
      else if ∃ u ∈ opened, u.region.val = region then bad .regionBusy
      else s.writes 0x70 r params fresh .pageProgram
        (okWith (leBytes 1 region ++ leBytes 3 0 ++ leBytes 4 (regionSize region) ++ (s.clock.tb.plus 800000000).bytes))
        (fun a =>
          let u : Update := { handle := h, region := Fin.ofNat 7 region, grant := a.clock.tb, expiry := a.clock.tb.plus 800000000, data := [] }
          (({ a with arr := { a.arr with updates := a.arr.updates ++ [u] } }).cancelSelection region).addJob owner (.arrOpen h)))) ∧
  (∀ (s : State) (r : Req) (params : List Byte) (u : Update), s.runs 0x71 r params = true → s.update? r.handle = some u →
    u.expiry.le s.clock.tb = false → s.handleLost r.handle = false →
    let off := field params 0 4
    let data := params.drop 4
    let renewed : State → State := fun a => a.renewLease r.handle
    exec (.arrWrite r params) s = .next (
      if off % 8 ≠ 0 ∨ data.length % 8 ≠ 0 ∨ 256 < off % 256 + data.length ∨ regionSize u.region.val < off + data.length then
        s.finishes 0x71 r params { status := .badParam, effectFrame := none, results := [] } renewed
      else s.writes 0x71 r params renewed .pageProgram (okWith (s.clock.tb.plus 800000000).bytes)
        (fun a => a.addJob owner (.arrWrite r.handle off data)))) ∧
  (∀ (s : State) (r : Req) (params : List Byte) (u : Update), s.runs 0x72 r params = true → s.update? r.handle = some u →
    u.expiry.le s.clock.tb = false → s.handleLost r.handle = false →
    let len := field params 0 4
    let renewed : State → State := fun a => a.renewLease r.handle
    exec (.arrCommit r params) s = .next (
      if regionSize u.region.val < len ∨ (u.fillPages len = 0 ∧ u.digestOk params = false) then
        s.finishes 0x72 r params { status := .badParam, effectFrame := none, results := [] } renewed
      else s.writes 0x72 r params renewed .regionCommit
        (okWith (leBytes 1 u.region.val ++ leBytes 1 (u.sig len) ++ leBytes 2 0 ++ leBytes 4 len))
        (fun a => a.addJob owner (.arrCommit r.handle (u.fillPages len + 1))))) ∧
  (∀ (s : State) (r : Req) (params : List Byte) (u : Update), s.runs 0x73 r params = true → s.update? r.handle = some u →
    u.expiry.le s.clock.tb = false → s.handleLost r.handle = false →
    exec (.arrAbort r params) s = .next (s.finishes 0x73 r params (okWith []) (fun a =>
      { a with arr := { a.arr with updates := a.arr.updates.filter (fun x => x.handle ≠ r.handle) } }))) ∧
  (∀ (s : State) (r : Req) (params : List Byte) (x : Byte × (Req → List Byte → Instr)),
    x ∈ [((0x71 : Byte), Instr.arrWrite), (0x72, Instr.arrCommit), (0x73, Instr.arrAbort)] → s.runs x.1 r params = true →
    ((s.handleLost r.handle = true ∨ (∃ u, s.update? r.handle = some u ∧ u.expiry.le s.clock.tb = true)) →
      exec (x.2 r params) s = .next (s.finishes x.1 r params { status := .leaseExpired, effectFrame := none, results := [] }
        (fun a => ((a.leaseSettled r.handle).renewLease r.handle).forgetHandle r.handle))) ∧
    (s.handleLost r.handle = false → s.update? r.handle = none → exec (x.2 r params) s = .next (s.refuses x.1 r params .badParam)))

/-- LC_GET, BIST_READ, BIST_RUN and FW_ACTIVATE (R421, R457, R458, R460, R461). -/
def Obligations.LifecycleReadsAndSelfTest : Prop :=
  (∀ (s : State) (r : Req) (params : List Byte), s.runs 0x90 r params = true →
    exec (.lcGet r params) s = .next (s.finishes 0x90 r params (okWith (leBytes 1 s.life.shadow.code ++
      leBytes 1 (b2n s.lands.straps.commissionLow) ++ leBytes 1 (s.life.pending.elim 0xff (fun x => x.target.code)))) id)) ∧
  (∀ (s : State) (r : Req) (params : List Byte), s.runs 0x93 r params = true →
    exec (.bistRead r params) s = .next (s.finishes 0x93 r params (okWith (leBytes 2 s.bist.unusable.toNat ++
      leBytes 2 s.bist.lastBlocks.toNat ++ leBytes 2 s.bist.lastFailed.toNat ++ leBytes 1 s.bist.lastAlgo ++
      leBytes 1 (b2n s.bist.job.isSome))) id)) ∧
  (∀ (s : State) (r : Req) (params : List Byte), s.runs 0x92 r params = true →
    let blocks : BitVec 16 := BitVec.ofNat 16 (field params 0 2)
    let algo := (byteAt params 2).toNat
    let region := (byteAt params 3).toNat
    let job : BistJob := { algo := algo, region := if algo = 2 then region else 0, blocks := blocks, left := blocks, failed := 0, started := false,
                           pagesLeft := if algo = 2 then marginPages region else 0, below := 0 }
    exec (.bistRun r params) s = .next (
      if 2 < algo ∨ (algo ≤ 1 ∧ blocks = 0) ∨ (algo = 2 ∧ blocks ≠ 0) ∨ 6 < region ∨
          (algo ≤ 1 ∧ blocks.toNat.testBit 0 = true) then s.refuses 0x92 r params .badParam
      else if s.clock.pllOn = false ∨ (if algo = 2 then [11] else (blocksOf blocks).map blockDomain).all s.fullVoltage = false then
        s.refuses 0x92 r params .notReady
      else if s.bist.job.isSome = true ∨ (blocksOf blocks).all (s.blockIdle r.path) = false then s.refuses 0x92 r params .busy
      else s.finishes 0x92 r params { status := .accepted, effectFrame := none, results := leBytes 2 blocks.toNat }
        (fun a => { a with bist := { a.bist with job := some job },
                           carries := a.carries ++ [{ why := .selfTest, esn := (s.pol r.pol).nextAdmit, carried := false }] }))) ∧
  (∀ (s : State) (r : Req) (params : List Byte), s.runs 0x76 r params = true →
    let i := (byteAt params 0).toNat
    let sig := if i = 0 then s.arr.fw0.sig else s.arr.fw1.sig
    exec (.fwActivate r params) s = .next (
      if 1 < i then s.refuses 0x76 r params .badParam
      else if ∃ u ∈ s.arr.updates, u.region.val = i then s.refuses 0x76 r params .regionBusy
      else if sig ≠ 1 then
        s.finishes 0x76 r params { status := .badParam, effectFrame := none, results := leBytes 1 0 ++ leBytes 1 sig } id
      else s.writes 0x76 r params id (.itemCommit 0x12) (okWith (leBytes 1 i))
        (fun a => a.requestItem owner (.boot (Fin.ofNat 2 i) a.bootWanted.2))))

/-- LC_ADVANCE (R459, R601 to R603, R607): the refusals in their order; a transition out of FIELD discards a CHARTERED polder at
once and waits for every other tenant's dissolution; COMMISSION to FIELD
and back end with the BOOT item; the others wait until the reply has been carried. -/
def Obligations.LifecycleAdvance : Prop :=
  ∀ (s : State) (r : Req) (params : List Byte), s.runs 0x91 r params = true →
    let now := s.life.shadow
    let leave : State → State := fun a => if now = .field then a.dissolveAll else a
    let moved : Lc → Answer := fun target => okWith (leBytes 1 now.code ++ leBytes 1 target.code)
    exec (.lcAdvance r params) s = .next (
      match Lc.ofCode (byteAt params 0).toNat with
      | none => s.refuses 0x91 r params .lifecycle
      | some target =>
        match transition now target with
        | none => s.refuses 0x91 r params .lifecycle
        | some conditions =>
          if field params 1 4 ≠ s.life.uid.toNat % 2 ^ 32 then s.refuses 0x91 r params .badParam
          else if s.life.pending.isSome then s.refuses 0x91 r params .busy
          else match conditions.find? s.unmet with
            | some n => s.finishes 0x91 r params { status := .notReady, effectFrame := none, results := leBytes 1 n } id
            | none =>
              match s.writeRefusal with
              | some st => s.refuses 0x91 r params st
              | none =>
                if now = .field ∧ (∃ p : PolId, p ≠ owner ∧ (s.pol p).state ≠ .absent ∧ s.ka.all (fun k => k.pol != p) = true) then
                  s.holds 0x91 r params .lifecycleLeave (some (moved target)) (fun a => (leave a).expectLc target)
                else if target = .field ∨ (now = .field ∧ target = .commission) then
                  s.holds 0x91 r params (.itemCommit 0x12) (some (moved target)) (fun a => (leave a).requestField target)
                else s.finishes 0x91 r params (moved target) (fun a => (leave a).awaitReset target (s.pol r.pol).nextAdmit))

/-- THERM_GET, PIX_PORT, DALI_CFG and DALI_GET (R58, R304, R462 to R465, R583, R585). -/
def Obligations.ThermalPixelAndDaliCommands : Prop :=
  (∀ (s : State) (r : Req) (params : List Byte), s.runs 0xA0 r params = true →
    let t := s.therm
    exec (.thermGet r params) s = .next (
      match (byteAt params 0).toNat with
      | 0 => s.finishes 0xA0 r params (okWith (leBytes 2 (wordOf 16 (11500 - t.estimate)) ++ leBytes 2 (wordOf 16 t.estimate) ++ leBytes 1 t.step ++
          leBytes 1 0 ++ leBytes 2 t.brokenMap ++ leBytes 2 t.moduleDraw ++ leBytes 4 s.wheel.pauseCount)) id
      | 1 => s.finishes 0xA0 r params (okWith ((t.sites.toList.map (fun x => leBytes 2 (wordOf 16 x.round))).flatten ++
          leBytes 2 (wordOf 16 t.module.round))) id
      | 2 => s.finishes 0xA0 r params (okWith (t.currents.toList.map (leBytes 2)).flatten) id
      | _ => s.refuses 0xA0 r params .badParam)) ∧
  (∀ (s : State) (r : Req) (params : List Byte), s.runs 0xB0 r params = true →
    let mode := (byteAt params 0).toNat
    let q := s.pol owner
    exec (.pixPort r params) s = .next (
      if 3 < mode then s.refuses 0xB0 r params .badParam
      else if s.lands.straps.commissionLow = false ∨ s.lands.commissionStays = false then s.refuses 0xB0 r params .notPermitted
      else if pixPortOk mode q.expo = false ∨ pixPortOk mode (q.shadow.getD q.expo) = false then s.refuses 0xB0 r params .noResource
      else s.finishes 0xB0 r params (okAt (s.settingFrame owner) [])
        (fun a => { a with lands := { a.lands with pixNext := some mode } }))) ∧
  (∀ (s : State) (r : Req) (params : List Byte), s.runs 0xB1 r params = true →
    let areas := (s.pol r.pol).charter.selection.areas.length
    let named : Byte → Bool := fun v => v == 0xff || decide (v.toNat < areas)
    exec (.daliCfg r params) s = .next (
      if named (byteAt params 0) = false ∨ named (byteAt params 1) = false then s.refuses 0xB1 r params .badParam
      else s.writes 0xB1 r params id (.itemCommit 0x13) (okWith [])
        (fun a => a.requestItem r.pol (.dali { a.daliWanted with occArea := byteAt params 0, lightArea := byteAt params 1 })))) ∧
  (∀ (s : State) (r : Req) (params : List Byte), s.runs 0xB2 r params = true →
    let d := s.daliWanted
    exec (.daliGet r params) s = .next
      (s.finishes 0xB2 r params (okWith ([d.occArea, d.lightArea, d.shortAddr] ++ leBytes 1 (b2n s.dali.busDown))) id))

/-- PACKET_ARRIVAL and SERVICE_SLICE (R318, R348 to R354, R357, R362, R363): a packet takes a place of its polder's intake or is counted as dropped, and
wakes a sleeping sequencer; a slice admits a packet sealed in order at NEXT_ADMIT, serves the head of the queue, sends a reply that was held back,
and answers a duplicate from the journal. A packet sealed under a key with a number opens under them and no bit of it is lost (R340, R341). -/
def Obligations.IntakeAndService : Prop :=
  (∀ (s : State) (pk : Packet), (pk.path ≠ .host → s.power.accepting = true ∧ s.life.shadow ≠ .manufacture ∧ s.life.shadow ≠ .ret) →
    (pk.path = .host → s.hostPol = pk.pol) →
    ∃ t, exec (.packetArrival pk) s = .next t ∧
      t.pol pk.pol = (if (s.pol pk.pol).intake.length < 4 then { s.pol pk.pol with intake := (s.pol pk.pol).intake ++ [pk] }
        else { s.pol pk.pol with cnt := { (s.pol pk.pol).cnt with intakeDrop := min 65535 ((s.pol pk.pol).cnt.intakeDrop + 1) } }) ∧
      (∀ p, p ≠ pk.pol → t.pol p = s.pol p) ∧ t = { s with pols := t.pols, power := t.power } ∧
      ((s.domOn 7 = false ∧ s.domOn 9 = true ∧ (∃ a, pk.path = .line a)) → t.power.latches.toNat.testBit 7 = true) ∧
      (s.domOn 7 = true → t.power = s.power)) ∧
  (∀ (s : State) (pk : Packet) (a : BitVec 12), pk.path = .line a → s.power.accepting = false →
    exec (.packetArrival pk) s = .next (s.countPort (s.portToward a) 3)) ∧
  (∀ (s : State) (pk : Packet), pk.path = .host → s.hostPol ≠ pk.pol →
    exec (.packetArrival pk) s = .next { s with host := { s.host with bindMissCnt := min 255 (s.host.bindMissCnt + 1) } }) ∧
  (∀ (s : State) (p : PolId), s.sequencing = false → exec (.serviceSlice p) s = .next s) ∧
  (∀ (s : State) (p : PolId), s.sequencing = true → s.bist.job = none →
    let closed := s.closeSlice
    let round : State := if p = owner then
        { closed with fab := { closed.fab with spillDest := [] }, arr := { closed.arr with ownerStarts := closed.arr.ownerStarts + 1 },
                      power := { closed.power with vioLost := closed.power.vioLost && !closed.power.vioWaits, vioWaits := false } } else closed
    let b : State := { round with curSlice := some p }
    (∀ (e : QEntry) (rest : List QEntry), (s.pol p).intake = [] → (s.pol p).serving = none → (s.pol p).queue = e :: rest →
      (s.pol p).replyQ.length < 8 → s.power.points[2] = 0 →
      exec (.serviceSlice p) s = .next ((({ b with freeCtr := b.freeCtr + 1 }).modPol p
        (fun q => { q with queue := rest, slow := 0 })).serveEntry e).issueAll ∧
      (∀ (r : Reply), e.kind = .duplicate → e.req.pol = p → s.entryGone e = false → (s.pol p).journal.find? (fun x => x.esn == e.esn) = some r →
        let again : Reply := { r with status := .duplicate, origStatus := r.status, dup := true, path := e.req.path }
        exec (.serviceSlice p) s = .next (((({ b with freeCtr := b.freeCtr + 1 }).modPol p (fun q =>
          { q with queue := rest, slow := 0, replyQ := q.replyQ ++ [again] })).countPol p
          (fun c => { c with dupServed := min 65535 (c.dupServed + 1) }))).issueAll)) ∧
    (∀ (v : Serving) (a : Answer), (s.pol p).intake = [] → (s.pol p).serving = some v → v.answer = some a → v.ready = true →
      v.replied = false → v.rule ≠ .powerChange → (s.pol p).replyQ.length < 8 →
      let out : Reply := replyOf p v.entry a s
      exec (.serviceSlice p) s = .next (b.modPol p (fun q =>
        { q with serving := none, replyQ := q.replyQ ++ [out], journal := (out :: q.journal).take 16 })).issueAll) ∧
    (∀ (pk : Packet) (k : BitVec 128) (body : PacketBody), (s.pol p).intake = [pk] → pk.pol = p → pk.ptype = 1 → pk.flags < 2 →
      16 ≤ pk.len → pk.len ≤ 128 → s.power.accepting = true → s.polderGone p = false → s.sessionKey p pk.path = some k →
      pk.seq = BitVec.ofNat 16 (s.pol p).nextAdmit → commandBody k (s.pol p).nextAdmit pk = some body → s.queueClosed p = false →
      8 ≤ (s.pol p).replyQ.length →
      let from_ : Req := { pol := p, more := pk.flags.testBit 0, handle := body.handle, path := pk.path }
      let e : QEntry := { kind := .command, opcode := body.opcode, params := body.params, plen := body.plen, key := k, raw := pk.bytes,
                          esn := (s.pol p).nextAdmit, req := from_ }
      exec (.serviceSlice p) s = .next (((b.modPol p (fun q => { q with intake := [] })).admitCommand e).modPol p
        (fun q => { q with queue := q.queue ++ [e] })).issueAll)) ∧
  (∀ (key : BitVec 128) (esn : Nat) (header area : List Byte) (path : Path), header.length = 8 → area.length ≤ 112 →
    commandBody key esn { bytes := sealPacket key (packetNonce false 0 false 0 esn) header area, path := path } =
      some (bodyOf (header.drop 4 ++ area)))

/-- ASSEMBLY_TIMEOUT, ANSWER_HOLD_EXPIRY, OFFER_GENERATE, KEY_AGREEMENT_TIMEOUT and POLDER_ERASE (R325, R327, R332, R336, R356, R434, R436): what each
timer takes from a polder, the OFFER formed once, and a polder of which nothing is left but what is on its
way or still to be answered; whose trigger counters are cleared is the model's choice (notes/assumptions/53.md), and so are the numbers drawn
(notes/assumptions/3.md). -/
def Obligations.PolderTimers : Prop :=
  (∀ (s : State) (p : PolId), ∃ t, exec (.assemblyTimeout p) s = .next t ∧ t = { s with pols := t.pols } ∧
    (∀ q, q ≠ p → t.pol q = s.pol q) ∧
    t.pol p = { s.pol p with assembly := (s.pol p).assembly.map (fun a => { a with parts := [], expired := true }) }) ∧
  (∀ (s : State) (p : PolId), ∃ t, exec (.answerHoldExpiry p) s = .next t ∧ t = { s with pols := t.pols } ∧
    (∀ q, q ≠ p → t.pol q = s.pol q) ∧ t.pol p = { s.pol p with answerHold := none }) ∧
  (∀ (s : State) (k : KeyAgreement), s.ka = some k → k.offered = false → s.sequencing = true →
    let d := scalarOf (Config.freeNat s.freeCtr)
    let drawn : KeyAgreement := { k with offered := true, dE := d, qE := (base256.mul d).bytes }
    exec (.offerGenerate k.pol) s = .next { s with freeCtr := s.freeCtr + 2, ka := some { drawn with
        signature := ecdsaSign (scalarOf Config.attestKey) (scalarOf (Config.freeNat (s.freeCtr + 1))) (offerSigned s.life.uid drawn) } } ∧
      drawn.qE.length = 64 ∧ 1 ≤ d ∧ d < n256) ∧
  (∀ (s : State) (k : KeyAgreement), s.ka = some k → ∃ t, exec .keyAgreementTimeout s = .next t ∧ t.ka = none ∧
    (k.pol ≠ owner → (t.pol k.pol).state = .absent ∧ (t.pol k.pol).charter = Charter.none ∧ (s.hostPol ≠ k.pol → t.pol k.pol = (s.pol k.pol).emptied) ∧
      (∃ w ∈ t.arr.writes, w.value = .stored k.pol none ∧ w.started = false) ∧
      t.host = (if s.hostPol ≠ k.pol then s.host
        else if s.host.xfer.isSome then { s.host with leaving := some (s.host.leaving.getD k.pol) } else HostPort.initial)) ∧
    (k.pol = owner → (t.pol owner).answerHold = none ∧ t.host = s.host) ∧
    t = { s with ka := none, pols := t.pols, arr := t.arr, host := t.host, clock := t.clock }) ∧
  (∀ (s : State) (p : PolId) (g : Dissolution), (s.pol p).gone = some g → g.issued = true → p ≠ owner →
    ∃ t, exec (.polderErase p) s = .next t ∧ (t.pol p).state = .absent ∧ (t.pol p).key = testKey ∧ (t.pol p).charter = Charter.none ∧
      (t.pol p).queue = (s.pol p).queue ∧ (t.pol p).journal = [] ∧ (t.pol p).gone = none ∧ (t.pol p).nextAdmit = 0 ∧
      (t.pol p).trigOverrun = 0 ∧ (t.pol p).trigDropped = 0 ∧ (t.pol owner).trigOverrun = (s.pol owner).trigOverrun ∧
      (t.pol owner).trigDropped = (s.pol owner).trigDropped ∧
      (s.hostPol ≠ p → (t.pol p).dlv = (s.pol p).dlv) ∧ t.hostPol ≠ p ∧
      t.clock.tcmp[2 * p.val] = Tcmp.zero ∧ t.clock.tcmp[2 * p.val + 1] = Tcmp.zero ∧
      ((s.pol p).charter.bind.toNat.testBit 2 = true → t.dali = { Dali.initial with busDown := s.dali.busDown }) ∧
      t.wheel = s.wheel ∧ t.clock.tb = s.clock.tb ∧ t.cols = s.cols ∧ t.therm = s.therm)

/-- TB_UPDATE, TCMP_FIRE, TIME_SET_LOAD, SLEW_ADJUST and TIME_SUB_READ (R110, R111, R115, R119, R120, R124, R125, R126, R129, R130, R583): the increment, 1 on PIX and 16 on XO with the
changeover on a 16-tick boundary, with its carry into SEC, a firing and the reload of its channel, the load of a staged time with the answer it releases, the adjusted update, the pair a host reads, and no channel left that ought to have fired. -/
def Obligations.TimeBaseEvents : Prop :=
  (∀ s : State, s.clock.running = false → exec .tbUpdate s = .next s) ∧
  (∀ s : State, s.clock.running = true → s.clock.staged = none → s.clock.slew = none → s.clock.tb.sub.toNat < 400000000 →
    (∀ ch : Fin 16, (s.clock.tcmp[ch]).arm = false) →
    let step := if (if s.clock.elapsed % 16 = 0 then s.clock.pllOn else s.clock.onPix) then 1 else 16
    let n := s.clock.tb.sub.toNat + step
    ∃ t, exec .tbUpdate s = .next t ∧
      t.clock.tb.sub.toNat = n % 400000000 ∧ t.clock.tb.sec = (if n < 400000000 then s.clock.tb.sec else s.clock.tb.sec + 1) ∧
      t.clock.elapsed = s.clock.elapsed + step ∧ t.clock.onPix = decide (step = 1) ∧
      (∀ ch : Fin 16, t.clock.tcmp[ch] = { s.clock.tcmp[ch] with wrapped := (t.clock.tcmp[ch]).wrapped }) ∧
      t = { s with clock := { s.clock with tb := t.clock.tb, onPix := t.clock.onPix, elapsed := t.clock.elapsed, tcmp := t.clock.tcmp },
                   therm := s.meterCharges step }) ∧
  (∀ (s : State) (ch : Fin 16), s.clock.running = true → (s.clock.tcmp[ch]).due s.clock.tb = true → (s.clock.tcmp[ch]).stamp = false →
    (s.clock.tcmp[ch]).expose = false → (s.clock.tcmp[ch]).wake = false →
    ∃ c, exec (.tcmpFire ch) s = .next (s.modTcmp ch (fun _ => c)) ∧ c.fired = true ∧ c.fires = ((s.clock.tcmp[ch]).fires + 1) % 256 ∧
      ((s.clock.tcmp[ch]).period = 0 → c = { s.clock.tcmp[ch] with fired := true, fires := c.fires, arm := false }) ∧
      (0 < (s.clock.tcmp[ch]).period.toNat → (s.clock.tcmp[ch]).value.sub.toNat < 400000000 → c.arm = true ∧ c.due s.clock.tb = false ∧
        ∃ k, 0 < k ∧ c.value = Tb.ofTicks ((s.clock.tcmp[ch]).value.ticks + k * (s.clock.tcmp[ch]).period.toNat) ∧
          c.missed = min 255 ((s.clock.tcmp[ch]).missed + (k - 1)))) ∧
  (∀ (s : State) (v : Tb), s.clock.running = true → s.clock.staged = some v → s.clock.crosses = true →
    let old := Tb.ofTicks (s.clock.tb.ticks + s.clock.stepNext)
    ∃ t, exec .timeSetLoad s = .next t ∧ t.clock.tb = v ∧ t.clock.staged = none ∧ t.clock.slew = none ∧
      t.clock.elapsed = s.clock.elapsed + s.clock.increment ∧
      (∀ x, (s.pol owner).serving = some x → x.rule = .timeSetLoad → (t.pol owner).serving = some
        { x with answer := some { status := .ok, effectFrame := none, results := old.bytes ++ v.bytes }, ready := true }) ∧
      t.wheel.nextFrame = s.wheel.nextFrame ∧ t.wheel.period = s.wheel.period ∧ t.cols = s.cols ∧ t.fab = s.fab) ∧
  (∀ (s : State) (w : Slew), s.clock.running = true → s.clock.staged = none → s.clock.slew = some w → w.dueIn s.clock.increment = true →
    ∃ t, exec .slewAdjust s = .next t ∧
      t.clock.tb = Tb.ofTicks (if w.advance then s.clock.tb.ticks + s.clock.increment + 1 else s.clock.tb.ticks + s.clock.increment - 1) ∧
      t.clock.slew = (if w.remain ≤ 1 then none
        else some { w with remain := w.remain - 1, elapsed := w.elapsed + s.clock.increment, k := w.k + 1 }) ∧
      t.clock.elapsed = s.clock.elapsed + s.clock.increment) ∧
  (∀ s : State, s.landsFree = true → s.domOn 12 = true → s.bist.unusable.toNat.testBit 11 = false → s.blockUnderTest 11 = false →
    exec .timeSubRead s = .next { s with clock := { s.clock with secShadow := s.clock.tb.sec, subOut := BitVec.ofNat 32 s.clock.tb.sub.toNat } }) ∧
  (∀ (s t : State), s.clock.running = true → exec .tbUpdate s = .next t → ∀ ch : Fin 16, (t.clock.tcmp[ch]).due t.clock.tb = false)

/-- WHEEL_SLOT_START, EXPOSURE_START and TRIGGER_DEADLINE (R30, R31, R180, R181, R193 to R195, R201, R204): a slot takes the next frame number and its holder's
settings, an exposure starts no earlier than the settings, the trigger and the lock allow, and a trigger deadline closes the acceptance window. -/
def Obligations.WheelEvents : Prop :=
  (∀ s : State, s.slotDue = false → exec .wheelSlotStart s = .next s) ∧
  (∀ s : State, s.slotDue = true → ∃ t x, exec .wheelSlotStart s = .next t ∧ t.wheel.slot = some x ∧ x.frame = s.wheel.nextFrame ∧
    t.wheel.nextFrame = s.wheel.nextFrame + 1 ∧ t.wheel.slotTb = s.clock.tb ∧ x.startAt = s.clock.elapsed ∧ x.te = none ∧ x.reads = [] ∧
    t.lands.strobe = false ∧ t.clock.tb = s.clock.tb ∧ t.fab = s.fab ∧ t.life.shadow = s.life.shadow) ∧
  (∀ (s : State), s.slotDue = true → s.wheel.nextFrame.toNat % 16 ≠ 0 →
    s.wheel.holders.toList.getD (s.wheel.nextFrame.toNat % 16) none = none →
    ∃ t, exec .wheelSlotStart s = .next t ∧ t.wheel.slot = some { s.emptySlot s.wheel.nextFrame with mapFull := t.cols.mapFull } ∧
      (frameLater (BitVec.ofNat 32 s.wheel.fR) s.wheel.nextFrame = true → s.wheel.uncovered = false → ∀ p, t.pol p = s.pol p)) ∧
  (∀ (s : State) (p : PolId), s.slotDue = true → s.wheel.nextFrame.toNat % 16 ≠ 0 → p ≠ owner →
    s.wheel.holders.toList.getD (s.wheel.nextFrame.toNat % 16) none = some p → s.clock.hold = none →
    let settings := (applyShadow s.wheel.nextFrame (s.pol p)).expo
    settings.fits s.wheel.period = true →
    ∃ t x, exec .wheelSlotStart s = .next t ∧ t.wheel.slot = some x ∧ x.holder = some p ∧ x.expo = settings ∧ x.voidReason = none ∧
      (t.pol p).expo = settings ∧ x.charter = (s.pol p).charter ∧
      (x.trig.isSome = true → settings.triggered = true ∧ (t.pol p).trigPending = none) ∧
      (settings.triggered = true → (s.pol p).shadow = none → x.trig.isSome = (s.pol p).trigPending.isSome)) ∧
  (∀ (s : State) (x : Slot), s.wheel.slot = some x → x.exposes = true → s.clock.hold = none → x.lockRef = none →
    let te := max (x.startAt + x.expo.teMin) (x.trig.elim 0 (fun g => g.at_ + 4096))
    ∃ tb, exec .exposureStart s = .next { s with
        wheel := { s.wheel with slot := some { x with te := some tb, teAt := te, lockState := .none } },
        lands := { s.lands with strobe := x.voidReason.isNone && x.holder == some (s.bindHolder 3) } } ∧
      (s.clock.elapsed ≤ te → s.clock.tb.ticks + (te - s.clock.elapsed) < 2 ^ 32 * 400000000 →
        tb.ticks = s.clock.tb.ticks + (te - s.clock.elapsed))) ∧
  (∀ (s : State) (x : Slot) (r : LockRef), s.wheel.slot = some x → x.exposes = true → s.clock.hold = none → x.lockRef = some r →
    ∃ t y, exec .exposureStart s = .next t ∧ t.wheel.slot = some y ∧ y.te.isSome = true ∧
      max (x.startAt + x.expo.teMin) (x.trig.elim 0 (fun g => g.at_ + 4096)) ≤ y.teAt ∧
      y.teAt ≤ max (x.startAt + x.expo.teMin) (x.trig.elim 0 (fun g => g.at_ + 4096)) + x.expo.aLock ∧
      (y.lockState = .missed → y.teAt = max (x.startAt + x.expo.teMin) (x.trig.elim 0 (fun g => g.at_ + 4096)) + x.expo.aLock) ∧
      (y.lockState = .free → r.free = true) ∧ (y.lockState = .locked → r.free = false) ∧ y.lockState ≠ .none) ∧
  (∀ (s : State) (x : Slot), s.wheel.slot = some x → x.expo.triggered = true →
    ∃ t, exec .triggerDeadline s = .next t ∧ t.wheel.slot = some { x with deadlinePassed := true } ∧ (∀ p, t.windowOpen p = false) ∧
      t = { s with wheel := t.wheel })
/-- TRIG_IN_EDGE, TRIG_REFRACTORY_END, SYNC_IN_EDGE, SYNC_PERIOD_MISSING and COMMISSION_N_RISE (R58, R192 to R198, R206, R207): an edge is one trigger and opens the
refractory period, a further one is counted; a valid period becomes the lock reference; three bad periods in a row lose it. -/
def Obligations.LandEvents : Prop :=
  (∀ s : State, s.landsFree = true → s.lands.refractory = false → (s.power.wakeEn.toNat.testBit 4 = false ∨ (s.domOn 7 = true ∧ s.power.entry = none)) →
    let p := s.bindHolder 1
    let trig : Trigger := { src := .trigIn, at_ := s.clock.elapsed }
    let a : State := { s with lands := { s.lands with refractory := true } }
    exec .trigInEdge s = .next (
      if (s.wheel.turning && (s.pol p).expo.triggered && (s.pol p).expo.srcTrigIn) = false then
        a.modPol p (fun q => { q with trigDropped := min 65535 (q.trigDropped + 1) })
      else if s.windowOpen p then { a with wheel := { a.wheel with slot := a.wheel.slot.map (fun x => { x with trig := some trig }) } }
      else if (s.pol p).trigPending = none then a.modPol p (fun q => { q with trigPending := some trig })
      else a.modPol p (fun q => { q with trigOverrun := min 65535 (q.trigOverrun + 1) }))) ∧
  (∀ s : State, s.landsFree = true → s.lands.refractory = true → exec .trigInEdge s = .next (s.modPol (s.bindHolder 1) (fun q =>
      if s.wheel.turning && q.expo.triggered then { q with trigOverrun := min 65535 (q.trigOverrun + 1) }
      else { q with trigDropped := min 65535 (q.trigDropped + 1) }))) ∧
  (∀ s : State, s.landsFree = false → exec .trigInEdge s = .next s ∧ exec .syncInEdge s = .next s ∧ exec .commissionNRise s = .next s) ∧
  (∀ s : State, exec .trigRefractoryEnd s = .next { s with lands := { s.lands with refractory := false } }) ∧
  (∀ s : State, s.landsFree = true → exec .commissionNRise s = .next
    { s with lands := { s.lands with commissionStays := false, pixDisable := true } }) ∧
  (∀ (s : State) (e : Nat), s.landsFree = true → s.lands.sync.lastEdge = some e → s.lands.sync.missingRun = 0 → s.lands.sync.lost = false →
    let p := s.clock.elapsed - e
    let y := s.lands.sync
    (200000 ≤ p ∧ p ≤ 10000000 ∧ (y.validPeriod = 0 ∨ (10 * p ≤ 11 * y.validPeriod ∧ 9 * y.validPeriod ≤ 10 * p)) →
      exec .syncInEdge s = .next { s with lands := { s.lands with sync :=
        { y with validPeriod := p, validEdge := s.clock.tb, validAt := s.clock.elapsed, badRun := 0, lastEdge := some s.clock.elapsed } } }) ∧
    (p < 200000 ∨ 10000000 < p → y.badRun < 2 →
      exec .syncInEdge s = .next { s with lands := { s.lands with sync :=
        { y with badRun := y.badRun + 1, lastEdge := some s.clock.elapsed } } }) ∧
    (p < 200000 ∨ 10000000 < p → 2 ≤ y.badRun → ∃ t, exec .syncInEdge s = .next t ∧ t.lands.sync.lost = true ∧
      t.lands.sync.validPeriod = y.validPeriod)) ∧
  (∀ s : State, s.lands.sync.validPeriod ≠ 0 → s.lands.sync.lastEdge.isSome = true → s.lands.sync.lost = false →
    ∃ t, exec .syncPeriodMissing s = .next t ∧ t.lands.sync.missingRun = s.lands.sync.missingRun + 1 ∧
      t.lands.sync.lost = decide (2 ≤ s.lands.sync.badRun) ∧ t.lands.sync.badRun = s.lands.sync.badRun + 1 ∧
      t.lands.sync.validPeriod = s.lands.sync.validPeriod ∧ t.wheel = s.wheel ∧ t.cols = s.cols)

/-- ROW_READ, BLANK_INTERVAL_CHECK and QUALITY_RECOMPUTE (R211, R214, R216, R217, R224 to R226, R228 to R232, R237, R243, R269, R276, R277): each converter's own gain and code,
what a read forwards for each column and puts on the bus, the shadow
comparison that replaces a column at its fourth differing read, the blank-interval check, and the quality figures after 32 owner slots. -/
def Obligations.ColumnEvents : Prop :=
  (∀ (s : State) (x : Slot) (k i j : Nat) (columns spares : List Conversion), s.wheel.slot = some x →
    x.expo.schedule[x.reads.length]? = some (k, i, j) → x.te.isSome = true → x.cal = none → s.clock.hold = none → x.voidReason ≠ some 4 →
    let full := if x.expo.depth10 then 1023 else 4095
    let lcg := fun v : Conversion => decide ((if x.expo.depth10 then 896 else 3584) ≤ v.gainLevel)
    let code := fun (v : Conversion) (low : Bool) => min (if low then v.tripLcg else v.tripHcg) full
    ∃ t y read, exec (.rowRead columns spares) s = .next t ∧ t.wheel.slot = some y ∧ y.reads = x.reads ++ [read] ∧
      read.codes.length = 1600 ∧ read.bad = s.cols.defectMap.map (·.column) ∧
      y.readsDone = decide (x.reads.length + 1 = x.expo.schedule.length) ∧ t.clock.tb = s.clock.tb ∧ t.fab = s.fab ∧
      t.wheel.bus.frameValid = !y.readsDone ∧
      (x.reads = [] → t.wheel.bus.tag[0]? = some (x.frame.setWidth 16) ∧ t.wheel.bus.tag[1]? = some (BitVec.ofNat 16 (x.frame.toNat / 65536)) ∧
        t.wheel.bus.tag[3]? = some 0) ∧
      (∀ l i : Nat, l < 4 → i < 400 → ∃ m, read.codes[400 * l + i]? = some m ∧
        ((t.wheel.bus.lanes.getD l []).getD i 0) = BitVec.ofNat 16 (m.code + (if m.cg then 4096 else 0) + (if m.src then 8192 else 0) +
          (if (s.cols.defectMap.map (·.column)).contains (400 * l + i) then 16384 else 0))) ∧
      (∀ c v, c < 1600 → columns[c]? = some v → s.cols.replaced c = false → s.cols.stoodIn (x.frame.toNat / 16) c = false →
        read.codes[c]? = some { code := code v (lcg v), cg := lcg v, src := false }) ∧
      (∀ c v, c < 1600 → spares[c / 50]? = some v → s.cols.replaced c = true ∨ s.cols.stoodIn (x.frame.toNat / 16) c = true →
        read.codes[c]? = some { code := code v (lcg v), cg := lcg v, src := true }) ∧
      (x.frame.toNat / 16 % 2 = 1 → t.cols = s.cols ∧ y.repairs = x.repairs) ∧
      (x.frame.toNat / 16 % 2 = 0 → ∀ (g : Nat) (v w : Conversion), g < 32 → (s.cols.group g).state = .live →
        let c := 50 * g + x.frame.toNat / 16 / 2 % 50
        columns[c]? = some v → spares[g]? = some w →
        let d := ((code v (lcg v) : Nat) - (code w (lcg v) : Nat) : Int).natAbs
        (d ≤ (if x.expo.depth10 then 6 else 24) → (t.cols.group g).state = .live ∧ (t.cols.group g).diffCount = 0) ∧
        ((if x.expo.depth10 then 6 else 24) < d → (s.cols.group g).diffCount < 3 →
          (t.cols.group g).state = .live ∧ (t.cols.group g).diffCount = (s.cols.group g).diffCount + 1) ∧
        ((if x.expo.depth10 then 6 else 24) < d → 3 ≤ (s.cols.group g).diffCount →
          (t.cols.group g).state = .replacing ∧ (t.cols.group g).replOffset = c % 50))) ∧
  (∀ (s : State) (x : Slot) (conv : List CheckConv) (trim : List (Nat × TrimMeas)), s.wheel.slot = some x → x.holder.isSome = true → x.cal = none →
    x.checked = false → s.clock.hold = none → x.voidReason ≠ some 4 →
    (x.holder ≠ some owner → (∀ g, g < 32 → s.cols.failing x.expo.depth10 conv g = [] ∧
        ((s.cols.group g).state = .spareFailed ∨ checkFails x.expo.depth10 (convOf x.expo.depth10 conv (1600 + g)) = false)) →
      exec (.blankIntervalCheck conv trim) s = .next { s with wheel := { s.wheel with slot := some { x with checked := true } } }) ∧
    ∃ t, exec (.blankIntervalCheck conv trim) s = .next t ∧ t.wheel.slot = some { x with checked := true } ∧
      (∀ g, g < 32 → (s.cols.group g).state = .live →
        (checkFails x.expo.depth10 (convOf x.expo.depth10 conv (1600 + g)) = true → (t.cols.group g).state = .spareFailed) ∧
        (∀ c rest, checkFails x.expo.depth10 (convOf x.expo.depth10 conv (1600 + g)) = false →
          s.cols.failing x.expo.depth10 conv g = c :: rest → (t.cols.group g).state = .replacing ∧ (t.cols.group g).replOffset = c % 50) ∧
        (checkFails x.expo.depth10 (convOf x.expo.depth10 conv (1600 + g)) = false → s.cols.failing x.expo.depth10 conv g = [] →
          (t.cols.group g).state = .live))) ∧
  (∀ s : State, s.cols.qualSlots.length < 32 → exec .qualityRecompute s = .next s) ∧
  (∀ (s : State) (last : CheckSlot), 32 ≤ s.cols.qualSlots.length → s.cols.qualSlots.getLast? = some last →
    ∃ a b c d, exec .qualityRecompute s = .next { s with cols := { s.cols with
          qualSlots := [],
          quality := { s.cols.quality with ofsResA := a, gainResA := b, ofsResB := c, gainResB := d, resFrame := last.frame } } } ∧
      a ≤ 65535 ∧ b ≤ 65535 ∧ c ≤ 65535 ∧ d ≤ 65535)
/-- CAL_RAMP_DONE, CAL_COLUMNS_DONE and CAL_LEASE_EXPIRED (R257 to R259, R264 to R268): an accepted slope code takes effect at once and a rejected one leaves the
old, every measured converter is reported once, and an expired lease takes every
result of the slot's own parts back. -/
def Obligations.CalibrationSlotEvents : Prop :=
  (∀ (s : State) (x : Slot) (r : CalReport) (a b : List Nat), s.calSlot = some (x, r) → r.parts.ramp = true → r.rampDone = false → x.cal.any (·.ramp) = true →
    ∃ t y q, exec (.calRampDone a b) s = .next t ∧ t.wheel.slot = some y ∧ y.calRep = some q ∧ q.rampDone = true ∧
      (∀ new err, judgeRamp a s.cols.slopeA = .ok (new, err) → t.cols.slopeA = new ∧ q.rampResA = 1 ∧ t.cols.quality.rampErrA = err ∧
        t.cols.quality.rampFrame = x.frame) ∧
      (∀ e, judgeRamp a s.cols.slopeA = .error e → t.cols.slopeA = s.cols.slopeA ∧ q.rampResA = 2 ∧ q.rampReasonA = e ∧
        t.cols.quality.rampErrA = s.cols.quality.rampErrA) ∧
      (∀ new err, judgeRamp b s.cols.slopeB = .ok (new, err) → t.cols.slopeB = new ∧ q.rampResB = 1 ∧ t.cols.quality.rampErrB = err ∧
        t.cols.quality.rampFrame = x.frame) ∧
      (∀ e, judgeRamp b s.cols.slopeB = .error e → t.cols.slopeB = s.cols.slopeB ∧ q.rampResB = 2 ∧ q.rampReasonB = e ∧
        t.cols.quality.rampErrB = s.cols.quality.rampErrB) ∧
      t.cols.trims = s.cols.trims ∧ t.cols.groups = s.cols.groups ∧ t.pols = s.pols ∧ t.arr = s.arr) ∧
  (∀ (s : State) (x : Slot) (r : CalReport) (meas : List (Nat × TrimMeas)), s.calSlot = some (x, r) → r.parts.columns = true → r.columnsDone = false →
    (r.parts.ramp = true → r.rampDone = true) → x.cal.any (·.columns) = true →
    let found := (List.range 1632).filter (fun n => s.cols.measurable n && meas.any (fun m => m.1 == n))
    ∃ t y q, exec (.calColumnsDone meas) s = .next t ∧ t.wheel.slot = some y ∧ y.calRep = some q ∧ q.columnsDone = true ∧
      q.accepted + q.rejected = r.accepted + r.rejected + found.length ∧ (r.rejectList.length ≤ 16 → q.rejectList.length ≤ 16) ∧
      t.cols.trims = s.cols.trims ∧ t.cols.slopeA = s.cols.slopeA ∧ t.cols.slopeB = s.cols.slopeB ∧ t.pols = s.pols) ∧
  (∀ (s : State) (x : Slot) (r : CalReport), s.calSlot = some (x, r) → r.finished = false →
    ∃ t y q, exec .calLeaseExpired s = .next t ∧ t.wheel.slot = some y ∧ y.calRep = some q ∧ q.expired = true ∧ q.finished = true ∧
      (x.cal.any (·.columns) = true → q.accepted = 0 ∧ q.rejected = 0 ∧ q.rejectList = []) ∧
      (x.cal.any (·.ramp) = true → q.rampResA = 0 ∧ q.rampResB = 0) ∧
      (x.cal.any (·.columns) = false → x.cal.isSome = true → q.accepted = r.accepted ∧ q.rejected = r.rejected ∧ q.rejectList = r.rejectList) ∧
      (x.cal.any (·.ramp) = false → x.cal.isSome = true → q.rampResA = r.rampResA ∧ q.rampResB = r.rampResB) ∧
      t.cols.slopeA = r.old.1 ∧ t.cols.slopeB = r.old.2.1 ∧ (∀ p ∈ t.cols.pendingTrims, p.kind ≠ .columns) ∧
      (∀ p ∈ s.cols.pendingTrims, p.kind ≠ .columns → p ∈ t.cols.pendingTrims) ∧ t.cols.trims = s.cols.trims ∧ t.pols = s.pols)

/-- SLOT_END, RECORD_LEAVES_FORK and RECORD_ENTERS_DELIVERY (R180, R195, R201, R277, R295, R297 to R299, R301, R365, R370): every held slot gives exactly one record, STATS or
VOID, which takes the next record number of its polder and its places of the delivery queue, to be sealed with the polder's key. -/
def Obligations.RecordEvents : Prop :=
  (∀ (s : State) (x : Slot), s.wheel.slot = some x → x.over = true → s.wheel.fork = none → x.calRep = none →
    ∃ t, exec .slotEnd s = .next t ∧ t.wheel.slot = none ∧ t.lands.strobe = false ∧
      t.wheel.fork = x.holder.map (fun p =>
        { slot := { x with voidReason := if x.voidReason.isNone && x.te.isNone then some 1 else x.voidReason }, holder := p, machines := none }) ∧
      t.wheel.bus.frameValid = false ∧
      (∀ p, x.holder = some p → x.reads = [] → x.voidReason ≠ none ∨ x.te = none →
        t.wheel.bus.tag[0]? = some (x.frame.setWidth 16) ∧ t.wheel.bus.tag[3]? = some (BitVec.ofNat 16 (x.voidReason.getD 1))) ∧
      t.wheel.nextFrame = s.wheel.nextFrame ∧ t.clock.tb = s.clock.tb ∧ t.fab = s.fab) ∧
  (∀ (s : State) (d : DoneSlot) (reason : Nat), s.wheel.fork = some d → s.wheel.enclave = none → d.slot.voidReason = some reason →
    d.slot.throttled = false → d.slot.calRep = none →
    let sealed : DoneRec := { pol := d.holder, rtype := 2, frame := d.slot.frame, body := leBytes 1 reason ++ leBytes 7 0 ++ d.slot.startTb.bytes }
    exec .recordLeavesFork s = .next { s with wheel := { s.wheel with fork := none, enclave := some sealed } }) ∧
  (∀ (s : State) (d : DoneSlot) (te : Tb), s.wheel.fork = some d → s.wheel.enclave = none → d.slot.voidReason = none → d.slot.te = some te →
    d.slot.calRep = none →
    ∃ t r, exec .recordLeavesFork s = .next t ∧ t.wheel.fork = none ∧ t.wheel.enclave = some r ∧ r.pol = d.holder ∧ r.rtype = 1 ∧
      r.frame = d.slot.frame ∧ r.body.take 8 = te.bytes ∧ r.body[12]? = some (BitVec.ofNat 8 d.slot.expo.again) ∧
      (∀ p, p ≠ d.holder → t.pol p = s.pol p) ∧ (t.pol d.holder).motionInit = false) ∧
  (∀ (s : State) (r : DoneRec), s.wheel.enclave = some r → (∀ p, (s.pol p).events = [] ∧ (s.pol p).gone = none) →
    ∃ t, exec .recordEntersDelivery s = .next t ∧ t.wheel.enclave = none ∧
      (dlvPlaces (s.pol r.pol).dlv + fragments r.body.length ≤ 128 →
        let made : DlvRec := { ersEq := (s.pol r.pol).ersEq, rtype := r.rtype, frame := r.frame, body := r.body,
                               frags := fragments r.body.length, sent := 0, path := (s.pol r.pol).path, key := (s.pol r.pol).key }
        t.pol r.pol = { s.pol r.pol with
          dlv := (s.pol r.pol).dlv ++ [made], ersEq := (s.pol r.pol).ersEq + 1, lastFrame := some r.frame }) ∧
      (t.pol r.pol).ersEq = (s.pol r.pol).ersEq + 1 ∧ (∀ p, p ≠ r.pol → t.pol p = s.pol p) ∧
      t = { s with wheel := { s.wheel with enclave := none }, pols := t.pols, arr := t.arr })

/-- LINE_POWER_GOOD, LINE_POWER_LOST, POWER_DOWN_RESET, PORT_PRESENCE_CHANGE, AON_READY, RESET_N_ASSERT and RESET_N_RELEASE (R57, R72, R77, R96 to R98, R112, R139, R648,
R671, R672): what each leaves of the clock, the domains, the lands, the queues and the array. -/
def Obligations.SupplyEvents : Prop :=
  (∀ s : State, s.power.lineGood = false → s.power.shedding = false → (s.power.presentA || s.power.presentB) = true →
    ∃ t, exec .linePowerGood s = .next t ∧ t.power.lineGood = true ∧ t.power.vauxOn = true ∧ t.power.aonReady = false ∧ t.power.seqRunning = false ∧
      t.power.accepting = false ∧ t.power.doms = domainsAtReset ∧ t.clock.running = false ∧ t.clock.tb = Tb.zero ∧ t.holdup.low = true ∧
      t.holdup.charger = true ∧ t.restartCause = 1 ∧ t.wheel = Wheel.initial ∧ t.pols = Vector.replicate 8 Polder.none ∧ t.fab = Fabric.initial ∧
      t.therm = Thermal.initial ∧ t.life.uid = s.life.uid ∧ t.life.shadow = t.lcDerived ∧ t.arr.user = s.finishPage.arr.user) ∧
  (∀ s : State, s.power.feedA = true ∨ s.power.feedB = true → exec .linePowerLost s = .next s) ∧
  (∀ s : State, s.power.lineGood = true → s.power.feedA = false → s.power.feedB = false → ∃ t, exec .linePowerLost s = .next t ∧ t.power.lineGood = false ∧ t.power.shedding = true ∧
    t.power.vauxOn = false ∧ t.power.seqRunning = false ∧ t.wheel.turning = false ∧ t.wheel.slot = none ∧ t.lands.strobe = false ∧
    (∀ n, 1 ≤ n → n ≤ 12 → domAt t.power.doms n = if n = 11 then domAt s.power.doms 11 else .off) ∧
    t.arr = { s.arr with jobs := s.activeJob.toList } ∧ t.clock = s.clock ∧ t.holdup = s.holdup) ∧
  (∀ s : State, s.power.shedding = true → ∃ t, exec .powerDownReset s = .next t ∧ t.power.shedding = false ∧ t.power.lineGood = false ∧
    t.clock.running = false ∧ t.clock.tb = Tb.zero ∧ (∀ n, 1 ≤ n → n ≤ 12 → domAt t.power.doms n = .off) ∧ t.holdup.charger = false ∧
    t.arr.writes = [] ∧ t.arr.jobs = [] ∧ t.arr.updates = [] ∧ t.pols = Vector.replicate 8 Polder.none ∧ t.life.uid = s.life.uid) ∧
  (∀ (s : State) (port : Port) (mv : Nat), 56000 < mv → exec (.portPresenceChange port mv) s = .fault .outsideRatings) ∧
  (∀ (s : State) (port : Port) (mv : Nat), mv ≤ 56000 → ∃ t, exec (.portPresenceChange port mv) s = .next t ∧
    (port = .a → t.power.presentA = decide (18000 ≤ mv) ∧ t.power.presentB = s.power.presentB ∧ t.power.feedA = decide (16000 ≤ mv) ∧
      t.power.feedB = s.power.feedB) ∧
    (port = .b → t.power.presentB = decide (18000 ≤ mv) ∧ t.power.presentA = s.power.presentA ∧ t.power.feedB = decide (16000 ≤ mv) ∧
      t.power.feedA = s.power.feedA) ∧
    (s.power.portMode ≠ .unknown → t = { s with power := t.power } ∧ t.power.portMode = s.power.portMode) ∧ t.clock.tb = s.clock.tb) ∧
  (∀ (s : State) (straps : Straps) (vio : Bool), s.power.aonReady = false → s.power.lineGood = true →
    ∃ t, exec (.aonReady straps vio) s = .next t ∧ t.power.aonReady = true ∧ t.clock.tb = Tb.zero ∧ t.clock.elapsed = 0 ∧
      t.clock.running = !s.power.resetLow ∧ (vio = false → t.power.vioLost = true ∧ t.power.vioWaits = false) ∧
      (vio = true → s.power.vioLost = false → t.power.vioLost = false) ∧ (vio = true → s.power.vioLost = true → t.power.vioWaits = true) ∧
      t.lands.straps = (if vio then straps else { commissionLow := false, adr0High := false, adr1High := false }) ∧
      t.lands.commissionStays = t.lands.straps.commissionLow) ∧
  (∀ s : State, s.power.resetLow = false → s.jtag.ir ≠ .extest → s.power.lineGood = true → s.power.aonReady = true → s.power.vioLost = false →
    ∃ t, exec .resetNAssert s = .next t ∧ t.power.resetLow = true ∧ t.clock.running = false ∧ t.clock.tb = Tb.zero ∧ t.restartCause = 2 ∧
      t.power.presentA = s.power.presentA ∧ t.power.presentB = s.power.presentB ∧ t.power.lineGood = true ∧ t.power.vauxOn = s.power.vauxOn ∧
      t.wheel = Wheel.initial ∧ t.pols = Vector.replicate 8 Polder.none ∧ t.arr.writes = [] ∧ t.arr.jobs = [] ∧ t.life.uid = s.life.uid ∧
      t.lands.straps.adr0High = s.lands.straps.adr0High ∧ t.lands.straps.adr1High = s.lands.straps.adr1High ∧ t.jtag.ir = .idcode ∧
      (s.lands.commissionStays = true → t.lands.straps.commissionLow = true)) ∧
  (∀ s : State, s.jtag.ir = .extest → exec .resetNAssert s = .next s) ∧
  (∀ s : State, s.power.aonReady = true → s.power.vioLost = true → exec .resetNAssert s = .next s) ∧
  (∀ (s : State) (straps : Straps) (vio : Bool), s.power.resetLow = true → s.power.lineGood = true → s.power.aonReady = true →
    ∃ t, exec (.resetNRelease straps vio) s = .next t ∧ t.power.resetLow = false ∧ t.clock.running = true ∧ t.clock.tb = Tb.zero ∧
      t.clock.elapsed = 0 ∧ t.restartCause = 2 ∧ (vio = false → t.power.vioLost = true ∧ t.power.vioWaits = false) ∧
      (vio = true → s.power.vioLost = false → t.power.vioLost = false ∧ t.wheel = s.wheel) ∧
      (vio = true → s.power.vioLost = true → t.power.vioWaits = true ∧ t.wheel = s.wheel) ∧
      t.lands.straps = (if vio then straps else { commissionLow := false, adr0High := false, adr1High := false }))

/-- FIRMWARE_START, COMMANDS_ACCEPTED_START, DISCOVERY_WINDOW_END, VAUX_TRIP, VAUX_RETRY, VIO_LOST and VIO_RESTORED (R72, R86, R100, R350, R366, R506, R555, R567, R598,
R623, R673): the image that runs, the lifecycle state and items it starts from, the polders that resume, and the supply faults. -/
def Obligations.StartUpEvents : Prop :=
  (∀ (s : State) (f : StartFindings), s.power.seqRunning = false → s.clock.running = true → s.power.lineGood = true → s.power.resetLow = false →
    let a := s.arr.load
    let l : State := { s with arr := a }
    ∃ t, exec (.firmwareStart f) s = .next t ∧ t.life.shadow = l.lcDerived ∧
      (l.lcDerived ≠ .scrapped → t.bist.unusable = f.failedBlocks &&& 0x0fff) ∧
      (l.lcDerived ≠ .scrapped → f.failedBlocks &&& 0x00c1 = 0 → l.imageOk f a.bootImage = true →
        t.power.seqRunning = true ∧ t.arr.running = a.bootImage) ∧
      (l.lcDerived ≠ .scrapped → f.failedBlocks &&& 0x00c1 = 0 → l.imageOk f a.bootImage = false → l.imageOk f (1 - a.bootImage) = true →
        t.power.seqRunning = true ∧ t.arr.running = 1 - a.bootImage) ∧
      (l.lcDerived = .scrapped ∨ f.failedBlocks &&& 0x00c1 ≠ 0 ∨ (l.imageOk f a.bootImage = false ∧ l.imageOk f (1 - a.bootImage) = false) →
        t.power.seqRunning = false ∧ t.arr.running = a.running) ∧
      t.wheel.nextFrame = BitVec.ofNat 32 a.wheel.fR ∧ t.wheel.period = a.wheel.period ∧
      (l.lcDerived = .commission ∨ l.lcDerived = .field → t.fab.addr = a.fabric.addrNext ∧ t.fab.keyId = a.fabric.keyIdNext) ∧
      (l.lcDerived = .ret → t.fab.addr = 0xfff ∧ t.fab.key = 0 ∧
        (s.holdup.low = false ∨ (∀ d ∈ s.arr.copies, d.item ≠ 0x10) → t.life.cleared = true) ∧
        (s.holdup.low = true → (∃ d ∈ s.arr.copies, d.item = 0x10) → t.life.cleared = s.life.cleared ∧ t.arr.fabricWaits = true)) ∧
      (∀ (p : PolId) (y : StoredPolder) (v : StoredSeq), a.stored[p] = some y → a.seqs[p] = some v → y.state = .active →
        (t.pol p).state = .active ∧ (t.pol p).key = y.key ∧ (t.pol p).nextAdmit = v.cR ∧ (t.pol p).charter = y.charter ∧ (t.pol p).path = v.path) ∧
      (∀ (c : ItemCopy) (w : WheelItem), c ∈ s.arr.copies → c.item = 0x11 → c.value = .wheel w → (∀ d ∈ s.arr.copies, d.value.item = d.item) →
        (∀ d ∈ s.arr.copies, d.item = 0x11 → d ≠ c → d.gen < c.gen) → a.wheel = w) ∧
      ((∀ d ∈ s.arr.copies, d.value.item = d.item ∧ d.item ≠ 0x11) → a.wheel = WheelItem.factory)) ∧
  (∀ s : State, s.power.seqRunning = true → exec .commandsAcceptedStart s = .next { s with power := { s.power with accepting := true } }) ∧
  (∀ s : State, s.power.discoveryOver = false → s.power.aonReady = true → ∃ t, exec .discoveryWindowEnd s = .next t ∧
    t.power = { s.power with discoveryOver := true } ∧
    t.lineA = { s.lineA with window := if s.lineA.attempts = 0 then 8 else s.lineA.window } ∧
    t.lineB = { s.lineB with window := if s.lineB.attempts = 0 then 8 else s.lineB.window } ∧ t = { s with power := t.power, lineA := t.lineA, lineB := t.lineB }) ∧
  (∀ s : State, s.power.vauxOn = true → s.power.lineGood = true → ∃ t, exec .vauxTrip s = .next t ∧
    t.power = { s.power with vauxOn := false, vauxFaultSent := true } ∧
    (s.power.vauxFaultSent = true → t = { s with power := t.power }) ∧
    (s.power.vauxFaultSent = false → s.power.seqRunning = false →
      t.early = s.early ++ [{ code := 0x000E, frame := s.wheel.nextFrame - 1, tb := s.clock.tb, payload := [] }] ∧ t.pols = s.pols)) ∧
  (∀ s : State, s.power.vauxOn = false → s.power.lineGood = true →
    exec (.vauxRetry true) s = .next s ∧
    ∃ t, exec (.vauxRetry false) s = .next t ∧ t.power = { s.power with vauxOn := true, vauxFaultSent := false } ∧
      (s.power.vauxFaultSent = false → t = { s with power := t.power })) ∧
  (∀ s : State, s.power.aonReady = true → s.power.lineGood = true → s.power.resetLow = false →
    (s.power.vioLost = false → ∃ t, exec .vioLost s = .next t ∧ t.power = { s.power with vioLost := true, vioWaits := false } ∧ t.landsFree = false ∧
      t.lands = s.lands ∧ t.strobeOut = false ∧ t.jtag.ir = .idcode ∧ t.host.xfer = none ∧ t.wheel.turning = s.wheel.turning ∧
      (∀ x, s.wheel.slot = some x → t.wheel.slot = some { x with pixCut := some (x.pixCut.getD x.reads.length) })) ∧
    (s.power.vioLost = true → s.power.vioWaits = false → exec .vioLost s = .next s ∧
      ∃ t, exec .vioRestored s = .next t ∧ t.power = { s.power with vioWaits := true } ∧ t.lands = s.lands ∧ t.wheel = s.wheel))

/-- HOLD_MEASURE, PULSE_TEST and HOLDUP_DEADLINE (R88 to R95, R99, R559, R697): when the state becomes HOLDUP_LOW and for which reason, when it is HOLDUP_OK again and releases
the page programs that waited, and the voltage at which the results are undefined. -/
def Obligations.HoldupEvents : Prop :=
  (∀ (s : State) (mv ua : Nat), 18000 < mv → exec (.holdMeasure mv ua) s = .fault .outsideRatings) ∧
  (∀ (s : State) (mv ua : Nat), mv ≤ 18000 → s.power.shedding = true → exec (.holdMeasure mv ua) s = .next { s with
      holdup := { s.holdup with lastMv := mv }, arr := { s.arr with jobs := if mv < 6000 then [] else s.arr.jobs } }) ∧
  (∀ (s : State) (mv ua : Nat), mv ≤ 18000 → s.power.shedding = false → s.power.aonReady = true → s.power.lineGood = true →
    ∃ t, exec (.holdMeasure mv ua) s = .next t ∧ t.holdup.lastMv = mv ∧ t.holdup.seen12 = decide (12000 ≤ mv) ∧
      (s.holdup.seen12 = true → mv < 12000 → s.holdup.low = false →
        t.holdup.low = true ∧ t.holdup.lastReason = 2 ∧ t.arr.jobs = s.activeJob.toList) ∧
      (mv < 14000 → s.holdup.low = true → t.holdup.low = true) ∧
      (14000 ≤ mv → s.holdup.low = true → s.holdup.checkPassed = true → s.holdup.startedBelow4 = false → s.holdup.firstMeasure = false →
        t.holdup.low = false ∧ t.arr.heldJobs = [] ∧ t.arr.jobs.take (s.arr.jobs ++ s.arr.heldJobs).length = s.arr.jobs ++ s.arr.heldJobs) ∧
      (12000 ≤ mv → s.holdup.low = false → s.holdup.startedBelow4 = false → s.holdup.firstMeasure = false → t.holdup.low = false ∧ t.arr = s.arr)) ∧
  (∀ (s : State) (fall : Nat), s.holdup.charger = true → s.holdup.holding = true → s.power.lineGood = true →
    ∃ t, exec (.pulseTest fall) s = .next t ∧ t.holdup.checkPassed = decide (fall ≤ 100) ∧ t.holdup.lastMv = s.holdup.lastMv ∧
      (100 < fall → s.holdup.low = false → t.holdup.low = true ∧ t.holdup.lastReason = 4) ∧
      (fall ≤ 100 → s.holdup.low = false → t.holdup.low = false) ∧
      (fall ≤ 100 → s.holdup.low = true → 14000 ≤ s.holdup.lastMv → t.holdup.low = false)) ∧
  (∀ s : State, s.holdup.deadlineOpen = true → ∃ t, exec .holdupDeadline s = .next t ∧ t.holdup.deadlineOpen = false ∧
    ((s.holdup.charger = true ∧ s.holdup.reached14 = false) → t.holdup.low = true ∧
      (s.holdup.low = false ∨ (s.holdup.firstOkDone = false ∧ s.holdup.lowSent = false) → t.holdup.lastReason = 1 ∧ t.holdup.lowSent = true)) ∧
    (s.holdup.charger = false ∨ s.holdup.reached14 = true → t = { s with holdup := { s.holdup with deadlineOpen := false, starting := false } })) ∧
  (∀ s : State, s.holdup.deadlineOpen = false → exec .holdupDeadline s = .next { s with holdup := { s.holdup with starting := false } })

/-- POWER_ENTRY_STEP and RETURN_STEP_READY (R134, R135, R145, R150 to R155, R161): an abort point lowers its domain and no other, abandons the entry for a latched wake, or refuses
with its count and its log entry; a return passes its four steps and ends with its domains ON. -/
def Obligations.EntryAndReturn : Prop :=
  (∀ (s : State) (e : Entry), s.power.entry = some e → s.entryStops = false → e.step ≤ 8 → s.power.latches ≠ 0 → e.lowered ≠ 0 →
    ∃ t, exec .powerEntryStep s = .next t ∧ t.power.entry = none ∧ t.power.doms = s.power.doms ∧
      t.power.ret = some { doms := e.lowered, step := .v, cause := .abandoned e.oldWakeSet e.oldWakeEn, relock := 0 } ∧
      t.power.refusals = s.power.refusals ∧ t.power.refusalLog = s.power.refusalLog ∧
      (∀ v, (s.pol owner).serving = some v → v.rule = .powerChange → ∃ a, (t.pol owner).serving = some { v with answer := some a, ready := true } ∧
        a.status = .aborted)) ∧
  (∀ (s : State) (e : Entry) (k reason : Nat), s.power.entry = some e → s.entryStops = false → e.step ≤ 8 → s.power.latches = 0 → e.lowered ≠ 0 →
    (s.stepsLeft e e.step).find? (· ≤ 7) = some k → s.refusalOf (stepDomain k) = some reason →
    ∃ t, exec .powerEntryStep s = .next t ∧ t.power.entry = none ∧ t.power.doms = s.power.doms ∧
      t.power.ret = some { doms := e.lowered, step := .v, cause := .abandoned e.oldWakeSet e.oldWakeEn, relock := 0 } ∧
      t.power.refusals.toList[stepDomain k - 1]? = (s.power.refusals.toList[stepDomain k - 1]?).map (fun c => min 65535 (c + 1)) ∧
      t.power.refusalLog = (({ tb := s.clock.tb, domain := stepDomain k, reason := reason, step := k, cmdSeq := BitVec.ofNat 16 e.esn } : RefusalEntry) ::
        s.power.refusalLog).take 16 ∧
      (∀ v, (s.pol owner).serving = some v → v.rule = .powerChange → ∃ a, (t.pol owner).serving = some { v with answer := some a, ready := true } ∧
        a.status = .refused)) ∧
  (∀ (s : State) (e : Entry) (k : Nat), s.power.entry = some e → s.entryStops = false → e.step ≤ 8 → s.power.latches = 0 →
    (s.stepsLeft e e.step).find? (· ≤ 7) = some k → s.refusalOf (stepDomain k) = none → s.stepCanAct k = true →
    ∃ t e', exec .powerEntryStep s = .next t ∧ t.power.entry = some e' ∧ e'.step = k + 1 ∧ e'.target = e.target ∧ e'.esn = e.esn ∧
      domAt t.power.doms (stepDomain k) = domAt e.target (stepDomain k) ∧
      (∀ n, 1 ≤ n → n ≤ 12 → n ≠ stepDomain k → domAt t.power.doms n = domAt s.power.doms n) ∧ t.clock.tb = s.clock.tb ∧ t.life = s.life ∧ t.therm = s.therm) ∧
  (∀ (s : State) (r : Returning), s.power.ret = some r → r.step = .v → (bits r.doms.toNat 3 0 = 0 ∨ s.power.sensorPointsWait = false) →
    exec .returnStepReady s = .next { s with power := { s.power with ret := some { r with step := .c } } }) ∧
  (∀ (s : State) (r : Returning), s.power.ret = some r → r.step = .c →
    exec .returnStepReady s = .next { s with power := { s.power with ret := some { r with step := .m } }, clock := { s.clock with pllOn := true } }) ∧
  (∀ (s : State) (r : Returning), s.power.ret = some r → r.step = .m →
    exec .returnStepReady s = .next { s with power := { s.power with ret := some { r with step := .l } } }) ∧
  (∀ (s : State) (r : Returning), s.power.ret = some r → r.step = .l → ∃ t, exec .returnStepReady s = .next t ∧ t.power.ret = none ∧
    (∀ n, 1 ≤ n → n ≤ 12 → domAt t.power.doms n = if r.doms.toNat.testBit (n - 1) then .on else domAt s.power.doms n) ∧
    (r.cause = .wake → t.power.latches = 0 ∧ t.power.firstLatch = none) ∧
    (∀ ws we, r.cause = .abandoned ws we → t.power.wakeSet = ws ∧ t.power.wakeEn = we ∧ t.power.latches = 0) ∧
    (r.doms.toNat.testBit 11 = true → t.host.wakeDone = true))
/-- REPLY_CARRIED_TIMEOUT, OP_POINT_VOLTAGE_READY, WAKE_EVENT, WAKE_MATCH, I2C_ADDR_MATCH and WAKE_N_FALL (R59, R148, R157, R159, R160, R164, R167, R169, R504, R509, R649): a reply to
the host counts as carried, a raised point takes effect, and each wake source latches its bit only where it is enabled and can wake. -/
def Obligations.WakeAndPointEvents : Prop :=
  (∀ s : State, s.power.shedding = true → exec .replyCarriedTimeout s = .next s ∧ exec .wakeEvent s = .next s) ∧
  (∀ s : State, s.power.shedding = false → s.carries.all (fun c => c.why ≠ .sysReset) = true → exec .replyCarriedTimeout s = .next { s with
      carries := s.carries.map (fun c => { c with carried := c.carried || (s.pol owner).journal.any (fun r => r.esn == c.esn && r.path == Path.host) }) }) ∧
  (∀ (s : State) (c : Carry), s.carries = [c] → c.why = .sysReset → s.arr.writes = [] → s.power.shedding = false → (s.pol owner).journal.any (fun r => r.esn == c.esn && r.path == Path.host) = true →
    ∃ t, exec .replyCarriedTimeout s = .next t ∧ t.restartCause = 3 ∧ t.power.seqRunning = false ∧ t.clock.tb = Tb.zero ∧ t.carries = []) ∧
  (∀ (s : State) (d : Fin 4) (p : Fin 3), s.power.pointNext[d] = some p → ∃ t, exec (.opPointVoltageReady d) s = .next t ∧
    t.power.points[d] = p ∧ t.power.pointNext[d] = none ∧ t.power.doms = s.power.doms ∧
    (∀ i : Fin 4, i.val < d.val → t.power.points[i] = s.power.points[i] ∧ t.power.pointNext[i] = s.power.pointNext[i]) ∧
    ((s.pol owner).serving = none → t.power = { s.power with points := s.power.points.set d p, pointNext := s.power.pointNext.set d none } ∧ t.pols = s.pols)) ∧
  (∀ s : State, s.power.latches ≠ 0 → s.power.shedding = false → s.power.entry = none → s.power.ret = none → s.domOn 7 = false →
    s.power.wakeSet.toNat.testBit 7 = true →
    ∃ m : BitVec 12, exec .wakeEvent s = .next { s with power := { s.power with ret := some { doms := m, step := .v, cause := .wake, relock := 0 } } } ∧
      (∀ n, 1 ≤ n → n ≤ 12 → m.toNat.testBit (n - 1) = (s.power.wakeSet.toNat.testBit n && !s.domOn n))) ∧
  (∀ (s : State) (port : Port) (target : BitVec 12),
    let i := if port = .a then 0 else 1
    s.domOn (9 + i) = false → wakeNames s.fab.addr target = true → s.power.lineGood = true → s.domOn 7 = false → s.power.entry = none →
    ∃ t, exec (.wakeMatch port target) s = .next t ∧ (t.port port).counters.toList[14]? = ((s.port port).counters.toList[14]?).map (fun c => min 65535 (c + 1)) ∧
      t.power = (if s.power.wakeEn.toNat.testBit i then
        { s.power with latches := s.power.latches ||| BitVec.ofNat 8 (2 ^ i), firstLatch := some (s.power.firstLatch.getD s.clock.tb) } else s.power)) ∧
  (∀ (s : State) (addr : BitVec 7), s.domOn 7 = false → s.power.entry = none →
    exec (.i2cAddrMatch addr) s = .next (if s.domOn 12 = false ∧ s.jtag.ir ≠ .extest ∧ s.power.wakeEn.toNat.testBit 2 = true ∧
        s.hostPol = owner ∧ addr.toNat = 0x4c + (if s.lands.straps.adr0High then 1 else 0) + (if s.lands.straps.adr1High then 2 else 0) then
      { s with power := { s.power with latches := s.power.latches ||| 4, firstLatch := some (s.power.firstLatch.getD s.clock.tb) } } else s)) ∧
  (∀ s : State, s.domOn 7 = false → s.power.entry = none →
    exec .wakeNFall s = .next (if s.landsFree = true ∧ s.power.wakeEn.toNat.testBit 3 = true ∧ s.hostPol = owner then
      { s with power := { s.power with latches := s.power.latches ||| 8, firstLatch := some (s.power.firstLatch.getD s.clock.tb) } } else s))

/-- ACK, DATA, WAKE, JOIN, DISCOVER and LINE_FRAME_BAD (R469 to R473, R476, R482, R487, R488, R490, R493, R496, R506, R508): a frame is taken from its bits in either polarity, a malformed
one is only counted, what the header of every frame settles, and what each kind does for the node it reaches; a keyed kind with another CMAC is only counted. -/
def Obligations.FramesHeard : Prop :=
  (∀ (s : State) (f : LineRx) (x : Instr), s.portTakes f.port = true → f.heard = none →
    x ∈ [Instr.ack f, Instr.data f, Instr.wake f, Instr.join f, Instr.discover f, Instr.route f, Instr.drain f, Instr.drainDone f, Instr.rangeEcho f,
      Instr.swapReq f, Instr.swapReady f, Instr.swapNot f, Instr.swapDone f] →
    exec x s = .next (s.countPort f.port 2)) ∧
  (∀ (s : State) (f : LineRx) (h : Heard), s.portTakes f.port = true → s.noResetWaits = true → f.heard = some h → h.kind = 3 →
    exec (.wake f) s = .next (s.headerTaken h)) ∧
  (∀ (s : State) (f : LineRx) (h : Heard) (u : Unacked) (n : Fin 63), s.portTakes f.port = true → s.noResetWaits = true → f.heard = some h → h.kind = 3 →
    h.slot = some n → n.val = addrSlot u.hop → (h.src = u.hop ∨ (s.port h.port).ownerSlot n.val = true) →
    u ∈ (s.port h.port).unacked → u.unread = true → h.ackmap.toNat.testBit u.slot = true →
    ∃ t, exec (.wake f) s = .next t ∧ u ∉ (t.port h.port).unacked) ∧
  (∀ (s : State) (f : LineRx) (h : Heard) (n : Fin 63), s.portTakes f.port = true → s.noResetWaits = true → f.heard = some h → h.kind = 3 →
    h.slot = some n → n.val = s.ownSlot → s.unaddressed = false →
    (s.port h.port).slotFrom = true → (s.port h.port).conflict = false → (s.port h.port).conflictNow = false →
    ∃ t, exec (.wake f) s = .next t ∧ (t.port h.port).conflictNow = true ∧ (t.port h.port).conflictRun = (s.port h.port).conflictRun + 1 ∧
      (t.port h.port).conflict = decide (2 ≤ (s.port h.port).conflictRun) ∧
      (2 ≤ (s.port h.port).conflictRun → (t.port h.port).contention.any TxFrame.isJoin = true)) ∧
  (∀ (s : State) (f : LineRx) (h : Heard), s.portTakes f.port = true → s.noResetWaits = true → f.heard = some h → h.kind = 0 →
    exec (.ack f) s = .next (if (s.headerTaken h).accepts h.port h.dst then (s.headerTaken h).countPort h.port 1 else s.headerTaken h)) ∧
  (∀ (s : State) (f : LineRx) (h : Heard), s.portTakes f.port = true → s.noResetWaits = true → f.heard = some h → h.kind = 1 → s.frameForNode h = true →
    exec (.data f) s = .next (if s.power.accepting then
        ((s.headerTaken h).countPort h.port 1).arrive { bytes := h.payload, path := .line h.src }
      else ((s.headerTaken h).countPort h.port 1).countPort h.port 3)) ∧
  (∀ (s : State) (f : LineRx) (h : Heard), s.portTakes f.port = true → s.noResetWaits = true → f.heard = some h → h.kind = 1 → h.slot.isSome = true →
    (s.headerTaken h).isHop h.port h.dst = true →
    ((s.headerTaken h).port h.port).isDuplicate { src := h.src, dst := h.dst, pol := some (Fin.ofNat 8 (h.payload.getD 1 0).toNat) } h.isNew h.fseq
      s.clock.elapsed = true →
    exec (.data f) s = .next (((s.headerTaken h).willAck h).countPort h.port 4)) ∧
  (∀ (s : State) (f : LineRx) (h : Heard), s.portTakes f.port = true → s.noResetWaits = true → f.heard = some h → h.kind = 4 →
    (s.fab.keyId = 0 ∨ s.macOk h = true) → (s.headerTaken h).accepts h.port h.dst = true →
    let j := JoinFields.decode h.payload
    (s.fab.role = 0 → exec (.join f) s = .next (((s.headerTaken h).countPort h.port 1).noteUid j.addr j.uid)) ∧
    (s.fab.role ≠ 0 → h.port = s.homePort → j.unaddressed = true →
      ∃ t, exec (.join f) s = .next t ∧ t.fab.joinQueue = (if s.fab.joinQueue.contains j.uid then s.fab.joinQueue else s.fab.joinQueue ++ [j.uid]))) ∧
  (∀ (s : State) (f : LineRx) (h : Heard), s.portTakes f.port = true → s.noResetWaits = true → f.heard = some h → h.kind = 5 → s.macOk h = true →
    (s.headerTaken h).accepts h.port h.dst = true → (h.payload.getD 0 0 = 0 ∨ (h.payload.getD 0 0 = 1 ∧ s.unaddressed = true)) →
    ∃ t, exec (.discover f) s = .next t ∧ (t.port h.port).contention.any TxFrame.isJoin = true ∧
      ((s.headerTaken h).port h.port).contention.length ≤ (t.port h.port).contention.length ∧
      (t.port h.port).contention.length ≤ ((s.headerTaken h).port h.port).contention.length + 1) ∧
  (∀ (s : State) (f : LineRx) (h : Heard) (x : Instr), s.portTakes f.port = true → s.noResetWaits = true → f.heard = some h →
    s.fab.keyId ≠ 0 → s.macOk h = false →
    (x, h.kind) ∈ [(Instr.join f, 4), (Instr.discover f, 5), (Instr.route f, 6), (Instr.drain f, 7), (Instr.drainDone f, 8)] →
    exec x s = .next ((s.headerTaken h).countPort h.port 13)) ∧
  (∀ (s : State) (f : LineRx) (h : Heard) (x : Instr), s.portTakes f.port = true → s.noResetWaits = true → f.heard = some h →
    (s.fab.keyId = 0 ∨ s.macOk h = true) → (s.headerTaken h).takes h.port h.dst = false →
    (x, h.kind) ∈ [(Instr.join f, 4), (Instr.discover f, 5), (Instr.route f, 6), (Instr.drain f, 7), (Instr.drainDone f, 8)] →
    exec x s = .next (s.headerTaken h)) ∧
  (∀ (s : State) (f : LineRx), s.portLive f.port = true →
    exec (.lineFrameBad f) s = .next (match f.heard with
      | none => s.countPort f.port 2
      | some h => if (h.kind = 2 ∨ 4 ≤ h.kind) ∧ s.fab.keyId ≠ 0 ∧ s.macOk h = false then s.countPort f.port 13 else s))
/-- ROUTE, ROUTE_LAPSE, DRAIN, DRAIN_DONE, HOLDBACK_EXPIRED, FWD_FRAME_TIMEOUT and FLOW_STATE_EXPIRY (R373, R490, R491, R498 to R502, R509): routes follow the adverts, a drain is handled
once, frames held back are released once, and each timer drops what it is for. -/
def Obligations.RoutingEvents : Prop :=
  (∀ (s : State) (f : LineRx) (h : Heard), s.portTakes f.port = true → s.noResetWaits = true → f.heard = some h → h.kind = 6 →
    (s.fab.keyId = 0 ∨ s.macOk h = true) → (s.headerTaken h).accepts h.port h.dst = true →
    let hops := (h.payload.drop 1).take 63
    ∃ t, exec (.route f) s = .next t ∧ (t.port h.port).adverts.head? = some { from_ := h.src, hops := hops } ∧
      (∀ a ∈ (t.port h.port).adverts, a.from_ = h.src → a.hops = hops) ∧ t.fab.routes = t.routeTable ∧ t.wheel = s.wheel) ∧
  (∀ (s : State) (g : Fin 63) (r : RouteEntry), s.fab.routes.find? (fun x => x.segment == BitVec.ofNat 6 g.val) = some r →
    (∀ a ∈ (s.port r.port).adverts, a.hops.length = 63) →
    ∃ t, exec (.routeLapse g) s = .next t ∧ (∀ x ∈ (t.port r.port).advertisers (BitVec.ofNat 6 g.val), x.2 ≠ r.nextHop) ∧ t.fab.routes = t.routeTable) ∧
  (∀ (s : State) (f : LineRx) (h : Heard), s.portTakes f.port = true → s.noResetWaits = true → f.heard = some h →
    (s.fab.keyId = 0 ∨ s.macOk h = true) → (s.headerTaken h).takes h.port h.dst = true →
    let d := DrainFields.decode h.payload
    (h.kind = 7 → s.drainSeen false d = true → exec (.drain f) s = .next (s.headerTaken h)) ∧
    (h.kind = 8 → s.drainSeen true d = true → exec (.drainDone f) s = .next (s.headerTaken h)) ∧
    (h.kind = 7 → s.drainSeen false d = false → ∃ t, exec (.drain f) s = .next t ∧ t.drainSeen false d = true) ∧
    (h.kind = 8 → s.drainSeen true d = false → ∃ t, exec (.drainDone f) s = .next t ∧ t.drainSeen true d = true ∧
      (∀ p, (s.headerTaken h).portSegment p = d.segS → (s.port p).holdBacks.any (fun b => b.segU == d.segU && b.old == d.oldClaimant) = true →
        (t.port p).holdBacks.any (fun b => b.segU == d.segU) = false))) ∧
  (∀ (s : State) (p : Port) (g : Fin 63), (s.port p).holdBacks.any (fun b => b.segU == BitVec.ofNat 6 g.val) = true →
    ∃ t, exec (.holdbackExpired p g) s = .next t ∧ (t.port p).holdBacks = (s.port p).holdBacks.filter (fun b => b.segU ≠ BitVec.ofNat 6 g.val) ∧
      (t.port p).counters.toList[10]? = ((s.port p).counters.toList[10]?).map (fun c => min 65535 (c + 1)) ∧
      (t.port (otherPort p)).fwd = (s.port (otherPort p)).fwd ++
        (((s.port p).holdBacks.filter (fun b => b.segU == BitVec.ofNat 6 g.val)).map (fun b => b.frames)).flatten) ∧
  (∀ (s : State) (p : Port), s.heldFor p = [] → exec (.fwdFrameTimeout p) s = .next s) ∧
  (∀ (s : State) (p : Port) (f : Flow) (arrived : Nat), oldestHeld (s.heldFor p) = some (f, arrived) →
    (∀ x ∈ s.heldFor p, arrived ≤ x.2) ∧
    ∃ t, exec (.fwdFrameTimeout p) s = .next t ∧ t.fab = s.fab ∧ t.pols = s.pols ∧
      (t.port p).fwd = (s.port p).fwd.filter (fun x => x.flow ≠ f ∨ (s.flowLeased p f = true ∧ x.at_ ≠ arrived)) ∧
      (t.port p).unacked = (s.port p).unacked.filter (fun u => u.flow ≠ f ∨ (s.flowLeased p f = true ∧ u.at_ ≠ arrived)) ∧
      (f, arrived) ∉ t.heldFor p ∧
      (t.port p).counters.toList[9]? = ((s.port p).counters.toList[9]?).map (fun c => min 65535 (c + ((s.heldFor p).length - (t.heldFor p).length)))) ∧
  (∀ (s : State) (p : Port) (src dst : BitVec 12) (pol : Option PolId), ∃ t, exec (.flowStateExpiry p src dst pol) s = .next t ∧
    (t.port p).rxFlows = (s.port p).rxFlows.filter (fun x => x.flow ≠ { src := src, dst := dst, pol := pol }) ∧
    t.port (otherPort p) = s.port (otherPort p) ∧ t.fab = s.fab ∧ t.pols = s.pols)

/-- DATA_SLOT_TX, CONTENTION_TX, JOIN_RETRY_TIMER, SLOT_CONFLICT_RETRY and ROUTE_ADVERT_TIMER (R469 to R472, R476, R477, R481, R484 to R489, R495, R496, R498, R506, R507, R592): a frame's bits give
the frame back in either polarity, its CMAC verifying; the node's own slot always carries a frame, the oldest reply of the polder it serves first, and a lent one forwarding only; a
contention is won, doubled or dropped; and what each timer queues. -/
def Obligations.FramesSent : Prop :=
  (∀ (port : Port) (slot : Option (Fin 63)) (slotted inverted : Bool) (key : Option (BitVec 128)) (cycle : W32) (f : TxFrame),
    lengthOk f.body.kind (f.body.payload.length + (if kindSigned f.body.kind then 8 else 0)) = true →
    let bs := f.bytes slotted key cycle
    let sent := lineBits (0xD5 :: (bs ++ leBytes 4 (crc32 bs)))
    (f.body.kind ≠ 3 → f.bits slotted key cycle = lineBits [0x55, 0x55] ++ sent) ∧
    ∃ h, LineRx.heard { port := port, slot := slot, bits := if inverted then sent.map (fun b => !b) else sent } = some h ∧
      h.port = port ∧ h.slot = slot ∧ h.dst = f.dst ∧ h.src = f.src ∧ h.kind = f.body.kind ∧ h.fseq = f.fseq ∧
      (slotted = true → h.ackmap = f.ackmap ∧ h.isNew = f.isNew) ∧ (slotted = false → h.ackmap = 0 ∧ h.isNew = false) ∧
      (kindSigned f.body.kind = false → h.payload = f.body.payload) ∧
      (kindSigned f.body.kind = true → h.signed = f.body.payload ∧ h.macOk key cycle = true)) ∧
  (∀ (s : State) (p : Port), s.usesSlots p = true → (s.slotsNow p)[(s.port p).slotsSent]? = some s.ownSlot → s.skipped p = true →
    (s.port p).slotFrom = true → s.carries.all (fun c => c.why ≠ .sysReset) = true →
    ∃ t f, exec (.dataSlotTx p) s = .next t ∧ (t.port p).lastTx = some f ∧ f.body = .ackOnly ∧ f.src = s.fab.addr ∧ f.ackmap = (s.port p).ackPending ∧
      (t.port p).txBits = f.bits true s.lineKeyNow (s.port p).cycle ∧ (t.port p).ackPending = 0 ∧ (t.port p).slotsSent = (s.port p).slotsSent + 1 ∧ t.pols = s.pols ∧
      (t.port p).counters.toList[4]? = ((s.port p).counters.toList[4]?).map (fun c => min 65535 (c + 1))) ∧
  (∀ (s : State) (p : Port) (q : PolId) (r : Reply) (d : BitVec 12), s.usesSlots p = true → (s.slotsNow p)[(s.port p).slotsSent]? = some s.ownSlot →
    s.skipped p = false → s.forwardCycle p = false → (s.port p).slotFrom = true → s.carries.all (fun c => c.why ≠ .sysReset) = true → s.sharePolder (s.shareSlot p) = some q →
    (s.port p).unacked = [] → (s.pol q).replyQ.head? = some r → r.path = .line d → s.portToward d = p → s.needsWake p d = false → addrBroadcast d = false →
    ∃ t f u, exec (.dataSlotTx p) s = .next t ∧ (t.port p).lastTx = some f ∧ f.body = .data (.reply r) ∧ f.dst = d ∧ f.src = s.fab.addr ∧
      (t.port p).txBits = f.bits true s.lineKeyNow (s.port p).cycle ∧
      f.ackmap = (s.port p).ackPending ∧ (t.pol q).replyQ = (s.pol q).replyQ.tail ∧ (t.port p).unacked = [u] ∧ u.tries = 0 ∧ u.slot = s.ownSlot ∧
      u.cycle = (s.port p).cycle ∧ u.unread = true ∧ u.frame.fseq = ((s.port p).txFlow { src := s.fab.addr, dst := d, pol := some q }).next ∧
      u.frame.isNew = !((s.port p).txFlow { src := s.fab.addr, dst := d, pol := some q }).started) ∧
  (∀ (s : State) (p : Port) (slot : Nat), s.usesSlots p = true → (s.slotsNow p)[(s.port p).slotsSent]? = some slot →
    (slot ≠ s.ownSlot ∨ (s.port p).slotFrom = false) → (s.port p).unacked = [] → (s.port p).fwd = [] → s.carries.all (fun c => c.why ≠ .sysReset) = true →
    exec (.dataSlotTx p) s = .next (s.modPort p (fun l => { l with slotsSent := l.slotsSent + 1 }))) ∧
  (∀ (s : State) (p : Port) (f : TxFrame) (rest : List TxFrame), s.portLive p = true → s.contentionHead p = some (f, rest) →
    (∃ t, exec (.contentionTx p false) s = .next t ∧ (t.port p).contention = rest ∧ (t.port p).lastTx = some f ∧ (t.port p).attempts = 0 ∧
      (t.port p).window = (if s.power.discoveryOver then 8 else 64) ∧ (t.port p).txBits = f.bits false s.lineKeyNow (s.port p).cycle ∧
      t.port (otherPort p) = s.port (otherPort p)) ∧
    ((s.port p).attempts < 4 → ∃ t, exec (.contentionTx p true) s = .next t ∧ (t.port p).contention = f :: rest ∧
      (t.port p).attempts = (s.port p).attempts + 1 ∧ (t.port p).window = min 1024 (2 * (s.port p).window) ∧
      (0 < (s.port p).window → (t.port p).backoff < (t.port p).window) ∧ (t.port p).lastTx = (s.port p).lastTx) ∧
    (4 ≤ (s.port p).attempts → ∃ t, exec (.contentionTx p true) s = .next t ∧ (t.port p).contention = rest ∧ (t.port p).attempts = 0 ∧
      (t.port p).lastTx = (s.port p).lastTx)) ∧
  (∀ s : State, ∃ t, exec .joinRetryTimer s = .next t ∧ t = { s with lineA := t.lineA, lineB := t.lineB, freeCtr := t.freeCtr } ∧
    (∀ p, s.portLive p = true → ((s.port p).mismatch || (s.port p).conflict) = true → (t.port p).contention.any TxFrame.isJoin = true) ∧
    (∀ p, ((s.port p).mismatch || (s.port p).conflict) = false → t.port p = s.port p)) ∧
  (∀ s : State, ∃ t, exec .slotConflictRetry s = .next t ∧ t = { s with lineA := t.lineA, lineB := t.lineB } ∧
    (∀ p, (t.port p).conflict = false ∧ ((s.port p).conflict = true → (t.port p).conflictRun = 0) ∧ ((s.port p).conflict = false → t.port p = s.port p))) ∧
  (∀ s : State, s.bridging = true → s.unaddressed = false → ∃ t, exec .routeAdvertTimer s = .next t ∧ t = { s with lineA := t.lineA, lineB := t.lineB } ∧
    (∀ p, s.portLive p = true → ∃ f, (t.port p).mgmt.head? = some f ∧ f.body = .route (s.advertised p) ∧ f.src = s.fab.addr ∧
      f.dst = segmentAll (s.portSegment p)))

/-- BEACON_TX, BEACON, BEACON_MISSED, REEVE_PRESUMED_LOST and ELECTION_DELAY_EXPIRED (R474, R475, R480, R492, R508, R513 to R516, R523, R529 to R534): a reeve's beacon says what the reeve is,
a worker keeps the beacon of its segment and may take its time, and a candidate that hears none becomes the reeve. -/
def Obligations.BeaconEvents : Prop :=
  (∀ s : State, s.portLive s.homePort = true → s.unaddressed = false → s.fab.role ≠ 0 → s.fab.handover = none →
    ∃ t f b, exec .beaconTx s = .next t ∧ (t.port s.homePort).lastTx = some f ∧ f.body = .beacon b ∧ f.dst = segmentAll s.ownSegment ∧ f.src = s.fab.addr ∧
      b.cycle = s.fab.cycle ∧ t.fab.cycle = s.fab.cycle + 1 ∧ b.segment = s.ownSegment ∧ b.rank = s.fab.rank ∧ b.reeveId = s.life.uid ∧
      b.fabricReeve = (s.fab.role == 2) ∧ b.tbTx = BitVec.ofNat 64 s.clock.tb.word ∧ b.held = s.fab.held ||| BitVec.ofNat 64 (2 ^ s.ownSlot) ∧
      (s.fab.role = 2 → b.timeValid = true ∧ b.hops = 0) ∧ (s.fab.role = 1 → s.fab.following = false → b.timeValid = false ∧ b.hops = 0xff) ∧
      (t.port s.homePort).cycle = b.cycle ∧ (t.port s.homePort).missed = 0 ∧ t.fab.heardNow = 0 ∧ t.fab.role = s.fab.role) ∧
  (∀ (s : State) (f : LineRx), s.portLive f.port = true → f.heard = none → exec (.beacon f) s = .next (s.countPort f.port 2)) ∧
  (∀ (s : State) (f : LineRx) (h : Heard), s.portLive f.port = true → f.heard = some h → h.kind = 2 →
    h.dst = segmentAll (BeaconFields.decode h.payload).segment → s.fab.keyId ≠ 0 → s.macOk h = false → exec (.beacon f) s = .next (s.countPort h.port 13)) ∧
  (∀ (s : State) (f : LineRx) (h : Heard), f.heard = some h → h.dst ≠ segmentAll (BeaconFields.decode h.payload).segment → exec (.beacon f) s = .next s) ∧
  (∀ (s : State) (f : LineRx) (h : Heard), s.portLive f.port = true → f.heard = some h → h.kind = 2 → (s.fab.keyId = 0 ∨ s.macOk h = true) →
    let b := BeaconFields.decode h.payload
    h.dst = segmentAll b.segment → b.reeveId ≠ s.life.uid → s.unaddressed = false →
    b.segment = s.ownSegment → s.fab.role = 0 → ((s.power.portMode = .tap ∧ h.port = s.homePort) ∨ (s.power.portMode = .bridge ∧ h.port = .a)) →
    ∃ t, exec (.beacon f) s = .next t ∧ (t.port h.port).last = some b ∧ (t.port h.port).lastSrc = h.src ∧ (t.port h.port).cycle = b.cycle ∧
      (t.port h.port).missed = 0 ∧ (t.port h.port).slotNext = !b.lend.toNat.testBit s.ownSlot ∧ (t.port h.port).mismatch = false ∧
      t.fab.candidate = false ∧ t.fab.presumed = false ∧ t.fab.role = 0 ∧ t.fab.hops = b.hops ∧
      (b.timeValid = false → t.fab.following = false ∧ t.clock.tb = s.clock.tb) ∧
      (b.timeValid = true → s.fab.timeFar = false → s.fab.synced = false → s.power.accepting = false → (s.port h.port).last.isSome = true →
        (s.port h.port).lastSrc = h.src →
        t.clock.tb = Tb.ofTicks ((Tb.ofWord b.tbTx.toNat).ticks + 1120 + s.fab.delay) ∧ t.fab.synced = true ∧ t.fab.following = true) ∧
      (b.timeValid = true → (s.fab.synced = true ∨ s.power.accepting = true) → t.clock.tb = s.clock.tb)) ∧
  (∀ (s : State) (p : Port), s.portLive p = true → (s.port p).last.isSome = true → s.fab.handover = none →
    ∃ t, exec (.beaconMissed p) s = .next t ∧ (t.port p).missed = (s.port p).missed + 1 ∧ (t.port p).cycle = (s.port p).cycle + 1 ∧
      (t.port p).slotsSent = 0 ∧ (t.port p).counters.toList[8]? = ((s.port p).counters.toList[8]?).map (fun c => min 65535 (c + 1)) ∧
      ((s.port p).missed = 2 → s.followedPort = some p → t.fab.following = false ∧ t.lands.beaconPhase.valid = false) ∧
      (s.fab.following = true → (s.port p).missed < 2 → t.fab.following = true) ∧ t.clock.tb = s.clock.tb) ∧
  (∀ (s : State) (b : BeaconFields), s.portLive s.homePort = true → s.fab.role = 0 → s.fab.presumed = false → (s.port s.homePort).last = some b →
    3 ≤ (s.port s.homePort).missed →
    ∃ t, exec (.reevePresumedLost s.homePort) s = .next t ∧ t.fab = { s.fab with presumed := true, candidate := s.isCandidate }) ∧
  (∀ s : State, s.fab.candidate = true → s.isCandidate = true → s.fab.role = 0 →
    (∃ t, exec (.electionDelayExpired true) s = .next t ∧ t.fab = s.fab ∧ t.freeCtr = s.freeCtr + 1 ∧
      ((t.port s.homePort).counters.toList[7]? = ((s.port s.homePort).counters.toList[7]?).map (fun c => min 65535 (c + 1)))) ∧
    ∃ t f b, exec (.electionDelayExpired false) s = .next t ∧ (t.port s.homePort).lastTx = some f ∧ f.body = .beacon b ∧ b.cycle = s.electedCycle ∧
      t.fab.candidate = false ∧ t.fab.presumed = false ∧
      t.fab.role = (if ((s.port s.homePort).last.elim s.fabricWanted.root BeaconFields.fabricReeve) = true then 2 else 1) ∧
      (∀ x, (s.port s.homePort).last = some x → b.held = x.held ∧ b.present = x.present))

/-- RANGE_REQ, RANGE_ECHO and RANGE_REQ_TIMER, SWAP_REQ, SWAP_READY, SWAP_NOT, SWAP_DONE and ROLE_SWAP_TIMEOUT (R445, R446, R517, R519, R520, R535 to R539): the echo of a measured round
trip, the delay it gives, and how a request for a role is answered and ends. -/
def Obligations.RangingAndSwaps : Prop :=
  (∀ (s : State) (f : LineRx) (h : Heard) (trip : Nat), s.portTakes f.port = true → s.noResetWaits = true → f.heard = some h → h.kind = 5 → s.macOk h = true →
    s.frameForNode h = true →
    let a := (s.headerTaken h).countPort h.port 1
    (h.payload.getD 0 0 = 2 → exec (.rangeReq f trip) s = .next (if s.fab.role ≠ 0 ∧ h.port = s.homePort then
      a.contendService h.port h.src 3 0 (BitVec.ofNat 48 trip) else a)) ∧
    (h.payload.getD 0 0 = 3 → exec (.rangeEcho f) s = .next (if s.followedPort = some h.port ∧ (s.port h.port).lastSrc = h.src then
      { a with fab := { a.fab with delay := field h.payload 2 6 / 2, ranged := true } } else a))) ∧
  (∀ (s : State) (p : Port), s.followedPort = some p → s.portLive p = true → s.unaddressed = false → 3 ≤ (s.port p).reeveBeacons → s.noService 2 = true →
    exec .rangeReqTimer s = .next (s.contendService p (s.port p).lastSrc 2 0 0)) ∧
  (∀ (s : State) (f : LineRx) (h : Heard) (x : Instr), s.portTakes f.port = true → s.noResetWaits = true → f.heard = some h → h.kind = 5 →
    s.fab.keyId ≠ 0 → s.macOk h = false →
    (x, h.payload.getD 0 0) ∈ [(Instr.rangeEcho f, (3 : Byte)), (Instr.swapReq f, 4), (Instr.swapReady f, 5), (Instr.swapNot f, 6), (Instr.swapDone f, 7)] →
    exec x s = .next ((s.headerTaken h).countPort h.port 13)) ∧
  (∀ (s : State) (f : LineRx) (h : Heard) (role : SwapRole), s.portTakes f.port = true → s.noResetWaits = true → f.heard = some h → h.kind = 5 →
    s.macOk h = true → s.frameForNode h = true → h.payload.getD 0 0 = 4 → h.payload.getD 1 0 = (if role = .segment then 1 else 2) →
    s.fab.swap = none → s.fab.doneSent = none →
    let stamp := BitVec.ofNat 48 (field h.payload 2 6)
    let a := (s.headerTaken h).countPort h.port 1
    (s.holdsRole role = false → exec (.swapReq f) s = .next (
      if s.fab.rank ≠ 0 ∧ s.fab.provisional = false ∧ (role = .fabric → s.fab.role = 1) then
        let x : Handover := { role := role, peer := h.src, stamp := stamp, holder := false, phase := 0, at_ := s.clock.tb }
        ({ a with fab := { a.fab with handover := some x } } : State).sendService h.src 5 (swapCode role) stamp
      else a.sendService h.src 6 (swapCode role) stamp)) ∧
    (s.holdsRole role = true → s.fab.handover = none →
      ∃ t x, exec (.swapReq f) s = .next t ∧ t.fab.handover = some x ∧ x.role = role ∧ x.peer = h.src ∧ x.stamp = stamp ∧ x.holder = true ∧ x.phase = 0 ∧
        (role = .fabric → t.fab.doneSent = some (role, h.src, stamp)) ∧ t.fab.role = s.fab.role)) ∧
  (∀ (s : State) (f : LineRx) (h : Heard) (w : SwapPending) (v : Serving), s.portTakes f.port = true → s.noResetWaits = true → f.heard = some h → h.kind = 5 →
    s.macOk h = true → s.frameForNode h = true → h.payload.getD 1 0 = (if w.role = .segment then 1 else 2) →
    s.fab.swap = some w → w.peer = h.src → (s.pol owner).serving = some v → v.rule = .swapOutcome →
    let stamp := BitVec.ofNat 48 (field h.payload 2 6)
    (h.payload.getD 0 0 = 6 → stamp = stamp48 w.stamp → ∃ t, exec (.swapNot f) s = .next t ∧ t.fab.swap = none ∧ (t.pol owner).serving = some
      { v with answer := some { status := .notPermitted, effectFrame := none, results := [] }, ready := true }) ∧
    (h.payload.getD 0 0 = 7 → stamp = stamp48 w.stamp → s.fab.handover = none → ∃ t, exec (.swapDone f) s = .next t ∧ t.fab.swap = none ∧
      (t.pol owner).serving = some
        { v with answer := some { status := .ok, effectFrame := none, results := w.stamp.bytes ++ s.clock.tb.bytes }, ready := true }) ∧
    (h.payload.getD 0 0 = 7 → stamp ≠ stamp48 w.stamp → s.fab.handover = none → ∃ t, exec (.swapDone f) s = .next t ∧ t.fab.swap = none ∧
      ∃ a, (t.pol owner).serving = some { v with answer := some a, ready := true } ∧ a.status = .swapCrossed) ∧
    (h.payload.getD 0 0 = 5 → stamp = stamp48 w.stamp → s.holdsRole w.role = false → s.fab.handover = none →
      ∃ t, exec (.swapReady f) s = .next t ∧ t.fab.swap = none ∧ (t.pol owner).serving = some
        { v with answer := some { status := .notPermitted, effectFrame := none, results := [] }, ready := true })) ∧
  (∀ (s : State) (f : LineRx) (h : Heard) (w : SwapPending), s.portTakes f.port = true → s.noResetWaits = true → f.heard = some h → h.kind = 5 →
    s.macOk h = true → s.frameForNode h = true → h.payload.getD 0 0 = 5 → h.payload.getD 1 0 = (if w.role = .segment then 1 else 2) →
    BitVec.ofNat 48 (field h.payload 2 6) = stamp48 w.stamp → s.fab.swap = some w → w.peer = h.src → s.holdsRole w.role = true → s.fab.handover = none →
    ∃ t x, exec (.swapReady f) s = .next t ∧ t.fab.handover = some x ∧ x.holder = true ∧ x.role = w.role ∧ x.peer = h.src) ∧
  (∀ (s : State) (w : SwapPending), s.fab.swap = some w → ∃ t, exec .roleSwapTimeout s = .next t ∧ t.fab = { s.fab with swap := none } ∧
    (∀ v, (s.pol owner).serving = some v → v.rule = .swapOutcome → (t.pol owner).serving = some
      { v with answer := some { status := .timeout, effectFrame := none, results := w.stamp.bytes }, ready := true }) ∧
    t = { s with fab := { s.fab with swap := none }, pols := t.pols })

/-- TXFIFO, TXFIFO_PACKET_TO_INTAKE, RXFIFO, RXFIFO_ENQUEUE, IRQ_FLAGS and HOST_REGISTER_WRITE (R115, R148, R626, R629, R632 to R643): what the two FIFOs and
the window take and give, the flags and counters of a discard, and a transaction on a transport that is not selected, which changes nothing. -/
def Obligations.HostEvents : Prop :=
  (∀ (s : State) (bus : HostBus) (n : Nat) (h : Byte) (read ends : Bool) (bytes : List Byte), s.busServes bus = false →
    exec (.txfifo bus bytes ends) s = .next s ∧ exec (.rxfifo bus n ends) s = .next s ∧ exec (.hostRegisterWrite bus h read bytes ends) s = .next s) ∧
  (∀ (s t : State) (bus : HostBus) (before after : List Byte) (ends : Bool), s.busServes bus = true → exec (.txfifo bus before false) s = .next t →
    exec (.txfifo bus after ends) t = exec (.txfifo bus (before ++ after) ends) s ∧ t.host.xfer.isSome = true ∧
    (t.hostPol = owner → t.refusalOf 12 = some 4)) ∧
  (∀ (s : State) (bus : HostBus) (len : Nat) (body : List Byte), s.busServes bus = true → s.domOn 7 = true → s.host.xfer = none → len < 65536 →
    let on : State := { s with host := { s.host with sel := some (s.host.sel.getD bus) } }
    let h : HostPort := { on.host with headerOut := if bus = .spi then BitVec.ofNat 8 on.statusWord else s.host.headerOut }
    (16 ≤ len → len ≤ 128 → body.length = len → 2 + len ≤ s.host.txFree →
      exec (.txfifo bus (leBytes 2 len ++ body) true) s = .next { s with host := { h with tx := s.host.tx ++ [{ bytes := body, path := Path.host }] } }) ∧
    (16 ≤ len → len ≤ 128 → body.length = len → s.host.txFree < 2 + len →
      exec (.txfifo bus (leBytes 2 len ++ body) true) s = .next { s with host := { h with txOvf := true, txOvfCnt := min 255 (s.host.txOvfCnt + 1) } }) ∧
    (len < 16 ∨ 128 < len →
      exec (.txfifo bus (leBytes 2 len ++ body) true) s = .next { s with host := { h with pktErr := true, pktErrCnt := min 255 (s.host.pktErrCnt + 1) } }) ∧
    (16 ≤ len → len ≤ 128 → body.length < len → 2 + len ≤ s.host.txFree →
      exec (.txfifo bus (leBytes 2 len ++ body) true) s = .next { s with host := { h with pktErr := true, pktErrCnt := min 255 (s.host.pktErrCnt + 1) } }) ∧
    ∀ b, exec (.txfifo bus [b] true) s = .next { s with host := { h with pktErr := true, pktErrCnt := min 255 (s.host.pktErrCnt + 1) } }) ∧
  (∀ (s : State) (pk : Packet) (rest : List Packet), s.host.tx = pk :: rest → s.hostActive = true → s.domOn 7 = true → s.domOn 8 = true →
    s.host.leaving = none →
    (pk.pol ≠ s.hostPol → exec .txfifoPacketToIntake s =
      .next { s with host := { s.host with tx := rest, bindMissCnt := min 255 (s.host.bindMissCnt + 1) } }) ∧
    (pk.pol = s.hostPol → (s.pol pk.pol).intake.length < 4 → ∃ t, exec .txfifoPacketToIntake s = .next t ∧ t.host = { s.host with tx := rest } ∧
      t.pol pk.pol = { s.pol pk.pol with intake := (s.pol pk.pol).intake ++ [pk] } ∧ (∀ p, p ≠ pk.pol → t.pol p = s.pol p) ∧
      t = { s with host := t.host, pols := t.pols }) ∧
    (pk.pol = s.hostPol → 4 ≤ (s.pol pk.pol).intake.length → exec .txfifoPacketToIntake s = .next s)) ∧
  (∀ (s : State) (bus : HostBus) (n : Nat), s.busServes bus = true → s.carries = [] → s.host.xfer = none → 0 < n →
    let on : State := { s with host := { s.host with sel := some (s.host.sel.getD bus) } }
    let h : HostPort := { on.host with headerOut := if bus = .spi then BitVec.ofNat 8 on.statusWord else s.host.headerOut }
    (s.host.rx = [] → exec (.rxfifo bus n true) s = .next { s with host := { h with
      readOut := [], readBytes := List.replicate n 0, rxUnf := true, rxUnfCnt := min 255 (s.host.rxUnfCnt + n) } }) ∧
    (∀ (k : OutPacket) (rest : List OutPacket), s.host.rx = k :: rest →
      let out := (List.range n).map (fun i => (leBytes 2 k.size ++ k.bytes).getD (s.host.rxRead + i) 0)
      (s.host.rxRead + n < 2 + k.size → exec (.rxfifo bus n true) s =
        .next { s with host := { h with rxRead := s.host.rxRead + n, readOut := [], readBytes := out } }) ∧
      (s.host.rxRead + n = 2 + k.size → exec (.rxfifo bus n true) s =
        .next { s with host := { h with rx := rest, rxRead := 0, readOut := [k], readBytes := out } }))) ∧
  (∀ s : State, s.domOn 12 = true → s.bist.unusable.toNat.testBit 11 = false → s.blockUnderTest 11 = false → s.host.leaving = none →
    (∀ (r : Reply) (rest : List Reply), s.host.waiting = r :: rest → 18 ≤ s.host.rxFree → exec .rxfifoEnqueue s =
      .next { s with host := { s.host with waiting := rest, rx := s.host.rx ++ [.reply r] } }) ∧
    (∀ (r : Reply) (rest : List Reply), s.host.waiting = [] → 130 ≤ s.host.rxFree → (s.pol s.hostPol).replyQ = r :: rest → r.path = .host →
      ∃ t, exec .rxfifoEnqueue s = .next t ∧ t.host = { s.host with rx := s.host.rx ++ [.reply r] } ∧
        t.pol s.hostPol = { s.pol s.hostPol with replyQ := rest } ∧ (∀ p, p ≠ s.hostPol → t.pol p = s.pol p)) ∧
    (∀ (r : DlvRec) (before after : List DlvRec), s.host.waiting = [] → 130 ≤ s.host.rxFree → (s.pol s.hostPol).replyQ = [] →
      (s.pol s.hostPol).dlv = before ++ r :: after → (∀ b ∈ before, ∃ d, b.path = some (.line d)) → r.path = some .host →
      r.ersEq < (s.pol s.hostPol).sR → r.key = (s.pol s.hostPol).key →
      ∃ t c, exec .rxfifoEnqueue s = .next t ∧
        t.host = { s.host with rx := s.host.rx ++ [.frag s.hostPol r.ersEq r.sent (12 + r.body.length) c r.key] } ∧
        (t.pol s.hostPol).dlv = before ++ (if r.sent + 1 < r.frags then { r with sent := r.sent + 1 } :: after else after)) ∧
    (s.host.waiting = [] → s.host.rxFree < 130 → exec .rxfifoEnqueue s = .next s)) ∧
  (∀ (s : State) (w : W32), s.hostActive = true → exec (.irqFlags w) s = .next { s with host := { s.host with
      wakeDone := s.host.wakeDone && !w.toNat.testBit 2, txOvf := s.host.txOvf && !w.toNat.testBit 3, pktErr := s.host.pktErr && !w.toNat.testBit 4,
      rxUnf := s.host.rxUnf && !w.toNat.testBit 5, lcChange := s.host.lcChange && !w.toNat.testBit 6 } }) ∧
  (∀ (s : State) (bus : HostBus) (h : Byte) (bytes : List Byte), s.busServes bus = true → s.noResetWaits = true → s.host.xfer = none →
    let on : State := { s with host := { s.host with sel := some (s.host.sel.getD bus) } }
    let sel : HostPort := { on.host with headerOut := if bus = .spi then BitVec.ofNat 8 on.statusWord else s.host.headerOut }
    ((if bus = .spi then h.toNat / 32 % 4 else h.toNat / 32) ≠ 0 → h.toNat.testBit 7 = false ∨ bus = .i2c →
      exec (.hostRegisterWrite bus h false bytes true) s = .next { s with host := sel }) ∧
    (∀ b0 b1 b2 b3, h = 3 → bytes = [b0, b1, b2, b3] → exec (.hostRegisterWrite bus h false bytes true) s =
      .next { s with host := { sel with irqEn := BitVec.ofNat 32 (b0.toNat % 128) } }) ∧
    (h = 0 ∨ h = 1 ∨ h = 6 ∨ h = 7 ∨ h = 8 ∨ h = 9 ∨ h = 10 → bytes.length = 4 →
      exec (.hostRegisterWrite bus h false bytes true) s = .next { s with host := sel }) ∧
    ((bus = .spi ∧ h = 0x80) ∨ (bus = .i2c ∧ h = 0) → bytes.length = 4 → exec (.hostRegisterWrite bus h true bytes true) s =
      .next { s with host := { sel with readOut := [], readBytes := [0x12, 0x16, 0x01, 0x00] } }) ∧
    ((bus = .spi ∧ h = 0x86) ∨ (bus = .i2c ∧ h = 6) → bytes.length = 4 → ∃ t, exec (.hostRegisterWrite bus h true bytes true) s = .next t ∧
      t.clock.secShadow = s.clock.tb.sec ∧ t.host.readBytes = leBytes 4 s.clock.tb.sub.toNat ∧ t.clock.tb = s.clock.tb) ∧
    ∃ t, exec (.hostRegisterWrite bus h false bytes false) s = .next t ∧ t.host.xfer.isSome = true)

/-- DALI_FRAME_RECEIVE, DALI_BUS_POWER_LOST, DALI_BUS_POWER_RESTORED, DALI_REPORT_TIMER and DALI_EVENT_SEND (R651 to R657): the answers the spec fixes for
the two instances, frames that are not for this device, the addressing commands, and events on a bus without power. The opcodes and the special commands
are those of the standard (notes/assumptions/7.md). -/
def Obligations.DaliEvents : Prop :=
  (∀ (s : State) (f : DaliFrame), s.daliActive = false ∨ s.dali.busDown = true → exec (.daliFrameReceive f) s = .next s) ∧
  (∀ (s : State) (f : DaliFrame), s.daliActive = true → s.dali.busDown = false → f.address ≠ 0xc1 → daliAddressed f s.daliWanted.shortAddr = false →
    exec (.daliFrameReceive f) s = .next { s with dali := { s.dali with answer := none } }) ∧
  (∀ (s : State) (f : DaliFrame), s.daliActive = true → s.dali.busDown = false → f.address ≠ 0xc1 → daliAddressed f s.daliWanted.shortAddr = true →
    let said : Option Byte → Host.Outcome State Fault Refusal := fun a => .next { s with dali := { s.dali with answer := a } }
    (f.inst = 0xfe → f.opcode = 0x35 → exec (.daliFrameReceive f) s = said (some 2)) ∧
    (f.inst = 0 → f.opcode = 0x80 → exec (.daliFrameReceive f) s = said (some 3)) ∧
    (f.inst = 1 → f.opcode = 0x80 → exec (.daliFrameReceive f) s = said (some 4)) ∧
    (f.inst = 0 → f.opcode = 0x8c → s.daliArea 0 = none → exec (.daliFrameReceive f) s = said none) ∧
    (∀ a, f.inst = 0 → f.opcode = 0x8c → s.daliArea 0 = some a → exec (.daliFrameReceive f) s =
      said (some (match s.dali.occupied, s.dali.movement with
        | false, false => 0x00
        | false, true => 0x55
        | true, false => 0xaa
        | true, true => 0xff))) ∧
    (∀ a, f.inst = 1 → f.opcode = 0x8c → s.daliArea 1 = some a → exec (.daliFrameReceive f) s = said (some (BitVec.ofNat 8 (s.dali.lux / 256)))) ∧
    (∀ a, f.inst = 1 → f.opcode = 0x8d → s.daliArea 1 = some a → exec (.daliFrameReceive f) s = said (some (BitVec.ofNat 8 s.dali.lux))) ∧
    (∀ a, f.inst = 0 → f.opcode = 0x2d → s.daliArea 0 = some a →
      exec (.daliFrameReceive f) s = said (some (BitVec.ofNat 8 (min 254 ((a.holdSeconds + 9) / 10))))) ∧
    (f.inst = 0 → f.opcode = 0x21 → exec (.daliFrameReceive f) s = said none) ∧
    (f.inst.toNat < 2 → f.opcode = 0x82 → s.daliArea f.inst.toNat = none → exec (.daliFrameReceive f) s = said (some 0xff))) ∧
  (∀ (s : State) (f : DaliFrame), s.daliActive = true → s.dali.busDown = false → f.address = 0xc1 →
    (f.inst = 0x08 → s.dali.initialised = true → s.daliWanted.randomAddr = s.dali.searchAddr → f.opcode.toNat < 64 → f.opcode ≠ s.daliWanted.shortAddr →
      (∀ w ∈ s.arr.writes, w.value.item ≠ 0x13) →
      let w : ItemWrite := { value := .dali { s.arr.dali with shortAddr := f.opcode }, pol := s.bindHolder 2, pagesLeft := itemPages 0x13, started := false }
      exec (.daliFrameReceive f) s =
        .next { s with dali := { s.dali with answer := none }, arr := { s.arr with writes := s.arr.writes ++ [w] } }) ∧
    (f.inst = 0x03 → exec (.daliFrameReceive f) s = .next { s with dali := { s.dali with
      answer := if s.dali.initialised && decide (s.daliWanted.randomAddr.toNat ≤ s.dali.searchAddr.toNat) then some 0xff else none } }) ∧
    (f.inst = 0x05 ∨ f.inst = 0x06 ∨ f.inst = 0x07 → ∃ t, exec (.daliFrameReceive f) s = .next t ∧
      t = { s with dali := { s.dali with answer := none, searchAddr := t.dali.searchAddr } } ∧
      (t.dali.searchAddr.toNat / 256 ^ (7 - f.inst.toNat)) % 256 = f.opcode.toNat)) ∧
  (∀ s : State, s.daliActive = true →
    exec .daliBusPowerLost s = .next { s with dali := { s.dali with busDown := true, pendingEv := [] } } ∧
    exec .daliBusPowerRestored s = .next { s with dali := { s.dali with busDown := false } }) ∧
  (∀ (s : State) (inst : Fin 2), (s.dali.timerOn[inst] = false ∨ s.dali.busDown = true ∨ s.daliArea inst.val = none →
      exec (.daliReportTimer inst) s = .next s) ∧
    (∀ a, s.dali.timerOn[inst] = true → s.dali.busDown = false → s.daliArea inst.val = some a → s.daliActive = true →
      let info : Nat := if inst = 0 then 2 * (if s.dali.occupied then 1 else 0) + (if s.dali.movement then 1 else 0) else s.dali.lux / 64
      exec (.daliReportTimer inst) s = .next { s with dali := { s.dali with pendingEv := s.dali.pendingEv ++ [(inst.val, info)],
                                                                            timerOn := s.dali.timerOn.set inst true } })) ∧
  (∀ (s : State) (e : Nat × Nat) (rest : List (Nat × Nat)), s.dali.pendingEv = e :: rest →
    exec (.daliEventSend true) s = .next s ∧
    (s.daliActive = true → s.dali.busDown = false →
      exec (.daliEventSend false) s = .next { s with dali := { s.dali with pendingEv := rest, sentEv := [e] } }))

/-- THERMAL_MODEL_RUN, THROTTLE_DECISION_STOPPED and THROTTLE_PAUSE_END (R576, R578, R581 to R583, R585 to R592, R596): one run of the model on the six sites
and the module, the monitors' check and charge, the step in force with its hysteresis, and the pauses. -/
def Obligations.ThermalEvents : Prop :=
  (∀ (s : State) (m : ThermReadings), s.power.aonReady = false → exec (.thermalModelRun m) s = .next s) ∧
  (∀ (s : State) (m : ThermReadings), s.power.aonReady = true →
    let checked := (List.range 13).foldl (State.checkOverdraw m) ((List.range 13).foldl (State.checkMonitor m) s)
    exec (.thermalModelRun m) s = .next { checked with therm := { checked.therm with
      sites := s.therm.sites.mapIdx (fun k t => siteNext t s.therm.module (checked.siteInput m k)),
      module := moduleNext (s.therm.sites.mapIdx (fun k t => siteNext t s.therm.module (checked.siteInput m k))).toList s.therm.module
        (checked.moduleInput m),
      currents := Vector.ofFn (fun i : Fin 13 => (checked.currentOf m i.val).round.toNat), moduleDraw := m.moduleDraw,
      chargeSum := Thermal.initial.chargeSum, chargeTicks := 0 } } ∧
    checked.clock = s.clock ∧ checked.wheel = s.wheel ∧ checked.therm.step = s.therm.step ∧
    (∀ i : Nat, i < 13 → s.therm.broken.toList.getD i false = true → checked.therm.broken.toList.getD i false = true) ∧
    (∀ i : Nat, i < 13 → s.therm.broken.toList.getD i false = false → s.therm.disagree.toList.getD i 0 < 7 →
      checked.therm.broken.toList.getD i false = false)) ∧
  (∀ (s : State) (i : Nat), s.monState i ≠ .on → (∀ r ∈ s.therm.raised, r.1 ≠ i) → s.charge i = Frac.ofNat 0) ∧
  (∀ (s : State) (m : ThermReadings) (i : Nat), s.therm.broken.toList.getD i false = true →
    s.currentOf m i = match s.meanRatio m i with
      | some g => (Frac.ofNat (s.activity m i)).mul g
      | none => Frac.ofNat (s.activity m i)) ∧
  (∀ s : State, s.wheel.turning = true ∨ s.power.aonReady = false → exec .throttleDecisionStopped s = .next s) ∧
  (∀ s : State, s.wheel.turning = false → s.power.aonReady = true → ∃ t, exec .throttleDecisionStopped s = .next t ∧
    t.therm = { s.therm with step := t.therm.step } ∧ t.wheel = s.wheel ∧ t.clock = s.clock ∧
    (let e := s.therm.estimate
     let target : Nat := if e < 10500 then 0 else if e < 10700 then 1 else if e < 10900 then 2 else if e < 11100 then 3 else if e < 11300 then 4
       else if e < 11500 then 5 else 6
     (s.therm.step ≤ target → t.therm.step = target) ∧
     (target < s.therm.step → e < 10300 + 200 * (s.therm.step : Int) - 100 → t.therm.step = s.therm.step - 1) ∧
     (target < s.therm.step → 10300 + 200 * (s.therm.step : Int) - 100 ≤ e → t.therm.step = s.therm.step))) ∧
  (∀ s : State, s.wheel.pauses = 0 → exec .throttlePauseEnd s = .next s) ∧
  (∀ s : State, 1 < s.wheel.pauses ∨ (s.wheel.pauses = 1 ∧ s.therm.step ≠ 6) →
    exec .throttlePauseEnd s = .next { s with wheel := { s.wheel with pauses := s.wheel.pauses - 1 } }) ∧
  (∀ s : State, s.wheel.pauses = 1 → s.therm.step = 6 → ∃ t, exec .throttlePauseEnd s = .next t ∧
    (11400 ≤ s.therm.estimate → t.therm.step = 6 ∧ t.wheel.pauses = 16 ∧ t.wheel.pauseCount = (s.wheel.pauseCount + 16) % 4294967296) ∧
    (s.therm.estimate < 11400 → t.therm.step = 5 ∧ t.wheel.pauses = 0 ∧ t.wheel.pauseCount = s.wheel.pauseCount))

/-- ITEM_WRITE_START, PAGE_PROGRAM_COMPLETE, ARRAY_LEASE_EXPIRED and LOG_PAGE_TIMER (R95, R373, R374, R453, R546 to R549, R552, R554, R559, R560, R563, R564, R570,
R571, R593): an item write goes page by page in its polder's slices and commits with its last page, an update's pages answer the command that waits, a
slice takes at most 4 pulses on the bank of the running image and 17 on the other, a page that fails after 100 goes to a spare or fails its write, and a lease that runs out abandons its update. -/
def Obligations.ArrayEvents : Prop :=
  let room : State → PolId → PageJob → Nat := fun s p j => if s.jobBank p j = s.arr.running then 4 - s.arr.used.1 else 17 - s.arr.used.2
  let fits : State → PolId → PageJob → Nat → Prop := fun s p j n => 1 ≤ n ∧ 1 ≤ room s p j ∧ n ≤ s.arr.applied[p] + room s p j
  let counted : State → PolId → PageJob → Nat → ArrayS := fun s p j n =>
    let now := max 1 (n - s.arr.applied[p])
    { s.arr with applied := s.arr.applied.set p 0,
                 used := if s.jobBank p j = s.arr.running then (s.arr.used.1 + now, s.arr.used.2) else (s.arr.used.1, s.arr.used.2 + now) }
  (∀ (s : State) (p : PolId), s.arrayServes = false ∨ s.holdup.low = true ∨ (p, PageJob.item) ∈ s.arr.jobs → exec (.itemWriteStart p) s = .next s) ∧
  (∀ (s : State) (p : PolId) (w : ItemWrite) (rest : List ItemWrite), s.arrayServes = true → s.holdup.low = false → s.power.entry = none →
    s.arr.jobs = [] → s.arr.heldJobs = [] → s.arr.writes = w :: rest → w.pol = p → w.started = false → (∀ x ∈ rest, x.started = false ∨ x.pol ≠ p) →
    (s.itemSpaced w.value.item = true → exec (.itemWriteStart p) s =
      .next { s with arr := { s.arr with writes := { w with started := true } :: rest, jobs := [(p, .item)] } }) ∧
    (s.itemSpaced w.value.item = false → rest = [] → exec (.itemWriteStart p) s = .next s)) ∧
  (∀ (s : State) (verified : Bool) (n : Nat), s.power.shedding = false → s.arrayServes = false ∨ s.curSlice = none ∨ (verified = false ∧ n ≠ 100) ∨
      (∃ p, s.curSlice = some p ∧ ∀ j ∈ s.arr.jobs, j.1 ≠ p) → exec (.pageProgramComplete verified n) s = .next s) ∧
  (∀ (s : State) (p : PolId) (j : PageJob) (rest : List (PolId × PageJob)) (verified : Bool) (n : Nat), s.power.shedding = false → s.curSlice = some p →
    s.arr.jobs = (p, j) :: rest → ¬ fits s p j n → exec (.pageProgramComplete verified n) s = .next s) ∧
  (∀ (s : State) (verified : Bool) (n : Nat), s.power.shedding = true → ∃ t, exec (.pageProgramComplete verified n) s = .next t ∧ t.arr.jobs = [] ∧
    (verified = false ∨ s.arr.jobs = [] → t = { s with arr := { s.arr with jobs := [] } }) ∧
    (∀ (p : PolId) (w : ItemWrite), verified = true → s.arr.jobs = [(p, .item)] → s.arr.writes = [w] → w.started = true → w.pol = p →
      t = { s with arr := { (if w.pagesLeft ≤ 2 then s.arr.commit w.value else s.arr) with jobs := [] } })) ∧
  (∀ (s : State) (p : PolId) (w : ItemWrite) (jobs : List (PolId × PageJob)) (n : Nat), s.power.shedding = false → s.arrayServes = true →
    s.curSlice = some p → p ≠ owner → s.arr.jobs = (p, .item) :: jobs → s.arr.writes = [w] → w.started = true → w.pol = p → fits s p .item n →
    (1 < w.pagesLeft → s.power.entry = none → s.holdup.low = false → exec (.pageProgramComplete true n) s =
      .next { s with arr := { counted s p .item n with jobs := jobs ++ [(p, .item)], writes := [{ w with pagesLeft := w.pagesLeft - 1 }] } }) ∧
    (w.pagesLeft ≤ 1 → (∀ q, (s.pol q).serving = none) → s.carries = [] → ∃ t, exec (.pageProgramComplete true n) s = .next t ∧
      t.arr.writes = [] ∧ t.arr.jobs = jobs ∧ t.arr.used = (counted s p .item n).used ∧ t.arr.applied = (counted s p .item n).applied ∧ t.clock = s.clock ∧
      (∃ c ∈ t.arr.copies, c.item = w.value.item ∧ c.value = w.value ∧ (∀ d ∈ s.arr.copies, d.item = c.item → d.gen < c.gen) ∧
        ∀ d, d ∈ t.arr.copies ↔ d = c ∨ (d ∈ s.arr.copies ∧ ¬ (d.item = c.item ∧ d.slot = c.slot))) ∧
      (∀ q v, w.value = .seqs q (some v) → s.lives q = true → (t.pol q).cR = max (s.pol q).cR v.cR ∧ (t.pol q).sR = max (s.pol q).sR v.sR) ∧
      (∀ v, w.value = .dali v → t.arr.dali = v ∧ t.pols = s.pols) ∧ (∀ v, w.value = .colState v → t.arr.colState = some v) ∧ (∀ v, w.value = .fabric v → t.arr.fabric = v) ∧
      t.arr.user = s.arr.user ∧ t.arr.fw0 = s.arr.fw0 ∧ t.arr.fw1 = s.arr.fw1)) ∧
  (∀ (s : State) (h : W16) (off : Nat) (bytes : List Byte) (v : Serving) (a : Answer) (n : Nat), s.power.shedding = false → s.arrayServes = true →
    s.curSlice = some owner → s.ownerMayProgram = true → s.arr.jobs = [(owner, .arrWrite h off bytes)] → (s.pol owner).serving = some v →
    v.answer = some a → (s.pol owner).replyQ.length < 8 → fits s owner (.arrWrite h off bytes) n →
    ∃ t, exec (.pageProgramComplete true n) s = .next t ∧ t.arr.jobs = [] ∧
      (t.pol owner).serving = none ∧ (∃ r, (t.pol owner).replyQ = (s.pol owner).replyQ ++ [r] ∧ r.status = a.status ∧ r.esn = v.entry.esn) ∧
      t.arr.user = s.arr.user ∧ t.arr.fw0 = s.arr.fw0 ∧ t.arr.fw1 = s.arr.fw1 ∧ t.arr.logCells = s.arr.logCells ∧
      t.arr.updates = s.arr.updates.map (fun u => if u.handle = h then
        { u with data := bytes.mapIdx (fun i b => (off + i, b)) ++ u.data.filter (fun c => c.1 < off || off + bytes.length ≤ c.1) } else u)) ∧
  (∀ (s : State) (u : Update) (v : Serving) (a : Answer) (n : Nat), s.power.shedding = false → s.arrayServes = true →
    s.curSlice = some owner → s.ownerMayProgram = true → s.arr.jobs = [(owner, .arrCommit u.handle 1)] → (s.pol owner).serving = some v →
    v.answer = some a → (s.pol owner).replyQ.length < 8 → s.arr.updates = [u] → u.region.val = 6 → fits s owner (.arrCommit u.handle 1) n →
    ∃ t, exec (.pageProgramComplete true n) s = .next t ∧ t.arr.updates = [] ∧ (t.pol owner).serving = none ∧
      (∃ r, (t.pol owner).replyQ = (s.pol owner).replyQ ++ [r] ∧ r.status = a.status ∧ r.esn = v.entry.esn) ∧
      t.arr.user.isOpen = false ∧ t.arr.user.valid = true ∧ t.arr.user.len = field v.entry.params 0 4 ∧
      t.arr.user.half = (s.arr.user.valid && !s.arr.user.half) ∧
      t.arr.fw0 = s.arr.fw0 ∧ t.arr.fw1 = s.arr.fw1 ∧ t.arr.logCells = s.arr.logCells ∧
      (∀ x : Nat, cellsRead t.arr.user.content x =
        if x < field v.entry.params 0 4 then ((u.data.find? (fun c => c.1 = x)).map (·.2)).getD 0 else 0)) ∧
  (∀ (s : State) (n : Nat), s.power.shedding = false → s.arrayServes = true → s.curSlice = some owner → s.arr.jobs = [(owner, .log)] → s.holdup.low = false →
    fits s owner .log n →
    (s.arr.ownerStarts < programGap s.therm.step → exec (.pageProgramComplete true n) s = .next s) ∧
    (programGap s.therm.step ≤ s.arr.ownerStarts → s.arr.logBuf ≠ [] → ∃ t, exec (.pageProgramComplete true n) s = .next t ∧ t.arr.logBuf = s.arr.logBuf.drop 4 ∧
      t.arr.jobs = [] ∧ t.arr.logPage = (s.arr.logPage + 1) % 1024 ∧ t.arr.ownerStarts = 0 ∧
      t.arr.logCells = cellsWriteList s.arr.logCells (256 * s.arr.logPage) (padTo 256 (((s.arr.logBuf.take 4).map LogEntry.bytes).flatten)) ∧
      (cellsWf s.arr.logCells = true → (∀ e ∈ s.arr.logBuf, e.bytes.length = 64) →
        ∀ x, x < 256 * s.arr.logPage ∨ 256 * s.arr.logPage + 256 ≤ x → cellsRead t.arr.logCells x = cellsRead s.arr.logCells x))) ∧
  (∀ (s : State) (p : PolId) (j : PageJob), s.power.shedding = false → s.arrayServes = true → s.curSlice = some p → p ≠ owner → s.arr.jobs = [(p, j)] →
    fits s p j 100 →
    (0 < s.arr.spares (s.jobBank p j) → ∃ t addr, exec (.pageProgramComplete false 100) s = .next t ∧
      t.arr.retired = s.arr.retired ++ [(addr, 256 - s.arr.spares (s.jobBank p j))] ∧
      t.arr.spares (s.jobBank p j) = s.arr.spares (s.jobBank p j) - 1 ∧ t.arr.jobs.head? = some (p, j) ∧ t.arr.applied[p] = 0 ∧
      (∀ w, j = .item → s.arr.writes = [w] → w.started = true → w.pol = p →
        addr = copyPage w.value.item (nextCopy w.value s.arr.copies).slot (itemPages w.value.item - w.pagesLeft))) ∧
    (∀ w, j = .item → s.arr.spares (s.jobBank p j) = 0 → s.arr.writes = [w] → w.started = true → w.pol = p → (∀ q, (s.pol q).serving = none) →
      s.carries = [] → exec (.pageProgramComplete false 100) s =
        .next { s with arr := { counted s p .item 100 with jobs := [], writes := [] },
                       life := { s.life with pending := if w.value.item = 0x12 then none else s.life.pending } })) ∧
  (∀ (s : State) (h : W16), (∀ u ∈ s.arr.updates, u.handle ≠ h) → exec (.arrayLeaseExpired h) s = .next s) ∧
  (∀ (s : State) (h : W16) (u : Update), s.arr.updates = [u] → u.handle = h → s.commitServed h = false → ∃ t, exec (.arrayLeaseExpired h) s = .next t ∧
    t.arr.updates = [] ∧ t.arr.applied[owner] = 0 ∧ t.arr.lostHandles = s.arr.lostHandles ++ [h] ∧ t.arr.user.content = s.arr.user.content ∧
    t.arr.fw0 = s.arr.fw0 ∧ t.arr.fw1 = s.arr.fw1 ∧
    (∀ (v : Serving), s.writeServed h = true → (s.pol owner).serving = some v → (s.pol owner).replyQ.length < 8 → s.sequencing = true →
      (t.pol owner).serving = none ∧ ∃ r, (t.pol owner).replyQ = (s.pol owner).replyQ ++ [r] ∧ r.status = .leaseExpired)) ∧
  (∀ s : State, (s.arr.logBuf.length ≤ 4 * ((s.arr.jobs ++ s.arr.heldJobs).filter (fun j => j.2 == PageJob.log)).length → exec .logPageTimer s = .next s) ∧
    (4 * ((s.arr.jobs ++ s.arr.heldJobs).filter (fun j => j.2 == PageJob.log)).length < s.arr.logBuf.length → exec .logPageTimer s = .next (if s.holdup.low
      then { s with arr := { s.arr with heldJobs := s.arr.heldJobs ++ [(owner, .log)] } }
      else { s with arr := { s.arr with jobs := s.arr.jobs ++ [(owner, .log)] } })))

/-- LC_TRANSITION_EXECUTE, BIST_START and BIST_BLOCK_DONE (R425, R558, R598, R600, R601, R603 to R606, R620, R622, R623): the fuse of a transition is blown
and the node resets itself once the reply has been carried, secrets go first where the target asks for it, and a self-test runs block by block, each
block re-initialised after its test and marked unusable where it failed. -/
def Obligations.LifeAndSelfTestEvents : Prop :=
  (∀ s : State, s.life.pending = none ∨ s.holdup.low = true ∨ s.arr.jobs ≠ [] ∨ s.carried .lifecycle = false → exec .lcTransitionExecute s = .next s) ∧
  (∀ (s : State) (x : LcPending), s.life.pending = some x → x.waitCarried = true → s.carried .lifecycle = true → s.holdup.low = false → s.arr.jobs = [] →
    (x.target = .ret ∨ x.target = .scrapped ∨ s.arr.writes = []) → ∃ t, exec .lcTransitionExecute s = .next t ∧
      t.restartCause = 3 ∧ t.clock.tb = Tb.zero ∧ t.pols = Vector.replicate 8 Polder.none ∧ t.life.pending = none ∧ t.life.uid = s.life.uid ∧
      t.power.seqRunning = false ∧ t.wheel = Wheel.initial ∧ t.arr.user = s.arr.user ∧ t.arr.logCells = s.arr.logCells ∧
      (x.target = .commission → t.life.mfgDone = true ∧ t.life.fuseReturn = s.life.fuseReturn ∧ t.life.fuseScrapped = s.life.fuseScrapped ∧
        t.arr.fabric = s.arr.fabric ∧ t.arr.stored = s.arr.stored) ∧
      (x.target = .ret → t.life.fuseReturn = true ∧ t.life.mfgDone = s.life.mfgDone ∧ t.life.fuseScrapped = s.life.fuseScrapped) ∧
      (x.target = .scrapped → t.life.fuseScrapped = true ∧ t.life.mfgDone = s.life.mfgDone ∧ t.life.fuseReturn = s.life.fuseReturn ∧
        t.life.shadow = .scrapped) ∧
      (x.target = .ret ∨ x.target = .scrapped → t.arr.fabric = FabricItem.factory ∧ t.arr.stored = Vector.replicate 8 none ∧
        t.arr.mfg.hasKeyPair = false ∧ t.arr.writes = [] ∧ t.arr.seqs = Vector.replicate 8 none ∧ t.ka = none ∧
        ∀ c ∈ t.arr.copies, c.item ≠ 0x10 ∧ c.item ≠ 0x20 ∧ ¬ (0x30 ≤ c.item ∧ c.item < 0x40) ∧ ∀ m, c.value = .mfg m → m.hasKeyPair = false) ∧
      (x.target = .ret → s.life.fuseScrapped = false → t.life.shadow = .ret)) ∧
  (∀ s : State, s.bist.job = none → exec .bistStart s = .next s ∧ (∀ b, exec (.bistBlockDone b) s = .next s)) ∧
  (∀ (s : State) (j : BistJob), s.bist.job = some j → j.started = false →
    (s.carried .selfTest = false → exec .bistStart s = .next s) ∧
    (s.carried .selfTest = true → exec .bistStart s = .next { s with
      bist := { s.bist with job := some { j with started := true } }, carries := s.carries.filter (fun c => c.why ≠ .selfTest) }) ∧
    (∀ b, exec (.bistBlockDone b) s = .next s)) ∧
  (∀ (s : State) (j : BistJob) (b : Nat) (failed : Bool), s.bist.job = some j → j.started = true → j.algo ≤ 1 → b < 12 → j.left.toNat.testBit b = true →
    (∀ i, i < b → j.left.toNat.testBit i = false) → ∃ t, exec (.bistBlockDone failed) s = .next t ∧
      (∀ i, i < 12 → t.bist.unusable.toNat.testBit i = (s.bist.unusable.toNat.testBit i || (failed && decide (i = b)))) ∧
      ((∃ i, b < i ∧ i < 16 ∧ j.left.toNat.testBit i = true) → ∃ k, t.bist.job = some k ∧ k.started = true ∧ k.algo = j.algo ∧ k.blocks = j.blocks ∧
        (∀ i, i < 16 → k.left.toNat.testBit i = (j.left.toNat.testBit i && decide (i ≠ b))) ∧
        (∀ i, i < 12 → k.failed.toNat.testBit i = (j.failed.toNat.testBit i || (failed && decide (i = b))))) ∧
      ((∀ i, b < i → j.left.toNat.testBit i = false) → t.bist.job = none ∧ t.bist.lastBlocks = j.blocks ∧ t.bist.lastAlgo = j.algo) ∧
      (b = 11 → t.host = HostPort.initial) ∧ (b = 8 → t.lineA = s.lineA.off) ∧ (b = 9 → t.lineB = s.lineB.off) ∧
      (b = 3 → t.cols = s.cols.load s.colStateWanted) ∧ (b ≠ 3 → t.cols = s.cols) ∧ t.clock = s.clock ∧ t.wheel = s.wheel)

/-- JTAG_EXTEST, JTAG_IDCODE, JTAG_SAMPLE_PRELOAD, JTAG_DEBUG, JTAG_ARRAY, JTAG_MBIST, JTAG_SCAN, JTAG_RELEASE, JTAG_BYPASS and TRST_N_ASSERT (R45, R46, R72, R95, R116,
R246, R375, R550, R551, R555, R611 to R614, R616, R622, R623): what each instruction does in the states that permit it, BYPASS in every other state, and
nothing while the port is held in reset. What SCAN leaves in the logic and what RELEASE does to the open work of the owner are the model's choices
(notes/assumptions/23.md, 51.md). -/
def Obligations.JtagEvents : Prop :=
  let bypassed : State → Host.Outcome State Fault Refusal := fun s => .next { s with jtag := { s.jtag with ir := .bypass, dataOut := [0] } }
  (∀ s : State, s.tapWorks = (s.power.aonReady && !s.power.resetLow && !s.power.vioLost)) ∧
  (∀ s : State, s.tapWorks = false → exec .jtagIdcode s = .next s ∧ exec .jtagScan s = .next s ∧ exec .jtagRelease s = .next s ∧
    (∀ v, exec (.jtagExtest v) s = .next s ∧ exec (.jtagSamplePreload v) s = .next s) ∧ (∀ a, exec (.jtagDebug a) s = .next s) ∧
    (∀ a, exec (.jtagArray a) s = .next s) ∧ (∀ x y, exec (.jtagMbist x y) s = .next s) ∧ (∀ c, exec (.jtagBypass c) s = .next s)) ∧
  (∀ s : State, s.tapWorks = true → exec .jtagIdcode s = .next { s with jtag := { s.jtag with ir := .idcode, dataOut := [0xCB, 0x25, 0x61, 0x11] } }) ∧
  (∀ (s : State) (c : BitVec 5), s.tapWorks = true → exec (.jtagBypass c) s = bypassed s) ∧
  (∀ s : State, exec .trstNAssert s = .next { s with jtag := { s.jtag with ir := .idcode, boundary := 0, dataOut := [] } }) ∧
  (∀ (s : State) (v : BitVec 99), s.tapWorks = true → s.life.shadow ≠ .scrapped →
    exec (.jtagExtest v) s = .next { s with
      jtag := { s.jtag with ir := .extest, boundary := v, dataOut := leBytes 13 v.toNat },
      wheel := { s.wheel with slot := s.wheel.slot.map (fun x => { x with pixCut := some (x.pixCut.getD x.reads.length) }) } } ∧
    exec (.jtagSamplePreload v) s = .next { s with jtag := { s.jtag with ir := .samplePreload, boundary := v, dataOut := leBytes 13 v.toNat } }) ∧
  (∀ s : State, s.tapWorks = true →
    (s.life.shadow = .scrapped → (∀ v, exec (.jtagExtest v) s = bypassed s ∧ exec (.jtagSamplePreload v) s = bypassed s)) ∧
    (s.life.shadow = .scrapped ∨ s.life.shadow = .field → (∀ a, exec (.jtagDebug a) s = bypassed s) ∧ (∀ a, exec (.jtagArray a) s = bypassed s)) ∧
    (s.life.shadow ≠ .manufacture → s.life.shadow ≠ .ret → (∀ x y, exec (.jtagMbist x y) s = bypassed s) ∧ exec .jtagScan s = bypassed s) ∧
    (s.life.shadow = .ret → s.life.cleared = false → exec .jtagScan s = bypassed s) ∧
    (s.life.shadow = .manufacture ∨ (s.life.shadow = .ret ∧ s.life.cleared = true) →
      exec .jtagScan s = .next { s with jtag := { s.jtag with ir := .scan, dataOut := [] } }) ∧
    (s.life.shadow ≠ .commission → exec .jtagRelease s = bypassed s)) ∧
  (∀ s : State, s.tapWorks = true → s.life.shadow = .commission → ∃ t, exec .jtagRelease s = .next t ∧
    t.pol owner = { Polder.none with
      intake := (s.pol owner).intake, replyQ := (s.pol owner).replyQ, dlv := (s.pol owner).dlv, path := (s.pol owner).path,
      sR := (s.pol owner).sR, serving := (s.pol owner).serving.map (fun v => if v.replied = true then v
        else { v with rule := .voided, answer := some { status := .voided, effectFrame := none, results := [] }, ready := true }) } ∧
    (∀ p, p ≠ owner → t.pol p = s.pol p) ∧ t.jtag.ir = .release ∧ t.fab = s.fab ∧
    t.clock = { s.clock with tcmp := (s.clock.tcmp.set 0 Tcmp.zero).set 1 Tcmp.zero } ∧ (∀ k, s.ka = some k → t.ka = if k.pol = owner then none else some k) ∧
    t.wheel = { s.wheel with holders := t.wheel.holders, slot := t.wheel.slot, fork := t.wheel.fork, enclave := t.wheel.enclave } ∧
    (∀ i : Fin 16, t.wheel.holders[i] = if s.wheel.holders[i] = some owner then none else s.wheel.holders[i]) ∧
    (s.arr.writes = [] → t.arr = { s.arr with writes := [{ value := .stored owner none, pol := owner, pagesLeft := 2, started := false },
      { value := .seqs owner none, pol := owner, pagesLeft := 1, started := false }] })) ∧
  (∀ s : State, s.tapWorks = true → s.life.shadow ≠ .scrapped → s.life.shadow ≠ .field →
    let dbg : List Byte → State := fun out => { s with jtag := { s.jtag with ir := .debug, dataOut := out } }
    exec (.jtagDebug .halt) s = .next { dbg [] with jtag := { (dbg []).jtag with halted := s.power.seqRunning } } ∧
    exec (.jtagDebug .step) s = .next (dbg []) ∧
    (∃ t, exec (.jtagDebug .resume) s = .next t ∧ t.jtag =
      { s.jtag with ir := .debug, dataOut := [], halted := false, tcm := s.jtag.tcm.filter (fun c => decide (c.1 < s.arr.tcmImage.length)) }) ∧
    (∀ (a : Nat) (b : Byte), a < 65536 → ∃ t u, exec (.jtagDebug (.writeTcm a b)) s = .next t ∧ exec (.jtagDebug (.readTcm a)) t = .next u ∧
      u.jtag.dataOut = [b] ∧ t = { dbg [] with jtag := t.jtag }) ∧
    (∀ (a : Nat), 65536 ≤ a → exec (.jtagDebug (.readTcm a)) s = .next (dbg []) ∧ ∀ b, exec (.jtagDebug (.writeTcm a b)) s = .next (dbg []))) ∧
  (∀ s : State, s.tapWorks = true → s.life.shadow ≠ .scrapped → s.life.shadow ≠ .field → s.domOn 11 = true →
    let st : State := { s with jtag := { s.jtag with ir := .array, dataOut := [] } }
    (∀ addr : Nat, exec (.jtagArray (.readPage addr)) s =
      .next { s with jtag := { s.jtag with ir := .array, dataOut := (List.range 256).map (fun i => s.arrayByte (addr / 256 * 256 + i)) } }) ∧
    (s.holdup.low = true → (∀ (addr : Nat) (bs : List Byte), exec (.jtagArray (.programPage addr bs)) s = .next st) ∧
      (∀ i k sh m r b c kp, exec (.jtagArray (.programMfg i k sh m r b c kp)) s = .next st) ∧
      ∀ i codes a b, exec (.jtagArray (.programTrimTab i codes a b)) s = .next st) ∧
    (∀ (addr : Nat) (bs : List Byte), s.holdup.low = false → addr < 0x0C0000 → exec (.jtagArray (.programPage addr bs)) s = .next { st with arr := { s.arr with fw0 := { s.arr.fw0 with
      content := cellsWriteList s.arr.fw0.content (addr / 256 * 256) (padTo 256 (bs.take 256)) } } }) ∧
    (∀ (addr : Nat) (bs : List Byte), 0x400000 ≤ addr → exec (.jtagArray (.programPage addr bs)) s = .next st) ∧
    (∀ (addr : Nat) (bs : List Byte), s.holdup.low = false → s.life.shadow = .commission → 0x0E0000 ≤ addr → addr < 0x120000 →
      exec (.jtagArray (.programPage addr bs)) s = .next st) ∧
    (∀ (addr : Nat) (bs : List Byte), s.holdup.low = false → s.life.shadow ≠ .commission → 0x0E0000 ≤ addr → addr < 0x120000 →
      exec (.jtagArray (.programPage addr bs)) s = .next { st with arr := { s.arr with
        logCells := cellsWriteList s.arr.logCells (addr / 256 * 256 - 0x0E0000) (padTo 256 (bs.take 256)) } }) ∧
    (∀ (addr : Nat) (bs : List Byte), s.holdup.low = false → s.life.shadow = .commission → 0x0C0000 ≤ addr → addr < 0x0E0000 →
      exec (.jtagArray (.programPage addr bs)) s = .next st) ∧
    (∀ (addr : Nat) (bs : List Byte), s.holdup.low = false → s.life.shadow ≠ .commission → 0x0C0000 ≤ addr → addr < 0x0E0000 →
      ∃ t, exec (.jtagArray (.programPage addr bs)) s = .next t ∧ t = { st with arr := { s.arr with copies := t.arr.copies, cells := t.arr.cells } } ∧
        t.arr.copies = s.arr.copies.filter (fun c => !c.covers (addr / 256 * 256)) ∧
        (∀ i, i < 256 → t.arrayByte (addr / 256 * 256 + i) = (padTo 256 (bs.take 256)).getD i 0)) ∧
    (s.holdup.low = false → s.life.shadow ≠ .commission → ∀ (i : Fin 2),
      (∀ k sh m r b c kp, ∃ t, exec (.jtagArray (.programMfg i k sh m r b c kp)) s = .next t ∧ t = { st with arr := { s.arr with copies := t.arr.copies } } ∧
        newestCopy 1 t.arr.copies = some {
          item := 1, slot := i, gen := (newestCopy 1 s.arr.copies).elim 1 (fun x => x.gen + 1),
          value := .mfg { valid := true, kLin := k, shading := sh, matrix := m, refTrims := r, biasTrims := b, certificate := c, hasKeyPair := kp } }) ∧
      (∀ codes a b, ∃ t, exec (.jtagArray (.programTrimTab i codes a b)) s = .next t ∧ t = { st with arr := { s.arr with copies := t.arr.copies } } ∧
        newestCopy 2 t.arr.copies = some {
          item := 2, slot := i, gen := (newestCopy 2 s.arr.copies).elim 1 (fun x => x.gen + 1),
          value := .trimTab { trims := codes.map (fun c => { offset := c.1, gain := c.2 }), slopeA := a, slopeB := b } })) ∧
    (s.life.shadow = .commission → (∀ i k sh m r b c kp, exec (.jtagArray (.programMfg i k sh m r b c kp)) s = .next st) ∧
      ∀ i codes a b, exec (.jtagArray (.programTrimTab i codes a b)) s = .next st)) ∧
  (∀ (s : State) (a : ArrayAccess), s.tapWorks = true → s.life.shadow ≠ .scrapped → s.life.shadow ≠ .field → s.domOn 11 = false →
    exec (.jtagArray a) s = .next { s with jtag := { s.jtag with ir := .array, dataOut := [] } }) ∧
  (∀ (s : State) (blocks failed : BitVec 16), s.tapWorks = true → s.life.shadow = .manufacture ∨ s.life.shadow = .ret →
    ∃ t, exec (.jtagMbist blocks failed) s = .next t ∧ t.bist = { s.bist with unusable := s.bist.unusable ||| (failed &&& blocks &&& 0x0fff) } ∧
      t.jtag = { s.jtag with ir := .mbist, dataOut := leBytes 2 (failed &&& blocks &&& 0x0fff).toNat } ∧ t.clock = s.clock ∧ t.arr = s.arr)

/-- DATA_FAULT, UNCORRECTABLE_WORD, LOCK_LOST, RELOCK_ATTEMPT_END and WATCHDOG_EXPIRY (R98, R139, R154, R201, R282, R558, R645, R662 to R671): the slot a data fault voids,
what a bad word costs in each block, the clock hold and its relock attempts, and the resets with their causes. Which slot is void where none is in
progress is the model's reading of R663. -/
def Obligations.FaultEvents : Prop :=
  (∀ (s : State) (parity : Bool) (b : Fin 12) (lane : Fin 4) (inRef : Bool), s.faultSlot = none ∨ s.clock.hold.isSome = true ∨ s.sensorsOn = false →
    exec (.dataFault parity b lane inRef) s = .next s) ∧
  (∀ (s : State) (parity : Bool) (b : Fin 12) (lane : Fin 4) (inRef : Bool) (x : Slot) (p : PolId), s.wheel.slot = some x → x.holder = some p →
    s.clock.hold = none → s.sensorsOn = true → (parity = true ∨ (2 ≤ b.val ∧ b.val ≤ 5 ∧ s.domOn (blockDomain b.val) = true)) →
    ∃ t y, exec (.dataFault parity b lane inRef) s = .next t ∧ t.wheel.slot = some y ∧ y.frame = x.frame ∧ y.holder = some p ∧
      (x.voidReason ≠ some 4 → y.voidReason = some 3) ∧ (x.voidReason = some 4 → y.voidReason = some 4) ∧
      t.wheel.fork = s.wheel.fork ∧ t.clock = s.clock ∧ t.lands.strobe = false ∧ t.wheel.turning = s.wheel.turning ∧
      (parity = true → t.cols = s.cols ∧ t.bist = s.bist ∧ (∀ q, q ≠ owner → t.pol q = s.pol q)) ∧
      (parity = false → b.val = 3 → t.cols = s.cols.load s.colStateWanted) ∧
      (parity = false → b.val = 5 → inRef = true → (t.pol p).motionInit = true) ∧
      (parity = false → x.faultBlocks.toNat.testBit b.val = false → t.bist.faultSlots[b] = s.bist.faultSlots[b] + 1) ∧
      (parity = false → x.faultBlocks.toNat.testBit b.val = true → t.bist.faultSlots = s.bist.faultSlots) ∧
      (x.voidReason = some 3 → t.arr = s.arr)) ∧
  (∀ (s : State) (b : Fin 12), s.power.seqRunning = false ∨ s.domOn (blockDomain b.val) = false → exec (.uncorrectableWord b) s = .next s) ∧
  (∀ (s : State) (b : Fin 12), s.power.seqRunning = true → s.domOn (blockDomain b.val) = true →
    (b = 0 ∨ b = 6 ∨ b = 7 → ∃ t, exec (.uncorrectableWord b) s = .next t ∧ t.restartCause = 6 ∧ t.clock.tb = Tb.zero ∧ t.power.seqRunning = false ∧
      t.pols = Vector.replicate 8 Polder.none ∧ t.arr.jobs = [] ∧ t.arr.writes = [] ∧ t.life.uid = s.life.uid) ∧
    (b = 1 → exec (.uncorrectableWord b) s = .next s) ∧
    (b = 8 → s.carries = [] → s.lineA.unacked = [] → exec (.uncorrectableWord b) s = .next { s with lineA := s.lineA.off }) ∧
    (b = 9 → s.carries = [] → s.lineB.unacked = [] → exec (.uncorrectableWord b) s = .next { s with lineB := s.lineB.off }) ∧
    (b = 11 → exec (.uncorrectableWord b) s = .next { s with host := HostPort.initial }) ∧
    (∀ (w : ItemWrite) (p : PolId), b = 10 → s.arr.jobs = [(p, .item)] → s.arr.writes = [w] → w.pol = p → w.started = true →
      ∃ t v, exec (.uncorrectableWord b) s = .next t ∧ t.arr.jobs = [] ∧ t.arr.writes = [v] ∧ v.value = w.value ∧ v.pol = p ∧ v.started = false ∧
        v.pagesLeft = itemPages w.value.item ∧ t.pols = s.pols) ∧
    (∀ (h : W16) (off : Nat) (bytes : List Byte) (v : Serving), b = 10 → s.arr.jobs = [(owner, .arrWrite h off bytes)] →
      (s.pol owner).serving = some v → (s.pol owner).replyQ.length < 8 → s.sequencing = true →
      ∃ t r, exec (.uncorrectableWord b) s = .next t ∧ t.arr = { s.arr with jobs := [], applied := s.arr.applied.set 0 0 } ∧ (t.pol owner).serving = none ∧
        (t.pol owner).replyQ = (s.pol owner).replyQ ++ [r] ∧ r.status = .voided)) ∧
  (∀ s : State, s.clock.pllOn = false ∨ s.clock.hold.isSome = true ∨ s.power.aonReady = false → exec .lockLost s = .next s) ∧
  (∀ s : State, s.clock.pllOn = true → s.clock.hold = none → s.power.aonReady = true → ∃ t h, exec .lockLost s = .next t ∧ t.clock.pllOn = false ∧
    t.clock.hold = some h ∧ h.attempts = 0 ∧ t.clock.tb = s.clock.tb ∧ t.lands = { s.lands with strobe := false } ∧ t.pols = s.pols ∧ t.power = s.power ∧
    t.wheel = { s.wheel with slot := s.wheel.slot.map (fun x => { x with voidReason := some 4 }),
                             fork := s.wheel.fork.map (fun d => { d with slot := { d.slot with voidReason := some 4 } }) }) ∧
  (∀ (s : State) (locked : Bool), s.power.shedding = true → exec (.relockAttemptEnd locked) s = .next s) ∧
  (∀ (s : State) (h : ClockHold), s.clock.hold = some h → s.power.shedding = false →
    (∃ t, exec (.relockAttemptEnd true) s = .next t ∧ t.clock = { s.clock with pllOn := true, hold := none } ∧ t.wheel = s.wheel) ∧
    (h.attempts < 2 → exec (.relockAttemptEnd false) s = .next { s with clock := { s.clock with hold := some { h with attempts := h.attempts + 1 } } }) ∧
    (2 ≤ h.attempts → ∃ t, exec (.relockAttemptEnd false) s = .next t ∧ t.restartCause = 4 ∧ t.clock.tb = Tb.zero ∧ t.clock.hold = none ∧
      t.wheel = Wheel.initial ∧ t.life.uid = s.life.uid)) ∧
  (∀ (s : State) (r : Returning), s.clock.hold = none → s.power.ret = some r → r.step = .c → s.clock.pllOn = false → s.power.shedding = false →
    exec (.relockAttemptEnd true) s = .next { s with clock := { s.clock with pllOn := true } } ∧
    (r.relock < 2 → exec (.relockAttemptEnd false) s = .next { s with power := { s.power with ret := some { r with relock := r.relock + 1 } } }) ∧
    (2 ≤ r.relock → ∃ t, exec (.relockAttemptEnd false) s = .next t ∧ t.restartCause = 4 ∧ t.power.ret = none)) ∧
  (∀ s : State, s.power.seqRunning = false ∨ s.domOn 7 = false ∨ s.jtag.halted = true → exec .watchdogExpiry s = .next s) ∧
  (∀ s : State, s.power.seqRunning = true → s.domOn 7 = true → s.jtag.halted = false → ∃ t, exec .watchdogExpiry s = .next t ∧ t.restartCause = 5 ∧
    t.clock.tb = Tb.zero ∧ t.power.seqRunning = false ∧ t.pols = Vector.replicate 8 Polder.none ∧ t.wheel = Wheel.initial ∧ t.arr.writes = [] ∧
    t.life.uid = s.life.uid)

end
end

