-- ==== Sys2Proof/Laws/Cells.lean ====
section
/-! SUPPORT. Stored bytes: what a write reads back as, and that every write keeps the canonical form. -/

namespace Sys2Proof.Machine

/-- Below the lowest address a store reads 0x00. -/
theorem cellsRead_below (m : List Host.Cell) (lo x : Nat) (h : cellsFrom lo m = true) (hx : x < lo) : cellsRead m x = 0 := by
  induction m generalizing lo with
  | nil => rfl
  | cons c rest ih =>
    obtain ⟨a, b⟩ := c
    simp only [cellsFrom, Bool.and_eq_true, decide_eq_true_eq] at h
    have : x ≠ a := by omega
    simp only [cellsRead, if_neg this]
    exact ih (a + 1) h.2 (by omega)

/-- A write keeps the canonical form above its address and the store's. -/
theorem cellsFrom_write (m : List Host.Cell) (lo x : Nat) (v : Byte) (h : cellsFrom lo m = true) (hx : lo ≤ x) :
    cellsFrom lo (cellsWrite m x v) = true := by
  induction m generalizing lo with
  | nil => by_cases hv : v = 0#8 <;> simp [cellsWrite, cellsFrom, hv, hx]
  | cons c rest ih =>
    obtain ⟨a, b⟩ := c
    simp only [cellsFrom, Bool.and_eq_true, decide_eq_true_eq, bne_iff_ne, ne_eq] at h
    obtain ⟨⟨h1, h2⟩, h3⟩ := h
    replace h2 : ¬ b = 0#8 := h2
    simp only [cellsWrite]
    split
    · split
      · simp [cellsFrom, h1, h2, h3]
      · rename_i hv
        replace hv : ¬ v = 0#8 := hv
        have : x + 1 ≤ a := by omega
        simp [cellsFrom, hx, hv, h2, h3, this]
    · split
      · split
        · have : ∀ (n : Nat) (l : List Host.Cell), cellsFrom (n + 1) l = true → ∀ k ≤ n, cellsFrom k l = true := by
            intro n l hl k hk
            cases l with
            | nil => rfl
            | cons d t =>
              simp only [cellsFrom, Bool.and_eq_true, decide_eq_true_eq] at hl ⊢
              exact ⟨⟨by omega, hl.1.2⟩, hl.2⟩
          exact this a rest h3 lo h1
        · rename_i hv
          replace hv : ¬ v = 0#8 := hv
          simp [cellsFrom, h1, hv, h3]
      · have := ih (a + 1) h3 (by omega)
        simp [cellsFrom, h1, h2, this]

/-- A write of one byte keeps the canonical form. -/
theorem cellsWf_write (m : List Host.Cell) (x : Nat) (v : Byte) (h : cellsWf m = true) : cellsWf (cellsWrite m x v) = true :=
  cellsFrom_write m 0 x v h (Nat.zero_le x)

/-- A write of many bytes keeps the canonical form. -/
theorem cellsWf_writeList (m : List Host.Cell) (x : Nat) (vs : List Byte) (h : cellsWf m = true) :
    cellsWf (cellsWriteList m x vs) = true := by
  induction vs generalizing m x with
  | nil => exact h
  | cons v vs ih => exact ih _ _ (cellsWf_write m x v h)

/-- A region's bytes are stored in canonical form. -/
theorem cellsWf_cellsOf (bs : List Byte) : cellsWf (cellsOf bs) = true := cellsWf_writeList [] 0 bs rfl

/-- A byte reads as it was last written, and every other as before. -/
theorem cellsRead_write (m : List Host.Cell) (x y : Nat) (v : Byte) (h : cellsWf m = true) :
    cellsRead (cellsWrite m x v) y = if y = x then v else cellsRead m y := by
  have key : ∀ (lo : Nat) (m : List Host.Cell), cellsFrom lo m = true →
      cellsRead (cellsWrite m x v) y = if y = x then v else cellsRead m y := by
    intro lo m
    induction m generalizing lo with
    | nil => intro _; by_cases hv : v = 0#8 <;> by_cases hy : y = x <;> simp [cellsWrite, cellsRead, hv, hy]
    | cons c rest ih =>
      intro h
      obtain ⟨a, b⟩ := c
      simp only [cellsFrom, Bool.and_eq_true, decide_eq_true_eq] at h
      obtain ⟨⟨h1, h2⟩, h3⟩ := h
      have below : x ≤ a → cellsRead rest x = 0 := fun hx => cellsRead_below rest (a + 1) x h3 (by omega)
      simp only [cellsWrite]
      split
      · rename_i hxa
        have hne : ¬ x = a := by omega
        split
        · rename_i hv
          by_cases hy : y = x
          · subst hy; simp [cellsRead, hne, below (by omega), hv]
          · simp [hy]
        · by_cases hy : y = x <;> simp [cellsRead, hy]
      · split
        · rename_i hxa
          subst hxa
          split
          · rename_i hv
            by_cases hy : y = x
            · subst hy; simp [below (Nat.le_refl y), hv]
            · simp [cellsRead, hy]
          · by_cases hy : y = x <;> simp [cellsRead, hy]
        · rename_i hxa
          simp only [cellsRead]
          rw [ih (a + 1) h3]
          by_cases hya : y = a
          · rw [if_pos hya, if_neg (by omega : ¬ y = x), if_pos hya]
          · rw [if_neg hya, if_neg hya]
  exact key 0 m h

/-- A byte set in a store without stated contents keeps addresses rising. -/
theorem risingFrom_tcmWrite (m : List Host.Cell) (lo x : Nat) (v : Byte) (h : risingFrom lo m = true) (hx : lo ≤ x) :
    risingFrom lo (tcmWrite m x v) = true := by
  induction m generalizing lo with
  | nil => simp [tcmWrite, risingFrom, hx]
  | cons c rest ih =>
    obtain ⟨a, b⟩ := c
    simp only [risingFrom, Bool.and_eq_true, decide_eq_true_eq] at h
    obtain ⟨h1, h2⟩ := h
    simp only [tcmWrite]
    split
    · have : x + 1 ≤ a := by omega
      simp [risingFrom, hx, h2, this]
    · split
      · rename_i e; subst e; simp [risingFrom, h1, h2]
      · have := ih (a + 1) h2 (by omega)
        simp [risingFrom, h1, this]

theorem rising_tcmWrite (m : List Host.Cell) (x : Nat) (v : Byte) (h : rising m = true) : rising (tcmWrite m x v) = true :=
  risingFrom_tcmWrite m 0 x v h (Nat.zero_le x)

theorem rising_storePage (m : List Host.Cell) (a : Nat) (bs : List Byte) (h : rising m = true) : rising (storePage m a bs) = true := by
  induction bs generalizing m a with
  | nil => exact h
  | cons b bs ih => exact ih _ _ (rising_tcmWrite m a b h)

theorem risingFrom_mono (m : List Host.Cell) (a b : Nat) (h : risingFrom b m = true) (hab : a ≤ b) : risingFrom a m = true := by
  cases m with
  | nil => rfl
  | cons c m =>
    simp only [risingFrom, Bool.and_eq_true, decide_eq_true_eq] at h ⊢
    exact ⟨Nat.le_trans hab h.1, h.2⟩

/-- What is left of a store rises where the store does. -/
theorem risingFrom_filter (f : Host.Cell → Bool) (m : List Host.Cell) (lo : Nat) (h : risingFrom lo m = true) :
    risingFrom lo (m.filter f) = true := by
  induction m generalizing lo with
  | nil => rfl
  | cons c m ih =>
    simp only [risingFrom, Bool.and_eq_true, decide_eq_true_eq] at h
    rw [List.filter_cons]
    split
    · simp only [risingFrom, Bool.and_eq_true, decide_eq_true_eq]
      exact ⟨h.1, ih _ h.2⟩
    · exact risingFrom_mono _ _ _ (ih _ h.2) (Nat.le_succ_of_le h.1)

theorem rising_filter (f : Host.Cell → Bool) (m : List Host.Cell) (h : rising m = true) : rising (m.filter f) = true :=
  risingFrom_filter f m 0 h

theorem risingFrom_zip (n lo : Nat) (l : List Byte) : risingFrom lo ((List.range' lo n).zip l) = true := by
  induction n generalizing lo l with
  | zero => rfl
  | succ n ih =>
    cases l with
    | nil => rfl
    | cons b l =>
      simp only [List.range'_succ, List.zip_cons_cons, risingFrom, Bool.and_eq_true, decide_eq_true_eq]
      exact ⟨Nat.le_refl _, ih _ _⟩

/-- TCM as loaded from an image rises (R135). -/
theorem ArrayS.tcmImage_rising (a : ArrayS) : rising a.tcmImage = true := by
  unfold ArrayS.tcmImage
  extract_lets c n
  clear_value c
  split
  · rw [List.range_eq_range']
    exact risingFrom_zip _ _ _
  · rfl

/-- Bytes written one by one keep a store canonical. -/
theorem cellsWf_foldl (g : Host.Cell → Nat) (l m : List Host.Cell) (h : cellsWf m = true) :
    cellsWf (l.foldl (fun m c => cellsWrite m (g c) c.2) m) = true := by
  induction l generalizing m with
  | nil => exact h
  | cons c l ih => exact ih _ (cellsWf_write _ _ _ h)

theorem rising_foldl (l m : List Host.Cell) (h : rising m = true) : rising (l.foldl (fun m c => tcmWrite m c.1 c.2) m) = true := by
  induction l generalizing m with
  | nil => exact h
  | cons c l ih => exact ih _ (rising_tcmWrite _ _ _ h)

end Sys2Proof.Machine
end

