-- ==== Sys2Proof/Laws/State.lean ====
section
/-! SUPPORT. What the elementary updates of the state leave in each field. -/

namespace Sys2Proof.Machine

/-! ### A polder changed -/

@[simp] theorem State.pol_modPol (s : State) (p q : PolId) (f : Polder → Polder) :
    (s.modPol p f).pol q = if q = p then f (s.pol p) else s.pol q := by
  by_cases h : q = p
  · subst h; simp [State.pol, State.modPol]
  · have h' : ¬ (p : Nat) = (q : Nat) := fun e => h (Fin.ext e.symm)
    simp [State.pol, State.modPol, h, Vector.getElem_set_ne, h']

@[simp] theorem State.pol_mapPols (s : State) (f : PolId → Polder → Polder) (q : PolId) :
    (s.mapPols f).pol q = f q (s.pol q) := by simp [State.pol, State.mapPols]

@[simp] theorem State.modPol_pending (s : State) (p : PolId) (f : Polder → Polder) : (s.modPol p f).pending = s.pending := rfl
@[simp] theorem State.modPol_freeCtr (s : State) (p : PolId) (f : Polder → Polder) : (s.modPol p f).freeCtr = s.freeCtr := rfl
@[simp] theorem State.modPol_clock (s : State) (p : PolId) (f : Polder → Polder) : (s.modPol p f).clock = s.clock := rfl
@[simp] theorem State.modPol_power (s : State) (p : PolId) (f : Polder → Polder) : (s.modPol p f).power = s.power := rfl
@[simp] theorem State.modPol_holdup (s : State) (p : PolId) (f : Polder → Polder) : (s.modPol p f).holdup = s.holdup := rfl
@[simp] theorem State.modPol_wheel (s : State) (p : PolId) (f : Polder → Polder) : (s.modPol p f).wheel = s.wheel := rfl
@[simp] theorem State.modPol_lands (s : State) (p : PolId) (f : Polder → Polder) : (s.modPol p f).lands = s.lands := rfl
@[simp] theorem State.modPol_cols (s : State) (p : PolId) (f : Polder → Polder) : (s.modPol p f).cols = s.cols := rfl
@[simp] theorem State.modPol_ka (s : State) (p : PolId) (f : Polder → Polder) : (s.modPol p f).ka = s.ka := rfl
@[simp] theorem State.modPol_curSlice (s : State) (p : PolId) (f : Polder → Polder) : (s.modPol p f).curSlice = s.curSlice := rfl
@[simp] theorem State.modPol_arr (s : State) (p : PolId) (f : Polder → Polder) : (s.modPol p f).arr = s.arr := rfl
@[simp] theorem State.modPol_life (s : State) (p : PolId) (f : Polder → Polder) : (s.modPol p f).life = s.life := rfl
@[simp] theorem State.modPol_bist (s : State) (p : PolId) (f : Polder → Polder) : (s.modPol p f).bist = s.bist := rfl
@[simp] theorem State.modPol_therm (s : State) (p : PolId) (f : Polder → Polder) : (s.modPol p f).therm = s.therm := rfl
@[simp] theorem State.modPol_host (s : State) (p : PolId) (f : Polder → Polder) : (s.modPol p f).host = s.host := rfl
@[simp] theorem State.modPol_dali (s : State) (p : PolId) (f : Polder → Polder) : (s.modPol p f).dali = s.dali := rfl
@[simp] theorem State.modPol_lineA (s : State) (p : PolId) (f : Polder → Polder) : (s.modPol p f).lineA = s.lineA := rfl
@[simp] theorem State.modPol_lineB (s : State) (p : PolId) (f : Polder → Polder) : (s.modPol p f).lineB = s.lineB := rfl
@[simp] theorem State.modPol_fab (s : State) (p : PolId) (f : Polder → Polder) : (s.modPol p f).fab = s.fab := rfl
@[simp] theorem State.modPol_jtag (s : State) (p : PolId) (f : Polder → Polder) : (s.modPol p f).jtag = s.jtag := rfl
@[simp] theorem State.modPol_restartCause (s : State) (p : PolId) (f : Polder → Polder) : (s.modPol p f).restartCause = s.restartCause := rfl
@[simp] theorem State.modPol_carries (s : State) (p : PolId) (f : Polder → Polder) : (s.modPol p f).carries = s.carries := rfl
@[simp] theorem State.modPol_early (s : State) (p : PolId) (f : Polder → Polder) : (s.modPol p f).early = s.early := rfl

@[simp] theorem State.mapPols_pending (s : State) (f : PolId → Polder → Polder) : (s.mapPols f).pending = s.pending := rfl
@[simp] theorem State.mapPols_freeCtr (s : State) (f : PolId → Polder → Polder) : (s.mapPols f).freeCtr = s.freeCtr := rfl
@[simp] theorem State.mapPols_clock (s : State) (f : PolId → Polder → Polder) : (s.mapPols f).clock = s.clock := rfl
@[simp] theorem State.mapPols_power (s : State) (f : PolId → Polder → Polder) : (s.mapPols f).power = s.power := rfl
@[simp] theorem State.mapPols_holdup (s : State) (f : PolId → Polder → Polder) : (s.mapPols f).holdup = s.holdup := rfl
@[simp] theorem State.mapPols_wheel (s : State) (f : PolId → Polder → Polder) : (s.mapPols f).wheel = s.wheel := rfl
@[simp] theorem State.mapPols_lands (s : State) (f : PolId → Polder → Polder) : (s.mapPols f).lands = s.lands := rfl
@[simp] theorem State.mapPols_cols (s : State) (f : PolId → Polder → Polder) : (s.mapPols f).cols = s.cols := rfl
@[simp] theorem State.mapPols_ka (s : State) (f : PolId → Polder → Polder) : (s.mapPols f).ka = s.ka := rfl
@[simp] theorem State.mapPols_curSlice (s : State) (f : PolId → Polder → Polder) : (s.mapPols f).curSlice = s.curSlice := rfl
@[simp] theorem State.mapPols_arr (s : State) (f : PolId → Polder → Polder) : (s.mapPols f).arr = s.arr := rfl
@[simp] theorem State.mapPols_life (s : State) (f : PolId → Polder → Polder) : (s.mapPols f).life = s.life := rfl
@[simp] theorem State.mapPols_bist (s : State) (f : PolId → Polder → Polder) : (s.mapPols f).bist = s.bist := rfl
@[simp] theorem State.mapPols_therm (s : State) (f : PolId → Polder → Polder) : (s.mapPols f).therm = s.therm := rfl
@[simp] theorem State.mapPols_host (s : State) (f : PolId → Polder → Polder) : (s.mapPols f).host = s.host := rfl
@[simp] theorem State.mapPols_dali (s : State) (f : PolId → Polder → Polder) : (s.mapPols f).dali = s.dali := rfl
@[simp] theorem State.mapPols_lineA (s : State) (f : PolId → Polder → Polder) : (s.mapPols f).lineA = s.lineA := rfl
@[simp] theorem State.mapPols_lineB (s : State) (f : PolId → Polder → Polder) : (s.mapPols f).lineB = s.lineB := rfl
@[simp] theorem State.mapPols_fab (s : State) (f : PolId → Polder → Polder) : (s.mapPols f).fab = s.fab := rfl
@[simp] theorem State.mapPols_jtag (s : State) (f : PolId → Polder → Polder) : (s.mapPols f).jtag = s.jtag := rfl
@[simp] theorem State.mapPols_restartCause (s : State) (f : PolId → Polder → Polder) : (s.mapPols f).restartCause = s.restartCause := rfl
@[simp] theorem State.mapPols_carries (s : State) (f : PolId → Polder → Polder) : (s.mapPols f).carries = s.carries := rfl
@[simp] theorem State.mapPols_early (s : State) (f : PolId → Polder → Polder) : (s.mapPols f).early = s.early := rfl

/-! ### A compare channel, an item write, a free value, a wait changed -/

@[simp] theorem State.modTcmp_pending (s : State) (c : Fin 16) (f : Tcmp → Tcmp) : (s.modTcmp c f).pending = s.pending := rfl
@[simp] theorem State.modTcmp_freeCtr (s : State) (c : Fin 16) (f : Tcmp → Tcmp) : (s.modTcmp c f).freeCtr = s.freeCtr := rfl
@[simp] theorem State.modTcmp_power (s : State) (c : Fin 16) (f : Tcmp → Tcmp) : (s.modTcmp c f).power = s.power := rfl
@[simp] theorem State.modTcmp_holdup (s : State) (c : Fin 16) (f : Tcmp → Tcmp) : (s.modTcmp c f).holdup = s.holdup := rfl
@[simp] theorem State.modTcmp_wheel (s : State) (c : Fin 16) (f : Tcmp → Tcmp) : (s.modTcmp c f).wheel = s.wheel := rfl
@[simp] theorem State.modTcmp_lands (s : State) (c : Fin 16) (f : Tcmp → Tcmp) : (s.modTcmp c f).lands = s.lands := rfl
@[simp] theorem State.modTcmp_cols (s : State) (c : Fin 16) (f : Tcmp → Tcmp) : (s.modTcmp c f).cols = s.cols := rfl
@[simp] theorem State.modTcmp_pols (s : State) (c : Fin 16) (f : Tcmp → Tcmp) : (s.modTcmp c f).pols = s.pols := rfl
@[simp] theorem State.modTcmp_ka (s : State) (c : Fin 16) (f : Tcmp → Tcmp) : (s.modTcmp c f).ka = s.ka := rfl
@[simp] theorem State.modTcmp_curSlice (s : State) (c : Fin 16) (f : Tcmp → Tcmp) : (s.modTcmp c f).curSlice = s.curSlice := rfl
@[simp] theorem State.modTcmp_arr (s : State) (c : Fin 16) (f : Tcmp → Tcmp) : (s.modTcmp c f).arr = s.arr := rfl
@[simp] theorem State.modTcmp_life (s : State) (c : Fin 16) (f : Tcmp → Tcmp) : (s.modTcmp c f).life = s.life := rfl
@[simp] theorem State.modTcmp_bist (s : State) (c : Fin 16) (f : Tcmp → Tcmp) : (s.modTcmp c f).bist = s.bist := rfl
@[simp] theorem State.modTcmp_therm (s : State) (c : Fin 16) (f : Tcmp → Tcmp) : (s.modTcmp c f).therm = s.therm := rfl
@[simp] theorem State.modTcmp_host (s : State) (c : Fin 16) (f : Tcmp → Tcmp) : (s.modTcmp c f).host = s.host := rfl
@[simp] theorem State.modTcmp_dali (s : State) (c : Fin 16) (f : Tcmp → Tcmp) : (s.modTcmp c f).dali = s.dali := rfl
@[simp] theorem State.modTcmp_lineA (s : State) (c : Fin 16) (f : Tcmp → Tcmp) : (s.modTcmp c f).lineA = s.lineA := rfl
@[simp] theorem State.modTcmp_lineB (s : State) (c : Fin 16) (f : Tcmp → Tcmp) : (s.modTcmp c f).lineB = s.lineB := rfl
@[simp] theorem State.modTcmp_fab (s : State) (c : Fin 16) (f : Tcmp → Tcmp) : (s.modTcmp c f).fab = s.fab := rfl
@[simp] theorem State.modTcmp_jtag (s : State) (c : Fin 16) (f : Tcmp → Tcmp) : (s.modTcmp c f).jtag = s.jtag := rfl
@[simp] theorem State.modTcmp_restartCause (s : State) (c : Fin 16) (f : Tcmp → Tcmp) : (s.modTcmp c f).restartCause = s.restartCause := rfl
@[simp] theorem State.modTcmp_carries (s : State) (c : Fin 16) (f : Tcmp → Tcmp) : (s.modTcmp c f).carries = s.carries := rfl
@[simp] theorem State.modTcmp_early (s : State) (c : Fin 16) (f : Tcmp → Tcmp) : (s.modTcmp c f).early = s.early := rfl

@[simp] theorem State.requestItem_pending (s : State) (p : PolId) (v : ItemValue) : (s.requestItem p v).pending = s.pending := rfl
@[simp] theorem State.requestItem_freeCtr (s : State) (p : PolId) (v : ItemValue) : (s.requestItem p v).freeCtr = s.freeCtr := rfl
@[simp] theorem State.requestItem_clock (s : State) (p : PolId) (v : ItemValue) : (s.requestItem p v).clock = s.clock := rfl
@[simp] theorem State.requestItem_power (s : State) (p : PolId) (v : ItemValue) : (s.requestItem p v).power = s.power := rfl
@[simp] theorem State.requestItem_holdup (s : State) (p : PolId) (v : ItemValue) : (s.requestItem p v).holdup = s.holdup := rfl
@[simp] theorem State.requestItem_wheel (s : State) (p : PolId) (v : ItemValue) : (s.requestItem p v).wheel = s.wheel := rfl
@[simp] theorem State.requestItem_lands (s : State) (p : PolId) (v : ItemValue) : (s.requestItem p v).lands = s.lands := rfl
@[simp] theorem State.requestItem_cols (s : State) (p : PolId) (v : ItemValue) : (s.requestItem p v).cols = s.cols := rfl
@[simp] theorem State.requestItem_pols (s : State) (p : PolId) (v : ItemValue) : (s.requestItem p v).pols = s.pols := rfl
@[simp] theorem State.requestItem_ka (s : State) (p : PolId) (v : ItemValue) : (s.requestItem p v).ka = s.ka := rfl
@[simp] theorem State.requestItem_curSlice (s : State) (p : PolId) (v : ItemValue) : (s.requestItem p v).curSlice = s.curSlice := rfl
@[simp] theorem State.requestItem_life (s : State) (p : PolId) (v : ItemValue) : (s.requestItem p v).life = s.life := rfl
@[simp] theorem State.requestItem_bist (s : State) (p : PolId) (v : ItemValue) : (s.requestItem p v).bist = s.bist := rfl
@[simp] theorem State.requestItem_therm (s : State) (p : PolId) (v : ItemValue) : (s.requestItem p v).therm = s.therm := rfl
@[simp] theorem State.requestItem_host (s : State) (p : PolId) (v : ItemValue) : (s.requestItem p v).host = s.host := rfl
@[simp] theorem State.requestItem_dali (s : State) (p : PolId) (v : ItemValue) : (s.requestItem p v).dali = s.dali := rfl
@[simp] theorem State.requestItem_lineA (s : State) (p : PolId) (v : ItemValue) : (s.requestItem p v).lineA = s.lineA := rfl
@[simp] theorem State.requestItem_lineB (s : State) (p : PolId) (v : ItemValue) : (s.requestItem p v).lineB = s.lineB := rfl
@[simp] theorem State.requestItem_fab (s : State) (p : PolId) (v : ItemValue) : (s.requestItem p v).fab = s.fab := rfl
@[simp] theorem State.requestItem_jtag (s : State) (p : PolId) (v : ItemValue) : (s.requestItem p v).jtag = s.jtag := rfl
@[simp] theorem State.requestItem_restartCause (s : State) (p : PolId) (v : ItemValue) : (s.requestItem p v).restartCause = s.restartCause := rfl
@[simp] theorem State.requestItem_carries (s : State) (p : PolId) (v : ItemValue) : (s.requestItem p v).carries = s.carries := rfl
@[simp] theorem State.requestItem_early (s : State) (p : PolId) (v : ItemValue) : (s.requestItem p v).early = s.early := rfl

@[simp] theorem State.drawn_pending (s : State) : (s.drawn).pending = s.pending := rfl
@[simp] theorem State.drawn_clock (s : State) : (s.drawn).clock = s.clock := rfl
@[simp] theorem State.drawn_power (s : State) : (s.drawn).power = s.power := rfl
@[simp] theorem State.drawn_holdup (s : State) : (s.drawn).holdup = s.holdup := rfl
@[simp] theorem State.drawn_wheel (s : State) : (s.drawn).wheel = s.wheel := rfl
@[simp] theorem State.drawn_lands (s : State) : (s.drawn).lands = s.lands := rfl
@[simp] theorem State.drawn_cols (s : State) : (s.drawn).cols = s.cols := rfl
@[simp] theorem State.drawn_pols (s : State) : (s.drawn).pols = s.pols := rfl
@[simp] theorem State.drawn_ka (s : State) : (s.drawn).ka = s.ka := rfl
@[simp] theorem State.drawn_curSlice (s : State) : (s.drawn).curSlice = s.curSlice := rfl
@[simp] theorem State.drawn_arr (s : State) : (s.drawn).arr = s.arr := rfl
@[simp] theorem State.drawn_life (s : State) : (s.drawn).life = s.life := rfl
@[simp] theorem State.drawn_bist (s : State) : (s.drawn).bist = s.bist := rfl
@[simp] theorem State.drawn_therm (s : State) : (s.drawn).therm = s.therm := rfl
@[simp] theorem State.drawn_host (s : State) : (s.drawn).host = s.host := rfl
@[simp] theorem State.drawn_dali (s : State) : (s.drawn).dali = s.dali := rfl
@[simp] theorem State.drawn_lineA (s : State) : (s.drawn).lineA = s.lineA := rfl
@[simp] theorem State.drawn_lineB (s : State) : (s.drawn).lineB = s.lineB := rfl
@[simp] theorem State.drawn_fab (s : State) : (s.drawn).fab = s.fab := rfl
@[simp] theorem State.drawn_jtag (s : State) : (s.drawn).jtag = s.jtag := rfl
@[simp] theorem State.drawn_restartCause (s : State) : (s.drawn).restartCause = s.restartCause := rfl
@[simp] theorem State.drawn_carries (s : State) : (s.drawn).carries = s.carries := rfl
@[simp] theorem State.drawn_early (s : State) : (s.drawn).early = s.early := rfl

@[simp] theorem State.dropCarry_pending (s : State) (w : CarryWhy) : (s.dropCarry w).pending = s.pending := rfl
@[simp] theorem State.dropCarry_freeCtr (s : State) (w : CarryWhy) : (s.dropCarry w).freeCtr = s.freeCtr := rfl
@[simp] theorem State.dropCarry_clock (s : State) (w : CarryWhy) : (s.dropCarry w).clock = s.clock := rfl
@[simp] theorem State.dropCarry_power (s : State) (w : CarryWhy) : (s.dropCarry w).power = s.power := rfl
@[simp] theorem State.dropCarry_holdup (s : State) (w : CarryWhy) : (s.dropCarry w).holdup = s.holdup := rfl
@[simp] theorem State.dropCarry_wheel (s : State) (w : CarryWhy) : (s.dropCarry w).wheel = s.wheel := rfl
@[simp] theorem State.dropCarry_lands (s : State) (w : CarryWhy) : (s.dropCarry w).lands = s.lands := rfl
@[simp] theorem State.dropCarry_cols (s : State) (w : CarryWhy) : (s.dropCarry w).cols = s.cols := rfl
@[simp] theorem State.dropCarry_pols (s : State) (w : CarryWhy) : (s.dropCarry w).pols = s.pols := rfl
@[simp] theorem State.dropCarry_ka (s : State) (w : CarryWhy) : (s.dropCarry w).ka = s.ka := rfl
@[simp] theorem State.dropCarry_curSlice (s : State) (w : CarryWhy) : (s.dropCarry w).curSlice = s.curSlice := rfl
@[simp] theorem State.dropCarry_arr (s : State) (w : CarryWhy) : (s.dropCarry w).arr = s.arr := rfl
@[simp] theorem State.dropCarry_life (s : State) (w : CarryWhy) : (s.dropCarry w).life = s.life := rfl
@[simp] theorem State.dropCarry_bist (s : State) (w : CarryWhy) : (s.dropCarry w).bist = s.bist := rfl
@[simp] theorem State.dropCarry_therm (s : State) (w : CarryWhy) : (s.dropCarry w).therm = s.therm := rfl
@[simp] theorem State.dropCarry_host (s : State) (w : CarryWhy) : (s.dropCarry w).host = s.host := rfl
@[simp] theorem State.dropCarry_dali (s : State) (w : CarryWhy) : (s.dropCarry w).dali = s.dali := rfl
@[simp] theorem State.dropCarry_lineA (s : State) (w : CarryWhy) : (s.dropCarry w).lineA = s.lineA := rfl
@[simp] theorem State.dropCarry_lineB (s : State) (w : CarryWhy) : (s.dropCarry w).lineB = s.lineB := rfl
@[simp] theorem State.dropCarry_fab (s : State) (w : CarryWhy) : (s.dropCarry w).fab = s.fab := rfl
@[simp] theorem State.dropCarry_jtag (s : State) (w : CarryWhy) : (s.dropCarry w).jtag = s.jtag := rfl
@[simp] theorem State.dropCarry_restartCause (s : State) (w : CarryWhy) : (s.dropCarry w).restartCause = s.restartCause := rfl
@[simp] theorem State.dropCarry_early (s : State) (w : CarryWhy) : (s.dropCarry w).early = s.early := rfl

@[simp] theorem State.markCarried_pending (s : State) (n : Nat) : (s.markCarried n).pending = s.pending := rfl
@[simp] theorem State.markCarried_freeCtr (s : State) (n : Nat) : (s.markCarried n).freeCtr = s.freeCtr := rfl
@[simp] theorem State.markCarried_clock (s : State) (n : Nat) : (s.markCarried n).clock = s.clock := rfl
@[simp] theorem State.markCarried_power (s : State) (n : Nat) : (s.markCarried n).power = s.power := rfl
@[simp] theorem State.markCarried_holdup (s : State) (n : Nat) : (s.markCarried n).holdup = s.holdup := rfl
@[simp] theorem State.markCarried_wheel (s : State) (n : Nat) : (s.markCarried n).wheel = s.wheel := rfl
@[simp] theorem State.markCarried_lands (s : State) (n : Nat) : (s.markCarried n).lands = s.lands := rfl
@[simp] theorem State.markCarried_cols (s : State) (n : Nat) : (s.markCarried n).cols = s.cols := rfl
@[simp] theorem State.markCarried_pols (s : State) (n : Nat) : (s.markCarried n).pols = s.pols := rfl
@[simp] theorem State.markCarried_ka (s : State) (n : Nat) : (s.markCarried n).ka = s.ka := rfl
@[simp] theorem State.markCarried_curSlice (s : State) (n : Nat) : (s.markCarried n).curSlice = s.curSlice := rfl
@[simp] theorem State.markCarried_arr (s : State) (n : Nat) : (s.markCarried n).arr = s.arr := rfl
@[simp] theorem State.markCarried_life (s : State) (n : Nat) : (s.markCarried n).life = s.life := rfl
@[simp] theorem State.markCarried_bist (s : State) (n : Nat) : (s.markCarried n).bist = s.bist := rfl
@[simp] theorem State.markCarried_therm (s : State) (n : Nat) : (s.markCarried n).therm = s.therm := rfl
@[simp] theorem State.markCarried_host (s : State) (n : Nat) : (s.markCarried n).host = s.host := rfl
@[simp] theorem State.markCarried_dali (s : State) (n : Nat) : (s.markCarried n).dali = s.dali := rfl
@[simp] theorem State.markCarried_lineA (s : State) (n : Nat) : (s.markCarried n).lineA = s.lineA := rfl
@[simp] theorem State.markCarried_lineB (s : State) (n : Nat) : (s.markCarried n).lineB = s.lineB := rfl
@[simp] theorem State.markCarried_fab (s : State) (n : Nat) : (s.markCarried n).fab = s.fab := rfl
@[simp] theorem State.markCarried_jtag (s : State) (n : Nat) : (s.markCarried n).jtag = s.jtag := rfl
@[simp] theorem State.markCarried_restartCause (s : State) (n : Nat) : (s.markCarried n).restartCause = s.restartCause := rfl
@[simp] theorem State.markCarried_early (s : State) (n : Nat) : (s.markCarried n).early = s.early := rfl

@[simp] theorem State.bindMiss_pending (s : State) : (s.bindMiss).pending = s.pending := rfl
@[simp] theorem State.bindMiss_freeCtr (s : State) : (s.bindMiss).freeCtr = s.freeCtr := rfl
@[simp] theorem State.bindMiss_clock (s : State) : (s.bindMiss).clock = s.clock := rfl
@[simp] theorem State.bindMiss_power (s : State) : (s.bindMiss).power = s.power := rfl
@[simp] theorem State.bindMiss_holdup (s : State) : (s.bindMiss).holdup = s.holdup := rfl
@[simp] theorem State.bindMiss_wheel (s : State) : (s.bindMiss).wheel = s.wheel := rfl
@[simp] theorem State.bindMiss_lands (s : State) : (s.bindMiss).lands = s.lands := rfl
@[simp] theorem State.bindMiss_cols (s : State) : (s.bindMiss).cols = s.cols := rfl
@[simp] theorem State.bindMiss_pols (s : State) : (s.bindMiss).pols = s.pols := rfl
@[simp] theorem State.bindMiss_ka (s : State) : (s.bindMiss).ka = s.ka := rfl
@[simp] theorem State.bindMiss_curSlice (s : State) : (s.bindMiss).curSlice = s.curSlice := rfl
@[simp] theorem State.bindMiss_arr (s : State) : (s.bindMiss).arr = s.arr := rfl
@[simp] theorem State.bindMiss_life (s : State) : (s.bindMiss).life = s.life := rfl
@[simp] theorem State.bindMiss_bist (s : State) : (s.bindMiss).bist = s.bist := rfl
@[simp] theorem State.bindMiss_therm (s : State) : (s.bindMiss).therm = s.therm := rfl
@[simp] theorem State.bindMiss_dali (s : State) : (s.bindMiss).dali = s.dali := rfl
@[simp] theorem State.bindMiss_lineA (s : State) : (s.bindMiss).lineA = s.lineA := rfl
@[simp] theorem State.bindMiss_lineB (s : State) : (s.bindMiss).lineB = s.lineB := rfl
@[simp] theorem State.bindMiss_fab (s : State) : (s.bindMiss).fab = s.fab := rfl
@[simp] theorem State.bindMiss_jtag (s : State) : (s.bindMiss).jtag = s.jtag := rfl
@[simp] theorem State.bindMiss_restartCause (s : State) : (s.bindMiss).restartCause = s.restartCause := rfl
@[simp] theorem State.bindMiss_carries (s : State) : (s.bindMiss).carries = s.carries := rfl
@[simp] theorem State.bindMiss_early (s : State) : (s.bindMiss).early = s.early := rfl

/-! ### A line port changed -/

@[simp] theorem State.modPort_pending (s : State) (p : Port) (f : LinePort → LinePort) : (s.modPort p f).pending = s.pending := by cases p <;> rfl
@[simp] theorem State.modPort_freeCtr (s : State) (p : Port) (f : LinePort → LinePort) : (s.modPort p f).freeCtr = s.freeCtr := by cases p <;> rfl
@[simp] theorem State.modPort_clock (s : State) (p : Port) (f : LinePort → LinePort) : (s.modPort p f).clock = s.clock := by cases p <;> rfl
@[simp] theorem State.modPort_power (s : State) (p : Port) (f : LinePort → LinePort) : (s.modPort p f).power = s.power := by cases p <;> rfl
@[simp] theorem State.modPort_holdup (s : State) (p : Port) (f : LinePort → LinePort) : (s.modPort p f).holdup = s.holdup := by cases p <;> rfl
@[simp] theorem State.modPort_wheel (s : State) (p : Port) (f : LinePort → LinePort) : (s.modPort p f).wheel = s.wheel := by cases p <;> rfl
@[simp] theorem State.modPort_lands (s : State) (p : Port) (f : LinePort → LinePort) : (s.modPort p f).lands = s.lands := by cases p <;> rfl
@[simp] theorem State.modPort_cols (s : State) (p : Port) (f : LinePort → LinePort) : (s.modPort p f).cols = s.cols := by cases p <;> rfl
@[simp] theorem State.modPort_pols (s : State) (p : Port) (f : LinePort → LinePort) : (s.modPort p f).pols = s.pols := by cases p <;> rfl
@[simp] theorem State.modPort_ka (s : State) (p : Port) (f : LinePort → LinePort) : (s.modPort p f).ka = s.ka := by cases p <;> rfl
@[simp] theorem State.modPort_curSlice (s : State) (p : Port) (f : LinePort → LinePort) : (s.modPort p f).curSlice = s.curSlice := by cases p <;> rfl
@[simp] theorem State.modPort_arr (s : State) (p : Port) (f : LinePort → LinePort) : (s.modPort p f).arr = s.arr := by cases p <;> rfl
@[simp] theorem State.modPort_life (s : State) (p : Port) (f : LinePort → LinePort) : (s.modPort p f).life = s.life := by cases p <;> rfl
@[simp] theorem State.modPort_bist (s : State) (p : Port) (f : LinePort → LinePort) : (s.modPort p f).bist = s.bist := by cases p <;> rfl
@[simp] theorem State.modPort_therm (s : State) (p : Port) (f : LinePort → LinePort) : (s.modPort p f).therm = s.therm := by cases p <;> rfl
@[simp] theorem State.modPort_host (s : State) (p : Port) (f : LinePort → LinePort) : (s.modPort p f).host = s.host := by cases p <;> rfl
@[simp] theorem State.modPort_dali (s : State) (p : Port) (f : LinePort → LinePort) : (s.modPort p f).dali = s.dali := by cases p <;> rfl
@[simp] theorem State.modPort_fab (s : State) (p : Port) (f : LinePort → LinePort) : (s.modPort p f).fab = s.fab := by cases p <;> rfl
@[simp] theorem State.modPort_jtag (s : State) (p : Port) (f : LinePort → LinePort) : (s.modPort p f).jtag = s.jtag := by cases p <;> rfl
@[simp] theorem State.modPort_restartCause (s : State) (p : Port) (f : LinePort → LinePort) : (s.modPort p f).restartCause = s.restartCause := by cases p <;> rfl
@[simp] theorem State.modPort_carries (s : State) (p : Port) (f : LinePort → LinePort) : (s.modPort p f).carries = s.carries := by cases p <;> rfl
@[simp] theorem State.modPort_early (s : State) (p : Port) (f : LinePort → LinePort) : (s.modPort p f).early = s.early := by cases p <;> rfl

@[simp] theorem State.port_modPort (s : State) (p q : Port) (f : LinePort → LinePort) :
    (s.modPort p f).port q = if q = p then f (s.port p) else s.port q := by cases p <;> cases q <;> rfl

@[simp] theorem State.pol_modPort (s : State) (p : Port) (f : LinePort → LinePort) (q : PolId) : (s.modPort p f).pol q = s.pol q := by
  cases p <;> rfl
@[simp] theorem State.pol_modTcmp (s : State) (c : Fin 16) (f : Tcmp → Tcmp) (q : PolId) : (s.modTcmp c f).pol q = s.pol q := rfl
@[simp] theorem State.pol_requestItem (s : State) (p : PolId) (v : ItemValue) (q : PolId) : (s.requestItem p v).pol q = s.pol q := rfl
@[simp] theorem State.pol_drawn (s : State) (q : PolId) : s.drawn.pol q = s.pol q := rfl

end Sys2Proof.Machine
end

