-- ==== Sys2Proof/Laws/Events.lean ====
section
/-! SUPPORT. What issuing a polder's events can change: that polder, the array with its log, and the compare channels whose events left. -/

namespace Sys2Proof.Machine

/-- `t` differs from `s` in polder `p`, the array and the compare channels at most. -/
def Issues (p : PolId) (s t : State) : Prop :=
  ∃ (q : Polder) (a : ArrayS) (c : Vector Tcmp 16), t = { s with pols := s.pols.set p q, arr := a, clock := { s.clock with tcmp := c } }

theorem Issues.refl (p : PolId) (s : State) : Issues p s s := ⟨s.pols[p], s.arr, s.clock.tcmp, by simp⟩

theorem Issues.trans {p : PolId} {s t u : State} (h : Issues p s t) (k : Issues p t u) : Issues p s u := by
  obtain ⟨q, a, c, rfl⟩ := h
  obtain ⟨q', a', c', rfl⟩ := k
  exact ⟨q', a', c', by simp⟩

theorem Issues.modPol (p : PolId) (f : Polder → Polder) (s : State) : Issues p s (s.modPol p f) := ⟨_, s.arr, s.clock.tcmp, rfl⟩

theorem Issues.arr (p : PolId) (a : ArrayS) (s : State) : Issues p s { s with arr := a } :=
  ⟨s.pols[p], a, s.clock.tcmp, by simp⟩

theorem Issues.modTcmp (p : PolId) (ch : Fin 16) (f : Tcmp → Tcmp) (s : State) : Issues p s (s.modTcmp ch f) :=
  ⟨s.pols[p], s.arr, s.clock.tcmp.set ch (f s.clock.tcmp[ch]), by simp [State.modTcmp]⟩

theorem Issues.reserveSeq (p q : PolId) (s : State) : Issues p s (s.reserveSeq q) := by
  simp only [State.reserveSeq]; split
  · exact Issues.arr p _ s
  · exact Issues.refl p s

theorem Issues.issueRecord (p : PolId) (rtype : Nat) (frame : W32) (body : List Byte) (s : State) :
    Issues p s (s.issueRecord p rtype frame body) :=
  (Issues.modPol p _ s).trans (Issues.reserveSeq p p _)

theorem Issues.addJob (p q : PolId) (j : PageJob) (s : State) : Issues p s (s.addJob q j) := by
  simp only [State.addJob]; split <;> exact Issues.arr p _ s

theorem Issues.pushLog (p : PolId) (tb : Tb) (f : W32) (code : Nat) (payload : List Byte) (s : State) :
    Issues p s (s.pushLog tb f code payload) := by
  simp only [State.pushLog]; split
  · exact (Issues.arr p _ s).trans (Issues.addJob p _ _ _)
  · exact Issues.arr p _ s

theorem Issues.logEntry (p : PolId) (tb : Tb) (f : W32) (code : Nat) (payload : List Byte) (s : State) :
    Issues p s (s.logEntry tb f code payload) := by
  simp only [State.logEntry]; split
  · exact Issues.arr p _ s
  · split
    · exact Issues.pushLog p _ _ _ _ s
    · split
      · exact ((Issues.arr p _ s).trans (Issues.pushLog p _ _ _ _ _)).trans (Issues.pushLog p _ _ _ _ _)
      · exact ((Issues.arr p _ s).trans (Issues.pushLog p _ _ _ _ _)).trans (Issues.arr p _ _)

theorem Issues.resolveEvent (p : PolId) (e : EventRec) (s : State) : Issues p s (s.resolveEvent e).2 := by
  simp only [State.resolveEvent]; split
  · exact Issues.modTcmp p e.channel (fun _ => (s.clock.tcmp[e.channel]).takeEvent.2) s
  · exact Issues.refl p s

theorem Issues.issueEvent (p : PolId) (e : EventRec) (s : State) : Issues p s (s.issueEvent p e) := by
  have h := Issues.resolveEvent p e s
  simp only [State.issueEvent]
  split
  · next e' s' he =>
    rw [he] at h
    split
    · exact (h.trans (Issues.issueRecord p _ _ _ _)).trans (Issues.logEntry p _ _ _ _ _)
    · exact h.trans (Issues.issueRecord p _ _ _ _)
  · next s' he => rw [he] at h; exact h

theorem Issues.issueEventsN (n : Nat) (p : PolId) (s : State) : Issues p s (s.issueEventsN n p) := by
  induction n generalizing s with
  | zero => exact Issues.refl p s
  | succ n ih =>
    unfold State.issueEventsN
    split
    · exact Issues.refl p s
    · split
      · exact Issues.refl p s
      · exact ((Issues.modPol p _ s).trans (Issues.issueEvent p _ _)).trans (ih _)

theorem Issues.issueEvents (p : PolId) (s : State) : Issues p s (s.issueEvents p) := by
  unfold State.issueEvents; split
  · exact Issues.issueEventsN _ p s
  · exact Issues.refl p s

theorem Issues.eventAt (p : PolId) (code : Nat) (f : W32) (tb : Tb) (payload : List Byte) (s : State) :
    Issues p s (s.eventAt p code f tb payload) := by
  unfold State.eventAt; split
  · exact (Issues.modPol p _ s).trans (Issues.issueEvents p _)
  · exact Issues.refl p s

/-- An event of a polder changes that polder, the array and compare channels at most. -/
theorem Issues.event (p : PolId) (code : Nat) (payload : List Byte) (s : State) : Issues p s (s.event p code payload) :=
  Issues.eventAt p code _ _ payload s

/-- An owner event changes the owner, the array and compare channels at most. -/
theorem Issues.ownerEvent (code : Nat) (payload : List Byte) (s : State) : Issues owner s (s.ownerEvent code payload) :=
  Issues.event owner code payload s

/-- A polder that does not issue stays. -/
theorem Issues.pol {p : PolId} {s t : State} (h : Issues p s t) (q : PolId) (hq : q ≠ p) : t.pol q = s.pol q := by
  obtain ⟨x, a, c, rfl⟩ := h
  have h' : ¬ (p : Nat) = (q : Nat) := fun e => hq (Fin.ext e.symm)
  simp [State.pol, Vector.getElem_set_ne, h']

/-- Nothing but polders, the array and the clock changes. -/
theorem Issues.frame {p : PolId} {s t : State} (h : Issues p s t) : t = { s with pols := t.pols, arr := t.arr, clock := t.clock } := by
  obtain ⟨x, a, c, rfl⟩ := h; rfl

theorem Issues.clock {p : PolId} {s t : State} (h : Issues p s t) : t.clock = { s.clock with tcmp := t.clock.tcmp } := by
  obtain ⟨x, a, c, rfl⟩ := h; rfl

/-! ### Item writes that concern another item -/

theorem replaceWaiting_filter (v : ItemValue) (p : PolId) (i : Nat) (hi : v.item ≠ i) (l : List ItemWrite) :
    ∀ l', replaceWaiting v p l = some l' → l'.filter (fun w => w.value.item == i) = l.filter (fun w => w.value.item == i) := by
  induction l with
  | nil => intro l' h; cases h
  | cons w rest ih =>
    intro l' h
    unfold replaceWaiting at h
    split at h
    · next hc =>
      cases h
      simp only [Bool.and_eq_true, beq_iff_eq] at hc
      simp [hc.2, hi]
    · cases hr : replaceWaiting v p rest with
      | none => rw [hr] at h; cases h
      | some l2 =>
        rw [hr] at h
        cases h
        simp only [List.filter_cons, ih l2 hr]

theorem find_reverse_filter (l : List ItemWrite) (f : ItemWrite → Bool) : l.reverse.find? f = (l.filter f).getLast? := by
  rw [List.getLast?_eq_head?_reverse, ← List.filter_reverse, List.head?_filter]

/-- A request for another item changes nothing of what is requested for this one. -/
theorem State.requested?_requestItem (s : State) (p : PolId) (v : ItemValue) (i : Nat) (hi : v.item ≠ i) :
    (s.requestItem p v).requested? i = s.requested? i := by
  simp only [State.requested?, State.requestItem, find_reverse_filter]
  cases h : replaceWaiting v p s.arr.writes with
  | none => simp [List.filter_append, hi]
  | some l => simp [replaceWaiting_filter v p i hi _ l h]

end Sys2Proof.Machine
end

