-- ==== Sys2Proof/Laws/Held.lean ====
section
/-! SUPPORT. What every operation keeps: the fuse block, the canonical form of the stores, the bounds of the polder queues. `Held` is the
notion, and each file Laws/Held*.lean says it once of each operation. -/

namespace Sys2Proof.Machine

/-- The fuse block is F; where A is asked for, the stores are canonical; where B is asked for, the queues are within their bounds. -/
structure Held (F : FuseBlock) (A B : Prop) (s : State) : Prop where
  fuses : s.fuses = F
  stores : A → s.storesWf = true
  queues : B → s.queuesWf = true

/-- The next state of an outcome, if any, is `Held`. -/
def HeldOut (F : FuseBlock) (A B : Prop) (o : Host.Outcome State Fault Refusal) : Prop :=
  match o with
  | .next t => Held F A B t
  | _ => True

/-- The state a served command leaves. -/
def CmdOut.after : CmdOut → State
  | .done _ s => s
  | .hold _ _ s => s
  | .replyHold _ _ s => s

variable {F : FuseBlock} {A B : Prop} {s : State}

theorem heldOut_next (h : Held F A B s) : HeldOut F A B (.next s) := h
theorem heldOut_fault (r : Fault) : HeldOut F A B (.fault r) := trivial

theorem heldOut_ite {c : Prop} [Decidable c] {x y : Host.Outcome State Fault Refusal} (hx : HeldOut F A B x) (hy : HeldOut F A B y) :
    HeldOut F A B (if c then x else y) := by split <;> assumption

theorem after_done {a : Answer} (h : Held F A B s) : Held F A B (CmdOut.done a s).after := h
theorem after_hold {r : HoldRule} {a : Option Answer} (h : Held F A B s) : Held F A B (CmdOut.hold r a s).after := h
theorem after_replyHold {r : HoldRule} {a : Answer} (h : Held F A B s) : Held F A B (CmdOut.replyHold r a s).after := h

/-- The state of a pair. -/
theorem snd_held {α : Type} {x : α × State} {a : α} {t : State} (e : x = (a, t)) (h : Held F A B x.2) : Held F A B t := by
  rw [e] at h; exact h

theorem held_ite {c : Prop} [Decidable c] {x y : State} (hx : Held F A B x) (hy : Held F A B y) : Held F A B (if c then x else y) := by
  split <;> assumption

theorem after_ite {c : Prop} [Decidable c] {x y : CmdOut} (hx : Held F A B x.after) (hy : Held F A B y.after) :
    Held F A B (if c then x else y).after := by split <;> assumption

theorem foldl_held {α : Type} (f : State → α → State) (l : List α) (h : Held F A B s)
    (hf : ∀ s x, Held F A B s → Held F A B (f s x)) : Held F A B (l.foldl f s) := by
  induction l generalizing s with
  | nil => exact h
  | cons x l ih => exact ih (hf s x h)

/-- A state that differs in none of the fields `Held` reads. -/
theorem held_same {t : State} (h : Held F A B s) (h4 : t.pols = s.pols) (h1 : t.life.uid = s.life.uid ∧ t.life.mfgDone = s.life.mfgDone ∧
    t.life.fuseReturn = s.life.fuseReturn ∧ t.life.fuseScrapped = s.life.fuseScrapped)
    (h2 : t.arr.fw0 = s.arr.fw0 ∧ t.arr.fw1 = s.arr.fw1 ∧ t.arr.user = s.arr.user ∧ t.arr.logCells = s.arr.logCells ∧ t.arr.cells = s.arr.cells)
    (h3 : t.jtag.tcm = s.jtag.tcm) : Held F A B t := by
  obtain ⟨f, a, b⟩ := h
  refine ⟨?_, fun x => ?_, fun x => ?_⟩
  · simp only [State.fuses, h1, ← f]
  · simpa only [State.storesWf, ArrayS.storesWf, h2, h3] using a x
  · simpa only [State.queuesWf, h4] using b x

/-- A state literal that differs in none of the fields `Held` reads. -/
theorem held_upd {a1 a2 a3 a4 a5 a6 a7 a8 a9 a10 a11 a12 a13 a14 a15 a16 a17 a18 a19 a20 a21 a22 a23 a24} (h : Held F A B s)
    (h4 : a9 = s.pols) (h1 : a13.uid = s.life.uid) (h1a : a13.mfgDone = s.life.mfgDone) (h1b : a13.fuseReturn = s.life.fuseReturn)
    (h1c : a13.fuseScrapped = s.life.fuseScrapped) (h2 : a12.fw0 = s.arr.fw0) (h2a : a12.fw1 = s.arr.fw1) (h2b : a12.user = s.arr.user)
    (h2c : a12.logCells = s.arr.logCells) (h2d : a12.cells = s.arr.cells) (h3 : a21.tcm = s.jtag.tcm) :
    Held F A B (State.mk a1 a2 a3 a4 a5 a6 a7 a8 a9 a10 a11 a12 a13 a14 a15 a16 a17 a18 a19 a20 a21 a22 a23 a24) :=
  held_same h h4 ⟨h1, h1a, h1b, h1c⟩ ⟨h2, h2a, h2b, h2c, h2d⟩ h3

/-- An array whose stores are canonical where they were. -/
theorem held_arr {a : ArrayS} (h : Held F A B s) (ha : s.arr.storesWf = true → a.storesWf = true) : Held F A B { s with arr := a } := by
  refine ⟨h.fuses, fun x => ?_, h.queues⟩
  have := h.stores x
  simp only [State.storesWf, Bool.and_eq_true] at this ⊢
  exact ⟨ha this.1, this.2⟩

/-- A canonical region in place of a region. -/
theorem ArrayS.modRegion_storesWf (a : ArrayS) (r : Nat) (f : Region → Region) (h : a.storesWf = true)
    (hf : ∀ x, cellsWf x.content = true → cellsWf (f x).content = true) : (a.modRegion r f).storesWf = true := by
  simp only [ArrayS.storesWf, Bool.and_eq_true] at h
  obtain ⟨⟨⟨⟨h0, h1⟩, h2⟩, h3⟩, h4⟩ := h
  simp only [ArrayS.modRegion]
  split
  · simp [ArrayS.storesWf, hf _ h0, h1, h2, h3, h4]
  · split
    · simp [ArrayS.storesWf, h0, hf _ h1, h2, h3, h4]
    · simp [ArrayS.storesWf, h0, h1, hf _ h2, h3, h4]

theorem ArrayS.commit_storesWf (v : ItemValue) (a : ArrayS) : (a.commit v).storesWf = a.storesWf := by cases v <;> rfl

theorem ArrayS.openRegion_storesWf (w : W16) (a : ArrayS) (h : a.storesWf = true) : (a.openRegion w).storesWf = true := by
  unfold ArrayS.openRegion
  split
  · exact h
  · rename_i u _
    have := ArrayS.modRegion_storesWf a u.region.val (fun x =>
      if u.region.val = 6 then { x with isOpen := true } else { x with isOpen := true, len := 0, valid := false, sig := 0, version := 0 }) h
      (fun x hx => by split <;> exact hx)
    exact this

theorem ArrayS.commitRegion_storesWf (w : W16) (n : Nat) (a : ArrayS) (h : a.storesWf = true) : (a.commitRegion w n).storesWf = true := by
  unfold ArrayS.commitRegion
  split
  · exact h
  · exact ArrayS.modRegion_storesWf a _ _ h (fun x _ => cellsWf_cellsOf _)

theorem ArrayS.programLog_storesWf (a : ArrayS) (h : a.storesWf = true) : a.programLog.storesWf = true := by
  unfold ArrayS.programLog
  dsimp only
  split
  · exact h
  · simp only [ArrayS.storesWf, Bool.and_eq_true] at h ⊢
    exact ⟨⟨h.1.1, cellsWf_writeList _ _ _ h.1.2⟩, h.2⟩

theorem queuesWf_pol (h : s.queuesWf = true) (p : PolId) : (s.pol p).queuesWf = true := by
  simp only [State.queuesWf, Vector.all_eq_true] at h
  exact h p.val p.isLt

theorem queuesWf_of_pol (h : ∀ p, (s.pol p).queuesWf = true) : s.queuesWf = true := by
  simp only [State.queuesWf, Vector.all_eq_true]
  exact fun i hi => h ⟨i, hi⟩

theorem State.modPol_held {p : PolId} {f : Polder → Polder} (h : Held F A B s)
    (hf : (s.pol p).queuesWf = true → (f (s.pol p)).queuesWf = true) : Held F A B (s.modPol p f) := by
  refine ⟨h.fuses, fun a => h.stores a, fun b => queuesWf_of_pol fun q => ?_⟩
  rw [State.pol_modPol]
  split
  · exact hf (queuesWf_pol (h.queues b) p)
  · exact queuesWf_pol (h.queues b) q

theorem State.mapPols_held {f : PolId → Polder → Polder} (h : Held F A B s)
    (hf : ∀ p q, q.queuesWf = true → (f p q).queuesWf = true) : Held F A B (s.mapPols f) := by
  refine ⟨h.fuses, fun a => h.stores a, fun b => queuesWf_of_pol fun q => ?_⟩
  rw [State.pol_mapPols]
  exact hf q _ (queuesWf_pol (h.queues b) q)

/-- The bounds of one polder, spelled out. -/
theorem Polder.queuesWf_iff (q : Polder) : q.queuesWf = true ↔
    q.intake.length ≤ 4 ∧ q.queue.length ≤ 8 ∧ q.journal.length ≤ 16 ∧ dlvPlaces q.dlv ≤ 128 := by
  simp [Polder.queuesWf, and_assoc]

/-- A polder that keeps another's packets and records, with an empty journal, is within its bounds where that one was. -/
theorem Polder.emptied_queuesWf {q x : Polder} (h : q.queuesWf = true) (h1 : x.intake = q.intake) (h2 : x.queue = q.queue) (h3 : x.journal = [])
    (h4 : x.dlv = q.dlv) : x.queuesWf = true := by
  rw [Polder.queuesWf_iff] at h ⊢
  rw [h1, h2, h3, h4]
  exact ⟨h.1, h.2.1, Nat.zero_le _, h.2.2.2⟩

/-- New polders within their bounds. -/
theorem held_pols {v : Vector Polder 8} (h : Held F A B s) (hv : ∀ p : PolId, v[p].queuesWf = true) : Held F A B { s with pols := v } :=
  ⟨h.fuses, fun a => h.stores a, fun _ => queuesWf_of_pol hv⟩

/-- No polder is left. -/
theorem held_noPols (h : Held F A B s) : Held F A B { s with pols := Vector.replicate 8 Polder.none } :=
  held_pols h fun p => by simp only [Fin.getElem_fin, Vector.getElem_replicate]; rfl

/-- TCM bytes kept in rising order. -/
theorem held_tcm {j : Jtag} (h : Held F A B s) (hj : rising s.jtag.tcm = true → rising j.tcm = true) : Held F A B { s with jtag := j } := by
  refine ⟨h.fuses, fun x => ?_, fun b => h.queues b⟩
  have := h.stores x
  simp only [State.storesWf, Bool.and_eq_true] at this ⊢
  exact ⟨this.1, hj this.2⟩

/-- Records taken out of a delivery queue free their places. -/
theorem dlvPlaces_filter (f : DlvRec → Bool) (l : List DlvRec) : dlvPlaces (l.filter f) ≤ dlvPlaces l := by
  induction l with
  | nil => exact Nat.le_refl _
  | cons r l ih =>
    simp only [dlvPlaces] at ih ⊢
    by_cases h : f r = true
    · simp only [List.filter_cons, h, if_true, List.map_cons, List.sum_cons]; omega
    · simp only [List.filter_cons, h, if_false, List.map_cons, List.sum_cons, Bool.false_eq_true]; omega

/-- A fragment that leaves frees a place. -/
theorem dlvPlaces_sendFragment (mine : DlvRec → Bool) (l : List DlvRec) : dlvPlaces (sendFragment mine l) ≤ dlvPlaces l := by
  induction l with
  | nil => exact Nat.le_refl _
  | cons r l ih =>
    simp only [sendFragment]
    simp only [dlvPlaces] at ih ⊢
    split
    · split <;> (simp only [List.map_cons, List.sum_cons]; omega)
    · simp only [List.map_cons, List.sum_cons]; omega

/-- One more entry in a command queue that has room (R352). -/
theorem State.enqueue_held (p : PolId) (e : QEntry) (h : Held F A B s) (hq : (s.pol p).queue.length < 8) :
    Held F A B (s.modPol p (fun q => { q with queue := q.queue ++ [e] })) := by
  refine State.modPol_held h fun hb => ?_
  rw [Polder.queuesWf_iff] at hb ⊢
  exact ⟨hb.1, by simp only [List.length_append, List.length_cons, List.length_nil]; omega, hb.2.2.1, hb.2.2.2⟩

/-- One more packet in an intake that has room (R348). -/
theorem State.intake_held (p : PolId) (k : Packet) (h : Held F A B s) (hq : (s.pol p).intake.length < 4) :
    Held F A B (s.modPol p (fun q => { q with intake := q.intake ++ [k] })) := by
  refine State.modPol_held h fun hb => ?_
  rw [Polder.queuesWf_iff] at hb ⊢
  exact ⟨by simp only [List.length_append, List.length_cons, List.length_nil]; omega, hb.2.1, hb.2.2.1, hb.2.2.2⟩

end Sys2Proof.Machine
end

