-- ==== Sys2Proof/Laws/HeldOps.lean ====
section
/-! SUPPORT. What the operations of Machine/Ops.lean keep (Laws/Held.lean). -/

namespace Sys2Proof.Machine

variable {F : FuseBlock} {A B : Prop}

set_option linter.unusedTactic false
set_option linter.unreachableTactic false
set_option linter.unusedVariables false

theorem State.modPort_held (p : Port) (f : LinePort → LinePort) (s : State) (hH : Held F A B s) :
    Held F A B (State.modPort p f s) := by
  unfold State.modPort
  try dsimp only
  repeat (any_goals first
    | with_reducible assumption
    | (fail_if_no_progress with_reducible refine held_upd ?_ rfl rfl rfl rfl rfl rfl rfl rfl rfl rfl rfl)
    | split
    | dsimp only
    | intro _)

theorem State.countPort_held (p : Port) (i : Nat) (s : State) (hH : Held F A B s) :
    Held F A B (State.countPort p i s) := by
  unfold State.countPort
  try dsimp only
  repeat (any_goals first
    | with_reducible assumption
    | with_reducible apply State.modPort_held
    | (fail_if_no_progress with_reducible refine held_upd ?_ rfl rfl rfl rfl rfl rfl rfl rfl rfl rfl rfl)
    | split
    | dsimp only
    | intro _)

theorem State.silencePix_held (s : State) (hH : Held F A B s) :
    Held F A B (State.silencePix s) := by
  unfold State.silencePix
  try dsimp only
  repeat (any_goals first
    | with_reducible assumption
    | (fail_if_no_progress with_reducible refine held_upd ?_ rfl rfl rfl rfl rfl rfl rfl rfl rfl rfl rfl)
    | split
    | dsimp only
    | intro _)

theorem State.drawn_held (s : State) (hH : Held F A B s) :
    Held F A B (State.drawn s) := by
  unfold State.drawn
  try dsimp only
  repeat (any_goals first
    | with_reducible assumption
    | (fail_if_no_progress with_reducible refine held_upd ?_ rfl rfl rfl rfl rfl rfl rfl rfl rfl rfl rfl)
    | split
    | dsimp only
    | intro _)

theorem State.requestItem_held (p : PolId) (v : ItemValue) (s : State) (hH : Held F A B s) :
    Held F A B (State.requestItem p v s) := by
  unfold State.requestItem
  try dsimp only
  repeat (any_goals first
    | with_reducible assumption
    | (fail_if_no_progress with_reducible refine held_upd ?_ rfl rfl rfl rfl rfl rfl rfl rfl rfl rfl rfl)
    | split
    | dsimp only
    | intro _)

theorem State.enterLc_held (target : Lc) (s : State) (hH : Held F A B s) :
    Held F A B (State.enterLc target s) := by
  unfold State.enterLc
  try dsimp only
  repeat (any_goals first
    | with_reducible assumption
    | with_reducible apply State.silencePix_held
    | with_reducible apply held_ite
    | (fail_if_no_progress with_reducible refine held_upd ?_ rfl rfl rfl rfl rfl rfl rfl rfl rfl rfl rfl)
    | split
    | dsimp only
    | intro _)

theorem State.commitEffect_held (v : ItemValue) (s : State) (hH : Held F A B s) :
    Held F A B (State.commitEffect v s) := by
  unfold State.commitEffect
  try dsimp only
  repeat (any_goals first
    | with_reducible assumption
    | with_reducible apply State.enterLc_held
    | exact id
    | exact fun _ => rfl
    | exact fun hq => Polder.emptied_queuesWf hq rfl rfl rfl rfl
    | with_reducible refine State.modPol_held ?_ ?_
    | with_reducible apply held_ite
    | (fail_if_no_progress with_reducible refine held_upd ?_ rfl rfl rfl rfl rfl rfl rfl rfl rfl rfl rfl)
    | split
    | dsimp only
    | intro _)

theorem State.commitItem_held (v : ItemValue) (s : State) (h : Held F A B s) : Held F A B (State.commitItem v s) := by
  unfold State.commitItem
  refine State.commitEffect_held _ _ (held_same h rfl ⟨rfl, rfl, rfl, rfl⟩ ?_ rfl)
  cases v <;> exact ⟨rfl, rfl, rfl, rfl, rfl⟩


theorem State.reserveSeq_held (p : PolId) (s : State) (hH : Held F A B s) :
    Held F A B (State.reserveSeq p s) := by
  unfold State.reserveSeq
  try dsimp only
  repeat (any_goals first
    | with_reducible assumption
    | with_reducible apply State.requestItem_held
    | with_reducible apply held_ite
    | (fail_if_no_progress with_reducible refine held_upd ?_ rfl rfl rfl rfl rfl rfl rfl rfl rfl rfl rfl)
    | split
    | dsimp only
    | intro _)

theorem State.reserveFrames_held (s : State) (hH : Held F A B s) :
    Held F A B (State.reserveFrames s) := by
  unfold State.reserveFrames
  try dsimp only
  repeat (any_goals first
    | with_reducible assumption
    | with_reducible apply State.requestItem_held
    | with_reducible apply held_ite
    | (fail_if_no_progress with_reducible refine held_upd ?_ rfl rfl rfl rfl rfl rfl rfl rfl rfl rfl rfl)
    | split
    | dsimp only
    | intro _)

theorem State.addJob_held (p : PolId) (j : PageJob) (s : State) (hH : Held F A B s) :
    Held F A B (State.addJob p j s) := by
  unfold State.addJob
  try dsimp only
  repeat (any_goals first
    | with_reducible assumption
    | with_reducible apply held_ite
    | (fail_if_no_progress with_reducible refine held_upd ?_ rfl rfl rfl rfl rfl rfl rfl rfl rfl rfl rfl)
    | split
    | dsimp only
    | intro _)

theorem State.pushLog_held (tb : Tb) (frame : W32) (code : Nat) (payload : List Byte) (s : State) (hH : Held F A B s) :
    Held F A B (State.pushLog tb frame code payload s) := by
  unfold State.pushLog
  try dsimp only
  repeat (any_goals first
    | with_reducible assumption
    | with_reducible apply State.addJob_held
    | with_reducible apply held_ite
    | (fail_if_no_progress with_reducible refine held_upd ?_ rfl rfl rfl rfl rfl rfl rfl rfl rfl rfl rfl)
    | split
    | dsimp only
    | intro _)

theorem State.logEntry_held (tb : Tb) (frame : W32) (code : Nat) (payload : List Byte) (s : State) (hH : Held F A B s) :
    Held F A B (State.logEntry tb frame code payload s) := by
  unfold State.logEntry
  try dsimp only
  repeat (any_goals first
    | with_reducible assumption
    | intro _ _
    | with_reducible apply State.pushLog_held
    | with_reducible apply held_ite
    | (fail_if_no_progress with_reducible refine held_upd ?_ rfl rfl rfl rfl rfl rfl rfl rfl rfl rfl rfl)
    | split
    | dsimp only
    | intro _)

/-- Displacement takes no place, and where nothing is missing it has freed what was asked for (R370). -/
theorem displace_places (n : Nat) (l : List DlvRec) : dlvPlaces (displace n l).1 ≤ dlvPlaces l ∧
    ((displace n l).2.1 = 0 → dlvPlaces (displace n l).1 + n ≤ dlvPlaces l ∨ n = 0) := by
  induction l generalizing n with
  | nil => exact ⟨Nat.le_refl _, fun h => Or.inr h⟩
  | cons r rest ih =>
    by_cases hn : n = 0
    · subst hn; simp [displace]
    · by_cases hs : r.sent = 0
      · have := ih (n - r.frags)
        simp only [displace, hn, hs, if_true, if_false, dlvPlaces, List.map_cons, List.sum_cons] at this ⊢
        refine ⟨by omega, fun h => ?_⟩
        have h2 := this.2 h
        omega
      · have := ih n
        simp only [displace, hn, hs, if_false, or_false, dlvPlaces, List.map_cons, List.sum_cons] at this ⊢
        refine ⟨by omega, fun h => ?_⟩
        have h2 := this.2 h

        omega
/-- A delivery queue keeps within its 128 places as a record enters (R370). -/
theorem enterDelivery_places (r : DlvRec) (q : Polder) (h : dlvPlaces q.dlv ≤ 128) (hr : r.sent = 0) :
    dlvPlaces (enterDelivery r q).dlv ≤ 128 := by
  have d := displace_places (dlvPlaces q.dlv + r.frags - 128) q.dlv
  simp only [enterDelivery]
  split
  · rename_i h0
    have := d.2 h0
    simp only [dlvPlaces, List.map_append, List.map_cons, List.map_nil, List.sum_append, List.sum_cons, List.sum_nil, hr] at this d h ⊢
    omega
  · omega

theorem enterDelivery_queuesWf (r : DlvRec) (q : Polder) (h : q.queuesWf = true) (hr : r.sent = 0) :
    (enterDelivery r q).queuesWf = true := by
  rw [Polder.queuesWf_iff] at h ⊢
  exact ⟨h.1, h.2.1, h.2.2.1, enterDelivery_places r q h.2.2.2 hr⟩

theorem State.issueRecord_held (p : PolId) (rtype : Nat) (frame : W32) (body : List Byte) (s : State) (h : Held F A B s) :
    Held F A B (State.issueRecord p rtype frame body s) := by
  unfold State.issueRecord
  refine State.reserveSeq_held _ _ ?_
  refine State.modPol_held h ?_
  generalize hd : DlvRec.mk _ _ _ _ _ _ _ _ = r
  intro hq
  have := enterDelivery_queuesWf r _ hq (by subst hd; rfl)
  generalize enterDelivery r (s.pol p) = x at this ⊢
  exact this


theorem State.modTcmp_held (ch : Fin 16) (f : Tcmp → Tcmp) (s : State) (hH : Held F A B s) :
    Held F A B (State.modTcmp ch f s) := by
  unfold State.modTcmp
  try dsimp only
  repeat (any_goals first
    | with_reducible assumption
    | (fail_if_no_progress with_reducible refine held_upd ?_ rfl rfl rfl rfl rfl rfl rfl rfl rfl rfl rfl)
    | split
    | dsimp only
    | intro _)

theorem State.resolveEvent_held (e : EventRec) (s : State) (hH : Held F A B s) :
    Held F A B (State.resolveEvent e s).2 := by
  unfold State.resolveEvent
  try dsimp only
  repeat (any_goals first
    | with_reducible assumption
    | with_reducible apply State.modTcmp_held
    | with_reducible apply held_ite
    | (fail_if_no_progress with_reducible refine held_upd ?_ rfl rfl rfl rfl rfl rfl rfl rfl rfl rfl rfl)
    | split
    | dsimp only
    | intro _)

theorem State.issueEvent_held (p : PolId) (e : EventRec) (s : State) (h : Held F A B s) : Held F A B (State.issueEvent p e s) := by
  have hr : Held F A B (s.resolveEvent e).2 := State.resolveEvent_held e s h
  unfold State.issueEvent
  split <;> (rename_i heq; rw [heq] at hr)
  · dsimp only
    exact held_ite (State.logEntry_held _ _ _ _ _ (State.issueRecord_held _ _ _ _ _ hr)) (State.issueRecord_held _ _ _ _ _ hr)
  · exact hr


theorem State.issueEventsN_held (n : Nat) (p : PolId) (s : State) (h : Held F A B s) : Held F A B (State.issueEventsN n p s) := by
  induction n generalizing s with
  | zero => exact h
  | succ n ih =>
    unfold State.issueEventsN
    split
    · exact h
    · exact held_ite h (ih _ (State.issueEvent_held _ _ _ (State.modPol_held h id)))


theorem State.issueEvents_held (p : PolId) (s : State) (hH : Held F A B s) :
    Held F A B (State.issueEvents p s) := by
  unfold State.issueEvents
  try dsimp only
  repeat (any_goals first
    | with_reducible assumption
    | with_reducible apply State.issueEventsN_held
    | with_reducible apply held_ite
    | (fail_if_no_progress with_reducible refine held_upd ?_ rfl rfl rfl rfl rfl rfl rfl rfl rfl rfl rfl)
    | split
    | dsimp only
    | intro _)

theorem State.issueAll_held (s : State) (hH : Held F A B s) :
    Held F A B (State.issueAll s) := by
  unfold State.issueAll
  try dsimp only
  repeat (any_goals first
    | with_reducible assumption
    | intro _ _ _
    | intro _ _
    | with_reducible apply State.issueEvents_held
    | with_reducible apply foldl_held
    | (fail_if_no_progress with_reducible refine held_upd ?_ rfl rfl rfl rfl rfl rfl rfl rfl rfl rfl rfl)
    | split
    | dsimp only
    | intro _)

theorem State.eventAt_held (p : PolId) (code : Nat) (frame : W32) (tb : Tb) (payload : List Byte) (s : State) (hH : Held F A B s) :
    Held F A B (State.eventAt p code frame tb payload s) := by
  unfold State.eventAt
  try dsimp only
  repeat (any_goals first
    | with_reducible assumption
    | with_reducible apply State.issueEvents_held
    | exact id
    | exact fun _ => rfl
    | exact fun hq => Polder.emptied_queuesWf hq rfl rfl rfl rfl
    | with_reducible refine State.modPol_held ?_ ?_
    | with_reducible apply held_ite
    | (fail_if_no_progress with_reducible refine held_upd ?_ rfl rfl rfl rfl rfl rfl rfl rfl rfl rfl rfl)
    | split
    | dsimp only
    | intro _)

theorem State.event_held (p : PolId) (code : Nat) (payload : List Byte) (s : State) (hH : Held F A B s) :
    Held F A B (State.event p code payload s) := by
  unfold State.event
  try dsimp only
  repeat (any_goals first
    | with_reducible assumption
    | with_reducible apply State.eventAt_held
    | (fail_if_no_progress with_reducible refine held_upd ?_ rfl rfl rfl rfl rfl rfl rfl rfl rfl rfl rfl)
    | split
    | dsimp only
    | intro _)

theorem State.ownerEvent_held (code : Nat) (payload : List Byte) (s : State) (hH : Held F A B s) :
    Held F A B (State.ownerEvent code payload s) := by
  unfold State.ownerEvent
  try dsimp only
  repeat (any_goals first
    | with_reducible assumption
    | with_reducible apply State.event_held
    | (fail_if_no_progress with_reducible refine held_upd ?_ rfl rfl rfl rfl rfl rfl rfl rfl rfl rfl rfl)
    | split
    | dsimp only
    | intro _)

theorem State.patientEvent_held (code : Nat) (payload : List Byte) (s : State) (hH : Held F A B s) :
    Held F A B (State.patientEvent code payload s) := by
  unfold State.patientEvent
  try dsimp only
  repeat (any_goals first
    | with_reducible assumption
    | with_reducible apply State.ownerEvent_held
    | with_reducible apply held_ite
    | (fail_if_no_progress with_reducible refine held_upd ?_ rfl rfl rfl rfl rfl rfl rfl rfl rfl rfl rfl)
    | split
    | dsimp only
    | intro _)

theorem State.supplyEvent_held (code : Nat) (payload : List Byte) (s : State) (hH : Held F A B s) :
    Held F A B (State.supplyEvent code payload s) := by
  unfold State.supplyEvent
  try dsimp only
  repeat (any_goals first
    | with_reducible assumption
    | with_reducible apply State.ownerEvent_held
    | with_reducible apply State.patientEvent_held
    | with_reducible apply held_ite
    | (fail_if_no_progress with_reducible refine held_upd ?_ rfl rfl rfl rfl rfl rfl rfl rfl rfl rfl rfl)
    | split
    | dsimp only
    | intro _)

theorem State.flushEarly_held (s : State) (hH : Held F A B s) :
    Held F A B (State.flushEarly s) := by
  unfold State.flushEarly
  try dsimp only
  repeat (any_goals first
    | with_reducible assumption
    | intro _ _ _
    | intro _ _
    | with_reducible apply State.eventAt_held
    | with_reducible apply foldl_held
    | with_reducible apply held_ite
    | (fail_if_no_progress with_reducible refine held_upd ?_ rfl rfl rfl rfl rfl rfl rfl rfl rfl rfl rfl)
    | split
    | dsimp only
    | intro _)

theorem State.decidePortMode_held (s : State) (hH : Held F A B s) :
    Held F A B (State.decidePortMode s) := by
  unfold State.decidePortMode
  try dsimp only
  repeat (any_goals first
    | with_reducible assumption
    | with_reducible apply State.ownerEvent_held
    | with_reducible apply held_ite
    | (fail_if_no_progress with_reducible refine held_upd ?_ rfl rfl rfl rfl rfl rfl rfl rfl rfl rfl rfl)
    | split
    | dsimp only
    | intro _)

theorem State.eventAll_held (code : Nat) (payload : List Byte) (s : State) (h : Held F A B s) : Held F A B (State.eventAll code payload s) :=
  foldl_held _ _ h fun _ _ hs => held_ite (State.event_held _ _ _ _ hs) hs


theorem State.queueReply_held (p : PolId) (r : Reply) (s : State) (hH : Held F A B s) :
    Held F A B (State.queueReply p r s) := by
  unfold State.queueReply
  try dsimp only
  repeat (any_goals first
    | with_reducible assumption
    | exact id
    | exact fun _ => rfl
    | exact fun hq => Polder.emptied_queuesWf hq rfl rfl rfl rfl
    | with_reducible refine State.modPol_held ?_ ?_
    | (fail_if_no_progress with_reducible refine held_upd ?_ rfl rfl rfl rfl rfl rfl rfl rfl rfl rfl rfl)
    | split
    | dsimp only
    | intro _)

theorem State.deliver_held (p : PolId) (e : QEntry) (a : Answer) (s : State) (h : Held F A B s) : Held F A B (State.deliver p e a s) := by
  refine State.modPol_held h fun hq => ?_
  rw [Polder.queuesWf_iff] at hq ⊢
  exact ⟨hq.1, hq.2.1, by simp only [List.length_take]; omega, hq.2.2.2⟩


theorem State.drawBackoff_held (p : Port) (s : State) (hH : Held F A B s) :
    Held F A B (State.drawBackoff p s) := by
  unfold State.drawBackoff
  try dsimp only
  repeat (any_goals first
    | with_reducible assumption
    | with_reducible apply State.modPort_held
    | with_reducible apply State.drawn_held
    | (fail_if_no_progress with_reducible refine held_upd ?_ rfl rfl rfl rfl rfl rfl rfl rfl rfl rfl rfl)
    | split
    | dsimp only
    | intro _)

theorem State.contend_held (p : Port) (f : TxFrame) (s : State) (hH : Held F A B s) :
    Held F A B (State.contend p f s) := by
  unfold State.contend
  try dsimp only
  repeat (any_goals first
    | with_reducible assumption
    | with_reducible apply State.modPort_held
    | with_reducible apply State.drawBackoff_held
    | with_reducible apply held_ite
    | (fail_if_no_progress with_reducible refine held_upd ?_ rfl rfl rfl rfl rfl rfl rfl rfl rfl rfl rfl)
    | split
    | dsimp only
    | intro _)

theorem State.contendPacket_held (dst : BitVec 12) (k : OutPacket) (s : State) (hH : Held F A B s) :
    Held F A B (State.contendPacket dst k s) := by
  unfold State.contendPacket
  try dsimp only
  repeat (any_goals first
    | with_reducible assumption
    | with_reducible apply State.contend_held
    | (fail_if_no_progress with_reducible refine held_upd ?_ rfl rfl rfl rfl rfl rfl rfl rfl rfl rfl rfl)
    | split
    | dsimp only
    | intro _)

theorem State.untagged_held (p : PolId) (seq : W16) (st : Status) (next : W16) (path : Path) (s : State) (hH : Held F A B s) :
    Held F A B (State.untagged p seq st next path s) := by
  unfold State.untagged
  try dsimp only
  repeat (any_goals first
    | with_reducible assumption
    | with_reducible apply State.countPort_held
    | with_reducible apply State.contendPacket_held
    | with_reducible apply held_ite
    | (fail_if_no_progress with_reducible refine held_upd ?_ rfl rfl rfl rfl rfl rfl rfl rfl rfl rfl rfl)
    | split
    | dsimp only
    | intro _)

theorem State.trigger_held (p : PolId) (src : TrigSrc) (s : State) (hH : Held F A B s) :
    Held F A B (State.trigger p src s) := by
  unfold State.trigger
  try dsimp only
  repeat (any_goals first
    | with_reducible assumption
    | exact id
    | exact fun _ => rfl
    | exact fun hq => Polder.emptied_queuesWf hq rfl rfl rfl rfl
    | with_reducible refine State.modPol_held ?_ ?_
    | (fail_if_no_progress with_reducible refine held_upd ?_ rfl rfl rfl rfl rfl rfl rfl rfl rfl rfl rfl)
    | split
    | dsimp only
    | intro _)

theorem State.latchWake_held (i : Nat) (s : State) (hH : Held F A B s) :
    Held F A B (State.latchWake i s) := by
  unfold State.latchWake
  try dsimp only
  repeat (any_goals first
    | with_reducible assumption
    | with_reducible apply held_ite
    | (fail_if_no_progress with_reducible refine held_upd ?_ rfl rfl rfl rfl rfl rfl rfl rfl rfl rfl rfl)
    | split
    | dsimp only
    | intro _)

theorem State.wakeTrigger_held (woke : Bool) (p : PolId) (src : TrigSrc) (s : State) (hH : Held F A B s) :
    Held F A B (State.wakeTrigger woke p src s) := by
  unfold State.wakeTrigger
  try dsimp only
  repeat (any_goals first
    | with_reducible assumption
    | with_reducible apply State.trigger_held
    | with_reducible apply held_ite
    | (fail_if_no_progress with_reducible refine held_upd ?_ rfl rfl rfl rfl rfl rfl rfl rfl rfl rfl rfl)
    | split
    | dsimp only
    | intro _)

theorem State.replayTriggers_held (s : State) (hH : Held F A B s) :
    Held F A B (State.replayTriggers s) := by
  unfold State.replayTriggers
  try dsimp only
  repeat (any_goals first
    | with_reducible assumption
    | intro _ _ _
    | intro _ _
    | with_reducible apply State.trigger_held
    | with_reducible apply foldl_held
    | (fail_if_no_progress with_reducible refine held_upd ?_ rfl rfl rfl rfl rfl rfl rfl rfl rfl rfl rfl)
    | split
    | dsimp only
    | intro _)

theorem State.stamp_held (ch : Fin 16) (s : State) (hH : Held F A B s) :
    Held F A B (State.stamp ch s) := by
  unfold State.stamp
  try dsimp only
  repeat (any_goals first
    | with_reducible assumption
    | with_reducible apply State.modTcmp_held
    | with_reducible apply State.event_held
    | with_reducible apply held_ite
    | (fail_if_no_progress with_reducible refine held_upd ?_ rfl rfl rfl rfl rfl rfl rfl rfl rfl rfl rfl)
    | split
    | dsimp only
    | intro _)

theorem State.fireTcmp_held (ch : Fin 16) (s : State) (hH : Held F A B s) :
    Held F A B (State.fireTcmp ch s) := by
  unfold State.fireTcmp
  try dsimp only
  repeat (any_goals first
    | with_reducible assumption
    | with_reducible apply State.modTcmp_held
    | with_reducible apply State.latchWake_held
    | with_reducible apply State.wakeTrigger_held
    | with_reducible apply State.stamp_held
    | with_reducible apply held_ite
    | (fail_if_no_progress with_reducible refine held_upd ?_ rfl rfl rfl rfl rfl rfl rfl rfl rfl rfl rfl)
    | split
    | dsimp only
    | intro _)

theorem State.fireDue_held (s : State) (h : Held F A B s) : Held F A B (State.fireDue s) :=
  foldl_held _ _ h fun _ _ hs => held_ite (State.fireTcmp_held _ _ hs) hs


theorem doneOk_held (rs : List Byte) (s : State) (hH : Held F A B s) :
    Held F A B (doneOk rs s).after := by
  unfold doneOk
  try dsimp only
  repeat (any_goals first
    | with_reducible assumption
    | with_reducible apply after_done
    | with_reducible apply after_hold
    | with_reducible apply after_replyHold
    | with_reducible apply after_ite
    | (fail_if_no_progress with_reducible refine held_upd ?_ rfl rfl rfl rfl rfl rfl rfl rfl rfl rfl rfl)
    | split
    | dsimp only
    | intro _)

theorem doneAt_held (f : W32) (rs : List Byte) (s : State) (hH : Held F A B s) :
    Held F A B (doneAt f rs s).after := by
  unfold doneAt
  try dsimp only
  repeat (any_goals first
    | with_reducible assumption
    | with_reducible apply after_done
    | with_reducible apply after_hold
    | with_reducible apply after_replyHold
    | with_reducible apply after_ite
    | (fail_if_no_progress with_reducible refine held_upd ?_ rfl rfl rfl rfl rfl rfl rfl rfl rfl rfl rfl)
    | split
    | dsimp only
    | intro _)

theorem refuse_held (st : Status) (s : State) (hH : Held F A B s) :
    Held F A B (refuse st s).after := by
  unfold refuse
  try dsimp only
  repeat (any_goals first
    | with_reducible assumption
    | with_reducible apply after_done
    | with_reducible apply after_hold
    | with_reducible apply after_replyHold
    | with_reducible apply after_ite
    | (fail_if_no_progress with_reducible refine held_upd ?_ rfl rfl rfl rfl rfl rfl rfl rfl rfl rfl rfl)
    | split
    | dsimp only
    | intro _)

theorem State.assemblyCheck_held (s : State) (e : QEntry) (hH : Held F A B s) :
    Held F A B (State.assemblyCheck s e).2 := by
  unfold State.assemblyCheck
  try dsimp only
  repeat (any_goals first
    | with_reducible assumption
    | exact id
    | exact fun _ => rfl
    | exact fun hq => Polder.emptied_queuesWf hq rfl rfl rfl rfl
    | with_reducible refine State.modPol_held ?_ ?_
    | with_reducible apply held_ite
    | (fail_if_no_progress with_reducible refine held_upd ?_ rfl rfl rfl rfl rfl rfl rfl rfl rfl rfl rfl)
    | split
    | dsimp only
    | intro _)

theorem checked_held (sp : OpSpec) (own : QEntry → State → CmdOut) (e : QEntry) (s : State) (h : Held F A B s)
    (ho : ∀ e s, Held F A B s → Held F A B (own e s).after) : Held F A B (checked sp own e s).after := by
  have ha := State.assemblyCheck_held s e h
  unfold checked
  repeat (refine after_ite (refuse_held _ _ h) ?_)
  split <;> (rename_i heq; rw [heq] at ha)
  · exact refuse_held _ _ ha
  · exact ho _ _ ha


theorem writeThen_held (rule : HoldRule) (a : Answer) (s : State) (req : State → State) (h : Held F A B s)
    (hr : Held F A B s → Held F A B (req s)) : Held F A B (writeThen rule a s req).after := by
  unfold writeThen
  refine after_ite h ?_
  split
  · exact refuse_held _ _ h
  · exact hr h


theorem commitThen_held (item : Nat) (a : Answer) (s : State) (req : State → State) (h : Held F A B s)
    (hr : Held F A B s → Held F A B (req s)) : Held F A B (commitThen item a s req).after := writeThen_held _ a s req h hr


theorem goneAnswer_held (e : QEntry) (s : State) (hH : Held F A B s) :
    Held F A B (goneAnswer e s).after := by
  unfold goneAnswer
  try dsimp only
  repeat (any_goals first
    | with_reducible assumption
    | with_reducible apply refuse_held
    | exact id
    | exact fun _ => rfl
    | exact fun hq => Polder.emptied_queuesWf hq rfl rfl rfl rfl
    | with_reducible refine State.modPol_held ?_ ?_
    | with_reducible apply after_done
    | with_reducible apply after_hold
    | with_reducible apply after_replyHold
    | with_reducible apply after_ite
    | (fail_if_no_progress with_reducible refine held_upd ?_ rfl rfl rfl rfl rfl rfl rfl rfl rfl rfl rfl)
    | split
    | dsimp only
    | intro _)

theorem settle_held (e : QEntry) (o : CmdOut) (h : Held F A B o.after) : Held F A B (settle e o) := by
  cases o with
  | done a s => exact State.deliver_held _ _ _ _ h
  | hold r a s => simp only [settle]; change Held F A B s at h; exact State.modPol_held h id
  | replyHold r a s =>
    simp only [settle]; change Held F A B s at h
    have := State.deliver_held e.req.pol e a s h
    generalize State.deliver _ _ _ _ = x at this ⊢
    exact State.modPol_held this id


theorem serveWith_held (f : QEntry → State → CmdOut) (e : QEntry) (s : State) (h : Held F A B s)
    (hf : ∀ e s, Held F A B s → Held F A B (f e s).after) : Held F A B (serveWith f e s) := by
  unfold serveWith
  split
  · exact settle_held _ _ (goneAnswer_held _ _ h)
  · exact settle_held _ _ (hf _ _ h)


theorem State.admitCommand_held (e : QEntry) (s : State) (hH : Held F A B s) :
    Held F A B (State.admitCommand e s) := by
  unfold State.admitCommand
  try dsimp only
  repeat (any_goals first
    | with_reducible assumption
    | with_reducible apply State.requestItem_held
    | with_reducible apply State.reserveSeq_held
    | exact id
    | exact fun _ => rfl
    | exact fun hq => Polder.emptied_queuesWf hq rfl rfl rfl rfl
    | with_reducible refine State.modPol_held ?_ ?_
    | with_reducible apply held_ite
    | (fail_if_no_progress with_reducible refine held_upd ?_ rfl rfl rfl rfl rfl rfl rfl rfl rfl rfl rfl)
    | split
    | dsimp only
    | intro _)

theorem State.trafficWake_held (path : Path) (s : State) (hH : Held F A B s) :
    Held F A B (State.trafficWake path s) := by
  unfold State.trafficWake
  try dsimp only
  repeat (any_goals first
    | with_reducible assumption
    | with_reducible apply State.latchWake_held
    | with_reducible apply held_ite
    | (fail_if_no_progress with_reducible refine held_upd ?_ rfl rfl rfl rfl rfl rfl rfl rfl rfl rfl rfl)
    | split
    | dsimp only
    | intro _)

theorem State.bindMiss_held (s : State) (hH : Held F A B s) :
    Held F A B (State.bindMiss s) := by
  unfold State.bindMiss
  try dsimp only
  repeat (any_goals first
    | with_reducible assumption
    | (fail_if_no_progress with_reducible refine held_upd ?_ rfl rfl rfl rfl rfl rfl rfl rfl rfl rfl rfl)
    | split
    | dsimp only
    | intro _)

/-- Taking a command at NEXT_ADMIT leaves the polder's queues alone (R349). -/
theorem State.admitCommand_queue (e : QEntry) (s : State) (p : PolId) : ((s.admitCommand e).pol p).queue = (s.pol p).queue := by
  simp only [State.admitCommand, State.reserveSeq]
  repeat' split
  all_goals simp only [State.pol_requestItem, State.pol_modPol]
  all_goals split <;> simp_all

theorem State.queueClosed_room (s : State) (p : PolId) (h : ¬ s.queueClosed p = true) : (s.pol p).queue.length < 8 := by
  unfold State.queueClosed at h
  rw [Bool.or_eq_true, not_or, decide_eq_true_iff] at h
  have h1 := h.1
  unfold Polder.queued at h1
  omega

theorem runCommand_held (opcode : Byte) (f : QEntry → State → CmdOut) (r : Req) (params : List Byte) (s : State) (h : Held F A B s)
    (hf : ∀ e s, Held F A B s → Held F A B (f e s).after) : Held F A B (runCommand opcode f r params s) := by
  unfold runCommand
  dsimp only
  refine held_ite h (held_ite (State.bindMiss_held _ h) ?_)
  split
  · split
    · exact State.untagged_held _ _ _ _ _ _ h
    · exact State.countPort_held _ _ _ h
  · refine held_ite (State.untagged_held _ _ _ _ _ _ h) ?_
    split
    · exact State.untagged_held _ _ _ _ _ _ (State.modPol_held h id)
    · split
      · exact State.untagged_held _ _ _ _ _ _ (State.modPol_held h id)
      · rename_i hc
        have ha := fun e : QEntry => State.admitCommand_held e s h
        split
        · exact serveWith_held _ _ _ (ha _) hf
        · have h2 := fun e e' : QEntry => State.enqueue_held r.pol e' (ha e) (by rw [State.admitCommand_queue]; exact State.queueClosed_room s _ hc)
          exact State.trafficWake_held _ _ (h2 _ _)


theorem State.answerHeld_held (p : PolId) (a : Answer) (s : State) (hH : Held F A B s) :
    Held F A B (State.answerHeld p a s) := by
  unfold State.answerHeld
  try dsimp only
  repeat (any_goals first
    | with_reducible assumption
    | with_reducible apply State.deliver_held
    | exact id
    | exact fun _ => rfl
    | exact fun hq => Polder.emptied_queuesWf hq rfl rfl rfl rfl
    | with_reducible refine State.modPol_held ?_ ?_
    | with_reducible apply held_ite
    | (fail_if_no_progress with_reducible refine held_upd ?_ rfl rfl rfl rfl rfl rfl rfl rfl rfl rfl rfl)
    | split
    | dsimp only
    | intro _)

theorem State.readyHeld_held (p : PolId) (rule : HoldRule) (a : Answer) (s : State) (hH : Held F A B s) :
    Held F A B (State.readyHeld p rule a s) := by
  unfold State.readyHeld
  try dsimp only
  repeat (any_goals first
    | with_reducible assumption
    | exact id
    | exact fun _ => rfl
    | exact fun hq => Polder.emptied_queuesWf hq rfl rfl rfl rfl
    | with_reducible refine State.modPol_held ?_ ?_
    | with_reducible apply held_ite
    | (fail_if_no_progress with_reducible refine held_upd ?_ rfl rfl rfl rfl rfl rfl rfl rfl rfl rfl rfl)
    | split
    | dsimp only
    | intro _)

theorem State.releaseCommit_held (item : Nat) (p : PolId) (ok : Bool) (s : State) (h : Held F A B s) :
    Held F A B (State.releaseCommit item p ok s) := by
  refine foldl_held _ _ h fun s q hs => ?_
  split
  · exact held_ite (held_ite (State.answerHeld_held _ _ _ hs) (State.readyHeld_held _ _ _ _ hs)) hs
  · exact hs


theorem State.voidHeld_held (p : PolId) (s : State) (hH : Held F A B s) :
    Held F A B (State.voidHeld p s) := by
  unfold State.voidHeld
  try dsimp only
  repeat (any_goals first
    | with_reducible assumption
    | exact id
    | exact fun _ => rfl
    | exact fun hq => Polder.emptied_queuesWf hq rfl rfl rfl rfl
    | with_reducible refine State.modPol_held ?_ ?_
    | with_reducible apply held_ite
    | (fail_if_no_progress with_reducible refine held_upd ?_ rfl rfl rfl rfl rfl rfl rfl rfl rfl rfl rfl)
    | split
    | dsimp only
    | intro _)

theorem State.markCarried_held (n : Nat) (s : State) (hH : Held F A B s) :
    Held F A B (State.markCarried n s) := by
  unfold State.markCarried
  try dsimp only
  repeat (any_goals first
    | with_reducible assumption
    | with_reducible apply held_ite
    | (fail_if_no_progress with_reducible refine held_upd ?_ rfl rfl rfl rfl rfl rfl rfl rfl rfl rfl rfl)
    | split
    | dsimp only
    | intro _)

theorem State.dropCarry_held (why : CarryWhy) (s : State) (hH : Held F A B s) :
    Held F A B (State.dropCarry why s) := by
  unfold State.dropCarry
  try dsimp only
  repeat (any_goals first
    | with_reducible assumption
    | (fail_if_no_progress with_reducible refine held_upd ?_ rfl rfl rfl rfl rfl rfl rfl rfl rfl rfl rfl)
    | split
    | dsimp only
    | intro _)

theorem State.finishPage_held (s : State) (h : Held F A B s) : Held F A B s.finishPage := by
  unfold State.finishPage
  split
  · split
    · exact held_ite (held_arr h fun x => by rw [ArrayS.commit_storesWf]; exact x) h
    · exact h
  · exact held_arr h (ArrayS.openRegion_storesWf _ _)
  · exact held_ite (held_arr h (ArrayS.commitRegion_storesWf _ _ _)) h
  · exact held_arr h (ArrayS.programLog_storesWf _)
  · exact h


theorem State.zeroFabric_held (s : State) (hH : Held F A B s) :
    Held F A B (State.zeroFabric s) := by
  unfold State.zeroFabric
  try dsimp only
  repeat (any_goals first
    | with_reducible assumption
    | (fail_if_no_progress with_reducible refine held_upd ?_ rfl rfl rfl rfl rfl rfl rfl rfl rfl rfl rfl)
    | split
    | dsimp only
    | intro _)

theorem State.restart_held (cause : Nat) (s : State)  (h : Held F A B s) : Held F A B (State.restart cause s) := by
  obtain ⟨f, a, b⟩ := State.finishPage_held s h
  refine ⟨f, fun x => ?_, fun _ => queuesWf_of_pol fun p => ?_⟩
  · have := a x
    simp only [State.storesWf, Bool.and_eq_true] at this
    simp only [State.storesWf, Bool.and_eq_true]
    exact ⟨this.1, rfl⟩
  · have : (s.restart cause).pol p = Polder.none := by
      simp [State.restart, State.pol, State.reset]
    rw [this]; rfl


theorem State.sysResetDue_held (s : State) (hH : Held F A B s) :
    Held F A B (State.sysResetDue s) := by
  unfold State.sysResetDue
  try dsimp only
  repeat (any_goals first
    | with_reducible assumption
    | with_reducible apply State.dropCarry_held
    | with_reducible apply State.restart_held
    | with_reducible apply held_ite
    | (fail_if_no_progress with_reducible refine held_upd ?_ rfl rfl rfl rfl rfl rfl rfl rfl rfl rfl rfl)
    | split
    | dsimp only
    | intro _)

end Sys2Proof.Machine
end

