-- ==== Sys2Proof/Laws/HeldCmdCal.lean ====
section
/-! SUPPORT. What the operations of Machine/CmdCal.lean keep (Laws/Held.lean). -/

namespace Sys2Proof.Machine

variable {F : FuseBlock} {A B : Prop}

set_option linter.unusedTactic false
set_option linter.unreachableTactic false
set_option linter.unusedVariables false

theorem ownCalRun_held (e : QEntry) (s : State) (hH : Held F A B s) :
    Held F A B (ownCalRun e s).after := by
  unfold ownCalRun
  try dsimp only
  repeat (any_goals first
    | with_reducible assumption
    | with_reducible apply refuse_held
    | with_reducible apply held_ite
    | with_reducible apply after_done
    | with_reducible apply after_hold
    | with_reducible apply after_replyHold
    | with_reducible apply after_ite
    | (fail_if_no_progress with_reducible refine held_upd ?_ rfl rfl rfl rfl rfl rfl rfl rfl rfl rfl rfl)
    | split
    | dsimp only
    | intro _)

theorem cmdCalRun_held (e : QEntry) (s : State) (hH : Held F A B s) :
    Held F A B (cmdCalRun e s).after := by
  unfold cmdCalRun
  try dsimp only
  repeat (any_goals first
    | with_reducible assumption
    | with_reducible apply checked_held
    | with_reducible apply ownCalRun_held
    | with_reducible apply after_done
    | with_reducible apply after_hold
    | with_reducible apply after_replyHold
    | with_reducible apply after_ite
    | (fail_if_no_progress with_reducible refine held_upd ?_ rfl rfl rfl rfl rfl rfl rfl rfl rfl rfl rfl)
    | split
    | dsimp only
    | intro _)

theorem ownCalSchedule_held (e : QEntry) (s : State) (hH : Held F A B s) :
    Held F A B (ownCalSchedule e s).after := by
  unfold ownCalSchedule
  try dsimp only
  repeat (any_goals first
    | with_reducible assumption
    | intro _ _
    | with_reducible apply State.requestItem_held
    | with_reducible apply refuse_held
    | with_reducible apply commitThen_held
    | with_reducible apply held_ite
    | with_reducible apply after_done
    | with_reducible apply after_hold
    | with_reducible apply after_replyHold
    | with_reducible apply after_ite
    | (fail_if_no_progress with_reducible refine held_upd ?_ rfl rfl rfl rfl rfl rfl rfl rfl rfl rfl rfl)
    | split
    | dsimp only
    | intro _)

theorem cmdCalSchedule_held (e : QEntry) (s : State) (hH : Held F A B s) :
    Held F A B (cmdCalSchedule e s).after := by
  unfold cmdCalSchedule
  try dsimp only
  repeat (any_goals first
    | with_reducible assumption
    | with_reducible apply checked_held
    | with_reducible apply ownCalSchedule_held
    | with_reducible apply after_done
    | with_reducible apply after_hold
    | with_reducible apply after_replyHold
    | with_reducible apply after_ite
    | (fail_if_no_progress with_reducible refine held_upd ?_ rfl rfl rfl rfl rfl rfl rfl rfl rfl rfl rfl)
    | split
    | dsimp only
    | intro _)

theorem ownCalRead_held (e : QEntry) (s : State) (hH : Held F A B s) :
    Held F A B (ownCalRead e s).after := by
  unfold ownCalRead
  try dsimp only
  repeat (any_goals first
    | with_reducible assumption
    | with_reducible apply doneOk_held
    | with_reducible apply refuse_held
    | with_reducible apply after_done
    | with_reducible apply after_hold
    | with_reducible apply after_replyHold
    | with_reducible apply after_ite
    | (fail_if_no_progress with_reducible refine held_upd ?_ rfl rfl rfl rfl rfl rfl rfl rfl rfl rfl rfl)
    | split
    | dsimp only
    | intro _)

theorem cmdCalRead_held (e : QEntry) (s : State) (hH : Held F A B s) :
    Held F A B (cmdCalRead e s).after := by
  unfold cmdCalRead
  try dsimp only
  repeat (any_goals first
    | with_reducible assumption
    | with_reducible apply checked_held
    | with_reducible apply ownCalRead_held
    | with_reducible apply after_done
    | with_reducible apply after_hold
    | with_reducible apply after_replyHold
    | with_reducible apply after_ite
    | (fail_if_no_progress with_reducible refine held_upd ?_ rfl rfl rfl rfl rfl rfl rfl rfl rfl rfl rfl)
    | split
    | dsimp only
    | intro _)

theorem ownCalClear_held (x0 : QEntry) (s : State) (hH : Held F A B s) :
    Held F A B (ownCalClear x0 s).after := by
  unfold ownCalClear
  try dsimp only
  repeat (any_goals first
    | with_reducible assumption
    | with_reducible apply doneOk_held
    | with_reducible apply after_done
    | with_reducible apply after_hold
    | with_reducible apply after_replyHold
    | with_reducible apply after_ite
    | (fail_if_no_progress with_reducible refine held_upd ?_ rfl rfl rfl rfl rfl rfl rfl rfl rfl rfl rfl)
    | split
    | dsimp only
    | intro _)

theorem cmdCalClear_held (e : QEntry) (s : State) (hH : Held F A B s) :
    Held F A B (cmdCalClear e s).after := by
  unfold cmdCalClear
  try dsimp only
  repeat (any_goals first
    | with_reducible assumption
    | with_reducible apply checked_held
    | with_reducible apply ownCalClear_held
    | with_reducible apply after_done
    | with_reducible apply after_hold
    | with_reducible apply after_replyHold
    | with_reducible apply after_ite
    | (fail_if_no_progress with_reducible refine held_upd ?_ rfl rfl rfl rfl rfl rfl rfl rfl rfl rfl rfl)
    | split
    | dsimp only
    | intro _)

theorem ownColGet_held (e : QEntry) (s : State) (hH : Held F A B s) :
    Held F A B (ownColGet e s).after := by
  unfold ownColGet
  try dsimp only
  repeat (any_goals first
    | with_reducible assumption
    | with_reducible apply doneOk_held
    | with_reducible apply refuse_held
    | with_reducible apply held_ite
    | with_reducible apply after_done
    | with_reducible apply after_hold
    | with_reducible apply after_replyHold
    | with_reducible apply after_ite
    | (fail_if_no_progress with_reducible refine held_upd ?_ rfl rfl rfl rfl rfl rfl rfl rfl rfl rfl rfl)
    | split
    | dsimp only
    | intro _)

theorem cmdColGet_held (e : QEntry) (s : State) (hH : Held F A B s) :
    Held F A B (cmdColGet e s).after := by
  unfold cmdColGet
  try dsimp only
  repeat (any_goals first
    | with_reducible assumption
    | with_reducible apply checked_held
    | with_reducible apply ownColGet_held
    | with_reducible apply after_done
    | with_reducible apply after_hold
    | with_reducible apply after_replyHold
    | with_reducible apply after_ite
    | (fail_if_no_progress with_reducible refine held_upd ?_ rfl rfl rfl rfl rfl rfl rfl rfl rfl rfl rfl)
    | split
    | dsimp only
    | intro _)

theorem ownDefectGet_held (e : QEntry) (s : State) (hH : Held F A B s) :
    Held F A B (ownDefectGet e s).after := by
  unfold ownDefectGet
  try dsimp only
  repeat (any_goals first
    | with_reducible assumption
    | with_reducible apply doneOk_held
    | with_reducible apply refuse_held
    | with_reducible apply held_ite
    | with_reducible apply after_done
    | with_reducible apply after_hold
    | with_reducible apply after_replyHold
    | with_reducible apply after_ite
    | (fail_if_no_progress with_reducible refine held_upd ?_ rfl rfl rfl rfl rfl rfl rfl rfl rfl rfl rfl)
    | split
    | dsimp only
    | intro _)

theorem cmdDefectGet_held (e : QEntry) (s : State) (hH : Held F A B s) :
    Held F A B (cmdDefectGet e s).after := by
  unfold cmdDefectGet
  try dsimp only
  repeat (any_goals first
    | with_reducible assumption
    | with_reducible apply checked_held
    | with_reducible apply ownDefectGet_held
    | with_reducible apply after_done
    | with_reducible apply after_hold
    | with_reducible apply after_replyHold
    | with_reducible apply after_ite
    | (fail_if_no_progress with_reducible refine held_upd ?_ rfl rfl rfl rfl rfl rfl rfl rfl rfl rfl rfl)
    | split
    | dsimp only
    | intro _)

theorem ownTrimGet_held (e : QEntry) (s : State) (hH : Held F A B s) :
    Held F A B (ownTrimGet e s).after := by
  unfold ownTrimGet
  try dsimp only
  repeat (any_goals first
    | with_reducible assumption
    | with_reducible apply doneOk_held
    | with_reducible apply refuse_held
    | with_reducible apply held_ite
    | with_reducible apply after_done
    | with_reducible apply after_hold
    | with_reducible apply after_replyHold
    | with_reducible apply after_ite
    | (fail_if_no_progress with_reducible refine held_upd ?_ rfl rfl rfl rfl rfl rfl rfl rfl rfl rfl rfl)
    | split
    | dsimp only
    | intro _)

theorem cmdTrimGet_held (e : QEntry) (s : State) (hH : Held F A B s) :
    Held F A B (cmdTrimGet e s).after := by
  unfold cmdTrimGet
  try dsimp only
  repeat (any_goals first
    | with_reducible assumption
    | with_reducible apply checked_held
    | with_reducible apply ownTrimGet_held
    | with_reducible apply after_done
    | with_reducible apply after_hold
    | with_reducible apply after_replyHold
    | with_reducible apply after_ite
    | (fail_if_no_progress with_reducible refine held_upd ?_ rfl rfl rfl rfl rfl rfl rfl rfl rfl rfl rfl)
    | split
    | dsimp only
    | intro _)

theorem execCalRun_held (r : Req) (params : List Byte) (s : State) (hH : Held F A B s) :
    HeldOut F A B (execCalRun r params s) := by
  unfold execCalRun
  try dsimp only
  repeat (any_goals first
    | with_reducible assumption
    | with_reducible apply runCommand_held
    | with_reducible apply cmdCalRun_held
    | with_reducible apply heldOut_next
    | with_reducible apply heldOut_fault
    | with_reducible apply heldOut_ite
    | (fail_if_no_progress with_reducible refine held_upd ?_ rfl rfl rfl rfl rfl rfl rfl rfl rfl rfl rfl)
    | split
    | dsimp only
    | intro _)

theorem execCalSchedule_held (r : Req) (params : List Byte) (s : State) (hH : Held F A B s) :
    HeldOut F A B (execCalSchedule r params s) := by
  unfold execCalSchedule
  try dsimp only
  repeat (any_goals first
    | with_reducible assumption
    | with_reducible apply runCommand_held
    | with_reducible apply cmdCalSchedule_held
    | with_reducible apply heldOut_next
    | with_reducible apply heldOut_fault
    | with_reducible apply heldOut_ite
    | (fail_if_no_progress with_reducible refine held_upd ?_ rfl rfl rfl rfl rfl rfl rfl rfl rfl rfl rfl)
    | split
    | dsimp only
    | intro _)

theorem execCalRead_held (r : Req) (params : List Byte) (s : State) (hH : Held F A B s) :
    HeldOut F A B (execCalRead r params s) := by
  unfold execCalRead
  try dsimp only
  repeat (any_goals first
    | with_reducible assumption
    | with_reducible apply runCommand_held
    | with_reducible apply cmdCalRead_held
    | with_reducible apply heldOut_next
    | with_reducible apply heldOut_fault
    | with_reducible apply heldOut_ite
    | (fail_if_no_progress with_reducible refine held_upd ?_ rfl rfl rfl rfl rfl rfl rfl rfl rfl rfl rfl)
    | split
    | dsimp only
    | intro _)

theorem execCalClear_held (r : Req) (params : List Byte) (s : State) (hH : Held F A B s) :
    HeldOut F A B (execCalClear r params s) := by
  unfold execCalClear
  try dsimp only
  repeat (any_goals first
    | with_reducible assumption
    | with_reducible apply runCommand_held
    | with_reducible apply cmdCalClear_held
    | with_reducible apply heldOut_next
    | with_reducible apply heldOut_fault
    | with_reducible apply heldOut_ite
    | (fail_if_no_progress with_reducible refine held_upd ?_ rfl rfl rfl rfl rfl rfl rfl rfl rfl rfl rfl)
    | split
    | dsimp only
    | intro _)

theorem execColGet_held (r : Req) (params : List Byte) (s : State) (hH : Held F A B s) :
    HeldOut F A B (execColGet r params s) := by
  unfold execColGet
  try dsimp only
  repeat (any_goals first
    | with_reducible assumption
    | with_reducible apply runCommand_held
    | with_reducible apply cmdColGet_held
    | with_reducible apply heldOut_next
    | with_reducible apply heldOut_fault
    | with_reducible apply heldOut_ite
    | (fail_if_no_progress with_reducible refine held_upd ?_ rfl rfl rfl rfl rfl rfl rfl rfl rfl rfl rfl)
    | split
    | dsimp only
    | intro _)

theorem execDefectGet_held (r : Req) (params : List Byte) (s : State) (hH : Held F A B s) :
    HeldOut F A B (execDefectGet r params s) := by
  unfold execDefectGet
  try dsimp only
  repeat (any_goals first
    | with_reducible assumption
    | with_reducible apply runCommand_held
    | with_reducible apply cmdDefectGet_held
    | with_reducible apply heldOut_next
    | with_reducible apply heldOut_fault
    | with_reducible apply heldOut_ite
    | (fail_if_no_progress with_reducible refine held_upd ?_ rfl rfl rfl rfl rfl rfl rfl rfl rfl rfl rfl)
    | split
    | dsimp only
    | intro _)

theorem execTrimGet_held (r : Req) (params : List Byte) (s : State) (hH : Held F A B s) :
    HeldOut F A B (execTrimGet r params s) := by
  unfold execTrimGet
  try dsimp only
  repeat (any_goals first
    | with_reducible assumption
    | with_reducible apply runCommand_held
    | with_reducible apply cmdTrimGet_held
    | with_reducible apply heldOut_next
    | with_reducible apply heldOut_fault
    | with_reducible apply heldOut_ite
    | (fail_if_no_progress with_reducible refine held_upd ?_ rfl rfl rfl rfl rfl rfl rfl rfl rfl rfl rfl)
    | split
    | dsimp only
    | intro _)

end Sys2Proof.Machine
end

