-- ==== Sys2Proof/Laws/HeldCmdExposure.lean ====
section
/-! SUPPORT. What the operations of Machine/CmdExposure.lean keep (Laws/Held.lean). -/

namespace Sys2Proof.Machine

variable {F : FuseBlock} {A B : Prop}

set_option linter.unusedTactic false
set_option linter.unreachableTactic false
set_option linter.unusedVariables false

theorem ownExpoSet_held (q : QEntry) (s : State) (hH : Held F A B s) :
    Held F A B (ownExpoSet q s).after := by
  unfold ownExpoSet
  try dsimp only
  repeat (any_goals first
    | with_reducible assumption
    | with_reducible apply doneAt_held
    | with_reducible apply refuse_held
    | exact id
    | exact fun _ => rfl
    | exact fun hq => Polder.emptied_queuesWf hq rfl rfl rfl rfl
    | with_reducible refine State.modPol_held ?_ ?_
    | with_reducible apply held_ite
    | with_reducible apply after_done
    | with_reducible apply after_hold
    | with_reducible apply after_replyHold
    | with_reducible apply after_ite
    | (fail_if_no_progress with_reducible refine held_upd ?_ rfl rfl rfl rfl rfl rfl rfl rfl rfl rfl rfl)
    | split
    | dsimp only
    | intro _)

theorem cmdExpoSet_held (e : QEntry) (s : State) (hH : Held F A B s) :
    Held F A B (cmdExpoSet e s).after := by
  unfold cmdExpoSet
  try dsimp only
  repeat (any_goals first
    | with_reducible assumption
    | with_reducible apply checked_held
    | with_reducible apply ownExpoSet_held
    | with_reducible apply after_done
    | with_reducible apply after_hold
    | with_reducible apply after_replyHold
    | with_reducible apply after_ite
    | (fail_if_no_progress with_reducible refine held_upd ?_ rfl rfl rfl rfl rfl rfl rfl rfl rfl rfl rfl)
    | split
    | dsimp only
    | intro _)

theorem ownExpoGet_held (q : QEntry) (s : State) (hH : Held F A B s) :
    Held F A B (ownExpoGet q s).after := by
  unfold ownExpoGet
  try dsimp only
  repeat (any_goals first
    | with_reducible assumption
    | with_reducible apply doneOk_held
    | with_reducible apply held_ite
    | with_reducible apply after_done
    | with_reducible apply after_hold
    | with_reducible apply after_replyHold
    | with_reducible apply after_ite
    | (fail_if_no_progress with_reducible refine held_upd ?_ rfl rfl rfl rfl rfl rfl rfl rfl rfl rfl rfl)
    | split
    | dsimp only
    | intro _)

theorem cmdExpoGet_held (e : QEntry) (s : State) (hH : Held F A B s) :
    Held F A B (cmdExpoGet e s).after := by
  unfold cmdExpoGet
  try dsimp only
  repeat (any_goals first
    | with_reducible assumption
    | with_reducible apply checked_held
    | with_reducible apply ownExpoGet_held
    | with_reducible apply after_done
    | with_reducible apply after_hold
    | with_reducible apply after_replyHold
    | with_reducible apply after_ite
    | (fail_if_no_progress with_reducible refine held_upd ?_ rfl rfl rfl rfl rfl rfl rfl rfl rfl rfl rfl)
    | split
    | dsimp only
    | intro _)

theorem ownTrigFire_held (q : QEntry) (s : State) (hH : Held F A B s) :
    Held F A B (ownTrigFire q s).after := by
  unfold ownTrigFire
  try dsimp only
  repeat (any_goals first
    | with_reducible assumption
    | with_reducible apply State.trigger_held
    | with_reducible apply doneOk_held
    | with_reducible apply doneAt_held
    | with_reducible apply after_done
    | with_reducible apply after_hold
    | with_reducible apply after_replyHold
    | with_reducible apply after_ite
    | (fail_if_no_progress with_reducible refine held_upd ?_ rfl rfl rfl rfl rfl rfl rfl rfl rfl rfl rfl)
    | split
    | dsimp only
    | intro _)

theorem cmdTrigFire_held (e : QEntry) (s : State) (hH : Held F A B s) :
    Held F A B (cmdTrigFire e s).after := by
  unfold cmdTrigFire
  try dsimp only
  repeat (any_goals first
    | with_reducible assumption
    | with_reducible apply checked_held
    | with_reducible apply ownTrigFire_held
    | with_reducible apply after_done
    | with_reducible apply after_hold
    | with_reducible apply after_replyHold
    | with_reducible apply after_ite
    | (fail_if_no_progress with_reducible refine held_upd ?_ rfl rfl rfl rfl rfl rfl rfl rfl rfl rfl rfl)
    | split
    | dsimp only
    | intro _)

theorem ownTrigRead_held (q : QEntry) (s : State) (hH : Held F A B s) :
    Held F A B (ownTrigRead q s).after := by
  unfold ownTrigRead
  try dsimp only
  repeat (any_goals first
    | with_reducible assumption
    | with_reducible apply doneOk_held
    | exact id
    | exact fun _ => rfl
    | exact fun hq => Polder.emptied_queuesWf hq rfl rfl rfl rfl
    | with_reducible refine State.modPol_held ?_ ?_
    | with_reducible apply held_ite
    | with_reducible apply after_done
    | with_reducible apply after_hold
    | with_reducible apply after_replyHold
    | with_reducible apply after_ite
    | (fail_if_no_progress with_reducible refine held_upd ?_ rfl rfl rfl rfl rfl rfl rfl rfl rfl rfl rfl)
    | split
    | dsimp only
    | intro _)

theorem cmdTrigRead_held (e : QEntry) (s : State) (hH : Held F A B s) :
    Held F A B (cmdTrigRead e s).after := by
  unfold cmdTrigRead
  try dsimp only
  repeat (any_goals first
    | with_reducible assumption
    | with_reducible apply checked_held
    | with_reducible apply ownTrigRead_held
    | with_reducible apply after_done
    | with_reducible apply after_hold
    | with_reducible apply after_replyHold
    | with_reducible apply after_ite
    | (fail_if_no_progress with_reducible refine held_upd ?_ rfl rfl rfl rfl rfl rfl rfl rfl rfl rfl rfl)
    | split
    | dsimp only
    | intro _)

theorem ownSyncGet_held (x0 : QEntry) (s : State) (hH : Held F A B s) :
    Held F A B (ownSyncGet x0 s).after := by
  unfold ownSyncGet
  try dsimp only
  repeat (any_goals first
    | with_reducible assumption
    | with_reducible apply doneOk_held
    | with_reducible apply held_ite
    | with_reducible apply after_done
    | with_reducible apply after_hold
    | with_reducible apply after_replyHold
    | with_reducible apply after_ite
    | (fail_if_no_progress with_reducible refine held_upd ?_ rfl rfl rfl rfl rfl rfl rfl rfl rfl rfl rfl)
    | split
    | dsimp only
    | intro _)

theorem cmdSyncGet_held (e : QEntry) (s : State) (hH : Held F A B s) :
    Held F A B (cmdSyncGet e s).after := by
  unfold cmdSyncGet
  try dsimp only
  repeat (any_goals first
    | with_reducible assumption
    | with_reducible apply checked_held
    | with_reducible apply ownSyncGet_held
    | with_reducible apply after_done
    | with_reducible apply after_hold
    | with_reducible apply after_replyHold
    | with_reducible apply after_ite
    | (fail_if_no_progress with_reducible refine held_upd ?_ rfl rfl rfl rfl rfl rfl rfl rfl rfl rfl rfl)
    | split
    | dsimp only
    | intro _)

theorem ownPeriodSet_held (q : QEntry) (s : State) (hH : Held F A B s) :
    Held F A B (ownPeriodSet q s).after := by
  unfold ownPeriodSet
  try dsimp only
  repeat (any_goals first
    | with_reducible assumption
    | intro _ _
    | with_reducible apply State.requestItem_held
    | with_reducible apply refuse_held
    | with_reducible apply commitThen_held
    | with_reducible apply held_ite
    | with_reducible apply after_done
    | with_reducible apply after_hold
    | with_reducible apply after_replyHold
    | with_reducible apply after_ite
    | (fail_if_no_progress with_reducible refine held_upd ?_ rfl rfl rfl rfl rfl rfl rfl rfl rfl rfl rfl)
    | split
    | dsimp only
    | intro _)

theorem cmdPeriodSet_held (e : QEntry) (s : State) (hH : Held F A B s) :
    Held F A B (cmdPeriodSet e s).after := by
  unfold cmdPeriodSet
  try dsimp only
  repeat (any_goals first
    | with_reducible assumption
    | with_reducible apply checked_held
    | with_reducible apply ownPeriodSet_held
    | with_reducible apply after_done
    | with_reducible apply after_hold
    | with_reducible apply after_replyHold
    | with_reducible apply after_ite
    | (fail_if_no_progress with_reducible refine held_upd ?_ rfl rfl rfl rfl rfl rfl rfl rfl rfl rfl rfl)
    | split
    | dsimp only
    | intro _)

theorem ownWheelGet_held (q : QEntry) (s : State) (hH : Held F A B s) :
    Held F A B (ownWheelGet q s).after := by
  unfold ownWheelGet
  try dsimp only
  repeat (any_goals first
    | with_reducible assumption
    | with_reducible apply doneOk_held
    | with_reducible apply held_ite
    | with_reducible apply after_done
    | with_reducible apply after_hold
    | with_reducible apply after_replyHold
    | with_reducible apply after_ite
    | (fail_if_no_progress with_reducible refine held_upd ?_ rfl rfl rfl rfl rfl rfl rfl rfl rfl rfl rfl)
    | split
    | dsimp only
    | intro _)

theorem cmdWheelGet_held (e : QEntry) (s : State) (hH : Held F A B s) :
    Held F A B (cmdWheelGet e s).after := by
  unfold cmdWheelGet
  try dsimp only
  repeat (any_goals first
    | with_reducible assumption
    | with_reducible apply checked_held
    | with_reducible apply ownWheelGet_held
    | with_reducible apply after_done
    | with_reducible apply after_hold
    | with_reducible apply after_replyHold
    | with_reducible apply after_ite
    | (fail_if_no_progress with_reducible refine held_upd ?_ rfl rfl rfl rfl rfl rfl rfl rfl rfl rfl rfl)
    | split
    | dsimp only
    | intro _)

theorem execExpoSet_held (r : Req) (params : List Byte) (s : State) (hH : Held F A B s) :
    HeldOut F A B (execExpoSet r params s) := by
  unfold execExpoSet
  try dsimp only
  repeat (any_goals first
    | with_reducible assumption
    | with_reducible apply runCommand_held
    | with_reducible apply cmdExpoSet_held
    | with_reducible apply heldOut_next
    | with_reducible apply heldOut_fault
    | with_reducible apply heldOut_ite
    | (fail_if_no_progress with_reducible refine held_upd ?_ rfl rfl rfl rfl rfl rfl rfl rfl rfl rfl rfl)
    | split
    | dsimp only
    | intro _)

theorem execExpoGet_held (r : Req) (params : List Byte) (s : State) (hH : Held F A B s) :
    HeldOut F A B (execExpoGet r params s) := by
  unfold execExpoGet
  try dsimp only
  repeat (any_goals first
    | with_reducible assumption
    | with_reducible apply runCommand_held
    | with_reducible apply cmdExpoGet_held
    | with_reducible apply heldOut_next
    | with_reducible apply heldOut_fault
    | with_reducible apply heldOut_ite
    | (fail_if_no_progress with_reducible refine held_upd ?_ rfl rfl rfl rfl rfl rfl rfl rfl rfl rfl rfl)
    | split
    | dsimp only
    | intro _)

theorem execTrigFire_held (r : Req) (params : List Byte) (s : State) (hH : Held F A B s) :
    HeldOut F A B (execTrigFire r params s) := by
  unfold execTrigFire
  try dsimp only
  repeat (any_goals first
    | with_reducible assumption
    | with_reducible apply runCommand_held
    | with_reducible apply cmdTrigFire_held
    | with_reducible apply heldOut_next
    | with_reducible apply heldOut_fault
    | with_reducible apply heldOut_ite
    | (fail_if_no_progress with_reducible refine held_upd ?_ rfl rfl rfl rfl rfl rfl rfl rfl rfl rfl rfl)
    | split
    | dsimp only
    | intro _)

theorem execTrigRead_held (r : Req) (params : List Byte) (s : State) (hH : Held F A B s) :
    HeldOut F A B (execTrigRead r params s) := by
  unfold execTrigRead
  try dsimp only
  repeat (any_goals first
    | with_reducible assumption
    | with_reducible apply runCommand_held
    | with_reducible apply cmdTrigRead_held
    | with_reducible apply heldOut_next
    | with_reducible apply heldOut_fault
    | with_reducible apply heldOut_ite
    | (fail_if_no_progress with_reducible refine held_upd ?_ rfl rfl rfl rfl rfl rfl rfl rfl rfl rfl rfl)
    | split
    | dsimp only
    | intro _)

theorem execSyncGet_held (r : Req) (params : List Byte) (s : State) (hH : Held F A B s) :
    HeldOut F A B (execSyncGet r params s) := by
  unfold execSyncGet
  try dsimp only
  repeat (any_goals first
    | with_reducible assumption
    | with_reducible apply runCommand_held
    | with_reducible apply cmdSyncGet_held
    | with_reducible apply heldOut_next
    | with_reducible apply heldOut_fault
    | with_reducible apply heldOut_ite
    | (fail_if_no_progress with_reducible refine held_upd ?_ rfl rfl rfl rfl rfl rfl rfl rfl rfl rfl rfl)
    | split
    | dsimp only
    | intro _)

theorem execPeriodSet_held (r : Req) (params : List Byte) (s : State) (hH : Held F A B s) :
    HeldOut F A B (execPeriodSet r params s) := by
  unfold execPeriodSet
  try dsimp only
  repeat (any_goals first
    | with_reducible assumption
    | with_reducible apply runCommand_held
    | with_reducible apply cmdPeriodSet_held
    | with_reducible apply heldOut_next
    | with_reducible apply heldOut_fault
    | with_reducible apply heldOut_ite
    | (fail_if_no_progress with_reducible refine held_upd ?_ rfl rfl rfl rfl rfl rfl rfl rfl rfl rfl rfl)
    | split
    | dsimp only
    | intro _)

theorem execWheelGet_held (r : Req) (params : List Byte) (s : State) (hH : Held F A B s) :
    HeldOut F A B (execWheelGet r params s) := by
  unfold execWheelGet
  try dsimp only
  repeat (any_goals first
    | with_reducible assumption
    | with_reducible apply runCommand_held
    | with_reducible apply cmdWheelGet_held
    | with_reducible apply heldOut_next
    | with_reducible apply heldOut_fault
    | with_reducible apply heldOut_ite
    | (fail_if_no_progress with_reducible refine held_upd ?_ rfl rfl rfl rfl rfl rfl rfl rfl rfl rfl rfl)
    | split
    | dsimp only
    | intro _)

end Sys2Proof.Machine
end

