-- ==== Sys2Proof/Laws/HeldCmdHost.lean ====
section
/-! SUPPORT. What the operations of Machine/CmdHost.lean keep (Laws/Held.lean). -/

namespace Sys2Proof.Machine

variable {F : FuseBlock} {A B : Prop}

set_option linter.unusedTactic false
set_option linter.unreachableTactic false
set_option linter.unusedVariables false

theorem ownThermGet_held (e : QEntry) (s : State) (hH : Held F A B s) :
    Held F A B (ownThermGet e s).after := by
  unfold ownThermGet
  try dsimp only
  repeat (any_goals first
    | with_reducible assumption
    | with_reducible apply doneOk_held
    | with_reducible apply refuse_held
    | with_reducible apply after_done
    | with_reducible apply after_hold
    | with_reducible apply after_replyHold
    | with_reducible apply after_ite
    | (fail_if_no_progress with_reducible refine held_upd ?_ rfl rfl rfl rfl rfl rfl rfl rfl rfl rfl rfl)
    | split
    | dsimp only
    | intro _)

theorem cmdThermGet_held (e : QEntry) (s : State) (hH : Held F A B s) :
    Held F A B (cmdThermGet e s).after := by
  unfold cmdThermGet
  try dsimp only
  repeat (any_goals first
    | with_reducible assumption
    | with_reducible apply checked_held
    | with_reducible apply ownThermGet_held
    | with_reducible apply after_done
    | with_reducible apply after_hold
    | with_reducible apply after_replyHold
    | with_reducible apply after_ite
    | (fail_if_no_progress with_reducible refine held_upd ?_ rfl rfl rfl rfl rfl rfl rfl rfl rfl rfl rfl)
    | split
    | dsimp only
    | intro _)

theorem ownPixPort_held (e : QEntry) (s : State) (hH : Held F A B s) :
    Held F A B (ownPixPort e s).after := by
  unfold ownPixPort
  try dsimp only
  repeat (any_goals first
    | with_reducible assumption
    | with_reducible apply doneAt_held
    | with_reducible apply refuse_held
    | with_reducible apply held_ite
    | with_reducible apply after_done
    | with_reducible apply after_hold
    | with_reducible apply after_replyHold
    | with_reducible apply after_ite
    | (fail_if_no_progress with_reducible refine held_upd ?_ rfl rfl rfl rfl rfl rfl rfl rfl rfl rfl rfl)
    | split
    | dsimp only
    | intro _)

theorem cmdPixPort_held (e : QEntry) (s : State) (hH : Held F A B s) :
    Held F A B (cmdPixPort e s).after := by
  unfold cmdPixPort
  try dsimp only
  repeat (any_goals first
    | with_reducible assumption
    | with_reducible apply checked_held
    | with_reducible apply ownPixPort_held
    | with_reducible apply after_done
    | with_reducible apply after_hold
    | with_reducible apply after_replyHold
    | with_reducible apply after_ite
    | (fail_if_no_progress with_reducible refine held_upd ?_ rfl rfl rfl rfl rfl rfl rfl rfl rfl rfl rfl)
    | split
    | dsimp only
    | intro _)

theorem ownDaliCfg_held (e : QEntry) (s : State) (hH : Held F A B s) :
    Held F A B (ownDaliCfg e s).after := by
  unfold ownDaliCfg
  try dsimp only
  repeat (any_goals first
    | with_reducible assumption
    | intro _ _
    | with_reducible apply State.requestItem_held
    | with_reducible apply refuse_held
    | with_reducible apply commitThen_held
    | with_reducible apply held_ite
    | with_reducible apply after_done
    | with_reducible apply after_hold
    | with_reducible apply after_replyHold
    | with_reducible apply after_ite
    | (fail_if_no_progress with_reducible refine held_upd ?_ rfl rfl rfl rfl rfl rfl rfl rfl rfl rfl rfl)
    | split
    | dsimp only
    | intro _)

theorem cmdDaliCfg_held (e : QEntry) (s : State) (hH : Held F A B s) :
    Held F A B (cmdDaliCfg e s).after := by
  unfold cmdDaliCfg
  try dsimp only
  repeat (any_goals first
    | with_reducible assumption
    | with_reducible apply checked_held
    | with_reducible apply ownDaliCfg_held
    | with_reducible apply after_done
    | with_reducible apply after_hold
    | with_reducible apply after_replyHold
    | with_reducible apply after_ite
    | (fail_if_no_progress with_reducible refine held_upd ?_ rfl rfl rfl rfl rfl rfl rfl rfl rfl rfl rfl)
    | split
    | dsimp only
    | intro _)

theorem ownDaliGet_held (x0 : QEntry) (s : State) (hH : Held F A B s) :
    Held F A B (ownDaliGet x0 s).after := by
  unfold ownDaliGet
  try dsimp only
  repeat (any_goals first
    | with_reducible assumption
    | with_reducible apply doneOk_held
    | with_reducible apply after_done
    | with_reducible apply after_hold
    | with_reducible apply after_replyHold
    | with_reducible apply after_ite
    | (fail_if_no_progress with_reducible refine held_upd ?_ rfl rfl rfl rfl rfl rfl rfl rfl rfl rfl rfl)
    | split
    | dsimp only
    | intro _)

theorem cmdDaliGet_held (e : QEntry) (s : State) (hH : Held F A B s) :
    Held F A B (cmdDaliGet e s).after := by
  unfold cmdDaliGet
  try dsimp only
  repeat (any_goals first
    | with_reducible assumption
    | with_reducible apply checked_held
    | with_reducible apply ownDaliGet_held
    | with_reducible apply after_done
    | with_reducible apply after_hold
    | with_reducible apply after_replyHold
    | with_reducible apply after_ite
    | (fail_if_no_progress with_reducible refine held_upd ?_ rfl rfl rfl rfl rfl rfl rfl rfl rfl rfl rfl)
    | split
    | dsimp only
    | intro _)

theorem execThermGet_held (r : Req) (params : List Byte) (s : State) (hH : Held F A B s) :
    HeldOut F A B (execThermGet r params s) := by
  unfold execThermGet
  try dsimp only
  repeat (any_goals first
    | with_reducible assumption
    | with_reducible apply runCommand_held
    | with_reducible apply cmdThermGet_held
    | with_reducible apply heldOut_next
    | with_reducible apply heldOut_fault
    | with_reducible apply heldOut_ite
    | (fail_if_no_progress with_reducible refine held_upd ?_ rfl rfl rfl rfl rfl rfl rfl rfl rfl rfl rfl)
    | split
    | dsimp only
    | intro _)

theorem execPixPort_held (r : Req) (params : List Byte) (s : State) (hH : Held F A B s) :
    HeldOut F A B (execPixPort r params s) := by
  unfold execPixPort
  try dsimp only
  repeat (any_goals first
    | with_reducible assumption
    | with_reducible apply runCommand_held
    | with_reducible apply cmdPixPort_held
    | with_reducible apply heldOut_next
    | with_reducible apply heldOut_fault
    | with_reducible apply heldOut_ite
    | (fail_if_no_progress with_reducible refine held_upd ?_ rfl rfl rfl rfl rfl rfl rfl rfl rfl rfl rfl)
    | split
    | dsimp only
    | intro _)

theorem execDaliCfg_held (r : Req) (params : List Byte) (s : State) (hH : Held F A B s) :
    HeldOut F A B (execDaliCfg r params s) := by
  unfold execDaliCfg
  try dsimp only
  repeat (any_goals first
    | with_reducible assumption
    | with_reducible apply runCommand_held
    | with_reducible apply cmdDaliCfg_held
    | with_reducible apply heldOut_next
    | with_reducible apply heldOut_fault
    | with_reducible apply heldOut_ite
    | (fail_if_no_progress with_reducible refine held_upd ?_ rfl rfl rfl rfl rfl rfl rfl rfl rfl rfl rfl)
    | split
    | dsimp only
    | intro _)

theorem execDaliGet_held (r : Req) (params : List Byte) (s : State) (hH : Held F A B s) :
    HeldOut F A B (execDaliGet r params s) := by
  unfold execDaliGet
  try dsimp only
  repeat (any_goals first
    | with_reducible assumption
    | with_reducible apply runCommand_held
    | with_reducible apply cmdDaliGet_held
    | with_reducible apply heldOut_next
    | with_reducible apply heldOut_fault
    | with_reducible apply heldOut_ite
    | (fail_if_no_progress with_reducible refine held_upd ?_ rfl rfl rfl rfl rfl rfl rfl rfl rfl rfl rfl)
    | split
    | dsimp only
    | intro _)

end Sys2Proof.Machine
end

