-- ==== Sys2Proof/Laws/HeldCmdPower.lean ====
section
/-! SUPPORT. What the operations of Machine/CmdPower.lean keep (Laws/Held.lean). -/

namespace Sys2Proof.Machine

variable {F : FuseBlock} {A B : Prop}

set_option linter.unusedTactic false
set_option linter.unreachableTactic false
set_option linter.unusedVariables false

theorem State.beginEntry_held (e : Entry) (s : State) (hH : Held F A B s) :
    Held F A B (State.beginEntry e s) := by
  unfold State.beginEntry
  try dsimp only
  repeat (any_goals first
    | with_reducible assumption
    | (fail_if_no_progress with_reducible refine held_upd ?_ rfl rfl rfl rfl rfl rfl rfl rfl rfl rfl rfl)
    | split
    | dsimp only
    | intro _)

theorem ownPwrSet_held (e : QEntry) (s : State) (hH : Held F A B s) :
    Held F A B (ownPwrSet e s).after := by
  unfold ownPwrSet
  try dsimp only
  repeat (any_goals first
    | with_reducible assumption
    | with_reducible apply refuse_held
    | with_reducible apply State.beginEntry_held
    | with_reducible apply held_ite
    | with_reducible apply after_done
    | with_reducible apply after_hold
    | with_reducible apply after_replyHold
    | with_reducible apply after_ite
    | (fail_if_no_progress with_reducible refine held_upd ?_ rfl rfl rfl rfl rfl rfl rfl rfl rfl rfl rfl)
    | split
    | dsimp only
    | intro _)

theorem cmdPwrSet_held (e : QEntry) (s : State) (hH : Held F A B s) :
    Held F A B (cmdPwrSet e s).after := by
  unfold cmdPwrSet
  try dsimp only
  repeat (any_goals first
    | with_reducible assumption
    | with_reducible apply checked_held
    | with_reducible apply ownPwrSet_held
    | with_reducible apply after_done
    | with_reducible apply after_hold
    | with_reducible apply after_replyHold
    | with_reducible apply after_ite
    | (fail_if_no_progress with_reducible refine held_upd ?_ rfl rfl rfl rfl rfl rfl rfl rfl rfl rfl rfl)
    | split
    | dsimp only
    | intro _)

theorem ownPstateSet_held (e : QEntry) (s : State) (hH : Held F A B s) :
    Held F A B (ownPstateSet e s).after := by
  unfold ownPstateSet
  try dsimp only
  repeat (any_goals first
    | with_reducible assumption
    | with_reducible apply doneOk_held
    | with_reducible apply refuse_held
    | with_reducible apply held_ite
    | with_reducible apply after_done
    | with_reducible apply after_hold
    | with_reducible apply after_replyHold
    | with_reducible apply after_ite
    | (fail_if_no_progress with_reducible refine held_upd ?_ rfl rfl rfl rfl rfl rfl rfl rfl rfl rfl rfl)
    | split
    | dsimp only
    | intro _)

theorem cmdPstateSet_held (e : QEntry) (s : State) (hH : Held F A B s) :
    Held F A B (cmdPstateSet e s).after := by
  unfold cmdPstateSet
  try dsimp only
  repeat (any_goals first
    | with_reducible assumption
    | with_reducible apply checked_held
    | with_reducible apply ownPstateSet_held
    | with_reducible apply after_done
    | with_reducible apply after_hold
    | with_reducible apply after_replyHold
    | with_reducible apply after_ite
    | (fail_if_no_progress with_reducible refine held_upd ?_ rfl rfl rfl rfl rfl rfl rfl rfl rfl rfl rfl)
    | split
    | dsimp only
    | intro _)

theorem ownPwrGet_held (x0 : QEntry) (s : State) (hH : Held F A B s) :
    Held F A B (ownPwrGet x0 s).after := by
  unfold ownPwrGet
  try dsimp only
  repeat (any_goals first
    | with_reducible assumption
    | with_reducible apply doneOk_held
    | with_reducible apply after_done
    | with_reducible apply after_hold
    | with_reducible apply after_replyHold
    | with_reducible apply after_ite
    | (fail_if_no_progress with_reducible refine held_upd ?_ rfl rfl rfl rfl rfl rfl rfl rfl rfl rfl rfl)
    | split
    | dsimp only
    | intro _)

theorem cmdPwrGet_held (e : QEntry) (s : State) (hH : Held F A B s) :
    Held F A B (cmdPwrGet e s).after := by
  unfold cmdPwrGet
  try dsimp only
  repeat (any_goals first
    | with_reducible assumption
    | with_reducible apply checked_held
    | with_reducible apply ownPwrGet_held
    | with_reducible apply after_done
    | with_reducible apply after_hold
    | with_reducible apply after_replyHold
    | with_reducible apply after_ite
    | (fail_if_no_progress with_reducible refine held_upd ?_ rfl rfl rfl rfl rfl rfl rfl rfl rfl rfl rfl)
    | split
    | dsimp only
    | intro _)

theorem ownRefusalRead_held (e : QEntry) (s : State) (hH : Held F A B s) :
    Held F A B (ownRefusalRead e s).after := by
  unfold ownRefusalRead
  try dsimp only
  repeat (any_goals first
    | with_reducible assumption
    | with_reducible apply doneOk_held
    | with_reducible apply refuse_held
    | with_reducible apply after_done
    | with_reducible apply after_hold
    | with_reducible apply after_replyHold
    | with_reducible apply after_ite
    | (fail_if_no_progress with_reducible refine held_upd ?_ rfl rfl rfl rfl rfl rfl rfl rfl rfl rfl rfl)
    | split
    | dsimp only
    | intro _)

theorem cmdRefusalRead_held (e : QEntry) (s : State) (hH : Held F A B s) :
    Held F A B (cmdRefusalRead e s).after := by
  unfold cmdRefusalRead
  try dsimp only
  repeat (any_goals first
    | with_reducible assumption
    | with_reducible apply checked_held
    | with_reducible apply ownRefusalRead_held
    | with_reducible apply after_done
    | with_reducible apply after_hold
    | with_reducible apply after_replyHold
    | with_reducible apply after_ite
    | (fail_if_no_progress with_reducible refine held_upd ?_ rfl rfl rfl rfl rfl rfl rfl rfl rfl rfl rfl)
    | split
    | dsimp only
    | intro _)

theorem ownRefusalClear_held (x0 : QEntry) (s : State) (hH : Held F A B s) :
    Held F A B (ownRefusalClear x0 s).after := by
  unfold ownRefusalClear
  try dsimp only
  repeat (any_goals first
    | with_reducible assumption
    | with_reducible apply doneOk_held
    | with_reducible apply after_done
    | with_reducible apply after_hold
    | with_reducible apply after_replyHold
    | with_reducible apply after_ite
    | (fail_if_no_progress with_reducible refine held_upd ?_ rfl rfl rfl rfl rfl rfl rfl rfl rfl rfl rfl)
    | split
    | dsimp only
    | intro _)

theorem cmdRefusalClear_held (e : QEntry) (s : State) (hH : Held F A B s) :
    Held F A B (cmdRefusalClear e s).after := by
  unfold cmdRefusalClear
  try dsimp only
  repeat (any_goals first
    | with_reducible assumption
    | with_reducible apply checked_held
    | with_reducible apply ownRefusalClear_held
    | with_reducible apply after_done
    | with_reducible apply after_hold
    | with_reducible apply after_replyHold
    | with_reducible apply after_ite
    | (fail_if_no_progress with_reducible refine held_upd ?_ rfl rfl rfl rfl rfl rfl rfl rfl rfl rfl rfl)
    | split
    | dsimp only
    | intro _)

theorem execPwrSet_held (r : Req) (params : List Byte) (s : State) (hH : Held F A B s) :
    HeldOut F A B (execPwrSet r params s) := by
  unfold execPwrSet
  try dsimp only
  repeat (any_goals first
    | with_reducible assumption
    | with_reducible apply runCommand_held
    | with_reducible apply cmdPwrSet_held
    | with_reducible apply heldOut_next
    | with_reducible apply heldOut_fault
    | with_reducible apply heldOut_ite
    | (fail_if_no_progress with_reducible refine held_upd ?_ rfl rfl rfl rfl rfl rfl rfl rfl rfl rfl rfl)
    | split
    | dsimp only
    | intro _)

theorem execPstateSet_held (r : Req) (params : List Byte) (s : State) (hH : Held F A B s) :
    HeldOut F A B (execPstateSet r params s) := by
  unfold execPstateSet
  try dsimp only
  repeat (any_goals first
    | with_reducible assumption
    | with_reducible apply runCommand_held
    | with_reducible apply cmdPstateSet_held
    | with_reducible apply heldOut_next
    | with_reducible apply heldOut_fault
    | with_reducible apply heldOut_ite
    | (fail_if_no_progress with_reducible refine held_upd ?_ rfl rfl rfl rfl rfl rfl rfl rfl rfl rfl rfl)
    | split
    | dsimp only
    | intro _)

theorem execPwrGet_held (r : Req) (params : List Byte) (s : State) (hH : Held F A B s) :
    HeldOut F A B (execPwrGet r params s) := by
  unfold execPwrGet
  try dsimp only
  repeat (any_goals first
    | with_reducible assumption
    | with_reducible apply runCommand_held
    | with_reducible apply cmdPwrGet_held
    | with_reducible apply heldOut_next
    | with_reducible apply heldOut_fault
    | with_reducible apply heldOut_ite
    | (fail_if_no_progress with_reducible refine held_upd ?_ rfl rfl rfl rfl rfl rfl rfl rfl rfl rfl rfl)
    | split
    | dsimp only
    | intro _)

theorem execRefusalRead_held (r : Req) (params : List Byte) (s : State) (hH : Held F A B s) :
    HeldOut F A B (execRefusalRead r params s) := by
  unfold execRefusalRead
  try dsimp only
  repeat (any_goals first
    | with_reducible assumption
    | with_reducible apply runCommand_held
    | with_reducible apply cmdRefusalRead_held
    | with_reducible apply heldOut_next
    | with_reducible apply heldOut_fault
    | with_reducible apply heldOut_ite
    | (fail_if_no_progress with_reducible refine held_upd ?_ rfl rfl rfl rfl rfl rfl rfl rfl rfl rfl rfl)
    | split
    | dsimp only
    | intro _)

theorem execRefusalClear_held (r : Req) (params : List Byte) (s : State) (hH : Held F A B s) :
    HeldOut F A B (execRefusalClear r params s) := by
  unfold execRefusalClear
  try dsimp only
  repeat (any_goals first
    | with_reducible assumption
    | with_reducible apply runCommand_held
    | with_reducible apply cmdRefusalClear_held
    | with_reducible apply heldOut_next
    | with_reducible apply heldOut_fault
    | with_reducible apply heldOut_ite
    | (fail_if_no_progress with_reducible refine held_upd ?_ rfl rfl rfl rfl rfl rfl rfl rfl rfl rfl rfl)
    | split
    | dsimp only
    | intro _)

end Sys2Proof.Machine
end

