-- ==== Sys2Proof/Laws/HeldCmdFabric.lean ====
section
/-! SUPPORT. What the operations of Machine/CmdFabric.lean keep (Laws/Held.lean). -/

namespace Sys2Proof.Machine

variable {F : FuseBlock} {A B : Prop}

set_option linter.unusedTactic false
set_option linter.unreachableTactic false
set_option linter.unusedVariables false

theorem ownFabRead_held (e : QEntry) (s : State) (hH : Held F A B s) :
    Held F A B (ownFabRead e s).after := by
  unfold ownFabRead
  try dsimp only
  repeat (any_goals first
    | with_reducible assumption
    | with_reducible apply State.drawn_held
    | with_reducible apply doneOk_held
    | with_reducible apply refuse_held
    | with_reducible apply after_done
    | with_reducible apply after_hold
    | with_reducible apply after_replyHold
    | with_reducible apply after_ite
    | (fail_if_no_progress with_reducible refine held_upd ?_ rfl rfl rfl rfl rfl rfl rfl rfl rfl rfl rfl)
    | split
    | dsimp only
    | intro _)

theorem cmdFabRead_held (e : QEntry) (s : State) (hH : Held F A B s) :
    Held F A B (cmdFabRead e s).after := by
  unfold cmdFabRead
  try dsimp only
  repeat (any_goals first
    | with_reducible assumption
    | with_reducible apply checked_held
    | with_reducible apply ownFabRead_held
    | with_reducible apply after_done
    | with_reducible apply after_hold
    | with_reducible apply after_replyHold
    | with_reducible apply after_ite
    | (fail_if_no_progress with_reducible refine held_upd ?_ rfl rfl rfl rfl rfl rfl rfl rfl rfl rfl rfl)
    | split
    | dsimp only
    | intro _)

theorem State.requestFabric_held (f : FabricItem → FabricItem) (s : State) (hH : Held F A B s) :
    Held F A B (State.requestFabric f s) := by
  unfold State.requestFabric
  try dsimp only
  repeat (any_goals first
    | with_reducible assumption
    | with_reducible apply State.requestItem_held
    | (fail_if_no_progress with_reducible refine held_upd ?_ rfl rfl rfl rfl rfl rfl rfl rfl rfl rfl rfl)
    | split
    | dsimp only
    | intro _)

theorem ownFabAddrSet_held (e : QEntry) (s : State) (hH : Held F A B s) :
    Held F A B (ownFabAddrSet e s).after := by
  unfold ownFabAddrSet
  try dsimp only
  repeat (any_goals first
    | with_reducible assumption
    | intro _ _
    | with_reducible apply refuse_held
    | with_reducible apply commitThen_held
    | with_reducible apply State.requestFabric_held
    | with_reducible apply held_ite
    | with_reducible apply after_done
    | with_reducible apply after_hold
    | with_reducible apply after_replyHold
    | with_reducible apply after_ite
    | (fail_if_no_progress with_reducible refine held_upd ?_ rfl rfl rfl rfl rfl rfl rfl rfl rfl rfl rfl)
    | split
    | dsimp only
    | intro _)

theorem cmdFabAddrSet_held (e : QEntry) (s : State) (hH : Held F A B s) :
    Held F A B (cmdFabAddrSet e s).after := by
  unfold cmdFabAddrSet
  try dsimp only
  repeat (any_goals first
    | with_reducible assumption
    | with_reducible apply checked_held
    | with_reducible apply ownFabAddrSet_held
    | with_reducible apply after_done
    | with_reducible apply after_hold
    | with_reducible apply after_replyHold
    | with_reducible apply after_ite
    | (fail_if_no_progress with_reducible refine held_upd ?_ rfl rfl rfl rfl rfl rfl rfl rfl rfl rfl rfl)
    | split
    | dsimp only
    | intro _)

theorem ownFabKeySet_held (e : QEntry) (s : State) (hH : Held F A B s) :
    Held F A B (ownFabKeySet e s).after := by
  unfold ownFabKeySet
  try dsimp only
  repeat (any_goals first
    | with_reducible assumption
    | intro _ _
    | with_reducible apply refuse_held
    | with_reducible apply commitThen_held
    | with_reducible apply State.requestFabric_held
    | with_reducible apply held_ite
    | with_reducible apply after_done
    | with_reducible apply after_hold
    | with_reducible apply after_replyHold
    | with_reducible apply after_ite
    | (fail_if_no_progress with_reducible refine held_upd ?_ rfl rfl rfl rfl rfl rfl rfl rfl rfl rfl rfl)
    | split
    | dsimp only
    | intro _)

theorem cmdFabKeySet_held (e : QEntry) (s : State) (hH : Held F A B s) :
    Held F A B (cmdFabKeySet e s).after := by
  unfold cmdFabKeySet
  try dsimp only
  repeat (any_goals first
    | with_reducible assumption
    | with_reducible apply checked_held
    | with_reducible apply ownFabKeySet_held
    | with_reducible apply after_done
    | with_reducible apply after_hold
    | with_reducible apply after_replyHold
    | with_reducible apply after_ite
    | (fail_if_no_progress with_reducible refine held_upd ?_ rfl rfl rfl rfl rfl rfl rfl rfl rfl rfl rfl)
    | split
    | dsimp only
    | intro _)

theorem ownFabRankSet_held (e : QEntry) (s : State) (hH : Held F A B s) :
    Held F A B (ownFabRankSet e s).after := by
  unfold ownFabRankSet
  try dsimp only
  repeat (any_goals first
    | with_reducible assumption
    | intro _ _
    | with_reducible apply commitThen_held
    | with_reducible apply State.requestFabric_held
    | with_reducible apply after_done
    | with_reducible apply after_hold
    | with_reducible apply after_replyHold
    | with_reducible apply after_ite
    | (fail_if_no_progress with_reducible refine held_upd ?_ rfl rfl rfl rfl rfl rfl rfl rfl rfl rfl rfl)
    | split
    | dsimp only
    | intro _)

theorem cmdFabRankSet_held (e : QEntry) (s : State) (hH : Held F A B s) :
    Held F A B (cmdFabRankSet e s).after := by
  unfold cmdFabRankSet
  try dsimp only
  repeat (any_goals first
    | with_reducible assumption
    | with_reducible apply checked_held
    | with_reducible apply ownFabRankSet_held
    | with_reducible apply after_done
    | with_reducible apply after_hold
    | with_reducible apply after_replyHold
    | with_reducible apply after_ite
    | (fail_if_no_progress with_reducible refine held_upd ?_ rfl rfl rfl rfl rfl rfl rfl rfl rfl rfl rfl)
    | split
    | dsimp only
    | intro _)

theorem State.sendService_held (dst : BitVec 12) (filter : Nat) (byte1 : Nat) (value : BitVec 48) (s : State) (hH : Held F A B s) :
    Held F A B (State.sendService dst filter byte1 value s) := by
  unfold State.sendService
  try dsimp only
  repeat (any_goals first
    | with_reducible assumption
    | with_reducible apply State.modPort_held
    | with_reducible apply State.contend_held
    | with_reducible apply held_ite
    | (fail_if_no_progress with_reducible refine held_upd ?_ rfl rfl rfl rfl rfl rfl rfl rfl rfl rfl rfl)
    | split
    | dsimp only
    | intro _)

theorem ownRoleSwap_held (e : QEntry) (s : State) (hH : Held F A B s) :
    Held F A B (ownRoleSwap e s).after := by
  unfold ownRoleSwap
  try dsimp only
  repeat (any_goals first
    | with_reducible assumption
    | with_reducible apply refuse_held
    | with_reducible apply State.sendService_held
    | with_reducible apply held_ite
    | with_reducible apply after_done
    | with_reducible apply after_hold
    | with_reducible apply after_replyHold
    | with_reducible apply after_ite
    | (fail_if_no_progress with_reducible refine held_upd ?_ rfl rfl rfl rfl rfl rfl rfl rfl rfl rfl rfl)
    | split
    | dsimp only
    | intro _)

theorem cmdRoleSwap_held (e : QEntry) (s : State) (hH : Held F A B s) :
    Held F A B (cmdRoleSwap e s).after := by
  unfold cmdRoleSwap
  try dsimp only
  repeat (any_goals first
    | with_reducible assumption
    | with_reducible apply checked_held
    | with_reducible apply ownRoleSwap_held
    | with_reducible apply after_done
    | with_reducible apply after_hold
    | with_reducible apply after_replyHold
    | with_reducible apply after_ite
    | (fail_if_no_progress with_reducible refine held_upd ?_ rfl rfl rfl rfl rfl rfl rfl rfl rfl rfl rfl)
    | split
    | dsimp only
    | intro _)

theorem ownFabRoutes_held (e : QEntry) (s : State) (hH : Held F A B s) :
    Held F A B (ownFabRoutes e s).after := by
  unfold ownFabRoutes
  try dsimp only
  repeat (any_goals first
    | with_reducible assumption
    | with_reducible apply doneOk_held
    | with_reducible apply refuse_held
    | with_reducible apply held_ite
    | with_reducible apply after_done
    | with_reducible apply after_hold
    | with_reducible apply after_replyHold
    | with_reducible apply after_ite
    | (fail_if_no_progress with_reducible refine held_upd ?_ rfl rfl rfl rfl rfl rfl rfl rfl rfl rfl rfl)
    | split
    | dsimp only
    | intro _)

theorem cmdFabRoutes_held (e : QEntry) (s : State) (hH : Held F A B s) :
    Held F A B (cmdFabRoutes e s).after := by
  unfold cmdFabRoutes
  try dsimp only
  repeat (any_goals first
    | with_reducible assumption
    | with_reducible apply checked_held
    | with_reducible apply ownFabRoutes_held
    | with_reducible apply after_done
    | with_reducible apply after_hold
    | with_reducible apply after_replyHold
    | with_reducible apply after_ite
    | (fail_if_no_progress with_reducible refine held_upd ?_ rfl rfl rfl rfl rfl rfl rfl rfl rfl rfl rfl)
    | split
    | dsimp only
    | intro _)

theorem ownFabPeriodSrc_held (e : QEntry) (s : State) (hH : Held F A B s) :
    Held F A B (ownFabPeriodSrc e s).after := by
  unfold ownFabPeriodSrc
  try dsimp only
  repeat (any_goals first
    | with_reducible assumption
    | intro _ _
    | with_reducible apply refuse_held
    | with_reducible apply commitThen_held
    | with_reducible apply State.requestFabric_held
    | with_reducible apply held_ite
    | with_reducible apply after_done
    | with_reducible apply after_hold
    | with_reducible apply after_replyHold
    | with_reducible apply after_ite
    | (fail_if_no_progress with_reducible refine held_upd ?_ rfl rfl rfl rfl rfl rfl rfl rfl rfl rfl rfl)
    | split
    | dsimp only
    | intro _)

theorem cmdFabPeriodSrc_held (e : QEntry) (s : State) (hH : Held F A B s) :
    Held F A B (cmdFabPeriodSrc e s).after := by
  unfold cmdFabPeriodSrc
  try dsimp only
  repeat (any_goals first
    | with_reducible assumption
    | with_reducible apply checked_held
    | with_reducible apply ownFabPeriodSrc_held
    | with_reducible apply after_done
    | with_reducible apply after_hold
    | with_reducible apply after_replyHold
    | with_reducible apply after_ite
    | (fail_if_no_progress with_reducible refine held_upd ?_ rfl rfl rfl rfl rfl rfl rfl rfl rfl rfl rfl)
    | split
    | dsimp only
    | intro _)

theorem ownFabPeriodSet_held (e : QEntry) (s : State) (hH : Held F A B s) :
    Held F A B (ownFabPeriodSet e s).after := by
  unfold ownFabPeriodSet
  try dsimp only
  repeat (any_goals first
    | with_reducible assumption
    | intro _ _
    | with_reducible apply refuse_held
    | with_reducible apply commitThen_held
    | with_reducible apply State.requestFabric_held
    | with_reducible apply held_ite
    | with_reducible apply after_done
    | with_reducible apply after_hold
    | with_reducible apply after_replyHold
    | with_reducible apply after_ite
    | (fail_if_no_progress with_reducible refine held_upd ?_ rfl rfl rfl rfl rfl rfl rfl rfl rfl rfl rfl)
    | split
    | dsimp only
    | intro _)

theorem cmdFabPeriodSet_held (e : QEntry) (s : State) (hH : Held F A B s) :
    Held F A B (cmdFabPeriodSet e s).after := by
  unfold cmdFabPeriodSet
  try dsimp only
  repeat (any_goals first
    | with_reducible assumption
    | with_reducible apply checked_held
    | with_reducible apply ownFabPeriodSet_held
    | with_reducible apply after_done
    | with_reducible apply after_hold
    | with_reducible apply after_replyHold
    | with_reducible apply after_ite
    | (fail_if_no_progress with_reducible refine held_upd ?_ rfl rfl rfl rfl rfl rfl rfl rfl rfl rfl rfl)
    | split
    | dsimp only
    | intro _)

theorem execFabRead_held (r : Req) (params : List Byte) (s : State) (hH : Held F A B s) :
    HeldOut F A B (execFabRead r params s) := by
  unfold execFabRead
  try dsimp only
  repeat (any_goals first
    | with_reducible assumption
    | with_reducible apply runCommand_held
    | with_reducible apply cmdFabRead_held
    | with_reducible apply heldOut_next
    | with_reducible apply heldOut_fault
    | with_reducible apply heldOut_ite
    | (fail_if_no_progress with_reducible refine held_upd ?_ rfl rfl rfl rfl rfl rfl rfl rfl rfl rfl rfl)
    | split
    | dsimp only
    | intro _)

theorem execFabAddrSet_held (r : Req) (params : List Byte) (s : State) (hH : Held F A B s) :
    HeldOut F A B (execFabAddrSet r params s) := by
  unfold execFabAddrSet
  try dsimp only
  repeat (any_goals first
    | with_reducible assumption
    | with_reducible apply runCommand_held
    | with_reducible apply cmdFabAddrSet_held
    | with_reducible apply heldOut_next
    | with_reducible apply heldOut_fault
    | with_reducible apply heldOut_ite
    | (fail_if_no_progress with_reducible refine held_upd ?_ rfl rfl rfl rfl rfl rfl rfl rfl rfl rfl rfl)
    | split
    | dsimp only
    | intro _)

theorem execFabKeySet_held (r : Req) (params : List Byte) (s : State) (hH : Held F A B s) :
    HeldOut F A B (execFabKeySet r params s) := by
  unfold execFabKeySet
  try dsimp only
  repeat (any_goals first
    | with_reducible assumption
    | with_reducible apply runCommand_held
    | with_reducible apply cmdFabKeySet_held
    | with_reducible apply heldOut_next
    | with_reducible apply heldOut_fault
    | with_reducible apply heldOut_ite
    | (fail_if_no_progress with_reducible refine held_upd ?_ rfl rfl rfl rfl rfl rfl rfl rfl rfl rfl rfl)
    | split
    | dsimp only
    | intro _)

theorem execFabRankSet_held (r : Req) (params : List Byte) (s : State) (hH : Held F A B s) :
    HeldOut F A B (execFabRankSet r params s) := by
  unfold execFabRankSet
  try dsimp only
  repeat (any_goals first
    | with_reducible assumption
    | with_reducible apply runCommand_held
    | with_reducible apply cmdFabRankSet_held
    | with_reducible apply heldOut_next
    | with_reducible apply heldOut_fault
    | with_reducible apply heldOut_ite
    | (fail_if_no_progress with_reducible refine held_upd ?_ rfl rfl rfl rfl rfl rfl rfl rfl rfl rfl rfl)
    | split
    | dsimp only
    | intro _)

theorem execRoleSwap_held (r : Req) (params : List Byte) (s : State) (hH : Held F A B s) :
    HeldOut F A B (execRoleSwap r params s) := by
  unfold execRoleSwap
  try dsimp only
  repeat (any_goals first
    | with_reducible assumption
    | with_reducible apply runCommand_held
    | with_reducible apply cmdRoleSwap_held
    | with_reducible apply heldOut_next
    | with_reducible apply heldOut_fault
    | with_reducible apply heldOut_ite
    | (fail_if_no_progress with_reducible refine held_upd ?_ rfl rfl rfl rfl rfl rfl rfl rfl rfl rfl rfl)
    | split
    | dsimp only
    | intro _)

theorem execFabRoutes_held (r : Req) (params : List Byte) (s : State) (hH : Held F A B s) :
    HeldOut F A B (execFabRoutes r params s) := by
  unfold execFabRoutes
  try dsimp only
  repeat (any_goals first
    | with_reducible assumption
    | with_reducible apply runCommand_held
    | with_reducible apply cmdFabRoutes_held
    | with_reducible apply heldOut_next
    | with_reducible apply heldOut_fault
    | with_reducible apply heldOut_ite
    | (fail_if_no_progress with_reducible refine held_upd ?_ rfl rfl rfl rfl rfl rfl rfl rfl rfl rfl rfl)
    | split
    | dsimp only
    | intro _)

theorem execFabPeriodSrc_held (r : Req) (params : List Byte) (s : State) (hH : Held F A B s) :
    HeldOut F A B (execFabPeriodSrc r params s) := by
  unfold execFabPeriodSrc
  try dsimp only
  repeat (any_goals first
    | with_reducible assumption
    | with_reducible apply runCommand_held
    | with_reducible apply cmdFabPeriodSrc_held
    | with_reducible apply heldOut_next
    | with_reducible apply heldOut_fault
    | with_reducible apply heldOut_ite
    | (fail_if_no_progress with_reducible refine held_upd ?_ rfl rfl rfl rfl rfl rfl rfl rfl rfl rfl rfl)
    | split
    | dsimp only
    | intro _)

theorem execFabPeriodSet_held (r : Req) (params : List Byte) (s : State) (hH : Held F A B s) :
    HeldOut F A B (execFabPeriodSet r params s) := by
  unfold execFabPeriodSet
  try dsimp only
  repeat (any_goals first
    | with_reducible assumption
    | with_reducible apply runCommand_held
    | with_reducible apply cmdFabPeriodSet_held
    | with_reducible apply heldOut_next
    | with_reducible apply heldOut_fault
    | with_reducible apply heldOut_ite
    | (fail_if_no_progress with_reducible refine held_upd ?_ rfl rfl rfl rfl rfl rfl rfl rfl rfl rfl rfl)
    | split
    | dsimp only
    | intro _)

end Sys2Proof.Machine
end

