-- ==== Sys2Proof/Laws/HeldCmdArray.lean ====
section
/-! SUPPORT. What the operations of Machine/CmdArray.lean keep (Laws/Held.lean). -/

namespace Sys2Proof.Machine

variable {F : FuseBlock} {A B : Prop}

set_option linter.unusedTactic false
set_option linter.unreachableTactic false
set_option linter.unusedVariables false

theorem State.leaseSettled_held (w : W16) (s : State) (h : Held F A B s) : Held F A B (State.leaseSettled w s) := by
  have ha : Held F A B { s with arr := s.arr.loseUpdate w } := held_arr h id
  unfold State.leaseSettled
  split
  · exact held_ite ha h
  · exact h


theorem State.forgetHandle_held (w : W16) (s : State) (h : Held F A B s) : Held F A B (State.forgetHandle w s) := by
  unfold State.forgetHandle
  repeat (any_goals first
    | with_reducible assumption
    | with_reducible apply held_ite
    | with_reducible refine held_upd ?_ rfl rfl rfl rfl rfl rfl rfl rfl rfl rfl rfl
    | split)


theorem State.renewLease_held (w : W16) (s : State) (h : Held F A B s) : Held F A B (State.renewLease w s) := by
  unfold State.renewLease
  repeat (any_goals first
    | with_reducible assumption
    | with_reducible apply held_ite
    | with_reducible refine held_upd ?_ rfl rfl rfl rfl rfl rfl rfl rfl rfl rfl rfl
    | split)


theorem State.renewed_held (p : PolId) (h : W16) (s : State) (hH : Held F A B s) :
    Held F A B (State.renewed p h s) := by
  unfold State.renewed
  try dsimp only
  repeat (any_goals first
    | with_reducible assumption
    | with_reducible apply State.leaseSettled_held
    | with_reducible apply State.renewLease_held
    | with_reducible apply held_ite
    | (fail_if_no_progress with_reducible refine held_upd ?_ rfl rfl rfl rfl rfl rfl rfl rfl rfl rfl rfl)
    | split
    | dsimp only
    | intro _)

theorem renewing_held (f : QEntry → State → CmdOut) (e : QEntry) (s : State) (h : Held F A B s)
    (hf : ∀ e s, Held F A B s → Held F A B (f e s).after) : Held F A B (renewing f e s).after :=
  hf _ _ (State.renewed_held _ _ _ h)


theorem underHandle_held (e : QEntry) (s : State) (f : Update → State → CmdOut) (h : Held F A B s)
    (hf : ∀ u s, Held F A B s → Held F A B (f u s).after) : Held F A B (underHandle e s f).after := by
  unfold underHandle
  refine after_ite (refuse_held _ _ (State.forgetHandle_held _ _ h)) ?_
  split
  · exact refuse_held _ _ h
  · exact hf _ _ h


theorem State.cancelSelection_held (region : Nat) (s : State) (hH : Held F A B s) :
    Held F A B (State.cancelSelection region s) := by
  unfold State.cancelSelection
  try dsimp only
  repeat (any_goals first
    | with_reducible assumption
    | with_reducible apply State.requestItem_held
    | with_reducible apply held_ite
    | (fail_if_no_progress with_reducible refine held_upd ?_ rfl rfl rfl rfl rfl rfl rfl rfl rfl rfl rfl)
    | split
    | dsimp only
    | intro _)

theorem State.closeSlice_held (s : State) (hH : Held F A B s) :
    Held F A B (State.closeSlice s) := by
  unfold State.closeSlice
  try dsimp only
  repeat (any_goals first
    | with_reducible assumption
    | (fail_if_no_progress with_reducible refine held_upd ?_ rfl rfl rfl rfl rfl rfl rfl rfl rfl rfl rfl)
    | split
    | dsimp only
    | intro _)

theorem ownArrOpen_held (e : QEntry) (s : State) (hH : Held F A B s) :
    Held F A B (ownArrOpen e s).after := by
  unfold ownArrOpen
  try dsimp only
  repeat (any_goals first
    | with_reducible assumption
    | intro _ _
    | with_reducible apply State.addJob_held
    | with_reducible apply refuse_held
    | with_reducible apply writeThen_held
    | with_reducible apply State.leaseSettled_held
    | with_reducible apply State.forgetHandle_held
    | with_reducible apply State.cancelSelection_held
    | with_reducible apply held_ite
    | with_reducible apply after_done
    | with_reducible apply after_hold
    | with_reducible apply after_replyHold
    | with_reducible apply after_ite
    | (fail_if_no_progress with_reducible refine held_upd ?_ rfl rfl rfl rfl rfl rfl rfl rfl rfl rfl rfl)
    | split
    | dsimp only
    | intro _)

theorem cmdArrOpen_held (e : QEntry) (s : State) (hH : Held F A B s) :
    Held F A B (cmdArrOpen e s).after := by
  unfold cmdArrOpen
  try dsimp only
  repeat (any_goals first
    | with_reducible assumption
    | with_reducible apply checked_held
    | with_reducible apply ownArrOpen_held
    | with_reducible apply after_done
    | with_reducible apply after_hold
    | with_reducible apply after_replyHold
    | with_reducible apply after_ite
    | (fail_if_no_progress with_reducible refine held_upd ?_ rfl rfl rfl rfl rfl rfl rfl rfl rfl rfl rfl)
    | split
    | dsimp only
    | intro _)

theorem ownArrWrite_held (e : QEntry) (s : State) (hH : Held F A B s) :
    Held F A B (ownArrWrite e s).after := by
  unfold ownArrWrite
  try dsimp only
  repeat (any_goals first
    | with_reducible assumption
    | intro _ _
    | with_reducible apply State.addJob_held
    | with_reducible apply refuse_held
    | with_reducible apply writeThen_held
    | with_reducible apply underHandle_held
    | with_reducible apply held_ite
    | with_reducible apply after_done
    | with_reducible apply after_hold
    | with_reducible apply after_replyHold
    | with_reducible apply after_ite
    | (fail_if_no_progress with_reducible refine held_upd ?_ rfl rfl rfl rfl rfl rfl rfl rfl rfl rfl rfl)
    | split
    | dsimp only
    | intro _)

theorem cmdArrWrite_held (e : QEntry) (s : State) (hH : Held F A B s) :
    Held F A B (cmdArrWrite e s).after := by
  unfold cmdArrWrite
  try dsimp only
  repeat (any_goals first
    | with_reducible assumption
    | with_reducible apply checked_held
    | with_reducible apply renewing_held
    | with_reducible apply ownArrWrite_held
    | with_reducible apply after_done
    | with_reducible apply after_hold
    | with_reducible apply after_replyHold
    | with_reducible apply after_ite
    | (fail_if_no_progress with_reducible refine held_upd ?_ rfl rfl rfl rfl rfl rfl rfl rfl rfl rfl rfl)
    | split
    | dsimp only
    | intro _)

theorem ownArrCommit_held (e : QEntry) (s : State) (hH : Held F A B s) :
    Held F A B (ownArrCommit e s).after := by
  unfold ownArrCommit
  try dsimp only
  repeat (any_goals first
    | with_reducible assumption
    | intro _ _
    | with_reducible apply State.addJob_held
    | with_reducible apply refuse_held
    | with_reducible apply writeThen_held
    | with_reducible apply underHandle_held
    | with_reducible apply held_ite
    | with_reducible apply after_done
    | with_reducible apply after_hold
    | with_reducible apply after_replyHold
    | with_reducible apply after_ite
    | (fail_if_no_progress with_reducible refine held_upd ?_ rfl rfl rfl rfl rfl rfl rfl rfl rfl rfl rfl)
    | split
    | dsimp only
    | intro _)

theorem cmdArrCommit_held (e : QEntry) (s : State) (hH : Held F A B s) :
    Held F A B (cmdArrCommit e s).after := by
  unfold cmdArrCommit
  try dsimp only
  repeat (any_goals first
    | with_reducible assumption
    | with_reducible apply checked_held
    | with_reducible apply renewing_held
    | with_reducible apply ownArrCommit_held
    | with_reducible apply after_done
    | with_reducible apply after_hold
    | with_reducible apply after_replyHold
    | with_reducible apply after_ite
    | (fail_if_no_progress with_reducible refine held_upd ?_ rfl rfl rfl rfl rfl rfl rfl rfl rfl rfl rfl)
    | split
    | dsimp only
    | intro _)

theorem ownArrAbort_held (e : QEntry) (s : State) (hH : Held F A B s) :
    Held F A B (ownArrAbort e s).after := by
  unfold ownArrAbort
  try dsimp only
  repeat (any_goals first
    | with_reducible assumption
    | with_reducible apply doneOk_held
    | with_reducible apply underHandle_held
    | with_reducible apply after_done
    | with_reducible apply after_hold
    | with_reducible apply after_replyHold
    | with_reducible apply after_ite
    | (fail_if_no_progress with_reducible refine held_upd ?_ rfl rfl rfl rfl rfl rfl rfl rfl rfl rfl rfl)
    | split
    | dsimp only
    | intro _)

theorem cmdArrAbort_held (e : QEntry) (s : State) (hH : Held F A B s) :
    Held F A B (cmdArrAbort e s).after := by
  unfold cmdArrAbort
  try dsimp only
  repeat (any_goals first
    | with_reducible assumption
    | with_reducible apply checked_held
    | with_reducible apply renewing_held
    | with_reducible apply ownArrAbort_held
    | with_reducible apply after_done
    | with_reducible apply after_hold
    | with_reducible apply after_replyHold
    | with_reducible apply after_ite
    | (fail_if_no_progress with_reducible refine held_upd ?_ rfl rfl rfl rfl rfl rfl rfl rfl rfl rfl rfl)
    | split
    | dsimp only
    | intro _)

theorem ownArrRead_held (e : QEntry) (s : State) (hH : Held F A B s) :
    Held F A B (ownArrRead e s).after := by
  unfold ownArrRead
  try dsimp only
  repeat (any_goals first
    | with_reducible assumption
    | with_reducible apply doneOk_held
    | with_reducible apply refuse_held
    | with_reducible apply held_ite
    | with_reducible apply after_done
    | with_reducible apply after_hold
    | with_reducible apply after_replyHold
    | with_reducible apply after_ite
    | (fail_if_no_progress with_reducible refine held_upd ?_ rfl rfl rfl rfl rfl rfl rfl rfl rfl rfl rfl)
    | split
    | dsimp only
    | intro _)

theorem cmdArrRead_held (e : QEntry) (s : State) (hH : Held F A B s) :
    Held F A B (cmdArrRead e s).after := by
  unfold cmdArrRead
  try dsimp only
  repeat (any_goals first
    | with_reducible assumption
    | with_reducible apply checked_held
    | with_reducible apply ownArrRead_held
    | with_reducible apply after_done
    | with_reducible apply after_hold
    | with_reducible apply after_replyHold
    | with_reducible apply after_ite
    | (fail_if_no_progress with_reducible refine held_upd ?_ rfl rfl rfl rfl rfl rfl rfl rfl rfl rfl rfl)
    | split
    | dsimp only
    | intro _)

theorem ownArrInfo_held (x0 : QEntry) (s : State) (hH : Held F A B s) :
    Held F A B (ownArrInfo x0 s).after := by
  unfold ownArrInfo
  try dsimp only
  repeat (any_goals first
    | with_reducible assumption
    | with_reducible apply doneOk_held
    | with_reducible apply after_done
    | with_reducible apply after_hold
    | with_reducible apply after_replyHold
    | with_reducible apply after_ite
    | (fail_if_no_progress with_reducible refine held_upd ?_ rfl rfl rfl rfl rfl rfl rfl rfl rfl rfl rfl)
    | split
    | dsimp only
    | intro _)

theorem cmdArrInfo_held (e : QEntry) (s : State) (hH : Held F A B s) :
    Held F A B (cmdArrInfo e s).after := by
  unfold cmdArrInfo
  try dsimp only
  repeat (any_goals first
    | with_reducible assumption
    | with_reducible apply checked_held
    | with_reducible apply ownArrInfo_held
    | with_reducible apply after_done
    | with_reducible apply after_hold
    | with_reducible apply after_replyHold
    | with_reducible apply after_ite
    | (fail_if_no_progress with_reducible refine held_upd ?_ rfl rfl rfl rfl rfl rfl rfl rfl rfl rfl rfl)
    | split
    | dsimp only
    | intro _)

theorem ownFwActivate_held (e : QEntry) (s : State) (hH : Held F A B s) :
    Held F A B (ownFwActivate e s).after := by
  unfold ownFwActivate
  try dsimp only
  repeat (any_goals first
    | with_reducible assumption
    | intro _ _
    | with_reducible apply State.requestItem_held
    | with_reducible apply refuse_held
    | with_reducible apply commitThen_held
    | with_reducible apply held_ite
    | with_reducible apply after_done
    | with_reducible apply after_hold
    | with_reducible apply after_replyHold
    | with_reducible apply after_ite
    | (fail_if_no_progress with_reducible refine held_upd ?_ rfl rfl rfl rfl rfl rfl rfl rfl rfl rfl rfl)
    | split
    | dsimp only
    | intro _)

theorem cmdFwActivate_held (e : QEntry) (s : State) (hH : Held F A B s) :
    Held F A B (cmdFwActivate e s).after := by
  unfold cmdFwActivate
  try dsimp only
  repeat (any_goals first
    | with_reducible assumption
    | with_reducible apply checked_held
    | with_reducible apply ownFwActivate_held
    | with_reducible apply after_done
    | with_reducible apply after_hold
    | with_reducible apply after_replyHold
    | with_reducible apply after_ite
    | (fail_if_no_progress with_reducible refine held_upd ?_ rfl rfl rfl rfl rfl rfl rfl rfl rfl rfl rfl)
    | split
    | dsimp only
    | intro _)

theorem execArrOpen_held (r : Req) (params : List Byte) (s : State) (hH : Held F A B s) :
    HeldOut F A B (execArrOpen r params s) := by
  unfold execArrOpen
  try dsimp only
  repeat (any_goals first
    | with_reducible assumption
    | with_reducible apply runCommand_held
    | with_reducible apply cmdArrOpen_held
    | with_reducible apply heldOut_next
    | with_reducible apply heldOut_fault
    | with_reducible apply heldOut_ite
    | (fail_if_no_progress with_reducible refine held_upd ?_ rfl rfl rfl rfl rfl rfl rfl rfl rfl rfl rfl)
    | split
    | dsimp only
    | intro _)

theorem execArrWrite_held (r : Req) (params : List Byte) (s : State) (hH : Held F A B s) :
    HeldOut F A B (execArrWrite r params s) := by
  unfold execArrWrite
  try dsimp only
  repeat (any_goals first
    | with_reducible assumption
    | with_reducible apply runCommand_held
    | with_reducible apply cmdArrWrite_held
    | with_reducible apply heldOut_next
    | with_reducible apply heldOut_fault
    | with_reducible apply heldOut_ite
    | (fail_if_no_progress with_reducible refine held_upd ?_ rfl rfl rfl rfl rfl rfl rfl rfl rfl rfl rfl)
    | split
    | dsimp only
    | intro _)

theorem execArrCommit_held (r : Req) (params : List Byte) (s : State) (hH : Held F A B s) :
    HeldOut F A B (execArrCommit r params s) := by
  unfold execArrCommit
  try dsimp only
  repeat (any_goals first
    | with_reducible assumption
    | with_reducible apply runCommand_held
    | with_reducible apply cmdArrCommit_held
    | with_reducible apply heldOut_next
    | with_reducible apply heldOut_fault
    | with_reducible apply heldOut_ite
    | (fail_if_no_progress with_reducible refine held_upd ?_ rfl rfl rfl rfl rfl rfl rfl rfl rfl rfl rfl)
    | split
    | dsimp only
    | intro _)

theorem execArrAbort_held (r : Req) (params : List Byte) (s : State) (hH : Held F A B s) :
    HeldOut F A B (execArrAbort r params s) := by
  unfold execArrAbort
  try dsimp only
  repeat (any_goals first
    | with_reducible assumption
    | with_reducible apply runCommand_held
    | with_reducible apply cmdArrAbort_held
    | with_reducible apply heldOut_next
    | with_reducible apply heldOut_fault
    | with_reducible apply heldOut_ite
    | (fail_if_no_progress with_reducible refine held_upd ?_ rfl rfl rfl rfl rfl rfl rfl rfl rfl rfl rfl)
    | split
    | dsimp only
    | intro _)

theorem execArrRead_held (r : Req) (params : List Byte) (s : State) (hH : Held F A B s) :
    HeldOut F A B (execArrRead r params s) := by
  unfold execArrRead
  try dsimp only
  repeat (any_goals first
    | with_reducible assumption
    | with_reducible apply runCommand_held
    | with_reducible apply cmdArrRead_held
    | with_reducible apply heldOut_next
    | with_reducible apply heldOut_fault
    | with_reducible apply heldOut_ite
    | (fail_if_no_progress with_reducible refine held_upd ?_ rfl rfl rfl rfl rfl rfl rfl rfl rfl rfl rfl)
    | split
    | dsimp only
    | intro _)

theorem execArrInfo_held (r : Req) (params : List Byte) (s : State) (hH : Held F A B s) :
    HeldOut F A B (execArrInfo r params s) := by
  unfold execArrInfo
  try dsimp only
  repeat (any_goals first
    | with_reducible assumption
    | with_reducible apply runCommand_held
    | with_reducible apply cmdArrInfo_held
    | with_reducible apply heldOut_next
    | with_reducible apply heldOut_fault
    | with_reducible apply heldOut_ite
    | (fail_if_no_progress with_reducible refine held_upd ?_ rfl rfl rfl rfl rfl rfl rfl rfl rfl rfl rfl)
    | split
    | dsimp only
    | intro _)

theorem execFwActivate_held (r : Req) (params : List Byte) (s : State) (hH : Held F A B s) :
    HeldOut F A B (execFwActivate r params s) := by
  unfold execFwActivate
  try dsimp only
  repeat (any_goals first
    | with_reducible assumption
    | with_reducible apply runCommand_held
    | with_reducible apply cmdFwActivate_held
    | with_reducible apply heldOut_next
    | with_reducible apply heldOut_fault
    | with_reducible apply heldOut_ite
    | (fail_if_no_progress with_reducible refine held_upd ?_ rfl rfl rfl rfl rfl rfl rfl rfl rfl rfl rfl)
    | split
    | dsimp only
    | intro _)

end Sys2Proof.Machine
end

