-- ==== Sys2Proof/Laws/HeldCmdStats.lean ====
section
/-! SUPPORT. What the operations of Machine/CmdStats.lean keep (Laws/Held.lean). -/

namespace Sys2Proof.Machine

variable {F : FuseBlock} {A B : Prop}

set_option linter.unusedTactic false
set_option linter.unreachableTactic false
set_option linter.unusedVariables false

theorem refusePart_held (p : PolId) (st : Status) (s : State) (hH : Held F A B s) :
    Held F A B (refusePart p st s).after := by
  unfold refusePart
  try dsimp only
  repeat (any_goals first
    | with_reducible assumption
    | with_reducible apply refuse_held
    | exact id
    | exact fun _ => rfl
    | exact fun hq => Polder.emptied_queuesWf hq rfl rfl rfl rfl
    | with_reducible refine State.modPol_held ?_ ?_
    | with_reducible apply after_done
    | with_reducible apply after_hold
    | with_reducible apply after_replyHold
    | with_reducible apply after_ite
    | (fail_if_no_progress with_reducible refine held_upd ?_ rfl rfl rfl rfl rfl rfl rfl rfl rfl rfl rfl)
    | split
    | dsimp only
    | intro _)

theorem keepPart_held (e : QEntry) (s : State) (hH : Held F A B s) :
    Held F A B (keepPart e s).after := by
  unfold keepPart
  try dsimp only
  repeat (any_goals first
    | with_reducible assumption
    | with_reducible apply doneOk_held
    | exact id
    | exact fun _ => rfl
    | exact fun hq => Polder.emptied_queuesWf hq rfl rfl rfl rfl
    | with_reducible refine State.modPol_held ?_ ?_
    | with_reducible apply after_done
    | with_reducible apply after_hold
    | with_reducible apply after_replyHold
    | with_reducible apply after_ite
    | (fail_if_no_progress with_reducible refine held_upd ?_ rfl rfl rfl rfl rfl rfl rfl rfl rfl rfl rfl)
    | split
    | dsimp only
    | intro _)

theorem ownStatSelect_held (e : QEntry) (s : State) (hH : Held F A B s) :
    Held F A B (ownStatSelect e s).after := by
  unfold ownStatSelect
  try dsimp only
  repeat (any_goals first
    | with_reducible assumption
    | intro _ _
    | with_reducible apply State.requestItem_held
    | with_reducible apply commitThen_held
    | with_reducible apply refusePart_held
    | with_reducible apply keepPart_held
    | exact id
    | exact fun _ => rfl
    | exact fun hq => Polder.emptied_queuesWf hq rfl rfl rfl rfl
    | with_reducible refine State.modPol_held ?_ ?_
    | with_reducible apply held_ite
    | with_reducible apply after_done
    | with_reducible apply after_hold
    | with_reducible apply after_replyHold
    | with_reducible apply after_ite
    | (fail_if_no_progress with_reducible refine held_upd ?_ rfl rfl rfl rfl rfl rfl rfl rfl rfl rfl rfl)
    | split
    | dsimp only
    | intro _)

theorem cmdStatSelect_held (e : QEntry) (s : State) (hH : Held F A B s) :
    Held F A B (cmdStatSelect e s).after := by
  unfold cmdStatSelect
  try dsimp only
  repeat (any_goals first
    | with_reducible assumption
    | with_reducible apply checked_held
    | with_reducible apply ownStatSelect_held
    | with_reducible apply held_ite
    | with_reducible apply after_done
    | with_reducible apply after_hold
    | with_reducible apply after_replyHold
    | with_reducible apply after_ite
    | (fail_if_no_progress with_reducible refine held_upd ?_ rfl rfl rfl rfl rfl rfl rfl rfl rfl rfl rfl)
    | split
    | dsimp only
    | intro _)

theorem ownStatGet_held (e : QEntry) (s : State) (hH : Held F A B s) :
    Held F A B (ownStatGet e s).after := by
  unfold ownStatGet
  try dsimp only
  repeat (any_goals first
    | with_reducible assumption
    | with_reducible apply doneOk_held
    | with_reducible apply refuse_held
    | with_reducible apply held_ite
    | with_reducible apply after_done
    | with_reducible apply after_hold
    | with_reducible apply after_replyHold
    | with_reducible apply after_ite
    | (fail_if_no_progress with_reducible refine held_upd ?_ rfl rfl rfl rfl rfl rfl rfl rfl rfl rfl rfl)
    | split
    | dsimp only
    | intro _)

theorem cmdStatGet_held (e : QEntry) (s : State) (hH : Held F A B s) :
    Held F A B (cmdStatGet e s).after := by
  unfold cmdStatGet
  try dsimp only
  repeat (any_goals first
    | with_reducible assumption
    | with_reducible apply checked_held
    | with_reducible apply ownStatGet_held
    | with_reducible apply after_done
    | with_reducible apply after_hold
    | with_reducible apply after_replyHold
    | with_reducible apply after_ite
    | (fail_if_no_progress with_reducible refine held_upd ?_ rfl rfl rfl rfl rfl rfl rfl rfl rfl rfl rfl)
    | split
    | dsimp only
    | intro _)

theorem ownOccGet_held (e : QEntry) (s : State) (hH : Held F A B s) :
    Held F A B (ownOccGet e s).after := by
  unfold ownOccGet
  try dsimp only
  repeat (any_goals first
    | with_reducible assumption
    | with_reducible apply doneOk_held
    | with_reducible apply after_done
    | with_reducible apply after_hold
    | with_reducible apply after_replyHold
    | with_reducible apply after_ite
    | (fail_if_no_progress with_reducible refine held_upd ?_ rfl rfl rfl rfl rfl rfl rfl rfl rfl rfl rfl)
    | split
    | dsimp only
    | intro _)

theorem cmdOccGet_held (e : QEntry) (s : State) (hH : Held F A B s) :
    Held F A B (cmdOccGet e s).after := by
  unfold cmdOccGet
  try dsimp only
  repeat (any_goals first
    | with_reducible assumption
    | with_reducible apply checked_held
    | with_reducible apply ownOccGet_held
    | with_reducible apply after_done
    | with_reducible apply after_hold
    | with_reducible apply after_replyHold
    | with_reducible apply after_ite
    | (fail_if_no_progress with_reducible refine held_upd ?_ rfl rfl rfl rfl rfl rfl rfl rfl rfl rfl rfl)
    | split
    | dsimp only
    | intro _)

theorem ownMotionRebase_held (e : QEntry) (s : State) (hH : Held F A B s) :
    Held F A B (ownMotionRebase e s).after := by
  unfold ownMotionRebase
  try dsimp only
  repeat (any_goals first
    | with_reducible assumption
    | with_reducible apply doneAt_held
    | exact id
    | exact fun _ => rfl
    | exact fun hq => Polder.emptied_queuesWf hq rfl rfl rfl rfl
    | with_reducible refine State.modPol_held ?_ ?_
    | with_reducible apply after_done
    | with_reducible apply after_hold
    | with_reducible apply after_replyHold
    | with_reducible apply after_ite
    | (fail_if_no_progress with_reducible refine held_upd ?_ rfl rfl rfl rfl rfl rfl rfl rfl rfl rfl rfl)
    | split
    | dsimp only
    | intro _)

theorem cmdMotionRebase_held (e : QEntry) (s : State) (hH : Held F A B s) :
    Held F A B (cmdMotionRebase e s).after := by
  unfold cmdMotionRebase
  try dsimp only
  repeat (any_goals first
    | with_reducible assumption
    | with_reducible apply checked_held
    | with_reducible apply ownMotionRebase_held
    | with_reducible apply after_done
    | with_reducible apply after_hold
    | with_reducible apply after_replyHold
    | with_reducible apply after_ite
    | (fail_if_no_progress with_reducible refine held_upd ?_ rfl rfl rfl rfl rfl rfl rfl rfl rfl rfl rfl)
    | split
    | dsimp only
    | intro _)

theorem execStatSelect_held (r : Req) (params : List Byte) (s : State) (hH : Held F A B s) :
    HeldOut F A B (execStatSelect r params s) := by
  unfold execStatSelect
  try dsimp only
  repeat (any_goals first
    | with_reducible assumption
    | with_reducible apply runCommand_held
    | with_reducible apply cmdStatSelect_held
    | with_reducible apply heldOut_next
    | with_reducible apply heldOut_fault
    | with_reducible apply heldOut_ite
    | (fail_if_no_progress with_reducible refine held_upd ?_ rfl rfl rfl rfl rfl rfl rfl rfl rfl rfl rfl)
    | split
    | dsimp only
    | intro _)

theorem execStatGet_held (r : Req) (params : List Byte) (s : State) (hH : Held F A B s) :
    HeldOut F A B (execStatGet r params s) := by
  unfold execStatGet
  try dsimp only
  repeat (any_goals first
    | with_reducible assumption
    | with_reducible apply runCommand_held
    | with_reducible apply cmdStatGet_held
    | with_reducible apply heldOut_next
    | with_reducible apply heldOut_fault
    | with_reducible apply heldOut_ite
    | (fail_if_no_progress with_reducible refine held_upd ?_ rfl rfl rfl rfl rfl rfl rfl rfl rfl rfl rfl)
    | split
    | dsimp only
    | intro _)

theorem execOccGet_held (r : Req) (params : List Byte) (s : State) (hH : Held F A B s) :
    HeldOut F A B (execOccGet r params s) := by
  unfold execOccGet
  try dsimp only
  repeat (any_goals first
    | with_reducible assumption
    | with_reducible apply runCommand_held
    | with_reducible apply cmdOccGet_held
    | with_reducible apply heldOut_next
    | with_reducible apply heldOut_fault
    | with_reducible apply heldOut_ite
    | (fail_if_no_progress with_reducible refine held_upd ?_ rfl rfl rfl rfl rfl rfl rfl rfl rfl rfl rfl)
    | split
    | dsimp only
    | intro _)

theorem execMotionRebase_held (r : Req) (params : List Byte) (s : State) (hH : Held F A B s) :
    HeldOut F A B (execMotionRebase r params s) := by
  unfold execMotionRebase
  try dsimp only
  repeat (any_goals first
    | with_reducible assumption
    | with_reducible apply runCommand_held
    | with_reducible apply cmdMotionRebase_held
    | with_reducible apply heldOut_next
    | with_reducible apply heldOut_fault
    | with_reducible apply heldOut_ite
    | (fail_if_no_progress with_reducible refine held_upd ?_ rfl rfl rfl rfl rfl rfl rfl rfl rfl rfl rfl)
    | split
    | dsimp only
    | intro _)

end Sys2Proof.Machine
end

