-- ==== Sys2Proof/Laws/HeldCmdPolder.lean ====
section
/-! SUPPORT. What the operations of Machine/CmdPolder.lean keep (Laws/Held.lean). -/

namespace Sys2Proof.Machine

variable {F : FuseBlock} {A B : Prop}

set_option linter.unusedTactic false
set_option linter.unreachableTactic false
set_option linter.unusedVariables false

theorem State.clearBinding_held (old : PolId) (s : State) (h : Held F A B s) : Held F A B (State.clearBinding old s) := by
  refine State.modPol_held (held_same h rfl ⟨rfl, rfl, rfl, rfl⟩ ⟨rfl, rfl, rfl, rfl, rfl⟩ rfl) fun hq => ?_
  rw [Polder.queuesWf_iff] at hq ⊢
  exact ⟨hq.1, hq.2.1, hq.2.2.1, Nat.le_trans (dlvPlaces_filter _ _) hq.2.2.2⟩


theorem State.rebindFrom_held (old : PolId) (s : State) (hH : Held F A B s) :
    Held F A B (State.rebindFrom old s) := by
  unfold State.rebindFrom
  try dsimp only
  repeat (any_goals first
    | with_reducible assumption
    | with_reducible apply State.clearBinding_held
    | with_reducible apply held_ite
    | (fail_if_no_progress with_reducible refine held_upd ?_ rfl rfl rfl rfl rfl rfl rfl rfl rfl rfl rfl)
    | split
    | dsimp only
    | intro _)

theorem State.storePolder_held (p : PolId) (s : State) (hH : Held F A B s) :
    Held F A B (State.storePolder p s) := by
  unfold State.storePolder
  try dsimp only
  repeat (any_goals first
    | with_reducible assumption
    | with_reducible apply State.requestItem_held
    | with_reducible apply held_ite
    | (fail_if_no_progress with_reducible refine held_upd ?_ rfl rfl rfl rfl rfl rfl rfl rfl rfl rfl rfl)
    | split
    | dsimp only
    | intro _)

theorem State.storeSeqs_held (p : PolId) (s : State) (hH : Held F A B s) :
    Held F A B (State.storeSeqs p s) := by
  unfold State.storeSeqs
  try dsimp only
  repeat (any_goals first
    | with_reducible assumption
    | with_reducible apply State.requestItem_held
    | with_reducible apply held_ite
    | (fail_if_no_progress with_reducible refine held_upd ?_ rfl rfl rfl rfl rfl rfl rfl rfl rfl rfl rfl)
    | split
    | dsimp only
    | intro _)

theorem commitTenant_held (p : PolId) (c : Charter) (s : State) (hH : Held F A B s) :
    Held F A B (commitTenant p c s).after := by
  unfold commitTenant
  try dsimp only
  repeat (any_goals first
    | with_reducible assumption
    | intro _ _
    | with_reducible apply State.requestItem_held
    | with_reducible apply commitThen_held
    | with_reducible apply State.rebindFrom_held
    | with_reducible apply State.storePolder_held
    | exact id
    | exact fun _ => rfl
    | exact fun hq => Polder.emptied_queuesWf hq rfl rfl rfl rfl
    | with_reducible refine State.modPol_held ?_ ?_
    | with_reducible apply after_done
    | with_reducible apply after_hold
    | with_reducible apply after_replyHold
    | with_reducible apply after_ite
    | (fail_if_no_progress with_reducible refine held_upd ?_ rfl rfl rfl rfl rfl rfl rfl rfl rfl rfl rfl)
    | split
    | dsimp only
    | intro _)

theorem commitOwner_held (c : Charter) (s : State) (hH : Held F A B s) :
    Held F A B (commitOwner c s).after := by
  unfold commitOwner
  try dsimp only
  repeat (any_goals first
    | with_reducible assumption
    | intro _ _
    | with_reducible apply State.requestItem_held
    | with_reducible apply commitThen_held
    | with_reducible apply State.storePolder_held
    | exact id
    | exact fun _ => rfl
    | exact fun hq => Polder.emptied_queuesWf hq rfl rfl rfl rfl
    | with_reducible refine State.modPol_held ?_ ?_
    | with_reducible apply held_ite
    | with_reducible apply after_done
    | with_reducible apply after_hold
    | with_reducible apply after_replyHold
    | with_reducible apply after_ite
    | (fail_if_no_progress with_reducible refine held_upd ?_ rfl rfl rfl rfl rfl rfl rfl rfl rfl rfl rfl)
    | split
    | dsimp only
    | intro _)

theorem commitCharter_held (p : PolId) (bs : List Byte) (s : State) (hH : Held F A B s) :
    Held F A B (commitCharter p bs s).after := by
  unfold commitCharter
  try dsimp only
  repeat (any_goals first
    | with_reducible assumption
    | with_reducible apply refuse_held
    | with_reducible apply commitTenant_held
    | with_reducible apply commitOwner_held
    | with_reducible apply held_ite
    | with_reducible apply after_done
    | with_reducible apply after_hold
    | with_reducible apply after_replyHold
    | with_reducible apply after_ite
    | (fail_if_no_progress with_reducible refine held_upd ?_ rfl rfl rfl rfl rfl rfl rfl rfl rfl rfl rfl)
    | split
    | dsimp only
    | intro _)

theorem ownPoldCreate_held (e : QEntry) (s : State) (hH : Held F A B s) :
    Held F A B (ownPoldCreate e s).after := by
  unfold ownPoldCreate
  try dsimp only
  repeat (any_goals first
    | with_reducible assumption
    | with_reducible apply refusePart_held
    | with_reducible apply keepPart_held
    | with_reducible apply commitCharter_held
    | exact id
    | exact fun _ => rfl
    | exact fun hq => Polder.emptied_queuesWf hq rfl rfl rfl rfl
    | with_reducible refine State.modPol_held ?_ ?_
    | with_reducible apply held_ite
    | with_reducible apply after_done
    | with_reducible apply after_hold
    | with_reducible apply after_replyHold
    | with_reducible apply after_ite
    | (fail_if_no_progress with_reducible refine held_upd ?_ rfl rfl rfl rfl rfl rfl rfl rfl rfl rfl rfl)
    | split
    | dsimp only
    | intro _)

theorem cmdPoldCreate_held (e : QEntry) (s : State) (hH : Held F A B s) :
    Held F A B (cmdPoldCreate e s).after := by
  unfold cmdPoldCreate
  try dsimp only
  repeat (any_goals first
    | with_reducible assumption
    | with_reducible apply checked_held
    | with_reducible apply ownPoldCreate_held
    | with_reducible apply after_done
    | with_reducible apply after_hold
    | with_reducible apply after_replyHold
    | with_reducible apply after_ite
    | (fail_if_no_progress with_reducible refine held_upd ?_ rfl rfl rfl rfl rfl rfl rfl rfl rfl rfl rfl)
    | split
    | dsimp only
    | intro _)

theorem ownPoldOffer_held (e : QEntry) (s : State) (hH : Held F A B s) :
    Held F A B (ownPoldOffer e s).after := by
  unfold ownPoldOffer
  try dsimp only
  repeat (any_goals first
    | with_reducible assumption
    | with_reducible apply doneOk_held
    | with_reducible apply refuse_held
    | with_reducible apply held_ite
    | with_reducible apply after_done
    | with_reducible apply after_hold
    | with_reducible apply after_replyHold
    | with_reducible apply after_ite
    | (fail_if_no_progress with_reducible refine held_upd ?_ rfl rfl rfl rfl rfl rfl rfl rfl rfl rfl rfl)
    | split
    | dsimp only
    | intro _)

theorem cmdPoldOffer_held (e : QEntry) (s : State) (hH : Held F A B s) :
    Held F A B (cmdPoldOffer e s).after := by
  unfold cmdPoldOffer
  try dsimp only
  repeat (any_goals first
    | with_reducible assumption
    | with_reducible apply checked_held
    | with_reducible apply ownPoldOffer_held
    | with_reducible apply after_done
    | with_reducible apply after_hold
    | with_reducible apply after_replyHold
    | with_reducible apply after_ite
    | (fail_if_no_progress with_reducible refine held_upd ?_ rfl rfl rfl rfl rfl rfl rfl rfl rfl rfl rfl)
    | split
    | dsimp only
    | intro _)

theorem State.abandonAgreement_held (cause : Nat) (s : State) (hH : Held F A B s) :
    Held F A B (State.abandonAgreement cause s) := by
  unfold State.abandonAgreement
  try dsimp only
  repeat (any_goals first
    | with_reducible assumption
    | with_reducible apply State.ownerEvent_held
    | with_reducible apply State.rebindFrom_held
    | with_reducible apply State.storePolder_held
    | with_reducible apply State.storeSeqs_held
    | exact id
    | exact fun _ => rfl
    | exact fun hq => Polder.emptied_queuesWf hq rfl rfl rfl rfl
    | with_reducible refine State.modPol_held ?_ ?_
    | with_reducible apply held_ite
    | (fail_if_no_progress with_reducible refine held_upd ?_ rfl rfl rfl rfl rfl rfl rfl rfl rfl rfl rfl)
    | split
    | dsimp only
    | intro _)

theorem State.resetDali_held (p : PolId) (s : State) (hH : Held F A B s) :
    Held F A B (State.resetDali p s) := by
  unfold State.resetDali
  try dsimp only
  repeat (any_goals first
    | with_reducible assumption
    | with_reducible apply State.requestItem_held
    | (fail_if_no_progress with_reducible refine held_upd ?_ rfl rfl rfl rfl rfl rfl rfl rfl rfl rfl rfl)
    | split
    | dsimp only
    | intro _)

theorem agreedPolder_queuesWf (k : KeyAgreement) (key : BitVec 128) (r : Req) (period : Nat) (q : Polder) (v : Option KeptAnswer)
    (h : q.queuesWf = true) : ({ agreedPolder k key r period q with kept := v } : Polder).queuesWf = true := by
  rw [Polder.queuesWf_iff] at h ⊢
  unfold agreedPolder
  split
  · exact ⟨h.1, h.2.1, Nat.zero_le _, h.2.2.2⟩
  · exact ⟨h.1, h.2.1, Nat.zero_le _, h.2.2.2⟩

theorem State.completeAgreement_held (k : KeyAgreement) (qT : JPoint) (part2 : List Byte) (r : Req) (s : State) (h : Held F A B s) :
    Held F A B (State.completeAgreement k qT part2 r s) := by
  unfold State.completeAgreement
  extract_lets p key first c s1 s2 s3 s4
  have h1 : Held F A B s1 := held_same h rfl ⟨rfl, rfl, rfl, rfl⟩ ⟨rfl, rfl, rfl, rfl, rfl⟩ rfl
  have h2 : Held F A B s2 := State.modPol_held h1 (agreedPolder_queuesWf _ _ _ _ _ _)
  have h3 : Held F A B s3 := State.storeSeqs_held _ _ (State.storePolder_held _ _ (State.queueReply_held _ _ _ h2))
  have h4 : Held F A B s4 := held_ite (State.resetDali_held _ _ h3) h3
  exact held_ite (State.flushEarly_held _ h4) (State.ownerEvent_held _ _ _ h4)


theorem State.dropParts_held (p : PolId) (s : State) (hH : Held F A B s) :
    Held F A B (State.dropParts p s) := by
  unfold State.dropParts
  try dsimp only
  repeat (any_goals first
    | with_reducible assumption
    | exact id
    | exact fun _ => rfl
    | exact fun hq => Polder.emptied_queuesWf hq rfl rfl rfl rfl
    | with_reducible refine State.modPol_held ?_ ?_
    | (fail_if_no_progress with_reducible refine held_upd ?_ rfl rfl rfl rfl rfl rfl rfl rfl rfl rfl rfl)
    | split
    | dsimp only
    | intro _)

theorem State.answerFinal_held (qT ident : List Byte) (e : QEntry) (s : State) (hH : Held F A B s) :
    Held F A B (State.answerFinal qT ident e s) := by
  unfold State.answerFinal
  try dsimp only
  repeat (any_goals first
    | with_reducible assumption
    | with_reducible apply State.queueReply_held
    | with_reducible apply State.untagged_held
    | with_reducible apply State.completeAgreement_held
    | with_reducible apply State.dropParts_held
    | exact id
    | exact fun _ => rfl
    | exact fun hq => Polder.emptied_queuesWf hq rfl rfl rfl rfl
    | with_reducible refine State.modPol_held ?_ ?_
    | with_reducible apply held_ite
    | (fail_if_no_progress with_reducible refine held_upd ?_ rfl rfl rfl rfl rfl rfl rfl rfl rfl rfl rfl)
    | split
    | dsimp only
    | intro _)

theorem State.serveAnswer_held (e : QEntry) (s : State) (hH : Held F A B s) :
    Held F A B (State.serveAnswer e s) := by
  unfold State.serveAnswer
  try dsimp only
  repeat (any_goals first
    | with_reducible assumption
    | with_reducible apply State.dropParts_held
    | with_reducible apply State.answerFinal_held
    | exact id
    | exact fun _ => rfl
    | exact fun hq => Polder.emptied_queuesWf hq rfl rfl rfl rfl
    | with_reducible refine State.modPol_held ?_ ?_
    | with_reducible apply held_ite
    | (fail_if_no_progress with_reducible refine held_upd ?_ rfl rfl rfl rfl rfl rfl rfl rfl rfl rfl rfl)
    | split
    | dsimp only
    | intro _)

theorem State.dissolve_held (p : PolId) (reason : Nat) (s : State) (hH : Held F A B s) :
    Held F A B (State.dissolve p reason s) := by
  unfold State.dissolve
  try dsimp only
  repeat (any_goals first
    | with_reducible assumption
    | with_reducible apply State.voidHeld_held
    | with_reducible apply State.storePolder_held
    | exact id
    | exact fun _ => rfl
    | exact fun hq => Polder.emptied_queuesWf hq rfl rfl rfl rfl
    | with_reducible refine State.modPol_held ?_ ?_
    | (fail_if_no_progress with_reducible refine held_upd ?_ rfl rfl rfl rfl rfl rfl rfl rfl rfl rfl rfl)
    | split
    | dsimp only
    | intro _)

theorem ownPoldDissolve_held (e : QEntry) (s : State) (hH : Held F A B s) :
    Held F A B (ownPoldDissolve e s).after := by
  unfold ownPoldDissolve
  try dsimp only
  repeat (any_goals first
    | with_reducible assumption
    | intro _ _
    | with_reducible apply doneOk_held
    | with_reducible apply refuse_held
    | with_reducible apply commitThen_held
    | with_reducible apply State.abandonAgreement_held
    | with_reducible apply State.dissolve_held
    | with_reducible apply held_ite
    | with_reducible apply after_done
    | with_reducible apply after_hold
    | with_reducible apply after_replyHold
    | with_reducible apply after_ite
    | (fail_if_no_progress with_reducible refine held_upd ?_ rfl rfl rfl rfl rfl rfl rfl rfl rfl rfl rfl)
    | split
    | dsimp only
    | intro _)

theorem cmdPoldDissolve_held (e : QEntry) (s : State) (hH : Held F A B s) :
    Held F A B (cmdPoldDissolve e s).after := by
  unfold cmdPoldDissolve
  try dsimp only
  repeat (any_goals first
    | with_reducible assumption
    | with_reducible apply checked_held
    | with_reducible apply ownPoldDissolve_held
    | with_reducible apply after_done
    | with_reducible apply after_hold
    | with_reducible apply after_replyHold
    | with_reducible apply after_ite
    | (fail_if_no_progress with_reducible refine held_upd ?_ rfl rfl rfl rfl rfl rfl rfl rfl rfl rfl rfl)
    | split
    | dsimp only
    | intro _)

theorem ownPoldStatus_held (e : QEntry) (s : State) (hH : Held F A B s) :
    Held F A B (ownPoldStatus e s).after := by
  unfold ownPoldStatus
  try dsimp only
  repeat (any_goals first
    | with_reducible assumption
    | with_reducible apply doneOk_held
    | with_reducible apply refuse_held
    | with_reducible apply held_ite
    | with_reducible apply after_done
    | with_reducible apply after_hold
    | with_reducible apply after_replyHold
    | with_reducible apply after_ite
    | (fail_if_no_progress with_reducible refine held_upd ?_ rfl rfl rfl rfl rfl rfl rfl rfl rfl rfl rfl)
    | split
    | dsimp only
    | intro _)

theorem cmdPoldStatus_held (e : QEntry) (s : State) (hH : Held F A B s) :
    Held F A B (cmdPoldStatus e s).after := by
  unfold cmdPoldStatus
  try dsimp only
  repeat (any_goals first
    | with_reducible assumption
    | with_reducible apply checked_held
    | with_reducible apply ownPoldStatus_held
    | with_reducible apply after_done
    | with_reducible apply after_hold
    | with_reducible apply after_replyHold
    | with_reducible apply after_ite
    | (fail_if_no_progress with_reducible refine held_upd ?_ rfl rfl rfl rfl rfl rfl rfl rfl rfl rfl rfl)
    | split
    | dsimp only
    | intro _)

theorem ownPoldCharter_held (e : QEntry) (s : State) (hH : Held F A B s) :
    Held F A B (ownPoldCharter e s).after := by
  unfold ownPoldCharter
  try dsimp only
  repeat (any_goals first
    | with_reducible assumption
    | with_reducible apply doneOk_held
    | with_reducible apply refuse_held
    | with_reducible apply held_ite
    | with_reducible apply after_done
    | with_reducible apply after_hold
    | with_reducible apply after_replyHold
    | with_reducible apply after_ite
    | (fail_if_no_progress with_reducible refine held_upd ?_ rfl rfl rfl rfl rfl rfl rfl rfl rfl rfl rfl)
    | split
    | dsimp only
    | intro _)

theorem cmdPoldCharter_held (e : QEntry) (s : State) (hH : Held F A B s) :
    Held F A B (cmdPoldCharter e s).after := by
  unfold cmdPoldCharter
  try dsimp only
  repeat (any_goals first
    | with_reducible assumption
    | with_reducible apply checked_held
    | with_reducible apply ownPoldCharter_held
    | with_reducible apply after_done
    | with_reducible apply after_hold
    | with_reducible apply after_replyHold
    | with_reducible apply after_ite
    | (fail_if_no_progress with_reducible refine held_upd ?_ rfl rfl rfl rfl rfl rfl rfl rfl rfl rfl rfl)
    | split
    | dsimp only
    | intro _)

theorem execPoldCreate_held (r : Req) (params : List Byte) (s : State) (hH : Held F A B s) :
    HeldOut F A B (execPoldCreate r params s) := by
  unfold execPoldCreate
  try dsimp only
  repeat (any_goals first
    | with_reducible assumption
    | with_reducible apply runCommand_held
    | with_reducible apply cmdPoldCreate_held
    | with_reducible apply heldOut_next
    | with_reducible apply heldOut_fault
    | with_reducible apply heldOut_ite
    | (fail_if_no_progress with_reducible refine held_upd ?_ rfl rfl rfl rfl rfl rfl rfl rfl rfl rfl rfl)
    | split
    | dsimp only
    | intro _)

theorem execPoldOffer_held (r : Req) (params : List Byte) (s : State) (hH : Held F A B s) :
    HeldOut F A B (execPoldOffer r params s) := by
  unfold execPoldOffer
  try dsimp only
  repeat (any_goals first
    | with_reducible assumption
    | with_reducible apply runCommand_held
    | with_reducible apply cmdPoldOffer_held
    | with_reducible apply heldOut_next
    | with_reducible apply heldOut_fault
    | with_reducible apply heldOut_ite
    | (fail_if_no_progress with_reducible refine held_upd ?_ rfl rfl rfl rfl rfl rfl rfl rfl rfl rfl rfl)
    | split
    | dsimp only
    | intro _)

theorem execPoldAnswer_held (r : Req) (params : List Byte) (s : State) (h : Held F A B s) :
    HeldOut F A B (execPoldAnswer r params s) := by
  unfold execPoldAnswer
  dsimp only
  refine heldOut_next (held_ite h (held_ite (State.bindMiss_held _ h) ?_))
  split
  · split
    · exact State.untagged_held _ _ _ _ _ _ h
    · exact State.countPort_held _ _ _ h
  · split
    · split
      · exact State.untagged_held _ _ _ _ _ _ (State.modPol_held h id)
      · rename_i hq
        exact held_ite (State.serveAnswer_held _ _ h) (State.enqueue_held _ _ h (by unfold Polder.queued at hq; omega))
    · exact held_ite (State.untagged_held _ _ _ _ _ _ h) (State.untagged_held _ _ _ _ _ _ (State.modPol_held h id))


theorem execPoldDissolve_held (r : Req) (params : List Byte) (s : State) (hH : Held F A B s) :
    HeldOut F A B (execPoldDissolve r params s) := by
  unfold execPoldDissolve
  try dsimp only
  repeat (any_goals first
    | with_reducible assumption
    | with_reducible apply runCommand_held
    | with_reducible apply cmdPoldDissolve_held
    | with_reducible apply heldOut_next
    | with_reducible apply heldOut_fault
    | with_reducible apply heldOut_ite
    | (fail_if_no_progress with_reducible refine held_upd ?_ rfl rfl rfl rfl rfl rfl rfl rfl rfl rfl rfl)
    | split
    | dsimp only
    | intro _)

theorem execPoldStatus_held (r : Req) (params : List Byte) (s : State) (hH : Held F A B s) :
    HeldOut F A B (execPoldStatus r params s) := by
  unfold execPoldStatus
  try dsimp only
  repeat (any_goals first
    | with_reducible assumption
    | with_reducible apply runCommand_held
    | with_reducible apply cmdPoldStatus_held
    | with_reducible apply heldOut_next
    | with_reducible apply heldOut_fault
    | with_reducible apply heldOut_ite
    | (fail_if_no_progress with_reducible refine held_upd ?_ rfl rfl rfl rfl rfl rfl rfl rfl rfl rfl rfl)
    | split
    | dsimp only
    | intro _)

theorem execPoldCharter_held (r : Req) (params : List Byte) (s : State) (hH : Held F A B s) :
    HeldOut F A B (execPoldCharter r params s) := by
  unfold execPoldCharter
  try dsimp only
  repeat (any_goals first
    | with_reducible assumption
    | with_reducible apply runCommand_held
    | with_reducible apply cmdPoldCharter_held
    | with_reducible apply heldOut_next
    | with_reducible apply heldOut_fault
    | with_reducible apply heldOut_ite
    | (fail_if_no_progress with_reducible refine held_upd ?_ rfl rfl rfl rfl rfl rfl rfl rfl rfl rfl rfl)
    | split
    | dsimp only
    | intro _)

end Sys2Proof.Machine
end

