-- ==== Sys2Proof/Laws/HeldCmdLife.lean ====
section
/-! SUPPORT. What the operations of Machine/CmdLife.lean keep (Laws/Held.lean). -/

namespace Sys2Proof.Machine

variable {F : FuseBlock} {A B : Prop}

set_option linter.unusedTactic false
set_option linter.unreachableTactic false
set_option linter.unusedVariables false

theorem ownLcGet_held (x0 : QEntry) (s : State) (hH : Held F A B s) :
    Held F A B (ownLcGet x0 s).after := by
  unfold ownLcGet
  try dsimp only
  repeat (any_goals first
    | with_reducible assumption
    | with_reducible apply doneOk_held
    | with_reducible apply after_done
    | with_reducible apply after_hold
    | with_reducible apply after_replyHold
    | with_reducible apply after_ite
    | (fail_if_no_progress with_reducible refine held_upd ?_ rfl rfl rfl rfl rfl rfl rfl rfl rfl rfl rfl)
    | split
    | dsimp only
    | intro _)

theorem cmdLcGet_held (e : QEntry) (s : State) (hH : Held F A B s) :
    Held F A B (cmdLcGet e s).after := by
  unfold cmdLcGet
  try dsimp only
  repeat (any_goals first
    | with_reducible assumption
    | with_reducible apply checked_held
    | with_reducible apply ownLcGet_held
    | with_reducible apply after_done
    | with_reducible apply after_hold
    | with_reducible apply after_replyHold
    | with_reducible apply after_ite
    | (fail_if_no_progress with_reducible refine held_upd ?_ rfl rfl rfl rfl rfl rfl rfl rfl rfl rfl rfl)
    | split
    | dsimp only
    | intro _)

theorem State.expectLc_held (target : Lc) (s : State) (hH : Held F A B s) :
    Held F A B (State.expectLc target s) := by
  unfold State.expectLc
  try dsimp only
  repeat (any_goals first
    | with_reducible assumption
    | (fail_if_no_progress with_reducible refine held_upd ?_ rfl rfl rfl rfl rfl rfl rfl rfl rfl rfl rfl)
    | split
    | dsimp only
    | intro _)

theorem State.requestField_held (target : Lc) (s : State) (hH : Held F A B s) :
    Held F A B (State.requestField target s) := by
  unfold State.requestField
  try dsimp only
  repeat (any_goals first
    | with_reducible assumption
    | with_reducible apply State.requestItem_held
    | with_reducible apply State.expectLc_held
    | (fail_if_no_progress with_reducible refine held_upd ?_ rfl rfl rfl rfl rfl rfl rfl rfl rfl rfl rfl)
    | split
    | dsimp only
    | intro _)

theorem State.dissolveAll_held (s : State) (hH : Held F A B s) :
    Held F A B (State.dissolveAll s) := by
  unfold State.dissolveAll
  try dsimp only
  repeat (any_goals first
    | with_reducible assumption
    | intro _ _ _
    | intro _ _
    | with_reducible apply State.abandonAgreement_held
    | with_reducible apply State.dissolve_held
    | with_reducible apply foldl_held
    | with_reducible apply held_ite
    | (fail_if_no_progress with_reducible refine held_upd ?_ rfl rfl rfl rfl rfl rfl rfl rfl rfl rfl rfl)
    | split
    | dsimp only
    | intro _)

theorem State.awaitReset_held (target : Lc) (esn : Nat) (s : State) (hH : Held F A B s) :
    Held F A B (State.awaitReset target esn s) := by
  unfold State.awaitReset
  try dsimp only
  repeat (any_goals first
    | with_reducible assumption
    | (fail_if_no_progress with_reducible refine held_upd ?_ rfl rfl rfl rfl rfl rfl rfl rfl rfl rfl rfl)
    | split
    | dsimp only
    | intro _)

theorem ownLcAdvance_held (e : QEntry) (s : State) (hH : Held F A B s) :
    Held F A B (ownLcAdvance e s).after := by
  unfold ownLcAdvance
  try dsimp only
  repeat (any_goals first
    | with_reducible assumption
    | with_reducible apply refuse_held
    | with_reducible apply State.expectLc_held
    | with_reducible apply State.requestField_held
    | with_reducible apply State.dissolveAll_held
    | with_reducible apply State.awaitReset_held
    | with_reducible apply held_ite
    | with_reducible apply after_done
    | with_reducible apply after_hold
    | with_reducible apply after_replyHold
    | with_reducible apply after_ite
    | (fail_if_no_progress with_reducible refine held_upd ?_ rfl rfl rfl rfl rfl rfl rfl rfl rfl rfl rfl)
    | split
    | dsimp only
    | intro _)

theorem cmdLcAdvance_held (e : QEntry) (s : State) (hH : Held F A B s) :
    Held F A B (cmdLcAdvance e s).after := by
  unfold cmdLcAdvance
  try dsimp only
  repeat (any_goals first
    | with_reducible assumption
    | with_reducible apply checked_held
    | with_reducible apply ownLcAdvance_held
    | with_reducible apply after_done
    | with_reducible apply after_hold
    | with_reducible apply after_replyHold
    | with_reducible apply after_ite
    | (fail_if_no_progress with_reducible refine held_upd ?_ rfl rfl rfl rfl rfl rfl rfl rfl rfl rfl rfl)
    | split
    | dsimp only
    | intro _)

theorem State.finishBist_held (j : BistJob) (s : State) (hH : Held F A B s) :
    Held F A B (State.finishBist j s) := by
  unfold State.finishBist
  try dsimp only
  repeat (any_goals first
    | with_reducible assumption
    | with_reducible apply State.ownerEvent_held
    | (fail_if_no_progress with_reducible refine held_upd ?_ rfl rfl rfl rfl rfl rfl rfl rfl rfl rfl rfl)
    | split
    | dsimp only
    | intro _)

theorem ownBistRun_held (e : QEntry) (s : State) (hH : Held F A B s) :
    Held F A B (ownBistRun e s).after := by
  unfold ownBistRun
  try dsimp only
  repeat (any_goals first
    | with_reducible assumption
    | with_reducible apply refuse_held
    | with_reducible apply held_ite
    | with_reducible apply after_done
    | with_reducible apply after_hold
    | with_reducible apply after_replyHold
    | with_reducible apply after_ite
    | (fail_if_no_progress with_reducible refine held_upd ?_ rfl rfl rfl rfl rfl rfl rfl rfl rfl rfl rfl)
    | split
    | dsimp only
    | intro _)

theorem cmdBistRun_held (e : QEntry) (s : State) (hH : Held F A B s) :
    Held F A B (cmdBistRun e s).after := by
  unfold cmdBistRun
  try dsimp only
  repeat (any_goals first
    | with_reducible assumption
    | with_reducible apply checked_held
    | with_reducible apply ownBistRun_held
    | with_reducible apply after_done
    | with_reducible apply after_hold
    | with_reducible apply after_replyHold
    | with_reducible apply after_ite
    | (fail_if_no_progress with_reducible refine held_upd ?_ rfl rfl rfl rfl rfl rfl rfl rfl rfl rfl rfl)
    | split
    | dsimp only
    | intro _)

theorem ownBistRead_held (x0 : QEntry) (s : State) (hH : Held F A B s) :
    Held F A B (ownBistRead x0 s).after := by
  unfold ownBistRead
  try dsimp only
  repeat (any_goals first
    | with_reducible assumption
    | with_reducible apply doneOk_held
    | with_reducible apply after_done
    | with_reducible apply after_hold
    | with_reducible apply after_replyHold
    | with_reducible apply after_ite
    | (fail_if_no_progress with_reducible refine held_upd ?_ rfl rfl rfl rfl rfl rfl rfl rfl rfl rfl rfl)
    | split
    | dsimp only
    | intro _)

theorem cmdBistRead_held (e : QEntry) (s : State) (hH : Held F A B s) :
    Held F A B (cmdBistRead e s).after := by
  unfold cmdBistRead
  try dsimp only
  repeat (any_goals first
    | with_reducible assumption
    | with_reducible apply checked_held
    | with_reducible apply ownBistRead_held
    | with_reducible apply after_done
    | with_reducible apply after_hold
    | with_reducible apply after_replyHold
    | with_reducible apply after_ite
    | (fail_if_no_progress with_reducible refine held_upd ?_ rfl rfl rfl rfl rfl rfl rfl rfl rfl rfl rfl)
    | split
    | dsimp only
    | intro _)

theorem execLcGet_held (r : Req) (params : List Byte) (s : State) (hH : Held F A B s) :
    HeldOut F A B (execLcGet r params s) := by
  unfold execLcGet
  try dsimp only
  repeat (any_goals first
    | with_reducible assumption
    | with_reducible apply runCommand_held
    | with_reducible apply cmdLcGet_held
    | with_reducible apply heldOut_next
    | with_reducible apply heldOut_fault
    | with_reducible apply heldOut_ite
    | (fail_if_no_progress with_reducible refine held_upd ?_ rfl rfl rfl rfl rfl rfl rfl rfl rfl rfl rfl)
    | split
    | dsimp only
    | intro _)

theorem execLcAdvance_held (r : Req) (params : List Byte) (s : State) (hH : Held F A B s) :
    HeldOut F A B (execLcAdvance r params s) := by
  unfold execLcAdvance
  try dsimp only
  repeat (any_goals first
    | with_reducible assumption
    | with_reducible apply runCommand_held
    | with_reducible apply cmdLcAdvance_held
    | with_reducible apply heldOut_next
    | with_reducible apply heldOut_fault
    | with_reducible apply heldOut_ite
    | (fail_if_no_progress with_reducible refine held_upd ?_ rfl rfl rfl rfl rfl rfl rfl rfl rfl rfl rfl)
    | split
    | dsimp only
    | intro _)

theorem execBistRun_held (r : Req) (params : List Byte) (s : State) (hH : Held F A B s) :
    HeldOut F A B (execBistRun r params s) := by
  unfold execBistRun
  try dsimp only
  repeat (any_goals first
    | with_reducible assumption
    | with_reducible apply runCommand_held
    | with_reducible apply cmdBistRun_held
    | with_reducible apply heldOut_next
    | with_reducible apply heldOut_fault
    | with_reducible apply heldOut_ite
    | (fail_if_no_progress with_reducible refine held_upd ?_ rfl rfl rfl rfl rfl rfl rfl rfl rfl rfl rfl)
    | split
    | dsimp only
    | intro _)

theorem execBistRead_held (r : Req) (params : List Byte) (s : State) (hH : Held F A B s) :
    HeldOut F A B (execBistRead r params s) := by
  unfold execBistRead
  try dsimp only
  repeat (any_goals first
    | with_reducible assumption
    | with_reducible apply runCommand_held
    | with_reducible apply cmdBistRead_held
    | with_reducible apply heldOut_next
    | with_reducible apply heldOut_fault
    | with_reducible apply heldOut_ite
    | (fail_if_no_progress with_reducible refine held_upd ?_ rfl rfl rfl rfl rfl rfl rfl rfl rfl rfl rfl)
    | split
    | dsimp only
    | intro _)

end Sys2Proof.Machine
end

