-- ==== Sys2Proof/Laws/HeldService.lean ====
section
/-! SUPPORT. What the operations of Machine/Service.lean keep (Laws/Held.lean). -/

namespace Sys2Proof.Machine

variable {F : FuseBlock} {A B : Prop}

set_option linter.unusedTactic false
set_option linter.unreachableTactic false
set_option linter.unusedVariables false

theorem cmdTaggedAnswer_held (e : QEntry) (s : State) (hH : Held F A B s) :
    Held F A B (cmdTaggedAnswer e s).after := by
  unfold cmdTaggedAnswer
  try dsimp only
  repeat (any_goals first
    | with_reducible assumption
    | with_reducible apply refuse_held
    | with_reducible apply checked_held
    | with_reducible apply after_done
    | with_reducible apply after_hold
    | with_reducible apply after_replyHold
    | with_reducible apply after_ite
    | (fail_if_no_progress with_reducible refine held_upd ?_ rfl rfl rfl rfl rfl rfl rfl rfl rfl rfl rfl)
    | split
    | dsimp only
    | intro _)

theorem cmdUnassigned_held (x0 : QEntry) (s : State) (hH : Held F A B s) :
    Held F A B (cmdUnassigned x0 s).after := by
  unfold cmdUnassigned
  try dsimp only
  repeat (any_goals first
    | with_reducible assumption
    | with_reducible apply refuse_held
    | with_reducible apply held_ite
    | with_reducible apply after_done
    | with_reducible apply after_hold
    | with_reducible apply after_replyHold
    | with_reducible apply after_ite
    | (fail_if_no_progress with_reducible refine held_upd ?_ rfl rfl rfl rfl rfl rfl rfl rfl rfl rfl rfl)
    | split
    | dsimp only
    | intro _)

theorem serveLow_held (op : Nat) (e : QEntry) (s : State) (hH : Held F A B s) :
    Held F A B (serveLow op e s).after := by
  unfold serveLow
  try dsimp only
  repeat (any_goals first
    | with_reducible assumption
    | with_reducible apply cmdPwrSet_held
    | with_reducible apply cmdPstateSet_held
    | with_reducible apply cmdPwrGet_held
    | with_reducible apply cmdRefusalRead_held
    | with_reducible apply cmdRefusalClear_held
    | with_reducible apply cmdExpoSet_held
    | with_reducible apply cmdExpoGet_held
    | with_reducible apply cmdTrigFire_held
    | with_reducible apply cmdTrigRead_held
    | with_reducible apply cmdSyncGet_held
    | with_reducible apply cmdPeriodSet_held
    | with_reducible apply cmdWheelGet_held
    | with_reducible apply cmdSysInfo_held
    | with_reducible apply cmdSysCounters_held
    | with_reducible apply cmdAttestGet_held
    | with_reducible apply cmdSysReset_held
    | with_reducible apply cmdTimeGet_held
    | with_reducible apply cmdTimeSet_held
    | with_reducible apply cmdTimeSlew_held
    | with_reducible apply cmdTcmpArm_held
    | with_reducible apply cmdUnassigned_held
    | with_reducible apply after_done
    | with_reducible apply after_hold
    | with_reducible apply after_replyHold
    | with_reducible apply after_ite
    | (fail_if_no_progress with_reducible refine held_upd ?_ rfl rfl rfl rfl rfl rfl rfl rfl rfl rfl rfl)
    | split
    | dsimp only
    | intro _)

theorem serveMid_held (op : Nat) (e : QEntry) (s : State) (hH : Held F A B s) :
    Held F A B (serveMid op e s).after := by
  unfold serveMid
  try dsimp only
  repeat (any_goals first
    | with_reducible assumption
    | with_reducible apply cmdStatSelect_held
    | with_reducible apply cmdStatGet_held
    | with_reducible apply cmdOccGet_held
    | with_reducible apply cmdMotionRebase_held
    | with_reducible apply cmdPoldCreate_held
    | with_reducible apply cmdPoldOffer_held
    | with_reducible apply cmdPoldDissolve_held
    | with_reducible apply cmdPoldStatus_held
    | with_reducible apply cmdPoldCharter_held
    | with_reducible apply cmdFabRead_held
    | with_reducible apply cmdFabAddrSet_held
    | with_reducible apply cmdFabKeySet_held
    | with_reducible apply cmdFabRankSet_held
    | with_reducible apply cmdRoleSwap_held
    | with_reducible apply cmdFabRoutes_held
    | with_reducible apply cmdFabPeriodSrc_held
    | with_reducible apply cmdFabPeriodSet_held
    | with_reducible apply cmdTaggedAnswer_held
    | with_reducible apply cmdUnassigned_held
    | with_reducible apply after_done
    | with_reducible apply after_hold
    | with_reducible apply after_replyHold
    | with_reducible apply after_ite
    | (fail_if_no_progress with_reducible refine held_upd ?_ rfl rfl rfl rfl rfl rfl rfl rfl rfl rfl rfl)
    | split
    | dsimp only
    | intro _)

theorem serveHigh_held (op : Nat) (e : QEntry) (s : State) (hH : Held F A B s) :
    Held F A B (serveHigh op e s).after := by
  unfold serveHigh
  try dsimp only
  repeat (any_goals first
    | with_reducible assumption
    | with_reducible apply cmdThermGet_held
    | with_reducible apply cmdPixPort_held
    | with_reducible apply cmdDaliCfg_held
    | with_reducible apply cmdDaliGet_held
    | with_reducible apply cmdArrOpen_held
    | with_reducible apply cmdArrWrite_held
    | with_reducible apply cmdArrCommit_held
    | with_reducible apply cmdArrAbort_held
    | with_reducible apply cmdArrRead_held
    | with_reducible apply cmdArrInfo_held
    | with_reducible apply cmdFwActivate_held
    | with_reducible apply cmdLcGet_held
    | with_reducible apply cmdLcAdvance_held
    | with_reducible apply cmdBistRun_held
    | with_reducible apply cmdBistRead_held
    | with_reducible apply cmdCalRun_held
    | with_reducible apply cmdCalSchedule_held
    | with_reducible apply cmdCalRead_held
    | with_reducible apply cmdCalClear_held
    | with_reducible apply cmdColGet_held
    | with_reducible apply cmdDefectGet_held
    | with_reducible apply cmdTrimGet_held
    | with_reducible apply cmdUnassigned_held
    | with_reducible apply after_done
    | with_reducible apply after_hold
    | with_reducible apply after_replyHold
    | with_reducible apply after_ite
    | (fail_if_no_progress with_reducible refine held_upd ?_ rfl rfl rfl rfl rfl rfl rfl rfl rfl rfl rfl)
    | split
    | dsimp only
    | intro _)

theorem serveOpcode_held (op : Byte) (e : QEntry) (s : State) (hH : Held F A B s) :
    Held F A B (serveOpcode op e s).after := by
  unfold serveOpcode
  try dsimp only
  repeat (any_goals first
    | with_reducible assumption
    | with_reducible apply serveLow_held
    | with_reducible apply serveMid_held
    | with_reducible apply serveHigh_held
    | with_reducible apply held_ite
    | with_reducible apply after_done
    | with_reducible apply after_hold
    | with_reducible apply after_replyHold
    | with_reducible apply after_ite
    | (fail_if_no_progress with_reducible refine held_upd ?_ rfl rfl rfl rfl rfl rfl rfl rfl rfl rfl rfl)
    | split
    | dsimp only
    | intro _)

theorem State.countPol_held (p : PolId) (f : PolCounters → PolCounters) (s : State) (hH : Held F A B s) :
    Held F A B (State.countPol p f s) := by
  unfold State.countPol
  try dsimp only
  repeat (any_goals first
    | with_reducible assumption
    | exact id
    | exact fun _ => rfl
    | exact fun hq => Polder.emptied_queuesWf hq rfl rfl rfl rfl
    | with_reducible refine State.modPol_held ?_ ?_
    | (fail_if_no_progress with_reducible refine held_upd ?_ rfl rfl rfl rfl rfl rfl rfl rfl rfl rfl rfl)
    | split
    | dsimp only
    | intro _)

theorem State.admitTagged_held (pk : Packet) (b : PacketBody) (n : Nat) (key : BitVec 128) (s : State) (h : Held F A B s) :
    Held F A B (State.admitTagged pk b n key s) := by
  unfold State.admitTagged
  extract_lets p q gap busy
  have hg : Held F A B gap := State.untagged_held _ _ _ _ _ _ (State.countPol_held _ _ _ h)
  have hb : Held F A B busy := State.untagged_held _ _ _ _ _ _ (State.countPol_held _ _ _ h)
  clear_value gap busy
  refine held_ite hg ?_
  split
  · refine held_ite (State.countPol_held _ _ _ h) (held_ite hg ?_)
    split
    · exact hb
    · rename_i hq
      exact State.enqueue_held _ _ h (show q.queue.length < 8 by unfold Polder.queued at hq; omega)
  · split
    · exact hb
    · rename_i hq
      exact State.enqueue_held _ _ (State.admitCommand_held _ _ h) (by rw [State.admitCommand_queue]; exact State.queueClosed_room s _ hq)


theorem State.intakeStep_held (pk : Packet) (s : State) (h : Held F A B s) : Held F A B (State.intakeStep pk s) := by
  have hu : ∀ p f seq st n path, Held F A B ((s.countPol p f).untagged p seq st n path) :=
    fun p f _ _ _ _ => State.untagged_held _ _ _ _ _ _ (State.countPol_held p f s h)
  unfold State.intakeStep
  extract_lets p body answer
  refine held_ite (State.countPol_held _ _ _ h) (held_ite (State.untagged_held _ _ _ _ _ _ h) (held_ite (State.untagged_held _ _ _ _ _ _ h) ?_))
  split
  · split
    · exact hu _ _ _ _ _ _
    · rename_i hq
      exact State.enqueue_held _ _ h (by unfold Polder.queued at hq; omega)
  · split
    · exact State.admitTagged_held _ _ _ _ _ h
    · exact hu _ _ _ _ _ _


theorem State.runIntake_held (p : PolId) (s : State) (h : Held F A B s) : Held F A B (State.runIntake p s) := by
  refine foldl_held _ _ (State.modPol_held h fun hq => ?_) fun _ _ hs => State.intakeStep_held _ _ hs
  rw [Polder.queuesWf_iff] at hq ⊢
  exact ⟨Nat.zero_le _, hq.2⟩


theorem State.serveDuplicate_held (e : QEntry) (s : State) (hH : Held F A B s) :
    Held F A B (State.serveDuplicate e s) := by
  unfold State.serveDuplicate
  try dsimp only
  repeat (any_goals first
    | with_reducible assumption
    | with_reducible apply State.queueReply_held
    | with_reducible apply State.untagged_held
    | with_reducible apply State.countPol_held
    | (fail_if_no_progress with_reducible refine held_upd ?_ rfl rfl rfl rfl rfl rfl rfl rfl rfl rfl rfl)
    | split
    | dsimp only
    | intro _)

theorem State.serveGone_held (e : QEntry) (s : State) (hH : Held F A B s) :
    Held F A B (State.serveGone e s) := by
  unfold State.serveGone
  try dsimp only
  repeat (any_goals first
    | with_reducible assumption
    | with_reducible apply State.queueReply_held
    | with_reducible apply State.untagged_held
    | with_reducible apply held_ite
    | (fail_if_no_progress with_reducible refine held_upd ?_ rfl rfl rfl rfl rfl rfl rfl rfl rfl rfl rfl)
    | split
    | dsimp only
    | intro _)

theorem State.serveEntry_held (e : QEntry) (s : State) (hH : Held F A B s) :
    Held F A B (State.serveEntry e s) := by
  unfold State.serveEntry
  try dsimp only
  repeat (any_goals first
    | with_reducible assumption
    | with_reducible apply serveWith_held
    | with_reducible apply State.serveAnswer_held
    | with_reducible apply serveOpcode_held
    | with_reducible apply State.serveDuplicate_held
    | with_reducible apply State.serveGone_held
    | with_reducible apply held_ite
    | (fail_if_no_progress with_reducible refine held_upd ?_ rfl rfl rfl rfl rfl rfl rfl rfl rfl rfl rfl)
    | split
    | dsimp only
    | intro _)

theorem State.serveHead_held (p : PolId) (s : State) (h : Held F A B s) : Held F A B (State.serveHead p s) := by
  unfold State.serveHead
  dsimp only
  refine held_ite h ?_
  split
  · split
    · have hd := State.deliver_held p (by assumption : Serving).entry (by assumption : Answer) s h
      generalize State.deliver _ _ _ _ = x at hd ⊢
      exact held_ite (State.modPol_held hd id) h
    · exact held_ite (State.serveEntry_held _ _ (State.modPol_held h id)) h
  · split
    · exact h
    · rename_i e rest hq
      refine held_ite (State.drawn_held _ (State.modPol_held h id)) (State.serveEntry_held _ _ (State.modPol_held (State.drawn_held _ h) fun hb => ?_))
      rw [Polder.queuesWf_iff] at hb ⊢
      have hl : (s.pol p).queue.length ≤ 8 := hb.2.1
      rw [hq] at hl
      exact ⟨hb.1, Nat.le_of_succ_le hl, hb.2.2⟩


theorem State.startRound_held (s : State) (hH : Held F A B s) :
    Held F A B (State.startRound s) := by
  unfold State.startRound
  try dsimp only
  repeat (any_goals first
    | with_reducible assumption
    | (fail_if_no_progress with_reducible refine held_upd ?_ rfl rfl rfl rfl rfl rfl rfl rfl rfl rfl rfl)
    | split
    | dsimp only
    | intro _)

theorem State.marginSlice_held (s : State) (hH : Held F A B s) :
    Held F A B (State.marginSlice s) := by
  unfold State.marginSlice
  try dsimp only
  repeat (any_goals first
    | with_reducible assumption
    | with_reducible apply State.drawn_held
    | with_reducible apply State.finishBist_held
    | with_reducible apply held_ite
    | (fail_if_no_progress with_reducible refine held_upd ?_ rfl rfl rfl rfl rfl rfl rfl rfl rfl rfl rfl)
    | split
    | dsimp only
    | intro _)

theorem execServiceSlice_held (p : PolId) (s : State) (hH : Held F A B s) :
    HeldOut F A B (execServiceSlice p s) := by
  unfold execServiceSlice
  try dsimp only
  repeat (any_goals first
    | with_reducible assumption
    | with_reducible apply State.issueAll_held
    | with_reducible apply State.closeSlice_held
    | with_reducible apply State.runIntake_held
    | with_reducible apply State.serveHead_held
    | with_reducible apply State.startRound_held
    | with_reducible apply State.marginSlice_held
    | with_reducible apply held_ite
    | with_reducible apply heldOut_next
    | with_reducible apply heldOut_fault
    | with_reducible apply heldOut_ite
    | (fail_if_no_progress with_reducible refine held_upd ?_ rfl rfl rfl rfl rfl rfl rfl rfl rfl rfl rfl)
    | split
    | dsimp only
    | intro _)

theorem State.trafficWake_intake (path : Path) (s : State) (p : PolId) : ((s.trafficWake path).pol p) = s.pol p := by
  unfold State.trafficWake State.latchWake
  cases path <;> (dsimp only; repeat' split) <;> rfl

theorem State.arrive_held (pk : Packet) (s : State) (h : Held F A B s) : Held F A B (State.arrive pk s) := by
  unfold State.arrive
  refine held_ite h (held_ite (State.bindMiss_held _ h) ?_)
  have h1 := State.trafficWake_held pk.path s h
  dsimp only
  split
  · exact State.countPol_held _ _ _ h1
  · rename_i hq
    exact State.intake_held _ _ h1 (by omega)


theorem execPacketArrival_held (pk : Packet) (s : State) (hH : Held F A B s) :
    HeldOut F A B (execPacketArrival pk s) := by
  unfold execPacketArrival
  try dsimp only
  repeat (any_goals first
    | with_reducible assumption
    | with_reducible apply State.countPort_held
    | with_reducible apply State.arrive_held
    | with_reducible apply held_ite
    | with_reducible apply heldOut_next
    | with_reducible apply heldOut_fault
    | with_reducible apply heldOut_ite
    | (fail_if_no_progress with_reducible refine held_upd ?_ rfl rfl rfl rfl rfl rfl rfl rfl rfl rfl rfl)
    | split
    | dsimp only
    | intro _)

theorem execAssemblyTimeout_held (p : PolId) (s : State) (hH : Held F A B s) :
    HeldOut F A B (execAssemblyTimeout p s) := by
  unfold execAssemblyTimeout
  try dsimp only
  repeat (any_goals first
    | with_reducible assumption
    | exact id
    | exact fun _ => rfl
    | exact fun hq => Polder.emptied_queuesWf hq rfl rfl rfl rfl
    | with_reducible refine State.modPol_held ?_ ?_
    | with_reducible apply heldOut_next
    | with_reducible apply heldOut_fault
    | with_reducible apply heldOut_ite
    | (fail_if_no_progress with_reducible refine held_upd ?_ rfl rfl rfl rfl rfl rfl rfl rfl rfl rfl rfl)
    | split
    | dsimp only
    | intro _)

theorem execAnswerHoldExpiry_held (p : PolId) (s : State) (hH : Held F A B s) :
    HeldOut F A B (execAnswerHoldExpiry p s) := by
  unfold execAnswerHoldExpiry
  try dsimp only
  repeat (any_goals first
    | with_reducible assumption
    | with_reducible apply State.dropParts_held
    | with_reducible apply heldOut_next
    | with_reducible apply heldOut_fault
    | with_reducible apply heldOut_ite
    | (fail_if_no_progress with_reducible refine held_upd ?_ rfl rfl rfl rfl rfl rfl rfl rfl rfl rfl rfl)
    | split
    | dsimp only
    | intro _)

theorem execOfferGenerate_held (p : PolId) (s : State) (hH : Held F A B s) :
    HeldOut F A B (execOfferGenerate p s) := by
  unfold execOfferGenerate
  try dsimp only
  repeat (any_goals first
    | with_reducible assumption
    | with_reducible apply State.drawn_held
    | with_reducible apply held_ite
    | with_reducible apply heldOut_next
    | with_reducible apply heldOut_fault
    | with_reducible apply heldOut_ite
    | (fail_if_no_progress with_reducible refine held_upd ?_ rfl rfl rfl rfl rfl rfl rfl rfl rfl rfl rfl)
    | split
    | dsimp only
    | intro _)

theorem execKeyAgreementTimeout_held (s : State) (hH : Held F A B s) :
    HeldOut F A B (execKeyAgreementTimeout s) := by
  unfold execKeyAgreementTimeout
  try dsimp only
  repeat (any_goals first
    | with_reducible assumption
    | with_reducible apply State.abandonAgreement_held
    | with_reducible apply heldOut_next
    | with_reducible apply heldOut_fault
    | with_reducible apply heldOut_ite
    | (fail_if_no_progress with_reducible refine held_upd ?_ rfl rfl rfl rfl rfl rfl rfl rfl rfl rfl rfl)
    | split
    | dsimp only
    | intro _)

theorem State.leaveField_held (s : State) (hH : Held F A B s) :
    Held F A B (State.leaveField s) := by
  unfold State.leaveField
  try dsimp only
  repeat (any_goals first
    | with_reducible assumption
    | with_reducible apply State.answerHeld_held
    | with_reducible apply State.requestField_held
    | with_reducible apply State.awaitReset_held
    | exact id
    | exact fun _ => rfl
    | exact fun hq => Polder.emptied_queuesWf hq rfl rfl rfl rfl
    | with_reducible refine State.modPol_held ?_ ?_
    | with_reducible apply held_ite
    | (fail_if_no_progress with_reducible refine held_upd ?_ rfl rfl rfl rfl rfl rfl rfl rfl rfl rfl rfl)
    | split
    | dsimp only
    | intro _)

theorem execPolderErase_held (p : PolId) (s : State) (h : Held F A B s) : HeldOut F A B (execPolderErase p s) := by
  have h1 : Held F A B (s.modPol p Polder.emptied) := State.modPol_held h fun hq => Polder.emptied_queuesWf hq rfl rfl rfl rfl
  have h2 := State.rebindFrom_held s.hostPol _ (State.modTcmp_held (Fin.ofNat 16 (2 * p.val + 1)) (fun _ => Tcmp.zero) _
    (State.modTcmp_held (Fin.ofNat 16 (2 * p.val)) (fun _ => Tcmp.zero) _ (State.storeSeqs_held p _ (State.storePolder_held p _ h1))))
  unfold execPolderErase
  refine heldOut_next ?_
  split
  · exact held_ite (State.leaveField_held _ (State.ownerEvent_held _ _ _ (held_ite (State.resetDali_held _ _ h2) h2))) h
  · exact h


end Sys2Proof.Machine
end

