-- ==== Sys2Proof/Laws/Command.lean ====
section
/-! SUPPORT. What a command row does where its polder's slice is free: admission, the checks every command meets, and the outcome in its
place. -/

namespace Sys2Proof.Machine

variable {s : State} {e : QEntry}

/-! ### Admission (R349 step 11) -/

/-- Admission changes the polder it admits for and the item writes asked for, nothing else. -/
theorem State.admitCommand_eq (e : QEntry) (s : State) : ∃ w, s.admitCommand e =
    { s.modPol e.req.pol (fun q => { q with nextAdmit := q.nextAdmit + 1, path := some e.req.path, kept := none }) with
      arr := { s.arr with writes := w } } := by
  simp only [State.admitCommand, State.reserveSeq]
  split <;> split <;> exact ⟨_, rfl⟩

theorem State.taken_eq (s : State) (op : Byte) (r : Req) (params : List Byte) : ∃ w, s.taken op r params =
    { s.modPol r.pol (fun q => { q with nextAdmit := q.nextAdmit + 1, path := some r.path, kept := none }) with
      arr := { s.arr with writes := w } } := State.admitCommand_eq _ s

theorem State.taken_pol (s : State) (op : Byte) (r : Req) (params : List Byte) (p : PolId) : (s.taken op r params).pol p =
    if p = r.pol then { s.pol r.pol with nextAdmit := (s.pol r.pol).nextAdmit + 1, path := some r.path, kept := none } else s.pol p := by
  obtain ⟨w, h⟩ := s.taken_eq op r params
  rw [h]
  exact s.pol_modPol r.pol p (fun q => { q with nextAdmit := q.nextAdmit + 1, path := some r.path, kept := none })

@[simp] theorem State.taken_pending (s : State) (op : Byte) (r : Req) (params : List Byte) : (s.taken op r params).pending = s.pending := by
  obtain ⟨w, h⟩ := s.taken_eq op r params; rw [h]; rfl
@[simp] theorem State.taken_freeCtr (s : State) (op : Byte) (r : Req) (params : List Byte) : (s.taken op r params).freeCtr = s.freeCtr := by
  obtain ⟨w, h⟩ := s.taken_eq op r params; rw [h]; rfl
@[simp] theorem State.taken_clock (s : State) (op : Byte) (r : Req) (params : List Byte) : (s.taken op r params).clock = s.clock := by
  obtain ⟨w, h⟩ := s.taken_eq op r params; rw [h]; rfl
@[simp] theorem State.taken_power (s : State) (op : Byte) (r : Req) (params : List Byte) : (s.taken op r params).power = s.power := by
  obtain ⟨w, h⟩ := s.taken_eq op r params; rw [h]; rfl
@[simp] theorem State.taken_holdup (s : State) (op : Byte) (r : Req) (params : List Byte) : (s.taken op r params).holdup = s.holdup := by
  obtain ⟨w, h⟩ := s.taken_eq op r params; rw [h]; rfl
@[simp] theorem State.taken_wheel (s : State) (op : Byte) (r : Req) (params : List Byte) : (s.taken op r params).wheel = s.wheel := by
  obtain ⟨w, h⟩ := s.taken_eq op r params; rw [h]; rfl
@[simp] theorem State.taken_lands (s : State) (op : Byte) (r : Req) (params : List Byte) : (s.taken op r params).lands = s.lands := by
  obtain ⟨w, h⟩ := s.taken_eq op r params; rw [h]; rfl
@[simp] theorem State.taken_cols (s : State) (op : Byte) (r : Req) (params : List Byte) : (s.taken op r params).cols = s.cols := by
  obtain ⟨w, h⟩ := s.taken_eq op r params; rw [h]; rfl
@[simp] theorem State.taken_ka (s : State) (op : Byte) (r : Req) (params : List Byte) : (s.taken op r params).ka = s.ka := by
  obtain ⟨w, h⟩ := s.taken_eq op r params; rw [h]; rfl
@[simp] theorem State.taken_curSlice (s : State) (op : Byte) (r : Req) (params : List Byte) : (s.taken op r params).curSlice = s.curSlice := by
  obtain ⟨w, h⟩ := s.taken_eq op r params; rw [h]; rfl
@[simp] theorem State.taken_life (s : State) (op : Byte) (r : Req) (params : List Byte) : (s.taken op r params).life = s.life := by
  obtain ⟨w, h⟩ := s.taken_eq op r params; rw [h]; rfl
@[simp] theorem State.taken_bist (s : State) (op : Byte) (r : Req) (params : List Byte) : (s.taken op r params).bist = s.bist := by
  obtain ⟨w, h⟩ := s.taken_eq op r params; rw [h]; rfl
@[simp] theorem State.taken_therm (s : State) (op : Byte) (r : Req) (params : List Byte) : (s.taken op r params).therm = s.therm := by
  obtain ⟨w, h⟩ := s.taken_eq op r params; rw [h]; rfl
@[simp] theorem State.taken_host (s : State) (op : Byte) (r : Req) (params : List Byte) : (s.taken op r params).host = s.host := by
  obtain ⟨w, h⟩ := s.taken_eq op r params; rw [h]; rfl
@[simp] theorem State.taken_dali (s : State) (op : Byte) (r : Req) (params : List Byte) : (s.taken op r params).dali = s.dali := by
  obtain ⟨w, h⟩ := s.taken_eq op r params; rw [h]; rfl
@[simp] theorem State.taken_lineA (s : State) (op : Byte) (r : Req) (params : List Byte) : (s.taken op r params).lineA = s.lineA := by
  obtain ⟨w, h⟩ := s.taken_eq op r params; rw [h]; rfl
@[simp] theorem State.taken_lineB (s : State) (op : Byte) (r : Req) (params : List Byte) : (s.taken op r params).lineB = s.lineB := by
  obtain ⟨w, h⟩ := s.taken_eq op r params; rw [h]; rfl
@[simp] theorem State.taken_fab (s : State) (op : Byte) (r : Req) (params : List Byte) : (s.taken op r params).fab = s.fab := by
  obtain ⟨w, h⟩ := s.taken_eq op r params; rw [h]; rfl
@[simp] theorem State.taken_jtag (s : State) (op : Byte) (r : Req) (params : List Byte) : (s.taken op r params).jtag = s.jtag := by
  obtain ⟨w, h⟩ := s.taken_eq op r params; rw [h]; rfl
@[simp] theorem State.taken_restartCause (s : State) (op : Byte) (r : Req) (params : List Byte) : (s.taken op r params).restartCause = s.restartCause := by
  obtain ⟨w, h⟩ := s.taken_eq op r params; rw [h]; rfl
@[simp] theorem State.taken_carries (s : State) (op : Byte) (r : Req) (params : List Byte) : (s.taken op r params).carries = s.carries := by
  obtain ⟨w, h⟩ := s.taken_eq op r params; rw [h]; rfl
@[simp] theorem State.taken_early (s : State) (op : Byte) (r : Req) (params : List Byte) : (s.taken op r params).early = s.early := by
  obtain ⟨w, h⟩ := s.taken_eq op r params; rw [h]; rfl

/-- Which writes are asked for is all that admission changes in the array. -/
theorem State.taken_arr (s : State) (op : Byte) (r : Req) (params : List Byte) : ∃ w, (s.taken op r params).arr = { s.arr with writes := w } := by
  obtain ⟨w, h⟩ := s.taken_eq op r params
  exact ⟨w, by rw [h]⟩

/-! ### What admission leaves of the checks (R355, R356) -/

@[simp] theorem State.taken_state (s : State) (op : Byte) (r : Req) (params : List Byte) (p : PolId) :
    ((s.taken op r params).pol p).state = (s.pol p).state := by
  rw [State.taken_pol]; split
  · next h => subst h; rfl
  · rfl

@[simp] theorem State.taken_charter (s : State) (op : Byte) (r : Req) (params : List Byte) (p : PolId) :
    ((s.taken op r params).pol p).charter = (s.pol p).charter := by
  rw [State.taken_pol]; split
  · next h => subst h; rfl
  · rfl

@[simp] theorem State.taken_assembly (s : State) (op : Byte) (r : Req) (params : List Byte) (p : PolId) :
    ((s.taken op r params).pol p).assembly = (s.pol p).assembly := by
  rw [State.taken_pol]; split
  · next h => subst h; rfl
  · rfl

@[simp] theorem State.taken_expo (s : State) (op : Byte) (r : Req) (params : List Byte) (p : PolId) :
    ((s.taken op r params).pol p).expo = (s.pol p).expo := by
  rw [State.taken_pol]; split
  · next h => subst h; rfl
  · rfl

@[simp] theorem State.taken_shadow (s : State) (op : Byte) (r : Req) (params : List Byte) (p : PolId) :
    ((s.taken op r params).pol p).shadow = (s.pol p).shadow := by
  rw [State.taken_pol]; split
  · next h => subst h; rfl
  · rfl

@[simp] theorem State.taken_shadowFrame (s : State) (op : Byte) (r : Req) (params : List Byte) (p : PolId) :
    ((s.taken op r params).pol p).shadowFrame = (s.pol p).shadowFrame := by
  rw [State.taken_pol]; split
  · next h => subst h; rfl
  · rfl

@[simp] theorem State.taken_charterNext (s : State) (op : Byte) (r : Req) (params : List Byte) (p : PolId) :
    ((s.taken op r params).pol p).charterNext = (s.pol p).charterNext := by
  rw [State.taken_pol]; split
  · next h => subst h; rfl
  · rfl

@[simp] theorem State.taken_trigPending (s : State) (op : Byte) (r : Req) (params : List Byte) (p : PolId) :
    ((s.taken op r params).pol p).trigPending = (s.pol p).trigPending := by
  rw [State.taken_pol]; split
  · next h => subst h; rfl
  · rfl

@[simp] theorem State.taken_trigOverrun (s : State) (op : Byte) (r : Req) (params : List Byte) (p : PolId) :
    ((s.taken op r params).pol p).trigOverrun = (s.pol p).trigOverrun := by
  rw [State.taken_pol]; split
  · next h => subst h; rfl
  · rfl

@[simp] theorem State.taken_trigDropped (s : State) (op : Byte) (r : Req) (params : List Byte) (p : PolId) :
    ((s.taken op r params).pol p).trigDropped = (s.pol p).trigDropped := by
  rw [State.taken_pol]; split
  · next h => subst h; rfl
  · rfl

@[simp] theorem State.taken_occ (s : State) (op : Byte) (r : Req) (params : List Byte) (p : PolId) :
    ((s.taken op r params).pol p).occ = (s.pol p).occ := by
  rw [State.taken_pol]; split
  · next h => subst h; rfl
  · rfl

@[simp] theorem State.taken_lastEval (s : State) (op : Byte) (r : Req) (params : List Byte) (p : PolId) :
    ((s.taken op r params).pol p).lastEval = (s.pol p).lastEval := by
  rw [State.taken_pol]; split
  · next h => subst h; rfl
  · rfl

@[simp] theorem State.taken_cnt (s : State) (op : Byte) (r : Req) (params : List Byte) (p : PolId) :
    ((s.taken op r params).pol p).cnt = (s.pol p).cnt := by
  rw [State.taken_pol]; split
  · next h => subst h; rfl
  · rfl

@[simp] theorem State.taken_serving (s : State) (op : Byte) (r : Req) (params : List Byte) (p : PolId) :
    ((s.taken op r params).pol p).serving = (s.pol p).serving := by
  rw [State.taken_pol]; split
  · next h => subst h; rfl
  · rfl

@[simp] theorem State.taken_queue (s : State) (op : Byte) (r : Req) (params : List Byte) (p : PolId) :
    ((s.taken op r params).pol p).queue = (s.pol p).queue := by
  rw [State.taken_pol]; split
  · next h => subst h; rfl
  · rfl

@[simp] theorem State.taken_replyQ (s : State) (op : Byte) (r : Req) (params : List Byte) (p : PolId) :
    ((s.taken op r params).pol p).replyQ = (s.pol p).replyQ := by
  rw [State.taken_pol]; split
  · next h => subst h; rfl
  · rfl

@[simp] theorem State.taken_journal (s : State) (op : Byte) (r : Req) (params : List Byte) (p : PolId) :
    ((s.taken op r params).pol p).journal = (s.pol p).journal := by
  rw [State.taken_pol]; split
  · next h => subst h; rfl
  · rfl

@[simp] theorem State.taken_gone (s : State) (op : Byte) (r : Req) (params : List Byte) (p : PolId) :
    ((s.taken op r params).pol p).gone = (s.pol p).gone := by
  rw [State.taken_pol]; split
  · next h => subst h; rfl
  · rfl

@[simp] theorem State.taken_answerHold (s : State) (op : Byte) (r : Req) (params : List Byte) (p : PolId) :
    ((s.taken op r params).pol p).answerHold = (s.pol p).answerHold := by
  rw [State.taken_pol]; split
  · next h => subst h; rfl
  · rfl

@[simp] theorem State.taken_intake (s : State) (op : Byte) (r : Req) (params : List Byte) (p : PolId) :
    ((s.taken op r params).pol p).intake = (s.pol p).intake := by
  rw [State.taken_pol]; split
  · next h => subst h; rfl
  · rfl

@[simp] theorem State.taken_key (s : State) (op : Byte) (r : Req) (params : List Byte) (p : PolId) :
    ((s.taken op r params).pol p).key = (s.pol p).key := by
  rw [State.taken_pol]; split
  · next h => subst h; rfl
  · rfl

@[simp] theorem State.taken_mfg (s : State) (op : Byte) (r : Req) (params : List Byte) : (s.taken op r params).arr.mfg = s.arr.mfg := by
  obtain ⟨w, h⟩ := s.taken_arr op r params; rw [h]

@[simp] theorem State.taken_lives (s : State) (op : Byte) (r : Req) (params : List Byte) (p : PolId) :
    (s.taken op r params).lives p = s.lives p := by simp [State.lives]

@[simp] theorem State.taken_ownerActive (s : State) (op : Byte) (r : Req) (params : List Byte) :
    (s.taken op r params).ownerActive = s.ownerActive := by simp [State.ownerActive]

@[simp] theorem State.taken_tenantExists (s : State) (op : Byte) (r : Req) (params : List Byte) :
    (s.taken op r params).tenantExists = s.tenantExists := by simp [State.tenantExists]

@[simp] theorem State.taken_bindHolder (s : State) (op : Byte) (r : Req) (params : List Byte) (i : Nat) :
    (s.taken op r params).bindHolder i = s.bindHolder i := by simp [State.bindHolder]

@[simp] theorem State.taken_hostPol (s : State) (op : Byte) (r : Req) (params : List Byte) :
    (s.taken op r params).hostPol = s.hostPol := by simp [State.hostPol]

@[simp] theorem State.taken_claimant (s : State) (op : Byte) (r : Req) (params : List Byte) (p : PolId) :
    (s.taken op r params).claimant p = s.claimant p := by simp [State.claimant]

@[simp] theorem State.taken_permitted (s : State) (op : Byte) (r : Req) (params : List Byte) (sp : OpSpec) (e : QEntry) :
    (s.taken op r params).permitted sp e = s.permitted sp e := by simp [State.permitted]

@[simp] theorem State.taken_domOn (s : State) (op : Byte) (r : Req) (params : List Byte) (n : Nat) :
    (s.taken op r params).domOn n = s.domOn n := by simp [State.domOn]

@[simp] theorem State.taken_sequencing (s : State) (op : Byte) (r : Req) (params : List Byte) :
    (s.taken op r params).sequencing = s.sequencing := by simp [State.sequencing]

@[simp] theorem State.taken_lastFrame (s : State) (op : Byte) (r : Req) (params : List Byte) :
    (s.taken op r params).lastFrame = s.lastFrame := by simp [State.lastFrame]

@[simp] theorem State.taken_periods (s : State) (op : Byte) (r : Req) (params : List Byte) :
    (s.taken op r params).periods = s.periods := by simp [State.periods]

@[simp] theorem State.taken_nextRevolution (s : State) (op : Byte) (r : Req) (params : List Byte) :
    (s.taken op r params).nextRevolution = s.nextRevolution := by simp [State.nextRevolution]

@[simp] theorem State.taken_writeRefusal (s : State) (op : Byte) (r : Req) (params : List Byte) :
    (s.taken op r params).writeRefusal = s.writeRefusal := by simp [State.writeRefusal]

@[simp] theorem State.taken_blockUnderTest (s : State) (op : Byte) (r : Req) (params : List Byte) (n : Nat) :
    (s.taken op r params).blockUnderTest n = s.blockUnderTest n := by simp [State.blockUnderTest]

@[simp] theorem State.entryOf_params (s : State) (op : Byte) (r : Req) (params : List Byte) : (s.entryOf op r params).params = params := rfl
@[simp] theorem State.entryOf_req (s : State) (op : Byte) (r : Req) (params : List Byte) : (s.entryOf op r params).req = r := rfl
@[simp] theorem State.entryOf_plen (s : State) (op : Byte) (r : Req) (params : List Byte) : (s.entryOf op r params).plen = params.length := rfl
@[simp] theorem State.entryOf_esn (s : State) (op : Byte) (r : Req) (params : List Byte) : (s.entryOf op r params).esn = (s.pol r.pol).nextAdmit := rfl
@[simp] theorem State.entryOf_opcode (s : State) (op : Byte) (r : Req) (params : List Byte) : (s.entryOf op r params).opcode = op := rfl

@[simp] theorem Polder.openParts_taken (s : State) (op : Byte) (r : Req) (params : List Byte) (p : PolId) :
    ((s.taken op r params).pol p).openParts = (s.pol p).openParts := by simp [Polder.openParts]

@[simp] theorem State.taken_parts (s : State) (op : Byte) (r : Req) (params : List Byte) (p : PolId) :
    (s.taken op r params).parts p = s.parts p := by simp [State.parts]

@[simp] theorem Polder.claims_taken (s : State) (op : Byte) (r : Req) (params : List Byte) (p : PolId) :
    ((s.taken op r params).pol p).claims = (s.pol p).claims := by simp [Polder.claims]

@[simp] theorem Polder.nextCharter_taken (s : State) (op : Byte) (r : Req) (params : List Byte) (p : PolId) :
    ((s.taken op r params).pol p).nextCharter = (s.pol p).nextCharter := by simp [Polder.nextCharter]

@[simp] theorem State.taken_heldSlots (s : State) (op : Byte) (r : Req) (params : List Byte) (p : PolId) :
    (s.taken op r params).heldSlots p = s.heldSlots p := by simp [State.heldSlots]

@[simp] theorem State.taken_slotsAt (s : State) (op : Byte) (r : Req) (params : List Byte) (p : PolId) (f : W32) :
    (s.taken op r params).slotsAt p f = s.slotsAt p f := by simp [State.slotsAt]

@[simp] theorem State.taken_turnsFrame (s : State) (op : Byte) (r : Req) (params : List Byte) (p : PolId) (f : W32) :
    (s.taken op r params).turnsFrame p f = s.turnsFrame p f := by simp [State.turnsFrame]

@[simp] theorem State.taken_scheduleAt (s : State) (op : Byte) (r : Req) (params : List Byte) (f : W32) :
    (s.taken op r params).scheduleAt f = s.scheduleAt f := by simp [State.scheduleAt]

@[simp] theorem State.taken_rampSlotAt (s : State) (op : Byte) (r : Req) (params : List Byte) :
    (s.taken op r params).rampSlotAt = s.rampSlotAt := funext fun f => by simp [State.rampSlotAt]

@[simp] theorem State.taken_rampDueFrom (s : State) (op : Byte) (r : Req) (params : List Byte) (a f : W32) :
    (s.taken op r params).rampDueFrom a f = s.rampDueFrom a f := by simp [State.rampDueFrom]

@[simp] theorem State.taken_rampDue (s : State) (op : Byte) (r : Req) (params : List Byte) (f : W32) :
    (s.taken op r params).rampDue f = s.rampDue f := by simp [State.rampDue]

@[simp] theorem State.taken_nextSlotOf (s : State) (op : Byte) (r : Req) (params : List Byte) (p : PolId) :
    (s.taken op r params).nextSlotOf p = s.nextSlotOf p := by
  have h : (s.taken op r params).turnsFrame p = s.turnsFrame p := funext fun f => s.taken_turnsFrame op r params p f
  simp [State.nextSlotOf, h]

@[simp] theorem State.taken_nextDue (s : State) (op : Byte) (r : Req) (params : List Byte) (i n : Nat) (f : W32) :
    (s.taken op r params).nextDue i n f = s.nextDue i n f := by simp [State.nextDue]

@[simp] theorem State.taken_scheduleShown (s : State) (op : Byte) (r : Req) (params : List Byte) :
    (s.taken op r params).scheduleShown = s.scheduleShown := by
  have h : (s.taken op r params).rampDue = s.rampDue := funext fun f => s.taken_rampDue op r params f
  simp [State.scheduleShown, h]

@[simp] theorem State.taken_calKnown (s : State) (op : Byte) (r : Req) (params : List Byte) (f : W32) :
    (s.taken op r params).calKnown f = s.calKnown f := by simp [State.calKnown]

@[simp] theorem State.taken_shadowAt (s : State) (op : Byte) (r : Req) (params : List Byte) (p : PolId) :
    (s.taken op r params).shadowAt p = s.shadowAt p := by simp [State.shadowAt]

@[simp] theorem State.taken_settingFrame (s : State) (op : Byte) (r : Req) (params : List Byte) (p : PolId) :
    (s.taken op r params).settingFrame p = s.settingFrame p := by
  simp [State.settingFrame]

@[simp] theorem State.taken_windowOpen (s : State) (op : Byte) (r : Req) (params : List Byte) (p : PolId) :
    (s.taken op r params).windowOpen p = s.windowOpen p := by simp [State.windowOpen]

@[simp] theorem State.taken_trigOutcome (s : State) (op : Byte) (r : Req) (params : List Byte) (p : PolId) (c : TrigSrc) :
    (s.taken op r params).trigOutcome p c = s.trigOutcome p c := by simp [State.trigOutcome]

@[simp] theorem State.taken_lockReady (s : State) (op : Byte) (r : Req) (params : List Byte) (l : LockSrc) :
    (s.taken op r params).lockReady l = s.lockReady l := by cases l <;> simp [State.lockReady]

@[simp] theorem State.taken_lockPeriod (s : State) (op : Byte) (r : Req) (params : List Byte) (e : Expo) :
    (s.taken op r params).lockPeriod e = s.lockPeriod e := by
  simp only [State.lockPeriod]; cases e.lock <;> simp [State.refPeriod]

@[simp] theorem State.taken_withLock (s : State) (op : Byte) (r : Req) (params : List Byte) (e : Expo) :
    (s.taken op r params).withLock e = s.withLock e := by simp [State.withLock]

@[simp] theorem State.taken_expoPlaced (s : State) (op : Byte) (r : Req) (params : List Byte) (p : PolId) (e : Expo) :
    (s.taken op r params).expoPlaced p e = s.expoPlaced p e := by simp [State.expoPlaced, State.pixModes]

@[simp] theorem State.taken_expoResults (s : State) (op : Byte) (r : Req) (params : List Byte) (e : Expo) :
    (s.taken op r params).expoResults e = s.expoResults e := by simp [State.expoResults]

@[simp] theorem State.taken_slewRemain (s : State) (op : Byte) (r : Req) (params : List Byte) :
    (s.taken op r params).slewRemain = s.slewRemain := by simp [State.slewRemain]

@[simp] theorem State.taken_slewImposed (s : State) (op : Byte) (r : Req) (params : List Byte) :
    (s.taken op r params).slewImposed = s.slewImposed := by simp [State.slewImposed]

@[simp] theorem State.taken_syncCode (s : State) (op : Byte) (r : Req) (params : List Byte) :
    (s.taken op r params).syncCode = s.syncCode := by simp [State.syncCode]

@[simp] theorem State.taken_bistNamesPoint (s : State) (op : Byte) (r : Req) (params : List Byte) (i : Nat) :
    (s.taken op r params).bistNamesPoint i = s.bistNamesPoint i := by simp [State.bistNamesPoint]

@[simp] theorem State.taken_pwrRefusal (s : State) (op : Byte) (r : Req) (params : List Byte) (w c n : Nat) :
    (s.taken op r params).pwrRefusal w c n = s.pwrRefusal w c n := by simp [State.pwrRefusal]

/-- Admission asks for no item but the polder's SEQ. -/
theorem State.taken_requested? (s : State) (op : Byte) (r : Req) (params : List Byte) (i : Nat) (hi : i < 0x38) :
    (s.taken op r params).requested? i = s.requested? i := by
  have hn : ∀ (p : PolId) (v : Option StoredSeq), (ItemValue.seqs p v).item ≠ i := by
    intro p v; simp only [ItemValue.item]; omega
  simp only [State.taken, State.admitCommand, State.reserveSeq]
  split <;> split <;> (try rw [State.requested?_requestItem _ _ _ _ (hn _ _)]) <;> (try rw [State.requested?_requestItem _ _ _ _ (hn _ _)]) <;> rfl

@[simp] theorem State.taken_creationNow (s : State) (op : Byte) (r : Req) (params : List Byte) :
    (s.taken op r params).creationNow = s.creationNow := by
  obtain ⟨w, h⟩ := s.taken_arr op r params
  unfold State.creationNow
  rw [s.taken_requested? op r params 0x20 (by decide), h]

@[simp] theorem State.taken_bootWanted (s : State) (op : Byte) (r : Req) (params : List Byte) :
    (s.taken op r params).bootWanted = s.bootWanted := by
  obtain ⟨w, h⟩ := s.taken_arr op r params
  unfold State.bootWanted
  rw [s.taken_requested? op r params 0x12 (by decide), h, State.taken_life]

@[simp] theorem State.taken_fabricWanted (s : State) (op : Byte) (r : Req) (params : List Byte) :
    (s.taken op r params).fabricWanted = s.fabricWanted := by
  obtain ⟨w, h⟩ := s.taken_arr op r params
  unfold State.fabricWanted
  rw [s.taken_requested? op r params 0x10 (by decide), h]

@[simp] theorem State.taken_daliWanted (s : State) (op : Byte) (r : Req) (params : List Byte) :
    (s.taken op r params).daliWanted = s.daliWanted := by
  obtain ⟨w, h⟩ := s.taken_arr op r params
  unfold State.daliWanted
  rw [s.taken_requested? op r params 0x13 (by decide), h]

@[simp] theorem State.taken_ownPolderStatus (s : State) (op : Byte) (r : Req) (params : List Byte) (p : PolId) :
    (s.taken op r params).polderStatus p = s.polderStatus p := by simp [State.polderStatus]

@[simp] theorem State.taken_createRefusal (s : State) (op : Byte) (r : Req) (params : List Byte) (bs : List Byte) :
    (s.taken op r params).createRefusal bs = s.createRefusal bs := by
  simp [State.createRefusal, State.takenSlots, State.bindTaken]

@[simp] theorem State.taken_update? (s : State) (op : Byte) (r : Req) (params : List Byte) (h : W16) :
    (s.taken op r params).update? h = s.update? h := by
  obtain ⟨w, e⟩ := s.taken_arr op r params
  simp [State.update?, e]

@[simp] theorem State.taken_updates (s : State) (op : Byte) (r : Req) (params : List Byte) :
    (s.taken op r params).arr.updates = s.arr.updates := by
  obtain ⟨w, e⟩ := s.taken_arr op r params; rw [e]

@[simp] theorem State.taken_running (s : State) (op : Byte) (r : Req) (params : List Byte) :
    (s.taken op r params).arr.running = s.arr.running := by
  obtain ⟨w, e⟩ := s.taken_arr op r params; rw [e]

@[simp] theorem State.taken_region (s : State) (op : Byte) (r : Req) (params : List Byte) (n : Nat) :
    (s.taken op r params).arr.region n = s.arr.region n := by
  obtain ⟨w, e⟩ := s.taken_arr op r params; rw [e]; rfl

@[simp] theorem State.taken_handleLost (s : State) (op : Byte) (r : Req) (params : List Byte) (h : W16) :
    (s.taken op r params).handleLost h = s.handleLost h := by
  obtain ⟨w, e⟩ := s.taken_arr op r params; simp [State.handleLost, e]

/-- Admission touches no assembly: the rule of R356 answers as before it, and clears what it cleared. -/
theorem State.taken_assemblyCheck (s : State) (op : Byte) (r : Req) (params : List Byte) (e : QEntry) :
    ((s.taken op r params).assemblyCheck e).1 = (s.assemblyCheck e).1 := by
  simp only [State.assemblyCheck, State.taken_assembly]
  split
  · rfl
  · split
    · split <;> rfl
    · split <;> rfl

/-- The assembly rule reads no lease. -/
theorem State.assemblyCheck_leases (s : State) (u : List Update) (l : List W16) (e : QEntry) (h : (s.assemblyCheck e).1 = none) :
    ({ s with arr := { s.arr with updates := u, lostHandles := l } } : State).assemblyCheck e =
      (none, { s with arr := { s.arr with updates := u, lostHandles := l } }) := by
  revert h
  simp only [State.assemblyCheck]
  show _ → (match (s.pol e.req.pol).assembly with | none => _ | some a => _) = _
  cases (s.pol e.req.pol).assembly with
  | none => exact fun _ => rfl
  | some a =>
    dsimp only
    split
    · split
      · intro h; cases h
      · exact fun _ => rfl
    · split
      · exact fun _ => rfl
      · intro h; cases h

/-- A refusal under R356 clears the assembly; otherwise the state stays. -/
theorem State.assemblyCheck_eq (s : State) (e : QEntry) : s.assemblyCheck e = (none, s) ∨
    ∃ st, s.assemblyCheck e = (some st, s.modPol e.req.pol (fun q => { q with assembly := none })) := by
  unfold State.assemblyCheck
  split
  · exact .inl rfl
  · dsimp only
    split
    · split
      · exact .inr ⟨_, rfl⟩
      · exact .inl rfl
    · split
      · exact .inl rfl
      · exact .inr ⟨_, rfl⟩

/-- A lease settled and renewed changes the open updates and the lost handles alone. -/
theorem State.renewed_eq (s : State) (p : PolId) (h : W16) : ∃ u l, s.renewed p h =
    { s with arr := { s.arr with updates := u, lostHandles := l } } := by
  unfold State.renewed State.leaseSettled State.renewLease ArrayS.loseUpdate
  split
  · split
    · split <;> exact ⟨_, _, rfl⟩
    · exact ⟨_, _, rfl⟩
  · exact ⟨s.arr.updates, s.arr.lostHandles, rfl⟩

/-! ### A command row -/

/-- The row of a command that is served now: admitted, then the outcome of its meaning in its place (R349, R352). -/
theorem runCommand_serves (op : Byte) (f : QEntry → State → CmdOut) (r : Req) (params : List Byte) (s : State)
    (h : s.servesNow r = true) : runCommand op f r params s = settle (s.entryOf op r params) (f (s.entryOf op r params) (s.taken op r params)) := by
  simp only [State.servesNow, Bool.and_eq_true, Bool.or_eq_true, beq_iff_eq, bne_iff_ne, Bool.not_eq_true'] at h
  obtain ⟨⟨⟨⟨⟨⟨⟨h1, h2⟩, h3⟩, h4⟩, h5⟩, h6⟩, h7⟩, h8⟩ := h
  have hb : ¬ (r.path = .host ∧ s.hostPol ≠ r.pol) := by
    rintro ⟨a, b⟩; rcases h3 with c | c
    · exact c a
    · exact b c
  obtain ⟨k, hk⟩ := Option.isSome_iff_exists.mp h5
  simp only [State.sliceFree, Bool.and_eq_true, decide_eq_true_eq, List.isEmpty_iff, Option.isNone_iff_eq_none] at h8
  obtain ⟨⟨⟨⟨i1, i2⟩, i3⟩, i4⟩, i5⟩ := h8
  have hs : (s.taken op r params).sliceFree r.pol = true := by
    simp only [State.sliceFree, State.taken_sequencing, i1, State.taken_power, State.taken_pol, if_true, i3, i4, i5]
    simpa using i2
  have hd : ((s.taken op r params).pol r.pol).state ≠ .dissolving := by rw [State.taken_state]; exact h7
  have he : s.entryOf op r params =
      { kind := .command, opcode := op, req := r, params := params, plen := params.length, esn := (s.pol r.pol).nextAdmit, key := k,
        raw := [] } := by simp [State.entryOf, hk]
  simp only [State.taken, he] at hs hd
  simp only [runCommand, h1, h2, hb, h4, hk, h6, Bool.not_true, Bool.false_eq_true, if_false]
  rw [if_pos hs]
  simp only [serveWith, State.taken, he, beq_iff_eq, hd, if_false]

theorem settle_done (s : State) (op : Byte) (r : Req) (params : List Byte) (a : Answer) (g : State → State) :
    settle (s.entryOf op r params) (.done a (g (s.taken op r params))) = s.finishes op r params a g := rfl

theorem settle_hold (s : State) (op : Byte) (r : Req) (params : List Byte) (rule : HoldRule) (a : Option Answer) (g : State → State) :
    settle (s.entryOf op r params) (.hold rule a (g (s.taken op r params))) = s.holds op r params rule a g := rfl

/-- A command that writes the array, in its place (R95, R420, R554, R620). -/
theorem settle_write (s : State) (op : Byte) (r : Req) (params : List Byte) (rule : HoldRule) (a : Answer) (base g : State → State)
    (hw : (base (s.taken op r params)).writeRefusal = s.writeRefusal)
    (hb : (base (s.taken op r params)).blockUnderTest 10 = s.blockUnderTest 10) :
    settle (s.entryOf op r params) (writeThen rule a (base (s.taken op r params)) g) = s.writes op r params base rule a g := by
  unfold writeThen State.writes
  rw [hw, hb]
  split
  · rfl
  · cases s.writeRefusal <;> rfl

/-- A command's outcome under a condition, branch by branch. -/
theorem settle_ite {e : QEntry} {x y : State} {a b : CmdOut} (c : Prop) [Decidable c] (ha : settle e a = x) (hb : settle e b = y) :
    settle e (if c then a else b) = if c then x else y := by split <;> assumption

/-- The same, with the condition's truth at hand in each branch. -/
theorem settle_cases {e : QEntry} {x y : State} {a b : CmdOut} (c : Prop) [Decidable c] (ha : c → settle e a = x) (hb : ¬ c → settle e b = y) :
    settle e (if c then a else b) = if c then x else y := by
  split
  · exact ha (by assumption)
  · exact hb (by assumption)

/-- A command's outcome with a condition that reads otherwise in the statement. -/
theorem settle_ite_iff {e : QEntry} {x y : State} {a b : CmdOut} (c d : Prop) [Decidable c] [Decidable d] (h : c ↔ d) (ha : settle e a = x)
    (hb : settle e b = y) : settle e (if c then a else b) = if d then x else y := by
  by_cases hc : c
  · rw [if_pos hc, if_pos (h.mp hc)]; exact ha
  · rw [if_neg hc, if_neg (fun hd => hc (h.mpr hd))]; exact hb

/-- The checks every command meets, on a state that has the lifecycle, MFG and issuers of the state the command came in (R355). -/
theorem checked_at (op : Byte) (sp : OpSpec) (own : QEntry → State → CmdOut) (r : Req) (params : List Byte) (s t : State)
    (hm : t.arr.mfg = s.arr.mfg) (hp : t.permitted sp (s.entryOf op r params) = s.permitted sp (s.entryOf op r params)) (hf : t.life = s.life) :
    checked sp own (s.entryOf op r params) t =
      match s.rowRefusal sp op r params with
      | some st => refuse st t
      | none =>
        match t.assemblyCheck (s.entryOf op r params) with
        | (some st, s') => refuse st s'
        | (none, s') => own (s.entryOf op r params) s' := by
  have hl : (s.entryOf op r params).params.length = (s.entryOf op r params).plen := rfl
  have ht : (s.entryOf op r params).params.take (s.entryOf op r params).plen = (s.entryOf op r params).params := by
    rw [← hl, List.take_length]
  have e1 : (s.entryOf op r params).params = params := rfl
  have e2 : (s.entryOf op r params).plen = params.length := rfl
  have e3 : (s.entryOf op r params).opcode = op := rfl
  unfold checked State.rowRefusal
  rw [hm, hp, hf, ht]
  simp only [e1, e2, e3, Nat.lt_irrefl, decide_false, Bool.false_or]
  split
  · rfl
  · split
    · rfl
    · split
      · rfl
      · split
        · rfl
        · split <;> rfl

/-- The same on the state once admitted. -/
theorem checked_taken (op : Byte) (sp : OpSpec) (own : QEntry → State → CmdOut) (r : Req) (params : List Byte) (s : State) :
    checked sp own (s.entryOf op r params) (s.taken op r params) =
      match s.rowRefusal sp op r params with
      | some st => refuse st (s.taken op r params)
      | none =>
        match (s.taken op r params).assemblyCheck (s.entryOf op r params) with
        | (some st, s') => refuse st s'
        | (none, s') => own (s.entryOf op r params) s' :=
  checked_at op sp own r params s _ (State.taken_mfg _ _ _ _) (State.taken_permitted _ _ _ _ _ _) (State.taken_life _ _ _ _)

/-- A command row that runs: the outcome of its own meaning, in the state once admitted, takes its place. -/
theorem command_runs (op : Byte) (sp : OpSpec) (own : QEntry → State → CmdOut) (hr : rowOf op = some sp) (r : Req) (params : List Byte)
    (s : State) (h : s.runs op r params = true) :
    runCommand op (checked sp own) r params s = settle (s.entryOf op r params) (own (s.entryOf op r params) (s.taken op r params)) := by
  simp only [State.runs, State.passes, hr, Bool.and_eq_true, Option.isNone_iff_eq_none] at h
  obtain ⟨h1, h2, h3⟩ := h
  rw [runCommand_serves _ _ _ _ _ h1, checked_taken, h2]
  rcases (s.taken op r params).assemblyCheck_eq (s.entryOf op r params) with e | ⟨st, e⟩
  · simp only [e]
  · have := s.taken_assemblyCheck op r params (s.entryOf op r params)
    rw [h3, e] at this
    cases this

/-- A command row of an update that runs: its lease is settled and renewed, then its own meaning. -/
theorem command_renews (op : Byte) (sp : OpSpec) (own : QEntry → State → CmdOut) (hr : rowOf op = some sp) (r : Req) (params : List Byte)
    (s : State) (h : s.runs op r params = true) :
    runCommand op (renewing (checked sp own)) r params s =
      settle (s.entryOf op r params) (own (s.entryOf op r params) ((s.taken op r params).renewed r.pol r.handle)) := by
  simp only [State.runs, State.passes, hr, Bool.and_eq_true, Option.isNone_iff_eq_none] at h
  obtain ⟨h1, h2, h3⟩ := h
  rw [runCommand_serves _ _ _ _ _ h1]
  show settle _ (checked sp own (s.entryOf op r params) ((s.taken op r params).renewed r.pol r.handle)) = _
  have hm := State.taken_mfg s op r params
  have hp := State.taken_permitted s op r params sp (s.entryOf op r params)
  have hl := State.taken_life s op r params
  have ha := (s.taken_assemblyCheck op r params (s.entryOf op r params)).trans h3
  generalize s.taken op r params = t at hm hp hl ha ⊢
  obtain ⟨u, l, e⟩ := t.renewed_eq r.pol r.handle
  have hb : (t.renewed r.pol r.handle).assemblyCheck (s.entryOf op r params) = (none, t.renewed r.pol r.handle) := by
    rw [e]
    exact t.assemblyCheck_leases u l _ ha
  rw [checked_at op sp own r params s _ (by rw [e]; exact hm) (by rw [e]; exact hp) (by rw [e]; exact hl), h2, hb]

/-- What a command that runs has passed: its row's own demands. -/
theorem State.runs_row (op : Byte) (sp : OpSpec) (hr : rowOf op = some sp) (r : Req) (params : List Byte) (s : State)
    (h : s.runs op r params = true) : s.servesNow r = true ∧ sp.plenOk params.length = true ∧
      reservedClear (sp.reserved params.length) params = true ∧ s.permitted sp (s.entryOf op r params) = true ∧
      sp.states.contains s.life.shadow = true := by
  simp only [State.runs, State.passes, hr, Bool.and_eq_true, Option.isNone_iff_eq_none] at h
  obtain ⟨h1, h2, -⟩ := h
  unfold State.rowRefusal at h2
  split at h2; · cases h2
  split at h2; · cases h2
  split at h2; · cases h2
  split at h2; · cases h2
  split at h2; · cases h2
  rename_i a b c d
  exact ⟨h1, by simpa using a, by simpa using b, by simpa using c, by simpa using d⟩

/-- A command that only the owner may issue runs for the owner. -/
theorem State.runs_owner (op : Byte) (sp : OpSpec) (hr : rowOf op = some sp) (hi : sp.issuer = .owner) (r : Req) (params : List Byte) (s : State)
    (h : s.runs op r params = true) : r.pol = owner := by
  have := (s.runs_row op sp hr r params h).2.2.2.1
  simp only [State.permitted, hi, Bool.and_eq_true, beq_iff_eq] at this
  exact this.1

/-- A command row that its row's checks refuse. -/
theorem command_refused (op : Byte) (sp : OpSpec) (own : QEntry → State → CmdOut) (r : Req) (params : List Byte) (s : State) (st : Status)
    (h : s.servesNow r = true) (hx : s.rowRefusal sp op r params = some st) :
    runCommand op (checked sp own) r params s = s.refuses op r params st := by
  rw [runCommand_serves _ _ _ _ _ h, checked_taken, hx]; rfl

/-- A command row that the assembly rule of R356 refuses: the assembly is gone. -/
theorem command_misassembled (op : Byte) (sp : OpSpec) (own : QEntry → State → CmdOut) (r : Req) (params : List Byte) (s : State) (st : Status)
    (h : s.servesNow r = true) (hx : s.rowRefusal sp op r params = none) (ha : (s.assemblyCheck (s.entryOf op r params)).1 = some st) :
    runCommand op (checked sp own) r params s = s.finishes op r params { status := st, effectFrame := none, results := [] }
      (fun a => a.modPol r.pol (fun q => { q with assembly := none })) := by
  rw [runCommand_serves _ _ _ _ _ h, checked_taken, hx]
  rw [← s.taken_assemblyCheck op r params] at ha
  rcases (s.taken op r params).assemblyCheck_eq (s.entryOf op r params) with e | ⟨st', e⟩
  · rw [e] at ha; cases ha
  · rw [e] at ha ⊢; cases ha; rfl

end Sys2Proof.Machine
end

