-- ==== Sys2Proof/Laws/Frames.lean ====
section
/-! SUPPORT. What serialising and receiving a line frame rests on: bytes of values, bits of bytes, and the lengths of checks and
CMACs. -/

namespace Sys2Proof.Machine

/-- A value takes as many bytes as it is written in. -/
@[simp] theorem leBytes_length (n v : Nat) : (leBytes n v).length = n := by
  induction n generalizing v with
  | zero => rfl
  | succ n ih => simp [leBytes, ih]

/-- The bytes of a value give it back. -/
theorem leNat_leBytes (n v : Nat) : leNat (leBytes n v) = v % 256 ^ n := by
  induction n generalizing v with
  | zero => simp [leBytes, leNat, Nat.mod_one]
  | succ n ih =>
    rw [leBytes, leNat, ih, BitVec.toNat_ofNat, show 256 ^ (n + 1) = 256 * 256 ^ n from by ring, Nat.mod_mul]

/-- The bits of a byte give it back (R470). -/
theorem lineBytes_bits (b : Byte) (rest : List Bool) :
    lineBytes ((List.range 8).map (fun i => b.toNat.testBit i) ++ rest) = b :: lineBytes rest := by
  have h : ∀ c : Byte, BitVec.ofNat 8 (b2n (c.toNat.testBit 0) + 2 * b2n (c.toNat.testBit 1) + 4 * b2n (c.toNat.testBit 2) +
      8 * b2n (c.toNat.testBit 3) + 16 * b2n (c.toNat.testBit 4) + 32 * b2n (c.toNat.testBit 5) + 64 * b2n (c.toNat.testBit 6) +
      128 * b2n (c.toNat.testBit 7)) = c := by decide
  exact congrArg (· :: lineBytes rest) (h b)

/-- Bytes put on the line are read back (R470). -/
@[simp] theorem lineBytes_lineBits (bs : List Byte) : lineBytes (lineBits bs) = bs := by
  induction bs with
  | nil => rfl
  | cons b bs ih =>
    have h : lineBits (b :: bs) = (List.range 8).map (fun i => b.toNat.testBit i) ++ lineBits bs := rfl
    rw [h, lineBytes_bits, ih]

/-- Inverted bits spell inverted bytes (R469). -/
theorem lineBits_not (bs : List Byte) : (lineBits bs).map (fun b => !b) = lineBits (bs.map (fun b => ~~~b)) := by
  have h : ∀ c : Byte, ((List.range 8).map (fun i => c.toNat.testBit i)).map (fun b => !b) =
      (List.range 8).map (fun i => (~~~c).toNat.testBit i) := by decide
  induction bs with
  | nil => rfl
  | cons b bs ih =>
    have h1 : lineBits (b :: bs) = (List.range 8).map (fun i => b.toNat.testBit i) ++ lineBits bs := rfl
    rw [h1, List.map_append, ih, h]
    rfl

/-- One bit of the CRC keeps it within 32 bits. -/
theorem crcBit_lt (c : Nat) (h : c < 2 ^ 32) : crcBit c < 2 ^ 32 := by
  unfold crcBit
  split
  · exact Nat.xor_lt_two_pow (by omega) (by decide)
  · omega

/-- One byte of the CRC keeps it within 32 bits. -/
theorem crcByte_lt (c : Nat) (b : Byte) (h : c < 2 ^ 32) : crcByte c b < 2 ^ 32 := by
  have hb : c ^^^ b.toNat < 2 ^ 32 := Nat.xor_lt_two_pow h (by have := b.isLt; omega)
  exact crcBit_lt _ (crcBit_lt _ (crcBit_lt _ (crcBit_lt _ (crcBit_lt _ (crcBit_lt _ (crcBit_lt _ (crcBit_lt _ hb)))))))

/-- The CRC-32 has 32 bits (R470). -/
theorem crc32_lt (bs : List Byte) : crc32 bs < 2 ^ 32 := by
  have h : ∀ (l : List Byte) (c : Nat), c < 2 ^ 32 → l.foldl crcByte c < 2 ^ 32 := by
    intro l
    induction l with
    | nil => exact fun c hc => hc
    | cons b l ih => exact fun c hc => ih _ (crcByte_lt c b hc)
  exact Nat.xor_lt_two_pow (h bs _ (by decide)) (by decide)

/-- Lists combined place by place are as long as the shorter. -/
theorem xorLists_length (a b : List Nat) : (xorLists a b).length = min a.length b.length := by simp [xorLists]

/-- MixColumns keeps the length. -/
theorem mixColumns_length (l : List Nat) : (mixColumns l).length = l.length := by
  fun_induction mixColumns l with
  | case1 a b c d rest t ih => simp [ih]
  | case2 l => rfl

/-- The next round key of a whole one is whole. -/
theorem nextRoundKey_length (rcon : Nat) (k : List Nat) (h : k.length = 16) : (nextRoundKey rcon k).length = 16 := by
  simp [nextRoundKey, xorLists_length, h]

/-- AES rounds keep the block's length. -/
theorem aesRounds_length (n rcon : Nat) (k st : List Nat) (hk : k.length = 16) (hs : st.length = 16) : (aesRounds n rcon k st).length = 16 := by
  induction n generalizing rcon k st with
  | zero => exact hs
  | succ n ih =>
    refine ih _ _ _ (nextRoundKey_length _ _ hk) ?_
    rw [xorLists_length, nextRoundKey_length _ _ hk]
    split <;> simp [mixColumns_length, shiftRows]

/-- A block enciphered is a block. -/
theorem aes128_length (k b : List Nat) (hk : k.length = 16) (hb : b.length = 16) : (aes128 k b).length = 16 :=
  aesRounds_length _ _ _ _ hk (by rw [xorLists_length, hk, hb]; rfl)

/-- A key has 16 bytes. -/
@[simp] theorem keyOctets_length (key : BitVec 128) : (keyOctets key).length = 16 := by simp [keyOctets, octets]

/-- A MAC over whole blocks is a block. -/
theorem cbcMac_length (k : List Nat) (n : Nat) (l c : List Nat) (hk : k.length = 16) (hc : c.length = 16) (hl : l.length = 16 * n) :
    (cbcMac k n l c).length = 16 := by
  induction n generalizing l c with
  | zero => exact hc
  | succ n ih =>
    refine ih _ _ (aes128_length _ _ hk ?_) ?_
    · rw [xorLists_length, List.length_take, hc, hl]; omega
    · rw [List.length_drop, hl]; omega

/-- A CMAC is a block. -/
theorem cmac_length (k msg : List Nat) (hk : k.length = 16) : (cmac k msg).length = 16 := by
  have hd : ∀ l, (cmacDouble l).length = 16 := by intro l; simp [cmacDouble, octets, beBytes]
  unfold cmac
  refine cbcMac_length _ _ _ _ hk (by simp) ?_
  by_cases h0 : msg.length = 0
  · simp [xorLists_length, hd, blockPad, List.eq_nil_of_length_eq_zero h0]
  · simp only [h0, if_false]
    by_cases h : msg.length % 16 = 0
    · simp only [h, h0, ne_eq, not_false_eq_true, and_self, if_true, List.length_append, List.length_take, List.length_drop, xorLists_length, hd]
      omega
    · simp only [h, h0, ne_eq, not_false_eq_true, false_and, if_false, List.length_append, List.length_take, List.length_drop, xorLists_length, hd,
        blockPad, List.length_cons, List.length_nil, List.length_replicate]
      omega

/-- The CMAC field of a frame has 8 bytes (R507). -/
@[simp] theorem frameMac_length (key : Option (BitVec 128)) (cycle : W32) (head payload : List Byte) :
    (frameMac key cycle head payload).length = 8 := by
  unfold frameMac
  split
  · simp [ofOctets, cmac_length]
  · simp

/-- ADDR, TYPE and LENGTH take 5 bytes (R471). -/
@[simp] theorem frameHead_length (dst src : BitVec 12) (kind : Nat) (slotted : Bool) (fseq : BitVec 3) (len : Nat) :
    (frameHead dst src kind slotted fseq len).length = 5 := by simp [frameHead]

end Sys2Proof.Machine
end

