-- ==== Sys2Proof/Laws/HeldColumns.lean ====
section
/-! SUPPORT. What the operations of Machine/Columns.lean keep (Laws/Held.lean). -/

namespace Sys2Proof.Machine

variable {F : FuseBlock} {A B : Prop}

set_option linter.unusedTactic false
set_option linter.unreachableTactic false
set_option linter.unusedVariables false

theorem State.colFail_held (kind means c row : Nat) (f : W32) (s : State) (hH : Held F A B s) :
    Held F A B (State.colFail kind means c row f s) := by
  unfold State.colFail
  try dsimp only
  repeat (any_goals first
    | with_reducible assumption
    | with_reducible apply State.eventAt_held
    | (fail_if_no_progress with_reducible refine held_upd ?_ rfl rfl rfl rfl rfl rfl rfl rfl rfl rfl rfl)
    | split
    | dsimp only
    | intro _)

theorem State.declareDefect_held (c cause : Nat) (f : W32) (s : State) (hH : Held F A B s) :
    Held F A B (State.declareDefect c cause f s) := by
  unfold State.declareDefect
  try dsimp only
  repeat (any_goals first
    | with_reducible assumption
    | with_reducible apply State.colFail_held
    | with_reducible apply held_ite
    | (fail_if_no_progress with_reducible refine held_upd ?_ rfl rfl rfl rfl rfl rfl rfl rfl rfl rfl rfl)
    | split
    | dsimp only
    | intro _)

theorem State.declareReplaced_held (c means row : Nat) (f : W32) (s : State) (hH : Held F A B s) :
    Held F A B (State.declareReplaced c means row f s) := by
  unfold State.declareReplaced
  try dsimp only
  repeat (any_goals first
    | with_reducible assumption
    | with_reducible apply State.colFail_held
    | (fail_if_no_progress with_reducible refine held_upd ?_ rfl rfl rfl rfl rfl rfl rfl rfl rfl rfl rfl)
    | split
    | dsimp only
    | intro _)

theorem State.declareSpare_held (g : Nat) (f : W32) (s : State) (hH : Held F A B s) :
    Held F A B (State.declareSpare g f s) := by
  unfold State.declareSpare
  try dsimp only
  repeat (any_goals first
    | with_reducible assumption
    | with_reducible apply State.colFail_held
    | (fail_if_no_progress with_reducible refine held_upd ?_ rfl rfl rfl rfl rfl rfl rfl rfl rfl rfl rfl)
    | split
    | dsimp only
    | intro _)

theorem State.declareColumns_held (f : W32) (l : List Nat) (s : State) (h : Held F A B s) :
    Held F A B (State.declareColumns f l s) := by
  induction l generalizing s with
  | nil => exact h
  | cons c l ih => exact held_ite (ih _ (State.declareReplaced_held _ _ _ _ _ h)) (ih _ (State.declareDefect_held _ _ _ _ h))


theorem State.checkGroup_held (depth10 : Bool) (conv : List CheckConv) (f : W32) (s : State) (g : Nat) (hH : Held F A B s) :
    Held F A B (State.checkGroup depth10 conv f s g) := by
  unfold State.checkGroup
  try dsimp only
  repeat (any_goals first
    | with_reducible assumption
    | with_reducible apply State.declareDefect_held
    | with_reducible apply State.declareSpare_held
    | with_reducible apply State.declareColumns_held
    | with_reducible apply held_ite
    | (fail_if_no_progress with_reducible refine held_upd ?_ rfl rfl rfl rfl rfl rfl rfl rfl rfl rfl rfl)
    | split
    | dsimp only
    | intro _)

theorem State.storeColumns_held (before : ColStateItem) (s : State) (hH : Held F A B s) :
    Held F A B (State.storeColumns before s) := by
  unfold State.storeColumns
  try dsimp only
  repeat (any_goals first
    | with_reducible assumption
    | with_reducible apply State.requestItem_held
    | with_reducible apply held_ite
    | (fail_if_no_progress with_reducible refine held_upd ?_ rfl rfl rfl rfl rfl rfl rfl rfl rfl rfl rfl)
    | split
    | dsimp only
    | intro _)

theorem State.calReject_held (kind reason n : Nat) (f : W32) (s : State) (hH : Held F A B s) :
    Held F A B (State.calReject kind reason n f s) := by
  unfold State.calReject
  try dsimp only
  repeat (any_goals first
    | with_reducible assumption
    | with_reducible apply State.ownerEvent_held
    | (fail_if_no_progress with_reducible refine held_upd ?_ rfl rfl rfl rfl rfl rfl rfl rfl rfl rfl rfl)
    | split
    | dsimp only
    | intro _)

theorem State.writeTrims_held (s : State) (hH : Held F A B s) :
    Held F A B (State.writeTrims s) := by
  unfold State.writeTrims
  try dsimp only
  repeat (any_goals first
    | with_reducible assumption
    | with_reducible apply State.requestItem_held
    | with_reducible apply held_ite
    | (fail_if_no_progress with_reducible refine held_upd ?_ rfl rfl rfl rfl rfl rfl rfl rfl rfl rfl rfl)
    | split
    | dsimp only
    | intro _)

theorem State.applyColumns_held (s : State) (hH : Held F A B s) :
    Held F A B (State.applyColumns s) := by
  unfold State.applyColumns
  try dsimp only
  repeat (any_goals first
    | with_reducible assumption
    | (fail_if_no_progress with_reducible refine held_upd ?_ rfl rfl rfl rfl rfl rfl rfl rfl rfl rfl rfl)
    | split
    | dsimp only
    | intro _)

end Sys2Proof.Machine
end

