-- ==== Sys2Proof/Laws/HeldThrottle.lean ====
section
/-! SUPPORT. What the operations of Machine/Throttle.lean keep (Laws/Held.lean). -/

namespace Sys2Proof.Machine

variable {F : FuseBlock} {A B : Prop}

set_option linter.unusedTactic false
set_option linter.unreachableTactic false
set_option linter.unusedVariables false

theorem State.decideStep_held (s : State) (hH : Held F A B s) :
    Held F A B (State.decideStep s) := by
  unfold State.decideStep
  try dsimp only
  repeat (any_goals first
    | with_reducible assumption
    | with_reducible apply State.ownerEvent_held
    | with_reducible apply held_ite
    | (fail_if_no_progress with_reducible refine held_upd ?_ rfl rfl rfl rfl rfl rfl rfl rfl rfl rfl rfl)
    | split
    | dsimp only
    | intro _)

theorem State.insertPauses_held (n : Nat) (s : State) (hH : Held F A B s) :
    Held F A B (State.insertPauses n s) := by
  unfold State.insertPauses
  try dsimp only
  repeat (any_goals first
    | with_reducible assumption
    | exact fun _ _ => id
    | with_reducible refine State.mapPols_held ?_ ?_
    | with_reducible apply held_ite
    | (fail_if_no_progress with_reducible refine held_upd ?_ rfl rfl rfl rfl rfl rfl rfl rfl rfl rfl rfl)
    | split
    | dsimp only
    | intro _)

theorem State.decideBoundary_held (s : State) (hH : Held F A B s) :
    Held F A B (State.decideBoundary s) := by
  unfold State.decideBoundary
  try dsimp only
  repeat (any_goals first
    | with_reducible assumption
    | with_reducible apply State.decideStep_held
    | with_reducible apply State.insertPauses_held
    | (fail_if_no_progress with_reducible refine held_upd ?_ rfl rfl rfl rfl rfl rfl rfl rfl rfl rfl rfl)
    | split
    | dsimp only
    | intro _)

theorem State.decideAgain_held (s : State) (hH : Held F A B s) :
    Held F A B (State.decideAgain s) := by
  unfold State.decideAgain
  try dsimp only
  repeat (any_goals first
    | with_reducible assumption
    | with_reducible apply State.decideStep_held
    | with_reducible apply State.insertPauses_held
    | with_reducible apply held_ite
    | (fail_if_no_progress with_reducible refine held_upd ?_ rfl rfl rfl rfl rfl rfl rfl rfl rfl rfl rfl)
    | split
    | dsimp only
    | intro _)

end Sys2Proof.Machine
end

