-- ==== Sys2Proof/Laws/HeldWheelSlot.lean ====
section
/-! SUPPORT. What the operations of Machine/WheelSlot.lean keep (Laws/Held.lean). -/

namespace Sys2Proof.Machine

variable {F : FuseBlock} {A B : Prop}

set_option linter.unusedTactic false
set_option linter.unreachableTactic false
set_option linter.unusedVariables false

theorem State.syncLostEvents_held (src : LockSrc) (s : State) (hH : Held F A B s) :
    Held F A B (State.syncLostEvents src s) := by
  unfold State.syncLostEvents
  try dsimp only
  repeat (any_goals first
    | with_reducible assumption
    | intro _ _ _
    | intro _ _
    | with_reducible apply State.event_held
    | with_reducible apply foldl_held
    | with_reducible apply held_ite
    | (fail_if_no_progress with_reducible refine held_upd ?_ rfl rfl rfl rfl rfl rfl rfl rfl rfl rfl rfl)
    | split
    | dsimp only
    | intro _)

theorem State.syncOkEvents_held (src : LockSrc) (old new : Nat × Nat) (s : State) (hH : Held F A B s) :
    Held F A B (State.syncOkEvents src old new s) := by
  unfold State.syncOkEvents
  try dsimp only
  repeat (any_goals first
    | with_reducible assumption
    | intro _ _ _
    | intro _ _
    | with_reducible apply State.event_held
    | with_reducible apply foldl_held
    | with_reducible apply held_ite
    | (fail_if_no_progress with_reducible refine held_upd ?_ rfl rfl rfl rfl rfl rfl rfl rfl rfl rfl rfl)
    | split
    | dsimp only
    | intro _)

theorem State.passDissolutions_held (s : State) (h : Held F A B s) : Held F A B (State.passDissolutions s) := by
  refine State.mapPols_held h fun _ q hq => ?_
  unfold passDissolution
  split
  · split <;> exact hq
  · exact hq


theorem State.stopWheel_held (s : State) (hH : Held F A B s) :
    Held F A B (State.stopWheel s) := by
  unfold State.stopWheel
  try dsimp only
  repeat (any_goals first
    | with_reducible assumption
    | with_reducible apply State.eventAll_held
    | with_reducible apply State.writeTrims_held
    | with_reducible apply State.decideStep_held
    | with_reducible apply State.passDissolutions_held
    | exact fun _ _ => id
    | with_reducible refine State.mapPols_held ?_ ?_
    | with_reducible apply held_ite
    | (fail_if_no_progress with_reducible refine held_upd ?_ rfl rfl rfl rfl rfl rfl rfl rfl rfl rfl rfl)
    | split
    | dsimp only
    | intro _)

theorem State.startWheel_held (s : State) (hH : Held F A B s) :
    Held F A B (State.startWheel s) := by
  unfold State.startWheel
  try dsimp only
  repeat (any_goals first
    | with_reducible assumption
    | with_reducible apply State.eventAll_held
    | exact fun _ _ => id
    | with_reducible refine State.mapPols_held ?_ ?_
    | with_reducible apply held_ite
    | (fail_if_no_progress with_reducible refine held_upd ?_ rfl rfl rfl rfl rfl rfl rfl rfl rfl rfl rfl)
    | split
    | dsimp only
    | intro _)

theorem State.markBlocks_held (s : State) (hH : Held F A B s) :
    Held F A B (State.markBlocks s) := by
  unfold State.markBlocks
  try dsimp only
  repeat (any_goals first
    | with_reducible assumption
    | intro _ _ _
    | with_reducible apply foldl_held
    | with_reducible apply held_ite
    | (fail_if_no_progress with_reducible refine held_upd ?_ rfl rfl rfl rfl rfl rfl rfl rfl rfl rfl rfl)
    | split
    | dsimp only
    | intro _)

theorem State.endRevolution_held (s : State) (hH : Held F A B s) :
    Held F A B (State.endRevolution s) := by
  unfold State.endRevolution
  try dsimp only
  repeat (any_goals first
    | with_reducible assumption
    | with_reducible apply State.decideBoundary_held
    | with_reducible apply State.stopWheel_held
    | with_reducible apply State.markBlocks_held
    | with_reducible apply held_ite
    | (fail_if_no_progress with_reducible refine held_upd ?_ rfl rfl rfl rfl rfl rfl rfl rfl rfl rfl rfl)
    | split
    | dsimp only
    | intro _)

theorem State.adoptPeriod_held (s : State) (hH : Held F A B s) :
    Held F A B (State.adoptPeriod s) := by
  unfold State.adoptPeriod
  try dsimp only
  repeat (any_goals first
    | with_reducible assumption
    | with_reducible apply State.requestItem_held
    | with_reducible apply State.ownerEvent_held
    | with_reducible apply held_ite
    | (fail_if_no_progress with_reducible refine held_upd ?_ rfl rfl rfl rfl rfl rfl rfl rfl rfl rfl rfl)
    | split
    | dsimp only
    | intro _)

theorem State.keepMachines_held (s : State) (hH : Held F A B s) :
    Held F A B (State.keepMachines s) := by
  unfold State.keepMachines
  try dsimp only
  repeat (any_goals first
    | with_reducible assumption
    | with_reducible apply held_ite
    | (fail_if_no_progress with_reducible refine held_upd ?_ rfl rfl rfl rfl rfl rfl rfl rfl rfl rfl rfl)
    | split
    | dsimp only
    | intro _)

theorem Polder.takeCharter_queuesWf (q : Polder) (h : q.queuesWf = true) : q.takeCharter.queuesWf = true := by
  unfold Polder.takeCharter
  split <;> exact h

theorem State.beginRevolution_held (s : State) (h : Held F A B s) : Held F A B (State.beginRevolution s) := by
  unfold State.beginRevolution
  extract_lets s1 s2 s3 w s4 s5 holders sched
  have h1 : Held F A B s1 := State.writeTrims_held _ h
  have h2 : Held F A B s2 := State.passDissolutions_held _ h1
  have h3 : Held F A B s3 := State.mapPols_held (State.keepMachines_held _ h2) fun _ => Polder.takeCharter_queuesWf
  have h4 : Held F A B s4 := held_same h3 rfl ⟨rfl, rfl, rfl, rfl⟩ ⟨rfl, rfl, rfl, rfl, rfl⟩ rfl
  have h5 : Held F A B s5 := State.adoptPeriod_held _ h4
  exact held_same h5 rfl ⟨rfl, rfl, rfl, rfl⟩ ⟨rfl, rfl, rfl, rfl, rfl⟩ rfl


theorem State.announceCover_held (f : W32) (s : State) (hH : Held F A B s) :
    Held F A B (State.announceCover f s) := by
  unfold State.announceCover
  try dsimp only
  repeat (any_goals first
    | with_reducible assumption
    | intro _ _ _
    | intro _ _
    | with_reducible apply State.event_held
    | with_reducible apply foldl_held
    | with_reducible apply held_ite
    | (fail_if_no_progress with_reducible refine held_upd ?_ rfl rfl rfl rfl rfl rfl rfl rfl rfl rfl rfl)
    | split
    | dsimp only
    | intro _)

theorem State.pixBoundary_held (ownerSlot : Bool) (s : State) (hH : Held F A B s) :
    Held F A B (State.pixBoundary ownerSlot s) := by
  unfold State.pixBoundary
  try dsimp only
  repeat (any_goals first
    | with_reducible assumption
    | with_reducible apply held_ite
    | (fail_if_no_progress with_reducible refine held_upd ?_ rfl rfl rfl rfl rfl rfl rfl rfl rfl rfl rfl)
    | split
    | dsimp only
    | intro _)

theorem State.openSlot_held (p : PolId) (f : W32) (cal : Option CalParts) (s : State) (hH : Held F A B s) :
    Held F A B (State.openSlot p f cal s) := by
  unfold State.openSlot
  try dsimp only
  repeat (any_goals first
    | with_reducible assumption
    | exact id
    | exact fun _ => rfl
    | exact fun hq => Polder.emptied_queuesWf hq rfl rfl rfl rfl
    | with_reducible refine State.modPol_held ?_ ?_
    | with_reducible apply held_ite
    | (fail_if_no_progress with_reducible refine held_upd ?_ rfl rfl rfl rfl rfl rfl rfl rfl rfl rfl rfl)
    | split
    | dsimp only
    | intro _)

theorem State.passRestart_held (f : W32) (s : State) (hH : Held F A B s) :
    Held F A B (State.passRestart f s) := by
  unfold State.passRestart
  try dsimp only
  repeat (any_goals first
    | with_reducible assumption
    | with_reducible apply held_ite
    | (fail_if_no_progress with_reducible refine held_upd ?_ rfl rfl rfl rfl rfl rfl rfl rfl rfl rfl rfl)
    | split
    | dsimp only
    | intro _)

theorem applyShadow_queuesWf (f : W32) (q : Polder) (h : q.queuesWf = true) : (applyShadow f q).queuesWf = true := by
  unfold applyShadow
  split
  · split
    · exact h
    · dsimp only
      split <;> (split <;> exact h)
  · exact h

theorem State.turnSlot_held (f : W32) (s : State) (h : Held F A B s) : Held F A B (State.turnSlot f s) := by
  unfold State.turnSlot
  split
  · exact held_same h rfl ⟨rfl, rfl, rfl, rfl⟩ ⟨rfl, rfl, rfl, rfl, rfl⟩ rfl
  · rename_i p _
    extract_lets cal s1 s2
    have h1 : Held F A B s1 := State.pixBoundary_held _ _ h
    have h2 : Held F A B s2 := held_ite h1 (State.modPol_held h1 (applyShadow_queuesWf _ _))
    clear_value s2
    exact held_ite (held_same h2 rfl ⟨rfl, rfl, rfl, rfl⟩ ⟨rfl, rfl, rfl, rfl, rfl⟩ rfl) (State.openSlot_held _ _ _ _ h2)


theorem State.startSlot_held (s : State) (hH : Held F A B s) :
    Held F A B (State.startSlot s) := by
  unfold State.startSlot
  try dsimp only
  repeat (any_goals first
    | with_reducible assumption
    | with_reducible apply State.reserveFrames_held
    | with_reducible apply State.applyColumns_held
    | with_reducible apply State.beginRevolution_held
    | with_reducible apply State.announceCover_held
    | with_reducible apply State.pixBoundary_held
    | with_reducible apply State.passRestart_held
    | with_reducible apply State.turnSlot_held
    | with_reducible apply held_ite
    | (fail_if_no_progress with_reducible refine held_upd ?_ rfl rfl rfl rfl rfl rfl rfl rfl rfl rfl rfl)
    | split
    | dsimp only
    | intro _)

theorem execWheelSlotStart_held (s : State) (hH : Held F A B s) :
    HeldOut F A B (execWheelSlotStart s) := by
  unfold execWheelSlotStart
  try dsimp only
  repeat (any_goals first
    | with_reducible assumption
    | with_reducible apply State.startSlot_held
    | with_reducible apply held_ite
    | with_reducible apply heldOut_next
    | with_reducible apply heldOut_fault
    | with_reducible apply heldOut_ite
    | (fail_if_no_progress with_reducible refine held_upd ?_ rfl rfl rfl rfl rfl rfl rfl rfl rfl rfl rfl)
    | split
    | dsimp only
    | intro _)

theorem execExposureStart_held (s : State) (hH : Held F A B s) :
    HeldOut F A B (execExposureStart s) := by
  unfold execExposureStart
  try dsimp only
  repeat (any_goals first
    | with_reducible assumption
    | with_reducible apply held_ite
    | with_reducible apply heldOut_next
    | with_reducible apply heldOut_fault
    | with_reducible apply heldOut_ite
    | (fail_if_no_progress with_reducible refine held_upd ?_ rfl rfl rfl rfl rfl rfl rfl rfl rfl rfl rfl)
    | split
    | dsimp only
    | intro _)

theorem execTriggerDeadline_held (s : State) (hH : Held F A B s) :
    HeldOut F A B (execTriggerDeadline s) := by
  unfold execTriggerDeadline
  try dsimp only
  repeat (any_goals first
    | with_reducible assumption
    | with_reducible apply held_ite
    | with_reducible apply heldOut_next
    | with_reducible apply heldOut_fault
    | with_reducible apply heldOut_ite
    | (fail_if_no_progress with_reducible refine held_upd ?_ rfl rfl rfl rfl rfl rfl rfl rfl rfl rfl rfl)
    | split
    | dsimp only
    | intro _)

theorem State.showPixels_held (x : Slot) (s : State) (hH : Held F A B s) :
    Held F A B (State.showPixels x s) := by
  unfold State.showPixels
  try dsimp only
  repeat (any_goals first
    | with_reducible assumption
    | (fail_if_no_progress with_reducible refine held_upd ?_ rfl rfl rfl rfl rfl rfl rfl rfl rfl rfl rfl)
    | split
    | dsimp only
    | intro _)

theorem execSlotEnd_held (s : State) (hH : Held F A B s) :
    HeldOut F A B (execSlotEnd s) := by
  unfold execSlotEnd
  try dsimp only
  repeat (any_goals first
    | with_reducible assumption
    | with_reducible apply State.issueAll_held
    | with_reducible apply State.endRevolution_held
    | with_reducible apply State.showPixels_held
    | with_reducible apply held_ite
    | with_reducible apply heldOut_next
    | with_reducible apply heldOut_fault
    | with_reducible apply heldOut_ite
    | (fail_if_no_progress with_reducible refine held_upd ?_ rfl rfl rfl rfl rfl rfl rfl rfl rfl rfl rfl)
    | split
    | dsimp only
    | intro _)

theorem State.countEdge_held (p : PolId) (s : State) (hH : Held F A B s) :
    Held F A B (State.countEdge p s) := by
  unfold State.countEdge
  try dsimp only
  repeat (any_goals first
    | with_reducible assumption
    | exact id
    | exact fun _ => rfl
    | exact fun hq => Polder.emptied_queuesWf hq rfl rfl rfl rfl
    | with_reducible refine State.modPol_held ?_ ?_
    | with_reducible apply held_ite
    | (fail_if_no_progress with_reducible refine held_upd ?_ rfl rfl rfl rfl rfl rfl rfl rfl rfl rfl rfl)
    | split
    | dsimp only
    | intro _)

theorem execTrigInEdge_held (s : State) (hH : Held F A B s) :
    HeldOut F A B (execTrigInEdge s) := by
  unfold execTrigInEdge
  try dsimp only
  repeat (any_goals first
    | with_reducible assumption
    | with_reducible apply State.latchWake_held
    | with_reducible apply State.wakeTrigger_held
    | with_reducible apply State.countEdge_held
    | with_reducible apply held_ite
    | with_reducible apply heldOut_next
    | with_reducible apply heldOut_fault
    | with_reducible apply heldOut_ite
    | (fail_if_no_progress with_reducible refine held_upd ?_ rfl rfl rfl rfl rfl rfl rfl rfl rfl rfl rfl)
    | split
    | dsimp only
    | intro _)

theorem execTrigRefractoryEnd_held (s : State) (hH : Held F A B s) :
    HeldOut F A B (execTrigRefractoryEnd s) := by
  unfold execTrigRefractoryEnd
  try dsimp only
  repeat (any_goals first
    | with_reducible assumption
    | with_reducible apply heldOut_next
    | with_reducible apply heldOut_fault
    | with_reducible apply heldOut_ite
    | (fail_if_no_progress with_reducible refine held_upd ?_ rfl rfl rfl rfl rfl rfl rfl rfl rfl rfl rfl)
    | split
    | dsimp only
    | intro _)

theorem State.loseSync_held (s : State) (hH : Held F A B s) :
    Held F A B (State.loseSync s) := by
  unfold State.loseSync
  try dsimp only
  repeat (any_goals first
    | with_reducible assumption
    | with_reducible apply State.syncLostEvents_held
    | (fail_if_no_progress with_reducible refine held_upd ?_ rfl rfl rfl rfl rfl rfl rfl rfl rfl rfl rfl)
    | split
    | dsimp only
    | intro _)

theorem State.badPeriod_held (s : State) (hH : Held F A B s) :
    Held F A B (State.badPeriod s) := by
  unfold State.badPeriod
  try dsimp only
  repeat (any_goals first
    | with_reducible assumption
    | with_reducible apply State.loseSync_held
    | with_reducible apply held_ite
    | (fail_if_no_progress with_reducible refine held_upd ?_ rfl rfl rfl rfl rfl rfl rfl rfl rfl rfl rfl)
    | split
    | dsimp only
    | intro _)

theorem State.syncPeriod_held (p : Nat) (s : State) (hH : Held F A B s) :
    Held F A B (State.syncPeriod p s) := by
  unfold State.syncPeriod
  try dsimp only
  repeat (any_goals first
    | with_reducible assumption
    | with_reducible apply State.badPeriod_held
    | with_reducible apply held_ite
    | (fail_if_no_progress with_reducible refine held_upd ?_ rfl rfl rfl rfl rfl rfl rfl rfl rfl rfl rfl)
    | split
    | dsimp only
    | intro _)

theorem State.lostPeriod_held (p : Nat) (s : State) (hH : Held F A B s) :
    Held F A B (State.lostPeriod p s) := by
  unfold State.lostPeriod
  try dsimp only
  repeat (any_goals first
    | with_reducible assumption
    | with_reducible apply State.syncOkEvents_held
    | with_reducible apply held_ite
    | (fail_if_no_progress with_reducible refine held_upd ?_ rfl rfl rfl rfl rfl rfl rfl rfl rfl rfl rfl)
    | split
    | dsimp only
    | intro _)

theorem execSyncInEdge_held (s : State) (hH : Held F A B s) :
    HeldOut F A B (execSyncInEdge s) := by
  unfold execSyncInEdge
  try dsimp only
  repeat (any_goals first
    | with_reducible assumption
    | intro _ _
    | with_reducible apply State.syncPeriod_held
    | with_reducible apply State.lostPeriod_held
    | with_reducible apply held_ite
    | with_reducible apply heldOut_next
    | with_reducible apply heldOut_fault
    | with_reducible apply heldOut_ite
    | (fail_if_no_progress with_reducible refine held_upd ?_ rfl rfl rfl rfl rfl rfl rfl rfl rfl rfl rfl)
    | split
    | dsimp only
    | intro _)

theorem execSyncPeriodMissing_held (s : State) (hH : Held F A B s) :
    HeldOut F A B (execSyncPeriodMissing s) := by
  unfold execSyncPeriodMissing
  try dsimp only
  repeat (any_goals first
    | with_reducible assumption
    | with_reducible apply State.badPeriod_held
    | with_reducible apply held_ite
    | with_reducible apply heldOut_next
    | with_reducible apply heldOut_fault
    | with_reducible apply heldOut_ite
    | (fail_if_no_progress with_reducible refine held_upd ?_ rfl rfl rfl rfl rfl rfl rfl rfl rfl rfl rfl)
    | split
    | dsimp only
    | intro _)

theorem execCommissionNRise_held (s : State) (hH : Held F A B s) :
    HeldOut F A B (execCommissionNRise s) := by
  unfold execCommissionNRise
  try dsimp only
  repeat (any_goals first
    | with_reducible assumption
    | with_reducible apply held_ite
    | with_reducible apply heldOut_next
    | with_reducible apply heldOut_fault
    | with_reducible apply heldOut_ite
    | (fail_if_no_progress with_reducible refine held_upd ?_ rfl rfl rfl rfl rfl rfl rfl rfl rfl rfl rfl)
    | split
    | dsimp only
    | intro _)

end Sys2Proof.Machine
end

