-- ==== Sys2Proof/Laws/HeldPowerEv.lean ====
section
/-! SUPPORT. What the operations of Machine/PowerEv.lean keep (Laws/Held.lean). -/

namespace Sys2Proof.Machine

variable {F : FuseBlock} {A B : Prop}

set_option linter.unusedTactic false
set_option linter.unreachableTactic false
set_option linter.unusedVariables false

theorem State.lowerDomain_held (n : Nat) (d : DomState) (s : State) (h : Held F A B s) : Held F A B (State.lowerDomain n d s) := by
  unfold State.lowerDomain
  extract_lets s1 off
  have h1 : Held F A B s1 := held_same h rfl ⟨rfl, rfl, rfl, rfl⟩ ⟨rfl, rfl, rfl, rfl, rfl⟩ rfl
  clear_value s1
  have port : ∀ p f, Held F A B (s1.modPort p f) := fun p f => State.modPort_held p f _ h1
  split
  · exact held_ite (State.mapPols_held h1 fun _ _ => id) (State.mapPols_held h1 fun _ _ => id)
  · exact held_ite (held_tcm h1 fun _ => rfl) h1
  · exact held_ite (held_same (held_noPols h1) rfl ⟨rfl, rfl, rfl, rfl⟩ ⟨rfl, rfl, rfl, rfl, rfl⟩ rfl) h1
  · exact held_ite (port _ _) h1
  · exact held_ite (port _ _) h1
  · exact held_same h1 rfl ⟨rfl, rfl, rfl, rfl⟩ ⟨rfl, rfl, rfl, rfl, rfl⟩ rfl
  · have h2 := State.silencePix_held _ h1
    exact held_ite (held_same h2 rfl ⟨rfl, rfl, rfl, rfl⟩ ⟨rfl, rfl, rfl, rfl, rfl⟩ rfl) h2
  · exact h1


theorem State.domainReady_held (s : State) (n : Nat) (h : Held F A B s) : Held F A B (State.domainReady s n) := by
  unfold State.domainReady
  extract_lets was s1
  have h1 : Held F A B s1 := held_same h rfl ⟨rfl, rfl, rfl, rfl⟩ ⟨rfl, rfl, rfl, rfl, rfl⟩ rfl
  clear_value s1
  have same : ∀ t : State, t.pols = s1.pols → t.life = s1.life → t.arr = s1.arr → t.jtag = s1.jtag → Held F A B t := fun t a b c d =>
    held_same h1 a ⟨by rw [b], by rw [b], by rw [b], by rw [b]⟩ ⟨by rw [c], by rw [c], by rw [c], by rw [c], by rw [c]⟩ (by rw [d])
  exact held_ite (same _ rfl rfl rfl rfl) (held_ite (held_tcm h1 fun _ => ArrayS.tcmImage_rising _)
    (held_ite (same _ rfl rfl rfl rfl) (held_ite (same _ rfl rfl rfl rfl) h1)))


theorem State.logRefusal_held (n reason step esn : Nat) (s : State) (hH : Held F A B s) :
    Held F A B (State.logRefusal n reason step esn s) := by
  unfold State.logRefusal
  try dsimp only
  repeat (any_goals first
    | with_reducible assumption
    | with_reducible apply held_ite
    | (fail_if_no_progress with_reducible refine held_upd ?_ rfl rfl rfl rfl rfl rfl rfl rfl rfl rfl rfl)
    | split
    | dsimp only
    | intro _)

theorem State.releasePower_held (s : State) (hH : Held F A B s) :
    Held F A B (State.releasePower s) := by
  unfold State.releasePower
  try dsimp only
  repeat (any_goals first
    | with_reducible assumption
    | exact id
    | exact fun _ => rfl
    | exact fun hq => Polder.emptied_queuesWf hq rfl rfl rfl rfl
    | with_reducible refine State.modPol_held ?_ ?_
    | with_reducible apply held_ite
    | (fail_if_no_progress with_reducible refine held_upd ?_ rfl rfl rfl rfl rfl rfl rfl rfl rfl rfl rfl)
    | split
    | dsimp only
    | intro _)

theorem State.finishReturn_held (doms : BitVec 12) (cause : RetCause) (s : State) (hH : Held F A B s) :
    Held F A B (State.finishReturn doms cause s) := by
  unfold State.finishReturn
  try dsimp only
  repeat (any_goals first
    | with_reducible assumption
    | intro _ _ _
    | intro _ _
    | with_reducible apply State.ownerEvent_held
    | with_reducible apply State.replayTriggers_held
    | with_reducible apply State.beginEntry_held
    | with_reducible apply State.startWheel_held
    | with_reducible apply State.domainReady_held
    | with_reducible apply State.releasePower_held
    | with_reducible apply foldl_held
    | with_reducible apply held_ite
    | (fail_if_no_progress with_reducible refine held_upd ?_ rfl rfl rfl rfl rfl rfl rfl rfl rfl rfl rfl)
    | split
    | dsimp only
    | intro _)

theorem State.startReturn_held (doms : BitVec 12) (cause : RetCause) (s : State) (hH : Held F A B s) :
    Held F A B (State.startReturn doms cause s) := by
  unfold State.startReturn
  try dsimp only
  repeat (any_goals first
    | with_reducible assumption
    | with_reducible apply State.finishReturn_held
    | with_reducible apply held_ite
    | (fail_if_no_progress with_reducible refine held_upd ?_ rfl rfl rfl rfl rfl rfl rfl rfl rfl rfl rfl)
    | split
    | dsimp only
    | intro _)

theorem execReturnStepReady_held (s : State) (hH : Held F A B s) :
    HeldOut F A B (execReturnStepReady s) := by
  unfold execReturnStepReady
  try dsimp only
  repeat (any_goals first
    | with_reducible assumption
    | intro _ _
    | with_reducible apply State.finishReturn_held
    | with_reducible apply held_ite
    | with_reducible apply heldOut_next
    | with_reducible apply heldOut_fault
    | with_reducible apply heldOut_ite
    | (fail_if_no_progress with_reducible refine held_upd ?_ rfl rfl rfl rfl rfl rfl rfl rfl rfl rfl rfl)
    | split
    | dsimp only
    | intro _)

theorem State.abandonEntry_held (e : Entry) (step : Nat) (refusal : Option (Nat × Nat)) (s : State) (hH : Held F A B s) :
    Held F A B (State.abandonEntry e step refusal s) := by
  unfold State.abandonEntry
  try dsimp only
  repeat (any_goals first
    | with_reducible assumption
    | with_reducible apply State.readyHeld_held
    | with_reducible apply State.logRefusal_held
    | with_reducible apply State.startReturn_held
    | (fail_if_no_progress with_reducible refine held_upd ?_ rfl rfl rfl rfl rfl rfl rfl rfl rfl rfl rfl)
    | split
    | dsimp only
    | intro _)

theorem State.finishEntry_held (s : State) (hH : Held F A B s) :
    Held F A B (State.finishEntry s) := by
  unfold State.finishEntry
  try dsimp only
  repeat (any_goals first
    | with_reducible assumption
    | with_reducible apply State.dropCarry_held
    | with_reducible apply State.releasePower_held
    | (fail_if_no_progress with_reducible refine held_upd ?_ rfl rfl rfl rfl rfl rfl rfl rfl rfl rfl rfl)
    | split
    | dsimp only
    | intro _)

theorem State.lowerStep_held (e : Entry) (k : Nat) (s : State) (hH : Held F A B s) :
    Held F A B (State.lowerStep e k s) := by
  unfold State.lowerStep
  try dsimp only
  repeat (any_goals first
    | with_reducible assumption
    | with_reducible apply State.lowerDomain_held
    | with_reducible apply State.finishEntry_held
    | with_reducible apply held_ite
    | (fail_if_no_progress with_reducible refine held_upd ?_ rfl rfl rfl rfl rfl rfl rfl rfl rfl rfl rfl)
    | split
    | dsimp only
    | intro _)

theorem State.finalPoint_held (e : Entry) (s : State) (hH : Held F A B s) :
    Held F A B (State.finalPoint e s) := by
  unfold State.finalPoint
  try dsimp only
  repeat (any_goals first
    | with_reducible assumption
    | with_reducible apply State.readyHeld_held
    | with_reducible apply State.abandonEntry_held
    | with_reducible apply State.finishEntry_held
    | with_reducible apply held_ite
    | (fail_if_no_progress with_reducible refine held_upd ?_ rfl rfl rfl rfl rfl rfl rfl rfl rfl rfl rfl)
    | split
    | dsimp only
    | intro _)

theorem State.abortPoint_held (e : Entry) (s : State) (hH : Held F A B s) :
    Held F A B (State.abortPoint e s) := by
  unfold State.abortPoint
  try dsimp only
  repeat (any_goals first
    | with_reducible assumption
    | with_reducible apply State.abandonEntry_held
    | with_reducible apply State.lowerStep_held
    | with_reducible apply State.finalPoint_held
    | with_reducible apply held_ite
    | (fail_if_no_progress with_reducible refine held_upd ?_ rfl rfl rfl rfl rfl rfl rfl rfl rfl rfl rfl)
    | split
    | dsimp only
    | intro _)

theorem State.boundaryPoint_held (e : Entry) (s : State) (hH : Held F A B s) :
    Held F A B (State.boundaryPoint e s) := by
  unfold State.boundaryPoint
  try dsimp only
  repeat (any_goals first
    | with_reducible assumption
    | with_reducible apply State.decideBoundary_held
    | with_reducible apply State.stopWheel_held
    | with_reducible apply State.abandonEntry_held
    | with_reducible apply State.abortPoint_held
    | with_reducible apply held_ite
    | (fail_if_no_progress with_reducible refine held_upd ?_ rfl rfl rfl rfl rfl rfl rfl rfl rfl rfl rfl)
    | split
    | dsimp only
    | intro _)

theorem State.lateStep_held (e : Entry) (s : State) (hH : Held F A B s) :
    Held F A B (State.lateStep e s) := by
  unfold State.lateStep
  try dsimp only
  repeat (any_goals first
    | with_reducible assumption
    | with_reducible apply State.finishEntry_held
    | with_reducible apply State.lowerStep_held
    | with_reducible apply held_ite
    | (fail_if_no_progress with_reducible refine held_upd ?_ rfl rfl rfl rfl rfl rfl rfl rfl rfl rfl rfl)
    | split
    | dsimp only
    | intro _)

theorem execPowerEntryStep_held (s : State) (hH : Held F A B s) :
    HeldOut F A B (execPowerEntryStep s) := by
  unfold execPowerEntryStep
  try dsimp only
  repeat (any_goals first
    | with_reducible assumption
    | with_reducible apply State.abortPoint_held
    | with_reducible apply State.boundaryPoint_held
    | with_reducible apply State.lateStep_held
    | with_reducible apply held_ite
    | with_reducible apply heldOut_next
    | with_reducible apply heldOut_fault
    | with_reducible apply heldOut_ite
    | (fail_if_no_progress with_reducible refine held_upd ?_ rfl rfl rfl rfl rfl rfl rfl rfl rfl rfl rfl)
    | split
    | dsimp only
    | intro _)

theorem execReplyCarriedTimeout_held (s : State) (hH : Held F A B s) :
    HeldOut F A B (execReplyCarriedTimeout s) := by
  unfold execReplyCarriedTimeout
  try dsimp only
  repeat (any_goals first
    | with_reducible assumption
    | with_reducible apply State.sysResetDue_held
    | with_reducible apply held_ite
    | with_reducible apply heldOut_next
    | with_reducible apply heldOut_fault
    | with_reducible apply heldOut_ite
    | (fail_if_no_progress with_reducible refine held_upd ?_ rfl rfl rfl rfl rfl rfl rfl rfl rfl rfl rfl)
    | split
    | dsimp only
    | intro _)

theorem execOpPointVoltageReady_held (domain : Fin 4) (s : State) (hH : Held F A B s) :
    HeldOut F A B (execOpPointVoltageReady domain s) := by
  unfold execOpPointVoltageReady
  try dsimp only
  repeat (any_goals first
    | with_reducible assumption
    | with_reducible apply State.readyHeld_held
    | with_reducible apply held_ite
    | with_reducible apply heldOut_next
    | with_reducible apply heldOut_fault
    | with_reducible apply heldOut_ite
    | (fail_if_no_progress with_reducible refine held_upd ?_ rfl rfl rfl rfl rfl rfl rfl rfl rfl rfl rfl)
    | split
    | dsimp only
    | intro _)

theorem execWakeEvent_held (s : State) (hH : Held F A B s) :
    HeldOut F A B (execWakeEvent s) := by
  unfold execWakeEvent
  try dsimp only
  repeat (any_goals first
    | with_reducible assumption
    | with_reducible apply State.startReturn_held
    | with_reducible apply held_ite
    | with_reducible apply heldOut_next
    | with_reducible apply heldOut_fault
    | with_reducible apply heldOut_ite
    | (fail_if_no_progress with_reducible refine held_upd ?_ rfl rfl rfl rfl rfl rfl rfl rfl rfl rfl rfl)
    | split
    | dsimp only
    | intro _)

theorem execWakeMatch_held (port : Port) (target : WakeTarget) (s : State) (hH : Held F A B s) :
    HeldOut F A B (execWakeMatch port target s) := by
  unfold execWakeMatch
  try dsimp only
  repeat (any_goals first
    | with_reducible assumption
    | with_reducible apply State.countPort_held
    | with_reducible apply State.latchWake_held
    | with_reducible apply held_ite
    | with_reducible apply heldOut_next
    | with_reducible apply heldOut_fault
    | with_reducible apply heldOut_ite
    | (fail_if_no_progress with_reducible refine held_upd ?_ rfl rfl rfl rfl rfl rfl rfl rfl rfl rfl rfl)
    | split
    | dsimp only
    | intro _)

theorem execI2cAddrMatch_held (addr : BitVec 7) (s : State) (hH : Held F A B s) :
    HeldOut F A B (execI2cAddrMatch addr s) := by
  unfold execI2cAddrMatch
  try dsimp only
  repeat (any_goals first
    | with_reducible assumption
    | with_reducible apply State.latchWake_held
    | with_reducible apply held_ite
    | with_reducible apply heldOut_next
    | with_reducible apply heldOut_fault
    | with_reducible apply heldOut_ite
    | (fail_if_no_progress with_reducible refine held_upd ?_ rfl rfl rfl rfl rfl rfl rfl rfl rfl rfl rfl)
    | split
    | dsimp only
    | intro _)

theorem execWakeNFall_held (s : State) (hH : Held F A B s) :
    HeldOut F A B (execWakeNFall s) := by
  unfold execWakeNFall
  try dsimp only
  repeat (any_goals first
    | with_reducible assumption
    | with_reducible apply State.latchWake_held
    | with_reducible apply held_ite
    | with_reducible apply heldOut_next
    | with_reducible apply heldOut_fault
    | with_reducible apply heldOut_ite
    | (fail_if_no_progress with_reducible refine held_upd ?_ rfl rfl rfl rfl rfl rfl rfl rfl rfl rfl rfl)
    | split
    | dsimp only
    | intro _)

end Sys2Proof.Machine
end

