-- ==== Sys2Proof/Laws/HeldArrayEv.lean ====
section
/-! SUPPORT. What the operations of Machine/ArrayEv.lean keep (Laws/Held.lean). -/

namespace Sys2Proof.Machine

variable {F : FuseBlock} {A B : Prop}

set_option linter.unusedTactic false
set_option linter.unreachableTactic false
set_option linter.unusedVariables false

theorem execItemWriteStart_held (p : PolId) (s : State) (hH : Held F A B s) :
    HeldOut F A B (execItemWriteStart p s) := by
  unfold execItemWriteStart
  try dsimp only
  repeat (any_goals first
    | with_reducible assumption
    | with_reducible apply State.addJob_held
    | with_reducible apply held_ite
    | with_reducible apply heldOut_next
    | with_reducible apply heldOut_fault
    | with_reducible apply heldOut_ite
    | (fail_if_no_progress with_reducible refine held_upd ?_ rfl rfl rfl rfl rfl rfl rfl rfl rfl rfl rfl)
    | split
    | dsimp only
    | intro _)

theorem State.followPage_held (p : PolId) (j : PageJob) (marker : Bool) (s : State) (hH : Held F A B s) :
    Held F A B (State.followPage p j marker s) := by
  unfold State.followPage
  try dsimp only
  repeat (any_goals first
    | with_reducible assumption
    | with_reducible apply State.addJob_held
    | with_reducible apply held_ite
    | (fail_if_no_progress with_reducible refine held_upd ?_ rfl rfl rfl rfl rfl rfl rfl rfl rfl rfl rfl)
    | split
    | dsimp only
    | intro _)

theorem State.answerPage_held (a : Answer) (s : State) (hH : Held F A B s) :
    Held F A B (State.answerPage a s) := by
  unfold State.answerPage
  try dsimp only
  repeat (any_goals first
    | with_reducible assumption
    | with_reducible apply State.answerHeld_held
    | (fail_if_no_progress with_reducible refine held_upd ?_ rfl rfl rfl rfl rfl rfl rfl rfl rfl rfl rfl)
    | split
    | dsimp only
    | intro _)

theorem State.itemPage_held (p : PolId) (s : State) (hH : Held F A B s) :
    Held F A B (State.itemPage p s) := by
  unfold State.itemPage
  try dsimp only
  repeat (any_goals first
    | with_reducible assumption
    | with_reducible apply State.commitItem_held
    | with_reducible apply State.releaseCommit_held
    | with_reducible apply State.sysResetDue_held
    | with_reducible apply State.followPage_held
    | with_reducible apply held_ite
    | (fail_if_no_progress with_reducible refine held_upd ?_ rfl rfl rfl rfl rfl rfl rfl rfl rfl rfl rfl)
    | split
    | dsimp only
    | intro _)

theorem State.commitPage_held (w : W16) (left : Nat) (s : State) (h : Held F A B s) : Held F A B (State.commitPage w left s) := by
  unfold State.commitPage
  exact held_ite (State.answerPage_held _ _ (held_arr h (ArrayS.commitRegion_storesWf _ _ _)))
    (held_ite (State.answerPage_held _ _ h) (State.followPage_held _ _ _ _ h))


theorem State.pageDone_held (p : PolId) (j : PageJob) (s : State) (h : Held F A B s) : Held F A B (State.pageDone p j s) := by
  cases j with
  | item => exact State.itemPage_held _ _ h
  | arrOpen w => exact State.answerPage_held _ _ (held_arr h (ArrayS.openRegion_storesWf _ _))
  | arrWrite w off bytes => exact State.answerPage_held _ _ (held_arr h id)
  | arrCommit w left => exact State.commitPage_held _ _ _ h
  | log => exact held_arr h (ArrayS.programLog_storesWf _)


theorem State.dropWrite_held (w : ItemWrite) (s : State) (hH : Held F A B s) :
    Held F A B (State.dropWrite w s) := by
  unfold State.dropWrite
  try dsimp only
  repeat (any_goals first
    | with_reducible assumption
    | with_reducible apply held_ite
    | (fail_if_no_progress with_reducible refine held_upd ?_ rfl rfl rfl rfl rfl rfl rfl rfl rfl rfl rfl)
    | split
    | dsimp only
    | intro _)

theorem State.pageFails_held (p : PolId) (j : PageJob) (s : State) (hH : Held F A B s) :
    Held F A B (State.pageFails p j s) := by
  unfold State.pageFails
  try dsimp only
  repeat (any_goals first
    | with_reducible assumption
    | with_reducible apply State.releaseCommit_held
    | with_reducible apply State.sysResetDue_held
    | with_reducible apply State.answerPage_held
    | with_reducible apply State.dropWrite_held
    | (fail_if_no_progress with_reducible refine held_upd ?_ rfl rfl rfl rfl rfl rfl rfl rfl rfl rfl rfl)
    | split
    | dsimp only
    | intro _)

theorem State.retirePage_held (p : PolId) (j : PageJob) (s : State) (hH : Held F A B s) :
    Held F A B (State.retirePage p j s) := by
  unfold State.retirePage
  try dsimp only
  repeat (any_goals first
    | with_reducible assumption
    | with_reducible apply State.requestItem_held
    | with_reducible apply State.ownerEvent_held
    | with_reducible apply State.pageFails_held
    | with_reducible apply held_ite
    | (fail_if_no_progress with_reducible refine held_upd ?_ rfl rfl rfl rfl rfl rfl rfl rfl rfl rfl rfl)
    | split
    | dsimp only
    | intro _)

theorem State.countPulses_held (p : PolId) (j : PageJob) (pulses : Nat) (s : State) (hH : Held F A B s) :
    Held F A B (State.countPulses p j pulses s) := by
  unfold State.countPulses
  try dsimp only
  repeat (any_goals first
    | with_reducible assumption
    | (fail_if_no_progress with_reducible refine held_upd ?_ rfl rfl rfl rfl rfl rfl rfl rfl rfl rfl rfl)
    | split
    | dsimp only
    | intro _)

theorem execPageProgramComplete_held (verified : Bool) (pulses : Nat) (s : State) (hH : Held F A B s) :
    HeldOut F A B (execPageProgramComplete verified pulses s) := by
  unfold execPageProgramComplete
  try dsimp only
  repeat (any_goals first
    | with_reducible assumption
    | with_reducible apply State.finishPage_held
    | with_reducible apply State.pageDone_held
    | with_reducible apply State.retirePage_held
    | with_reducible apply State.countPulses_held
    | with_reducible apply held_ite
    | with_reducible apply heldOut_next
    | with_reducible apply heldOut_fault
    | with_reducible apply heldOut_ite
    | (fail_if_no_progress with_reducible refine held_upd ?_ rfl rfl rfl rfl rfl rfl rfl rfl rfl rfl rfl)
    | split
    | dsimp only
    | intro _)

theorem execArrayLeaseExpired_held (handle : W16) (s : State) (hH : Held F A B s) :
    HeldOut F A B (execArrayLeaseExpired handle s) := by
  unfold execArrayLeaseExpired
  try dsimp only
  repeat (any_goals first
    | with_reducible assumption
    | with_reducible apply State.ownerEvent_held
    | with_reducible apply State.answerPage_held
    | with_reducible apply held_ite
    | with_reducible apply heldOut_next
    | with_reducible apply heldOut_fault
    | with_reducible apply heldOut_ite
    | (fail_if_no_progress with_reducible refine held_upd ?_ rfl rfl rfl rfl rfl rfl rfl rfl rfl rfl rfl)
    | split
    | dsimp only
    | intro _)

theorem execLogPageTimer_held (s : State) (hH : Held F A B s) :
    HeldOut F A B (execLogPageTimer s) := by
  unfold execLogPageTimer
  try dsimp only
  repeat (any_goals first
    | with_reducible assumption
    | with_reducible apply State.addJob_held
    | with_reducible apply held_ite
    | with_reducible apply heldOut_next
    | with_reducible apply heldOut_fault
    | with_reducible apply heldOut_ite
    | (fail_if_no_progress with_reducible refine held_upd ?_ rfl rfl rfl rfl rfl rfl rfl rfl rfl rfl rfl)
    | split
    | dsimp only
    | intro _)

end Sys2Proof.Machine
end

