-- ==== Sys2Proof/Laws/HeldColumnEv.lean ====
section
/-! SUPPORT. What the operations of Machine/ColumnEv.lean keep (Laws/Held.lean). -/

namespace Sys2Proof.Machine

variable {F : FuseBlock} {A B : Prop}

set_option linter.unusedTactic false
set_option linter.unreachableTactic false
set_option linter.unusedVariables false

theorem State.settleVerdict_held (n : Nat) (f : W32) (v : Verdict) (s : State) (hH : Held F A B s) :
    Held F A B (State.settleVerdict n f v s) := by
  unfold State.settleVerdict
  try dsimp only
  repeat (any_goals first
    | with_reducible assumption
    | with_reducible apply State.calReject_held
    | (fail_if_no_progress with_reducible refine held_upd ?_ rfl rfl rfl rfl rfl rfl rfl rfl rfl rfl rfl)
    | split
    | dsimp only
    | intro _)

theorem State.measureStandIns_held (x : Slot) (scale : Frac) (refA refB : BankRef) (trim : List (Nat × TrimMeas)) (s : State) (hH : Held F A B s) :
    Held F A B (State.measureStandIns x scale refA refB trim s) := by
  unfold State.measureStandIns
  try dsimp only
  repeat (any_goals first
    | with_reducible assumption
    | intro _ _ _
    | intro _ _
    | with_reducible apply State.settleVerdict_held
    | with_reducible apply foldl_held
    | with_reducible apply held_ite
    | (fail_if_no_progress with_reducible refine held_upd ?_ rfl rfl rfl rfl rfl rfl rfl rfl rfl rfl rfl)
    | split
    | dsimp only
    | intro _)

theorem State.judgeSpares_held (f : W32) (s : State) (hH : Held F A B s) :
    Held F A B (State.judgeSpares f s) := by
  unfold State.judgeSpares
  try dsimp only
  repeat (any_goals first
    | with_reducible assumption
    | intro _ _ _
    | intro _ _
    | with_reducible apply State.calReject_held
    | with_reducible apply foldl_held
    | (fail_if_no_progress with_reducible refine held_upd ?_ rfl rfl rfl rfl rfl rfl rfl rfl rfl rfl rfl)
    | split
    | dsimp only
    | intro _)

theorem State.ownerConversions_held (x : Slot) (conv : List CheckConv) (trim : List (Nat × TrimMeas)) (s : State) (hH : Held F A B s) :
    Held F A B (State.ownerConversions x conv trim s) := by
  unfold State.ownerConversions
  try dsimp only
  repeat (any_goals first
    | with_reducible assumption
    | with_reducible apply State.measureStandIns_held
    | with_reducible apply State.judgeSpares_held
    | with_reducible apply held_ite
    | (fail_if_no_progress with_reducible refine held_upd ?_ rfl rfl rfl rfl rfl rfl rfl rfl rfl rfl rfl)
    | split
    | dsimp only
    | intro _)

theorem execBlankIntervalCheck_held (conv : List CheckConv) (trim : List (Nat × TrimMeas)) (s : State) (hH : Held F A B s) :
    HeldOut F A B (execBlankIntervalCheck conv trim s) := by
  unfold execBlankIntervalCheck
  try dsimp only
  repeat (any_goals first
    | with_reducible assumption
    | intro _ _ _
    | with_reducible apply checked_held
    | with_reducible apply State.checkGroup_held
    | with_reducible apply State.storeColumns_held
    | with_reducible apply State.ownerConversions_held
    | with_reducible apply foldl_held
    | with_reducible apply held_ite
    | with_reducible apply heldOut_next
    | with_reducible apply heldOut_fault
    | with_reducible apply heldOut_ite
    | (fail_if_no_progress with_reducible refine held_upd ?_ rfl rfl rfl rfl rfl rfl rfl rfl rfl rfl rfl)
    | split
    | dsimp only
    | intro _)

theorem execQualityRecompute_held (s : State) (hH : Held F A B s) :
    HeldOut F A B (execQualityRecompute s) := by
  unfold execQualityRecompute
  try dsimp only
  repeat (any_goals first
    | with_reducible assumption
    | with_reducible apply held_ite
    | with_reducible apply heldOut_next
    | with_reducible apply heldOut_fault
    | with_reducible apply heldOut_ite
    | (fail_if_no_progress with_reducible refine held_upd ?_ rfl rfl rfl rfl rfl rfl rfl rfl rfl rfl rfl)
    | split
    | dsimp only
    | intro _)

end Sys2Proof.Machine
end

