-- ==== Sys2Proof/Laws/HeldCalEv.lean ====
section
/-! SUPPORT. What the operations of Machine/CalEv.lean keep (Laws/Held.lean). -/

namespace Sys2Proof.Machine

variable {F : FuseBlock} {A B : Prop}

set_option linter.unusedTactic false
set_option linter.unreachableTactic false
set_option linter.unusedVariables false

theorem State.modReport_held (f : CalReport → CalReport) (s : State) (hH : Held F A B s) :
    Held F A B (State.modReport f s) := by
  unfold State.modReport
  try dsimp only
  repeat (any_goals first
    | with_reducible assumption
    | (fail_if_no_progress with_reducible refine held_upd ?_ rfl rfl rfl rfl rfl rfl rfl rfl rfl rfl rfl)
    | split
    | dsimp only
    | intro _)

theorem State.rampBank_held (b : Bool) (f : W32) (intervals : List Nat) (s : State) (hH : Held F A B s) :
    Held F A B (State.rampBank b f intervals s) := by
  unfold State.rampBank
  try dsimp only
  repeat (any_goals first
    | with_reducible assumption
    | with_reducible apply State.modReport_held
    | with_reducible apply held_ite
    | (fail_if_no_progress with_reducible refine held_upd ?_ rfl rfl rfl rfl rfl rfl rfl rfl rfl rfl rfl)
    | split
    | dsimp only
    | intro _)

theorem execCalRampDone_held (intervalsA : List Nat) (intervalsB : List Nat) (s : State) (hH : Held F A B s) :
    HeldOut F A B (execCalRampDone intervalsA intervalsB s) := by
  unfold execCalRampDone
  try dsimp only
  repeat (any_goals first
    | with_reducible assumption
    | with_reducible apply State.modReport_held
    | with_reducible apply State.rampBank_held
    | with_reducible apply held_ite
    | with_reducible apply heldOut_next
    | with_reducible apply heldOut_fault
    | with_reducible apply heldOut_ite
    | (fail_if_no_progress with_reducible refine held_upd ?_ rfl rfl rfl rfl rfl rfl rfl rfl rfl rfl rfl)
    | split
    | dsimp only
    | intro _)

theorem State.columnVerdict_held (f : W32) (n : Nat) (v : Verdict) (s : State) (hH : Held F A B s) :
    Held F A B (State.columnVerdict f n v s) := by
  unfold State.columnVerdict
  try dsimp only
  repeat (any_goals first
    | with_reducible assumption
    | with_reducible apply State.modReport_held
    | with_reducible apply held_ite
    | (fail_if_no_progress with_reducible refine held_upd ?_ rfl rfl rfl rfl rfl rfl rfl rfl rfl rfl rfl)
    | split
    | dsimp only
    | intro _)

theorem execCalColumnsDone_held (meas : List (Nat × TrimMeas)) (s : State) (hH : Held F A B s) :
    HeldOut F A B (execCalColumnsDone meas s) := by
  unfold execCalColumnsDone
  try dsimp only
  repeat (any_goals first
    | with_reducible assumption
    | intro _ _ _
    | intro _ _
    | with_reducible apply State.modReport_held
    | with_reducible apply State.columnVerdict_held
    | with_reducible apply foldl_held
    | with_reducible apply held_ite
    | with_reducible apply heldOut_next
    | with_reducible apply heldOut_fault
    | with_reducible apply heldOut_ite
    | (fail_if_no_progress with_reducible refine held_upd ?_ rfl rfl rfl rfl rfl rfl rfl rfl rfl rfl rfl)
    | split
    | dsimp only
    | intro _)

theorem execCalLeaseExpired_held (s : State) (hH : Held F A B s) :
    HeldOut F A B (execCalLeaseExpired s) := by
  unfold execCalLeaseExpired
  try dsimp only
  repeat (any_goals first
    | with_reducible assumption
    | with_reducible apply State.modReport_held
    | with_reducible apply held_ite
    | with_reducible apply heldOut_next
    | with_reducible apply heldOut_fault
    | with_reducible apply heldOut_ite
    | (fail_if_no_progress with_reducible refine held_upd ?_ rfl rfl rfl rfl rfl rfl rfl rfl rfl rfl rfl)
    | split
    | dsimp only
    | intro _)

theorem State.reportCal_held (f : W32) (r : CalReport) (s : State) (hH : Held F A B s) :
    Held F A B (State.reportCal f r s) := by
  unfold State.reportCal
  try dsimp only
  repeat (any_goals first
    | with_reducible assumption
    | with_reducible apply State.eventAt_held
    | with_reducible apply held_ite
    | (fail_if_no_progress with_reducible refine held_upd ?_ rfl rfl rfl rfl rfl rfl rfl rfl rfl rfl rfl)
    | split
    | dsimp only
    | intro _)

end Sys2Proof.Machine
end

