-- ==== Sys2Proof/Laws/HeldDaliEv.lean ====
section
/-! SUPPORT. What the operations of Machine/DaliEv.lean keep (Laws/Held.lean). -/

namespace Sys2Proof.Machine

variable {F : FuseBlock} {A B : Prop}

set_option linter.unusedTactic false
set_option linter.unreachableTactic false
set_option linter.unusedVariables false

theorem State.daliStore_held (d : DaliItem) (s : State) (hH : Held F A B s) :
    Held F A B (State.daliStore d s) := by
  unfold State.daliStore
  try dsimp only
  repeat (any_goals first
    | with_reducible assumption
    | with_reducible apply State.requestItem_held
    | with_reducible apply held_ite
    | (fail_if_no_progress with_reducible refine held_upd ?_ rfl rfl rfl rfl rfl rfl rfl rfl rfl rfl rfl)
    | split
    | dsimp only
    | intro _)

theorem State.daliAnswer_held (a : Option Byte) (s : State) (hH : Held F A B s) :
    Held F A B (State.daliAnswer a s) := by
  unfold State.daliAnswer
  try dsimp only
  repeat (any_goals first
    | with_reducible assumption
    | (fail_if_no_progress with_reducible refine held_upd ?_ rfl rfl rfl rfl rfl rfl rfl rfl rfl rfl rfl)
    | split
    | dsimp only
    | intro _)

theorem State.daliSpecial_held (cmd v : Byte) (s : State) (hH : Held F A B s) :
    Held F A B (State.daliSpecial cmd v s) := by
  unfold State.daliSpecial
  try dsimp only
  repeat (any_goals first
    | with_reducible assumption
    | with_reducible apply State.drawn_held
    | with_reducible apply State.daliStore_held
    | with_reducible apply State.daliAnswer_held
    | with_reducible apply held_ite
    | (fail_if_no_progress with_reducible refine held_upd ?_ rfl rfl rfl rfl rfl rfl rfl rfl rfl rfl rfl)
    | split
    | dsimp only
    | intro _)

theorem execDaliFrameReceive_held (f : DaliFrame) (s : State) (hH : Held F A B s) :
    HeldOut F A B (execDaliFrameReceive f s) := by
  unfold execDaliFrameReceive
  try dsimp only
  repeat (any_goals first
    | with_reducible assumption
    | with_reducible apply State.daliStore_held
    | with_reducible apply State.daliAnswer_held
    | with_reducible apply State.daliSpecial_held
    | with_reducible apply held_ite
    | with_reducible apply heldOut_next
    | with_reducible apply heldOut_fault
    | with_reducible apply heldOut_ite
    | (fail_if_no_progress with_reducible refine held_upd ?_ rfl rfl rfl rfl rfl rfl rfl rfl rfl rfl rfl)
    | split
    | dsimp only
    | intro _)

theorem execDaliBusPowerLost_held (s : State) (hH : Held F A B s) :
    HeldOut F A B (execDaliBusPowerLost s) := by
  unfold execDaliBusPowerLost
  try dsimp only
  repeat (any_goals first
    | with_reducible assumption
    | with_reducible apply held_ite
    | with_reducible apply heldOut_next
    | with_reducible apply heldOut_fault
    | with_reducible apply heldOut_ite
    | (fail_if_no_progress with_reducible refine held_upd ?_ rfl rfl rfl rfl rfl rfl rfl rfl rfl rfl rfl)
    | split
    | dsimp only
    | intro _)

theorem execDaliBusPowerRestored_held (s : State) (hH : Held F A B s) :
    HeldOut F A B (execDaliBusPowerRestored s) := by
  unfold execDaliBusPowerRestored
  try dsimp only
  repeat (any_goals first
    | with_reducible assumption
    | with_reducible apply held_ite
    | with_reducible apply heldOut_next
    | with_reducible apply heldOut_fault
    | with_reducible apply heldOut_ite
    | (fail_if_no_progress with_reducible refine held_upd ?_ rfl rfl rfl rfl rfl rfl rfl rfl rfl rfl rfl)
    | split
    | dsimp only
    | intro _)

theorem State.daliEvent_held (inst : Fin 2) (s : State) (hH : Held F A B s) :
    Held F A B (State.daliEvent inst s) := by
  unfold State.daliEvent
  try dsimp only
  repeat (any_goals first
    | with_reducible assumption
    | with_reducible apply held_ite
    | (fail_if_no_progress with_reducible refine held_upd ?_ rfl rfl rfl rfl rfl rfl rfl rfl rfl rfl rfl)
    | split
    | dsimp only
    | intro _)

theorem execDaliReportTimer_held (inst : Fin 2) (s : State) (hH : Held F A B s) :
    HeldOut F A B (execDaliReportTimer inst s) := by
  unfold execDaliReportTimer
  try dsimp only
  repeat (any_goals first
    | with_reducible assumption
    | with_reducible apply State.daliEvent_held
    | with_reducible apply held_ite
    | with_reducible apply heldOut_next
    | with_reducible apply heldOut_fault
    | with_reducible apply heldOut_ite
    | (fail_if_no_progress with_reducible refine held_upd ?_ rfl rfl rfl rfl rfl rfl rfl rfl rfl rfl rfl)
    | split
    | dsimp only
    | intro _)

theorem execDaliEventSend_held (collided : Bool) (s : State) (hH : Held F A B s) :
    HeldOut F A B (execDaliEventSend collided s) := by
  unfold execDaliEventSend
  try dsimp only
  repeat (any_goals first
    | with_reducible assumption
    | with_reducible apply held_ite
    | with_reducible apply heldOut_next
    | with_reducible apply heldOut_fault
    | with_reducible apply heldOut_ite
    | (fail_if_no_progress with_reducible refine held_upd ?_ rfl rfl rfl rfl rfl rfl rfl rfl rfl rfl rfl)
    | split
    | dsimp only
    | intro _)

end Sys2Proof.Machine
end

