-- ==== Sys2Proof/Laws/HeldHostEv.lean ====
section
/-! SUPPORT. What the operations of Machine/HostEv.lean keep (Laws/Held.lean). -/

namespace Sys2Proof.Machine

variable {F : FuseBlock} {A B : Prop}

set_option linter.unusedTactic false
set_option linter.unreachableTactic false
set_option linter.unusedVariables false

theorem State.selectBus_held (b : HostBus) (s : State) (hH : Held F A B s) :
    Held F A B (State.selectBus b s) := by
  unfold State.selectBus
  try dsimp only
  repeat (any_goals first
    | with_reducible assumption
    | (fail_if_no_progress with_reducible refine held_upd ?_ rfl rfl rfl rfl rfl rfl rfl rfl rfl rfl rfl)
    | split
    | dsimp only
    | intro _)

theorem State.endXfer_held (s : State) (hH : Held F A B s) :
    Held F A B (State.endXfer s) := by
  unfold State.endXfer
  try dsimp only
  repeat (any_goals first
    | with_reducible assumption
    | with_reducible apply State.clearBinding_held
    | with_reducible apply held_ite
    | (fail_if_no_progress with_reducible refine held_upd ?_ rfl rfl rfl rfl rfl rfl rfl rfl rfl rfl rfl)
    | split
    | dsimp only
    | intro _)

theorem State.startXfer_held (bus : HostBus) (read : Bool) (index : Nat) (dead : Bool) (s : State) (hH : Held F A B s) :
    Held F A B (State.startXfer bus read index dead s) := by
  unfold State.startXfer
  try dsimp only
  repeat (any_goals first
    | with_reducible assumption
    | with_reducible apply State.selectBus_held
    | with_reducible apply State.endXfer_held
    | with_reducible apply held_ite
    | (fail_if_no_progress with_reducible refine held_upd ?_ rfl rfl rfl rfl rfl rfl rfl rfl rfl rfl rfl)
    | split
    | dsimp only
    | intro _)

theorem State.fifoXfer_held (bus : HostBus) (read : Bool) (index : Nat) (s : State) (hH : Held F A B s) :
    Held F A B (State.fifoXfer bus read index s) := by
  unfold State.fifoXfer
  try dsimp only
  repeat (any_goals first
    | with_reducible assumption
    | with_reducible apply State.startXfer_held
    | with_reducible apply held_ite
    | (fail_if_no_progress with_reducible refine held_upd ?_ rfl rfl rfl rfl rfl rfl rfl rfl rfl rfl rfl)
    | split
    | dsimp only
    | intro _)

theorem State.writeTxByte_held (b : Byte) (x : Xfer) (s : State) (hH : Held F A B s) :
    Held F A B (State.writeTxByte b x s) := by
  unfold State.writeTxByte
  try dsimp only
  repeat (any_goals first
    | with_reducible assumption
    | with_reducible apply State.trafficWake_held
    | with_reducible apply held_ite
    | (fail_if_no_progress with_reducible refine held_upd ?_ rfl rfl rfl rfl rfl rfl rfl rfl rfl rfl rfl)
    | split
    | dsimp only
    | intro _)

theorem State.writeByte_held (s : State) (b : Byte) (hH : Held F A B s) :
    Held F A B (State.writeByte s b) := by
  unfold State.writeByte
  try dsimp only
  repeat (any_goals first
    | with_reducible assumption
    | with_reducible apply State.writeTxByte_held
    | with_reducible apply held_ite
    | (fail_if_no_progress with_reducible refine held_upd ?_ rfl rfl rfl rfl rfl rfl rfl rfl rfl rfl rfl)
    | split
    | dsimp only
    | intro _)

theorem State.latchTime_held (s : State) (hH : Held F A B s) :
    Held F A B (State.latchTime s) := by
  unfold State.latchTime
  try dsimp only
  repeat (any_goals first
    | with_reducible assumption
    | (fail_if_no_progress with_reducible refine held_upd ?_ rfl rfl rfl rfl rfl rfl rfl rfl rfl rfl rfl)
    | split
    | dsimp only
    | intro _)

theorem State.packetRead_held (k : OutPacket) (s : State) (hH : Held F A B s) :
    Held F A B (State.packetRead k s) := by
  unfold State.packetRead
  try dsimp only
  repeat (any_goals first
    | with_reducible assumption
    | with_reducible apply State.untagged_held
    | with_reducible apply State.markCarried_held
    | with_reducible apply held_ite
    | (fail_if_no_progress with_reducible refine held_upd ?_ rfl rfl rfl rfl rfl rfl rfl rfl rfl rfl rfl)
    | split
    | dsimp only
    | intro _)

theorem State.readRxByte_held (s : State) (hH : Held F A B s) :
    Held F A B (State.readRxByte s).2 := by
  unfold State.readRxByte
  try dsimp only
  repeat (any_goals first
    | with_reducible assumption
    | with_reducible apply State.packetRead_held
    | with_reducible apply held_ite
    | (fail_if_no_progress with_reducible refine held_upd ?_ rfl rfl rfl rfl rfl rfl rfl rfl rfl rfl rfl)
    | split
    | dsimp only
    | intro _)

theorem State.captureRegister_held (i : Nat) (s : State) (hH : Held F A B s) :
    Held F A B (State.captureRegister i s).2 := by
  unfold State.captureRegister
  try dsimp only
  repeat (any_goals first
    | with_reducible assumption
    | with_reducible apply State.latchTime_held
    | with_reducible apply held_ite
    | (fail_if_no_progress with_reducible refine held_upd ?_ rfl rfl rfl rfl rfl rfl rfl rfl rfl rfl rfl)
    | split
    | dsimp only
    | intro _)

theorem State.readByte_held (s : State) (hH : Held F A B s) :
    Held F A B (State.readByte s).2 := by
  unfold State.readByte
  try dsimp only
  repeat (any_goals first
    | with_reducible assumption
    | refine snd_held (by assumption) ?_
    | with_reducible apply State.readRxByte_held
    | with_reducible apply State.captureRegister_held
    | with_reducible apply held_ite
    | (fail_if_no_progress with_reducible refine held_upd ?_ rfl rfl rfl rfl rfl rfl rfl rfl rfl rfl rfl)
    | split
    | dsimp only
    | intro _)

theorem State.readMany_held (n : Nat) (s : State) (h : Held F A B s) : Held F A B (s.readMany n).2 := by
  induction n generalizing s with
  | zero => exact h
  | succ n ih => exact ih _ (State.readByte_held _ h)


theorem State.hostRead_held (n : Nat) (s : State) (h : Held F A B s) : Held F A B (s.hostRead n) := by
  have h1 := State.readMany_held n _ (held_same (t := { s with host := { s.host with readOut := [] } }) h rfl ⟨rfl, rfl, rfl, rfl⟩
    ⟨rfl, rfl, rfl, rfl, rfl⟩ rfl)
  exact held_same h1 rfl ⟨rfl, rfl, rfl, rfl⟩ ⟨rfl, rfl, rfl, rfl, rfl⟩ rfl


theorem execTxfifo_held (bus : HostBus) (bytes : List Byte) (ends : Bool) (s : State) (hH : Held F A B s) :
    HeldOut F A B (execTxfifo bus bytes ends s) := by
  unfold execTxfifo
  try dsimp only
  repeat (any_goals first
    | with_reducible assumption
    | intro _ _ _
    | with_reducible apply State.endXfer_held
    | with_reducible apply State.fifoXfer_held
    | with_reducible apply State.writeByte_held
    | with_reducible apply foldl_held
    | with_reducible apply held_ite
    | with_reducible apply heldOut_next
    | with_reducible apply heldOut_fault
    | with_reducible apply heldOut_ite
    | (fail_if_no_progress with_reducible refine held_upd ?_ rfl rfl rfl rfl rfl rfl rfl rfl rfl rfl rfl)
    | split
    | dsimp only
    | intro _)

theorem execTxfifoPacketToIntake_held (s : State) (h : Held F A B s) : HeldOut F A B (execTxfifoPacketToIntake s) := by
  unfold execTxfifoPacketToIntake
  refine heldOut_next ?_
  split
  · exact h
  · rename_i pk rest _
    have h1 : Held F A B { s with host := { s.host with tx := rest } } := held_same h rfl ⟨rfl, rfl, rfl, rfl⟩ ⟨rfl, rfl, rfl, rfl, rfl⟩ rfl
    refine held_ite h (held_ite (State.bindMiss_held _ h1) ?_)
    split
    · exact State.intake_held _ _ h1 (by assumption)
    · exact h


theorem execRxfifo_held (bus : HostBus) (bytes : Nat) (ends : Bool) (s : State) (hH : Held F A B s) :
    HeldOut F A B (execRxfifo bus bytes ends s) := by
  unfold execRxfifo
  try dsimp only
  repeat (any_goals first
    | with_reducible assumption
    | with_reducible apply State.sysResetDue_held
    | with_reducible apply State.endXfer_held
    | with_reducible apply State.fifoXfer_held
    | with_reducible apply State.hostRead_held
    | with_reducible apply held_ite
    | with_reducible apply heldOut_next
    | with_reducible apply heldOut_fault
    | with_reducible apply heldOut_ite
    | (fail_if_no_progress with_reducible refine held_upd ?_ rfl rfl rfl rfl rfl rfl rfl rfl rfl rfl rfl)
    | split
    | dsimp only
    | intro _)

theorem State.pushRx_held (k : OutPacket) (s : State) (hH : Held F A B s) :
    Held F A B (State.pushRx k s) := by
  unfold State.pushRx
  try dsimp only
  repeat (any_goals first
    | with_reducible assumption
    | (fail_if_no_progress with_reducible refine held_upd ?_ rfl rfl rfl rfl rfl rfl rfl rfl rfl rfl rfl)
    | split
    | dsimp only
    | intro _)

theorem State.sendFragment_held (p : PolId) (mine : DlvRec → Bool) (s : State) (h : Held F A B s) :
    Held F A B (s.modPol p (fun q => { q with dlv := sendFragment mine q.dlv })) := by
  refine State.modPol_held h fun hq => ?_
  rw [Polder.queuesWf_iff] at hq ⊢
  exact ⟨hq.1, hq.2.1, hq.2.2.1, Nat.le_trans (dlvPlaces_sendFragment _ _) hq.2.2.2⟩

theorem execRxfifoEnqueue_held (s : State) (h : Held F A B s) : HeldOut F A B (execRxfifoEnqueue s) := by
  unfold execRxfifoEnqueue
  refine heldOut_next (held_ite h ?_)
  split
  · exact held_ite (State.pushRx_held _ _ (held_same h rfl ⟨rfl, rfl, rfl, rfl⟩ ⟨rfl, rfl, rfl, rfl, rfl⟩ rfl)) h
  · refine held_ite h ?_
    split
    · exact State.pushRx_held _ _ (State.modPol_held h id)
    · split
      · exact State.pushRx_held _ _ (State.sendFragment_held _ _ _ h)
      · exact h


theorem execIrqFlags_held (w : W32) (s : State) (hH : Held F A B s) :
    HeldOut F A B (execIrqFlags w s) := by
  unfold execIrqFlags
  try dsimp only
  repeat (any_goals first
    | with_reducible assumption
    | with_reducible apply held_ite
    | with_reducible apply heldOut_next
    | with_reducible apply heldOut_fault
    | with_reducible apply heldOut_ite
    | (fail_if_no_progress with_reducible refine held_upd ?_ rfl rfl rfl rfl rfl rfl rfl rfl rfl rfl rfl)
    | split
    | dsimp only
    | intro _)

theorem execHostRegisterWrite_held (bus : HostBus) (header : Byte) (read : Bool) (bytes : List Byte) (ends : Bool) (s : State) (hH : Held F A B s) :
    HeldOut F A B (execHostRegisterWrite bus header read bytes ends s) := by
  unfold execHostRegisterWrite
  try dsimp only
  repeat (any_goals first
    | with_reducible assumption
    | intro _ _ _
    | with_reducible apply State.sysResetDue_held
    | with_reducible apply State.endXfer_held
    | with_reducible apply State.startXfer_held
    | with_reducible apply State.writeByte_held
    | with_reducible apply State.hostRead_held
    | with_reducible apply foldl_held
    | with_reducible apply held_ite
    | with_reducible apply heldOut_next
    | with_reducible apply heldOut_fault
    | with_reducible apply heldOut_ite
    | (fail_if_no_progress with_reducible refine held_upd ?_ rfl rfl rfl rfl rfl rfl rfl rfl rfl rfl rfl)
    | split
    | dsimp only
    | intro _)

theorem execTimeSubRead_held (s : State) (hH : Held F A B s) :
    HeldOut F A B (execTimeSubRead s) := by
  unfold execTimeSubRead
  try dsimp only
  repeat (any_goals first
    | with_reducible assumption
    | with_reducible apply State.latchTime_held
    | with_reducible apply held_ite
    | with_reducible apply heldOut_next
    | with_reducible apply heldOut_fault
    | with_reducible apply heldOut_ite
    | (fail_if_no_progress with_reducible refine held_upd ?_ rfl rfl rfl rfl rfl rfl rfl rfl rfl rfl rfl)
    | split
    | dsimp only
    | intro _)

end Sys2Proof.Machine
end

