-- ==== Sys2Proof/Laws/HeldLine.lean ====
section
/-! SUPPORT. What the operations of Machine/Line.lean keep (Laws/Held.lean). -/

namespace Sys2Proof.Machine

variable {F : FuseBlock} {A B : Prop}

set_option linter.unusedTactic false
set_option linter.unreachableTactic false
set_option linter.unusedVariables false

theorem State.newCycle_held (p : Port) (c : W32) (lentNow lentNext : Bool) (s : State) (hH : Held F A B s) :
    Held F A B (State.newCycle p c lentNow lentNext s) := by
  unfold State.newCycle
  try dsimp only
  repeat (any_goals first
    | with_reducible assumption
    | with_reducible apply State.modPort_held
    | with_reducible apply held_ite
    | (fail_if_no_progress with_reducible refine held_upd ?_ rfl rfl rfl rfl rfl rfl rfl rfl rfl rfl rfl)
    | split
    | dsimp only
    | intro _)

theorem State.queueJoin_held (p : Port) (reclaim : Bool) (s : State) (hH : Held F A B s) :
    Held F A B (State.queueJoin p reclaim s) := by
  unfold State.queueJoin
  try dsimp only
  repeat (any_goals first
    | with_reducible assumption
    | with_reducible apply State.contend_held
    | with_reducible apply held_ite
    | (fail_if_no_progress with_reducible refine held_upd ?_ rfl rfl rfl rfl rfl rfl rfl rfl rfl rfl rfl)
    | split
    | dsimp only
    | intro _)

theorem State.putLine_held (p : Port) (slotted : Bool) (f : TxFrame) (s : State) (hH : Held F A B s) :
    Held F A B (State.putLine p slotted f s) := by
  unfold State.putLine
  try dsimp only
  repeat (any_goals first
    | with_reducible assumption
    | with_reducible apply State.modPort_held
    | (fail_if_no_progress with_reducible refine held_upd ?_ rfl rfl rfl rfl rfl rfl rfl rfl rfl rfl rfl)
    | split
    | dsimp only
    | intro _)

theorem State.packetCarried_held (k : OutPacket) (s : State) (hH : Held F A B s) :
    Held F A B (State.packetCarried k s) := by
  unfold State.packetCarried
  try dsimp only
  repeat (any_goals first
    | with_reducible assumption
    | with_reducible apply State.packetRead_held
    | (fail_if_no_progress with_reducible refine held_upd ?_ rfl rfl rfl rfl rfl rfl rfl rfl rfl rfl rfl)
    | split
    | dsimp only
    | intro _)

theorem State.packetGivenUp_held (k : OutPacket) (s : State) (h : Held F A B s) : Held F A B (State.packetGivenUp k s) := by
  unfold State.packetGivenUp
  split
  · refine State.modPol_held h fun hq => ?_
    rw [Polder.queuesWf_iff] at hq ⊢
    exact ⟨hq.1, hq.2.1, hq.2.2.1, Nat.le_trans (dlvPlaces_filter _ _) hq.2.2.2⟩
  · exact State.packetCarried_held _ _ h


theorem State.giveUp_held (p : Port) (u : Unacked) (s : State) (hH : Held F A B s) :
    Held F A B (State.giveUp p u s) := by
  unfold State.giveUp
  try dsimp only
  repeat (any_goals first
    | with_reducible assumption
    | with_reducible apply State.modPort_held
    | with_reducible apply State.countPort_held
    | with_reducible apply State.packetGivenUp_held
    | with_reducible apply held_ite
    | (fail_if_no_progress with_reducible refine held_upd ?_ rfl rfl rfl rfl rfl rfl rfl rfl rfl rfl rfl)
    | split
    | dsimp only
    | intro _)

theorem State.acknowledged_held (p : Port) (u : Unacked) (s : State) (hH : Held F A B s) :
    Held F A B (State.acknowledged p u s) := by
  unfold State.acknowledged
  try dsimp only
  repeat (any_goals first
    | with_reducible assumption
    | with_reducible apply State.modPort_held
    | with_reducible apply State.packetCarried_held
    | with_reducible apply held_ite
    | (fail_if_no_progress with_reducible refine held_upd ?_ rfl rfl rfl rfl rfl rfl rfl rfl rfl rfl rfl)
    | split
    | dsimp only
    | intro _)

theorem State.readAcks_held (h : Heard) (s : State) (hH : Held F A B s) :
    Held F A B (State.readAcks h s) := by
  unfold State.readAcks
  try dsimp only
  repeat (any_goals first
    | with_reducible assumption
    | intro _ _ _
    | intro _ _
    | with_reducible apply State.modPort_held
    | with_reducible apply State.acknowledged_held
    | with_reducible apply foldl_held
    | with_reducible apply held_ite
    | (fail_if_no_progress with_reducible refine held_upd ?_ rfl rfl rfl rfl rfl rfl rfl rfl rfl rfl rfl)
    | split
    | dsimp only
    | intro _)

theorem State.losePort_held (p : Port) (s : State) (hH : Held F A B s) :
    Held F A B (State.losePort p s) := by
  unfold State.losePort
  try dsimp only
  repeat (any_goals first
    | with_reducible assumption
    | intro _ _ _
    | intro _ _
    | with_reducible apply State.modPort_held
    | with_reducible apply State.giveUp_held
    | with_reducible apply foldl_held
    | (fail_if_no_progress with_reducible refine held_upd ?_ rfl rfl rfl rfl rfl rfl rfl rfl rfl rfl rfl)
    | split
    | dsimp only
    | intro _)

theorem State.hear_held (h : Heard) (s : State) (hH : Held F A B s) :
    Held F A B (State.hear h s) := by
  unfold State.hear
  try dsimp only
  repeat (any_goals first
    | with_reducible assumption
    | with_reducible apply State.modPort_held
    | with_reducible apply State.countPort_held
    | with_reducible apply State.patientEvent_held
    | with_reducible apply State.queueJoin_held
    | with_reducible apply held_ite
    | (fail_if_no_progress with_reducible refine held_upd ?_ rfl rfl rfl rfl rfl rfl rfl rfl rfl rfl rfl)
    | split
    | dsimp only
    | intro _)

theorem State.rxOk_held (p : Port) (s : State) (hH : Held F A B s) :
    Held F A B (State.rxOk p s) := by
  unfold State.rxOk
  try dsimp only
  repeat (any_goals first
    | with_reducible assumption
    | with_reducible apply State.countPort_held
    | (fail_if_no_progress with_reducible refine held_upd ?_ rfl rfl rfl rfl rfl rfl rfl rfl rfl rfl rfl)
    | split
    | dsimp only
    | intro _)

theorem State.willAck_held (h : Heard) (s : State) (hH : Held F A B s) :
    Held F A B (State.willAck h s) := by
  unfold State.willAck
  try dsimp only
  repeat (any_goals first
    | with_reducible assumption
    | with_reducible apply State.modPort_held
    | (fail_if_no_progress with_reducible refine held_upd ?_ rfl rfl rfl rfl rfl rfl rfl rfl rfl rfl rfl)
    | split
    | dsimp only
    | intro _)

theorem State.buffer_held (from_ out : Port) (f : FwdFrame) (s : State) (hH : Held F A B s) :
    Held F A B (State.buffer from_ out f s).2 := by
  unfold State.buffer
  try dsimp only
  repeat (any_goals first
    | with_reducible assumption
    | with_reducible apply State.modPort_held
    | with_reducible apply State.countPort_held
    | with_reducible apply held_ite
    | (fail_if_no_progress with_reducible refine held_upd ?_ rfl rfl rfl rfl rfl rfl rfl rfl rfl rfl rfl)
    | split
    | dsimp only
    | intro _)

theorem State.receiveHop_held (h : Heard) (pol : Option PolId) (body : TxBody) (s : State) (hH : Held F A B s) :
    Held F A B (State.receiveHop h pol body s).2 := by
  unfold State.receiveHop
  try dsimp only
  repeat (any_goals first
    | with_reducible assumption
    | refine snd_held (by assumption) ?_
    | intro _ _
    | with_reducible apply State.modPort_held
    | with_reducible apply State.countPort_held
    | with_reducible apply State.rxOk_held
    | with_reducible apply State.willAck_held
    | with_reducible apply State.buffer_held
    | with_reducible apply held_ite
    | (fail_if_no_progress with_reducible refine held_upd ?_ rfl rfl rfl rfl rfl rfl rfl rfl rfl rfl rfl)
    | split
    | dsimp only
    | intro _)

theorem State.heardOn_held (f : LineRx) (is : Heard → Bool) (act : Heard → State → State) (s : State) (hH : Held F A B s) (hf : ∀ h s, Held F A B s → Held F A B (act h s)) :
    Held F A B (State.heardOn f is act s) := by
  unfold State.heardOn
  try dsimp only
  repeat (any_goals first
    | with_reducible assumption
    | apply hf
    | with_reducible apply State.countPort_held
    | with_reducible apply State.sysResetDue_held
    | with_reducible apply State.readAcks_held
    | with_reducible apply State.hear_held
    | with_reducible apply held_ite
    | (fail_if_no_progress with_reducible refine held_upd ?_ rfl rfl rfl rfl rfl rfl rfl rfl rfl rfl rfl)
    | split
    | dsimp only
    | intro _)

theorem State.keyed_held (act : Heard → State → State) (h : Heard) (s : State) (hH : Held F A B s) (hf : ∀ h s, Held F A B s → Held F A B (act h s)) :
    Held F A B (State.keyed act h s) := by
  unfold State.keyed
  try dsimp only
  repeat (any_goals first
    | with_reducible assumption
    | apply hf
    | with_reducible apply State.countPort_held
    | with_reducible apply held_ite
    | (fail_if_no_progress with_reducible refine held_upd ?_ rfl rfl rfl rfl rfl rfl rfl rfl rfl rfl rfl)
    | split
    | dsimp only
    | intro _)

end Sys2Proof.Machine
end

