-- ==== Sys2Proof/Laws/HeldFaultEv.lean ====
section
/-! SUPPORT. What the operations of Machine/FaultEv.lean keep (Laws/Held.lean). -/

namespace Sys2Proof.Machine

variable {F : FuseBlock} {A B : Prop}

set_option linter.unusedTactic false
set_option linter.unreachableTactic false
set_option linter.unusedVariables false

theorem State.modFaultSlot_held (f : Slot → Slot) (s : State) (hH : Held F A B s) :
    Held F A B (State.modFaultSlot f s) := by
  unfold State.modFaultSlot
  try dsimp only
  repeat (any_goals first
    | with_reducible assumption
    | with_reducible apply held_ite
    | (fail_if_no_progress with_reducible refine held_upd ?_ rfl rfl rfl rfl rfl rfl rfl rfl rfl rfl rfl)
    | split
    | dsimp only
    | intro _)

theorem State.voidData_held (kind block lane : Nat) (x : Slot) (s : State) (hH : Held F A B s) :
    Held F A B (State.voidData kind block lane x s) := by
  unfold State.voidData
  try dsimp only
  repeat (any_goals first
    | with_reducible assumption
    | with_reducible apply State.ownerEvent_held
    | with_reducible apply State.modFaultSlot_held
    | with_reducible apply held_ite
    | (fail_if_no_progress with_reducible refine held_upd ?_ rfl rfl rfl rfl rfl rfl rfl rfl rfl rfl rfl)
    | split
    | dsimp only
    | intro _)

theorem State.countFaultSlot_held (b : Fin 12) (x : Slot) (s : State) (hH : Held F A B s) :
    Held F A B (State.countFaultSlot b x s) := by
  unfold State.countFaultSlot
  try dsimp only
  repeat (any_goals first
    | with_reducible assumption
    | with_reducible apply State.modFaultSlot_held
    | with_reducible apply held_ite
    | (fail_if_no_progress with_reducible refine held_upd ?_ rfl rfl rfl rfl rfl rfl rfl rfl rfl rfl rfl)
    | split
    | dsimp only
    | intro _)

theorem State.faultLoss_held (b : Fin 12) (inReference : Bool) (x : Slot) (s : State) (hH : Held F A B s) :
    Held F A B (State.faultLoss b inReference x s) := by
  unfold State.faultLoss
  try dsimp only
  repeat (any_goals first
    | with_reducible assumption
    | exact id
    | exact fun _ => rfl
    | exact fun hq => Polder.emptied_queuesWf hq rfl rfl rfl rfl
    | with_reducible refine State.modPol_held ?_ ?_
    | with_reducible apply held_ite
    | (fail_if_no_progress with_reducible refine held_upd ?_ rfl rfl rfl rfl rfl rfl rfl rfl rfl rfl rfl)
    | split
    | dsimp only
    | intro _)

theorem execDataFault_held (parity : Bool) (block : Fin 12) (lane : Fin 4) (inReference : Bool) (s : State) (hH : Held F A B s) :
    HeldOut F A B (execDataFault parity block lane inReference s) := by
  unfold execDataFault
  try dsimp only
  repeat (any_goals first
    | with_reducible assumption
    | with_reducible apply State.voidData_held
    | with_reducible apply State.countFaultSlot_held
    | with_reducible apply State.faultLoss_held
    | with_reducible apply held_ite
    | with_reducible apply heldOut_next
    | with_reducible apply heldOut_fault
    | with_reducible apply heldOut_ite
    | (fail_if_no_progress with_reducible refine held_upd ?_ rfl rfl rfl rfl rfl rfl rfl rfl rfl rfl rfl)
    | split
    | dsimp only
    | intro _)

theorem State.abandonPage_held (s : State) (hH : Held F A B s) :
    Held F A B (State.abandonPage s) := by
  unfold State.abandonPage
  try dsimp only
  repeat (any_goals first
    | with_reducible assumption
    | with_reducible apply State.answerPage_held
    | with_reducible apply held_ite
    | (fail_if_no_progress with_reducible refine held_upd ?_ rfl rfl rfl rfl rfl rfl rfl rfl rfl rfl rfl)
    | split
    | dsimp only
    | intro _)

theorem execUncorrectableWord_held (block : Fin 12) (s : State) (hH : Held F A B s) :
    HeldOut F A B (execUncorrectableWord block s) := by
  unfold execUncorrectableWord
  try dsimp only
  repeat (any_goals first
    | with_reducible assumption
    | with_reducible apply State.restart_held
    | with_reducible apply State.sysResetDue_held
    | with_reducible apply State.losePort_held
    | with_reducible apply State.abandonPage_held
    | with_reducible apply held_ite
    | with_reducible apply heldOut_next
    | with_reducible apply heldOut_fault
    | with_reducible apply heldOut_ite
    | (fail_if_no_progress with_reducible refine held_upd ?_ rfl rfl rfl rfl rfl rfl rfl rfl rfl rfl rfl)
    | split
    | dsimp only
    | intro _)

theorem State.loseMeasuring_held (s : State) (hH : Held F A B s) :
    Held F A B (State.loseMeasuring s) := by
  unfold State.loseMeasuring
  try dsimp only
  repeat (any_goals first
    | with_reducible assumption
    | with_reducible apply held_ite
    | (fail_if_no_progress with_reducible refine held_upd ?_ rfl rfl rfl rfl rfl rfl rfl rfl rfl rfl rfl)
    | split
    | dsimp only
    | intro _)

theorem execLockLost_held (s : State) (hH : Held F A B s) :
    HeldOut F A B (execLockLost s) := by
  unfold execLockLost
  try dsimp only
  repeat (any_goals first
    | with_reducible assumption
    | with_reducible apply State.loseMeasuring_held
    | with_reducible apply held_ite
    | with_reducible apply heldOut_next
    | with_reducible apply heldOut_fault
    | with_reducible apply heldOut_ite
    | (fail_if_no_progress with_reducible refine held_upd ?_ rfl rfl rfl rfl rfl rfl rfl rfl rfl rfl rfl)
    | split
    | dsimp only
    | intro _)

theorem State.endHold_held (h : ClockHold) (s : State) (hH : Held F A B s) :
    Held F A B (State.endHold h s) := by
  unfold State.endHold
  try dsimp only
  repeat (any_goals first
    | with_reducible assumption
    | with_reducible apply State.issueAll_held
    | with_reducible apply State.ownerEvent_held
    | (fail_if_no_progress with_reducible refine held_upd ?_ rfl rfl rfl rfl rfl rfl rfl rfl rfl rfl rfl)
    | split
    | dsimp only
    | intro _)

theorem execRelockAttemptEnd_held (locked : Bool) (s : State) (hH : Held F A B s) :
    HeldOut F A B (execRelockAttemptEnd locked s) := by
  unfold execRelockAttemptEnd
  try dsimp only
  repeat (any_goals first
    | with_reducible assumption
    | with_reducible apply State.restart_held
    | with_reducible apply State.endHold_held
    | with_reducible apply held_ite
    | with_reducible apply heldOut_next
    | with_reducible apply heldOut_fault
    | with_reducible apply heldOut_ite
    | (fail_if_no_progress with_reducible refine held_upd ?_ rfl rfl rfl rfl rfl rfl rfl rfl rfl rfl rfl)
    | split
    | dsimp only
    | intro _)

theorem execWatchdogExpiry_held (s : State) (hH : Held F A B s) :
    HeldOut F A B (execWatchdogExpiry s) := by
  unfold execWatchdogExpiry
  try dsimp only
  repeat (any_goals first
    | with_reducible assumption
    | with_reducible apply State.restart_held
    | with_reducible apply held_ite
    | with_reducible apply heldOut_next
    | with_reducible apply heldOut_fault
    | with_reducible apply heldOut_ite
    | (fail_if_no_progress with_reducible refine held_upd ?_ rfl rfl rfl rfl rfl rfl rfl rfl rfl rfl rfl)
    | split
    | dsimp only
    | intro _)

end Sys2Proof.Machine
end

