-- ==== Sys2Proof/Laws/HeldHoldupEv.lean ====
section
/-! SUPPORT. What the operations of Machine/HoldupEv.lean keep (Laws/Held.lean). -/

namespace Sys2Proof.Machine

variable {F : FuseBlock} {A B : Prop}

set_option linter.unusedTactic false
set_option linter.unreachableTactic false
set_option linter.unusedVariables false

theorem State.holdJobs_held (s : State) (hH : Held F A B s) :
    Held F A B (State.holdJobs s) := by
  unfold State.holdJobs
  try dsimp only
  repeat (any_goals first
    | with_reducible assumption
    | (fail_if_no_progress with_reducible refine held_upd ?_ rfl rfl rfl rfl rfl rfl rfl rfl rfl rfl rfl)
    | split
    | dsimp only
    | intro _)

theorem State.holdupLow_held (reason : Nat) (s : State) (hH : Held F A B s) :
    Held F A B (State.holdupLow reason s) := by
  unfold State.holdupLow
  try dsimp only
  repeat (any_goals first
    | with_reducible assumption
    | with_reducible apply State.supplyEvent_held
    | with_reducible apply State.holdJobs_held
    | with_reducible apply held_ite
    | (fail_if_no_progress with_reducible refine held_upd ?_ rfl rfl rfl rfl rfl rfl rfl rfl rfl rfl rfl)
    | split
    | dsimp only
    | intro _)

theorem State.holdupJudge_held (s : State) (hH : Held F A B s) :
    Held F A B (State.holdupJudge s) := by
  unfold State.holdupJudge
  try dsimp only
  repeat (any_goals first
    | with_reducible assumption
    | with_reducible apply State.supplyEvent_held
    | with_reducible apply State.zeroFabric_held
    | with_reducible apply held_ite
    | (fail_if_no_progress with_reducible refine held_upd ?_ rfl rfl rfl rfl rfl rfl rfl rfl rfl rfl rfl)
    | split
    | dsimp only
    | intro _)

theorem State.placeStart_held (mv : Nat) (s : State) (hH : Held F A B s) :
    Held F A B (State.placeStart mv s) := by
  unfold State.placeStart
  try dsimp only
  repeat (any_goals first
    | with_reducible assumption
    | with_reducible apply State.drawn_held
    | with_reducible apply held_ite
    | (fail_if_no_progress with_reducible refine held_upd ?_ rfl rfl rfl rfl rfl rfl rfl rfl rfl rfl rfl)
    | split
    | dsimp only
    | intro _)

theorem execHoldMeasure_held (millivolts chargeMicroamps : Nat) (s : State) (hH : Held F A B s) :
    HeldOut F A B (execHoldMeasure millivolts chargeMicroamps s) := by
  unfold execHoldMeasure
  try dsimp only
  repeat (any_goals first
    | with_reducible assumption
    | with_reducible apply State.holdupLow_held
    | with_reducible apply State.holdupJudge_held
    | with_reducible apply State.placeStart_held
    | with_reducible apply held_ite
    | with_reducible apply heldOut_next
    | with_reducible apply heldOut_fault
    | with_reducible apply heldOut_ite
    | (fail_if_no_progress with_reducible refine held_upd ?_ rfl rfl rfl rfl rfl rfl rfl rfl rfl rfl rfl)
    | split
    | dsimp only
    | intro _)

theorem execPulseTest_held (fallMillivolts : Nat) (s : State) (hH : Held F A B s) :
    HeldOut F A B (execPulseTest fallMillivolts s) := by
  unfold execPulseTest
  try dsimp only
  repeat (any_goals first
    | with_reducible assumption
    | with_reducible apply State.holdupLow_held
    | with_reducible apply State.holdupJudge_held
    | with_reducible apply held_ite
    | with_reducible apply heldOut_next
    | with_reducible apply heldOut_fault
    | with_reducible apply heldOut_ite
    | (fail_if_no_progress with_reducible refine held_upd ?_ rfl rfl rfl rfl rfl rfl rfl rfl rfl rfl rfl)
    | split
    | dsimp only
    | intro _)

theorem execHoldupDeadline_held (s : State) (hH : Held F A B s) :
    HeldOut F A B (execHoldupDeadline s) := by
  unfold execHoldupDeadline
  try dsimp only
  repeat (any_goals first
    | with_reducible assumption
    | with_reducible apply State.holdupLow_held
    | with_reducible apply held_ite
    | with_reducible apply heldOut_next
    | with_reducible apply heldOut_fault
    | with_reducible apply heldOut_ite
    | (fail_if_no_progress with_reducible refine held_upd ?_ rfl rfl rfl rfl rfl rfl rfl rfl rfl rfl rfl)
    | split
    | dsimp only
    | intro _)

end Sys2Proof.Machine
end

