-- ==== Sys2Proof/Laws/HeldLifeEv.lean ====
section
/-! SUPPORT. What the operations of Machine/LifeEv.lean keep (Laws/Held.lean). -/

namespace Sys2Proof.Machine

variable {F : FuseBlock} {A B : Prop}

set_option linter.unusedTactic false
set_option linter.unreachableTactic false
set_option linter.unusedVariables false

theorem State.clearSecrets_held (s : State) (h : Held F A B s) : Held F A B (State.clearSecrets s) := by
  have h1 : Held F A B { s with pols := Vector.replicate 8 Polder.none, arr := { s.arr with cells := s.clearSecrets.arr.cells } } :=
    held_arr (held_noPols h) fun x => by
      simp only [ArrayS.storesWf, Bool.and_eq_true] at x ⊢
      exact ⟨x.1, rising_filter _ _ x.2⟩
  exact held_same h1 rfl ⟨rfl, rfl, rfl, rfl⟩ ⟨rfl, rfl, rfl, rfl, rfl⟩ rfl


/-- LC_TRANSITION_EXECUTE blows a fuse and keeps the rest. -/
theorem execLcTransitionExecute_held (s : State) (h : Held F A B s) :
    ∃ G, F.onlyBlows G = true ∧ HeldOut G A B (execLcTransitionExecute s) := by
  have same : F.onlyBlows F = true := by simp [FuseBlock.onlyBlows]
  unfold execLcTransitionExecute
  split
  · rename_i x _
    dsimp only
    split
    · exact ⟨F, same, h⟩
    · have hc : Held F A B (if (x.target == .ret || x.target == .scrapped) = true then s.clearSecrets else s) :=
        held_ite (State.clearSecrets_held _ h) h
      generalize (if (x.target == .ret || x.target == .scrapped) = true then s.clearSecrets else s) = t at hc ⊢
      have hb : Held (({ t with life := t.life.blow x.target } : State).fuses) A B { t with life := t.life.blow x.target } :=
        ⟨rfl, fun a => hc.stores a, fun b => hc.queues b⟩
      refine ⟨_, ?_, State.restart_held _ _ (State.dropCarry_held _ _ hb)⟩
      obtain ⟨f, _, _⟩ := hc
      subst f
      cases x.target <;> simp [FuseBlock.onlyBlows, State.fuses, Life.blow]
  · exact ⟨F, same, h⟩


theorem execBistStart_held (s : State) (hH : Held F A B s) :
    HeldOut F A B (execBistStart s) := by
  unfold execBistStart
  try dsimp only
  repeat (any_goals first
    | with_reducible assumption
    | with_reducible apply State.dropCarry_held
    | with_reducible apply held_ite
    | with_reducible apply heldOut_next
    | with_reducible apply heldOut_fault
    | with_reducible apply heldOut_ite
    | (fail_if_no_progress with_reducible refine held_upd ?_ rfl rfl rfl rfl rfl rfl rfl rfl rfl rfl rfl)
    | split
    | dsimp only
    | intro _)

theorem State.reinit_held (b : Nat) (s : State) (hH : Held F A B s) :
    Held F A B (State.reinit b s) := by
  unfold State.reinit
  try dsimp only
  repeat (any_goals first
    | with_reducible assumption
    | with_reducible apply State.modPort_held
    | exact id
    | exact fun _ => rfl
    | exact fun hq => Polder.emptied_queuesWf hq rfl rfl rfl rfl
    | with_reducible refine State.modPol_held ?_ ?_
    | (fail_if_no_progress with_reducible refine held_upd ?_ rfl rfl rfl rfl rfl rfl rfl rfl rfl rfl rfl)
    | split
    | dsimp only
    | intro _)

theorem execBistBlockDone_held (failed : Bool) (s : State) (hH : Held F A B s) :
    HeldOut F A B (execBistBlockDone failed s) := by
  unfold execBistBlockDone
  try dsimp only
  repeat (any_goals first
    | with_reducible assumption
    | with_reducible apply State.finishBist_held
    | with_reducible apply State.reinit_held
    | with_reducible apply held_ite
    | with_reducible apply heldOut_next
    | with_reducible apply heldOut_fault
    | with_reducible apply heldOut_ite
    | (fail_if_no_progress with_reducible refine held_upd ?_ rfl rfl rfl rfl rfl rfl rfl rfl rfl rfl rfl)
    | split
    | dsimp only
    | intro _)

end Sys2Proof.Machine
end

