-- ==== Sys2Proof/Laws/HeldJtagEv.lean ====
section
/-! SUPPORT. What the operations of Machine/JtagEv.lean keep (Laws/Held.lean). -/

namespace Sys2Proof.Machine

variable {F : FuseBlock} {A B : Prop}

set_option linter.unusedTactic false
set_option linter.unreachableTactic false
set_option linter.unusedVariables false

theorem State.loadIr_held (ir : JtagIr) (out : List Byte) (s : State) (hH : Held F A B s) :
    Held F A B (State.loadIr ir out s) := by
  unfold State.loadIr
  try dsimp only
  repeat (any_goals first
    | with_reducible assumption
    | with_reducible apply held_ite
    | (fail_if_no_progress with_reducible refine held_upd ?_ rfl rfl rfl rfl rfl rfl rfl rfl rfl rfl rfl)
    | split
    | dsimp only
    | intro _)

theorem State.jtagDo_held (ir : JtagIr) (out : List Byte) (act : State → State) (s : State) (hH : Held F A B s) (hf : ∀ s, Held F A B s → Held F A B (act s)) :
    Held F A B (State.jtagDo ir out act s) := by
  unfold State.jtagDo
  try dsimp only
  repeat (any_goals first
    | with_reducible assumption
    | apply hf
    | with_reducible apply State.loadIr_held
    | with_reducible apply held_ite
    | (fail_if_no_progress with_reducible refine held_upd ?_ rfl rfl rfl rfl rfl rfl rfl rfl rfl rfl rfl)
    | split
    | dsimp only
    | intro _)

theorem execJtagExtest_held (outputs : BitVec 99) (s : State) (hH : Held F A B s) :
    HeldOut F A B (execJtagExtest outputs s) := by
  unfold execJtagExtest
  try dsimp only
  repeat (any_goals first
    | with_reducible assumption
    | intro _ _
    | with_reducible apply State.silencePix_held
    | with_reducible apply State.jtagDo_held
    | with_reducible apply heldOut_next
    | with_reducible apply heldOut_fault
    | with_reducible apply heldOut_ite
    | (fail_if_no_progress with_reducible refine held_upd ?_ rfl rfl rfl rfl rfl rfl rfl rfl rfl rfl rfl)
    | split
    | dsimp only
    | intro _)

theorem execJtagIdcode_held (s : State) (hH : Held F A B s) :
    HeldOut F A B (execJtagIdcode s) := by
  unfold execJtagIdcode
  try dsimp only
  repeat (any_goals first
    | with_reducible assumption
    | intro _ _
    | with_reducible apply State.jtagDo_held
    | with_reducible apply heldOut_next
    | with_reducible apply heldOut_fault
    | with_reducible apply heldOut_ite
    | (fail_if_no_progress with_reducible refine held_upd ?_ rfl rfl rfl rfl rfl rfl rfl rfl rfl rfl rfl)
    | split
    | dsimp only
    | intro _)

theorem execJtagSamplePreload_held (lands : BitVec 99) (s : State) (hH : Held F A B s) :
    HeldOut F A B (execJtagSamplePreload lands s) := by
  unfold execJtagSamplePreload
  try dsimp only
  repeat (any_goals first
    | with_reducible assumption
    | intro _ _
    | with_reducible apply State.jtagDo_held
    | with_reducible apply heldOut_next
    | with_reducible apply heldOut_fault
    | with_reducible apply heldOut_ite
    | (fail_if_no_progress with_reducible refine held_upd ?_ rfl rfl rfl rfl rfl rfl rfl rfl rfl rfl rfl)
    | split
    | dsimp only
    | intro _)

theorem execJtagDebug_held (a : DebugAction) (s : State) (h : Held F A B s) : HeldOut F A B (execJtagDebug a s) := by
  refine heldOut_next (State.jtagDo_held _ _ _ _ h fun t ht => ?_)
  cases a with
  | halt => exact held_tcm ht id
  | step => exact ht
  | resume => exact State.issueAll_held _ (held_tcm ht fun hr => rising_filter _ _ hr)
  | readTcm n =>
    refine held_ite ht ?_
    split
    · exact held_tcm ht id
    · exact State.drawn_held _ (held_tcm ht id)
  | writeTcm n b => exact held_ite ht (held_tcm ht (rising_tcmWrite _ _ _))


theorem rising_pages (f : Nat → List Byte) (l : List Nat) (m : List Host.Cell) (h : rising m = true) :
    rising (l.foldl (fun m a => storePage m a (f a)) m) = true := by
  induction l generalizing m with
  | nil => exact h
  | cons a l ih => exact ih _ (rising_storePage _ _ _ h)

theorem State.spoilCopies_held (page : Nat) (s : State) (h : Held F A B s) : Held F A B (State.spoilCopies page s) := by
  unfold State.spoilCopies
  refine held_arr h fun x => ?_
  simp only [ArrayS.storesWf, Bool.and_eq_true] at x ⊢
  exact ⟨x.1, rising_pages _ _ _ x.2⟩


theorem ArrayS.turnHalf_storesWf (half : Bool) (a : ArrayS) (h : a.storesWf = true) : (a.turnHalf half).storesWf = true := by
  unfold ArrayS.turnHalf
  split
  · exact h
  · simp only [ArrayS.storesWf, Bool.and_eq_true] at h ⊢
    exact ⟨⟨⟨h.1.1.1, cellsWf_foldl _ _ _ rfl⟩, h.1.2⟩, rising_foldl _ _ (rising_filter _ _ h.2)⟩

theorem ArrayS.takeMarker_storesWf (r slot : Nat) (bs : List Byte) (a : ArrayS) (h : a.storesWf = true) :
    (a.takeMarker r slot bs).storesWf = true := by
  unfold ArrayS.takeMarker
  extract_lets w gen item newest rest a1 a2
  have h1 : a1.storesWf = true := h
  have h2 : a2.storesWf = true := h
  clear_value a1 a2
  split
  · split
    · refine ArrayS.modRegion_storesWf _ r _ ?_ fun _ hx => hx
      split
      · exact ArrayS.turnHalf_storesWf _ _ h1
      · exact h1
    · exact h1
  · split
    · exact ArrayS.modRegion_storesWf _ r _ h2 fun _ hx => hx
    · exact h2

theorem State.programPage_held (addr : Nat) (bs : List Byte) (s : State) (h : Held F A B s) : Held F A B (State.programPage addr bs s) := by
  have hr : ∀ r off page, Held F A B { s with arr := s.arr.modRegion r (fun x => { x with content := cellsWriteList x.content off page }) } :=
    fun r off page => held_arr h fun x => ArrayS.modRegion_storesWf _ _ _ x fun _ hx => cellsWf_writeList _ _ _ hx
  unfold State.programPage
  extract_lets base page full store
  have hs : ∀ t, Held F A B t → Held F A B (store t) := fun t ht => held_arr ht fun x => by
    simp only [ArrayS.storesWf, Bool.and_eq_true] at x ⊢
    exact ⟨x.1, rising_storePage _ _ _ x.2⟩
  clear_value store
  refine held_ite h ?_
  split
  · exact hr _ _ _
  · exact hr _ _ _
  · exact held_ite (held_arr h (ArrayS.takeMarker_storesWf _ _ _ _)) h
  · refine held_ite (held_arr h fun x => ?_) h
    simp only [ArrayS.storesWf, Bool.and_eq_true] at x ⊢
    exact ⟨⟨x.1.1, cellsWf_writeList _ _ _ x.1.2⟩, x.2⟩
  · exact held_ite h (held_ite (hr _ _ _) (hs _ h))
  · exact held_ite (hs _ (State.spoilCopies_held _ _ h)) h


theorem execJtagArray_held (a : ArrayAccess) (s : State) (hH : Held F A B s) :
    HeldOut F A B (execJtagArray a s) := by
  unfold execJtagArray
  try dsimp only
  repeat (any_goals first
    | with_reducible assumption
    | intro _ _
    | with_reducible apply State.jtagDo_held
    | with_reducible apply State.programPage_held
    | with_reducible apply held_ite
    | with_reducible apply heldOut_next
    | with_reducible apply heldOut_fault
    | with_reducible apply heldOut_ite
    | (fail_if_no_progress with_reducible refine held_upd ?_ rfl rfl rfl rfl rfl rfl rfl rfl rfl rfl rfl)
    | split
    | dsimp only
    | intro _)

theorem execJtagMbist_held (blocks failed : BitVec 16) (s : State) (hH : Held F A B s) :
    HeldOut F A B (execJtagMbist blocks failed s) := by
  unfold execJtagMbist
  try dsimp only
  repeat (any_goals first
    | with_reducible assumption
    | intro _ _ _
    | intro _ _
    | with_reducible apply State.reinit_held
    | with_reducible apply State.jtagDo_held
    | with_reducible apply foldl_held
    | with_reducible apply heldOut_next
    | with_reducible apply heldOut_fault
    | with_reducible apply heldOut_ite
    | (fail_if_no_progress with_reducible refine held_upd ?_ rfl rfl rfl rfl rfl rfl rfl rfl rfl rfl rfl)
    | split
    | dsimp only
    | intro _)

theorem execJtagScan_held (s : State) (hH : Held F A B s) :
    HeldOut F A B (execJtagScan s) := by
  unfold execJtagScan
  try dsimp only
  repeat (any_goals first
    | with_reducible assumption
    | intro _ _
    | with_reducible apply State.jtagDo_held
    | with_reducible apply heldOut_next
    | with_reducible apply heldOut_fault
    | with_reducible apply heldOut_ite
    | (fail_if_no_progress with_reducible refine held_upd ?_ rfl rfl rfl rfl rfl rfl rfl rfl rfl rfl rfl)
    | split
    | dsimp only
    | intro _)

theorem execJtagRelease_held (s : State) (h : Held F A B s) : HeldOut F A B (execJtagRelease s) := by
  refine heldOut_next (State.jtagDo_held _ _ _ _ h fun t ht => ?_)
  have h0 := State.voidHeld_held owner t ht
  generalize t.voidHeld owner = u at h0
  have h1 : Held F A B { u with ka := if u.ka.any (fun k => k.pol = owner) then none else u.ka, wheel := u.wheel.ownerless } :=
    held_same h0 rfl ⟨rfl, rfl, rfl, rfl⟩ ⟨rfl, rfl, rfl, rfl, rfl⟩ rfl
  refine State.storeSeqs_held _ _ (State.storePolder_held _ _ (State.modTcmp_held _ _ _ (State.modTcmp_held _ _ _ (State.modPol_held h1 fun hq => ?_))))
  rw [Polder.queuesWf_iff] at hq ⊢
  exact ⟨hq.1, Nat.zero_le _, Nat.zero_le _, hq.2.2.2⟩


theorem execJtagBypass_held (x0 : BitVec 5) (s : State) (hH : Held F A B s) :
    HeldOut F A B (execJtagBypass x0 s) := by
  unfold execJtagBypass
  try dsimp only
  repeat (any_goals first
    | with_reducible assumption
    | intro _ _
    | with_reducible apply State.jtagDo_held
    | with_reducible apply heldOut_next
    | with_reducible apply heldOut_fault
    | with_reducible apply heldOut_ite
    | (fail_if_no_progress with_reducible refine held_upd ?_ rfl rfl rfl rfl rfl rfl rfl rfl rfl rfl rfl)
    | split
    | dsimp only
    | intro _)

theorem execTrstNAssert_held (s : State) (hH : Held F A B s) :
    HeldOut F A B (execTrstNAssert s) := by
  unfold execTrstNAssert
  try dsimp only
  repeat (any_goals first
    | with_reducible assumption
    | with_reducible apply heldOut_next
    | with_reducible apply heldOut_fault
    | with_reducible apply heldOut_ite
    | (fail_if_no_progress with_reducible refine held_upd ?_ rfl rfl rfl rfl rfl rfl rfl rfl rfl rfl rfl)
    | split
    | dsimp only
    | intro _)

end Sys2Proof.Machine
end

