-- ==== Sys2Proof/Laws/HeldLineTx.lean ====
section
/-! SUPPORT. What the operations of Machine/LineTx.lean keep (Laws/Held.lean). -/

namespace Sys2Proof.Machine

variable {F : FuseBlock} {A B : Prop}

set_option linter.unusedTactic false
set_option linter.unreachableTactic false
set_option linter.unusedVariables false

theorem State.putSlot_held (p : Port) (slot : Nat) (f : TxFrame) (s : State) (hH : Held F A B s) :
    Held F A B (State.putSlot p slot f s) := by
  unfold State.putSlot
  try dsimp only
  repeat (any_goals first
    | with_reducible assumption
    | with_reducible apply State.modPort_held
    | with_reducible apply State.countPort_held
    | with_reducible apply State.putLine_held
    | with_reducible apply held_ite
    | (fail_if_no_progress with_reducible refine held_upd ?_ rfl rfl rfl rfl rfl rfl rfl rfl rfl rfl rfl)
    | split
    | dsimp only
    | intro _)

theorem State.sendFlow_held (p : Port) (slot : Nat) (f : Flow) (body : TxBody) (arrived : Nat) (s : State) (hH : Held F A B s) :
    Held F A B (State.sendFlow p slot f body arrived s) := by
  unfold State.sendFlow
  try dsimp only
  repeat (any_goals first
    | with_reducible assumption
    | with_reducible apply State.modPort_held
    | with_reducible apply State.putSlot_held
    | with_reducible apply held_ite
    | (fail_if_no_progress with_reducible refine held_upd ?_ rfl rfl rfl rfl rfl rfl rfl rfl rfl rfl rfl)
    | split
    | dsimp only
    | intro _)

theorem State.sendAgain_held (p : Port) (slot : Nat) (u : Unacked) (s : State) (hH : Held F A B s) :
    Held F A B (State.sendAgain p slot u s) := by
  unfold State.sendAgain
  try dsimp only
  repeat (any_goals first
    | with_reducible assumption
    | with_reducible apply State.modPort_held
    | with_reducible apply State.countPort_held
    | with_reducible apply State.putSlot_held
    | with_reducible apply held_ite
    | (fail_if_no_progress with_reducible refine held_upd ?_ rfl rfl rfl rfl rfl rfl rfl rfl rfl rfl rfl)
    | split
    | dsimp only
    | intro _)

theorem State.sendWake_held (p : Port) (slot : Nat) (dst : BitVec 12) (s : State) (hH : Held F A B s) :
    Held F A B (State.sendWake p slot dst s) := by
  unfold State.sendWake
  try dsimp only
  repeat (any_goals first
    | with_reducible assumption
    | with_reducible apply State.modPort_held
    | with_reducible apply State.countPort_held
    | with_reducible apply State.putSlot_held
    | (fail_if_no_progress with_reducible refine held_upd ?_ rfl rfl rfl rfl rfl rfl rfl rfl rfl rfl rfl)
    | split
    | dsimp only
    | intro _)

theorem State.dueAgain_held (p : Port) (slot : Nat) (mine : Flow → Bool) (s : State) (hH : Held F A B s) :
    Held F A B (State.dueAgain p slot mine s).2 := by
  unfold State.dueAgain
  try dsimp only
  repeat (any_goals first
    | with_reducible assumption
    | intro _ _ _
    | intro _ _
    | with_reducible apply State.giveUp_held
    | with_reducible apply foldl_held
    | with_reducible apply held_ite
    | (fail_if_no_progress with_reducible refine held_upd ?_ rfl rfl rfl rfl rfl rfl rfl rfl rfl rfl rfl)
    | split
    | dsimp only
    | intro _)

theorem State.popped_held {p : Port} {q : PolId} {d : BitVec 12} {k : OutPacket} {pop : Polder → Polder} (s : State)
    (e : s.nextPacket p q = some (d, k, pop)) (h : Held F A B s) : Held F A B (s.modPol q pop) := by
  refine State.modPol_held h fun hq => ?_
  unfold State.nextPacket at e
  dsimp only at e
  split at e
  · split at e
    · simp only [Option.some.injEq, Prod.mk.injEq] at e
      obtain ⟨_, _, rfl⟩ := e
      exact hq
    · cases e
  · split at e
    · split at e
      · simp only [Option.some.injEq, Prod.mk.injEq] at e
        obtain ⟨_, _, rfl⟩ := e
        rw [Polder.queuesWf_iff] at hq ⊢
        exact ⟨hq.1, hq.2.1, hq.2.2.1, Nat.le_trans (dlvPlaces_sendFragment _ _) hq.2.2.2⟩
      · cases e
    · cases e

/-- What a share sends, and what it leaves where it sends nothing. -/
theorem State.shareTx_held (p : Port) (slot : Nat) (q : PolId) (s : State) (h : Held F A B s) :
    Held F A B (State.shareTx p slot q s).2 ∧ ∀ t, (State.shareTx p slot q s).1 = some t → Held F A B t := by
  have hd := State.dueAgain_held p slot (fun f => f.src == s.fab.addr && f.pol == some q) s h
  unfold State.shareTx
  split
  · rename_i heq
    rw [heq] at hd
    exact ⟨hd, fun t e => by cases e; exact State.sendAgain_held _ _ _ _ hd⟩
  · rename_i heq
    rw [heq] at hd
    split
    · rename_i hn
      dsimp only
      split
      · exact ⟨hd, fun t e => by cases e⟩
      · split
        · exact ⟨hd, fun t e => by cases e; exact State.sendWake_held _ _ _ _ hd⟩
        · exact ⟨hd, fun t e => by cases e; exact State.sendFlow_held _ _ _ _ _ _ (State.popped_held _ hn hd)⟩
    · exact ⟨hd, fun t e => by cases e⟩


theorem State.mgmtTx_held (p : Port) (slot : Nat) (ok : TxFrame → Bool) (s : State) (h : Held F A B s) :
    ∀ t, State.mgmtTx p slot ok s = some t → Held F A B t := by
  intro t e
  unfold State.mgmtTx at e
  split at e
  · dsimp only at e
    split at e
    · cases e
      exact State.sendFlow_held _ _ _ _ _ _ (State.modPort_held _ _ _ h)
    · cases e
  · cases e


theorem State.idleShareTx_held (p : Port) (slot : Nat) (s : State) (h : Held F A B s) : Held F A B (State.idleShareTx p slot s) := by
  have hd := State.dueAgain_held p slot (fun f => f.src == s.fab.addr && f.pol == none) s h
  unfold State.idleShareTx
  split
  · rename_i heq
    rw [heq] at hd
    exact State.sendAgain_held _ _ _ _ hd
  · rename_i x heq
    rw [heq] at hd
    have hm := State.mgmtTx_held p slot (fun f => f.inShare x.bridging) x hd
    generalize State.mgmtTx _ _ _ _ = o at hm ⊢
    cases o with
    | some t => exact hm t rfl
    | none => exact State.putSlot_held _ _ _ _ hd


theorem State.drainPut_held (p : Port) (body : TxBody) (s : State) (hH : Held F A B s) :
    Held F A B (State.drainPut p body s) := by
  unfold State.drainPut
  try dsimp only
  repeat (any_goals first
    | with_reducible assumption
    | with_reducible apply State.modPort_held
    | with_reducible apply held_ite
    | (fail_if_no_progress with_reducible refine held_upd ?_ rfl rfl rfl rfl rfl rfl rfl rfl rfl rfl rfl)
    | split
    | dsimp only
    | intro _)

theorem State.forwardTx_held (p : Port) (slot : Nat) (s : State) (h : Held F A B s) :
    Held F A B (State.forwardTx p slot s).2 ∧ ∀ t, (State.forwardTx p slot s).1 = some t → Held F A B t := by
  have hd := State.dueAgain_held p slot (fun f => f.src != s.fab.addr) s h
  unfold State.forwardTx
  split
  · rename_i heq
    rw [heq] at hd
    exact ⟨hd, fun t e => by cases e; exact State.sendAgain_held _ _ _ _ hd⟩
  · rename_i heq
    rw [heq] at hd
    split
    · split
      · exact ⟨hd, fun t e => by cases e; exact State.sendWake_held _ _ _ _ hd⟩
      · exact ⟨hd, fun t e => by cases e; exact State.drainPut_held _ _ _ (State.sendFlow_held _ _ _ _ _ _ (State.modPort_held _ _ _ hd))⟩
    · exact ⟨hd, fun t e => by cases e⟩


theorem State.forwardSlotTx_held (p : Port) (slot : Nat) (s : State) (h : Held F A B s) : Held F A B (State.forwardSlotTx p slot s) := by
  have hf := State.forwardTx_held p slot s h
  unfold State.forwardSlotTx
  split
  · rename_i e
    exact State.mgmtTx_held _ _ _ _ h _ e
  · split
    · rename_i e
      exact hf.2 _ (by rw [e])
    · rename_i e
      rw [e] at hf
      exact State.putSlot_held _ _ _ _ hf.1


theorem State.shareSlotTx_held (p : Port) (slot : Nat) (s : State) (h : Held F A B s) : Held F A B (State.shareSlotTx p slot s) := by
  unfold State.shareSlotTx
  split
  · rename_i q _
    have hf := State.shareTx_held p slot q s h
    split
    · rename_i e
      exact hf.2 _ (by rw [e])
    · rename_i e
      rw [e] at hf
      exact State.idleShareTx_held _ _ _ hf.1
  · exact State.idleShareTx_held _ _ _ h


theorem State.slotTx_held (p : Port) (slot : Nat) (s : State) (h : Held F A B s) : Held F A B (State.slotTx p slot s) := by
  have hf := State.forwardTx_held p slot s h
  unfold State.slotTx
  refine held_ite (held_ite (State.putSlot_held _ _ _ _ h) (held_ite (State.forwardSlotTx_held _ _ _ h) (State.shareSlotTx_held _ _ _ h)))
    (held_ite h ?_)
  split
  · rename_i e
    exact hf.2 _ (by rw [e])
  · rename_i e
    rw [e] at hf
    exact hf.1


theorem execDataSlotTx_held (port : Port) (s : State) (hH : Held F A B s) :
    HeldOut F A B (execDataSlotTx port s) := by
  unfold execDataSlotTx
  try dsimp only
  repeat (any_goals first
    | with_reducible assumption
    | with_reducible apply State.modPort_held
    | with_reducible apply State.sysResetDue_held
    | with_reducible apply State.slotTx_held
    | with_reducible apply held_ite
    | with_reducible apply heldOut_next
    | with_reducible apply heldOut_fault
    | with_reducible apply heldOut_ite
    | (fail_if_no_progress with_reducible refine held_upd ?_ rfl rfl rfl rfl rfl rfl rfl rfl rfl rfl rfl)
    | split
    | dsimp only
    | intro _)

theorem execContentionTx_held (port : Port) (collided : Bool) (s : State) (hH : Held F A B s) :
    HeldOut F A B (execContentionTx port collided s) := by
  unfold execContentionTx
  try dsimp only
  repeat (any_goals first
    | with_reducible assumption
    | with_reducible apply State.modPort_held
    | with_reducible apply State.countPort_held
    | with_reducible apply State.drawBackoff_held
    | with_reducible apply State.putLine_held
    | with_reducible apply held_ite
    | with_reducible apply heldOut_next
    | with_reducible apply heldOut_fault
    | with_reducible apply heldOut_ite
    | (fail_if_no_progress with_reducible refine held_upd ?_ rfl rfl rfl rfl rfl rfl rfl rfl rfl rfl rfl)
    | split
    | dsimp only
    | intro _)

theorem execJoinRetryTimer_held (s : State) (hH : Held F A B s) :
    HeldOut F A B (execJoinRetryTimer s) := by
  unfold execJoinRetryTimer
  try dsimp only
  repeat (any_goals first
    | with_reducible assumption
    | with_reducible apply State.queueJoin_held
    | with_reducible apply held_ite
    | with_reducible apply heldOut_next
    | with_reducible apply heldOut_fault
    | with_reducible apply heldOut_ite
    | (fail_if_no_progress with_reducible refine held_upd ?_ rfl rfl rfl rfl rfl rfl rfl rfl rfl rfl rfl)
    | split
    | dsimp only
    | intro _)

theorem execSlotConflictRetry_held (s : State) (hH : Held F A B s) :
    HeldOut F A B (execSlotConflictRetry s) := by
  unfold execSlotConflictRetry
  try dsimp only
  repeat (any_goals first
    | with_reducible assumption
    | with_reducible apply State.modPort_held
    | with_reducible apply held_ite
    | with_reducible apply heldOut_next
    | with_reducible apply heldOut_fault
    | with_reducible apply heldOut_ite
    | (fail_if_no_progress with_reducible refine held_upd ?_ rfl rfl rfl rfl rfl rfl rfl rfl rfl rfl rfl)
    | split
    | dsimp only
    | intro _)

theorem State.queueRoute_held (p : Port) (s : State) (hH : Held F A B s) :
    Held F A B (State.queueRoute p s) := by
  unfold State.queueRoute
  try dsimp only
  repeat (any_goals first
    | with_reducible assumption
    | with_reducible apply State.modPort_held
    | (fail_if_no_progress with_reducible refine held_upd ?_ rfl rfl rfl rfl rfl rfl rfl rfl rfl rfl rfl)
    | split
    | dsimp only
    | intro _)

theorem execRouteAdvertTimer_held (s : State) (hH : Held F A B s) :
    HeldOut F A B (execRouteAdvertTimer s) := by
  unfold execRouteAdvertTimer
  try dsimp only
  repeat (any_goals first
    | with_reducible assumption
    | with_reducible apply State.queueRoute_held
    | with_reducible apply held_ite
    | with_reducible apply heldOut_next
    | with_reducible apply heldOut_fault
    | with_reducible apply heldOut_ite
    | (fail_if_no_progress with_reducible refine held_upd ?_ rfl rfl rfl rfl rfl rfl rfl rfl rfl rfl rfl)
    | split
    | dsimp only
    | intro _)

end Sys2Proof.Machine
end

