-- ==== Sys2Proof/Laws/HeldLineRx.lean ====
section
/-! SUPPORT. What the operations of Machine/LineRx.lean keep (Laws/Held.lean). -/

namespace Sys2Proof.Machine

variable {F : FuseBlock} {A B : Prop}

set_option linter.unusedTactic false
set_option linter.unreachableTactic false
set_option linter.unusedVariables false

theorem execAck_held (f : LineRx) (s : State) (hH : Held F A B s) :
    HeldOut F A B (execAck f s) := by
  unfold execAck
  try dsimp only
  repeat (any_goals first
    | with_reducible assumption
    | with_reducible intro _
    | with_reducible apply State.rxOk_held
    | with_reducible apply State.heardOn_held
    | with_reducible apply held_ite
    | with_reducible apply heldOut_next
    | with_reducible apply heldOut_fault
    | with_reducible apply heldOut_ite
    | (fail_if_no_progress with_reducible refine held_upd ?_ rfl rfl rfl rfl rfl rfl rfl rfl rfl rfl rfl)
    | split
    | dsimp only
    | intro _)

theorem State.dataUp_held (h : Heard) (s : State) (hH : Held F A B s) :
    Held F A B (State.dataUp h s) := by
  unfold State.dataUp
  try dsimp only
  repeat (any_goals first
    | with_reducible assumption
    | with_reducible apply State.countPort_held
    | with_reducible apply State.arrive_held
    | with_reducible apply held_ite
    | (fail_if_no_progress with_reducible refine held_upd ?_ rfl rfl rfl rfl rfl rfl rfl rfl rfl rfl rfl)
    | split
    | dsimp only
    | intro _)

theorem execData_held (f : LineRx) (s : State) (hH : Held F A B s) :
    HeldOut F A B (execData f s) := by
  unfold execData
  try dsimp only
  repeat (any_goals first
    | with_reducible assumption
    | with_reducible intro _
    | refine snd_held (by assumption) ?_
    | with_reducible apply State.receiveHop_held
    | with_reducible apply State.heardOn_held
    | with_reducible apply State.dataUp_held
    | with_reducible apply heldOut_next
    | with_reducible apply heldOut_fault
    | with_reducible apply heldOut_ite
    | (fail_if_no_progress with_reducible refine held_upd ?_ rfl rfl rfl rfl rfl rfl rfl rfl rfl rfl rfl)
    | split
    | dsimp only
    | intro _)

theorem execWake_held (f : LineRx) (s : State) (hH : Held F A B s) :
    HeldOut F A B (execWake f s) := by
  unfold execWake
  try dsimp only
  repeat (any_goals first
    | with_reducible assumption
    | with_reducible intro _
    | with_reducible apply State.heardOn_held
    | with_reducible apply heldOut_next
    | with_reducible apply heldOut_fault
    | with_reducible apply heldOut_ite
    | (fail_if_no_progress with_reducible refine held_upd ?_ rfl rfl rfl rfl rfl rfl rfl rfl rfl rfl rfl)
    | split
    | dsimp only
    | intro _)

theorem State.noteUid_held (addr : BitVec 12) (uid : BitVec 64) (s : State) (hH : Held F A B s) :
    Held F A B (State.noteUid addr uid s) := by
  unfold State.noteUid
  try dsimp only
  repeat (any_goals first
    | with_reducible assumption
    | with_reducible apply held_ite
    | (fail_if_no_progress with_reducible refine held_upd ?_ rfl rfl rfl rfl rfl rfl rfl rfl rfl rfl rfl)
    | split
    | dsimp only
    | intro _)

theorem State.noteJoin_held (j : JoinFields) (s : State) (hH : Held F A B s) :
    Held F A B (State.noteJoin j s) := by
  unfold State.noteJoin
  try dsimp only
  repeat (any_goals first
    | with_reducible assumption
    | with_reducible apply State.reclaim_held
    | with_reducible apply held_ite
    | (fail_if_no_progress with_reducible refine held_upd ?_ rfl rfl rfl rfl rfl rfl rfl rfl rfl rfl rfl)
    | split
    | dsimp only
    | intro _)

theorem execJoin_held (f : LineRx) (s : State) (hH : Held F A B s) :
    HeldOut F A B (execJoin f s) := by
  unfold execJoin
  try dsimp only
  repeat (any_goals first
    | with_reducible assumption
    | with_reducible intro _
    | with_reducible apply State.rxOk_held
    | with_reducible apply State.heardOn_held
    | with_reducible apply State.keyed_held
    | with_reducible apply State.noteUid_held
    | with_reducible apply State.noteJoin_held
    | with_reducible apply held_ite
    | with_reducible apply heldOut_next
    | with_reducible apply heldOut_fault
    | with_reducible apply heldOut_ite
    | (fail_if_no_progress with_reducible refine held_upd ?_ rfl rfl rfl rfl rfl rfl rfl rfl rfl rfl rfl)
    | split
    | dsimp only
    | intro _)

theorem execDiscover_held (f : LineRx) (s : State) (hH : Held F A B s) :
    HeldOut F A B (execDiscover f s) := by
  unfold execDiscover
  try dsimp only
  repeat (any_goals first
    | with_reducible assumption
    | with_reducible intro _
    | with_reducible apply State.queueJoin_held
    | with_reducible apply State.rxOk_held
    | with_reducible apply State.heardOn_held
    | with_reducible apply State.keyed_held
    | with_reducible apply held_ite
    | with_reducible apply heldOut_next
    | with_reducible apply heldOut_fault
    | with_reducible apply heldOut_ite
    | (fail_if_no_progress with_reducible refine held_upd ?_ rfl rfl rfl rfl rfl rfl rfl rfl rfl rfl rfl)
    | split
    | dsimp only
    | intro _)

theorem State.reroute_held (s : State) (hH : Held F A B s) :
    Held F A B (State.reroute s) := by
  unfold State.reroute
  try dsimp only
  repeat (any_goals first
    | with_reducible assumption
    | (fail_if_no_progress with_reducible refine held_upd ?_ rfl rfl rfl rfl rfl rfl rfl rfl rfl rfl rfl)
    | split
    | dsimp only
    | intro _)

theorem State.sendDrain_held (p : Port) (g : BitVec 6) (s : State) (hH : Held F A B s) :
    Held F A B (State.sendDrain p g s) := by
  unfold State.sendDrain
  try dsimp only
  repeat (any_goals first
    | with_reducible assumption
    | with_reducible apply State.modPort_held
    | (fail_if_no_progress with_reducible refine held_upd ?_ rfl rfl rfl rfl rfl rfl rfl rfl rfl rfl rfl)
    | split
    | dsimp only
    | intro _)

theorem State.claimantChange_held (p : Port) (g : BitVec 6) (old new : Option (BitVec 12)) (s : State) (hH : Held F A B s) :
    Held F A B (State.claimantChange p g old new s) := by
  unfold State.claimantChange
  try dsimp only
  repeat (any_goals first
    | with_reducible assumption
    | with_reducible apply State.modPort_held
    | with_reducible apply State.sendDrain_held
    | with_reducible apply held_ite
    | (fail_if_no_progress with_reducible refine held_upd ?_ rfl rfl rfl rfl rfl rfl rfl rfl rfl rfl rfl)
    | split
    | dsimp only
    | intro _)

theorem State.reclaim_held (p : Port) (s : State) (hH : Held F A B s) :
    Held F A B (State.reclaim p s) := by
  unfold State.reclaim
  try dsimp only
  repeat (any_goals first
    | with_reducible assumption
    | intro _ _ _
    | intro _ _
    | with_reducible apply State.modPort_held
    | with_reducible apply State.claimantChange_held
    | with_reducible apply foldl_held
    | (fail_if_no_progress with_reducible refine held_upd ?_ rfl rfl rfl rfl rfl rfl rfl rfl rfl rfl rfl)
    | split
    | dsimp only
    | intro _)

theorem State.reroutes_held (s : State) (hH : Held F A B s) :
    Held F A B (State.reroutes s) := by
  unfold State.reroutes
  try dsimp only
  repeat (any_goals first
    | with_reducible assumption
    | with_reducible apply State.reroute_held
    | with_reducible apply State.reclaim_held
    | (fail_if_no_progress with_reducible refine held_upd ?_ rfl rfl rfl rfl rfl rfl rfl rfl rfl rfl rfl)
    | split
    | dsimp only
    | intro _)

theorem execRoute_held (f : LineRx) (s : State) (hH : Held F A B s) :
    HeldOut F A B (execRoute f s) := by
  unfold execRoute
  try dsimp only
  repeat (any_goals first
    | with_reducible assumption
    | with_reducible intro _
    | with_reducible apply State.modPort_held
    | with_reducible apply State.rxOk_held
    | with_reducible apply State.heardOn_held
    | with_reducible apply State.keyed_held
    | with_reducible apply State.reroutes_held
    | with_reducible apply held_ite
    | with_reducible apply heldOut_next
    | with_reducible apply heldOut_fault
    | with_reducible apply heldOut_ite
    | (fail_if_no_progress with_reducible refine held_upd ?_ rfl rfl rfl rfl rfl rfl rfl rfl rfl rfl rfl)
    | split
    | dsimp only
    | intro _)

theorem execRouteLapse_held (segment : Fin 63) (s : State) (hH : Held F A B s) :
    HeldOut F A B (execRouteLapse segment s) := by
  unfold execRouteLapse
  try dsimp only
  repeat (any_goals first
    | with_reducible assumption
    | with_reducible apply State.modPort_held
    | with_reducible apply State.reroutes_held
    | with_reducible apply held_ite
    | with_reducible apply heldOut_next
    | with_reducible apply heldOut_fault
    | with_reducible apply heldOut_ite
    | (fail_if_no_progress with_reducible refine held_upd ?_ rfl rfl rfl rfl rfl rfl rfl rfl rfl rfl rfl)
    | split
    | dsimp only
    | intro _)

theorem State.noteDrain_held (isDone : Bool) (d : DrainFields) (s : State) (hH : Held F A B s) :
    Held F A B (State.noteDrain isDone d s) := by
  unfold State.noteDrain
  try dsimp only
  repeat (any_goals first
    | with_reducible assumption
    | (fail_if_no_progress with_reducible refine held_upd ?_ rfl rfl rfl rfl rfl rfl rfl rfl rfl rfl rfl)
    | split
    | dsimp only
    | intro _)

theorem State.forwardDrain_held (h : Heard) (g : BitVec 6) (body : TxBody) (s : State) (hH : Held F A B s) :
    Held F A B (State.forwardDrain h g body s) := by
  unfold State.forwardDrain
  try dsimp only
  repeat (any_goals first
    | with_reducible assumption
    | refine snd_held (by assumption) ?_
    | with_reducible apply State.buffer_held
    | with_reducible apply held_ite
    | (fail_if_no_progress with_reducible refine held_upd ?_ rfl rfl rfl rfl rfl rfl rfl rfl rfl rfl rfl)
    | split
    | dsimp only
    | intro _)

theorem execDrain_held (f : LineRx) (s : State) (hH : Held F A B s) :
    HeldOut F A B (execDrain f s) := by
  unfold execDrain
  try dsimp only
  repeat (any_goals first
    | with_reducible assumption
    | with_reducible intro _
    | with_reducible apply State.rxOk_held
    | with_reducible apply State.heardOn_held
    | with_reducible apply State.keyed_held
    | with_reducible apply State.noteDrain_held
    | with_reducible apply State.forwardDrain_held
    | with_reducible apply held_ite
    | with_reducible apply heldOut_next
    | with_reducible apply heldOut_fault
    | with_reducible apply heldOut_ite
    | (fail_if_no_progress with_reducible refine held_upd ?_ rfl rfl rfl rfl rfl rfl rfl rfl rfl rfl rfl)
    | split
    | dsimp only
    | intro _)

theorem State.release_held (p : Port) (g : BitVec 6) (s : State) (hH : Held F A B s) :
    Held F A B (State.release p g s) := by
  unfold State.release
  try dsimp only
  repeat (any_goals first
    | with_reducible assumption
    | with_reducible apply State.modPort_held
    | with_reducible apply State.reroute_held
    | (fail_if_no_progress with_reducible refine held_upd ?_ rfl rfl rfl rfl rfl rfl rfl rfl rfl rfl rfl)
    | split
    | dsimp only
    | intro _)

theorem execDrainDone_held (f : LineRx) (s : State) (hH : Held F A B s) :
    HeldOut F A B (execDrainDone f s) := by
  unfold execDrainDone
  try dsimp only
  repeat (any_goals first
    | with_reducible assumption
    | with_reducible intro _
    | with_reducible apply State.rxOk_held
    | with_reducible apply State.heardOn_held
    | with_reducible apply State.keyed_held
    | with_reducible apply State.noteDrain_held
    | with_reducible apply State.forwardDrain_held
    | with_reducible apply State.release_held
    | with_reducible apply held_ite
    | with_reducible apply heldOut_next
    | with_reducible apply heldOut_fault
    | with_reducible apply heldOut_ite
    | (fail_if_no_progress with_reducible refine held_upd ?_ rfl rfl rfl rfl rfl rfl rfl rfl rfl rfl rfl)
    | split
    | dsimp only
    | intro _)

theorem execHoldbackExpired_held (port : Port) (segment : Fin 63) (s : State) (hH : Held F A B s) :
    HeldOut F A B (execHoldbackExpired port segment s) := by
  unfold execHoldbackExpired
  try dsimp only
  repeat (any_goals first
    | with_reducible assumption
    | with_reducible apply State.countPort_held
    | with_reducible apply State.release_held
    | with_reducible apply held_ite
    | with_reducible apply heldOut_next
    | with_reducible apply heldOut_fault
    | with_reducible apply heldOut_ite
    | (fail_if_no_progress with_reducible refine held_upd ?_ rfl rfl rfl rfl rfl rfl rfl rfl rfl rfl rfl)
    | split
    | dsimp only
    | intro _)

theorem State.dropHeld_held (out : Port) (f : Flow) (arrived : Nat) (all : Bool) (s : State) (hH : Held F A B s) :
    Held F A B (State.dropHeld out f arrived all s) := by
  unfold State.dropHeld
  try dsimp only
  repeat (any_goals first
    | with_reducible assumption
    | with_reducible apply State.modPort_held
    | (fail_if_no_progress with_reducible refine held_upd ?_ rfl rfl rfl rfl rfl rfl rfl rfl rfl rfl rfl)
    | split
    | dsimp only
    | intro _)

theorem execFwdFrameTimeout_held (port : Port) (s : State) (hH : Held F A B s) :
    HeldOut F A B (execFwdFrameTimeout port s) := by
  unfold execFwdFrameTimeout
  try dsimp only
  repeat (any_goals first
    | with_reducible assumption
    | intro _ _ _
    | intro _ _
    | with_reducible apply State.countPort_held
    | with_reducible apply State.dropHeld_held
    | with_reducible apply foldl_held
    | with_reducible apply heldOut_next
    | with_reducible apply heldOut_fault
    | with_reducible apply heldOut_ite
    | (fail_if_no_progress with_reducible refine held_upd ?_ rfl rfl rfl rfl rfl rfl rfl rfl rfl rfl rfl)
    | split
    | dsimp only
    | intro _)

theorem execFlowStateExpiry_held (port : Port) (src : BitVec 12) (dst : BitVec 12) (pol : Option PolId) (s : State) (hH : Held F A B s) :
    HeldOut F A B (execFlowStateExpiry port src dst pol s) := by
  unfold execFlowStateExpiry
  try dsimp only
  repeat (any_goals first
    | with_reducible assumption
    | with_reducible apply State.modPort_held
    | with_reducible apply heldOut_next
    | with_reducible apply heldOut_fault
    | with_reducible apply heldOut_ite
    | (fail_if_no_progress with_reducible refine held_upd ?_ rfl rfl rfl rfl rfl rfl rfl rfl rfl rfl rfl)
    | split
    | dsimp only
    | intro _)

theorem execLineFrameBad_held (f : LineRx) (s : State) (hH : Held F A B s) :
    HeldOut F A B (execLineFrameBad f s) := by
  unfold execLineFrameBad
  try dsimp only
  repeat (any_goals first
    | with_reducible assumption
    | with_reducible apply State.countPort_held
    | with_reducible apply held_ite
    | with_reducible apply heldOut_next
    | with_reducible apply heldOut_fault
    | with_reducible apply heldOut_ite
    | (fail_if_no_progress with_reducible refine held_upd ?_ rfl rfl rfl rfl rfl rfl rfl rfl rfl rfl rfl)
    | split
    | dsimp only
    | intro _)

end Sys2Proof.Machine
end

