-- ==== Sys2Proof/Laws/HeldPipeline.lean ====
section
/-! SUPPORT. What the operations of Machine/Pipeline.lean keep (Laws/Held.lean). -/

namespace Sys2Proof.Machine

variable {F : FuseBlock} {A B : Prop}

set_option linter.unusedTactic false
set_option linter.unreachableTactic false
set_option linter.unusedVariables false

theorem State.noteRepair_held (r : Repair) (s : State) (hH : Held F A B s) :
    Held F A B (State.noteRepair r s) := by
  unfold State.noteRepair
  try dsimp only
  repeat (any_goals first
    | with_reducible assumption
    | (fail_if_no_progress with_reducible refine held_upd ?_ rfl rfl rfl rfl rfl rfl rfl rfl rfl rfl rfl)
    | split
    | dsimp only
    | intro _)

theorem State.compareShadow_held (x : Slot) (k : Nat) (columns spares : List Conversion) (s : State) (g : Nat) (hH : Held F A B s) :
    Held F A B (State.compareShadow x k columns spares s g) := by
  unfold State.compareShadow
  try dsimp only
  repeat (any_goals first
    | with_reducible assumption
    | with_reducible apply State.declareReplaced_held
    | with_reducible apply State.noteRepair_held
    | with_reducible apply held_ite
    | (fail_if_no_progress with_reducible refine held_upd ?_ rfl rfl rfl rfl rfl rfl rfl rfl rfl rfl rfl)
    | split
    | dsimp only
    | intro _)

theorem execRowRead_held (columns : List Conversion) (spares : List Conversion) (s : State) (hH : Held F A B s) :
    HeldOut F A B (execRowRead columns spares s) := by
  unfold execRowRead
  try dsimp only
  repeat (any_goals first
    | with_reducible assumption
    | intro _ _ _
    | with_reducible apply State.storeColumns_held
    | with_reducible apply State.compareShadow_held
    | with_reducible apply foldl_held
    | with_reducible apply held_ite
    | with_reducible apply heldOut_next
    | with_reducible apply heldOut_fault
    | with_reducible apply heldOut_ite
    | (fail_if_no_progress with_reducible refine held_upd ?_ rfl rfl rfl rfl rfl rfl rfl rfl rfl rfl rfl)
    | split
    | dsimp only
    | intro _)

theorem State.occEvents_held (p : PolId) (f : W32) (old new : Vector OccMachine 4) (s : State) (hH : Held F A B s) :
    Held F A B (State.occEvents p f old new s) := by
  unfold State.occEvents
  try dsimp only
  repeat (any_goals first
    | with_reducible assumption
    | intro _ _ _
    | intro _ _
    | with_reducible apply State.eventAt_held
    | with_reducible apply foldl_held
    | with_reducible apply held_ite
    | (fail_if_no_progress with_reducible refine held_upd ?_ rfl rfl rfl rfl rfl rfl rfl rfl rfl rfl rfl)
    | split
    | dsimp only
    | intro _)

theorem State.daliOccupancy_held (occ : Vector OccMachine 4) (s : State) (hH : Held F A B s) :
    Held F A B (State.daliOccupancy occ s) := by
  unfold State.daliOccupancy
  try dsimp only
  repeat (any_goals first
    | with_reducible assumption
    | with_reducible apply State.daliEvent_held
    | with_reducible apply held_ite
    | (fail_if_no_progress with_reducible refine held_upd ?_ rfl rfl rfl rfl rfl rfl rfl rfl rfl rfl rfl)
    | split
    | dsimp only
    | intro _)

theorem State.daliLight_held (lux : List Frac) (s : State) (hH : Held F A B s) :
    Held F A B (State.daliLight lux s) := by
  unfold State.daliLight
  try dsimp only
  repeat (any_goals first
    | with_reducible assumption
    | with_reducible apply State.drawn_held
    | with_reducible apply State.daliEvent_held
    | with_reducible apply held_ite
    | (fail_if_no_progress with_reducible refine held_upd ?_ rfl rfl rfl rfl rfl rfl rfl rfl rfl rfl rfl)
    | split
    | dsimp only
    | intro _)

theorem State.daliUpdate_held (p : PolId) (evaluated : Bool) (occ : Vector OccMachine 4) (lux : List Frac) (s : State) (hH : Held F A B s) :
    Held F A B (State.daliUpdate p evaluated occ lux s) := by
  unfold State.daliUpdate
  try dsimp only
  repeat (any_goals first
    | with_reducible assumption
    | with_reducible apply State.daliOccupancy_held
    | with_reducible apply State.daliLight_held
    | with_reducible apply held_ite
    | (fail_if_no_progress with_reducible refine held_upd ?_ rfl rfl rfl rfl rfl rfl rfl rfl rfl rfl rfl)
    | split
    | dsimp only
    | intro _)

theorem State.leaveStats_held (x : Slot) (p : PolId) (te : Tb) (replaced : Option (Vector OccMachine 4)) (s : State) (hH : Held F A B s) :
    Held F A B (State.leaveStats x p te replaced s) := by
  unfold State.leaveStats
  try dsimp only
  repeat (any_goals first
    | with_reducible assumption
    | with_reducible apply State.occEvents_held
    | with_reducible apply State.daliUpdate_held
    | exact id
    | exact fun _ => rfl
    | exact fun hq => Polder.emptied_queuesWf hq rfl rfl rfl rfl
    | with_reducible refine State.modPol_held ?_ ?_
    | with_reducible apply held_ite
    | (fail_if_no_progress with_reducible refine held_upd ?_ rfl rfl rfl rfl rfl rfl rfl rfl rfl rfl rfl)
    | split
    | dsimp only
    | intro _)

theorem State.leaveVoid_held (x : Slot) (p : PolId) (reason : Nat) (s : State) (hH : Held F A B s) :
    Held F A B (State.leaveVoid x p reason s) := by
  unfold State.leaveVoid
  try dsimp only
  repeat (any_goals first
    | with_reducible assumption
    | exact id
    | exact fun _ => rfl
    | exact fun hq => Polder.emptied_queuesWf hq rfl rfl rfl rfl
    | with_reducible refine State.modPol_held ?_ ?_
    | with_reducible apply held_ite
    | (fail_if_no_progress with_reducible refine held_upd ?_ rfl rfl rfl rfl rfl rfl rfl rfl rfl rfl rfl)
    | split
    | dsimp only
    | intro _)

theorem execRecordLeavesFork_held (s : State) (hH : Held F A B s) :
    HeldOut F A B (execRecordLeavesFork s) := by
  unfold execRecordLeavesFork
  try dsimp only
  repeat (any_goals first
    | with_reducible assumption
    | with_reducible apply State.reportCal_held
    | with_reducible apply State.leaveStats_held
    | with_reducible apply State.leaveVoid_held
    | with_reducible apply held_ite
    | with_reducible apply heldOut_next
    | with_reducible apply heldOut_fault
    | with_reducible apply heldOut_ite
    | (fail_if_no_progress with_reducible refine held_upd ?_ rfl rfl rfl rfl rfl rfl rfl rfl rfl rfl rfl)
    | split
    | dsimp only
    | intro _)

theorem State.issueDissolved_held (p : PolId) (s : State) (hH : Held F A B s) :
    Held F A B (State.issueDissolved p s) := by
  unfold State.issueDissolved
  try dsimp only
  repeat (any_goals first
    | with_reducible assumption
    | with_reducible apply State.issueRecord_held
    | exact id
    | exact fun _ => rfl
    | exact fun hq => Polder.emptied_queuesWf hq rfl rfl rfl rfl
    | with_reducible refine State.modPol_held ?_ ?_
    | (fail_if_no_progress with_reducible refine held_upd ?_ rfl rfl rfl rfl rfl rfl rfl rfl rfl rfl rfl)
    | split
    | dsimp only
    | intro _)

theorem execRecordEntersDelivery_held (s : State) (hH : Held F A B s) :
    HeldOut F A B (execRecordEntersDelivery s) := by
  unfold execRecordEntersDelivery
  try dsimp only
  repeat (any_goals first
    | with_reducible assumption
    | intro _ _ _
    | intro _ _
    | with_reducible apply State.issueRecord_held
    | with_reducible apply State.issueAll_held
    | with_reducible apply State.issueDissolved_held
    | with_reducible apply foldl_held
    | with_reducible apply held_ite
    | with_reducible apply heldOut_next
    | with_reducible apply heldOut_fault
    | with_reducible apply heldOut_ite
    | (fail_if_no_progress with_reducible refine held_upd ?_ rfl rfl rfl rfl rfl rfl rfl rfl rfl rfl rfl)
    | split
    | dsimp only
    | intro _)

end Sys2Proof.Machine
end

