-- ==== Sys2Proof/Laws/HeldReeve.lean ====
section
/-! SUPPORT. What the operations of Machine/Reeve.lean keep (Laws/Held.lean). -/

namespace Sys2Proof.Machine

variable {F : FuseBlock} {A B : Prop}

set_option linter.unusedTactic false
set_option linter.unreachableTactic false
set_option linter.unusedVariables false

theorem State.changeRole_held (new : Fin 3) (cause : Nat) (cycle : W32) (s : State) (hH : Held F A B s) :
    Held F A B (State.changeRole new cause cycle s) := by
  unfold State.changeRole
  try dsimp only
  repeat (any_goals first
    | with_reducible assumption
    | with_reducible apply State.ownerEvent_held
    | (fail_if_no_progress with_reducible refine held_upd ?_ rfl rfl rfl rfl rfl rfl rfl rfl rfl rfl rfl)
    | split
    | dsimp only
    | intro _)

theorem State.timeEvent_held (state : Nat) (offset : Int) (s : State) (hH : Held F A B s) :
    Held F A B (State.timeEvent state offset s) := by
  unfold State.timeEvent
  try dsimp only
  repeat (any_goals first
    | with_reducible assumption
    | with_reducible apply State.ownerEvent_held
    | (fail_if_no_progress with_reducible refine held_upd ?_ rfl rfl rfl rfl rfl rfl rfl rfl rfl rfl rfl)
    | split
    | dsimp only
    | intro _)

theorem State.stopFollowing_held (s : State) (hH : Held F A B s) :
    Held F A B (State.stopFollowing s) := by
  unfold State.stopFollowing
  try dsimp only
  repeat (any_goals first
    | with_reducible assumption
    | with_reducible apply State.timeEvent_held
    | with_reducible apply held_ite
    | (fail_if_no_progress with_reducible refine held_upd ?_ rfl rfl rfl rfl rfl rfl rfl rfl rfl rfl rfl)
    | split
    | dsimp only
    | intro _)

theorem State.takePhase_held (valid newSource : Bool) (edge : Tb) (period : Nat) (s : State) (hH : Held F A B s) :
    Held F A B (State.takePhase valid newSource edge period s) := by
  unfold State.takePhase
  try dsimp only
  repeat (any_goals first
    | with_reducible assumption
    | with_reducible apply State.syncLostEvents_held
    | with_reducible apply State.syncOkEvents_held
    | with_reducible apply held_ite
    | (fail_if_no_progress with_reducible refine held_upd ?_ rfl rfl rfl rfl rfl rfl rfl rfl rfl rfl rfl)
    | split
    | dsimp only
    | intro _)

theorem State.loadFabricTime_held (b : BeaconFields) (theta : Int) (s : State) (hH : Held F A B s) :
    Held F A B (State.loadFabricTime b theta s) := by
  unfold State.loadFabricTime
  try dsimp only
  repeat (any_goals first
    | with_reducible assumption
    | with_reducible apply State.timeEvent_held
    | with_reducible apply held_ite
    | (fail_if_no_progress with_reducible refine held_upd ?_ rfl rfl rfl rfl rfl rfl rfl rfl rfl rfl rfl)
    | split
    | dsimp only
    | intro _)

theorem State.slewToFabric_held (theta : Int) (s : State) (hH : Held F A B s) :
    Held F A B (State.slewToFabric theta s) := by
  unfold State.slewToFabric
  try dsimp only
  repeat (any_goals first
    | with_reducible assumption
    | with_reducible apply State.drawn_held
    | with_reducible apply State.timeEvent_held
    | with_reducible apply held_ite
    | (fail_if_no_progress with_reducible refine held_upd ?_ rfl rfl rfl rfl rfl rfl rfl rfl rfl rfl rfl)
    | split
    | dsimp only
    | intro _)

theorem State.followTime_held (b : BeaconFields) (s : State) (hH : Held F A B s) :
    Held F A B (State.followTime b s) := by
  unfold State.followTime
  try dsimp only
  repeat (any_goals first
    | with_reducible assumption
    | with_reducible apply State.timeEvent_held
    | with_reducible apply State.loadFabricTime_held
    | with_reducible apply State.slewToFabric_held
    | with_reducible apply held_ite
    | (fail_if_no_progress with_reducible refine held_upd ?_ rfl rfl rfl rfl rfl rfl rfl rfl rfl rfl rfl)
    | split
    | dsimp only
    | intro _)

theorem State.contendService_held (p : Port) (dst : BitVec 12) (filter byte1 : Nat) (value : BitVec 48) (s : State) (hH : Held F A B s) :
    Held F A B (State.contendService p dst filter byte1 value s) := by
  unfold State.contendService
  try dsimp only
  repeat (any_goals first
    | with_reducible assumption
    | with_reducible apply State.contend_held
    | (fail_if_no_progress with_reducible refine held_upd ?_ rfl rfl rfl rfl rfl rfl rfl rfl rfl rfl rfl)
    | split
    | dsimp only
    | intro _)

theorem State.repeatSwap_held (s : State) (hH : Held F A B s) :
    Held F A B (State.repeatSwap s) := by
  unfold State.repeatSwap
  try dsimp only
  repeat (any_goals first
    | with_reducible assumption
    | with_reducible apply State.stamp_held
    | with_reducible apply State.sendService_held
    | with_reducible apply held_ite
    | (fail_if_no_progress with_reducible refine held_upd ?_ rfl rfl rfl rfl rfl rfl rfl rfl rfl rfl rfl)
    | split
    | dsimp only
    | intro _)

theorem State.sendDone_held (role : SwapRole) (peer : BitVec 12) (stamp : BitVec 48) (s : State) (hH : Held F A B s) :
    Held F A B (State.sendDone role peer stamp s) := by
  unfold State.sendDone
  try dsimp only
  repeat (any_goals first
    | with_reducible assumption
    | with_reducible apply State.sendService_held
    | (fail_if_no_progress with_reducible refine held_upd ?_ rfl rfl rfl rfl rfl rfl rfl rfl rfl rfl rfl)
    | split
    | dsimp only
    | intro _)

theorem State.finishSwap_held (role : SwapRole) (peer : BitVec 12) (stood : BitVec 48) (change : Tb) (s : State) (hH : Held F A B s) :
    Held F A B (State.finishSwap role peer stood change s) := by
  unfold State.finishSwap
  try dsimp only
  repeat (any_goals first
    | with_reducible assumption
    | with_reducible apply State.stamp_held
    | with_reducible apply State.readyHeld_held
    | with_reducible apply held_ite
    | (fail_if_no_progress with_reducible refine held_upd ?_ rfl rfl rfl rfl rfl rfl rfl rfl rfl rfl rfl)
    | split
    | dsimp only
    | intro _)

theorem State.startHandover_held (role : SwapRole) (peer : BitVec 12) (stamp : BitVec 48) (s : State) (hH : Held F A B s) :
    Held F A B (State.startHandover role peer stamp s) := by
  unfold State.startHandover
  try dsimp only
  repeat (any_goals first
    | with_reducible assumption
    | with_reducible apply State.sendDone_held
    | with_reducible apply State.finishSwap_held
    | (fail_if_no_progress with_reducible refine held_upd ?_ rfl rfl rfl rfl rfl rfl rfl rfl rfl rfl rfl)
    | split
    | dsimp only
    | intro _)

theorem State.becomeReeve_held (cause : Nat) (cycle : W32) (s : State) (hH : Held F A B s) :
    Held F A B (State.becomeReeve cause cycle s) := by
  unfold State.becomeReeve
  try dsimp only
  repeat (any_goals first
    | with_reducible assumption
    | with_reducible apply State.changeRole_held
    | with_reducible apply State.stopFollowing_held
    | with_reducible apply held_ite
    | (fail_if_no_progress with_reducible refine held_upd ?_ rfl rfl rfl rfl rfl rfl rfl rfl rfl rfl rfl)
    | split
    | dsimp only
    | intro _)

theorem State.emitBeacon_held (first : Bool) (s : State) (hH : Held F A B s) :
    Held F A B (State.emitBeacon first s) := by
  unfold State.emitBeacon
  try dsimp only
  repeat (any_goals first
    | with_reducible assumption
    | with_reducible apply State.modPort_held
    | with_reducible apply State.drawn_held
    | with_reducible apply State.decidePortMode_held
    | with_reducible apply State.newCycle_held
    | with_reducible apply State.putLine_held
    | with_reducible apply State.takePhase_held
    | with_reducible apply State.repeatSwap_held
    | with_reducible apply held_ite
    | (fail_if_no_progress with_reducible refine held_upd ?_ rfl rfl rfl rfl rfl rfl rfl rfl rfl rfl rfl)
    | split
    | dsimp only
    | intro _)

theorem State.handoverAtBeacon_held (s : State) (hH : Held F A B s) :
    Held F A B (State.handoverAtBeacon s).2 := by
  unfold State.handoverAtBeacon
  try dsimp only
  repeat (any_goals first
    | with_reducible assumption
    | with_reducible apply State.changeRole_held
    | with_reducible apply State.becomeReeve_held
    | with_reducible apply held_ite
    | (fail_if_no_progress with_reducible refine held_upd ?_ rfl rfl rfl rfl rfl rfl rfl rfl rfl rfl rfl)
    | split
    | dsimp only
    | intro _)

theorem State.handoverAfterBeacon_held (s : State) (hH : Held F A B s) :
    Held F A B (State.handoverAfterBeacon s) := by
  unfold State.handoverAfterBeacon
  try dsimp only
  repeat (any_goals first
    | with_reducible assumption
    | with_reducible apply held_ite
    | (fail_if_no_progress with_reducible refine held_upd ?_ rfl rfl rfl rfl rfl rfl rfl rfl rfl rfl rfl)
    | split
    | dsimp only
    | intro _)

theorem execBeaconTx_held (s : State) (hH : Held F A B s) :
    HeldOut F A B (execBeaconTx s) := by
  unfold execBeaconTx
  try dsimp only
  repeat (any_goals first
    | with_reducible assumption
    | refine snd_held (by assumption) ?_
    | with_reducible apply State.emitBeacon_held
    | with_reducible apply State.handoverAtBeacon_held
    | with_reducible apply State.handoverAfterBeacon_held
    | with_reducible apply held_ite
    | with_reducible apply heldOut_next
    | with_reducible apply heldOut_fault
    | with_reducible apply heldOut_ite
    | (fail_if_no_progress with_reducible refine held_upd ?_ rfl rfl rfl rfl rfl rfl rfl rfl rfl rfl rfl)
    | split
    | dsimp only
    | intro _)

theorem State.findHome_held (p : Port) (b : BeaconFields) (s : State) (hH : Held F A B s) :
    Held F A B (State.findHome p b s) := by
  unfold State.findHome
  try dsimp only
  repeat (any_goals first
    | with_reducible assumption
    | with_reducible apply held_ite
    | (fail_if_no_progress with_reducible refine held_upd ?_ rfl rfl rfl rfl rfl rfl rfl rfl rfl rfl rfl)
    | split
    | dsimp only
    | intro _)

theorem State.takeGrant_held (b : BeaconFields) (s : State) (hH : Held F A B s) :
    Held F A B (State.takeGrant b s) := by
  unfold State.takeGrant
  try dsimp only
  repeat (any_goals first
    | with_reducible assumption
    | with_reducible apply State.patientEvent_held
    | with_reducible apply held_ite
    | (fail_if_no_progress with_reducible refine held_upd ?_ rfl rfl rfl rfl rfl rfl rfl rfl rfl rfl rfl)
    | split
    | dsimp only
    | intro _)

theorem State.judgeMismatch_held (p : Port) (b : BeaconFields) (s : State) (hH : Held F A B s) :
    Held F A B (State.judgeMismatch p b s) := by
  unfold State.judgeMismatch
  try dsimp only
  repeat (any_goals first
    | with_reducible assumption
    | with_reducible apply State.modPort_held
    | with_reducible apply State.patientEvent_held
    | with_reducible apply State.queueJoin_held
    | with_reducible apply held_ite
    | (fail_if_no_progress with_reducible refine held_upd ?_ rfl rfl rfl rfl rfl rfl rfl rfl rfl rfl rfl)
    | split
    | dsimp only
    | intro _)

theorem State.keepBeacon_held (p : Port) (h : Heard) (b : BeaconFields) (s : State) (hH : Held F A B s) :
    Held F A B (State.keepBeacon p h b s) := by
  unfold State.keepBeacon
  try dsimp only
  repeat (any_goals first
    | with_reducible assumption
    | with_reducible apply State.modPort_held
    | with_reducible apply State.newCycle_held
    | with_reducible apply State.queueJoin_held
    | with_reducible apply held_ite
    | (fail_if_no_progress with_reducible refine held_upd ?_ rfl rfl rfl rfl rfl rfl rfl rfl rfl rfl rfl)
    | split
    | dsimp only
    | intro _)

theorem State.keepRoot_held (b : BeaconFields) (s : State) (hH : Held F A B s) :
    Held F A B (State.keepRoot b s) := by
  unfold State.keepRoot
  try dsimp only
  repeat (any_goals first
    | with_reducible assumption
    | with_reducible apply State.requestItem_held
    | with_reducible apply held_ite
    | (fail_if_no_progress with_reducible refine held_upd ?_ rfl rfl rfl rfl rfl rfl rfl rfl rfl rfl rfl)
    | split
    | dsimp only
    | intro _)

theorem State.keepPeriod_held (b : BeaconFields) (s : State) (hH : Held F A B s) :
    Held F A B (State.keepPeriod b s) := by
  unfold State.keepPeriod
  try dsimp only
  repeat (any_goals first
    | with_reducible assumption
    | with_reducible apply State.requestItem_held
    | with_reducible apply held_ite
    | (fail_if_no_progress with_reducible refine held_upd ?_ rfl rfl rfl rfl rfl rfl rfl rfl rfl rfl rfl)
    | split
    | dsimp only
    | intro _)

theorem State.followBeacon_held (may newSource : Bool) (b : BeaconFields) (s : State) (hH : Held F A B s) :
    Held F A B (State.followBeacon may newSource b s) := by
  unfold State.followBeacon
  try dsimp only
  repeat (any_goals first
    | with_reducible assumption
    | with_reducible apply State.stopFollowing_held
    | with_reducible apply State.takePhase_held
    | with_reducible apply State.followTime_held
    | with_reducible apply held_ite
    | (fail_if_no_progress with_reducible refine held_upd ?_ rfl rfl rfl rfl rfl rfl rfl rfl rfl rfl rfl)
    | split
    | dsimp only
    | intro _)

theorem State.completeHandover_held (x : Handover) (b : BeaconFields) (s : State) (hH : Held F A B s) :
    Held F A B (State.completeHandover x b s) := by
  unfold State.completeHandover
  try dsimp only
  repeat (any_goals first
    | with_reducible assumption
    | with_reducible apply State.stamp_held
    | with_reducible apply State.changeRole_held
    | with_reducible apply State.finishSwap_held
    | (fail_if_no_progress with_reducible refine held_upd ?_ rfl rfl rfl rfl rfl rfl rfl rfl rfl rfl rfl)
    | split
    | dsimp only
    | intro _)

theorem State.takeHandover_held (h : Heard) (b : BeaconFields) (s : State) (hH : Held F A B s) :
    Held F A B (State.takeHandover h b s) := by
  unfold State.takeHandover
  try dsimp only
  repeat (any_goals first
    | with_reducible assumption
    | with_reducible apply State.stamp_held
    | with_reducible apply held_ite
    | (fail_if_no_progress with_reducible refine held_upd ?_ rfl rfl rfl rfl rfl rfl rfl rfl rfl rfl rfl)
    | split
    | dsimp only
    | intro _)

theorem State.meetBeacon_held (h : Heard) (b : BeaconFields) (s : State) (hH : Held F A B s) :
    Held F A B (State.meetBeacon h b s).2 := by
  unfold State.meetBeacon
  try dsimp only
  repeat (any_goals first
    | with_reducible assumption
    | with_reducible apply State.changeRole_held
    | with_reducible apply State.completeHandover_held
    | with_reducible apply held_ite
    | (fail_if_no_progress with_reducible refine held_upd ?_ rfl rfl rfl rfl rfl rfl rfl rfl rfl rfl rfl)
    | split
    | dsimp only
    | intro _)

theorem State.homeBeacon_held (p : Port) (h : Heard) (b : BeaconFields) (s : State) (hH : Held F A B s) :
    Held F A B (State.homeBeacon p h b s) := by
  unfold State.homeBeacon
  try dsimp only
  repeat (any_goals first
    | with_reducible assumption
    | refine snd_held (by assumption) ?_
    | with_reducible apply State.repeatSwap_held
    | with_reducible apply State.keepBeacon_held
    | with_reducible apply State.keepRoot_held
    | with_reducible apply State.followBeacon_held
    | with_reducible apply State.takeHandover_held
    | with_reducible apply State.meetBeacon_held
    | (fail_if_no_progress with_reducible refine held_upd ?_ rfl rfl rfl rfl rfl rfl rfl rfl rfl rfl rfl)
    | split
    | dsimp only
    | intro _)

theorem State.farBeacon_held (p : Port) (h : Heard) (b : BeaconFields) (s : State) (hH : Held F A B s) :
    Held F A B (State.farBeacon p h b s) := by
  unfold State.farBeacon
  try dsimp only
  repeat (any_goals first
    | with_reducible assumption
    | with_reducible apply State.keepBeacon_held
    | with_reducible apply State.followBeacon_held
    | with_reducible apply held_ite
    | (fail_if_no_progress with_reducible refine held_upd ?_ rfl rfl rfl rfl rfl rfl rfl rfl rfl rfl rfl)
    | split
    | dsimp only
    | intro _)

theorem State.takeBeacon_held (h : Heard) (b : BeaconFields) (s : State) (hH : Held F A B s) :
    Held F A B (State.takeBeacon h b s) := by
  unfold State.takeBeacon
  try dsimp only
  repeat (any_goals first
    | with_reducible assumption
    | with_reducible apply State.modPort_held
    | with_reducible apply State.decidePortMode_held
    | with_reducible apply State.rxOk_held
    | with_reducible apply State.noteUid_held
    | with_reducible apply State.findHome_held
    | with_reducible apply State.takeGrant_held
    | with_reducible apply State.judgeMismatch_held
    | with_reducible apply State.keepPeriod_held
    | with_reducible apply State.homeBeacon_held
    | with_reducible apply State.farBeacon_held
    | with_reducible apply held_ite
    | (fail_if_no_progress with_reducible refine held_upd ?_ rfl rfl rfl rfl rfl rfl rfl rfl rfl rfl rfl)
    | split
    | dsimp only
    | intro _)

theorem execBeacon_held (f : LineRx) (s : State) (hH : Held F A B s) :
    HeldOut F A B (execBeacon f s) := by
  unfold execBeacon
  try dsimp only
  repeat (any_goals first
    | with_reducible assumption
    | with_reducible apply State.countPort_held
    | with_reducible apply State.keyed_held
    | with_reducible apply State.takeBeacon_held
    | with_reducible apply held_ite
    | with_reducible apply heldOut_next
    | with_reducible apply heldOut_fault
    | with_reducible apply heldOut_ite
    | (fail_if_no_progress with_reducible refine held_upd ?_ rfl rfl rfl rfl rfl rfl rfl rfl rfl rfl rfl)
    | split
    | dsimp only
    | intro _)

theorem State.resumeRole_held (p : Port) (s : State) (hH : Held F A B s) :
    Held F A B (State.resumeRole p s) := by
  unfold State.resumeRole
  try dsimp only
  repeat (any_goals first
    | with_reducible assumption
    | with_reducible apply State.changeRole_held
    | with_reducible apply held_ite
    | (fail_if_no_progress with_reducible refine held_upd ?_ rfl rfl rfl rfl rfl rfl rfl rfl rfl rfl rfl)
    | split
    | dsimp only
    | intro _)

theorem State.loseTime_held (p : Port) (s : State) (hH : Held F A B s) :
    Held F A B (State.loseTime p s) := by
  unfold State.loseTime
  try dsimp only
  repeat (any_goals first
    | with_reducible assumption
    | with_reducible apply State.stopFollowing_held
    | with_reducible apply State.takePhase_held
    | with_reducible apply held_ite
    | (fail_if_no_progress with_reducible refine held_upd ?_ rfl rfl rfl rfl rfl rfl rfl rfl rfl rfl rfl)
    | split
    | dsimp only
    | intro _)

theorem execBeaconMissed_held (port : Port) (s : State) (hH : Held F A B s) :
    HeldOut F A B (execBeaconMissed port s) := by
  unfold execBeaconMissed
  try dsimp only
  repeat (any_goals first
    | with_reducible assumption
    | with_reducible apply State.modPort_held
    | with_reducible apply State.countPort_held
    | with_reducible apply State.repeatSwap_held
    | with_reducible apply State.resumeRole_held
    | with_reducible apply State.loseTime_held
    | with_reducible apply held_ite
    | with_reducible apply heldOut_next
    | with_reducible apply heldOut_fault
    | with_reducible apply heldOut_ite
    | (fail_if_no_progress with_reducible refine held_upd ?_ rfl rfl rfl rfl rfl rfl rfl rfl rfl rfl rfl)
    | split
    | dsimp only
    | intro _)

theorem execReevePresumedLost_held (port : Port) (s : State) (hH : Held F A B s) :
    HeldOut F A B (execReevePresumedLost port s) := by
  unfold execReevePresumedLost
  try dsimp only
  repeat (any_goals first
    | with_reducible assumption
    | intro _ _
    | with_reducible apply State.ownerEvent_held
    | with_reducible apply held_ite
    | with_reducible apply heldOut_next
    | with_reducible apply heldOut_fault
    | with_reducible apply heldOut_ite
    | (fail_if_no_progress with_reducible refine held_upd ?_ rfl rfl rfl rfl rfl rfl rfl rfl rfl rfl rfl)
    | split
    | dsimp only
    | intro _)

theorem execElectionDelayExpired_held (collided : Bool) (s : State) (hH : Held F A B s) :
    HeldOut F A B (execElectionDelayExpired collided s) := by
  unfold execElectionDelayExpired
  try dsimp only
  repeat (any_goals first
    | with_reducible assumption
    | with_reducible apply State.countPort_held
    | with_reducible apply State.drawn_held
    | with_reducible apply State.becomeReeve_held
    | with_reducible apply State.emitBeacon_held
    | with_reducible apply held_ite
    | with_reducible apply heldOut_next
    | with_reducible apply heldOut_fault
    | with_reducible apply heldOut_ite
    | (fail_if_no_progress with_reducible refine held_upd ?_ rfl rfl rfl rfl rfl rfl rfl rfl rfl rfl rfl)
    | split
    | dsimp only
    | intro _)

theorem State.service_held (f : LineRx) (filter : Nat) (act : Heard → State → State) (s : State) (hH : Held F A B s) (hf : ∀ h s, Held F A B s → Held F A B (act h s)) :
    Held F A B (State.service f filter act s) := by
  unfold State.service
  try dsimp only
  repeat (any_goals first
    | with_reducible assumption
    | apply hf
    | with_reducible intro _
    | refine snd_held (by assumption) ?_
    | with_reducible apply State.receiveHop_held
    | with_reducible apply State.heardOn_held
    | with_reducible apply State.keyed_held
    | with_reducible apply held_ite
    | (fail_if_no_progress with_reducible refine held_upd ?_ rfl rfl rfl rfl rfl rfl rfl rfl rfl rfl rfl)
    | split
    | dsimp only
    | intro _)

theorem State.swapService_held (f : LineRx) (filter : Nat) (act : Heard → SwapRole → BitVec 48 → State → State) (s : State) (hH : Held F A B s) (hf : ∀ h r x s, Held F A B s → Held F A B (act h r x s)) :
    Held F A B (State.swapService f filter act s) := by
  unfold State.swapService
  try dsimp only
  repeat (any_goals first
    | with_reducible assumption
    | apply hf
    | with_reducible intro _
    | with_reducible apply State.service_held
    | (fail_if_no_progress with_reducible refine held_upd ?_ rfl rfl rfl rfl rfl rfl rfl rfl rfl rfl rfl)
    | split
    | dsimp only
    | intro _)

theorem execRangeReq_held (f : LineRx) (roundTrip : Nat) (s : State) (hH : Held F A B s) :
    HeldOut F A B (execRangeReq f roundTrip s) := by
  unfold execRangeReq
  try dsimp only
  repeat (any_goals first
    | with_reducible assumption
    | with_reducible intro _
    | with_reducible apply State.contendService_held
    | with_reducible apply State.service_held
    | with_reducible apply held_ite
    | with_reducible apply heldOut_next
    | with_reducible apply heldOut_fault
    | with_reducible apply heldOut_ite
    | (fail_if_no_progress with_reducible refine held_upd ?_ rfl rfl rfl rfl rfl rfl rfl rfl rfl rfl rfl)
    | split
    | dsimp only
    | intro _)

theorem execRangeEcho_held (f : LineRx) (s : State) (hH : Held F A B s) :
    HeldOut F A B (execRangeEcho f s) := by
  unfold execRangeEcho
  try dsimp only
  repeat (any_goals first
    | with_reducible assumption
    | with_reducible intro _
    | with_reducible apply State.service_held
    | with_reducible apply held_ite
    | with_reducible apply heldOut_next
    | with_reducible apply heldOut_fault
    | with_reducible apply heldOut_ite
    | (fail_if_no_progress with_reducible refine held_upd ?_ rfl rfl rfl rfl rfl rfl rfl rfl rfl rfl rfl)
    | split
    | dsimp only
    | intro _)

theorem execRangeReqTimer_held (s : State) (hH : Held F A B s) :
    HeldOut F A B (execRangeReqTimer s) := by
  unfold execRangeReqTimer
  try dsimp only
  repeat (any_goals first
    | with_reducible assumption
    | with_reducible apply State.contendService_held
    | with_reducible apply held_ite
    | with_reducible apply heldOut_next
    | with_reducible apply heldOut_fault
    | with_reducible apply heldOut_ite
    | (fail_if_no_progress with_reducible refine held_upd ?_ rfl rfl rfl rfl rfl rfl rfl rfl rfl rfl rfl)
    | split
    | dsimp only
    | intro _)

theorem State.answerSwap_held (role : SwapRole) (peer : BitVec 12) (stamp : BitVec 48) (s : State) (hH : Held F A B s) :
    Held F A B (State.answerSwap role peer stamp s) := by
  unfold State.answerSwap
  try dsimp only
  repeat (any_goals first
    | with_reducible assumption
    | with_reducible apply State.sendService_held
    | with_reducible apply held_ite
    | (fail_if_no_progress with_reducible refine held_upd ?_ rfl rfl rfl rfl rfl rfl rfl rfl rfl rfl rfl)
    | split
    | dsimp only
    | intro _)

theorem State.serveSwap_held (role : SwapRole) (peer : BitVec 12) (stamp : BitVec 48) (s : State) (hH : Held F A B s) :
    Held F A B (State.serveSwap role peer stamp s) := by
  unfold State.serveSwap
  try dsimp only
  repeat (any_goals first
    | with_reducible assumption
    | with_reducible apply State.startHandover_held
    | with_reducible apply State.answerSwap_held
    | with_reducible apply held_ite
    | (fail_if_no_progress with_reducible refine held_upd ?_ rfl rfl rfl rfl rfl rfl rfl rfl rfl rfl rfl)
    | split
    | dsimp only
    | intro _)

theorem State.crossSwap_held (w : SwapPending) (stamp : BitVec 48) (s : State) (hH : Held F A B s) :
    Held F A B (State.crossSwap w stamp s) := by
  unfold State.crossSwap
  try dsimp only
  repeat (any_goals first
    | with_reducible assumption
    | with_reducible apply State.drawn_held
    | with_reducible apply State.stamp_held
    | with_reducible apply State.startHandover_held
    | with_reducible apply State.serveSwap_held
    | with_reducible apply held_ite
    | (fail_if_no_progress with_reducible refine held_upd ?_ rfl rfl rfl rfl rfl rfl rfl rfl rfl rfl rfl)
    | split
    | dsimp only
    | intro _)

theorem execSwapReq_held (f : LineRx) (s : State) (hH : Held F A B s) :
    HeldOut F A B (execSwapReq f s) := by
  unfold execSwapReq
  try dsimp only
  repeat (any_goals first
    | with_reducible assumption
    | with_reducible intro _
    | with_reducible apply State.sendService_held
    | with_reducible apply State.swapService_held
    | with_reducible apply State.serveSwap_held
    | with_reducible apply State.crossSwap_held
    | with_reducible apply held_ite
    | with_reducible apply heldOut_next
    | with_reducible apply heldOut_fault
    | with_reducible apply heldOut_ite
    | (fail_if_no_progress with_reducible refine held_upd ?_ rfl rfl rfl rfl rfl rfl rfl rfl rfl rfl rfl)
    | split
    | dsimp only
    | intro _)

theorem State.swapAnswered_held (s : State) (hH : Held F A B s) :
    Held F A B (State.swapAnswered s) := by
  unfold State.swapAnswered
  try dsimp only
  repeat (any_goals first
    | with_reducible assumption
    | (fail_if_no_progress with_reducible refine held_upd ?_ rfl rfl rfl rfl rfl rfl rfl rfl rfl rfl rfl)
    | split
    | dsimp only
    | intro _)

theorem State.swapRefused_held (s : State) (hH : Held F A B s) :
    Held F A B (State.swapRefused s) := by
  unfold State.swapRefused
  try dsimp only
  repeat (any_goals first
    | with_reducible assumption
    | with_reducible apply State.readyHeld_held
    | (fail_if_no_progress with_reducible refine held_upd ?_ rfl rfl rfl rfl rfl rfl rfl rfl rfl rfl rfl)
    | split
    | dsimp only
    | intro _)

theorem execSwapReady_held (f : LineRx) (s : State) (hH : Held F A B s) :
    HeldOut F A B (execSwapReady f s) := by
  unfold execSwapReady
  try dsimp only
  repeat (any_goals first
    | with_reducible assumption
    | with_reducible intro _
    | with_reducible apply State.startHandover_held
    | with_reducible apply State.swapService_held
    | with_reducible apply State.swapAnswered_held
    | with_reducible apply State.swapRefused_held
    | with_reducible apply held_ite
    | with_reducible apply heldOut_next
    | with_reducible apply heldOut_fault
    | with_reducible apply heldOut_ite
    | (fail_if_no_progress with_reducible refine held_upd ?_ rfl rfl rfl rfl rfl rfl rfl rfl rfl rfl rfl)
    | split
    | dsimp only
    | intro _)

theorem execSwapNot_held (f : LineRx) (s : State) (hH : Held F A B s) :
    HeldOut F A B (execSwapNot f s) := by
  unfold execSwapNot
  try dsimp only
  repeat (any_goals first
    | with_reducible assumption
    | with_reducible intro _
    | with_reducible apply State.swapService_held
    | with_reducible apply State.swapRefused_held
    | with_reducible apply held_ite
    | with_reducible apply heldOut_next
    | with_reducible apply heldOut_fault
    | with_reducible apply heldOut_ite
    | (fail_if_no_progress with_reducible refine held_upd ?_ rfl rfl rfl rfl rfl rfl rfl rfl rfl rfl rfl)
    | split
    | dsimp only
    | intro _)

theorem execSwapDone_held (f : LineRx) (s : State) (hH : Held F A B s) :
    HeldOut F A B (execSwapDone f s) := by
  unfold execSwapDone
  try dsimp only
  repeat (any_goals first
    | with_reducible assumption
    | with_reducible intro _
    | with_reducible apply State.finishSwap_held
    | with_reducible apply State.swapService_held
    | with_reducible apply held_ite
    | with_reducible apply heldOut_next
    | with_reducible apply heldOut_fault
    | with_reducible apply heldOut_ite
    | (fail_if_no_progress with_reducible refine held_upd ?_ rfl rfl rfl rfl rfl rfl rfl rfl rfl rfl rfl)
    | split
    | dsimp only
    | intro _)

theorem execRoleSwapTimeout_held (s : State) (hH : Held F A B s) :
    HeldOut F A B (execRoleSwapTimeout s) := by
  unfold execRoleSwapTimeout
  try dsimp only
  repeat (any_goals first
    | with_reducible assumption
    | with_reducible apply State.stamp_held
    | with_reducible apply State.readyHeld_held
    | with_reducible apply heldOut_next
    | with_reducible apply heldOut_fault
    | with_reducible apply heldOut_ite
    | (fail_if_no_progress with_reducible refine held_upd ?_ rfl rfl rfl rfl rfl rfl rfl rfl rfl rfl rfl)
    | split
    | dsimp only
    | intro _)

end Sys2Proof.Machine
end

