-- ==== Sys2Proof/Laws/HeldStartEv.lean ====
section
/-! SUPPORT. What the operations of Machine/StartEv.lean keep (Laws/Held.lean). -/

namespace Sys2Proof.Machine

variable {F : FuseBlock} {A B : Prop}

set_option linter.unusedTactic false
set_option linter.unreachableTactic false
set_option linter.unusedVariables false

theorem execLinePowerGood_held (s : State) (hH : Held F A B s) :
    HeldOut F A B (execLinePowerGood s) := by
  unfold execLinePowerGood
  try dsimp only
  repeat (any_goals first
    | with_reducible assumption
    | with_reducible apply State.restart_held
    | with_reducible apply held_ite
    | with_reducible apply heldOut_next
    | with_reducible apply heldOut_fault
    | with_reducible apply heldOut_ite
    | (fail_if_no_progress with_reducible refine held_upd ?_ rfl rfl rfl rfl rfl rfl rfl rfl rfl rfl rfl)
    | split
    | dsimp only
    | intro _)

theorem execLinePowerLost_held (s : State) (hH : Held F A B s) :
    HeldOut F A B (execLinePowerLost s) := by
  unfold execLinePowerLost
  try dsimp only
  repeat (any_goals first
    | with_reducible assumption
    | with_reducible apply held_ite
    | with_reducible apply heldOut_next
    | with_reducible apply heldOut_fault
    | with_reducible apply heldOut_ite
    | (fail_if_no_progress with_reducible refine held_upd ?_ rfl rfl rfl rfl rfl rfl rfl rfl rfl rfl rfl)
    | split
    | dsimp only
    | intro _)

theorem execPowerDownReset_held (s : State) (hH : Held F A B s) :
    HeldOut F A B (execPowerDownReset s) := by
  unfold execPowerDownReset
  try dsimp only
  repeat (any_goals first
    | with_reducible assumption
    | with_reducible apply State.restart_held
    | with_reducible apply held_ite
    | with_reducible apply heldOut_next
    | with_reducible apply heldOut_fault
    | with_reducible apply heldOut_ite
    | (fail_if_no_progress with_reducible refine held_upd ?_ rfl rfl rfl rfl rfl rfl rfl rfl rfl rfl rfl)
    | split
    | dsimp only
    | intro _)

theorem execPortPresenceChange_held (port : Port) (millivolts : Nat) (s : State) (hH : Held F A B s) :
    HeldOut F A B (execPortPresenceChange port millivolts s) := by
  unfold execPortPresenceChange
  try dsimp only
  repeat (any_goals first
    | with_reducible assumption
    | with_reducible apply State.decidePortMode_held
    | with_reducible apply held_ite
    | with_reducible apply heldOut_next
    | with_reducible apply heldOut_fault
    | with_reducible apply heldOut_ite
    | (fail_if_no_progress with_reducible refine held_upd ?_ rfl rfl rfl rfl rfl rfl rfl rfl rfl rfl rfl)
    | split
    | dsimp only
    | intro _)

theorem State.sampleStraps_held (straps : Straps) (vioPresent : Bool) (s : State) (hH : Held F A B s) :
    Held F A B (State.sampleStraps straps vioPresent s) := by
  unfold State.sampleStraps
  try dsimp only
  repeat (any_goals first
    | with_reducible assumption
    | with_reducible apply held_ite
    | (fail_if_no_progress with_reducible refine held_upd ?_ rfl rfl rfl rfl rfl rfl rfl rfl rfl rfl rfl)
    | split
    | dsimp only
    | intro _)

theorem State.setVio_held (lost : Bool) (s : State) (hH : Held F A B s) :
    Held F A B (State.setVio lost s) := by
  unfold State.setVio
  try dsimp only
  repeat (any_goals first
    | with_reducible assumption
    | with_reducible apply State.silencePix_held
    | with_reducible apply State.patientEvent_held
    | with_reducible apply State.endXfer_held
    | with_reducible apply held_ite
    | (fail_if_no_progress with_reducible refine held_upd ?_ rfl rfl rfl rfl rfl rfl rfl rfl rfl rfl rfl)
    | split
    | dsimp only
    | intro _)

theorem execAonReady_held (straps : Straps) (vioPresent : Bool) (s : State) (hH : Held F A B s) :
    HeldOut F A B (execAonReady straps vioPresent s) := by
  unfold execAonReady
  try dsimp only
  repeat (any_goals first
    | with_reducible assumption
    | with_reducible apply State.sampleStraps_held
    | with_reducible apply State.setVio_held
    | with_reducible apply held_ite
    | with_reducible apply heldOut_next
    | with_reducible apply heldOut_fault
    | with_reducible apply heldOut_ite
    | (fail_if_no_progress with_reducible refine held_upd ?_ rfl rfl rfl rfl rfl rfl rfl rfl rfl rfl rfl)
    | split
    | dsimp only
    | intro _)

theorem execResetNAssert_held (s : State) (hH : Held F A B s) :
    HeldOut F A B (execResetNAssert s) := by
  unfold execResetNAssert
  try dsimp only
  repeat (any_goals first
    | with_reducible assumption
    | with_reducible apply State.restart_held
    | with_reducible apply held_ite
    | with_reducible apply heldOut_next
    | with_reducible apply heldOut_fault
    | with_reducible apply heldOut_ite
    | (fail_if_no_progress with_reducible refine held_upd ?_ rfl rfl rfl rfl rfl rfl rfl rfl rfl rfl rfl)
    | split
    | dsimp only
    | intro _)

theorem execResetNRelease_held (straps : Straps) (vioPresent : Bool) (s : State) (hH : Held F A B s) :
    HeldOut F A B (execResetNRelease straps vioPresent s) := by
  unfold execResetNRelease
  try dsimp only
  repeat (any_goals first
    | with_reducible assumption
    | with_reducible apply State.sampleStraps_held
    | with_reducible apply State.setVio_held
    | with_reducible apply held_ite
    | with_reducible apply heldOut_next
    | with_reducible apply heldOut_fault
    | with_reducible apply heldOut_ite
    | (fail_if_no_progress with_reducible refine held_upd ?_ rfl rfl rfl rfl rfl rfl rfl rfl rfl rfl rfl)
    | split
    | dsimp only
    | intro _)

theorem execVauxTrip_held (s : State) (hH : Held F A B s) :
    HeldOut F A B (execVauxTrip s) := by
  unfold execVauxTrip
  try dsimp only
  repeat (any_goals first
    | with_reducible assumption
    | with_reducible apply State.supplyEvent_held
    | with_reducible apply held_ite
    | with_reducible apply heldOut_next
    | with_reducible apply heldOut_fault
    | with_reducible apply heldOut_ite
    | (fail_if_no_progress with_reducible refine held_upd ?_ rfl rfl rfl rfl rfl rfl rfl rfl rfl rfl rfl)
    | split
    | dsimp only
    | intro _)

theorem execVauxRetry_held (limiting : Bool) (s : State) (hH : Held F A B s) :
    HeldOut F A B (execVauxRetry limiting s) := by
  unfold execVauxRetry
  try dsimp only
  repeat (any_goals first
    | with_reducible assumption
    | with_reducible apply State.supplyEvent_held
    | with_reducible apply held_ite
    | with_reducible apply heldOut_next
    | with_reducible apply heldOut_fault
    | with_reducible apply heldOut_ite
    | (fail_if_no_progress with_reducible refine held_upd ?_ rfl rfl rfl rfl rfl rfl rfl rfl rfl rfl rfl)
    | split
    | dsimp only
    | intro _)

theorem execVioLost_held (s : State) (hH : Held F A B s) :
    HeldOut F A B (execVioLost s) := by
  unfold execVioLost
  try dsimp only
  repeat (any_goals first
    | with_reducible assumption
    | with_reducible apply State.setVio_held
    | with_reducible apply held_ite
    | with_reducible apply heldOut_next
    | with_reducible apply heldOut_fault
    | with_reducible apply heldOut_ite
    | (fail_if_no_progress with_reducible refine held_upd ?_ rfl rfl rfl rfl rfl rfl rfl rfl rfl rfl rfl)
    | split
    | dsimp only
    | intro _)

theorem execVioRestored_held (s : State) (hH : Held F A B s) :
    HeldOut F A B (execVioRestored s) := by
  unfold execVioRestored
  try dsimp only
  repeat (any_goals first
    | with_reducible assumption
    | with_reducible apply State.setVio_held
    | with_reducible apply held_ite
    | with_reducible apply heldOut_next
    | with_reducible apply heldOut_fault
    | with_reducible apply heldOut_ite
    | (fail_if_no_progress with_reducible refine held_upd ?_ rfl rfl rfl rfl rfl rfl rfl rfl rfl rfl rfl)
    | split
    | dsimp only
    | intro _)

theorem resumed_queuesWf (first : W32) (period : Nat) (x : Option StoredPolder) (n : Option StoredSeq) :
    (resumed first period x n).queuesWf = true := by
  unfold resumed
  split
  · rfl
  · dsimp only
    split <;> rfl

theorem State.loadItems_held (s : State) (h : Held F A B s) : Held F A B (State.loadItems s) := by
  unfold State.loadItems
  extract_lets w f first t
  have h1 : Held F A B { s with pols := Vector.ofFn (fun p => resumed first w.period s.arr.stored[p] s.arr.seqs[p]) } :=
    held_pols h fun p => by simp only [Fin.getElem_fin, Vector.getElem_ofFn]; exact resumed_queuesWf _ _ _ _
  exact held_same h1 rfl ⟨rfl, rfl, rfl, rfl⟩ ⟨rfl, rfl, rfl, rfl, rfl⟩ rfl


theorem State.clearFabric_held (s : State) (hH : Held F A B s) :
    Held F A B (State.clearFabric s) := by
  unfold State.clearFabric
  try dsimp only
  repeat (any_goals first
    | with_reducible assumption
    | with_reducible apply State.zeroFabric_held
    | with_reducible apply held_ite
    | (fail_if_no_progress with_reducible refine held_upd ?_ rfl rfl rfl rfl rfl rfl rfl rfl rfl rfl rfl)
    | split
    | dsimp only
    | intro _)

theorem State.startTest_held (f : StartFindings) (s : State) (hH : Held F A B s) :
    Held F A B (State.startTest f s) := by
  unfold State.startTest
  try dsimp only
  repeat (any_goals first
    | with_reducible assumption
    | with_reducible apply State.patientEvent_held
    | with_reducible apply held_ite
    | (fail_if_no_progress with_reducible refine held_upd ?_ rfl rfl rfl rfl rfl rfl rfl rfl rfl rfl rfl)
    | split
    | dsimp only
    | intro _)

theorem State.announceRestart_held (s : State) (hH : Held F A B s) :
    Held F A B (State.announceRestart s) := by
  unfold State.announceRestart
  try dsimp only
  repeat (any_goals first
    | with_reducible assumption
    | intro _ _ _
    | intro _ _
    | with_reducible apply State.reserveSeq_held
    | with_reducible apply State.event_held
    | with_reducible apply foldl_held
    | with_reducible apply held_ite
    | (fail_if_no_progress with_reducible refine held_upd ?_ rfl rfl rfl rfl rfl rfl rfl rfl rfl rfl rfl)
    | split
    | dsimp only
    | intro _)

theorem State.settleStored_held (s : State) (hH : Held F A B s) :
    Held F A B (State.settleStored s) := by
  unfold State.settleStored
  try dsimp only
  repeat (any_goals first
    | with_reducible assumption
    | intro _ _ _
    | intro _ _
    | with_reducible apply State.requestItem_held
    | with_reducible apply State.reserveSeq_held
    | with_reducible apply State.ownerEvent_held
    | with_reducible apply State.issueDissolved_held
    | exact id
    | exact fun _ => rfl
    | exact fun hq => Polder.emptied_queuesWf hq rfl rfl rfl rfl
    | with_reducible refine State.modPol_held ?_ ?_
    | with_reducible apply foldl_held
    | (fail_if_no_progress with_reducible refine held_upd ?_ rfl rfl rfl rfl rfl rfl rfl rfl rfl rfl rfl)
    | split
    | dsimp only
    | intro _)

theorem State.logStart_held (s : State) (hH : Held F A B s) :
    Held F A B (State.logStart s) := by
  unfold State.logStart
  try dsimp only
  repeat (any_goals first
    | with_reducible assumption
    | with_reducible apply State.logEntry_held
    | (fail_if_no_progress with_reducible refine held_upd ?_ rfl rfl rfl rfl rfl rfl rfl rfl rfl rfl rfl)
    | split
    | dsimp only
    | intro _)

theorem State.runImage_held (f : StartFindings) (i : Fin 2) (s : State) (h : Held F A B s) : Held F A B (State.runImage f i s) := by
  unfold State.runImage
  extract_lets selected noTrims noPair c1 c2 c3 c4 s1 s2 s3 s4 s5
  have h0 : Held F A B { s with jtag := { s.jtag with tcm := ({ s.arr with running := i } : ArrayS).tcmImage } } :=
    held_tcm h fun _ => ArrayS.tcmImage_rising _
  have h1 : Held F A B s1 := held_same h0 rfl ⟨rfl, rfl, rfl, rfl⟩ ⟨rfl, rfl, rfl, rfl, rfl⟩ rfl
  have h2 : Held F A B s2 := held_ite (State.requestItem_held _ _ _ h1) h1
  have h3 : Held F A B s3 := State.drawBackoff_held _ _ (State.drawBackoff_held _ _ (State.settleStored_held _ (State.announceRestart_held _
    (State.logStart_held _ h2))))
  have h4 : Held F A B s4 := held_ite (State.patientEvent_held _ _ _ h3) h3
  have h5 : Held F A B s5 := held_ite h4 (State.patientEvent_held _ _ _ h4)
  exact State.reserveFrames_held _ (State.flushEarly_held _ h5)


theorem ArrayS.take_storesWf (v : ItemValue) (a : ArrayS) : (a.take v).storesWf = a.storesWf := by cases v <;> rfl

/-- Loading the items touches no stored byte. -/
theorem ArrayS.load_storesWf (a : ArrayS) : a.load.storesWf = a.storesWf := by
  have key : ∀ (l : List Nat) (b : ArrayS), (l.foldl (fun b i =>
      match newestCopy i a.copies with
      | some c => b.take c.value
      | none => b) b).storesWf = b.storesWf := by
    intro l
    induction l with
    | nil => exact fun _ => rfl
    | cons i l ih =>
      intro b
      simp only [List.foldl_cons]
      rw [ih]
      split
      · exact ArrayS.take_storesWf _ _
      · rfl
  exact key itemIds a.defaults

theorem execFirmwareStart_held (f : StartFindings) (s : State) (h : Held F A B s) : HeldOut F A B (execFirmwareStart f s) := by
  unfold execFirmwareStart
  refine heldOut_next (held_ite h ?_)
  extract_lets s1 c1 s2 selected other
  have h1 : Held F A B s1 := held_arr h fun x => by rw [ArrayS.load_storesWf]; exact x
  have h2 : Held F A B s2 := State.startTest_held _ _ (State.loadItems_held _ (State.clearFabric_held _
    (held_same h1 rfl ⟨rfl, rfl, rfl, rfl⟩ ⟨rfl, rfl, rfl, rfl, rfl⟩ rfl)))
  exact held_ite h2 (held_ite (State.runImage_held _ _ _ h2) (held_ite (State.runImage_held _ _ _ h2) h2))


theorem execCommandsAcceptedStart_held (s : State) (hH : Held F A B s) :
    HeldOut F A B (execCommandsAcceptedStart s) := by
  unfold execCommandsAcceptedStart
  try dsimp only
  repeat (any_goals first
    | with_reducible assumption
    | with_reducible apply heldOut_next
    | with_reducible apply heldOut_fault
    | with_reducible apply heldOut_ite
    | (fail_if_no_progress with_reducible refine held_upd ?_ rfl rfl rfl rfl rfl rfl rfl rfl rfl rfl rfl)
    | split
    | dsimp only
    | intro _)

theorem execDiscoveryWindowEnd_held (s : State) (hH : Held F A B s) :
    HeldOut F A B (execDiscoveryWindowEnd s) := by
  unfold execDiscoveryWindowEnd
  try dsimp only
  repeat (any_goals first
    | with_reducible assumption
    | with_reducible apply held_ite
    | with_reducible apply heldOut_next
    | with_reducible apply heldOut_fault
    | with_reducible apply heldOut_ite
    | (fail_if_no_progress with_reducible refine held_upd ?_ rfl rfl rfl rfl rfl rfl rfl rfl rfl rfl rfl)
    | split
    | dsimp only
    | intro _)

end Sys2Proof.Machine
end

