-- ==== Sys2Proof/Laws/HeldThermalEv.lean ====
section
/-! SUPPORT. What the operations of Machine/ThermalEv.lean keep (Laws/Held.lean). -/

namespace Sys2Proof.Machine

variable {F : FuseBlock} {A B : Prop}

set_option linter.unusedTactic false
set_option linter.unreachableTactic false
set_option linter.unusedVariables false

theorem State.checkMonitor_held (m : ThermReadings) (s : State) (i : Nat) (hH : Held F A B s) :
    Held F A B (State.checkMonitor m s i) := by
  unfold State.checkMonitor
  try dsimp only
  repeat (any_goals first
    | with_reducible assumption
    | with_reducible apply State.ownerEvent_held
    | with_reducible apply held_ite
    | (fail_if_no_progress with_reducible refine held_upd ?_ rfl rfl rfl rfl rfl rfl rfl rfl rfl rfl rfl)
    | split
    | dsimp only
    | intro _)

theorem State.checkOverdraw_held (m : ThermReadings) (s : State) (i : Nat) (hH : Held F A B s) :
    Held F A B (State.checkOverdraw m s i) := by
  unfold State.checkOverdraw
  try dsimp only
  repeat (any_goals first
    | with_reducible assumption
    | with_reducible apply State.ownerEvent_held
    | with_reducible apply held_ite
    | (fail_if_no_progress with_reducible refine held_upd ?_ rfl rfl rfl rfl rfl rfl rfl rfl rfl rfl rfl)
    | split
    | dsimp only
    | intro _)

theorem State.runModel_held (m : ThermReadings) (s : State) (hH : Held F A B s) :
    Held F A B (State.runModel m s) := by
  unfold State.runModel
  try dsimp only
  repeat (any_goals first
    | with_reducible assumption
    | (fail_if_no_progress with_reducible refine held_upd ?_ rfl rfl rfl rfl rfl rfl rfl rfl rfl rfl rfl)
    | split
    | dsimp only
    | intro _)

theorem execThermalModelRun_held (m : ThermReadings) (s : State) (hH : Held F A B s) :
    HeldOut F A B (execThermalModelRun m s) := by
  unfold execThermalModelRun
  try dsimp only
  repeat (any_goals first
    | with_reducible assumption
    | intro _ _ _
    | with_reducible apply State.checkMonitor_held
    | with_reducible apply State.checkOverdraw_held
    | with_reducible apply State.runModel_held
    | with_reducible apply foldl_held
    | with_reducible apply held_ite
    | with_reducible apply heldOut_next
    | with_reducible apply heldOut_fault
    | with_reducible apply heldOut_ite
    | (fail_if_no_progress with_reducible refine held_upd ?_ rfl rfl rfl rfl rfl rfl rfl rfl rfl rfl rfl)
    | split
    | dsimp only
    | intro _)

theorem execThrottleDecisionStopped_held (s : State) (hH : Held F A B s) :
    HeldOut F A B (execThrottleDecisionStopped s) := by
  unfold execThrottleDecisionStopped
  try dsimp only
  repeat (any_goals first
    | with_reducible assumption
    | with_reducible apply State.decideStep_held
    | with_reducible apply State.passDissolutions_held
    | with_reducible apply held_ite
    | with_reducible apply heldOut_next
    | with_reducible apply heldOut_fault
    | with_reducible apply heldOut_ite
    | (fail_if_no_progress with_reducible refine held_upd ?_ rfl rfl rfl rfl rfl rfl rfl rfl rfl rfl rfl)
    | split
    | dsimp only
    | intro _)

theorem execThrottlePauseEnd_held (s : State) (hH : Held F A B s) :
    HeldOut F A B (execThrottlePauseEnd s) := by
  unfold execThrottlePauseEnd
  try dsimp only
  repeat (any_goals first
    | with_reducible assumption
    | with_reducible apply State.decideAgain_held
    | with_reducible apply held_ite
    | with_reducible apply heldOut_next
    | with_reducible apply heldOut_fault
    | with_reducible apply heldOut_ite
    | (fail_if_no_progress with_reducible refine held_upd ?_ rfl rfl rfl rfl rfl rfl rfl rfl rfl rfl rfl)
    | split
    | dsimp only
    | intro _)

end Sys2Proof.Machine
end

