-- ==== Sys2Proof/Laws/HeldTimeBase.lean ====
section
/-! SUPPORT. What the operations of Machine/TimeBase.lean keep (Laws/Held.lean). -/

namespace Sys2Proof.Machine

variable {F : FuseBlock} {A B : Prop}

set_option linter.unusedTactic false
set_option linter.unreachableTactic false
set_option linter.unusedVariables false

theorem State.loadTime_held (v : Tb) (s : State) (hH : Held F A B s) :
    Held F A B (State.loadTime v s) := by
  unfold State.loadTime
  try dsimp only
  repeat (any_goals first
    | with_reducible assumption
    | with_reducible apply State.ownerEvent_held
    | with_reducible apply State.readyHeld_held
    | (fail_if_no_progress with_reducible refine held_upd ?_ rfl rfl rfl rfl rfl rfl rfl rfl rfl rfl rfl)
    | split
    | dsimp only
    | intro _)

theorem State.updateTb_held (s : State) (h : Held F A B s) : Held F A B (State.updateTb s) := by
  unfold State.updateTb
  refine held_ite h ?_
  extract_lets s1
  have h1 : Held F A B s1 := held_same h rfl ⟨rfl, rfl, rfl, rfl⟩ ⟨rfl, rfl, rfl, rfl, rfl⟩ rfl
  clear_value s1
  have ha : Held F A B { s1 with clock := s1.clock.advanced } := held_same h1 rfl ⟨rfl, rfl, rfl, rfl⟩ ⟨rfl, rfl, rfl, rfl, rfl⟩ rfl
  split
  · exact held_ite (State.fireDue_held _ (State.loadTime_held _ _ h1)) (State.fireDue_held _ ha)
  · exact State.fireDue_held _ ha


theorem execTbUpdate_held (s : State) (hH : Held F A B s) :
    HeldOut F A B (execTbUpdate s) := by
  unfold execTbUpdate
  try dsimp only
  repeat (any_goals first
    | with_reducible assumption
    | with_reducible apply State.updateTb_held
    | with_reducible apply heldOut_next
    | with_reducible apply heldOut_fault
    | with_reducible apply heldOut_ite
    | (fail_if_no_progress with_reducible refine held_upd ?_ rfl rfl rfl rfl rfl rfl rfl rfl rfl rfl rfl)
    | split
    | dsimp only
    | intro _)

theorem execTcmpFire_held (ch : Fin 16) (s : State) (hH : Held F A B s) :
    HeldOut F A B (execTcmpFire ch s) := by
  unfold execTcmpFire
  try dsimp only
  repeat (any_goals first
    | with_reducible assumption
    | with_reducible apply State.fireTcmp_held
    | with_reducible apply held_ite
    | with_reducible apply heldOut_next
    | with_reducible apply heldOut_fault
    | with_reducible apply heldOut_ite
    | (fail_if_no_progress with_reducible refine held_upd ?_ rfl rfl rfl rfl rfl rfl rfl rfl rfl rfl rfl)
    | split
    | dsimp only
    | intro _)

theorem execTimeSetLoad_held (s : State) (hH : Held F A B s) :
    HeldOut F A B (execTimeSetLoad s) := by
  unfold execTimeSetLoad
  try dsimp only
  repeat (any_goals first
    | with_reducible assumption
    | with_reducible apply State.updateTb_held
    | with_reducible apply held_ite
    | with_reducible apply heldOut_next
    | with_reducible apply heldOut_fault
    | with_reducible apply heldOut_ite
    | (fail_if_no_progress with_reducible refine held_upd ?_ rfl rfl rfl rfl rfl rfl rfl rfl rfl rfl rfl)
    | split
    | dsimp only
    | intro _)

theorem execSlewAdjust_held (s : State) (hH : Held F A B s) :
    HeldOut F A B (execSlewAdjust s) := by
  unfold execSlewAdjust
  try dsimp only
  repeat (any_goals first
    | with_reducible assumption
    | with_reducible apply State.updateTb_held
    | with_reducible apply held_ite
    | with_reducible apply heldOut_next
    | with_reducible apply heldOut_fault
    | with_reducible apply heldOut_ite
    | (fail_if_no_progress with_reducible refine held_upd ?_ rfl rfl rfl rfl rfl rfl rfl rfl rfl rfl rfl)
    | split
    | dsimp only
    | intro _)

end Sys2Proof.Machine
end

