-- ==== Sys2Proof/Tests/Slice0.lean ====
section
/-! SUPPORT. Tests of the model: a smoke test of every well-formedness check, and for the statements of Certificates/Slice0 named states that meet
their hypotheses, with one step on each. Expected values are taken from the rules of spec/ that the statements cite. -/

namespace Sys2Proof.Tests

set_option Elab.async false

open Sys2Proof.Machine

/-! ### Every well-formedness check refuses an ill-formed command -/

/-- An owner's request over the host port. -/
def wfReq : Req := { pol := 0, more := false, handle := 0, path := .host }

/-- 112 bytes of parameters and 113; a sender on the line without an address. -/
theorem test_wf_command :
    Instr.wf (.timeGet wfReq (List.replicate 112 0)) = true ∧ Instr.wf (.timeGet wfReq (List.replicate 113 0)) = false ∧
    Instr.wf (.timeGet { wfReq with path := .line 0xfff } []) = false := by decide +kernel

/-- A transport's packet of 255 bytes and of 256. -/
theorem test_wf_packet :
    Instr.wf (.packetArrival { bytes := List.replicate 255 0, path := .host }) = true ∧
    Instr.wf (.packetArrival { bytes := List.replicate 256 0, path := .host }) = false := by decide +kernel

/-- Too few conversions, a measurement of converter 1,632, one of 31 conversions, and 127 intervals or one of no length. -/
theorem test_wf_conversions :
    let m : TrimMeas := { lowA := List.replicate 32 0, highA := List.replicate 32 0, lowB := List.replicate 32 0, highB := List.replicate 32 0 }
    let v : Conversion := { gainLevel := 0, tripHcg := 0, tripLcg := 0 }
    Instr.wf (.blankIntervalCheck [] []) = false ∧
    Instr.wf (.calColumnsDone [(1632, m)]) = false ∧ Instr.wf (.calColumnsDone [(1631, m)]) = true ∧
    Instr.wf (.calColumnsDone [(0, { m with lowB := List.replicate 31 0 })]) = false ∧ Instr.wf (.rowRead [] (List.replicate 32 v)) = false ∧
    Instr.wf (.calRampDone (List.replicate 128 1) (List.replicate 127 1)) = false ∧
    Instr.wf (.calRampDone (List.replicate 128 0) (List.replicate 128 1)) = false := by decide +kernel

/-- A line frame of 273 bytes from its start delimiter on, and one bit more. -/
theorem test_wf_line :
    Instr.wf (.ack { port := .a, slot := none, bits := List.replicate 2184 false }) = true ∧
    Instr.wf (.ack { port := .a, slot := none, bits := List.replicate 2185 false }) = false := by decide +kernel

/-- A run of twelve monitors, an SPI header that says write of a read, an address past TCM, one past the array, a page of 255 bytes, an MFG item
without its certificate, a trim table of no converter, and a page program of 101 pulses. -/
theorem test_wf_ports :
    Instr.wf (.thermalModelRun { currents := List.replicate 12 0, activeCycles := List.replicate 13 0, moduleDraw := 0, vauxCurrent := 0 }) = false ∧
    Instr.wf (.hostRegisterWrite .spi 4 true [] true) = false ∧ Instr.wf (.hostRegisterWrite .spi 0x84 true [] true) = true ∧
    Instr.wf (.jtagDebug (.readTcm 65536)) = false ∧ Instr.wf (.jtagDebug (.writeTcm 65536 0)) = false ∧
    Instr.wf (.jtagArray (.readPage 0x400000)) = false ∧ Instr.wf (.jtagArray (.programPage 0 (List.replicate 255 0))) = false ∧
    Instr.wf (.jtagArray (.programPage 0x400000 (List.replicate 256 0))) = false ∧ Instr.wf (.jtagArray (.programMfg 0 0 [] [] [] [] [] false)) = false ∧
    Instr.wf (.jtagArray (.programTrimTab 0 [] 0 0)) = false ∧ Instr.wf (.pageProgramComplete true 101) = false ∧
    Instr.wf (.pageProgramComplete true 100) = true := by
  decide +kernel

/-! ### States to run on -/

/-- A request of a polder over the host port. -/
def hostReq (p : PolId) : Req := { pol := p, more := false, handle := 0, path := .host }

/-- The same with a HANDLE. -/
def handled (h : W16) : Req := { hostReq 0 with handle := h }

/-- An owner with four slots and zone 0, ACTIVE. -/
def ownerPol : Polder :=
  { Polder.none with state := .active, key := 1, charter := { Charter.none with slots := 0x1111, zoneMask := 1 }, path := some .host }

/-- A tenant with one slot and zone 0, ACTIVE. -/
def tenantPol : Polder :=
  { Polder.none with state := .active, key := 2, charter := { Charter.none with slots := 0x2, zoneMask := 1, readQuota := 5603328 }, path := some .host }

/-- A node in FIELD with every domain ON, its sequencer running, its owner ACTIVE. -/
def live : State :=
  { State.reset with
    power := { Power.initial with seqRunning := true, accepting := true, discoveryOver := true, doms := Vector.replicate 12 .on, portMode := .tap },
    holdup := { Holdup.initial with low := false },
    life := { State.reset.life with shadow := .field },
    pols := (Vector.replicate 8 Polder.none).set 0 ownerPol }

/-- The same node in COMMISSION, COMMISSION_N low since its sampling. -/
def atCommission : State :=
  { live with
    life := { live.life with shadow := .commission },
    lands := { live.lands with straps := { live.lands.straps with commissionLow := true }, commissionStays := true } }

/-- The same node with tenant 1 ACTIVE. -/
def shared : State := { live with pols := live.pols.set 1 tenantPol }

/-- The same node with its wheel turning, the owner holding its slots. -/
def turning : State :=
  { live with wheel := { live.wheel with turning := true, nextFrame := 17, holders := (Vector.replicate 16 none).set 0 (some 0), fR := 100000 } }

/-- The next state of a command, or the state it ran on. -/
def after (c : Instr) (s : State) : State :=
  match exec c s with
  | .next t => t
  | _ => s

/-- The owner's command has been answered OK or ACCEPTED, or holds its queue with its effect begun. -/
def answered (t : State) : Bool :=
  match (t.pol 0).serving, (t.pol 0).replyQ.getLast? with
  | some x, _ => x.rule != .powerIdle && x.rule != .blockUnderTest
  | none, some r => r.status == .ok || r.status == .accepted
  | none, none => false

/-- A command runs on a state and ends in its own effect. -/
def completes (s : State) (r : Req) (op : Byte) (params : List Byte) : Bool :=
  s.runs op r params && ((commandRows.find? (fun y => y.1 == op)).map (fun y => answered (after (y.2.2 r params) s))).getD false

/-- Every command of a list does. -/
def allComplete (s : State) (l : List (Byte × List Byte)) : Bool := l.all (fun x => completes s (hostReq 0) x.1 x.2)

/-- A command runs and is refused with a status. -/
def refusesWith (s : State) (r : Req) (op : Byte) (params : List Byte) (st : Status) : Bool :=
  s.runs op r params && ((commandRows.find? (fun y => y.1 == op)).map (fun y =>
    ((after (y.2.2 r params) s).pol r.pol).replyQ.getLast?.map (fun x => x.status) == some st)).getD false

/-! ### Witnesses: every command completes somewhere -/

/-- TIME_GET, TIME_SET at the greatest SUB, TIME_SLEW at its least RATE, TCMP_ARM read. -/
theorem test_time_commands_complete :
    allComplete live [(0x20, []), (0x21, [0xff, 0x83, 0xd7, 0x17, 0, 0, 0, 0]), (0x22, [1, 0, 0, 0, 1]), (0x23, [1, 1, 0, 0])] = true := by decide +kernel

/-- TIME_SET past the greatest SUB, TIME_SLEW with RATE 0, and TCMP_ARM of another polder's channel. -/
theorem test_time_refusals :
    (refusesWith live (hostReq 0) 0x21 [0, 0x84, 0xd7, 0x17, 0, 0, 0, 0] .badParam && refusesWith live (hostReq 0) 0x22 [1, 0, 0, 0, 0] .badParam &&
     refusesWith live (hostReq 0) 0x23 [2, 1, 0, 0] .notPermitted) = true := by decide +kernel

theorem test_exposure_commands_complete :
    allComplete live [(0x30, Expo.encode (Expo.defaults 6666800)), (0x31, []), (0x32, []), (0x33, [0]), (0x34, []), (0x35, [0, 0x24, 0xf4, 0]), (0x36, []),
      (0x43, [])] = true := by decide +kernel

/-- PERIOD_SET below 2,000,000. -/
theorem test_exposure_refusals : refusesWith live (hostReq 0) 0x35 [0x7f, 0x84, 0x1e, 0] .badParam = true := by decide +kernel

theorem test_statistics_commands_complete :
    allComplete live [(0x40, [0, 0x3f, 5, 0] ++ List.replicate 16 0), (0x41, [0]), (0x41, [1]), (0x42, [])] = true := by decide +kernel

theorem test_calibration_commands_complete :
    (allComplete live [(0x81, [0, 0, 0xff]), (0x81, [16, 0, 12]), (0x82, [3]), (0x83, []), (0x84, [1]), (0x85, [63]), (0x86, [0x5f, 6, 1])] &&
     completes turning (hostReq 0) 0x80 [1]) = true := by decide +kernel

/-- The parts and ranges just past the last. -/
theorem test_calibration_refusals :
    (refusesWith live (hostReq 0) 0x82 [4] .badParam && refusesWith live (hostReq 0) 0x84 [2] .badParam &&
     refusesWith live (hostReq 0) 0x85 [64] .badParam && refusesWith live (hostReq 0) 0x86 [0x60, 6, 1] .badParam &&
     refusesWith live (hostReq 0) 0x81 [15, 0, 0xff] .badParam && refusesWith live (hostReq 0) 0x80 [1] .notReady) = true := by decide +kernel

theorem test_system_commands_complete :
    allComplete live [(0x00, []), (0x01, [1]), (0x02, [1]), (0x03, [1, 0, 0, 0])] = true := by decide +kernel

/-- PWR_SET keeps every domain and, in a second run, lowers domains 1 to 5. -/
theorem test_power_commands_complete :
    allComplete live [(0x10, [0xff, 0xff, 0xff, 0, 0x80, 0x09, 0]), (0x10, [0xaa, 2, 0, 0, 0x80, 0x09, 0]), (0x11, [0xff]), (0x11, [1]), (0x12, []), (0x13, [3]),
      (0x14, [])] = true := by decide +kernel

/-- A set bit 31 to 24 of the state word is reserved, and REFUSAL_READ has parts 0 to 3. -/
theorem test_power_refusals :
    (refusesWith live (hostReq 0) 0x13 [4] .badParam &&
     (rowOf 0x10).any (fun sp => live.rowRefusal sp 0x10 (hostReq 0) [0, 0, 0, 1, 0x80, 0x09, 0] == some .badParam)) = true := by decide +kernel

/-- A tenant's charter of the least READ_QUOTA. -/
def aCharter : Charter :=
  { slots := 0x0002, zoneMask := 1, selection := Selection.initial, readQuota := 5603328, bind := 0, idHash := 0, creationNo := 0 }

/-- Its bytes as the one part of a POLD_CREATE. -/
def createParams : List Byte := [0, 0, 102, 0] ++ Charter.encode 1 aCharter

/-- A node with tenant 1 CHARTERED and its OFFER formed. -/
def offering : State :=
  { live with
    pols := live.pols.set 1 { Polder.none with state := .chartered, charter := aCharter },
    ka := some { pol := 1, charter := aCharter, offered := true, dE := 5, qE := List.replicate 64 7, signature := List.replicate 64 9 } }

theorem test_polder_reads_complete :
    (allComplete live [(0x54, [0]), (0x54, [7]), (0x55, [0, 0])] && completes offering (hostReq 0) 0x51 [1, 0] && completes offering (hostReq 0) 0x51 [1, 1]) = true := by decide +kernel

theorem test_polder_read_refusals :
    (refusesWith live (hostReq 0) 0x54 [8] .badParam && refusesWith live (hostReq 0) 0x55 [0, 1] .badParam &&
     refusesWith offering (hostReq 0) 0x51 [1, 2] .badParam) = true := by decide +kernel

/-- The one part of a charter without areas commits it. -/
theorem test_polder_create_completes :
    (completes live (handled 1) 0x50 createParams && createPartOk (live.parts owner) (live.entryOf 0x50 (handled 1) createParams) &&
     decide (((live.parts owner ++ [createParams]).map (fun x => x.drop 4)).flatten.length = 102) && (live.createRefusal (createParams.drop 4)).isNone &&
     live.ownerActive) = true := by decide +kernel

/-- A first part that states MORE. -/
theorem test_polder_create_first_part :
    let r : Req := { handled 1 with more := true }
    let part : List Byte := [0, 0, 140, 0] ++ List.replicate 104 0
    (live.runs 0x50 r part && createPartOk (live.parts owner) (live.entryOf 0x50 r part)) = true := by decide +kernel

/-- An ACTIVE tenant and a CHARTERED one are dissolved; a polder that does not exist is not. -/
theorem test_polder_dissolve :
    (completes shared (hostReq 0) 0x53 [1] && completes offering (hostReq 0) 0x53 [1] && refusesWith live (hostReq 0) 0x53 [7] .badParam) = true := by decide +kernel

/-- The fabric reeve. -/
def fabricReeve : State := { live with fab := { live.fab with role := 2 } }

theorem test_fabric_commands_complete :
    (allComplete live [(0x60, [2]), (0x63, [255]), (0x65, [63]), (0x66, [1])] && allComplete atCommission [(0x61, [0x41, 0]), (0x62, List.replicate 17 1)] &&
     allComplete fabricReeve [(0x67, [0x80, 0x84, 0x1e, 0])]) = true := by decide +kernel

theorem test_fabric_refusals :
    (refusesWith live (hostReq 0) 0x60 [3] .badParam && refusesWith live (hostReq 0) 0x65 [64] .badParam &&
     refusesWith atCommission (hostReq 0) 0x61 [0x7f, 0] .badParam && refusesWith live (hostReq 0) 0x67 [0x80, 0x84, 0x1e, 0] .notPermitted) = true := by decide +kernel

/-- A beacon of segment 1. -/
def aBeacon : BeaconFields :=
  { cycle := 7, segment := 1, rank := 2, keyId := 0, fabricReeve := false, timeValid := false, phaseValid := false, reeveId := 5, held := 6, present := 6,
    lend := 0, bridges := 0, grantId := 0, grantSlot := 0xff, hops := 0xff, fabPeriod := 0, tbTx := 0, phaseEdge := 0, phasePeriod := 0 }

/-- A worker at slot 1 of segment 1 with rank 1 that hears its reeve, slot 2, on port A. -/
def worker : State :=
  { live with
    fab := { live.fab with addr := 0x041, rank := 1 },
    lineA := { live.lineA with lastSrc := 0x042, heardBeacon := true, last := some aBeacon, cycle := 7, slotFrom := true, slotNext := true } }

theorem test_role_swap_completes : completes worker (hostReq 0) 0x64 [0x42, 0, 1, 0] = true := by decide +kernel

theorem test_role_swap_refusals :
    (refusesWith live (hostReq 0) 0x64 [0x42, 0, 0, 0] .badParam && refusesWith worker (hostReq 0) 0x64 [0x41, 0, 1, 0] .badParam &&
     refusesWith { worker with fab := { worker.fab with rank := 0 } } (hostReq 0) 0x64 [0x42, 0, 1, 0] .notPermitted) = true := by decide +kernel

/-- An update of USER under HANDLE 5, nothing written yet. -/
def updating : State :=
  { live with arr := { live.arr with updates := [{ handle := 5, region := 6, grant := Tb.zero, expiry := { sec := 2, sub := 0 }, data := [] }] } }

/-- Eight bytes at the last double word of a page. -/
theorem test_update_commands_complete :
    (completes live (handled 5) 0x70 [6] && completes updating (handled 5) 0x71 ([0xf8, 0, 0, 0] ++ List.replicate 8 1) &&
     completes updating (handled 5) 0x73 []) = true := by decide +kernel

/-- Past the page, and a region that cannot be opened. -/
theorem test_update_refusals :
    (refusesWith updating (handled 5) 0x71 ([0xf8, 0, 0, 0] ++ List.replicate 16 1) .badParam && refusesWith live (handled 5) 0x70 [5] .notPermitted &&
     refusesWith updating (handled 4) 0x73 [] .badParam) = true := by decide +kernel

/-- A commit whose length leaves one page to fill is accepted before its digest is known. -/
theorem test_update_commit_completes : completes updating (handled 5) 0x72 ([8, 0, 0, 0] ++ List.replicate 32 0) = true := by decide +kernel

/-- A lease that has run out is told once. -/
theorem test_update_lease_expired :
    let s : State := { updating with clock := { updating.clock with tb := { sec := 2, sub := 0 } } }
    (s.runs 0x73 (handled 5) [] && (s.update? 5).any (fun u => u.expiry.le s.clock.tb) && refusesWith s (handled 5) 0x73 [] .leaseExpired &&
     refusesWith s (handled 5) 0x71 ([0, 0, 0, 0] ++ List.replicate 8 1) .leaseExpired && refusesWith s (handled 5) 0x72 (List.replicate 36 0) .leaseExpired) = true := by decide +kernel

/-- Bytes of the LOG up to the last of the region, and the state of the images. -/
theorem test_array_reads_complete : allComplete live [(0x74, [5, 0xf8, 0xff, 1, 0, 8]), (0x74, [6, 0, 0, 0, 0, 96]), (0x75, [])] = true := by decide +kernel

/-- An image whose signature stands is activated, another is not. -/
theorem test_firmware_activate :
    (completes live (hostReq 0) 0x76 [0] && refusesWith live (hostReq 0) 0x76 [1] .badParam) = true := by decide +kernel

theorem test_lifecycle_commands_complete :
    allComplete live [(0x90, []), (0x91, [1, 1, 0, 0, 0]), (0x92, [2, 0, 0, 0]), (0x93, [])] = true := by decide +kernel

/-- A wrong unique ID, a self-test of SEQ_A, and a transition that does not exist. -/
theorem test_lifecycle_refusals :
    (refusesWith live (hostReq 0) 0x91 [1, 2, 0, 0, 0] .badParam && refusesWith live (hostReq 0) 0x92 [1, 0, 0, 0] .badParam &&
     refusesWith live (hostReq 0) 0x91 [2, 1, 0, 0, 0] .lifecycle) = true := by decide +kernel

theorem test_thermal_pixel_dali_commands_complete :
    (allComplete live [(0xA0, [0]), (0xA0, [2]), (0xB1, [0xff, 0xff]), (0xB2, [])] && completes atCommission (hostReq 0) 0xB0 [0]) = true := by decide +kernel

theorem test_thermal_pixel_dali_refusals :
    (refusesWith live (hostReq 0) 0xA0 [3] .badParam && refusesWith live (hostReq 0) 0xB1 [0, 0xff] .badParam &&
     refusesWith atCommission (hostReq 0) 0xB0 [4] .badParam &&
     refusesWith { atCommission with lands := { atCommission.lands with commissionStays := false } } (hostReq 0) 0xB0 [0] .notPermitted) = true := by decide +kernel

/-! ### Witnesses: packets, service and the timers of polders -/

/-- A packet of the owner that carries SYS_INFO, sealed in order under the owner's key. -/
def aPacket : Packet := { bytes := sealPacket 1 (packetNonce false 0 false 0 0) (headerBytes 1 0 0 0 0 0 0) [], path := .host }

/-- The same bytes with another POLDER. -/
def tenantPacket : Packet := { bytes := 1 :: 1 :: aPacket.bytes.drop 2, path := .host }

/-- A queue entry of the owner. -/
def anEntry : QEntry := live.entryOf 0x00 (hostReq 0) []

/-- A reply of the owner to ESN n. -/
def aReply (n : Nat) : Reply :=
  { pol := 0, esn := n, opcode := 0, handle := 0, status := .ok, origStatus := .ok, effectFrame := 0, results := [], dup := false, untagged := false,
    next := 0, path := .host, key := 1, number := n }

/-- `live` with its owner changed. -/
def withOwner (f : Polder → Polder) : State := live.modPol 0 f

/-- The fourth place of the intake is taken, a fifth packet is dropped. -/
theorem test_packet_arrival :
    (((after (.packetArrival aPacket) (withOwner (fun q => { q with intake := List.replicate 3 aPacket }))).pol 0).intake.length = 4 ∧
     ((after (.packetArrival aPacket) (withOwner (fun q => { q with intake := List.replicate 4 aPacket }))).pol 0).cnt.intakeDrop = 1) ∧
    live.hostPol = 0 := by decide +kernel

/-- A packet for another polder than the host's is dropped, and one from the line is counted where the node accepts none. -/
theorem test_packet_arrival_refused :
    live.hostPol ≠ 1 ∧ (after (.packetArrival tenantPacket) live).host.bindMissCnt = 1 ∧ State.reset.power.accepting = false := by
  decide +kernel

theorem test_service_slice_idle : State.reset.sequencing = false := by decide +kernel

/-- The head of a queue is served, and a duplicate is answered from the journal. -/
theorem test_service_slice_serves :
    let s := withOwner (fun q => { q with queue := [anEntry, anEntry] })
    let d := withOwner (fun q => { q with queue := [{ anEntry with kind := .duplicate }], journal := [aReply 0] })
    s.sequencing = true ∧ s.bist.job = none ∧ s.power.points[2] = 0 ∧ ((after (.serviceSlice 0) s).pol 0).replyQ.length = 1 ∧
    (d.pol 0).journal.find? (fun x => x.esn == 0) = some (aReply 0) ∧
    ((after (.serviceSlice 0) d).pol 0).replyQ.map (fun r => (r.status, r.dup)) = [(.duplicate, true)] := by decide +kernel

/-- A reply held back leaves, and a packet sealed in order is admitted behind eight replies. -/
theorem test_service_slice_admits :
    let v : Serving := { entry := anEntry, rule := .itemCommit 0x11, answer := some (okWith []), ready := true, replied := false }
    let h := withOwner (fun q => { q with serving := some v })
    let a := withOwner (fun q => { q with intake := [aPacket], replyQ := List.replicate 8 (aReply 0) })
    h.sequencing = true ∧ v.rule ≠ .powerChange ∧ ((after (.serviceSlice 0) h).pol 0).serving = none ∧
    a.polderGone 0 = false ∧ a.sessionKey 0 aPacket.path = some 1 ∧ a.queueClosed 0 = false ∧ aPacket.flags < 2 ∧ aPacket.len = 16 ∧
    (commandBody 1 0 aPacket).isSome = true ∧
    ((after (.serviceSlice 0) a).pol 0).nextAdmit = 1 := by decide +kernel

theorem test_key_agreement_timers :
    let k : KeyAgreement := { pol := 1, charter := aCharter, offered := false, dE := 0, qE := [], signature := [] }
    let s : State := { offering with ka := some k }
    s.sequencing = true ∧ k.offered = false ∧ k.pol ≠ owner ∧ (after .keyAgreementTimeout s).ka = none ∧ offering.ka.isSome = true := by decide +kernel

/-- An owner key agreement that runs out. -/
theorem test_owner_key_agreement_timeout :
    let s : State := { live with ka := some { pol := 0, charter := aCharter, offered := true, dE := 5, qE := [], signature := [] } }
    s.ka.any (fun k => k.pol == owner) = true ∧ (after .keyAgreementTimeout s).ka = none := by decide +kernel

/-- A tenant whose dissolution record has left is erased. -/
theorem test_polder_erase :
    let g : Dissolution := { reason := 1, boundary := 32, goneCount := 0, lastFrame := 17, passed := true, issued := true, tb := Tb.zero }
    let s := shared.modPol 1 (fun q => { q with state := .dissolving, gone := some g })
    (s.pol 1).gone = some g ∧ g.issued = true ∧ s.hostPol ≠ 1 ∧ ((after (.polderErase 1) s).pol 1).state = .absent := by decide +kernel

/-- The tenant's identity key and its Q_T, each the public key of a small private one. -/
def identityOf : List Byte := (base256.mul 3).bytes

def qTOf : List Byte := (base256.mul 2).bytes

/-- The key agreement of tenant 1, its OFFER formed with a private key of 5. -/
def agreement : KeyAgreement :=
  { pol := 1, charter := { aCharter with idHash := sha256Word (4 :: identityOf) }, offered := true, dE := 5, qE := (base256.mul 5).bytes, signature := [] }

/-- The parts of an ANSWER: Q_T, the identity key, the signature. -/
def answerOf (n : Byte) : List Byte :=
  [n, 0] ++ (if n = 0 then qTOf else if n = 1 then identityOf else ecdsaSign 3 7 (qTOf ++ offerBytes live.life.uid agreement))

/-- A node with that key agreement and parts held. -/
def answering (h : Option AnswerHold) : State :=
  { live with
    pols := live.pols.set 1 { Polder.none with state := .chartered, charter := agreement.charter, answerHold := h },
    ka := some agreement }

/-- A request of the tenant over the line, with a HANDLE. -/
def tenantReq (more : Bool) : Req := { pol := 1, more := more, handle := 9, path := .line 0x042 }

theorem test_answer_parts :
    let held : AnswerHold := { handle := 9, qT := qTOf, identity := none }
    let s := answering none
    s.power.seqRunning = true ∧ s.power.accepting = true ∧ (tenantReq true).path ≠ .host ∧ s.takesAnswer 1 = true ∧ s.sliceFree 1 = true ∧
    (answerOf 0).length = 66 ∧ byteAt (answerOf 0) 1 = 0 ∧ (tenantReq true).handle ≠ 0 ∧ (s.pol 1).answerHold = none ∧
    ((answering (some held)).pol 1).answerHold = some held ∧ (answering (some held)).sliceFree 1 = true := by decide +kernel

/-- Part 2 makes the tenant ACTIVE. -/
theorem test_answer_completes :
    let s := answering (some { handle := 9, qT := qTOf, identity := some identityOf })
    s.takesAnswer 1 = true ∧ s.sliceFree 1 = true ∧ (answerOf 2).length = 66 ∧ byteAt (answerOf 2) 0 = 2 ∧ (s.pol 1).kept = none ∧
    (s.pol 1).state = .chartered ∧ (pointOf identityOf).isSome = true ∧ (pointOf qTOf).isSome = true ∧ (tenantReq false).more = false ∧
    ((after (.poldAnswer (tenantReq false) (answerOf 2)) s).pol 1).state = .active := by decide +kernel

/-! ### Witnesses: the time base -/

/-- A clock with a time in force. -/
def atTime (t : Tb) (f : Clock → Clock) : State := { live with clock := f { live.clock with tb := t } }

/-- SUB carries into SEC at 400,000,000, by one with the PLL and by sixteen without. -/
theorem test_tb_update_carries :
    let t : Tb := { sec := 4, sub := 399999999 }
    let slow : Tb := { sec := 0xffffffff, sub := 399999984 }
    (after .tbUpdate (atTime t id)).clock.tb = { sec := 5, sub := 0 } ∧
    (after .tbUpdate (atTime slow (fun c => { c with pllOn := false }))).clock.tb = { sec := 0, sub := 0 } ∧
    (atTime t id).clock.staged = none ∧ (atTime t id).clock.slew = none ∧ (∀ ch : Fin 16, ((atTime t id).clock.tcmp[ch]).arm = false) ∧
    (atTime t id).clock.running = true := by decide +kernel

theorem test_tb_update_stopped :
    let s : State := { live with clock := { live.clock with running := false } }
    s.clock.running = false ∧ (after .tbUpdate s).clock.tb = s.clock.tb := by decide +kernel

/-- A channel at its VALUE fires; one with a PERIOD is reloaded past TB and counts what it missed. -/
theorem test_tcmp_fire :
    let once : Tcmp := { Tcmp.zero with value := { sec := 0, sub := 100 }, arm := true }
    let every : Tcmp := { once with period := 400000 }
    let s (c : Tcmp) : State := atTime { sec := 0, sub := 400100 } (fun k => { k with tcmp := k.tcmp.set 0 c })
    once.due (s once).clock.tb = true ∧ every.due (s every).clock.tb = true ∧
    ((after (.tcmpFire 0) (s once)).clock.tcmp[0]).arm = false ∧
    ((after (.tcmpFire 0) (s every)).clock.tcmp[0]).value = { sec := 0, sub := 800100 } ∧
    ((after (.tcmpFire 0) (s every)).clock.tcmp[0]).missed = 1 := by decide +kernel

/-- A staged time loads at the next whole millisecond, and releases the TIME_SET that waits. -/
theorem test_time_set_load :
    let v : Serving := { entry := anEntry, rule := .timeSetLoad, answer := none, ready := false, replied := false }
    let s : State := (atTime { sec := 1, sub := 399999 } (fun c => { c with staged := some Tb.zero })).modPol 0 (fun q => { q with serving := some v })
    s.clock.crosses = true ∧ (after .timeSetLoad s).clock.tb = Tb.zero ∧ v.rule = .timeSetLoad ∧ (s.pol owner).serving = some v := by decide +kernel

theorem test_slew_adjust :
    let w : Slew := { advance := false, remain := 1, rate := 100, elapsed := 9999, k := 1, imposed := false }
    let s := atTime { sec := 1, sub := 5 } (fun c => { c with slew := some w })
    w.dueIn s.clock.increment = true ∧ (after .slewAdjust s).clock.tb = { sec := 1, sub := 5 } ∧ (after .slewAdjust s).clock.slew = none := by decide +kernel

theorem test_time_sub_read :
    live.landsFree = true ∧ live.domOn 12 = true ∧ live.bist.unusable.toNat.testBit 11 = false ∧ live.blockUnderTest 11 = false ∧
    (after .timeSubRead (atTime { sec := 7, sub := 9 } id)).clock.secShadow = 7 := by decide +kernel

/-! ### Witnesses: the wheel, the lands, the converters and the records -/

/-- A slot of the owner in progress, its exposure begun. -/
def aSlot : Slot :=
  { frame := 16, holder := some 0, charter := ownerPol.charter, expo := Expo.initial, startTb := Tb.zero, startAt := 0, trig := none, deadlinePassed := false,
    te := some { sec := 0, sub := 2000 }, teAt := 2000, lockRef := none, lockState := .none, cal := none, calRep := none, throttled := false, voidReason := none,
    checked := false, reads := [], repairs := [], readsDone := false, mapFull := false, faultBlocks := 0, pix := 0, pixCut := none }

/-- `turning` within a slot. -/
def inSlot (x : Slot) : State := { turning with wheel := { turning.wheel with slot := some x } }

/-- A slot that waits for its exposure. -/
def waitingSlot : Slot := { aSlot with te := none }

/-- An empty slot starts, and a slot of the tenant with its settings. -/
theorem test_wheel_slot_start :
    let s : State := { shared with wheel := { turning.wheel with holders := turning.wheel.holders.set 1 (some 1) } }
    let e : State := { turning with wheel := { turning.wheel with nextFrame := 18 } }
    live.slotDue = false ∧ turning.slotDue = true ∧ e.slotDue = true ∧ e.wheel.nextFrame.toNat % 16 ≠ 0 ∧ e.wheel.holders.toList.getD 2 none = none ∧
    frameLater (BitVec.ofNat 32 e.wheel.fR) e.wheel.nextFrame = true ∧ e.wheel.uncovered = false ∧
    s.slotDue = true ∧ s.wheel.nextFrame.toNat % 16 = 1 ∧ s.wheel.holders.toList.getD 1 none = some 1 ∧ s.clock.hold = none ∧
    ((applyShadow s.wheel.nextFrame (s.pol 1)).expo.fits s.wheel.period) = true := by decide +kernel

theorem test_wheel_slot_start_result :
    let t := after .wheelSlotStart turning
    t.wheel.slot.map (fun x => x.frame) = some 17 ∧ t.wheel.nextFrame = 18 := by decide +kernel

theorem test_exposure_start :
    let r : LockRef := { edge := 0, fabric := false, period := 200000, free := false }
    let y : Slot := { waitingSlot with expo := { waitingSlot.expo with lock := .localSync, phase := 1, lockDiv := 1, aLock := 200016 }, lockRef := some r }
    waitingSlot.exposes = true ∧ (inSlot waitingSlot).clock.hold = none ∧ waitingSlot.lockRef = none ∧ y.exposes = true ∧ y.lockRef = some r ∧
    ((after .exposureStart (inSlot waitingSlot)).wheel.slot.map (fun x => x.te.isSome)) = some true ∧
    ((after .exposureStart (inSlot y)).wheel.slot.map (fun x => x.te.isSome)) = some true ∧
    (inSlot waitingSlot).clock.elapsed ≤ waitingSlot.startAt + waitingSlot.expo.teMin := by decide +kernel

theorem test_trigger_deadline :
    let x : Slot := { waitingSlot with expo := { waitingSlot.expo with triggered := true } }
    x.expo.triggered = true ∧ (inSlot x).windowOpen 0 = true ∧ (after .triggerDeadline (inSlot x)).windowOpen 0 = false := by decide +kernel

/-- An edge is accepted by the open window, kept as pending, or counted; within the refractory period it is counted. -/
theorem test_trig_in_edge :
    let q : Polder → Polder := fun q => { q with expo := { q.expo with triggered := true, srcTrigIn := true } }
    let s : State := turning.modPol 0 q
    let r : State := { s with lands := { s.lands with refractory := true } }
    s.landsFree = true ∧ s.lands.refractory = false ∧ s.power.wakeEn.toNat.testBit 4 = false ∧ s.bindHolder 1 = 0 ∧
    ((after .trigInEdge s).pol 0).trigPending.isSome = true ∧ ((after .trigInEdge r).pol 0).trigOverrun = 1 ∧
    ((after .trigInEdge turning).pol 0).trigDropped = 1 ∧ ({ live with power := { live.power with vioLost := true } } : State).landsFree = false := by
  decide +kernel

/-- The shortest and the longest valid period, and one tick less and more. -/
theorem test_sync_in_edge :
    let s (n : Nat) : State := { live with clock := { live.clock with elapsed := n }, lands := { live.lands with sync := { live.lands.sync with lastEdge := some 0 } } }
    (s 0).landsFree = true ∧ (after .syncInEdge (s 200000)).lands.sync.validPeriod = 200000 ∧
    (after .syncInEdge (s 10000000)).lands.sync.validPeriod = 10000000 ∧ (after .syncInEdge (s 199999)).lands.sync.badRun = 1 ∧
    (after .syncInEdge (s 10000001)).lands.sync.badRun = 1 := by decide +kernel

theorem test_sync_period_missing :
    let s (n : Nat) : State := { live with lands := { live.lands with sync := { live.lands.sync with lastEdge := some 0, validPeriod := 400000, badRun := n } } }
    (s 1).lands.sync.lost = false ∧ (after .syncPeriodMissing (s 1)).lands.sync.lost = false ∧
    (after .syncPeriodMissing (s 2)).lands.sync.lost = true := by decide +kernel

/-- A converter whose ramp trips at a code at either gain, the gain chosen low from 3,584 on. -/
def tripsAt (gain code : Nat) : Conversion := { gainLevel := gain, tripHcg := code, tripLcg := code }

/-- Every column at code 100 and HCG. -/
def flat : List Conversion := List.replicate 1600 (tripsAt 3583 100)

/-- A read of an even revolution with a difference of 24, and of 25 at the fourth differing read. -/
theorem test_row_read :
    let sp (d : Nat) : List Conversion := List.replicate 32 (tripsAt 3583 (100 + d))
    let g : Group := { state := .live, replOffset := 0, defects := 0, maxDiff := 0, runMax := 0, diffCount := 3, abandoned := false }
    let s : State := { inSlot { aSlot with frame := 0 } with cols := { live.cols with groups := List.replicate 32 g } }
    (s.cols.group 31).state = .live ∧ (aSlot.expo.schedule.head?).isSome = true ∧ s.clock.hold = none ∧
    ((after (.rowRead flat (sp 24)) s).cols.group 31).diffCount = 0 ∧ ((after (.rowRead flat (sp 25)) s).cols.group 31).state = .replacing := by decide +kernel

/-- Revolution 1 compares nothing, and the spares stand in for the first column of each group: the bus carries SRC and the spare's code, then a column
whose ramp never trips at LCG, chosen from 3,584 steps on. -/
theorem test_row_read_odd_revolution :
    let s := inSlot { aSlot with frame := 16 }
    let t := after (.rowRead (flat.take 1 ++ tripsAt 3584 9999 :: flat.drop 2) (List.replicate 32 (tripsAt 0 4000))) s
    aSlot.frame.toNat / 16 % 2 = 1 ∧ t.cols = s.cols ∧ (t.wheel.bus.lanes.getD 0 []).take 3 = [0x2FA0, 0x1FFF, 100] ∧
    t.wheel.bus.tag[0]? = some 16 := by
  decide +kernel

/-- The nominal conversions of every converter at 12 bits. -/
def nominalConv : CheckConv := { low0 := 512, low1 := 512, high0 := 3584, high1 := 3584 }

/-- Column 7 reads 0 at the low level twice (a converter that the operand leaves out reads nominal codes); the spare of group 1 does. -/
theorem test_blank_interval_check :
    let bad : CheckConv := { nominalConv with low0 := 0, low1 := 0 }
    let conv := List.replicate 7 nominalConv ++ [bad]
    let conv2 := List.replicate 1601 nominalConv ++ [bad]
    aSlot.holder.isSome = true ∧ aSlot.cal = none ∧ aSlot.checked = false ∧
    checkFails false (convOf false conv 1600) = false ∧ (inSlot aSlot).cols.failing false conv 0 = [7] ∧
    checkFails false (convOf false conv2 1601) = true ∧
    ((after (.blankIntervalCheck conv []) (inSlot aSlot)).cols.group 0).replOffset = 7 := by decide +kernel

/-- A check of the tenant's slot that finds nothing. -/
theorem test_blank_interval_check_clean :
    let x : Slot := { aSlot with holder := some 1 }
    x.holder ≠ some owner ∧ ((List.range 32).all (fun g => (inSlot x).cols.failing false [] g == [] &&
      checkFails false (convOf false [] (1600 + g)) == false)) = true := by decide +kernel

/-- 31 slots and 32. -/
theorem test_quality_recompute :
    let r : BankRef := { offset := Frac.ofNat 512, span := Frac.ofNat 3072, low := Frac.ofNat 512, high := Frac.ofNat 3584 }
    let c : CheckSlot := { frame := 16, scaleNum := 1, scaleDen := 1, conv := [], refA := r, refB := r }
    let s (n : Nat) : State := { live with cols := { live.cols with qualSlots := List.replicate n c } }
    (s 31).cols.qualSlots.length < 32 ∧ (s 32).cols.qualSlots.getLast? = some c ∧ (after .qualityRecompute (s 32)).cols.quality.resFrame = 16 := by decide +kernel

/-- A calibration slot with both parts to run. -/
def calRep : CalReport :=
  { parts := { ramp := true, columns := true }, rampResA := 0, rampReasonA := 0, rampResB := 0, rampReasonB := 0, accepted := 0, rejected := 0, rejectList := [],
    expired := false, rampDone := false, columnsDone := false, old := (0, 0, live.cols.quality) }

def calState (r : CalReport) : State := inSlot { aSlot with te := none, cal := some { ramp := true, columns := true }, calRep := some r }

/-- A ramp whose intervals are all alike is accepted with no change, and one that is too steep is not. -/
theorem test_cal_ramp_done :
    let even := List.replicate 128 25000
    (calState calRep).calSlot.map (fun x => x.2) = some calRep ∧ calRep.parts.ramp = true ∧ calRep.rampDone = false ∧
    ((after (.calRampDone even (List.replicate 128 1)) (calState calRep)).wheel.slot.bind (fun x => x.calRep)).map (fun q => q.rampDone) = some true := by
  decide +kernel

theorem test_cal_columns_done :
    let r : CalReport := { calRep with rampDone := true }
    (calState r).calSlot.map (fun x => x.2) = some r ∧ r.columnsDone = false ∧
    ((after (.calColumnsDone []) (calState r)).wheel.slot.bind (fun x => x.calRep)).map (fun q => q.columnsDone) = some true := by decide +kernel

theorem test_cal_lease_expired :
    calRep.finished = false ∧
    ((after .calLeaseExpired (calState calRep)).wheel.slot.bind (fun x => x.calRep)).map (fun q => q.expired) = some true := by decide +kernel

/-- A slot whose reads are done ends; one without an exposure is void for want of a trigger. -/
theorem test_slot_end :
    let x : Slot := { aSlot with readsDone := true }
    let y : Slot := { waitingSlot with expo := { aSlot.expo with triggered := true } }
    x.over = true ∧ y.over = true ∧ turning.wheel.fork = none ∧ x.calRep = none ∧
    ((after .slotEnd (inSlot y)).wheel.fork.map (fun d => d.slot.voidReason)) = some (some 1) := by decide +kernel

/-- A void slot and one with an exposure leave the fork. -/
theorem test_record_leaves_fork :
    let s (x : Slot) : State := { turning with wheel := { turning.wheel with fork := some { slot := x, holder := 0, machines := none } } }
    let v : Slot := { aSlot with voidReason := some 3 }
    aSlot.voidReason = none ∧ aSlot.te = some { sec := 0, sub := 2000 } ∧ v.throttled = false ∧
    ((after .recordLeavesFork (s v)).wheel.enclave.map (fun r => r.rtype)) = some 2 ∧ turning.wheel.enclave = none := by decide +kernel

/-- A record takes the last places of the delivery queue. -/
theorem test_record_enters_delivery :
    let r : DoneRec := { pol := 0, rtype := 2, frame := 16, body := List.replicate 16 0 }
    let d : DlvRec := { ersEq := 0, rtype := 3, frame := 0, body := [], frags := 127, sent := 0, path := none, key := 1 }
    let s : State := { (withOwner (fun q => { q with dlv := [d] })) with wheel := { turning.wheel with enclave := some r } }
    (∀ p : PolId, (s.pol p).events = [] ∧ (s.pol p).gone = none) ∧ dlvPlaces (s.pol 0).dlv + fragments r.body.length = 128 ∧
    ((after .recordEntersDelivery s).pol 0).dlv.length = 2 ∧ ((after .recordEntersDelivery s).pol 0).lastFrame = some 16 := by decide +kernel

/-! ### Witnesses: supply, start-up, holdup, entries and returns -/

/-- `live` with its power controller changed. -/
def powered (f : Power → Power) : State := { live with power := f live.power }

theorem test_line_power_good :
    let s := powered (fun p => { p with lineGood := false })
    s.power.shedding = false ∧ (s.power.presentA || s.power.presentB) = true ∧ (after .linePowerGood s).power.lineGood = true ∧
    (after .linePowerGood s).restartCause = 1 := by decide +kernel

theorem test_line_power_lost :
    let s := powered (fun p => { p with feedA := false, feedB := false })
    s.power.lineGood = true ∧ (s.power.feedA || s.power.feedB) = false ∧ (after .linePowerLost s).power.shedding = true ∧
    (after .linePowerLost (powered (fun p => { p with feedB := true }))).power.shedding = false ∧
    (after .powerDownReset (powered (fun p => { p with shedding := true }))).power.lineGood = false := by decide +kernel

/-- A port is present at 18 V and not a millivolt below, feeds from 16 V on; 56 V is the rating. -/
theorem test_port_presence :
    (after (.portPresenceChange .b 18000) live).power.presentB = true ∧ (after (.portPresenceChange .a 17999) live).power.presentA = false ∧
    (after (.portPresenceChange .a 16000) live).power.feedA = true ∧ (after (.portPresenceChange .a 15999) live).power.feedA = false ∧
    live.power.portMode ≠ .unknown ∧ goesOn (exec (.portPresenceChange .a 56000) live) = true ∧
    goesOn (exec (.portPresenceChange .a 56001) live) = false := by decide +kernel

theorem test_aon_ready :
    let s := powered (fun p => { p with aonReady := false })
    let y : Straps := { commissionLow := true, adr0High := true, adr1High := false }
    s.power.lineGood = true ∧ (after (.aonReady y true) s).lands.commissionStays = true ∧ (after (.aonReady y false) s).lands.commissionStays = false := by
  decide +kernel

/-- RESET_N falls and rises; under EXTEST the land does not reach the node. -/
theorem test_reset_n :
    let s := powered (fun p => { p with resetLow := true })
    let x : State := { live with jtag := { live.jtag with ir := .extest } }
    live.jtag.ir ≠ .extest ∧ live.power.resetLow = false ∧ (after .resetNAssert live).restartCause = 2 ∧
    (after .resetNAssert x).restartCause = x.restartCause ∧
    (after .resetNAssert (powered (fun p => { p with vioLost := true }))).power.resetLow = false ∧ live.power.vioLost = false ∧ x.jtag.ir = .extest ∧
    (after (.resetNRelease live.lands.straps true) s).clock.running = true ∧ s.power.aonReady = true := by decide +kernel

/-- What a start finds: no block failed, both images' digests and signatures good. -/
def goodFindings : StartFindings := { failedBlocks := 0, digestOk0 := true, sigOk0 := true, digestOk1 := true, sigOk1 := true }

/-- A node out of reset with an image in each half. -/
def starting : State := { State.reset with arr := { State.reset.arr with fw1 := State.reset.arr.fw0 } }

/-- The selected image runs, else the other, else none. -/
theorem test_firmware_start :
    let other := { goodFindings with digestOk0 := false }
    let bad := { other with sigOk1 := false }
    starting.power.seqRunning = false ∧ starting.clock.running = true ∧ starting.lcDerived = .commission ∧ starting.imageOk goodFindings 0 = true ∧
    (after (.firmwareStart goodFindings) starting).arr.running = 0 ∧ (after (.firmwareStart other) starting).arr.running = 1 ∧
    (after (.firmwareStart bad) starting).power.seqRunning = false := by decide +kernel

/-- A node in RETURN and one in SCRAPPED. -/
theorem test_firmware_start_at_the_end :
    let r : State := { starting with life := { starting.life with fuseReturn := true } }
    let x : State := { starting with life := { starting.life with fuseScrapped := true } }
    r.lcDerived = .ret ∧ (after (.firmwareStart goodFindings) r).life.cleared = true ∧ x.lcDerived = .scrapped ∧
    (after (.firmwareStart goodFindings) x).power.seqRunning = false := by decide +kernel

/-- The newest of two WHEEL copies gives the period, and a polder stored ACTIVE resumes with its key and its reservation. -/
theorem test_firmware_start_resumes :
    let y : StoredPolder := { state := .active, key := 5, charter := aCharter, mark := none }
    let v : StoredSeq := { cR := 65536, sR := 65536, path := none }
    let w (n : Nat) : WheelItem := { WheelItem.factory with period := n }
    let copies : List ItemCopy := [{ item := 0x11, slot := 1, gen := 2, value := .wheel (w 7000000) }, { item := 0x11, slot := 0, gen := 1, value := .wheel (w 8000000) },
      { item := 0x31, slot := 0, gen := 1, value := .stored 1 (some y) }, { item := 0x39, slot := 0, gen := 1, value := .seqs 1 (some v) }]
    let s : State := { starting with arr := { starting.arr with copies := copies } }
    let t := after (.firmwareStart goodFindings) s
    s.arr.load.stored[1] = some y ∧ s.arr.load.seqs[1] = some v ∧ (t.pol 1).nextAdmit = 65536 ∧ t.wheel.period = 7000000 := by decide +kernel

theorem test_start_up_events :
    (after .commandsAcceptedStart (powered (fun p => { p with accepting := false }))).power.accepting = true ∧
    (after .discoveryWindowEnd (powered (fun p => { p with discoveryOver := false }))).lineA.window = 8 ∧
    live.power.vauxOn = true ∧ (after .vauxTrip live).power.vauxOn = false ∧
    (after .vauxTrip (powered (fun p => { p with seqRunning := false }))).early.length = 1 ∧
    (after (.vauxRetry false) (powered (fun p => { p with vauxOn := false }))).power.vauxOn = true ∧
    (after .vioLost live).power.vioLost = true ∧ (after .vioRestored (powered (fun p => { p with vioLost := true }))).power.vioWaits = true ∧
    (after (.serviceSlice 0) (powered (fun p => { p with vioLost := true, vioWaits := true }))).power.vioLost = false := by decide +kernel

/-- `live` with its holdup store changed. -/
def held (f : Holdup → Holdup) : State := { live with holdup := f { live.holdup with startedBelow4 := false, firstMeasure := false } }

/-- HOLD falls below 12 V, rises to 14 V, and is measured at its rating and beyond. -/
theorem test_hold_measure :
    (after (.holdMeasure 11999 0) (held (fun h => { h with seen12 := true }))).holdup.low = true ∧
    (after (.holdMeasure 13999 0) (held (fun h => { h with low := true, checkPassed := true }))).holdup.low = true ∧
    (after (.holdMeasure 14000 0) (held (fun h => { h with low := true, checkPassed := true }))).holdup.low = false ∧
    (after (.holdMeasure 12000 0) (held id)).holdup.low = false ∧
    goesOn (exec (.holdMeasure 18000 0) (held id)) = true ∧ goesOn (exec (.holdMeasure 18001 0) (held id)) = false ∧
    ({ held id with power := { live.power with shedding := true } } : State).power.shedding = true := by decide +kernel

/-- A fall of 100 mV passes the pulse test, one of 101 mV does not. -/
theorem test_pulse_test :
    let s := held (fun h => { h with holding := true, lastMv := 14000 })
    let l := held (fun h => { h with holding := true, lastMv := 14000, low := true })
    s.holdup.charger = true ∧ (after (.pulseTest 100) s).holdup.low = false ∧ (after (.pulseTest 101) s).holdup.lastReason = 4 ∧
    (after (.pulseTest 100) l).holdup.low = false := by decide +kernel

theorem test_holdup_deadline :
    let s := held id
    s.holdup.deadlineOpen = true ∧ s.holdup.charger = true ∧ s.holdup.reached14 = false ∧ (after .holdupDeadline s).holdup.low = true ∧
    (after .holdupDeadline (held (fun h => { h with reached14 := true }))).holdup.low = false := by decide +kernel

/-- An entry that lowers domains 1 to 5, at step n with m lowered. -/
def entering (n : Nat) (m : BitVec 12) (l : BitVec 8) : State :=
  powered (fun p => { p with
    latches := l,
    entry := some { target := requestedConfig 0x2aa p.doms, step := n, lowered := m, oldWakeSet := 0, oldWakeEn := 0, esn := 0, stoppedWheel := false,
                    finalPassed := false } })

/-- A latched wake abandons an entry that has lowered a domain. -/
theorem test_entry_abandoned :
    let s := entering 2 1 1
    s.entryStops = false ∧ s.power.latches ≠ 0 ∧ (after .powerEntryStep s).power.entry = none ∧
    (after .powerEntryStep s).power.ret.map (fun r => r.doms) = some 1 := by decide +kernel

/-- A calibration refuses step 4 with reason 1. -/
theorem test_entry_refused :
    let s : State := { entering 4 7 0 with cols := { live.cols with calRun := some { ramp := true, columns := false } } }
    s.power.entry.any (fun e => (s.stepsLeft e e.step).find? (· ≤ 7) == some 4) = true ∧ s.refusalOf (stepDomain 4) = some 1 ∧ s.entryStops = false ∧
    (after .powerEntryStep s).power.refusalLog.map (fun r => (r.domain, r.reason, r.step)) = [(4, 1, 4)] := by decide +kernel

/-- Step 1 lowers domain 1. -/
theorem test_entry_lowers :
    let s := entering 1 0 0
    s.power.entry.any (fun e => (s.stepsLeft e e.step).find? (· ≤ 7) == some 1) = true ∧ s.refusalOf (stepDomain 1) = none ∧ s.stepCanAct 1 = true ∧
    s.entryStops = false ∧ domAt (after .powerEntryStep s).power.doms 1 = .off := by decide +kernel

/-- The four steps of a return. -/
def returning (n : RetStep) : State :=
  powered (fun p => { p with ret := some { doms := 0x81f, step := n, cause := .wake, relock := 0 }, latches := 1, firstLatch := some Tb.zero })

theorem test_return_steps :
    (returning .v).power.sensorPointsWait = false ∧ ((after .returnStepReady (returning .v)).power.ret.map (fun r => r.step)) = some .c ∧
    ((after .returnStepReady (returning .c)).power.ret.map (fun r => r.step)) = some .m ∧
    ((after .returnStepReady (returning .m)).power.ret.map (fun r => r.step)) = some .l ∧
    (after .returnStepReady (returning .l)).power.ret = none ∧ (after .returnStepReady (returning .l)).host.wakeDone = true := by decide +kernel

/-- An abandoned entry gives its wake settings back. -/
theorem test_return_restores :
    let s := powered (fun p => { p with ret := some { doms := 1, step := .l, cause := .abandoned 0x980 1, relock := 0 } })
    (after .returnStepReady s).power.wakeSet = 0x980 := by decide +kernel

theorem test_reply_carried :
    let c : Carry := { why := .sysReset, esn := 4, carried := false }
    let j : State := withOwner (fun q => { q with journal := [aReply 4] })
    let l : Carry := { why := .lifecycle, esn := 4, carried := false }
    (after .replyCarriedTimeout { j with carries := [c] }).restartCause = 3 ∧
    (after .replyCarriedTimeout { j with carries := [l] }).carries = [{ l with carried := true }] ∧ j.arr.writes = [] := by decide +kernel

theorem test_op_point_voltage :
    let s := powered (fun p => { p with pointNext := p.pointNext.set 2 (some 1) })
    s.power.pointNext[2] = some 1 ∧ (s.pol owner).serving = none ∧ (after (.opPointVoltageReady 2) s).power.points[2] = 1 := by decide +kernel

/-- A node with SEQ OFF and its line port A OFF, every wake source enabled. -/
def asleep : State :=
  powered (fun p => { p with doms := ((p.doms.set 6 .ret).set 8 .off).set 11 .off, wakeSet := 0x1f80, wakeEn := 0x1f, latches := 128 })

theorem test_wake_events :
    asleep.domOn 7 = false ∧ asleep.power.wakeSet.toNat.testBit 7 = true ∧ (after .wakeEvent asleep).power.ret.map (fun r => r.doms) = some 0x940 ∧
    asleep.domOn 9 = false ∧ wakeNames 0xfff 0xfff = true ∧
    (after (.wakeMatch .a 0xfff) asleep).power.latches = 129 ∧
    (after (.i2cAddrMatch 0x4c) asleep).power.latches = 132 ∧ (after (.i2cAddrMatch 0x4d) asleep).power.latches = 128 ∧
    (after .wakeNFall asleep).power.latches = 136 := by decide +kernel

/-! ### Witnesses: the line -/

/-- A frame from the reeve of the worker's segment to the worker. -/
def toWorker (body : TxBody) : TxFrame := { dst := 0x041, src := 0x042, ackmap := 0, isNew := true, fseq := 0, body := body }

/-- A frame as it is received on port A, in a data slot or in contention. -/
def received (slot : Option (Fin 63)) (key : Option (BitVec 128)) (cycle : W32) (f : TxFrame) : LineRx :=
  let bs := f.bytes slot.isSome key cycle
  { port := .a, slot := slot, bits := lineBits (0xD5 :: (bs ++ leBytes 4 (crc32 bs))) }

/-- What such a frame spells. -/
def heardAs (f : LineRx) : Heard :=
  f.heard.getD { port := .a, slot := none, dst := 0, src := 0, kind := 15, fseq := 0, ackmap := 0, isNew := false, head := [], payload := [] }

/-- A frame to the worker in contention, without a key. -/
def rx (body : TxBody) : LineRx := received none none 7 (toWorker body)

/-- The frame is of a kind, well formed, and names the worker in contention. -/
def reaches (s : State) (f : LineRx) (kind : Nat) : Bool :=
  s.portTakes f.port && s.noResetWaits && f.heard == some (heardAs f) && (heardAs f).kind == kind && s.frameForNode (heardAs f) &&
  (s.headerTaken (heardAs f)).accepts .a (heardAs f).dst

/-- The worker with its line port A changed. -/
def onLine (f : LinePort → LinePort) : State := { worker with lineA := f worker.lineA }

/-- A frame the worker has sent to its reeve and that waits. -/
def sentFrame : TxFrame := { dst := 0x042, src := 0x041, ackmap := 0, isNew := true, fseq := 0, body := .data (.reply (aReply 0)) }

def waits (src : BitVec 12) : Unacked :=
  { flow := { src := src, dst := 0x042, pol := some 0 }, frame := sentFrame, hop := 0x042, tries := 0, slot := 1, cycle := 6, unread := true, at_ := 0 }

/-- The SD, ADDR, TYPE and LENGTH of a WAKE from 0x042 to 0x041 are the bytes D5, 41 20 04, 03, 00; the same bits inverted are the same frame, and one
bit altered is none. -/
theorem test_line_bits :
    let f := rx .wake
    (lineBytes f.bits).take 6 = [0xD5, 0x41, 0x20, 0x04, 0x03, 0x00] ∧ f.bits.length = 80 ∧ reaches worker f 3 = true ∧
    LineRx.heard { f with bits := f.bits.map (fun b => !b) } = some (heardAs f) ∧ LineRx.heard { f with bits := f.bits.set 9 (!f.bits.getD 9 false) } = none := by
  decide +kernel

/-- A RANGE_REQ sent under a key at a cycle verifies there and at no other cycle. -/
theorem test_line_mac :
    let f := toWorker (.discover 2 0)
    lengthOk f.body.kind (f.body.payload.length + 8) = true ∧ kindSigned f.body.kind = true ∧
    (heardAs (received none (some 99) 7 f)).macOk (some 99) 7 = true ∧ (heardAs (received none (some 99) 7 f)).macOk (some 99) 8 = false := by decide +kernel

/-- An acknowledgement in the hop's own slot takes the frame away. -/
theorem test_wake_acknowledges :
    let s := onLine (fun l => { l with unacked := [waits 0x041] })
    let f := received (some 2) none 7 { toWorker .wake with ackmap := 2 }
    s.portTakes .a = true ∧ s.noResetWaits = true ∧ f.heard = some (heardAs f) ∧ (heardAs f).kind = 3 ∧ addrSlot (waits 0x041).hop = 2 ∧
    (heardAs f).ackmap.toNat.testBit (waits 0x041).slot = true ∧ (after (.wake f) s).lineA.unacked = [] := by decide +kernel

/-- A foreign frame in the worker's own slot is a collision, the third in a row a conflict. -/
theorem test_wake_collides :
    let s (n : Nat) := onLine (fun l => { l with conflictRun := n })
    let f := received (some 1) none 7 (toWorker .wake)
    f.heard = some (heardAs f) ∧ worker.ownSlot = 1 ∧ worker.lineA.slotFrom = true ∧ (after (.wake f) (s 1)).lineA.conflict = false ∧
    (after (.wake f) (s 2)).lineA.conflict = true := by decide +kernel

theorem test_data :
    let d : RxFlow := { flow := { src := 0x042, dst := 0x041, pol := some 0 }, fseq := 0, wasNew := true, at_ := 0 }
    let s := onLine (fun l => { l with rxFlows := [d] })
    let f := rx (.data (.relayed aPacket))
    let g := received (some 2) none 7 (toWorker (.data (.relayed aPacket)))
    let h := heardAs g
    reaches worker f 1 = true ∧ ((after (.data f) worker).pol 0).intake.map (fun p => (p.path, p.bytes == aPacket.bytes)) = [(.line 0x042, true)] ∧
    g.heard = some h ∧ (s.headerTaken h).isHop .a h.dst = true ∧
    ((s.headerTaken h).port .a).isDuplicate { src := h.src, dst := h.dst, pol := some 0 } h.isNew h.fseq s.clock.elapsed = true ∧
    (after (.data g) s).lineA.counters[3] = 1 := by decide +kernel

/-- The worker as the reeve of its segment. -/
def reeve : State := { worker with fab := { worker.fab with role := 1, cycle := 9 } }

/-- A JOIN without an address. -/
def aJoin : JoinFields :=
  { uid := 77, addr := 0xfff, unaddressed := true, mismatch := false, conflict := false, reclaim := false, keyId := 0, lc := 1, rank := 0, portMode := 1,
    fwMajor := 0, fwMinor := 0 }

theorem test_join :
    let f := rx (.join aJoin)
    reaches reeve f 4 = true ∧ JoinFields.decode (heardAs f).payload = aJoin ∧ reeve.fab.role ≠ 0 ∧ reeve.homePort = .a ∧
    (after (.join f) reeve).fab.joinQueue = [77] ∧ (after (.join f) worker).fab.joinQueue = [] := by decide +kernel

/-- The worker under a fabric key. -/
def keyed : State := { worker with fab := { worker.fab with keyId := 3, key := 99 } }

/-- A DISCOVER to all, and one under another key. -/
theorem test_discover :
    let f := rx (.discover 0 0)
    reaches worker f 5 = true ∧ worker.macOk (heardAs f) = true ∧ (after (.discover f) worker).lineA.contention.length = 1 ∧
    reaches keyed f 5 = true ∧ keyed.fab.keyId ≠ 0 ∧ keyed.macOk (heardAs f) = false ∧ (after (.discover f) keyed).lineA.counters[12] = 1 := by decide +kernel

/-- No bits at all, and a keyed frame under another key. -/
theorem test_line_frame_bad :
    let none_ : LineRx := { port := .a, slot := none, bits := [] }
    none_.heard = none ∧ (after (.lineFrameBad none_) worker).lineA.counters[1] = 1 ∧ (after (.wake none_) worker).lineA.counters[1] = 1 ∧
    (after (.lineFrameBad (rx (.discover 0 0))) keyed).lineA.counters[12] = 1 ∧
    (after (.lineFrameBad (rx (.discover 0 0))) worker).lineA.counters[12] = 0 := by decide +kernel

/-- A bridge between segments 1 and 2, port A its home. -/
def bridge : State :=
  { worker with
    power := { worker.power with portMode := .bridge, presentB := true },
    lineB := { live.lineB with last := some { aBeacon with segment := 2 }, lastSrc := 0x081, heardBeacon := true, cycle := 4 } }

/-- A frame held back for segment 3 on port A, and one to forward on port A. -/
def aForward : FwdFrame := { flow := { src := 0x081, dst := 0x0c1, pol := some 0 }, body := .ackOnly, at_ := 0 }

def bridging : State :=
  { bridge with
    lineA := { bridge.lineA with fwd := [aForward], holdBacks := [{ segU := 3, old := 0x043, frames := [aForward] }],
                                 adverts := [{ from_ := 0x043, hops := (List.replicate 63 0xff).set 3 1 }] },
    fab := { bridge.fab with routes := [{ segment := 3, port := .a, hops := 2, draining := false, nextHop := 0x043 }] } }

theorem test_route :
    let hops : List Byte := (List.replicate 63 0xff).set 5 1
    let f := rx (.route hops)
    reaches bridge f 6 = true ∧ (after (.route f) bridge).fab.routes.map (fun r => (r.segment, r.nextHop)) = [(5, 0x042)] := by decide +kernel

theorem test_route_lapse :
    bridging.fab.routes.find? (fun x => x.segment == 3) = some { segment := 3, port := .a, hops := 2, draining := false, nextHop := 0x043 } ∧
    (∀ a ∈ (bridging.port .a).adverts, a.hops.length = 63) ∧ (after (.routeLapse 3) bridging).fab.routes = [] := by decide +kernel

/-- A DRAIN and a DRAIN_DONE for the first time and again. -/
theorem test_drain :
    let d : DrainFields := { segS := 1, segU := 3, oldClaimant := 0x043, marker := 0 }
    let again : State := { bridging with fab := { bridging.fab with drainsSeen := [(false, d, 0), (true, d, 0)] } }
    let f := rx (.drain d)
    let g := rx (.drainDone d)
    reaches bridging f 7 = true ∧ reaches bridging g 8 = true ∧ DrainFields.decode (heardAs f).payload = d ∧ bridging.drainSeen false d = false ∧ bridging.drainSeen true d = false ∧ again.drainSeen false d = true ∧
    again.drainSeen true d = true ∧ (after (.drain f) bridging).drainSeen false d = true ∧
    (bridging.headerTaken (heardAs g)).portSegment .a = d.segS ∧ (after (.drainDone g) bridging).lineA.holdBacks = [] := by decide +kernel

theorem test_forward_timers :
    let s : State := { bridging with lineA := { bridging.lineA with unacked := [waits 0x081] } }
    (after (.holdbackExpired .a 3) bridging).lineB.fwd = [aForward] ∧ bridge.heldFor .a = [] ∧
    (after (.fwdFrameTimeout .a) bridging).lineA.fwd = [] ∧ (oldestHeld (s.heldFor .a)).isSome = true ∧ (after (.fwdFrameTimeout .a) s).lineA.unacked = [] := by decide +kernel

/-- The worker's data slot carries its owner's reply; at a line skip level it carries an empty frame. -/
theorem test_data_slot :
    let r : Reply := { aReply 0 with path := .line 0x042 }
    let s : State := (onLine (fun l => { l with cycle := 16 })).modPol 0 (fun q => { q with replyQ := [r], path := some (.line 0x042) })
    let t : State := { s with lineA := { s.lineA with skip := 4 } }
    s.usesSlots .a = true ∧ (s.slotsNow .a)[0]? = some s.ownSlot ∧ s.skipped .a = false ∧ s.forwardCycle .a = false ∧ s.sharePolder (s.shareSlot .a) = some 0 ∧
    s.portToward 0x042 = .a ∧ s.needsWake .a 0x042 = false ∧ t.skipped .a = true ∧ (after (.dataSlotTx .a) t).lineA.lastTx.map (fun f => f.body) = some .ackOnly := by
  decide +kernel

/-- A bridge whose slot is lent back to it sends nothing in it with no frame to forward. -/
theorem test_data_slot_lent :
    let b : State := { bridge with lineA := { bridge.lineA with slotFrom := false, last := some { aBeacon with lend := 2, bridges := 2 } } }
    worker.lineA.slotFrom = true ∧ worker.noResetWaits = true ∧
    b.usesSlots .a = true ∧ (b.slotsNow .a)[0]? = some 1 ∧ (after (.dataSlotTx .a) b).lineA.slotsSent = 1 := by decide +kernel

/-- A reply to a destination that is present needs no WAKE. -/
theorem test_data_slot_reply :
    let r : Reply := { aReply 0 with path := .line 0x043 }
    let s : State := (onLine (fun l => { l with cycle := 16 })).modPol 0 (fun q => { q with replyQ := [r], path := some (.line 0x043) })
    s.usesSlots .a = true ∧ s.needsWake .a 0x043 = false ∧ addrBroadcast 0x043 = false ∧ s.lineA.unacked = [] ∧ s.sharePolder (s.shareSlot .a) = some 0 ∧
    (after (.dataSlotTx .a) s).lineA.lastTx.map (fun f => f.body) = some (.data (.reply r)) := by decide +kernel

/-- The fourth collision doubles the window again, the fifth drops the frame. -/
theorem test_contention :
    let s (n : Nat) := onLine (fun l => { l with contention := [sentFrame], attempts := n })
    (s 0).contentionHead .a = some (sentFrame, []) ∧ (after (.contentionTx .a false) (s 0)).lineA.lastTx = some sentFrame ∧
    (after (.contentionTx .a true) (s 3)).lineA.attempts = 4 ∧ (after (.contentionTx .a true) (s 4)).lineA.contention = [] := by decide +kernel

theorem test_line_timers :
    let s := onLine (fun l => { l with conflict := true, conflictRun := 3 })
    (after .joinRetryTimer s).lineA.contention.any TxFrame.isJoin = true ∧ (after .slotConflictRetry s).lineA.conflict = false ∧
    bridge.bridging = true ∧ bridge.portLive .a = true ∧ (after .routeAdvertTimer bridge).lineA.mgmt.length = 1 := by decide +kernel

theorem test_beacon_tx :
    reeve.portLive reeve.homePort = true ∧ reeve.unaddressed = false ∧ reeve.fab.handover = none ∧ reeve.fab.following = false ∧
    (after .beaconTx reeve).fab.cycle = 10 ∧ ({ reeve with fab := { reeve.fab with role := 2 } } : State).fab.role = 2 := by decide +kernel

/-- A beacon of the reeve whose time the worker takes, and one under another key. -/
theorem test_beacon :
    let w : State := { worker with power := { worker.power with accepting := false } }
    let b : BeaconFields := { aBeacon with timeValid := true, tbTx := 5 }
    let f := received none none 7 { toWorker (.beacon b) with dst := 0x07f }
    let h := heardAs f
    w.portLive .a = true ∧ f.heard = some h ∧ BeaconFields.decode h.payload = b ∧ h.dst = segmentAll b.segment ∧ b.reeveId ≠ w.life.uid ∧
    b.segment = w.ownSegment ∧ w.power.portMode = .tap ∧ h.port = w.homePort ∧ h.kind = 2 ∧
    w.fab.timeFar = false ∧ w.fab.synced = false ∧ w.lineA.lastSrc = h.src ∧ keyed.macOk h = false ∧ keyed.portLive .a = true ∧
    (after (.beacon f) w).clock.tb = { sec := 0, sub := 1125 } ∧ (after (.beacon f) worker).clock.tb = Tb.zero ∧
    (after (.beacon (rx (.beacon b))) w).lineA = w.lineA := by decide +kernel

/-- The third beacon missed in a row ends the time taken from the reeve. -/
theorem test_beacon_missed :
    let s (n : Nat) : State := { onLine (fun l => { l with missed := n }) with fab := { worker.fab with following := true } }
    (s 1).followedPort = some .a ∧ (s 1).fab.handover = none ∧ (after (.beaconMissed .a) (s 1)).fab.following = true ∧
    (after (.beaconMissed .a) (s 2)).fab.following = false := by decide +kernel

theorem test_election :
    let s : State := { onLine (fun l => { l with missed := 3 }) with fab := { worker.fab with candidate := true } }
    let n : State := { s with fab := { s.fab with candidate := false } }
    s.isCandidate = true ∧ n.fab.presumed = false ∧ (after (.reevePresumedLost .a) n).fab.candidate = true ∧
    (after (.electionDelayExpired false) s).fab.role = 1 ∧ (after (.electionDelayExpired true) s).fab = s.fab := by decide +kernel

/-- The reeve answers a RANGE_REQ, the worker takes the echo, and asks again. -/
theorem test_ranging :
    let s := onLine (fun l => { l with reeveBeacons := 3 })
    let echo := rx (.discover 3 (256 * 40))
    reaches reeve (rx (.discover 2 0)) 5 = true ∧ reaches worker echo 5 = true ∧ field (heardAs echo).payload 2 6 = 40 ∧
    (after (.rangeReq (rx (.discover 2 0)) 40) reeve).lineA.contention.length = 1 ∧
    (after (.rangeEcho echo) worker).fab.delay = 20 ∧ s.followedPort = some .a ∧ s.noService 2 = true ∧
    (after .rangeReqTimer s).lineA.contention.length = 1 := by decide +kernel

/-- A request for the segment role reaches a node that may take it, one that may not, and the holder; under another key it is counted. -/
theorem test_swap_req :
    let s : State := { worker with fab := { worker.fab with rank := 0 } }
    let f := rx (.discover 4 (1 + 256 * 5))
    reaches worker f 5 = true ∧ (heardAs f).payload.getD 1 0 = 1 ∧ worker.fab.swap = none ∧ worker.fab.doneSent = none ∧ worker.holdsRole .segment = false ∧
    (after (.swapReq f) worker).fab.handover.map (fun x => (x.holder, x.stamp)) = some (false, 5) ∧
    (after (.swapReq f) s).fab.handover = none ∧ reeve.holdsRole .segment = true ∧
    (after (.swapReq f) reeve).fab.handover.map (fun x => x.holder) = some true ∧ keyed.macOk (heardAs f) = false ∧
    (after (.swapReq f) keyed).lineA.counters[12] = 1 := by decide +kernel

/-- A ROLE_SWAP of the worker that waits for its peer. -/
def swapping (s : State) : State :=
  ({ s with fab := { s.fab with swap := some { role := .segment, peer := 0x042, stamp := Tb.zero, crossed := none, stands := true, answered := false } } } : State).modPol 0
    (fun q => { q with serving := some { entry := anEntry, rule := .swapOutcome, answer := none, ready := false, replied := false } })

theorem test_swap_answers :
    let s := swapping worker
    let r := swapping reeve
    let f (filter : Byte) (stamp : BitVec 56) : LineRx := rx (.discover filter (1 + 256 * stamp))
    reaches s (f 6 0) 5 = true ∧ reaches r (f 5 0) 5 = true ∧ s.macOk (heardAs (f 7 0)) = true ∧ stamp48 Tb.zero = 0 ∧ s.fab.handover = none ∧
    (after (.swapNot (f 6 0)) s).fab.swap = none ∧ (after (.swapDone (f 7 0)) s).fab.swap = none ∧
    (after (.swapDone (f 7 1)) s).fab.swap = none ∧ (after (.swapReady (f 5 0)) s).fab.swap = none ∧ r.holdsRole .segment = true ∧ r.fab.handover = none ∧
    (after (.swapReady (f 5 0)) r).fab.handover.map (fun x => x.holder) = some true ∧
    (after .roleSwapTimeout s).fab.swap = none := by decide +kernel

/-! ### Witnesses: the host port, DALI and the thermal model -/

/-- `live` with its host port changed. -/
def hosted (f : HostPort → HostPort) : State := { live with host := f live.host }

/-- A write to TXFIFO on a transport that is not selected, of a packet that fits and of one that does not, of lengths 15 and 129, of a body cut short,
and in two transactions' worth of bytes within one: until it ends the host port is busy. -/
theorem test_txfifo :
    let c (len given : Nat) : Instr := .txfifo .spi (leBytes 2 len ++ List.replicate given 1) true
    let full := hosted (fun h => { h with tx := List.replicate 7 { bytes := List.replicate 128 0, path := .host } })
    let half := after (.txfifo .spi (leBytes 2 16 ++ List.replicate 6 1) false) live
    (hosted (fun h => { h with sel := some .spi })).busServes .i2c = false ∧ live.busServes .spi = true ∧ live.power.entry = none ∧ live.domOn 7 = true ∧
    live.host.xfer = none ∧ (after (c 128 128) live).host.tx.map (fun p => p.len) = [128] ∧ (after (c 128 128) full).host.txOvfCnt = 1 ∧
    (after (c 15 15) live).host.pktErrCnt = 1 ∧ (after (c 129 129) live).host.pktErrCnt = 1 ∧ (after (c 16 15) live).host.pktErrCnt = 1 ∧
    half.refusalOf 12 = some 4 ∧ (after (.txfifo .spi (List.replicate 10 1) true) half).host.tx.length = 1 := by decide +kernel

/-- A packet goes to its polder's intake, waits for a fifth place, or belongs to another polder. -/
theorem test_txfifo_packet_to_intake :
    let s := hosted (fun h => { h with tx := [aPacket] })
    let o := hosted (fun h => { h with tx := [tenantPacket] })
    let f := s.modPol 0 (fun q => { q with intake := List.replicate 4 aPacket })
    s.hostActive = true ∧ s.domOn 8 = true ∧ s.host.leaving = none ∧ ((after .txfifoPacketToIntake s).pol 0).intake.length = 1 ∧
    (after .txfifoPacketToIntake o).host.bindMissCnt = 1 ∧ (after .txfifoPacketToIntake f).host.tx.length = 1 := by decide +kernel

/-- An untagged reply of 16 bytes: its TYPE, POLDER with bit 12 for UNTAGGED, and length word. -/
def shortReply : Reply := { aReply 0 with untagged := true, status := .busy }

/-- RXFIFO gives a packet with its length word, in one transaction or in two, and counts an underflow. -/
theorem test_rxfifo :
    let s := hosted (fun h => { h with rx := [.reply shortReply] })
    live.carries = [] ∧ (after (.rxfifo .spi 1 true) live).host.rxUnfCnt = 1 ∧ (after (.rxfifo .spi 17 true) s).host.rxRead = 17 ∧
    (after (.rxfifo .spi 18 true) s).host.readOut.length = 1 ∧ (after (.rxfifo .spi 6 true) s).host.readBytes = [16, 0, 2, 16, 0, 0] := by decide +kernel

theorem test_rxfifo_enqueue :
    let w := hosted (fun h => { h with waiting := [aReply 0] })
    let r := withOwner (fun q => { q with replyQ := [aReply 0] })
    let d := withOwner (fun q => { q with dlv := [{ ersEq := 0, rtype := 2, frame := 0, body := [], frags := 1, sent := 0, path := some (.line 5), key := 1 },
      { ersEq := 1, rtype := 2, frame := 0, body := [], frags := 1, sent := 0, path := some .host, key := 1 }], sR := 2 })
    let f := hosted (fun h => { h with rx := List.replicate 70 (.reply (aReply 0)) })
    18 ≤ w.host.rxFree ∧ (after .rxfifoEnqueue w).host.rx.length = 1 ∧ r.host.waiting = [] ∧ 130 ≤ r.host.rxFree ∧ r.hostPol = 0 ∧
    (after .rxfifoEnqueue r).host.rx.length = 1 ∧ (d.pol 0).dlv.map (·.path) = [some (.line 5), some .host] ∧ (after .rxfifoEnqueue d).host.rx.length = 1 ∧
    ((after .rxfifoEnqueue d).pol 0).dlv.map (·.path) = [some (.line 5)] ∧ f.host.rxFree < 130 := by decide +kernel

/-- IRQ_FLAGS clears what is written 1; IRQ_EN takes seven bits; ID reads back over both transports; a transfer past the window changes nothing. -/
theorem test_host_registers :
    let s := hosted (fun h => { h with rxUnf := true, pktErr := true })
    let w (h : Byte) : Instr := .hostRegisterWrite .spi h false [0xff, 0xff, 0, 0] true
    (after (.irqFlags 0x20) s).host.rxUnf = false ∧ (after (.irqFlags 0x20) s).host.pktErr = true ∧ live.noResetWaits = true ∧
    (after (w 3) live).host.irqEn = 0x7f ∧ (after (w 0x20) live).host.irqEn = 5 ∧ (after (w 1) live).host.irqEn = 5 ∧
    (after (.hostRegisterWrite .spi 0x80 true [0, 0, 0, 0] true) live).host.readBytes = [0x12, 0x16, 1, 0] ∧
    (after (.hostRegisterWrite .i2c 0 true [0, 0, 0, 0] true) live).host.readBytes = [0x12, 0x16, 1, 0] ∧
    (after (.hostRegisterWrite .spi 0x86 true [0, 0, 0, 0] true) (atTime { sec := 7, sub := 258 } id)).host.readBytes = [2, 1, 0, 0] := by decide +kernel

/-- The owner holds DALI, and both instances follow its area 0. -/
def lit : State :=
  { live with
    pols := live.pols.set 0 { ownerPol with charter := { ownerPol.charter with
      bind := 4, selection := { Selection.initial with areas := [{ zones := 1, th := 4, confirm := 1, holdSeconds := 3600 }] } } },
    arr := { live.arr with dali := { live.arr.dali with occArea := 0, lightArea := 0 } },
    dali := { live.dali with occArea := 0, lightArea := 0, occupied := true, lux := 0x1234, initialised := true, timerOn := Vector.replicate 2 true } }

/-- A frame to all devices. -/
def frame (i o : Byte) : DaliFrame := { address := 0xff, inst := i, opcode := o }

/-- The answers of the two instances, to the greatest hold time among them. -/
theorem test_dali_frame :
    let said (i o : Byte) : Option Byte := (after (.daliFrameReceive (frame i o)) lit).dali.answer
    lit.daliActive = true ∧ lit.dali.busDown = false ∧ daliAddressed (frame 0 0) lit.daliWanted.shortAddr = true ∧ (lit.daliArea 0).isSome = true ∧
    (lit.daliArea 1).isSome = true ∧ said 0xfe 0x35 = some 2 ∧ said 0 0x80 = some 3 ∧ said 1 0x80 = some 4 ∧ said 0 0x8c = some 0xaa ∧
    said 1 0x8c = some 0x12 ∧ said 1 0x8d = some 0x34 ∧ said 0 0x2d = some 254 ∧ said 0 0x21 = none := by decide +kernel

/-- A frame to another device, on a dead bus, and to an instance that follows no area. -/
theorem test_dali_frame_unanswered :
    let d : State := { lit with dali := { lit.dali with busDown := true } }
    daliAddressed { frame 0 0x80 with address := 0x03 } lit.daliWanted.shortAddr = false ∧ d.dali.busDown = true ∧ live.daliActive = true ∧
    live.daliArea 0 = none ∧ (after (.daliFrameReceive (frame 0 0x82)) live).dali.answer = some 0xff := by decide +kernel

/-- The addressing commands: a comparison that holds, a search byte, and the greatest short address. -/
theorem test_dali_addressing :
    let c (i o : Byte) : DaliFrame := { address := 0xc1, inst := i, opcode := o }
    (after (.daliFrameReceive (c 0x03 0)) lit).dali.answer = some 0xff ∧ (after (.daliFrameReceive (c 0x05 0x12)) lit).dali.searchAddr = 0x12ffff ∧
    lit.daliWanted.randomAddr = lit.dali.searchAddr ∧ (∀ w ∈ lit.arr.writes, w.value.item ≠ 0x13) ∧
    (after (.daliFrameReceive (c 0x08 63)) lit).arr.writes.length = 1 := by decide +kernel

theorem test_dali_events :
    let e : State := { lit with dali := { lit.dali with pendingEv := [(0, 2)] } }
    (after .daliBusPowerLost lit).dali.busDown = true ∧ (after .daliBusPowerRestored lit).dali.busDown = false ∧ live.dali.timerOn[0] = false ∧
    (after (.daliReportTimer 0) lit).dali.pendingEv = [(0, 2)] ∧ (after (.daliReportTimer 1) lit).dali.pendingEv = [(1, 0x48)] ∧
    (after (.daliEventSend false) e).dali.sentEv = [(0, 2)] ∧ (after (.daliEventSend true) e).dali.pendingEv = [(0, 2)] := by decide +kernel

/-- `live` with an estimate in units of 0.01 °C and a step in force. -/
def hot (e : Int) (step : Nat) : State :=
  { live with therm := { live.therm with sites := Vector.replicate 6 { num := e, den := 1 }, step := step } }

/-- The step rises at once, and falls by one only a whole degree below its own band (R590). -/
theorem test_throttle_decision :
    (after .throttleDecisionStopped (hot 10499 0)).therm.step = 0 ∧ (after .throttleDecisionStopped (hot 10500 0)).therm.step = 1 ∧
    (after .throttleDecisionStopped (hot 11500 1)).therm.step = 6 ∧ (after .throttleDecisionStopped (hot 10799 3)).therm.step = 2 ∧
    (after .throttleDecisionStopped (hot 10800 3)).therm.step = 3 ∧ live.wheel.turning = false ∧ turning.wheel.turning = true := by decide +kernel

/-- The last pause ends in step 6 or goes on for sixteen more. -/
theorem test_throttle_pause :
    let p (e : Int) (n : Nat) : State := { hot e 6 with wheel := { turning.wheel with pauses := n } }
    (after .throttlePauseEnd (p 11400 1)).wheel.pauses = 16 ∧ (after .throttlePauseEnd (p 11399 1)).wheel.pauses = 0 ∧
    (after .throttlePauseEnd (p 11399 1)).therm.step = 5 ∧ (after .throttlePauseEnd (p 11400 2)).wheel.pauses = 1 := by decide +kernel

/-- A domain that is not ON charges nothing, and a broken monitor's current is its activity. -/
theorem test_thermal_charge :
    let s : State := { powered (fun p => { p with doms := p.doms.set 0 .off }) with therm := { live.therm with broken := live.therm.broken.set 3 true } }
    s.monState 1 ≠ .on ∧ s.charge 1 = Frac.ofNat 0 ∧ s.therm.raised = [] ∧
    (after .tbUpdate live).meanCharge 1 = live.charge 1 ∧ (after .tbUpdate live).therm.chargeTicks = 1 ∧ s.therm.broken.toList.getD 3 false = true ∧ live.power.aonReady = true ∧
    live.therm.disagree.toList.getD 0 0 < 7 := by decide +kernel

/-! ### Witnesses: the array, the lifecycle, the self-test, JTAG and the faults -/

/-- `live` with its array changed. -/
def stored (f : ArrayS → ArrayS) : State := { live with arr := f live.arr }

/-- An item write of a polder. -/
def itemWrite (v : ItemValue) (p : PolId) (pages : Nat) (started : Bool) : ItemWrite := { value := v, pol := p, pagesLeft := pages, started := started }

/-- A write starts; one whose item was committed within the last second waits; none starts at HOLDUP_LOW. -/
theorem test_item_write_start :
    let w := itemWrite (.node 1) 1 1 false
    let d := itemWrite (.wheel live.arr.wheel) 0 1 false
    let s := stored (fun a => { a with writes := [w] })
    let y := stored (fun a => { a with writes := [d], commitTimes := [(0x11, 0)] })
    let n : State := { s with holdup := { s.holdup with low := true } }
    s.arrayServes = true ∧ s.itemSpaced w.value.item = true ∧ (after (.itemWriteStart 1) s).arr.jobs = [(1, .item)] ∧
    n.holdup.low = true ∧ (after (.itemWriteStart 1) n).arr.jobs = [] ∧ State.reset.arrayServes = false ∧
    y.itemSpaced d.value.item = false ∧ (after (.itemWriteStart 0) y).arr.jobs = [] := by decide +kernel

/-- Commits of an item 0x10 to 0x3F stand a second apart (R554). -/
theorem test_item_spaced :
    let s (n : Nat) : State := { stored (fun a => { a with commitTimes := [(0x15, 0)] }) with clock := { live.clock with elapsed := n } }
    (s 399999999).itemSpaced 0x15 = false ∧ (s 400000000).itemSpaced 0x15 = true := by decide +kernel

/-- The first of two pages, and the last, of a tenant's item write. -/
theorem test_page_program_item :
    let s (n : Nat) : State := { stored (fun a => { a with
      jobs := [(1, .item)], writes := [itemWrite (.dali { DaliItem.initial with occArea := 3 }) 1 n true], applied := a.applied.set 1 4 }) with
                                 curSlice := some 1 }
    (s 2).power.shedding = false ∧ (s 2).arrayServes = true ∧ (s 2).power.entry = none ∧ (s 2).holdup.low = false ∧
    (∀ q : PolId, ((s 1).pol q).serving = none) ∧ (s 1).carries = [] ∧
    (after (.pageProgramComplete true 6) (s 2)).arr.writes.map (fun w => w.pagesLeft) = [1] ∧
    (after (.pageProgramComplete true 6) (s 1)).arr.dali.occArea = 3 ∧ (after (.pageProgramComplete true 6) (s 1)).arr.writes = [] := by decide +kernel

/-- Pulses of a page in the bank of the running image: 4 fit in one slice, a fifth only in the next, where 96 of 100 still have to go. -/
theorem test_page_program_pulses :
    let w := itemWrite (.dali { DaliItem.initial with occArea := 3 }) 1 1 true
    let s (n : Nat) : State := { stored (fun a => { a with jobs := [(1, .item)], writes := [w], applied := a.applied.set 1 n }) with curSlice := some 1 }
    let u : State := { s 0 with arr := { (s 0).arr with used := (4, 0) } }
    (s 0).jobBank 1 .item = (s 0).arr.running ∧ (after (.pageProgramComplete true 4) (s 0)).arr.writes = [] ∧
    (after (.pageProgramComplete true 4) (s 0)).arr.used = (4, 0) ∧ (after (.pageProgramComplete true 5) (s 0)).arr.writes = [w] ∧
    (after (.pageProgramComplete true 5) (s 4)).arr.writes = [] ∧ (after (.pageProgramComplete true 1) u).arr.writes = [w] ∧
    (after (.serviceSlice 2) (s 0)).arr.applied[1] = 4 := by decide +kernel

/-- A page of another polder's slice completes nothing. -/
theorem test_page_program_other :
    let s : State := { stored (fun a => { a with jobs := [(1, .item)] }) with curSlice := some 2 }
    s.curSlice = some 2 ∧ (∀ j ∈ s.arr.jobs, j.1 ≠ 2) ∧ (after (.pageProgramComplete true 6) s).arr.jobs = s.arr.jobs := by decide +kernel

/-- An update under HANDLE 5 with eight bytes, its command in service. -/
def writing (rule : HoldRule) (job : PageJob) (params : List Byte) : State :=
  { (updating.modPol 0 (fun q => { q with
      serving := some { entry := { anEntry with params := params, req := handled 5 }, rule := rule, answer := some (okWith []), ready := false, replied := false } })) with
    curSlice := some 0,
    arr := { updating.arr with
      jobs := [(0, job)], applied := updating.arr.applied.set 0 4,
      updates := [{ handle := 5, region := 6, grant := Tb.zero, expiry := { sec := 2, sub := 0 }, data := (List.range 8).map (fun i => (i, 0xab)) }] } }

theorem test_page_program_update :
    let s := writing .pageProgram (.arrWrite 5 8 [1, 2]) []
    let c := writing .regionCommit (.arrCommit 5 1) [8, 0, 0, 0]
    s.ownerMayProgram = true ∧ (s.pol owner).replyQ.length < 8 ∧ (after (.pageProgramComplete true 6) s).arr.updates.map (fun u => u.data.length) = [10] ∧
    ((after (.pageProgramComplete true 6) s).pol 0).replyQ.length = 1 ∧ (after (.pageProgramComplete true 6) c).arr.updates = [] ∧
    (after (.pageProgramComplete true 6) c).arr.user.len = 8 ∧ cellsRead (after (.pageProgramComplete true 6) c).arr.user.content 7 = 0xab ∧
    cellsRead (after (.pageProgramComplete true 6) c).arr.user.content 8 = 0 := by decide +kernel

/-- A full log page, at the greatest gap between page programs and one round short of it. -/
theorem test_page_program_log :
    let e : LogEntry := { tb := Tb.zero, frame := 0, code := 1, plen := 0, lseq := 0, payload := List.replicate 40 0xff }
    let s (n : Nat) : State :=
      { stored (fun a => { a with jobs := [(0, .log)], logBuf := List.replicate 4 e, logPage := 1023, ownerStarts := n, applied := a.applied.set 0 4 }) with
        curSlice := some 0, therm := { live.therm with step := 6 } }
    programGap 6 = 16 ∧ e.bytes.length = 64 ∧ cellsWf (s 0).arr.logCells = true ∧ (after (.pageProgramComplete true 6) (s 15)).arr.logBuf.length = 4 ∧
    (after (.pageProgramComplete true 6) (s 16)).arr.logBuf = [] ∧ (after (.pageProgramComplete true 6) (s 16)).arr.logPage = 0 := by decide +kernel

/-- A page that does not verify goes to a spare, or without one fails its write. -/
theorem test_page_program_fails :
    let s (n : Nat) : State := { stored (fun a => { a with
      jobs := [(1, .item)], writes := [itemWrite (.node 1) 1 1 true], spares0 := n, spares1 := n, applied := a.applied.set 1 97 }) with
                                 curSlice := some 1 }
    (s 1).arr.spares ((s 1).jobBank 1 .item) = 1 ∧ (after (.pageProgramComplete false 100) (s 1)).arr.retired.length = 1 ∧
    (after (.pageProgramComplete false 100) (s 0)).arr.writes = [] ∧ (s 0).carries = [] := by decide +kernel

/-- A lease that runs out with nothing served, and while a page of it is. -/
theorem test_array_lease_expired :
    let s := writing .pageProgram (.arrWrite 5 8 [1, 2]) []
    updating.commitServed 5 = false ∧ (after (.arrayLeaseExpired 5) updating).arr.lostHandles = [5] ∧ s.writeServed 5 = true ∧ s.sequencing = true ∧
    ((after (.arrayLeaseExpired 5) s).pol 0).serving = none ∧ (after (.arrayLeaseExpired 4) updating).arr.updates.length = 1 := by decide +kernel

theorem test_log_page_timer :
    let e : LogEntry := { tb := Tb.zero, frame := 0, code := 1, plen := 0, lseq := 0, payload := [] }
    let s := stored (fun a => { a with logBuf := [e] })
    live.arr.logBuf = [] ∧ (after .logPageTimer s).arr.jobs = [(0, .log)] ∧ (∀ j ∈ s.arr.jobs ++ s.arr.heldJobs, j.2 ≠ PageJob.log) := by decide +kernel

/-- A transition whose reply has been carried. -/
def leaving (target : Lc) : State :=
  { live with life := { live.life with pending := some { target := target, waitCarried := true } }, carries := [{ why := .lifecycle, esn := 0, carried := true }] }

theorem test_lc_transition_execute :
    live.life.pending = none ∧ (leaving .ret).carried .lifecycle = true ∧ (leaving .ret).holdup.low = false ∧ (leaving .ret).arr.jobs = [] ∧
    (leaving .ret).arr.writes = [] ∧ (after .lcTransitionExecute (leaving .ret)).life.shadow = .ret ∧
    (after .lcTransitionExecute (leaving .scrapped)).life.fuseScrapped = true ∧
    (after .lcTransitionExecute (leaving .commission)).life.mfgDone = true := by decide +kernel

/-- A self-test of blocks, its reply carried or not. -/
def testing (left : BitVec 16) (started carried : Bool) : State :=
  { live with
    bist := { live.bist with job := some { algo := 0, region := 0, blocks := left, left := left, failed := 0, started := started, pagesLeft := 0, below := 0 } },
    carries := [{ why := .selfTest, esn := 0, carried := carried }] }

theorem test_bist :
    live.bist.job = none ∧ (testing 2 false false).carried .selfTest = false ∧ (testing 2 false true).carried .selfTest = true ∧
    (after .bistStart (testing 2 false true)).bist.job.map (fun j => j.started) = some true ∧
    (after (.bistBlockDone true) (testing 0x0802 true true)).bist.unusable = 2 ∧
    (after (.bistBlockDone true) (testing 0x0802 true true)).bist.job.map (fun j => j.left) = some 0x0800 ∧
    (after (.bistBlockDone false) (testing 0x0800 true true)).bist.job = none := by decide +kernel

/-- A node in a lifecycle state. -/
def inState (l : Lc) (cleared : Bool) : State := { live with life := { live.life with shadow := l, cleared := cleared } }

/-- IDCODE shifts out 0x116125CB, least significant byte first. -/
theorem test_jtag_idcode : live.tapWorks = true ∧ (powered (fun p => { p with vioLost := true })).tapWorks = false ∧
    (after .jtagIdcode (powered (fun p => { p with resetLow := true }))).jtag.dataOut = live.jtag.dataOut ∧ (after .jtagIdcode live).jtag.dataOut = [0xcb, 0x25, 0x61, 0x11] := by decide +kernel

theorem test_jtag_permissions :
    (after (.jtagExtest 5) live).jtag.ir = .extest ∧ (after (.jtagExtest 5) (inState .scrapped false)).jtag.ir = .bypass ∧
    (after (.jtagSamplePreload 5) (inState .field false)).jtag.boundary = 5 ∧ (after (.jtagDebug .halt) (inState .field false)).jtag.ir = .bypass ∧
    (after .jtagScan (inState .ret false)).jtag.ir = .bypass ∧ (after .jtagScan (inState .ret true)).jtag.ir = .scan ∧
    (after .jtagScan (inState .manufacture false)).jtag.ir = .scan ∧ (after .jtagRelease (inState .field false)).jtag.ir = .bypass ∧
    (after (.jtagBypass 9) live).jtag.dataOut = [0] ∧ (after .trstNAssert live).jtag.ir = .idcode := by decide +kernel

theorem test_jtag_release :
    atCommission.life.shadow = .commission ∧ atCommission.arr.writes = [] ∧ ((after .jtagRelease atCommission).pol owner).state = .absent := by decide +kernel

/-- The last byte of TCM, and the address past it. -/
theorem test_jtag_debug :
    let t := after (.jtagDebug (.writeTcm 65535 7)) atCommission
    (after (.jtagDebug (.readTcm 65535)) t).jtag.dataOut = [7] ∧ (after (.jtagDebug (.readTcm 65536)) t).jtag.dataOut = [] ∧
    (after (.jtagDebug .halt) atCommission).jtag.halted = true ∧ (after (.jtagDebug .step) atCommission).jtag.halted = false ∧
    (after (.jtagDebug .resume) t).jtag.tcm = [] ∧ atCommission.arr.tcmImage.length ≤ 65535 := by decide +kernel

/-- A page of FW0 and of the LOG, programmed where the state permits it. -/
theorem test_jtag_array :
    let p := List.replicate 256 (0x5a : Byte)
    atCommission.domOn 11 = true ∧ atCommission.life.shadow ≠ .field ∧ (after (.jtagArray (.programPage 0x0bff00 p)) atCommission).arrayByte 0x0bffff = 0x5a ∧
    (after (.jtagArray (.programPage 0x0e0000 p)) atCommission).arr = atCommission.arr ∧
    (after (.jtagArray (.programPage 0x11ff00 p)) (inState .manufacture false)).arrayByte 0x11ffff = 0x5a ∧
    (after (.jtagArray (.programPage 0x400000 p)) (inState .manufacture false)).arr = live.arr ∧
    (newestCopy 1 (after (.jtagArray (.programMfg 1 7 [] [] [] [] [] true)) (inState .ret true)).arr.copies).map (fun c => c.slot) = some 1 ∧
    (after (.jtagArray (.programTrimTab 0 [] 5 6)) (inState .ret true)).arr.load.trimTab.map (fun x => x.slopeA) = some 5 ∧
    (after (.jtagArray (.programPage 0 p)) { atCommission with holdup := { atCommission.holdup with low := true } }).arr = atCommission.arr := by
  decide +kernel

/-- The array with its domain OFF, and pages of the two halves outside the regions. -/
theorem test_array_page_places :
    let off : State := { atCommission with power := { atCommission.power with doms := atCommission.power.doms.set 10 .off } }
    off.domOn 11 = false ∧ (List.replicate 256 (1 : Byte)).length = 256 ∧ atCommission.storesWf = true ∧
    arrayPlace 0x3fff00 = none ∧ markerPlace 0x3fff00 = none ∧ atCommission.tapWorks = true ∧ atCommission.holdup.low = false ∧ (inState .manufacture false).life.shadow ≠ .commission := by decide +kernel

theorem test_jtag_mbist : (after (.jtagMbist 0x0006 0x0ffc) (inState .manufacture false)).bist.unusable = 4 := by decide +kernel

/-- A parity fault voids the slot in progress; an uncorrectable word of block 5 in the reference starts MOTION afresh. -/
theorem test_data_fault :
    let s := inSlot aSlot
    live.faultSlot = none ∧ s.clock.hold = none ∧ s.sensorsOn = true ∧ s.domOn (blockDomain 5) = true ∧ aSlot.voidReason = none ∧
    aSlot.faultBlocks.toNat.testBit 5 = false ∧ (after (.dataFault true 0 0 false) s).wheel.slot.map (fun x => x.voidReason) = some (some 3) ∧
    ((after (.dataFault false 5 0 true) (s.modPol 0 (fun q => { q with motionInit := false }))).pol 0).motionInit = true := by decide +kernel

/-- A word of SEQ_A resets; one of a line port's buffer clears it; one of the page buffer repeats the item write. -/
theorem test_uncorrectable_word :
    let w := itemWrite (.node 1) 1 0 true
    let s := stored (fun a => { a with jobs := [(1, .item)], writes := [w] })
    (after (.uncorrectableWord 0) live).restartCause = 6 ∧ (after (.uncorrectableWord 1) live).restartCause = live.restartCause ∧
    live.carries = [] ∧ live.lineA.unacked = [] ∧ live.lineB.unacked = [] ∧ live.domOn (blockDomain 11) = true ∧
    (after (.uncorrectableWord 10) s).arr.writes.map (fun x => x.started) = [false] ∧ (after (.uncorrectableWord 10) s).arr.jobs = [] ∧
    State.reset.power.seqRunning = false := by decide +kernel

/-- A page of an update that the bad word takes is answered VOIDED. -/
theorem test_uncorrectable_word_update :
    let s := writing .pageProgram (.arrWrite 5 8 [1, 2]) []
    s.sequencing = true ∧ (s.pol owner).replyQ.length < 8 ∧ ((after (.uncorrectableWord 10) s).pol 0).replyQ.map (fun r => r.status) = [.voided] := by
  decide +kernel

/-- The PLL loses lock, locks again, or fails three times. -/
theorem test_lock_lost :
    let h (n : Nat) : State := { live with clock := { live.clock with pllOn := false, hold := some { attempts := n, since := 0, voided := 0 } } }
    live.clock.pllOn = true ∧ live.clock.hold = none ∧ (after .lockLost live).clock.pllOn = false ∧ (h 0).clock.pllOn = false ∧
    (after (.relockAttemptEnd true) (h 2)).clock.hold = none ∧ (after (.relockAttemptEnd false) (h 1)).clock.hold.map (fun x => x.attempts) = some 2 ∧
    (after (.relockAttemptEnd false) (h 2)).restartCause = 4 := by decide +kernel

/-- A return whose PLL does not lock. -/
theorem test_return_relock :
    let r (n : Nat) : Returning := { doms := 1, step := .c, cause := .wake, relock := n }
    let s (n : Nat) : State := { powered (fun p => { p with ret := some (r n) }) with clock := { live.clock with pllOn := false } }
    (after (.relockAttemptEnd true) (s 0)).clock.pllOn = true ∧ (after (.relockAttemptEnd false) (s 1)).power.ret = some (r 2) ∧
    (after (.relockAttemptEnd false) (s 2)).restartCause = 4 := by decide +kernel

theorem test_watchdog :
    live.domOn 7 = true ∧ live.jtag.halted = false ∧ (after .watchdogExpiry live).restartCause = 5 ∧ State.reset.power.seqRunning = false := by decide +kernel

/-! ### Witnesses: the whole machine -/

/-- The front command runs on the queue's rest. -/
theorem test_step :
    let s : State := { live with pending := [.jtagIdcode, .tbUpdate] }
    (match step s with
     | .next t => t.pending == [.tbUpdate] && t.jtag.dataOut.length == 4
     | _ => false) = true ∧ live.pending = [] ∧ goesOn (step live) = true := by decide +kernel

theorem test_reset_stores : live.storesWf = true ∧ live.queuesWf = true ∧ goesOn (exec .tbUpdate live) = true := by decide +kernel

/-- One command of each group that leaves something alone, and a node where no SYS_RESET waits. -/
theorem test_frames :
    programsPages .tbUpdate = false ∧ programsPages .resetNAssert = true ∧ imagingEvent .slotEnd = true ∧ timeEvent .tbUpdate = true ∧
    supplyEvent .vauxTrip = true ∧ thermalEvent .throttlePauseEnd = true ∧ lineEvent (.wake (rx .wake)) = true ∧ (∀ x ∈ live.carries, x.why ≠ .sysReset) ∧
    withinRatings (.holdMeasure 18000 0) = true ∧ withinRatings (.holdMeasure 18001 0) = false ∧ Instr.lcTransitionExecute ≠ .tbUpdate := by decide +kernel

/-- A charter at the greatest values of its fields, with four areas. -/
def bigCharter : Charter :=
  { slots := 0xffff, zoneMask := 1, selection := { sections := 0x3f, rho := 255, areas := List.replicate 4 { zones := 1, th := 255, confirm := 255, holdSeconds := 65535 } },
    readQuota := 4294967295, bind := 0xf, idHash := 1, creationNo := 0 }

theorem test_charter_bytes : (Charter.encode 7 bigCharter).length = 254 ∧ Charter.decode (Charter.encode 7 bigCharter) = bigCharter := by decide +kernel

/-- A setting set at the greatest values of its fields. -/
theorem test_setting_bytes :
    let e : Expo := { Expo.initial with x0 := 65535, w := 65535, y0 := 65535, h := 65535, bin := 3, nexp := 3, phase := 3, lockDiv := 255, again := 255,
                                        eL := 4294967295, dM := 255, dS := 255, lockDelay := 4294967295 }
    e.aLock = 0 ∧ Expo.decode (Expo.encode e) = e := by decide +kernel

/-- A SEQ 32,768 away lies behind (R345); at the start there is nothing behind. -/
theorem test_nearest_esn :
    assignEsn 65536 32768 = 32768 ∧ assignEsn 65536 32767 = 98303 ∧ assignEsn 65536 65535 = 65535 ∧ assignEsn 0 65535 = 65535 := by decide +kernel

/-- A command that fails two checks is answered for the first; a reserved opcode is BAD_OPCODE. -/
theorem test_command_checks :
    let a : Assembly := { handle := 1, opcode := 0x50, parts := [], expired := false }
    let s (x : Assembly) : State := withOwner (fun q => { q with assembly := some x })
    live.servesNow (hostReq 0) = true ∧ (rowOf 0x21).any (fun sp => live.rowRefusal sp 0x21 (hostReq 0) [] == some .badLength) = true ∧
    (rowOf 0x61).any (fun sp => live.rowRefusal sp 0x61 (hostReq 0) [0x41, 0] == some .lifecycle) = true ∧
    (rowOf 0x00).any (fun sp => live.rowRefusal sp 0x00 (hostReq 0) [] == none) = true ∧
    ((s a).assemblyCheck ((s a).entryOf 0x00 (hostReq 0) [])).1 = some .badParam ∧
    ((s a).assemblyCheck ((s a).entryOf 0x50 (handled 1) [])).1 = none ∧
    ((s { a with expired := true }).assemblyCheck ((s a).entryOf 0x50 (handled 1) [])).1 = some .leaseExpired ∧
    (commandRows.all (fun x => x.1 != 0x04)) = true := by decide +kernel

/-- A command of a tenant that dissolves. -/
theorem test_command_of_dissolving :
    let g : Dissolution := { reason := 1, boundary := 32, goneCount := 0, lastFrame := 17, passed := false, issued := false, tb := Tb.zero }
    let s := shared.modPol 1 (fun q => { q with state := .dissolving, gone := some g })
    s.power.seqRunning = true ∧ s.power.accepting = true ∧ (tenantReq false).path ≠ .host ∧ s.polderGone 1 = false ∧
    (s.sessionKey 1 (tenantReq false).path).isSome = true ∧ s.queueClosed 1 = false ∧ s.sliceFree 1 = true ∧
    ((after (.timeGet (tenantReq false) []) s).pol 1).gone.map (fun x => x.goneCount) = some 1 := by decide +kernel

end Sys2Proof.Tests
end

section
/-! PROOFS. The calibration commands (chapter 12, R409 to R415): each command that runs is admitted, its own meaning on the state
once admitted is what it is on the state it came in, and the outcome takes its place. -/

namespace Sys2Proof.Machine

variable {s : State} {r : Req} {params : List Byte}

/-! ### Outcomes in their place -/

/-- A refusal on the state once admitted (R383, R419). -/
theorem settle_refuse (op : Byte) (st : Status) :
    settle (s.entryOf op r params) (refuse st (s.taken op r params)) = s.refuses op r params st :=
  settle_done s op r params _ id

/-- A finished command that only answers (R357). -/
theorem settle_doneOk (op : Byte) (results : List Byte) :
    settle (s.entryOf op r params) (doneOk results (s.taken op r params)) = s.finishes op r params (okWith results) id :=
  settle_done s op r params _ id

/-- A command that runs comes to the outcome of its own meaning, in the state once admitted (R349, R352, R355). -/
theorem exec_eq_of_runs {c : Instr} {sp : OpSpec} {t : State} (op : Byte) (own : QEntry → State → CmdOut) (hr : rowOf op = some sp)
    (hc : exec c s = .next (runCommand op (checked sp own) r params s)) (h : s.runs op r params = true)
    (ho : settle (s.entryOf op r params) (own (s.entryOf op r params) (s.taken op r params)) = t) : exec c s = .next t := by
  rw [hc, command_runs op sp own hr r params s h, ho]

/-! ### The statements -/

/-- Settles O21: each read answers from the converters' state, and admission leaves that state alone. -/
theorem calibrationReads : Obligations.CalibrationReads := by
  refine ⟨fun s r params h => ?colGet, fun s r params h => ?defectGet, fun s r params h => ?trimGet, fun s r params h => ?calRead⟩
  case colGet =>
    refine exec_eq_of_runs 0x84 ownColGet rfl rfl h ?_
    simp only [ownColGet, State.entryOf_params, State.taken_cols]
    generalize (byteAt params 0).toNat = half
    match half with
    | 0 | 1 => exact settle_doneOk 0x84 _
    | n + 2 =>
      rw [if_pos (by omega), if_neg (by omega), if_neg (by omega)]
      exact settle_refuse 0x84 _
  case defectGet =>
    refine exec_eq_of_runs 0x85 ownDefectGet rfl rfl h ?_
    simp only [ownDefectGet, State.entryOf_params, State.taken_cols, List.length_take, List.length_drop]
    exact settle_ite _ (settle_refuse 0x85 _) (settle_doneOk 0x85 _)
  case trimGet =>
    refine exec_eq_of_runs 0x86 ownTrimGet rfl rfl h ?_
    simp only [ownTrimGet, State.entryOf_params, State.taken_cols]
    exact settle_ite _ (settle_refuse 0x86 _) (settle_doneOk 0x86 _)
  case calRead =>
    refine exec_eq_of_runs 0x82 ownCalRead rfl rfl h ?_
    simp only [ownCalRead, State.entryOf_params, State.taken_cols, State.taken_scheduleShown]
    generalize (byteAt params 0).toNat = sel
    match sel with
    | 0 | 1 | 2 | 3 => exact settle_doneOk 0x82 _
    | n + 4 => exact settle_refuse 0x82 _

/-- Settles O22: the checks, the calibration slot and NEXT_DUE are read from what admission leaves alone, and each effect is on the
state once admitted; the write of CAL_SCHEDULE meets the refusals of R420 as they stood before admission. -/
theorem calibrationActions : Obligations.CalibrationActions := by
  refine ⟨fun s r params h => ?calRun, fun s r params h => ?calSchedule, fun s r params h => ?calClear⟩
  case calRun =>
    refine exec_eq_of_runs 0x80 ownCalRun rfl rfl h ?_
    simp only [ownCalRun, State.entryOf_params, State.taken_wheel, State.taken_cols, State.taken_nextSlotOf, State.taken_rampDue,
      Bool.not_eq_true']
    refine settle_ite _ (settle_refuse 0x80 _) (settle_ite _ (settle_refuse 0x80 _) (settle_ite _ (settle_refuse 0x80 _) ?_))
    simp only [← settle_done, State.taken_wheel, State.taken_cols]
  case calSchedule =>
    refine exec_eq_of_runs 0x81 ownCalSchedule rfl rfl h ?_
    simp only [ownCalSchedule, commitThen, State.entryOf_params, Polder.nextCharter_taken, State.taken_nextDue, State.taken_nextRevolution]
    exact settle_ite _ (settle_refuse 0x81 _)
      (settle_write s 0x81 r params _ _ id _ (s.taken_writeRefusal ..) (s.taken_blockUnderTest ..))
  case calClear => exact exec_eq_of_runs 0x83 ownCalClear rfl rfl h rfl

end Sys2Proof.Machine
end

section
/-! PROOFS. The self-test of the page buffer (R460, R618, R619) and the item writes that admission asks for (R349 step 11, R351,
R368): a BIST_RUN on another transport than the polder's delivery path makes an item write wait before its own checks run. -/

namespace Sys2Proof.Machine

variable {s : State} {r : Req} {params : List Byte}

/-! ### The item writes that wait -/

theorem replaceWaiting_ne_nil {v : ItemValue} {p : PolId} {l l' : List ItemWrite} (h : replaceWaiting v p l = some l') : l' ≠ [] := by
  rintro rfl
  cases l with
  | nil => cases h
  | cons w rest =>
    unfold replaceWaiting at h
    split at h
    · cases h
    · obtain ⟨l, -, h⟩ := Option.map_eq_some_iff.mp h
      cases h

/-- A requested item write waits, in place of an older one or behind the others (R549, R554). -/
theorem State.requestItem_writes_ne_nil (s : State) (p : PolId) (v : ItemValue) : (s.requestItem p v).arr.writes ≠ [] := by
  unfold State.requestItem
  cases h : replaceWaiting v p s.arr.writes with
  | none => simp
  | some l => exact replaceWaiting_ne_nil h

/-- A due reservation leaves the writes that wait, or adds its own (R365). -/
theorem State.reserveSeq_writes_ne_nil (p : PolId) (h : s.arr.writes ≠ []) : (s.reserveSeq p).arr.writes ≠ [] := by
  unfold State.reserveSeq
  dsimp only
  split
  · exact s.requestItem_writes_ne_nil p _
  · exact h

/-- Admission on another transport than the delivery path asks for the SEQ item (R368). -/
theorem State.taken_writes_ne_nil (op : Byte) (params : List Byte) (hl : s.lives r.pol = true) (hp : (s.pol r.pol).path ≠ some r.path) :
    (s.taken op r params).arr.writes ≠ [] := by
  have hmoved : (s.lives r.pol && (s.pol r.pol).path != some r.path) = true := by simp [hl, hp]
  simp only [State.taken, State.admitCommand, State.entryOf_req, hmoved, if_true]
  exact State.reserveSeq_writes_ne_nil _ (State.requestItem_writes_ne_nil _ _ _)

/-! ### The idle blocks and the domains of a self-test -/

/-- Outside RETURN the page buffer is not idle while an item write waits or runs (R619). -/
theorem State.blockIdle_nvmBuf (path : Path) (hr : s.life.shadow ≠ .ret) (hw : s.arr.writes ≠ []) : s.blockIdle path 10 = false := by
  simp [State.blockIdle, hr, hw]

@[simp] theorem State.taken_fullVoltage (s : State) (op : Byte) (r : Req) (params : List Byte) :
    (s.taken op r params).fullVoltage = s.fullVoltage := by
  funext n
  simp [State.fullVoltage]

/-! ### BIST_RUN of the page buffer -/

/-- The parameters of BIST_RUN for NVM_BUF alone, March C− (R460). -/
def nvmBufTest : List Byte := [0x00, 0x04, 0, 0]

/-- Its own SEQ item makes a self-test of the page buffer BUSY where the command moves the delivery path (R368, R618, R619). -/
theorem bistRun_nvmBuf_busy (h : s.runs 0x92 r nvmBufTest = true) (hpll : s.clock.pllOn = true) (hv : s.fullVoltage 11 = true)
    (hr : s.life.shadow ≠ .ret) (hl : s.lives r.pol = true) (hp : (s.pol r.pol).path ≠ some r.path) :
    exec (.bistRun r nvmBufTest) s = .next (s.refuses 0x92 r nvmBufTest .busy) := by
  have hblocks : blocksOf (BitVec.ofNat 16 (field nvmBufTest 0 2)) = [10] := by decide
  have hdoms : [blockDomain 10] = [11] := by decide
  have hbusy : (s.taken 0x92 r nvmBufTest).blockIdle r.path 10 = false :=
    State.blockIdle_nvmBuf r.path (by rwa [State.taken_life]) (State.taken_writes_ne_nil 0x92 nvmBufTest hl hp)
  refine exec_eq_of_runs 0x92 ownBistRun rfl rfl h ?_
  simp only [ownBistRun, State.entryOf_params, State.entryOf_req, State.taken_clock, State.taken_fullVoltage, hblocks, List.map_cons,
    List.map_nil, hdoms, ite_self, List.all_cons, List.all_nil, hpll, hv, hbusy]
  rw [if_neg (by decide), if_neg (by decide), if_pos (by simp)]
  exact settle_refuse 0x92 .busy

/-- A node in FIELD with every domain ON and its owner ACTIVE, whose last command came over the line. -/
def ownerOnLine : State :=
  { State.reset with
    power := { Power.initial with seqRunning := true, accepting := true, discoveryOver := true, doms := Vector.replicate 12 .on }
    holdup := { Holdup.initial with low := false }
    life := { State.reset.life with shadow := .field }
    pols := (Vector.replicate 8 Polder.none).set 0
      { Polder.none with state := .active, key := 1, charter := { Charter.none with slots := 0x1111, zoneMask := 1 }, path := some (.line 5) } }

/-- The owner's next command, over the host port. -/
def ownerByHost : Req := { pol := owner, more := false, handle := 0, path := .host }

/-- The replies that wait for the owner, by status. -/
def ownerStatuses : Host.Outcome State Fault Refusal → List Status
  | .next t => (t.pol owner).replyQ.map Reply.status
  | _ => []

/-- Refutes O33: BIST_RUN judges the blocks idle in the state once admitted, the statement in the state before admission. On
`ownerOnLine` no item write waits, so the statement says ACCEPTED for NVM_BUF; the command comes over the host port, its admission asks
for the SEQ item with the new delivery path (R368), and the answer is BUSY. -/
theorem not_lifecycleReadsAndSelfTest : ¬ Obligations.LifecycleReadsAndSelfTest := by
  rintro ⟨-, -, hbist, -⟩
  have hruns : ownerOnLine.runs 0x92 ownerByHost nvmBufTest = true := by decide +kernel
  have hbusy : exec (.bistRun ownerByHost nvmBufTest) ownerOnLine = .next (ownerOnLine.refuses 0x92 ownerByHost nvmBufTest .busy) :=
    bistRun_nvmBuf_busy hruns (by decide +kernel) (by decide +kernel) (by decide +kernel) (by decide +kernel) (by decide +kernel)
  have hstated := congrArg ownerStatuses (hbusy.symm.trans (hbist ownerOnLine ownerByHost nvmBufTest hruns))
  revert hstated
  decide +kernel

end Sys2Proof.Machine
end

section
/-! PROOFS. What every step keeps: the stores in canonical form, the polder queues within their bounds, the fuses. Each command keeps what its
own law says (Laws/Held*.lean), and a step is the command at the front of the queue. -/

namespace Sys2Proof.Machine

variable {F : FuseBlock} {A B : Prop} {s t : State}

/-- Every command but LC_TRANSITION_EXECUTE keeps the fuses, the stores and the queues. -/
theorem exec_held (c : Instr) (hc : c ≠ .lcTransitionExecute) (h : Held F A B s) : HeldOut F A B (exec c s) := by
  match c with
  | .timeGet r params => exact execTimeGet_held r params s h
  | .timeSet r params => exact execTimeSet_held r params s h
  | .timeSlew r params => exact execTimeSlew_held r params s h
  | .tcmpArm r params => exact execTcmpArm_held r params s h
  | .expoSet r params => exact execExpoSet_held r params s h
  | .expoGet r params => exact execExpoGet_held r params s h
  | .trigFire r params => exact execTrigFire_held r params s h
  | .trigRead r params => exact execTrigRead_held r params s h
  | .syncGet r params => exact execSyncGet_held r params s h
  | .periodSet r params => exact execPeriodSet_held r params s h
  | .wheelGet r params => exact execWheelGet_held r params s h
  | .statSelect r params => exact execStatSelect_held r params s h
  | .statGet r params => exact execStatGet_held r params s h
  | .occGet r params => exact execOccGet_held r params s h
  | .motionRebase r params => exact execMotionRebase_held r params s h
  | .calRun r params => exact execCalRun_held r params s h
  | .calSchedule r params => exact execCalSchedule_held r params s h
  | .calRead r params => exact execCalRead_held r params s h
  | .calClear r params => exact execCalClear_held r params s h
  | .colGet r params => exact execColGet_held r params s h
  | .defectGet r params => exact execDefectGet_held r params s h
  | .trimGet r params => exact execTrimGet_held r params s h
  | .sysInfo r params => exact execSysInfo_held r params s h
  | .sysCounters r params => exact execSysCounters_held r params s h
  | .attestGet r params => exact execAttestGet_held r params s h
  | .sysReset r params => exact execSysReset_held r params s h
  | .pwrSet r params => exact execPwrSet_held r params s h
  | .pstateSet r params => exact execPstateSet_held r params s h
  | .pwrGet r params => exact execPwrGet_held r params s h
  | .refusalRead r params => exact execRefusalRead_held r params s h
  | .refusalClear r params => exact execRefusalClear_held r params s h
  | .poldCreate r params => exact execPoldCreate_held r params s h
  | .poldOffer r params => exact execPoldOffer_held r params s h
  | .poldAnswer r params => exact execPoldAnswer_held r params s h
  | .poldDissolve r params => exact execPoldDissolve_held r params s h
  | .poldStatus r params => exact execPoldStatus_held r params s h
  | .poldCharter r params => exact execPoldCharter_held r params s h
  | .fabRead r params => exact execFabRead_held r params s h
  | .fabAddrSet r params => exact execFabAddrSet_held r params s h
  | .fabKeySet r params => exact execFabKeySet_held r params s h
  | .fabRankSet r params => exact execFabRankSet_held r params s h
  | .roleSwap r params => exact execRoleSwap_held r params s h
  | .fabRoutes r params => exact execFabRoutes_held r params s h
  | .fabPeriodSrc r params => exact execFabPeriodSrc_held r params s h
  | .fabPeriodSet r params => exact execFabPeriodSet_held r params s h
  | .arrOpen r params => exact execArrOpen_held r params s h
  | .arrWrite r params => exact execArrWrite_held r params s h
  | .arrCommit r params => exact execArrCommit_held r params s h
  | .arrAbort r params => exact execArrAbort_held r params s h
  | .arrRead r params => exact execArrRead_held r params s h
  | .arrInfo r params => exact execArrInfo_held r params s h
  | .fwActivate r params => exact execFwActivate_held r params s h
  | .lcGet r params => exact execLcGet_held r params s h
  | .lcAdvance r params => exact execLcAdvance_held r params s h
  | .bistRun r params => exact execBistRun_held r params s h
  | .bistRead r params => exact execBistRead_held r params s h
  | .thermGet r params => exact execThermGet_held r params s h
  | .pixPort r params => exact execPixPort_held r params s h
  | .daliCfg r params => exact execDaliCfg_held r params s h
  | .daliGet r params => exact execDaliGet_held r params s h
  | .packetArrival pk => exact execPacketArrival_held pk s h
  | .serviceSlice p => exact execServiceSlice_held p s h
  | .assemblyTimeout p => exact execAssemblyTimeout_held p s h
  | .answerHoldExpiry p => exact execAnswerHoldExpiry_held p s h
  | .offerGenerate p => exact execOfferGenerate_held p s h
  | .keyAgreementTimeout => exact execKeyAgreementTimeout_held s h
  | .polderErase p => exact execPolderErase_held p s h
  | .tbUpdate => exact execTbUpdate_held s h
  | .tcmpFire ch => exact execTcmpFire_held ch s h
  | .timeSetLoad => exact execTimeSetLoad_held s h
  | .slewAdjust => exact execSlewAdjust_held s h
  | .timeSubRead => exact execTimeSubRead_held s h
  | .wheelSlotStart => exact execWheelSlotStart_held s h
  | .exposureStart => exact execExposureStart_held s h
  | .triggerDeadline => exact execTriggerDeadline_held s h
  | .blankIntervalCheck conv trim => exact execBlankIntervalCheck_held conv trim s h
  | .rowRead columns spares => exact execRowRead_held columns spares s h
  | .slotEnd => exact execSlotEnd_held s h
  | .recordLeavesFork => exact execRecordLeavesFork_held s h
  | .recordEntersDelivery => exact execRecordEntersDelivery_held s h
  | .trigInEdge => exact execTrigInEdge_held s h
  | .trigRefractoryEnd => exact execTrigRefractoryEnd_held s h
  | .syncInEdge => exact execSyncInEdge_held s h
  | .syncPeriodMissing => exact execSyncPeriodMissing_held s h
  | .commissionNRise => exact execCommissionNRise_held s h
  | .calRampDone intervalsA intervalsB => exact execCalRampDone_held intervalsA intervalsB s h
  | .calColumnsDone meas => exact execCalColumnsDone_held meas s h
  | .calLeaseExpired => exact execCalLeaseExpired_held s h
  | .qualityRecompute => exact execQualityRecompute_held s h
  | .linePowerGood => exact execLinePowerGood_held s h
  | .linePowerLost => exact execLinePowerLost_held s h
  | .powerDownReset => exact execPowerDownReset_held s h
  | .portPresenceChange port millivolts => exact execPortPresenceChange_held port millivolts s h
  | .aonReady straps vioPresent => exact execAonReady_held straps vioPresent s h
  | .firmwareStart f => exact execFirmwareStart_held f s h
  | .commandsAcceptedStart => exact execCommandsAcceptedStart_held s h
  | .discoveryWindowEnd => exact execDiscoveryWindowEnd_held s h
  | .holdMeasure millivolts chargeMicroamps => exact execHoldMeasure_held millivolts chargeMicroamps s h
  | .pulseTest fallMillivolts => exact execPulseTest_held fallMillivolts s h
  | .holdupDeadline => exact execHoldupDeadline_held s h
  | .vauxTrip => exact execVauxTrip_held s h
  | .vauxRetry limiting => exact execVauxRetry_held limiting s h
  | .vioLost => exact execVioLost_held s h
  | .vioRestored => exact execVioRestored_held s h
  | .resetNAssert => exact execResetNAssert_held s h
  | .resetNRelease straps vioPresent => exact execResetNRelease_held straps vioPresent s h
  | .powerEntryStep => exact execPowerEntryStep_held s h
  | .returnStepReady => exact execReturnStepReady_held s h
  | .replyCarriedTimeout => exact execReplyCarriedTimeout_held s h
  | .opPointVoltageReady domain => exact execOpPointVoltageReady_held domain s h
  | .wakeEvent => exact execWakeEvent_held s h
  | .wakeMatch port target => exact execWakeMatch_held port target s h
  | .i2cAddrMatch addr => exact execI2cAddrMatch_held addr s h
  | .wakeNFall => exact execWakeNFall_held s h
  | .dataSlotTx port => exact execDataSlotTx_held port s h
  | .beaconTx => exact execBeaconTx_held s h
  | .contentionTx port collided => exact execContentionTx_held port collided s h
  | .ack f => exact execAck_held f s h
  | .data f => exact execData_held f s h
  | .beacon f => exact execBeacon_held f s h
  | .wake f => exact execWake_held f s h
  | .join f => exact execJoin_held f s h
  | .discover f => exact execDiscover_held f s h
  | .route f => exact execRoute_held f s h
  | .drain f => exact execDrain_held f s h
  | .drainDone f => exact execDrainDone_held f s h
  | .rangeReq f roundTrip => exact execRangeReq_held f roundTrip s h
  | .rangeEcho f => exact execRangeEcho_held f s h
  | .swapReq f => exact execSwapReq_held f s h
  | .swapReady f => exact execSwapReady_held f s h
  | .swapNot f => exact execSwapNot_held f s h
  | .swapDone f => exact execSwapDone_held f s h
  | .lineFrameBad f => exact execLineFrameBad_held f s h
  | .beaconMissed port => exact execBeaconMissed_held port s h
  | .reevePresumedLost port => exact execReevePresumedLost_held port s h
  | .electionDelayExpired collided => exact execElectionDelayExpired_held collided s h
  | .routeAdvertTimer => exact execRouteAdvertTimer_held s h
  | .routeLapse segment => exact execRouteLapse_held segment s h
  | .holdbackExpired port segment => exact execHoldbackExpired_held port segment s h
  | .fwdFrameTimeout port => exact execFwdFrameTimeout_held port s h
  | .flowStateExpiry port src dst pol => exact execFlowStateExpiry_held port src dst pol s h
  | .rangeReqTimer => exact execRangeReqTimer_held s h
  | .joinRetryTimer => exact execJoinRetryTimer_held s h
  | .slotConflictRetry => exact execSlotConflictRetry_held s h
  | .roleSwapTimeout => exact execRoleSwapTimeout_held s h
  | .txfifo bus bytes ends => exact execTxfifo_held bus bytes ends s h
  | .txfifoPacketToIntake => exact execTxfifoPacketToIntake_held s h
  | .rxfifo bus bytes ends => exact execRxfifo_held bus bytes ends s h
  | .rxfifoEnqueue => exact execRxfifoEnqueue_held s h
  | .irqFlags w => exact execIrqFlags_held w s h
  | .hostRegisterWrite bus header read bytes ends => exact execHostRegisterWrite_held bus header read bytes ends s h
  | .daliFrameReceive f => exact execDaliFrameReceive_held f s h
  | .daliBusPowerLost => exact execDaliBusPowerLost_held s h
  | .thermalModelRun m => exact execThermalModelRun_held m s h
  | .throttleDecisionStopped => exact execThrottleDecisionStopped_held s h
  | .throttlePauseEnd => exact execThrottlePauseEnd_held s h
  | .pageProgramComplete verified pulses => exact execPageProgramComplete_held verified pulses s h
  | .itemWriteStart p => exact execItemWriteStart_held p s h
  | .arrayLeaseExpired handle => exact execArrayLeaseExpired_held handle s h
  | .logPageTimer => exact execLogPageTimer_held s h
  | .lcTransitionExecute => exact absurd rfl hc
  | .bistStart => exact execBistStart_held s h
  | .bistBlockDone failed => exact execBistBlockDone_held failed s h
  | .jtagExtest outputs => exact execJtagExtest_held outputs s h
  | .jtagIdcode => exact execJtagIdcode_held s h
  | .jtagSamplePreload lands => exact execJtagSamplePreload_held lands s h
  | .jtagDebug a => exact execJtagDebug_held a s h
  | .jtagArray a => exact execJtagArray_held a s h
  | .jtagMbist blocks failed => exact execJtagMbist_held blocks failed s h
  | .jtagScan => exact execJtagScan_held s h
  | .jtagRelease => exact execJtagRelease_held s h
  | .jtagBypass code => exact execJtagBypass_held code s h
  | .dataFault parity block lane inReference => exact execDataFault_held parity block lane inReference s h
  | .uncorrectableWord block => exact execUncorrectableWord_held block s h
  | .lockLost => exact execLockLost_held s h
  | .relockAttemptEnd locked => exact execRelockAttemptEnd_held locked s h
  | .watchdogExpiry => exact execWatchdogExpiry_held s h
  | .daliBusPowerRestored => exact execDaliBusPowerRestored_held s h
  | .daliReportTimer inst => exact execDaliReportTimer_held inst s h
  | .daliEventSend collided => exact execDaliEventSend_held collided s h
  | .trstNAssert => exact execTrstNAssert_held s h

/-- A fuse block is what it was, or more of it is blown. -/
theorem FuseBlock.onlyBlows_refl (F : FuseBlock) : F.onlyBlows F = true := by simp [FuseBlock.onlyBlows]

/-- Every command blows fuses at most, and keeps the stores and the queues. -/
theorem exec_held_blown (c : Instr) (h : Held F A B s) : ∃ G, F.onlyBlows G = true ∧ HeldOut G A B (exec c s) := by
  by_cases hc : c = .lcTransitionExecute
  · subst hc
    exact execLcTransitionExecute_held s h
  · exact ⟨F, F.onlyBlows_refl, exec_held c hc h⟩

/-- A step does what some command does, on a state of which `Held` reads the same. -/
theorem step_held (h : Held F A B s) (hst : step s = .next t) : ∃ G, F.onlyBlows G = true ∧ Held G A B t := by
  unfold step at hst
  split at hst
  · cases hst
    exact ⟨F, F.onlyBlows_refl, h⟩
  · next c rest hp =>
    have hpend : Held F A B { s with pending := rest } := held_same h rfl ⟨rfl, rfl, rfl, rfl⟩ ⟨rfl, rfl, rfl, rfl, rfl⟩ rfl
    obtain ⟨G, hG, ho⟩ := exec_held_blown c hpend
    rw [hst] at ho
    exact ⟨G, hG, ho⟩

/-- Settles O3: each command keeps the stores in canonical form. -/
theorem stepKeepsStores : Obligations.StepKeepsStores := fun s _ hs hst =>
  have ⟨_, _, h⟩ := step_held (A := True) (B := False) (s := s) ⟨rfl, fun _ => hs, False.elim⟩ hst
  h.stores trivial

/-- Settles O4: each command keeps the queues of every polder within their bounds. -/
theorem stepKeepsQueues : Obligations.StepKeepsQueues := fun s _ hs hst =>
  have ⟨_, _, h⟩ := step_held (A := False) (B := True) (s := s) ⟨rfl, False.elim, fun _ => hs⟩ hst
  h.queues trivial

/-- Settles O5: LC_TRANSITION_EXECUTE blows at most, and no other command touches the fuse block. -/
theorem fusesOnlyBlow : Obligations.FusesOnlyBlow := by
  refine ⟨fun s t hst => ?_, fun s t c hc he => ?_⟩
  · obtain ⟨G, hG, h⟩ := step_held (A := False) (B := False) (s := s) ⟨rfl, False.elim, False.elim⟩ hst
    rwa [h.fuses]
  · have h := exec_held (A := False) (B := False) (F := s.fuses) c hc ⟨rfl, False.elim, False.elim⟩
    rw [he] at h
    exact h.fuses

/-! ### The step, the reset state and the ratings -/

/-- Settles O1: by the definition of a step, case by case of the queue. -/
theorem stepTakesFront : Obligations.StepTakesFront :=
  ⟨fun s c rest h => by simp [step, h], fun s h => by simp [step, h]⟩

/-- Settles O2: the state at reset, evaluated. -/
theorem resetState : Obligations.ResetState :=
  ⟨by decide +kernel, by decide +kernel, fun p => by simp [State.reset, State.pol], rfl, rfl, rfl, rfl, rfl⟩

/-- Settles O9: only PORT_PRESENCE_CHANGE and HOLD_MEASURE can stop, each where its voltage is beyond its rating. -/
theorem withinRatingsGoesOn : Obligations.WithinRatingsGoesOn := by
  refine ⟨fun c s h => ?_, fun c s h => ?_⟩
  · cases c
    case portPresenceChange port mv =>
      have hmv : ¬ 56000 < mv := by simpa [withinRatings] using h
      exact ⟨_, if_neg hmv⟩
    case holdMeasure mv current =>
      have hmv : ¬ 18000 < mv := by simpa [withinRatings] using h
      exact ⟨_, if_neg hmv⟩
    case serviceSlice p =>
      show ∃ t, execServiceSlice p s = .next t
      unfold execServiceSlice
      split <;> exact ⟨_, rfl⟩
    all_goals exact ⟨_, rfl⟩
  · cases c
    case portPresenceChange port mv => exact if_pos (by simpa [withinRatings] using h)
    case holdMeasure mv current => exact if_pos (by simpa [withinRatings] using h)
    all_goals cases h

/-- Settles O12: the distance from NEXT_ADMIT up to the next number with these low 16 bits is below 65,536, so the nearest is that one or the
one 65,536 before it. -/
theorem nearestEsn : Obligations.NearestEsn := by
  intro next seq
  have hd : (seq - BitVec.ofNat 16 next).toNat = (65536 - next % 65536 + seq.toNat) % 65536 := by
    simp [BitVec.toNat_sub, BitVec.toNat_ofNat]
  have hs : seq.toNat < 65536 := seq.isLt
  simp only [assignEsn, hd]
  refine ⟨?_, fun m hm => ⟨?_, fun htie => ?_⟩⟩ <;> split_ifs at * <;> omega

end Sys2Proof.Machine
end

section
/-! PROOFS. Layouts read back: the 24 bytes of a setting set (R390) and the canonical bytes of a charter (R430). A field behind a prefix is
read behind it, and a field at the start is the value written there. -/

namespace Sys2Proof.Machine

/-! ### Fields of a layout (R9) -/

/-- A field behind a prefix (R9). -/
theorem field_append_ge (l rest : List Byte) (off n : Nat) (h : l.length ≤ off) :
    field (l ++ rest) off n = field rest (off - l.length) n := by
  rw [field, List.drop_append, List.drop_eq_nil_of_le h, List.nil_append, field]

/-- A byte behind a prefix. -/
theorem byteAt_append_ge (l rest : List Byte) (i : Nat) (h : l.length ≤ i) : byteAt (l ++ rest) i = byteAt rest (i - l.length) := by
  simp [byteAt, List.getElem?_append_right h]

/-- A value at the start of a layout is the field there (R9). -/
theorem field_leBytes_append (n v : Nat) (rest : List Byte) : field (leBytes n v ++ rest) 0 n = v % 256 ^ n := by
  rw [field, List.drop_zero, List.take_left' (leBytes_length n v), leNat_leBytes]

/-- The same at the end of a layout. -/
theorem field_leBytes (n v : Nat) : field (leBytes n v) 0 n = v % 256 ^ n := by
  simpa using field_leBytes_append n v []

/-- The byte at the start of a layout. -/
theorem byteAt_leBytes_append (v : Nat) (rest : List Byte) : byteAt (leBytes 1 v ++ rest) 0 = BitVec.ofNat 8 v := rfl

/-- Bit i of a number is a digit of it. -/
theorem bit_eq_decide (v i : Nat) : bit v i = decide (v / 2 ^ i % 2 = 1) := Nat.testBit_eq_decide_div_mod_eq

/-- The byte of BIN, DEPTH, NEXP and TRIG of R390, split into its digits. -/
theorem exposureByte_digits {bin nexp : Nat} (depth10 triggered : Bool) (hbin : bin < 4) (hnexp : nexp < 4) :
    let v := (bin + 4 * b2n depth10 + 8 * nexp + 32 * b2n triggered) % 256
    bits v 1 0 = bin ∧ bit v 2 = depth10 ∧ bits v 4 3 = nexp ∧ bit v 5 = triggered := by
  cases depth10 <;> cases triggered <;> simp only [bits, bit_eq_decide, b2n, decide_eq_true_eq, decide_eq_false_iff_not, if_true, if_false,
    Bool.false_eq_true] <;> omega

/-- The byte of the trigger sources, the lock source and the phase of R390, split into its digits. -/
theorem lockByte_digits {phase : Nat} (a b c : Bool) (lock : LockSrc) (hphase : phase < 4) :
    let v := (b2n a + 2 * b2n b + 4 * b2n c + 8 * lock.code + 32 * phase) % 256
    bit v 0 = a ∧ bit v 1 = b ∧ bit v 2 = c ∧ bits v 4 3 = lock.code ∧ bits v 6 5 = phase := by
  cases a <;> cases b <;> cases c <;> cases lock <;> simp only [bits, bit_eq_decide, b2n, LockSrc.code, decide_eq_true_eq,
    decide_eq_false_iff_not, if_true, if_false, Bool.false_eq_true] <;> omega

theorem LockSrc.ofCode_code (l : LockSrc) : LockSrc.ofCode l.code = l := by cases l <;> rfl

/-- Settles O11: each field is read where it was written, and the packed bytes are split by their digits. -/
theorem settingRoundTrip : Obligations.SettingRoundTrip := by
  rintro ⟨x0, w, y0, h, bin, depth10, nexp, triggered, srcTrigIn, srcCompare, srcCommand, lock, phase, lockDiv, again, eL, dM, dS, lockDelay, aLock⟩
    hx0 hw hy0 hh hbin hnexp hphase hdiv hagain heL hdM hdS hdelay halock
  dsimp only at *
  subst halock
  obtain ⟨h1, h2, h3, h4⟩ := exposureByte_digits depth10 triggered hbin hnexp
  obtain ⟨h5, h6, h7, h8, h9⟩ := lockByte_digits srcTrigIn srcCompare srcCommand lock hphase
  refine ⟨by simp [Expo.encode], ?_⟩
  simp only [Expo.encode, Expo.decode, List.append_assoc]
  simp [field_append_ge, byteAt_append_ge, field_leBytes_append, field_leBytes, byteAt_leBytes_append, Nat.mod_eq_of_lt, LockSrc.ofCode_code, *]

/-! ### Charters (R430) -/

/-- Eight bits a byte. -/
theorem two_pow_le_bytes {n k : Nat} (h : n ≤ 8 * k) : 2 ^ n ≤ 256 ^ k :=
  (Nat.pow_le_pow_right (by decide) h).trans_eq (pow_mul 2 8 k)

/-- A word that fits the bytes it is written in keeps its value. -/
theorem toNat_mod_bytes {n k : Nat} (x : BitVec n) (h : n ≤ 8 * k) : x.toNat % 256 ^ k = x.toNat :=
  Nat.mod_eq_of_lt (x.isLt.trans_le (two_pow_le_bytes h))

/-- A word that fits the bytes it is written in is read back. -/
theorem ofNat_toNat_mod {n k : Nat} (x : BitVec n) (h : n ≤ 8 * k) : BitVec.ofNat n (x.toNat % 256 ^ k) = x := by
  rw [toNat_mod_bytes x h, BitVec.ofNat_toNat, BitVec.setWidth_eq]

theorem areaEntry_length (o : Option Area) : (areaEntry o).length = 4 := by cases o <;> simp [areaEntry]

theorem Selection.head_length (sel : Selection) : sel.head.length = 20 := by simp [Selection.head, areaEntry_length]

/-- The maps of a charter's areas take 38 bytes each (R430). -/
theorem zoneMaps_length (areas : List Area) : ((areas.map (fun a => zoneBytes a.zones)).flatten).length = 38 * areas.length := by
  induction areas with
  | nil => rfl
  | cons a areas ih => 
    rw [List.map_cons, List.flatten_cons, List.length_append, ih, zoneBytes, leBytes_length, List.length_cons]
    omega

/-- The map of area a stands behind those of the areas before it (R430). -/
theorem field_zoneMaps (areas : List Area) (a : Nat) (ha : a < areas.length) :
    field ((areas.map (fun a => zoneBytes a.zones)).flatten) (38 * a) 38 = areas[a].zones.toNat := by
  induction areas generalizing a with
  | nil => simp at ha
  | cons x areas ih =>
    cases a with
    | zero =>
      simp only [List.map_cons, List.flatten_cons, zoneBytes, Nat.mul_zero, field_leBytes_append, List.getElem_cons_zero]
      exact toNat_mod_bytes _ (by decide)
    | succ a =>
      rw [List.map_cons, List.flatten_cons, field_append_ge _ _ _ _ (by simp only [zoneBytes, leBytes_length]; omega)]
      simpa [zoneBytes, Nat.mul_succ] using ih a (by simpa using ha)

/-- Entry a of a selection head is area a without its map (R403). -/
theorem headArea_head (sel : Selection) (rest : List Byte) (hlen : sel.areas.length ≤ 4) (a : Nat) (ha : a < sel.areas.length)
    (hth : sel.areas[a].th < 256) (hconfirm : sel.areas[a].confirm < 256) (hhold : sel.areas[a].holdSeconds < 65536) :
    headArea (sel.head ++ rest) a = { sel.areas[a] with zones := 0 } := by
  have ha4 : a < 4 := by omega
  have hsome : sel.areas[a]? = some sel.areas[a] := List.getElem?_eq_getElem ha
  generalize sel.areas[a] = x at *
  match a, ha4 with
  | 0, _ | 1, _ | 2, _ | 3, _ =>
    simp only [headArea, Selection.head, hsome, List.append_assoc]
    simp [areaEntry.eq_1, areaEntry_length, field_append_ge, field_leBytes_append, Nat.mod_eq_of_lt, *]

/-- A head and the maps of its areas give the selection back (R403). -/
theorem selectionOf_head (sel : Selection) (rest : List Byte) (maps : List (BitVec 300)) (hrho : sel.rho < 256) (hlen : sel.areas.length ≤ 4)
    (hareas : ∀ a ∈ sel.areas, a.th < 256 ∧ a.confirm < 256 ∧ a.holdSeconds < 65536) (hmaps : maps = sel.areas.map Area.zones) :
    selectionOf (sel.head ++ rest) maps = sel := by
  have hcount : (byteAt (sel.head ++ rest) 3).toNat = sel.areas.length := by
    simp [Selection.head, byteAt_append_ge, byteAt_leBytes_append]
    omega
  have hsections : byteAt (sel.head ++ rest) 1 = BitVec.ofNat 8 sel.sections.toNat := by
    simp [Selection.head, byteAt_append_ge, byteAt_leBytes_append]
  have hrate : (byteAt (sel.head ++ rest) 2).toNat = sel.rho := by
    simp [Selection.head, byteAt_append_ge, byteAt_leBytes_append]
    omega
  have hlist : (List.range sel.areas.length).map (fun a => { headArea (sel.head ++ rest) a with zones := maps.getD a 0 }) = sel.areas := by
    refine List.ext_getElem (by simp) fun a _ ha => ?_
    obtain ⟨hth, hconfirm, hhold⟩ := hareas _ (List.getElem_mem ha)
    simp [headArea_head sel rest hlen a ha hth hconfirm hhold, hmaps, ha]
  have hbits : BitVec.ofNat 6 (BitVec.ofNat 8 sel.sections.toNat).toNat = sel.sections := by
    have := sel.sections.isLt
    apply BitVec.eq_of_toNat_eq
    simp only [BitVec.toNat_ofNat]
    omega
  rw [selectionOf, hcount, hsections, hrate, hlist, hbits]

/-- What stands in a charter's bytes ahead of its selection, 82 bytes (R430). -/
def Charter.encodeFields (p : Nat) (c : Charter) : List Byte :=
  leBytes 1 p ++ leBytes 1 c.bind.toNat ++ leBytes 2 c.slots.toNat ++ leBytes 4 c.readQuota ++ leBytes 4 c.creationNo.toNat ++
  leBytes 32 c.idHash.toNat ++ leBytes 38 c.zoneMask.toNat

theorem Charter.encodeFields_length (p : Nat) (c : Charter) : (c.encodeFields p).length = 82 := by simp [Charter.encodeFields]

theorem Charter.encode_eq (p : Nat) (c : Charter) :
    c.encode p = c.encodeFields p ++ (c.selection.head ++ (c.selection.areas.map (fun a => zoneBytes a.zones)).flatten) := by
  simp only [Charter.encode, Charter.encodeFields, List.append_assoc]

/-- The maps at the end of a charter's bytes give the areas' zones back (R430). -/
theorem Charter.encode_maps (p : Nat) (c : Charter) :
    (List.range c.selection.areas.length).map (fun a => BitVec.ofNat 300 (field (c.encode p) (102 + 38 * a) 38)) =
      c.selection.areas.map Area.zones := by
  refine List.ext_getElem (by simp) fun a _ ha => ?_
  have ha : a < c.selection.areas.length := by simpa using ha
  have hfield : field (c.encode p) (102 + 38 * a) 38 = c.selection.areas[a].zones.toNat := by
    rw [Charter.encode_eq, field_append_ge _ _ _ _ (by rw [Charter.encodeFields_length]; omega),
      field_append_ge _ _ _ _ (by rw [Charter.encodeFields_length, Selection.head_length]; omega), Charter.encodeFields_length,
      Selection.head_length, show 102 + 38 * a - 82 - 20 = 38 * a by omega, field_zoneMaps _ _ ha]
  rw [List.getElem_map, List.getElem_map, List.getElem_range, hfield, BitVec.ofNat_toNat, BitVec.setWidth_eq]

/-- The fields ahead of the selection are read where they were written (R430). -/
theorem Charter.encode_fields (p : Nat) (c : Charter) (hquota : c.readQuota < 4294967296) :
    BitVec.ofNat 16 (field (c.encode p) 2 2) = c.slots ∧ BitVec.ofNat 300 (field (c.encode p) 44 38) = c.zoneMask ∧
    field (c.encode p) 4 4 = c.readQuota ∧ BitVec.ofNat 4 (byteAt (c.encode p) 1).toNat = c.bind ∧
    BitVec.ofNat 256 (field (c.encode p) 12 32) = c.idHash := by
  simp only [Charter.encode_eq, Charter.encodeFields, List.append_assoc]
  simp only [field_append_ge, byteAt_append_ge, field_leBytes_append, byteAt_leBytes_append, leBytes_length, Nat.reduceLeDiff, Nat.reduceSub,
    BitVec.toNat_ofNat]
  exact ⟨ofNat_toNat_mod _ (by decide), ofNat_toNat_mod _ (by decide), Nat.mod_eq_of_lt hquota, ofNat_toNat_mod (k := 1) _ (by decide),
    ofNat_toNat_mod _ (by decide)⟩

/-- Settles O10: each field is read where it was written, the selection from its head and the maps behind it. -/
theorem charterRoundTrip : Obligations.CharterRoundTrip := by
  intro p c hquota hrho hlen hareas
  have hlength : (Charter.encode p.val c).length = 102 + 38 * c.selection.areas.length := by
    rw [Charter.encode_eq, List.length_append, List.length_append, Charter.encodeFields_length, Selection.head_length, zoneMaps_length]
    omega
  refine ⟨hlength, rfl, ?_⟩
  obtain ⟨hslots, hmask, hread, hbind, hhash⟩ := c.encode_fields p.val hquota
  have hhead : (Charter.encode p.val c).drop 82 = c.selection.head ++ (c.selection.areas.map (fun a => zoneBytes a.zones)).flatten := by
    rw [Charter.encode_eq, List.drop_left' (Charter.encodeFields_length ..)]
  have hcount : (byteAt ((Charter.encode p.val c).drop 82) 3).toNat = c.selection.areas.length := by
    rw [hhead]
    simp [Selection.head, byteAt_append_ge, byteAt_leBytes_append]
    omega
  rw [Charter.decode, hslots, hmask, hread, hbind, hhash, hcount, Charter.encode_maps, hhead, selectionOf_head _ _ _ hrho hlen hareas rfl]
end Sys2Proof.Machine
end

section
/-! PROOFS. The commands of sensing (chapter 12): time, exposure, triggers, statistics. Each command that runs is admitted, and its own
meaning on the state once admitted is what it is on the state it came in. -/

namespace Sys2Proof.Machine

variable {s : State} {r : Req} {params : List Byte}

/-- A finished command with its effect, named by the state it leaves (R357, R358). -/
theorem settle_finish {op : Byte} {a : Answer} (g : State → State) {u : State} (hu : u = g (s.taken op r params)) :
    settle (s.entryOf op r params) (.done a u) = s.finishes op r params a g := by rw [hu]; rfl

/-- A command that holds its queue, named by the state it leaves (R353). -/
theorem settle_holding {op : Byte} {rule : HoldRule} {a : Option Answer} (g : State → State) {u : State} (hu : u = g (s.taken op r params)) :
    settle (s.entryOf op r params) (.hold rule a u) = s.holds op r params rule a g := by rw [hu]; rfl

@[simp] theorem State.taken_fabricItem (s : State) (op : Byte) (r : Req) (params : List Byte) :
    (s.taken op r params).arr.fabric = s.arr.fabric := by
  obtain ⟨w, h⟩ := s.taken_arr op r params; rw [h]

/-- Two changes of one polder, one after the other. -/
theorem State.modPol_modPol (s : State) (p : PolId) (f g : Polder → Polder) :
    (s.modPol p f).modPol p g = s.modPol p (fun q => g (f q)) := by
  simp [State.modPol]

/-! ### What every finished command leaves (R349, R352, R362) -/

/-- Settles O13: admission moves NEXT_ADMIT and the path on, and the reply is formed from the entry of the command. -/
theorem finishedCommandFrame : Obligations.FinishedCommandFrame := by
  intro s op r params a h
  obtain ⟨w, hw⟩ := s.taken_eq op r params
  have hkey : (s.sessionKey r.pol r.path).isSome = true := by
    simp only [State.servesNow, Bool.and_eq_true] at h
    exact h.1.1.1.2
  refine ⟨replyOf r.pol (s.entryOf op r params) a s, w, rfl, rfl, rfl, rfl, rfl, rfl, rfl, rfl, rfl, rfl, ?_, ?_⟩
  · obtain ⟨key, hk⟩ := Option.isSome_iff_exists.mp hkey
    simp [replyOf, State.entryOf, hk]
  · calc s.finishes op r params a id
        = { (s.modPol r.pol (fun q => { q with nextAdmit := q.nextAdmit + 1, path := some r.path, kept := none })).modPol r.pol
            (fun q => { q with replyQ := q.replyQ ++ [replyOf r.pol (s.entryOf op r params) a s],
                               journal := (replyOf r.pol (s.entryOf op r params) a s :: q.journal).take 16 }) with
            arr := { s.arr with writes := w } } := by
          rw [State.finishes, id, hw]
          rfl
      _ = _ := by
          rw [State.modPol_modPol]
          rfl

/-! ### Time (R385 to R389) -/

/-- Settles O16: the clock, the fabric's time and the issuer are read from what admission leaves alone. -/
theorem timeCommands : Obligations.TimeCommands := by
  refine ⟨fun s r params h => ?timeGet, fun s r params h => ?timeSet, fun s r params h => ?timeSlew, fun s r params h => ?tcmpArm⟩
  case timeGet =>
    refine exec_eq_of_runs 0x20 ownTimeGet rfl rfl h ?_
    simp only [ownTimeGet, State.entryOf_req, State.taken_clock, State.taken_slewRemain, State.taken_syncCode]
    cases s.clock.slew <;> split <;> exact settle_doneOk 0x20 _
  case timeSet =>
    refine exec_eq_of_runs 0x21 ownTimeSet rfl rfl h ?_
    simp only [ownTimeSet, State.entryOf_params, State.taken_tenantExists, State.taken_fab, State.taken_slewImposed]
    exact settle_ite _ (settle_refuse 0x21 _) (settle_ite _ (settle_refuse 0x21 _) (settle_holding _ (by simp)))
  case timeSlew =>
    refine exec_eq_of_runs 0x22 ownTimeSlew rfl rfl h ?_
    simp only [ownTimeSlew, State.entryOf_params, State.taken_fab, State.taken_slewRemain]
    exact settle_ite _ (settle_refuse 0x22 _) (settle_ite _ (settle_refuse 0x22 _) (settle_finish _ (by simp only [State.taken_fab]; rfl)))
  case tcmpArm =>
    refine exec_eq_of_runs 0x23 ownTcmpArm rfl rfl h ?_
    simp only [ownTcmpArm, State.entryOf_params, State.entryOf_plen, State.entryOf_req, State.taken_clock]
    have hch : ((byteAt params 0).toNat / 2 ≠ r.pol.val ∨ 15 < (byteAt params 0).toNat) ↔
        (byteAt params 0).toNat ≠ 2 * r.pol.val ∧ (byteAt params 0).toNat ≠ 2 * r.pol.val + 1 := by omega
    exact settle_ite _ (settle_refuse 0x23 _) (settle_ite_iff _ _ hch (settle_refuse 0x23 _) (settle_ite _ (settle_doneOk 0x23 _)
      (settle_ite _ (settle_refuse 0x23 _) (settle_ite _ (settle_refuse 0x23 _) (settle_finish _ rfl)))))

/-! ### Exposure settings and triggers (R390 to R402, R408) -/

/-- Settles O17: each read answers from what admission leaves alone. -/
theorem exposureReads : Obligations.ExposureReads := by
  refine ⟨fun s r params h => ?expoGet, fun s r params h => ?trigRead, fun s r params h => ?syncGet, fun s r params h => ?wheelGet⟩
  case expoGet =>
    refine exec_eq_of_runs 0x31 ownExpoGet rfl rfl h ?_
    simp only [ownExpoGet, State.entryOf_req, State.taken_shadow, State.taken_expo, State.taken_shadowAt]
    exact settle_doneOk 0x31 _
  case trigRead =>
    refine exec_eq_of_runs 0x33 ownTrigRead rfl rfl h ?_
    simp only [ownTrigRead, State.entryOf_req, State.entryOf_params, State.taken_trigOverrun, State.taken_trigDropped, State.taken_trigPending]
    cases (s.pol r.pol).trigPending <;> exact settle_finish _ rfl
  case syncGet =>
    refine exec_eq_of_runs 0x34 ownSyncGet rfl rfl h ?_
    simp only [ownSyncGet, State.taken_lands]
    exact settle_doneOk 0x34 _
  case wheelGet =>
    refine exec_eq_of_runs 0x36 ownWheelGet rfl rfl h ?_
    simp only [ownWheelGet, State.entryOf_req, State.taken_wheel, State.taken_heldSlots, State.taken_slotsAt, State.taken_lastFrame]
    exact settle_doneOk 0x36 _

/-- Settles O18: every check reads what admission leaves alone. -/
theorem exposureSet : Obligations.ExposureSet := by
  intro s r params h
  refine exec_eq_of_runs 0x30 ownExpoSet rfl rfl h ?_
  simp only [ownExpoSet, State.entryOf_req, State.entryOf_params, State.taken_bindHolder, State.taken_lockReady, State.taken_lockPeriod,
    State.taken_withLock, State.taken_expoPlaced, State.taken_expoResults, State.taken_settingFrame]
  rw [← ite_or]
  exact settle_ite_iff _ _ (by simp) (settle_refuse 0x30 _) (settle_ite_iff _ _ (by simp) (settle_refuse 0x30 _)
    (settle_ite_iff _ _ (by simp) (settle_refuse 0x30 _) (settle_ite_iff _ _ (by simp) (settle_refuse 0x30 _)
      (settle_ite_iff _ _ (by simp) (settle_finish _ rfl) (settle_finish _ rfl)))))

/-- Settles O19: a trigger has one of four outcomes, as the polder's settings, the acceptance window and a pending trigger decide; each outcome
has its effect on the state once admitted. -/
theorem exposureActions : Obligations.ExposureActions := by
  refine ⟨fun s r params h => ?trigFire, fun s r params h => ?rebase, fun s r params h => ?periodSet⟩
  case trigFire =>
    refine exec_eq_of_runs 0x32 ownTrigFire rfl rfl h ?_
    simp only [ownTrigFire, State.trigger, State.entryOf_req, State.taken_trigOutcome, State.taken_lastFrame, State.taken_nextSlotOf]
    by_cases hdrop : s.wheel.turning = false ∨ (s.pol r.pol).expo.triggered = false ∨ (s.pol r.pol).expo.srcCommand = false
    · have ho : s.trigOutcome r.pol .command = .dropped := by
        rcases hdrop with hd | hd | hd <;> simp [State.trigOutcome, Expo.hasSource, hd]
      simp only [ho, if_pos hdrop]
      exact settle_finish _ rfl
    have hkept : (!s.wheel.turning || !(s.pol r.pol).expo.triggered || !(s.pol r.pol).expo.hasSource .command) = false := by
      simpa [Expo.hasSource, and_assoc] using hdrop
    rw [if_neg hdrop]
    by_cases hopen : s.windowOpen r.pol = true
    · have ho : s.trigOutcome r.pol .command = .accepted := by simp [State.trigOutcome, hkept, hopen]
      simp only [ho, if_pos hopen]
      exact settle_finish _ rfl
    rw [if_neg hopen]
    by_cases hpend : (s.pol r.pol).trigPending = none
    · have ho : s.trigOutcome r.pol .command = .pending := by simp [State.trigOutcome, hkept, hopen, hpend]
      simp only [ho, if_pos hpend]
      exact settle_finish _ rfl
    · have ho : s.trigOutcome r.pol .command = .overrun := by simp [State.trigOutcome, hkept, hopen, hpend]
      simp only [ho, if_neg hpend]
      exact settle_finish _ rfl
  case rebase =>
    refine exec_eq_of_runs 0x43 ownMotionRebase rfl rfl h ?_
    simp only [ownMotionRebase, State.entryOf_req, State.taken_nextSlotOf]
    exact settle_finish _ rfl
  case periodSet =>
    refine exec_eq_of_runs 0x35 ownPeriodSet rfl rfl h ?_
    simp only [ownPeriodSet, commitThen, State.entryOf_params, State.taken_tenantExists, State.taken_expo, State.taken_shadow,
      State.taken_wheel, State.taken_nextRevolution, State.taken_fabricItem]
    refine settle_ite _ (settle_refuse 0x35 _) (settle_ite_iff _ _ (by simp [periodInRange]; omega) (settle_refuse 0x35 _)
      (settle_ite_iff _ _ (by simp) (settle_refuse 0x35 _)
        (settle_write s 0x35 r params _ _ id _ (s.taken_writeRefusal ..) (s.taken_blockUnderTest ..))))

/-- Settles O20: the charter, the machines and the parts of an assembly are read from what admission leaves alone. -/
theorem statisticsCommands : Obligations.StatisticsCommands := by
  refine ⟨fun s r params h => ?statGet, fun s r params h => ?occGet, fun s r params h => ?statSelect⟩
  case statGet =>
    refine exec_eq_of_runs 0x41 ownStatGet rfl rfl h ?_
    simp only [ownStatGet, State.entryOf_req, State.entryOf_params, State.taken_charter]
    refine settle_ite _ (settle_doneOk 0x41 _) (settle_ite _ (settle_doneOk 0x41 _) ?_)
    cases (s.pol r.pol).charter.selection.areas[(byteAt params 0).toNat - 2]? with
    | some a => exact settle_doneOk 0x41 _
    | none => exact settle_refuse 0x41 _
  case occGet =>
    refine exec_eq_of_runs 0x42 ownOccGet rfl rfl h ?_
    simp only [ownOccGet, State.entryOf_req, State.taken_charter, State.taken_occ, State.taken_lastEval]
    cases (s.pol r.pol).lastEval <;> exact settle_doneOk 0x42 _
  case statSelect =>
    have hp : r.pol = owner := s.runs_owner 0x40 _ rfl rfl r params h
    refine exec_eq_of_runs 0x40 ownStatSelect rfl rfl h ?_
    have hcommit : ∀ f, (s.taken 0x40 r params |>.modPol owner f).nextRevolution = s.nextRevolution := fun f => s.taken_nextRevolution ..
    simp only [ownStatSelect, refusePart, keepPart, commitThen, State.entryOf_req, hp, State.taken_parts, Polder.nextCharter_taken,
      State.taken_tenantExists, hcommit]
    exact settle_ite _ (settle_finish _ rfl) (settle_ite_iff _ _ (by simp) (settle_finish _ rfl) (settle_ite _ (settle_finish _ rfl)
      (settle_write s 0x40 r params _ _ (fun a => a.modPol owner (fun q => { q with assembly := none })) _ (s.taken_writeRefusal ..)
        (s.taken_blockUnderTest ..))))

end Sys2Proof.Machine
end

section
/-! PROOFS. The commands of the system and of the power controller (chapter 13, R422 to R429). -/

namespace Sys2Proof.Machine

variable {s : State} {r : Req} {params : List Byte}

/-- A command that answers at once and still holds its queue (R143). -/
theorem settle_replied {op : Byte} {rule : HoldRule} {a : Answer} (g : State → State) {u : State} (hu : u = g (s.taken op r params)) :
    settle (s.entryOf op r params) (.replyHold rule a u) = (s.finishes op r params a g).modPol r.pol (fun q =>
      { q with serving := some { entry := s.entryOf op r params, rule := rule, answer := some a, ready := true, replied := true } }) := by
  rw [hu]; rfl

/-- Settles O23: what the reads and the checks look at, admission leaves alone. -/
theorem systemCommands : Obligations.SystemCommands := by
  refine ⟨fun s r params h => ?sysInfo, fun s r params h => ?sysCounters, fun s r params h => ?attestGet, fun s r params h => ?sysReset⟩
  case sysInfo =>
    refine exec_eq_of_runs 0x00 ownSysInfo rfl rfl h ?_
    have hregion : (s.arr.region s.arr.running.val).version = if s.arr.running = 0 then s.arr.fw0.version else s.arr.fw1.version := by
      match s.arr.running with
      | 0 | 1 => rfl
    simp only [ownSysInfo, State.taken_running, State.taken_region, State.taken_life, hregion]
    exact settle_doneOk 0x00 _
  case sysCounters =>
    refine exec_eq_of_runs 0x01 ownSysCounters rfl rfl h ?_
    simp only [ownSysCounters, State.entryOf_req, State.entryOf_params, State.taken_cnt]
    exact settle_finish _ rfl
  case attestGet =>
    refine exec_eq_of_runs 0x02 ownAttestGet rfl rfl h ?_
    have hcert : ∀ bs : List Byte, 144 ≤ (padTo 144 bs).length := fun bs => by simp [padTo]; omega
    simp only [ownAttestGet, State.entryOf_params, State.taken_mfg]
    generalize (byteAt params 0).toNat = part
    match part with
    | 0 =>
      have hlen : ((padTo 144 s.arr.mfg.certificate).take 80).length = 80 := by have := hcert s.arr.mfg.certificate; simp; omega
      simp only [if_neg (show ¬ 1 < 0 by decide), if_true, hlen]
      exact settle_doneOk 0x02 _
    | 1 =>
      have hlen : (((padTo 144 s.arr.mfg.certificate).drop 80).take 64).length = 64 := by have := hcert s.arr.mfg.certificate; simp; omega
      simp only [if_neg (show ¬ 1 < 1 by decide), Nat.one_ne_zero, if_false, if_true, hlen]
      exact settle_doneOk 0x02 _
    | n + 2 =>
      rw [if_pos (by omega), if_neg (by omega), if_neg (by omega)]
      exact settle_refuse 0x02 _
  case sysReset =>
    refine exec_eq_of_runs 0x03 ownSysReset rfl rfl h ?_
    simp only [ownSysReset, State.entryOf_params, State.entryOf_esn, State.taken_life, State.taken_updates, State.taken_cols, State.taken_ka,
      State.taken_bist]
    refine settle_ite _ (settle_refuse 0x03 _) (settle_ite_iff _ _ ?_ (settle_refuse 0x03 _) (settle_finish _ ?_))
    · simp [or_assoc]
    · simp

/-- Settles O24: the power controller and the wheel are what they were before admission. -/
theorem powerReadsAndPoints : Obligations.PowerReadsAndPoints := by
  refine ⟨fun s r params h => ?pwrGet, fun s r params h => ?refusalRead, fun s r params h => ?refusalClear, fun s r params h => ?pstateSet⟩
  case pwrGet =>
    refine exec_eq_of_runs 0x12 ownPwrGet rfl rfl h ?_
    simp only [ownPwrGet, State.taken_power, State.taken_holdup]
    exact settle_doneOk 0x12 _
  case refusalRead =>
    refine exec_eq_of_runs 0x13 ownRefusalRead rfl rfl h ?_
    simp only [ownRefusalRead, State.entryOf_params, State.taken_power]
    generalize (byteAt params 0).toNat = part
    match part with
    | 0 | 1 | 2 | 3 => exact settle_doneOk 0x13 _
    | n + 4 => exact settle_refuse 0x13 _
  case refusalClear => exact exec_eq_of_runs 0x14 ownRefusalClear rfl rfl h rfl
  case pstateSet =>
    refine exec_eq_of_runs 0x11 ownPstateSet rfl rfl h ?_
    have hslower : ∀ o : Option (Fin 3), (o == some 1 || o == some 2) = (match o with | some t => t != 0 | none => false) := by decide
    simp only [ownPstateSet, State.entryOf_params, State.taken_power, State.taken_wheel, State.taken_bistNamesPoint,
      show List.range 4 = [0, 1, 2, 3] from rfl, hslower]
    refine settle_ite_iff _ _ (iff_of_eq (Bool.and_eq_true ..)) (settle_refuse 0x11 _) (settle_ite_iff _ _ Iff.rfl (settle_refuse 0x11 _) ?_)
    rcases s.power.changePoints [0, 1, 2, 3] (byteAt params 0).toNat with ⟨p, _ | _⟩ <;> simp only [if_true, Bool.false_eq_true, if_false]
    · exact settle_holding _ (by simp only [State.taken_wheel])
    · exact settle_finish _ (by simp only [State.taken_wheel])

/-- Settles O25: the request is judged and carried out on the power controller as it was before admission. -/
theorem powerSet : Obligations.PowerSet := by
  intro s r params h
  refine exec_eq_of_runs 0x10 ownPwrSet rfl rfl h ?_
  simp only [ownPwrSet, State.entryOf_params, State.entryOf_esn, State.taken_pwrRefusal]
  cases s.pwrRefusal (field params 0 4) (field params 4 2) (byteAt params 6).toNat with
  | some st => exact settle_refuse 0x10 st
  | none =>
    dsimp only
    refine settle_ite_iff _ _ (by simp) (settle_holding _ rfl) ?_
    simp only [State.taken_power, List.isEmpty_iff]
    by_cases hdown : lowers s.power.doms (requestedConfig (field params 0 4) s.power.doms) = [] <;>
      by_cases hup : raises s.power.doms (requestedConfig (field params 0 4) s.power.doms) = [] <;>
      simp only [hdown, hup, if_true, if_false, and_true, and_false]
    · exact settle_finish _ (by simp only [State.taken_power])
    · exact settle_replied _ (by simp only [State.taken_power])
    · exact settle_holding _ (by simp only [State.taken_power])
    · exact settle_holding _ (by simp only [State.taken_power])

end Sys2Proof.Machine
end

section
/-! PROOFS. The commands of polders (chapter 13, R430 to R439). -/

namespace Sys2Proof.Machine

variable {s : State} {r : Req} {params : List Byte}

/-- Branch by branch, with a condition that reads otherwise in the statement and its truth at hand. -/
theorem settle_cases_iff {e : QEntry} {x y : State} {a b : CmdOut} (c d : Prop) [Decidable c] [Decidable d] (h : c ↔ d)
    (ha : d → settle e a = x) (hb : ¬ d → settle e b = y) : settle e (if c then a else b) = if d then x else y := by
  simp only [h]
  exact settle_cases d ha hb

/-- What a change of one polder leaves of every polder. -/
theorem State.pol_modPol_same {α : Type} (f : Polder → α) {g : Polder → Polder} (hg : ∀ q, f (g q) = f q) (s : State) (p p' : PolId) :
    f ((s.modPol p g).pol p') = f (s.pol p') := by
  rw [State.pol_modPol]
  split
  · next h => rw [hg, h]
  · rfl

/-- An assembly has no part in the checks of a charter (R323). -/
theorem State.createRefusal_assembly (s : State) (p : PolId) (x : Option Assembly) (bs : List Byte) :
    (s.modPol p (fun q => { q with assembly := x })).createRefusal bs = s.createRefusal bs := by
  have hstate := s.pol_modPol_same Polder.state (g := fun q => { q with assembly := x }) (fun _ => rfl) p
  have hcharter := s.pol_modPol_same Polder.charter (g := fun q => { q with assembly := x }) (fun _ => rfl) p
  have hclaims := s.pol_modPol_same Polder.claims (g := fun q => { q with assembly := x }) (fun _ => rfl) p
  simp only [State.createRefusal, State.takenSlots, State.bindTaken, hstate, hcharter, hclaims]
  rfl

/-- An assembly has no part in whether the owner is ACTIVE. -/
theorem State.ownerActive_assembly (s : State) (p : PolId) (x : Option Assembly) :
    (s.modPol p (fun q => { q with assembly := x })).ownerActive = s.ownerActive := by
  simp only [State.ownerActive, s.pol_modPol_same Polder.state (g := fun q => { q with assembly := x }) (fun _ => rfl) p]

/-- An owner that is ACTIVE leaves no claimant (R610). -/
theorem State.claimant_of_ownerActive (h : s.ownerActive = true) (p : PolId) : s.claimant p = false := by simp [State.claimant, h]

/-- The commit of a tenant's charter by an owner in FIELD is the checks of R323 and then the tenant (R432). -/
theorem commitCharter_tenant {u : State} {bs : List Byte} {p q : PolId} (hlen : bs.length = 102 + 38 * (byteAt bs 85).toNat)
    (hn : (byteAt bs 0).toNat = p.val) (hp : p ≠ owner) (hclaimant : u.claimant q = false) (hfield : u.life.shadow = .field) :
    (∀ st, u.createRefusal bs = some st → commitCharter q bs u = refuse st u) ∧
    (u.createRefusal bs = none → commitCharter q bs u = commitTenant p (Charter.decode bs) u) := by
  have hzero : (byteAt bs 0).toNat ≠ 0 := fun h0 => hp (Fin.ext (by rw [← hn, h0]; rfl))
  have hnum : Fin.ofNat 8 (byteAt bs 0).toNat = p := by rw [hn]; exact Fin.ofNat_val_eq_self p
  refine ⟨fun st hr => ?_, fun hr => ?_⟩ <;>
    simp only [commitCharter, if_neg (not_not.mpr hlen), if_neg hzero, hclaimant, Bool.false_eq_true, if_false, if_neg (not_not.mpr hfield),
      hr, hnum]

/-- The number of a polder up to 7 names it. -/
theorem ofNat_eq_owner {n : Nat} (h : n ≤ 7) : (Fin.ofNat 8 n = owner) ↔ n = 0 := by
  rw [Fin.ext_iff]
  simp [owner]
  omega

/-- Settles O26: the polders, the key agreement and the unique ID are read as before admission. -/
theorem polderReads : Obligations.PolderReads := by
  refine ⟨fun s r params h => ?poldStatus, fun s r params h => ?poldCharter, fun s r params h => ?poldOffer⟩
  case poldStatus =>
    refine exec_eq_of_runs 0x54 ownPoldStatus rfl rfl h ?_
    simp only [ownPoldStatus, State.entryOf_req, State.entryOf_params, State.taken_ownPolderStatus]
    refine settle_ite _ (settle_refuse 0x54 _) (settle_cases _ (fun _ => settle_refuse 0x54 _) fun hn => ?_)
    simp only [State.polderStatus, ofNat_eq_owner (Nat.not_lt.mp hn)]
    split <;> exact settle_doneOk 0x54 _
  case poldCharter =>
    refine exec_eq_of_runs 0x55 ownPoldCharter rfl rfl h ?_
    simp only [ownPoldCharter, State.entryOf_req, State.entryOf_params, State.taken_state, State.taken_charter]
    exact settle_ite _ (settle_refuse 0x55 _) (settle_ite _ (settle_refuse 0x55 _) (settle_doneOk 0x55 _))
  case poldOffer =>
    refine exec_eq_of_runs 0x51 ownPoldOffer rfl rfl h ?_
    simp only [ownPoldOffer, State.entryOf_req, State.entryOf_params, State.taken_claimant, State.taken_ka, State.taken_life]
    refine settle_ite_iff _ _ (by simp) (settle_refuse 0x51 _) ?_
    cases s.ka with
    | none => exact settle_refuse 0x51 _
    | some k =>
      refine settle_cases _ (fun _ => settle_refuse 0x51 _) fun hpart => settle_ite_iff _ _ (by simp) (settle_refuse 0x51 _) ?_
      generalize (byteAt params 1).toNat = part at *
      match part with
      | 0 | 1 => exact settle_doneOk 0x51 _
      | part + 2 => exact absurd (Or.inl (by omega)) hpart

/-- Settles O27: the parts and the checks of R323 read what admission and the end of the assembly leave alone. -/
theorem polderCreateAndDissolve : Obligations.PolderCreateAndDissolve := by
  refine ⟨fun s r params h => ?part, fun s r params p h => ?commit, fun s r params h => ?dissolve⟩
  case part =>
    have hp : r.pol = owner := s.runs_owner 0x50 _ rfl rfl r params h
    intro e gone bad hpart
    refine exec_eq_of_runs 0x50 ownPoldCreate rfl rfl h ?_
    simp only [ownPoldCreate, refusePart, keepPart, State.entryOf_req, hp, State.taken_parts]
    refine settle_cases_iff _ _ (by simp [e]) (fun _ => settle_finish _ rfl) fun hok => ?_
    rw [if_pos (hpart.resolve_left hok)]
    exact settle_finish _ rfl
  case commit =>
    have hp : r.pol = owner := s.runs_owner 0x50 _ rfl rfl r params h
    intro bytes gone c hok hmore hlen hn htenant hactive hfield
    have hactive' : (gone (s.taken 0x50 r params)).ownerActive = true :=
      ((s.taken 0x50 r params).ownerActive_assembly owner none).trans ((s.taken_ownerActive ..).trans hactive)
    obtain ⟨hrefused, hmade⟩ := commitCharter_tenant (u := gone (s.taken 0x50 r params)) (bs := bytes) (p := p) hlen hn htenant
      (State.claimant_of_ownerActive hactive' owner) ((congrArg Life.shadow (s.taken_life ..)).trans hfield)
    have hcheck : (gone (s.taken 0x50 r params)).createRefusal bytes = s.createRefusal bytes :=
      (State.createRefusal_assembly ..).trans (s.taken_createRefusal ..)
    have hcreation : (gone (s.taken 0x50 r params)).creationNow = s.creationNow := s.taken_creationNow ..
    have hown : ownPoldCreate (s.entryOf 0x50 r params) (s.taken 0x50 r params) = commitCharter owner bytes (gone (s.taken 0x50 r params)) := by
      simp only [ownPoldCreate, State.entryOf_req, hp, State.taken_parts, hok, hmore]
      rfl
    refine exec_eq_of_runs 0x50 ownPoldCreate rfl rfl h ?_
    rw [hown]
    cases hr : s.createRefusal bytes with
    | some st =>
      rw [hrefused st (hcheck.trans hr)]
      exact settle_finish gone rfl
    | none =>
      rw [hmade (hcheck.trans hr), commitTenant, hcreation]
      exact settle_write s 0x50 r params _ _ gone _ (s.taken_writeRefusal ..) (s.taken_blockUnderTest ..)
  case dissolve =>
    refine exec_eq_of_runs 0x53 ownPoldDissolve rfl rfl h ?_
    simp only [ownPoldDissolve, commitThen, State.entryOf_req, State.entryOf_params, State.taken_state, State.taken_gone, State.taken_writeRefusal,
      State.taken_nextRevolution]
    refine settle_ite _ (settle_refuse 0x53 _) (settle_ite _ (settle_refuse 0x53 _) ?_)
    cases (s.pol (Fin.ofNat 8 (byteAt params 0).toNat)).gone with
    | some g =>
      cases s.writeRefusal with
      | some st => exact settle_refuse 0x53 _
      | none => exact settle_doneOk 0x53 _
    | none =>
      exact settle_ite _ (settle_write s 0x53 r params _ _ id _ (s.taken_writeRefusal ..) (s.taken_blockUnderTest ..))
        (settle_write s 0x53 r params _ _ id _ (s.taken_writeRefusal ..) (s.taken_blockUnderTest ..))

end Sys2Proof.Machine
end

section
/-! PROOFS. POLD_ANSWER (R325, R349, R351, R436, R437): what serving a part does, and what the key agreement of a tenant leaves. -/

namespace Sys2Proof.Machine

variable {s : State} {r : Req} {params : List Byte}

/-- Two changes of a polder that agree on what the polder is. -/
theorem State.modPol_congr {p : PolId} {f g : Polder → Polder} (h : f (s.pol p) = g (s.pol p)) : s.modPol p f = s.modPol p g := by
  unfold State.modPol
  rw [show f s.pols[p] = g s.pols[p] from h]

/-- An ANSWER part that its polder's key agreement takes is served at once where the slice is free (R349 step 4, R352). -/
theorem poldAnswer_serves (hrun : s.power.seqRunning = true) (haccept : s.power.accepting = true) (hpath : r.path ≠ .host ∨ s.hostPol = r.pol)
    (htakes : s.takesAnswer r.pol = true) (hfree : s.sliceFree r.pol = true) :
    exec (.poldAnswer r params) s = .next (s.serveAnswer (answerEntry r params params.length (answerPacket r params))) := by
  have hqueued : ¬ 8 ≤ (s.pol r.pol).queued := by
    simp only [State.sliceFree, Bool.and_eq_true, Option.isNone_iff_eq_none, List.isEmpty_iff] at hfree
    obtain ⟨⟨⟨-, hserving⟩, hqueue⟩, -⟩ := hfree
    simp [Polder.queued, hserving, hqueue, b2n]
  have hbound : ¬ (r.path = .host ∧ s.hostPol ≠ r.pol) := fun ⟨h1, h2⟩ => hpath.elim (· h1) h2
  simp only [exec, execPoldAnswer, hrun, haccept, htakes, hfree, if_neg hqueued, if_neg hbound, Bool.not_true, Bool.false_eq_true, if_false,
    if_true]

/-- A tenant that was CHARTERED, after its key agreement: new, with its key, and the CONFIRM at the end of its replies (R328, R437). -/
def confirmedPolder (k : KeyAgreement) (key : BitVec 128) (r : Req) (period : Nat) (part2 : List Byte) (c : Reply) (q : Polder) : Polder :=
  { q.emptied with
    state := .active, key := key, charter := k.charter, path := some r.path, sR := 65536, expo := Expo.defaults period,
    replyQ := q.replyQ ++ [c], kept := some { part2 := part2, confirm := c } }

/-- The key agreement of a CHARTERED tenant changes the tenant, item writes and the DALI settings it binds, and issues EV_POLD_ACTIVE to the owner
(R325, R336, R464). -/
theorem State.completeAgreement_tenant (k : KeyAgreement) (point : JPoint) (part2 : List Byte) (r : Req) (s : State) (hp : k.pol ≠ owner)
    (hstate : (s.pol k.pol).state = .chartered) :
    let key := polderKey k point s.life.uid
    let first := BitVec.ofNat 32 (s.nextRevolution.toNat + lowestSlot k.charter.slots)
    let tenant := confirmedPolder k key r (s.periods.foldl min s.wheel.period) part2 (confirmReply k key r first)
    ∃ (w : ArrayS) (d : Dali),
      Issues owner { s.modPol k.pol tenant with ka := none, arr := w, dali := d } (s.completeAgreement k point part2 r) := by
  intro key first tenant
  have hagreed : s.modPol k.pol tenant = ((s.modPol k.pol (fun q =>
      { agreedPolder k key r (s.periods.foldl min s.wheel.period) q with
        kept := some { part2 := part2, confirm := confirmReply k key r first } })).queueReply k.pol (confirmReply k key r first)) := by
    rw [State.queueReply, State.modPol_modPol]
    refine State.modPol_congr ?_
    have hnew : ¬ (s.pol k.pol).state = .active := by simp [hstate]
    simp only [tenant, confirmedPolder, agreedPolder, if_neg hnew]
    rfl
  let stored : State := (({ s.modPol k.pol tenant with ka := none } : State).storePolder k.pol).storeSeqs k.pol
  have hdone : s.completeAgreement k point part2 r =
      (if k.pol ≠ owner ∧ k.charter.bind.toNat.testBit 2 = true then stored.resetDali k.pol else stored).ownerEvent 0x0040
        (leBytes 1 k.pol.val ++ leBytes 3 0 ++ leBytes 4 first.toNat) := by
    simp only [State.completeAgreement, if_neg hp, stored, hagreed]
    rfl
  rw [hdone]
  split
  · exact ⟨_, _, Issues.ownerEvent _ _ (stored.resetDali k.pol)⟩
  · exact ⟨_, _, Issues.ownerEvent _ _ stored⟩

/-- Settles O28: each part is judged by the parts held; the last one completes the key agreement, whose own changes and the owner's event are all
that follows. -/
theorem answerCompletes : Obligations.AnswerCompletes := by
  intro s r params hrun haccept hpath htakes hfree hlen hzero hhandle
  rw [poldAnswer_serves hrun haccept hpath htakes hfree]
  have hnonzero : ¬ r.handle = 0#16 := hhandle
  refine ⟨fun h0 hmore hhold => ?_, fun a h1 hmore hhold hid hsame => ?_,
    fun a identity k identityKey point h2 hmore hhold hid hsame hka hkp hp hoff hkept hstate hident hhash hsig hpoint => ?_⟩
  · simp [State.serveAnswer, answerEntry, hhold, h0, hmore, hlen, hzero, hnonzero]
  · simp [State.serveAnswer, answerEntry, hhold, h1, hmore, hlen, hzero, hnonzero, hid, hsame]
  · intro key first confirm
    have hserved : s.serveAnswer (answerEntry r params params.length (answerPacket r params)) =
        s.completeAgreement k point (answerPacket r params) r := by
      have hk : answerPoint s.life.uid k a.qT identity ((params.drop 2).take 64) = some point := by
        have hdigest : sha256Word (4#8 :: identity) = k.charter.idHash := hhash
        simp [answerPoint, hident, hdigest, hsig, hpoint]
      simp [State.serveAnswer, answerEntry, hhold, h2, hmore, hlen, hzero, hnonzero, hid, hsame, State.answerFinal, hkept, hka, hkp, hoff, hk]
    obtain ⟨w, d, hissues⟩ := State.completeAgreement_tenant k point (answerPacket r params) r s (hkp ▸ hp) (hkp ▸ hstate)
    rw [hkp] at hissues
    refine ⟨_, congrArg _ hserved, congrArg State.ka hissues.frame, ?_, fun q hq hqo => ?_, ?_⟩
    · refine (hissues.pol _ hp).trans ?_
      show (s.modPol r.pol _).pol r.pol = _
      rw [State.pol_modPol, if_pos rfl]
      rfl
    · refine (hissues.pol _ hqo).trans ?_
      show (s.modPol r.pol _).pol q = _
      rw [State.pol_modPol, if_neg hq]
    · have hdali : (s.completeAgreement k point (answerPacket r params) r).dali = d := congrArg State.dali hissues.frame
      rw [hdali]
      exact hissues.frame

end Sys2Proof.Machine
end

section
/-! PROOFS. The commands of the fabric (R441 to R449) and the reads of the array (R455, R456). -/

namespace Sys2Proof.Machine

variable {s : State} {r : Req} {params : List Byte}

@[simp] theorem State.taken_logCells (s : State) (op : Byte) (r : Req) (params : List Byte) :
    (s.taken op r params).arr.logCells = s.arr.logCells := by
  obtain ⟨w, h⟩ := s.taken_arr op r params; rw [h]

@[simp] theorem State.taken_user (s : State) (op : Byte) (r : Req) (params : List Byte) :
    (s.taken op r params).arr.user = s.arr.user := by
  obtain ⟨w, h⟩ := s.taken_arr op r params; rw [h]

@[simp] theorem State.taken_openMap (s : State) (op : Byte) (r : Req) (params : List Byte) :
    (s.taken op r params).arr.openMap = s.arr.openMap := by
  obtain ⟨w, h⟩ := s.taken_arr op r params; rw [h]; rfl

@[simp] theorem State.taken_fw0 (s : State) (op : Byte) (r : Req) (params : List Byte) :
    (s.taken op r params).arr.fw0 = s.arr.fw0 := by
  obtain ⟨w, h⟩ := s.taken_arr op r params; rw [h]

@[simp] theorem State.taken_fw1 (s : State) (op : Byte) (r : Req) (params : List Byte) :
    (s.taken op r params).arr.fw1 = s.arr.fw1 := by
  obtain ⟨w, h⟩ := s.taken_arr op r params; rw [h]

@[simp] theorem State.taken_port (s : State) (op : Byte) (r : Req) (params : List Byte) (p : Port) :
    (s.taken op r params).port p = s.port p := by cases p <;> simp [State.port]

@[simp] theorem State.taken_portPresent (s : State) (op : Byte) (r : Req) (params : List Byte) (p : Port) :
    (s.taken op r params).portPresent p = s.portPresent p := by simp [State.portPresent]

@[simp] theorem State.taken_homePort (s : State) (op : Byte) (r : Req) (params : List Byte) :
    (s.taken op r params).homePort = s.homePort := by simp [State.homePort]

@[simp] theorem State.taken_reeveAddress (s : State) (op : Byte) (r : Req) (params : List Byte) :
    (s.taken op r params).reeveAddress = s.reeveAddress := by simp [State.reeveAddress, State.draw]

@[simp] theorem State.taken_fabricWords (s : State) (op : Byte) (r : Req) (params : List Byte) :
    (s.taken op r params).fabricWords = s.fabricWords := by simp [State.fabricWords]

@[simp] theorem State.taken_holdsRole (s : State) (op : Byte) (r : Req) (params : List Byte) (role : SwapRole) :
    (s.taken op r params).holdsRole role = s.holdsRole role := by cases role <;> simp [State.holdsRole]

@[simp] theorem State.taken_peerMayHold (s : State) (op : Byte) (r : Req) (params : List Byte) (role : SwapRole) (peer : BitVec 12) :
    (s.taken op r params).peerMayHold role peer = s.peerMayHold role peer := by cases role <;> simp [State.peerMayHold]

@[simp] theorem State.taken_hasRoute (s : State) (op : Byte) (r : Req) (params : List Byte) (peer : BitVec 12) :
    (s.taken op r params).hasRoute peer = s.hasRoute peer := by simp [State.hasRoute]

@[simp] theorem State.taken_portToward (s : State) (op : Byte) (r : Req) (params : List Byte) (peer : BitVec 12) :
    (s.taken op r params).portToward peer = s.portToward peer := by simp [State.portToward]

/-- The broadcast values of a node address, field by field (R440). -/
theorem addrBroadcast_iff (a : BitVec 12) : addrBroadcast a = true ↔ addrSegment a = 63 ∨ addrSlot a = 63 := by
  simp [addrBroadcast]

/-- A frame period is refused by its bounds and its granularity (R449). -/
theorem periodInRange_eq_false (v : Nat) : (!periodInRange v) = true ↔ v < 2000000 ∨ 400000000 < v ∨ v % 16 ≠ 0 := by
  simp only [periodInRange, Bool.not_eq_true', Bool.and_eq_false_iff, decide_eq_false_iff_not, beq_eq_false_iff_ne]
  omega

/-- Settles O29: the fabric, the ports and the array are read as before admission; the images are told apart by their own region. -/
theorem fabricAndArrayReads : Obligations.FabricAndArrayReads := by
  refine ⟨fun s r params h => ?fabRead, fun s r params h => ?fabRoutes, fun s r params h => ?arrRead, fun s r params h => ?arrInfo⟩
  case fabRead =>
    refine exec_eq_of_runs 0x60 ownFabRead rfl rfl h ?_
    simp only [ownFabRead, State.entryOf_params, State.taken_fabricWords, State.taken_lineA, State.taken_lineB]
    generalize (byteAt params 0).toNat = sel
    match sel with
    | 0 => exact settle_finish _ rfl
    | 1 | 2 => exact settle_doneOk 0x60 _
    | n + 3 => exact settle_refuse 0x60 _
  case fabRoutes =>
    refine exec_eq_of_runs 0x65 ownFabRoutes rfl rfl h ?_
    simp only [ownFabRoutes, State.entryOf_params, State.taken_power, State.taken_fab, List.length_take, List.length_drop]
    exact settle_ite _ (settle_refuse 0x65 _) (settle_doneOk 0x65 _)
  case arrRead =>
    refine exec_eq_of_runs 0x74 ownArrRead rfl rfl h ?_
    simp only [ownArrRead, State.entryOf_params, State.taken_logCells, State.taken_user]
    refine settle_cases _ (fun _ => settle_refuse 0x74 _) fun hr => settle_ite_iff _ _ ?_ (settle_refuse 0x74 _) (settle_doneOk 0x74 _)
    have hsize : regionSize (byteAt params 0).toNat = 262144 := by
      rcases (show (byteAt params 0).toNat = 5 ∨ (byteAt params 0).toNat = 6 by omega) with h5 | h6
      · rw [h5]; rfl
      · rw [h6]; rfl
    rw [hsize]
  case arrInfo =>
    refine exec_eq_of_runs 0x75 ownArrInfo rfl rfl h ?_
    simp only [ownArrInfo, State.taken_running, State.taken_bootWanted, State.taken_openMap, State.taken_holdup, State.taken_fw0,
      State.taken_fw1]
    exact settle_doneOk 0x75 _

/-- Settles O30: each setting is checked, then its FABRIC item is requested and the command waits for the write. -/
theorem fabricSettings : Obligations.FabricSettings := by
  refine ⟨fun s r params h => ?addr, fun s r params h => ?key, fun s r params h => ?rank, fun s r params h => ?src, fun s r params h => ?period⟩
  case addr =>
    refine exec_eq_of_runs 0x61 ownFabAddrSet rfl rfl h ?_
    simp only [ownFabAddrSet, State.entryOf_params, State.taken_fab]
    exact settle_ite_iff _ _ (addrBroadcast_iff _) (settle_refuse 0x61 _)
      (settle_write s 0x61 r params _ _ id _ (s.taken_writeRefusal ..) (s.taken_blockUnderTest ..))
  case key =>
    refine exec_eq_of_runs 0x62 ownFabKeySet rfl rfl h ?_
    exact settle_ite _ (settle_refuse 0x62 _) (settle_write s 0x62 r params _ _ id _ (s.taken_writeRefusal ..) (s.taken_blockUnderTest ..))
  case rank =>
    exact exec_eq_of_runs 0x63 ownFabRankSet rfl rfl h
      (settle_write s 0x63 r params _ _ id _ (s.taken_writeRefusal ..) (s.taken_blockUnderTest ..))
  case src =>
    refine exec_eq_of_runs 0x66 ownFabPeriodSrc rfl rfl h ?_
    simp only [ownFabPeriodSrc, State.taken_tenantExists]
    exact settle_ite _ (settle_refuse 0x66 _) (settle_write s 0x66 r params _ _ id _ (s.taken_writeRefusal ..) (s.taken_blockUnderTest ..))
  case period =>
    refine exec_eq_of_runs 0x67 ownFabPeriodSet rfl rfl h ?_
    simp only [ownFabPeriodSet, State.entryOf_params, State.taken_fab]
    exact settle_ite _ (settle_refuse 0x67 _) (settle_ite_iff _ _ (periodInRange_eq_false _) (settle_refuse 0x67 _)
      (settle_write s 0x67 r params _ _ id _ (s.taken_writeRefusal ..) (s.taken_blockUnderTest ..)))

/-- Settles O31: the roles, the peers and the routes are those before admission, and the request is a service frame for the peer. -/
theorem roleSwap : Obligations.RoleSwap := by
  intro s r params h peer
  refine exec_eq_of_runs 0x64 ownRoleSwap rfl rfl h ?_
  simp only [ownRoleSwap, State.entryOf_params, State.taken_holdsRole, State.taken_peerMayHold, State.taken_hasRoute]
  cases swapOfCode (byteAt params 2).toNat with
  | none => exact settle_refuse 0x64 _
  | some role =>
    refine settle_ite_iff _ _ (by simp [or_assoc, peer]) (settle_refuse 0x64 _) (settle_ite_iff _ _ (by simp [or_assoc, peer]) (settle_refuse 0x64 _)
      (settle_ite_iff _ _ (by simp [peer]) (settle_refuse 0x64 _) (settle_holding _ ?_)))
    rw [← s.taken_portToward 0x64 r params, ← s.taken_clock 0x64 r params, ← s.taken_fab 0x64 r params]
    rfl

end Sys2Proof.Machine
end

section
/-! PROOFS. The updates of a region (R451 to R454, R560 to R564) and LC_ADVANCE (R459, R601 to R603). -/

namespace Sys2Proof.Machine

variable {s : State} {r : Req} {params : List Byte}

/-- The open update under a handle carries the handle. -/
theorem State.update?_handle {h : W16} {u : Update} (hu : s.update? h = some u) : u.handle = h := by
  simpa using List.find?_some hu

/-- Where no update is open under a handle, renewing its lease changes nothing. -/
theorem State.renewLease_of_none {h : W16} (hu : s.update? h = none) : s.renewLease h = s := by
  have hmap : s.arr.updates.map (fun u => if u.handle = h then { u with expiry := s.clock.tb.plus leaseTicks } else u) = s.arr.updates := by
    refine (List.map_congr_left fun u hmem => ?_).trans (List.map_id _)
    rw [if_neg (by simpa using List.find?_eq_none.mp hu u hmem), id]
  unfold State.renewLease
  rw [hmap]

/-- A renewed lease keeps the update under its handle, but for the expiry (R373). -/
theorem State.update?_renewLease {h : W16} {u : Update} (hu : s.update? h = some u) :
    (s.renewLease h).update? h = some { u with expiry := s.clock.tb.plus leaseTicks } := by
  have hfun : ((fun v : Update => v.handle == h) ∘ fun v : Update => if v.handle = h then { v with expiry := s.clock.tb.plus leaseTicks } else v)
      = fun v => v.handle == h := by
    funext v
    simp only [Function.comp]
    split <;> rfl
  simp only [State.update?, State.renewLease, List.find?_map, hfun]
  rw [show s.arr.updates.find? (fun v => v.handle == h) = some u from hu, Option.map_some, if_pos (State.update?_handle hu)]

/-- A lease that has not run out is left as it is. -/
theorem State.leaseSettled_of_open {h : W16} {u : Update} (hu : s.update? h = some u) (he : u.expiry.le s.clock.tb = false) :
    s.leaseSettled h = s := by simp [State.leaseSettled, hu, he]

/-- Where no update is open under a handle there is no lease to settle. -/
theorem State.leaseSettled_of_none {h : W16} (hu : s.update? h = none) : s.leaseSettled h = s := by simp [State.leaseSettled, hu]

/-- A lease settled leaves everything but the open updates and the lost handles. -/
theorem State.leaseSettled_eq (s : State) (h : W16) : ∃ u l, s.leaseSettled h = { s with arr := { s.arr with updates := u, lostHandles := l } } := by
  unfold State.leaseSettled ArrayS.loseUpdate
  split
  · split <;> exact ⟨_, _, rfl⟩
  · exact ⟨_, _, rfl⟩

/-- A lease that has run out takes its update (R374). -/
theorem State.leaseSettled_of_expired {h : W16} {u : Update} (hu : s.update? h = some u) (he : u.expiry.le s.clock.tb = true) :
    s.leaseSettled h = { s with arr := s.arr.loseUpdate h } := by simp [State.leaseSettled, hu, he]

/-- The updates left open once a lease has been settled (R374). -/
theorem State.leaseSettled_updates (s : State) (h : W16) : (s.leaseSettled h).arr.updates =
    if (s.update? h).any (fun u => u.expiry.le s.clock.tb) then s.arr.updates.filter (fun u => u.handle ≠ h) else s.arr.updates := by
  cases hu : s.update? h with
  | none => rw [State.leaseSettled_of_none hu, Option.any_none, if_neg Bool.false_ne_true]
  | some u =>
    rw [Option.any_some]
    cases he : u.expiry.le s.clock.tb with
    | true => rw [State.leaseSettled_of_expired hu he, if_pos rfl, ArrayS.loseUpdate]
    | false => rw [State.leaseSettled_of_open hu he, if_neg Bool.false_ne_true]

/-- A lease settled and its loss told leave everything but the open updates and the lost handles. -/
theorem State.forgotten_eq (s : State) (h : W16) :
    ∃ u l, (s.leaseSettled h).forgetHandle h = { s with arr := { s.arr with updates := u, lostHandles := l } } := by
  obtain ⟨u, l, e⟩ := s.leaseSettled_eq h
  rw [e]
  exact ⟨_, _, rfl⟩

/-- Whether a write may start is no matter of the array (R95, R623). -/
theorem State.writeRefusal_arr (s : State) (a : ArrayS) : ({ s with arr := a } : State).writeRefusal = s.writeRefusal := rfl

/-- What is under test is no matter of the array (R620). -/
theorem State.blockUnderTest_arr (s : State) (a : ArrayS) (n : Nat) : ({ s with arr := a } : State).blockUnderTest n = s.blockUnderTest n := rfl

/-- The lease of R373 in ticks of the time base. -/
theorem leaseTicks_eq : leaseTicks = 800000000 := by decide

/-- An update is open under a handle where one of the open updates carries it. -/
theorem State.update?_isSome_iff (s : State) (h : W16) : (s.update? h).isSome = true ↔ ∃ u ∈ s.arr.updates, u.handle = h := by
  simp [State.update?]

/-- What a write does matters on the state it starts from alone. -/
theorem writeThen_congr {rule : HoldRule} {a : Answer} {t : State} {g g' : State → State} (h : g t = g' t) :
    writeThen rule a t g = writeThen rule a t g' := by
  unfold writeThen
  rw [h]

/-- An open update with a property, as a member of the list. -/
theorem updates_any_iff (l : List Update) (n : Nat) : l.any (fun u => u.region.val == n) = true ↔ ∃ u ∈ l, u.region.val = n := by simp

/-- The updates left open, read from the state before admission. -/
theorem State.taken_opened (s : State) (op : Byte) (r : Req) (params : List Byte) (h : W16) :
    (((s.taken op r params).leaseSettled h).forgetHandle h).arr.updates =
      if (s.update? h).any (fun u => u.expiry.le s.clock.tb) then s.arr.updates.filter (fun u => u.handle ≠ h) else s.arr.updates := by
  refine ((s.taken op r params).leaseSettled_updates h).trans ?_
  rw [State.taken_update?, State.taken_updates, State.taken_clock]

/-- ARR_OPEN judges the region by the updates left once its own handle's lease is settled (R374, R451). -/
theorem arrOpen_runs (h : s.runs 0x70 r params = true) :
    let region := (byteAt params 0).toNat
    let fresh : State → State := fun a => (a.leaseSettled r.handle).forgetHandle r.handle
    let bad : Status → State := fun st => s.finishes 0x70 r params { status := st, effectFrame := none, results := [] } fresh
    let opened := if (s.update? r.handle).any (fun u => u.expiry.le s.clock.tb) then s.arr.updates.filter (fun u => u.handle ≠ r.handle)
      else s.arr.updates
    exec (.arrOpen r params) s = .next (
      if r.handle = 0 ∨ 6 < region ∨ (∃ u ∈ opened, u.handle = r.handle) then bad .badParam
      else if region ≠ 0 ∧ region ≠ 1 ∧ region ≠ 6 then bad .notPermitted
      else if region = s.arr.running.val then bad .activeImage
      else if ∃ u ∈ opened, u.region.val = region then bad .regionBusy
      else s.writes 0x70 r params fresh .pageProgram
        (okWith (leBytes 1 region ++ leBytes 3 0 ++ leBytes 4 (regionSize region) ++ (s.clock.tb.plus 800000000).bytes))
        (fun a =>
          let u : Update := { handle := r.handle, region := Fin.ofNat 7 region, grant := a.clock.tb, expiry := a.clock.tb.plus 800000000, data := [] }
          (({ a with arr := { a.arr with updates := a.arr.updates ++ [u] } }).cancelSelection region).addJob owner (.arrOpen r.handle))) := by
  intro region fresh bad opened
  have hupdates : (fresh (s.taken 0x70 r params)).arr.updates = opened := s.taken_opened 0x70 r params r.handle
  obtain ⟨u, l, hfresh⟩ := (s.taken 0x70 r params).forgotten_eq r.handle
  have hrunning : (fresh (s.taken 0x70 r params)).arr.running = s.arr.running := by
    simp only [fresh, hfresh, State.taken_running]
  have hclock : (fresh (s.taken 0x70 r params)).clock = s.clock := by simp only [fresh, hfresh, State.taken_clock]
  have hrefusal : (fresh (s.taken 0x70 r params)).writeRefusal = s.writeRefusal := by
    simp only [fresh, hfresh, State.writeRefusal_arr, State.taken_writeRefusal]
  have hblock : (fresh (s.taken 0x70 r params)).blockUnderTest 10 = s.blockUnderTest 10 := by
    simp only [fresh, hfresh, State.blockUnderTest_arr, State.taken_blockUnderTest]
  refine exec_eq_of_runs 0x70 ownArrOpen rfl rfl h ?_
  show settle _ (ownArrOpen _ _) = _
  simp only [ownArrOpen, leaseTicks_eq, State.entryOf_req, State.entryOf_params]
  refine settle_ite_iff _ _ ?_ (settle_finish fresh rfl) (settle_ite _ (settle_finish fresh rfl) (settle_ite_iff _ _ ?_ (settle_finish fresh rfl)
    (settle_ite_iff _ _ ?_ (settle_finish fresh rfl) ?_)))
  · rw [show ((s.taken 0x70 r params).leaseSettled r.handle).forgetHandle r.handle = fresh (s.taken 0x70 r params) from rfl,
      State.update?_isSome_iff, hupdates]
  · rw [← hrunning]
  · rw [← hupdates]
    exact updates_any_iff _ _
  · rw [← hclock]
    refine Eq.trans (congrArg (settle _) (writeThen_congr ?_)) (settle_write s 0x70 r params _ _ fresh _ hrefusal hblock)
    rfl

/-- A command of an update, in its place: the lease settled and renewed, then its own meaning (R373; notes/assumptions/52.md). -/
theorem exec_eq_of_renews {c : Instr} {sp : OpSpec} {t : State} (op : Byte) (own : QEntry → State → CmdOut) (hr : rowOf op = some sp)
    (hi : sp.issuer = .owner) (hc : exec c s = .next (runCommand op (renewing (checked sp own)) r params s)) (h : s.runs op r params = true)
    (ht : settle (s.entryOf op r params)
      (own (s.entryOf op r params) (((s.taken op r params).leaseSettled r.handle).renewLease r.handle)) = t) : exec c s = .next t := by
  have hrenewed : (s.taken op r params).renewed r.pol r.handle = ((s.taken op r params).leaseSettled r.handle).renewLease r.handle :=
    if_pos (s.runs_owner op sp hr hi r params h)
  rw [hc, command_renews op sp own hr r params s h, hrenewed, ht]

/-- Under the handle of an open update whose loss is not waiting to be told, a command has its own meaning (R374). -/
theorem underHandle_open {e : QEntry} {t : State} {u : Update} {f : Update → State → CmdOut} (hlost : t.handleLost e.req.handle = false)
    (hu : t.update? e.req.handle = some u) : underHandle e t f = f u t := by
  simp [underHandle, hlost, hu]

/-- Renewing a lease tells nobody of a loss. -/
theorem State.handleLost_renewLease (s : State) (h h' : W16) : (s.renewLease h).handleLost h' = s.handleLost h' := rfl

/-- Renewing a lease has no part in whether a write may start (R95, R623). -/
theorem State.writeRefusal_renewLease (s : State) (h : W16) : (s.renewLease h).writeRefusal = s.writeRefusal := rfl

/-- Renewing a lease has no part in what is under test (R620). -/
theorem State.blockUnderTest_renewLease (s : State) (h : W16) (n : Nat) : (s.renewLease h).blockUnderTest n = s.blockUnderTest n := rfl

/-- Renewing a lease reads the clock. -/
theorem State.clock_renewLease (s : State) (h : W16) : (s.renewLease h).clock = s.clock := rfl

/-- A command of an update that writes: its lease renewed, then the write (R373, R420). -/
theorem settle_renewed_write {op : Byte} {rule : HoldRule} {a : Answer} {g : State → State} :
    settle (s.entryOf op r params) (writeThen rule a ((s.taken op r params).renewLease r.handle) g) =
      s.writes op r params (fun a => a.renewLease r.handle) rule a g :=
  settle_write s op r params _ _ (fun a => a.renewLease r.handle) _
    ((State.writeRefusal_renewLease ..).trans (s.taken_writeRefusal ..)) ((State.blockUnderTest_renewLease ..).trans (s.taken_blockUnderTest ..))

/-- A command of an update that is open: its own meaning under the renewed lease (R373). -/
theorem exec_eq_of_open {c : Instr} {sp : OpSpec} {t : State} {u : Update} {f : QEntry → Update → State → CmdOut} (op : Byte)
    (hr : rowOf op = some sp) (hi : sp.issuer = .owner)
    (hc : exec c s = .next (runCommand op (renewing (checked sp (fun e s => underHandle e s (f e)))) r params s)) (h : s.runs op r params = true)
    (hu : s.update? r.handle = some u) (hopen : u.expiry.le s.clock.tb = false) (hlost : s.handleLost r.handle = false)
    (ht : settle (s.entryOf op r params) (f (s.entryOf op r params) { u with expiry := s.clock.tb.plus 800000000 }
      ((s.taken op r params).renewLease r.handle)) = t) : exec c s = .next t := by
  have hu' : (s.taken op r params).update? r.handle = some u := (s.taken_update? op r params r.handle).trans hu
  have hopen' : u.expiry.le (s.taken op r params).clock.tb = false := by rw [State.taken_clock]; exact hopen
  have hlost' : ((s.taken op r params).renewLease r.handle).handleLost r.handle = false := by
    rw [State.handleLost_renewLease, State.taken_handleLost]; exact hlost
  have hfound : ((s.taken op r params).renewLease r.handle).update? r.handle = some { u with expiry := s.clock.tb.plus 800000000 } := by
    rw [State.update?_renewLease hu', State.taken_clock, leaseTicks_eq]
  refine exec_eq_of_renews op _ hr hi hc h ?_
  rw [State.leaseSettled_of_open hu' hopen', underHandle_open hlost' hfound]
  exact ht

/-- Renewing a lease leaves open what filters the update's handle out. -/
theorem State.renewLease_without (s : State) (h : W16) :
    (s.renewLease h).arr.updates.filter (fun x => x.handle ≠ h) = s.arr.updates.filter (fun x => x.handle ≠ h) := by
  unfold State.renewLease
  dsimp only
  induction s.arr.updates with
  | nil => rfl
  | cons v vs ih =>
    rw [List.map_cons, List.filter_cons, List.filter_cons, ih]
    by_cases hv : v.handle = h <;> simp [hv]

/-- A command of an update whose lease was lost is told so once (R374). -/
theorem exec_eq_of_lost {c : Instr} {sp : OpSpec} {f : QEntry → Update → State → CmdOut} (op : Byte)
    (hr : rowOf op = some sp) (hi : sp.issuer = .owner)
    (hc : exec c s = .next (runCommand op (renewing (checked sp (fun e s => underHandle e s (f e)))) r params s)) (h : s.runs op r params = true)
    (hlost : s.handleLost r.handle = true ∨ (∃ u, s.update? r.handle = some u ∧ u.expiry.le s.clock.tb = true)) :
    exec c s = .next (s.finishes op r params { status := .leaseExpired, effectFrame := none, results := [] }
      (fun a => ((a.leaseSettled r.handle).renewLease r.handle).forgetHandle r.handle)) := by
  have hlost' : (((s.taken op r params).leaseSettled r.handle).renewLease r.handle).handleLost r.handle = true := by
    rw [State.handleLost_renewLease]
    by_cases hexpired : ∃ u, s.update? r.handle = some u ∧ u.expiry.le s.clock.tb = true
    · obtain ⟨u, hu, he⟩ := hexpired
      rw [State.leaseSettled_of_expired ((s.taken_update? op r params r.handle).trans hu) (by rw [State.taken_clock]; exact he)]
      simp [State.handleLost, ArrayS.loseUpdate]
    · rw [show (s.taken op r params).leaseSettled r.handle = s.taken op r params from ?_, State.taken_handleLost]
      · exact hlost.resolve_right hexpired
      · cases hu : s.update? r.handle with
        | none => exact State.leaseSettled_of_none ((s.taken_update? op r params r.handle).trans hu)
        | some u =>
          refine State.leaseSettled_of_open ((s.taken_update? op r params r.handle).trans hu) ?_
          rw [State.taken_clock]
          exact Bool.eq_false_iff.mpr fun he => hexpired ⟨u, hu, he⟩
  refine exec_eq_of_renews op _ hr hi hc h ?_
  simp only [underHandle, State.entryOf_req, hlost', if_true]
  exact settle_finish _ rfl

/-- A command under a handle that names no update (R452). -/
theorem exec_eq_of_unknown {c : Instr} {sp : OpSpec} {f : QEntry → Update → State → CmdOut} (op : Byte)
    (hr : rowOf op = some sp) (hi : sp.issuer = .owner)
    (hc : exec c s = .next (runCommand op (renewing (checked sp (fun e s => underHandle e s (f e)))) r params s)) (h : s.runs op r params = true)
    (hlost : s.handleLost r.handle = false) (hu : s.update? r.handle = none) : exec c s = .next (s.refuses op r params .badParam) := by
  have hu' : (s.taken op r params).update? r.handle = none := (s.taken_update? op r params r.handle).trans hu
  refine exec_eq_of_renews op _ hr hi hc h ?_
  rw [State.leaseSettled_of_none hu', State.renewLease_of_none hu']
  simp only [underHandle, State.entryOf_req, State.taken_handleLost, hlost, hu', Bool.false_eq_true, if_false]
  exact settle_refuse op _

/-- Settles O32: the lease is settled and renewed first; the update judged is the one the state held, but for its expiry. -/
theorem regionUpdates : Obligations.RegionUpdates := by
  refine ⟨fun s r params h => arrOpen_runs h, fun s r params u h hu hopen hlost => ?write, fun s r params u h hu hopen hlost => ?commit,
    fun s r params u h hu hopen hlost => ?abort, fun s r params x hx h => ?lost⟩
  case write =>
    have hhandle := State.update?_handle hu
    refine exec_eq_of_open 0x71 rfl rfl rfl h hu hopen hlost ?_
    simp only [State.entryOf_params, State.clock_renewLease, State.taken_clock, leaseTicks_eq, hhandle]
    exact settle_ite _ (settle_finish _ rfl) settle_renewed_write
  case commit =>
    have hhandle := State.update?_handle hu
    refine exec_eq_of_open 0x72 rfl rfl rfl h hu hopen hlost ?_
    simp only [State.entryOf_params, hhandle]
    exact settle_ite _ (settle_finish _ rfl) settle_renewed_write
  case abort =>
    have hhandle := State.update?_handle hu
    refine exec_eq_of_open 0x73 rfl rfl rfl h hu hopen hlost (settle_finish _ ?_)
    dsimp only
    rw [hhandle, State.renewLease_without]
    rfl
  case lost =>
    simp only [List.mem_cons, List.not_mem_nil, or_false] at hx
    obtain rfl | rfl | rfl := hx
    · exact ⟨exec_eq_of_lost 0x71 rfl rfl rfl h, exec_eq_of_unknown 0x71 rfl rfl rfl h⟩
    · exact ⟨exec_eq_of_lost 0x72 rfl rfl rfl h, exec_eq_of_unknown 0x72 rfl rfl rfl h⟩
    · exact ⟨exec_eq_of_lost 0x73 rfl rfl rfl h, exec_eq_of_unknown 0x73 rfl rfl rfl h⟩

end Sys2Proof.Machine
end

section
/-! PROOFS. LC_ADVANCE (R459, R601 to R603, R607): the conditions are those before admission, and the tenants that remain are known beforehand. -/

namespace Sys2Proof.Machine

variable {s : State} {r : Req} {params : List Byte}

@[simp] theorem State.taken_trimTab (s : State) (op : Byte) (r : Req) (params : List Byte) :
    (s.taken op r params).arr.trimTab = s.arr.trimTab := by
  obtain ⟨w, h⟩ := s.taken_arr op r params; rw [h]

/-- The conditions of a transition are met or not as before admission (R602). -/
theorem State.taken_unmet (s : State) (op : Byte) (r : Req) (params : List Byte) : (s.taken op r params).unmet = s.unmet := by
  funext n
  match n with
  | 0 | 1 | 2 | 3 | 4 | 5 | 6 | 7 => simp [State.unmet, State.pixModeNow]
  | n + 8 => rfl

/-- A polder's state, where a state changes its record but not that. -/
theorem State.state_modPol (s : State) (p q : PolId) (f : Polder → Polder) (h : ∀ x, (f x).state = x.state) :
    ((s.modPol p f).pol q).state = (s.pol q).state := s.pol_modPol_same Polder.state h p q

/-- A binding that changes hands changes no polder's state. -/
theorem State.state_rebindFrom (s : State) (old q : PolId) : ((s.rebindFrom old).pol q).state = (s.pol q).state := by
  unfold State.rebindFrom
  split
  · rfl
  · split
    · rfl
    · exact State.state_modPol _ old q _ (fun _ => rfl)

/-- Answers made VOID change no polder's state (R329). -/
theorem State.state_voidHeld (s : State) (p q : PolId) : ((s.voidHeld p).pol q).state = (s.pol q).state := State.state_modPol s p q _ (fun _ => rfl)

/-- A polder emptied is ABSENT (R327, R332). -/
theorem Polder.emptied_state (q : Polder) : q.emptied.state = .absent := rfl

/-- A polder that dissolves exists before and after (R329). -/
theorem State.absent_dissolve (s : State) (p q : PolId) (reason : Nat) (hp : (s.pol p).state ≠ .absent) :
    ((s.dissolve p reason).pol q).state ≠ .absent ↔ (s.pol q).state ≠ .absent := by
  unfold State.dissolve State.storePolder
  dsimp only
  rw [State.pol_requestItem, State.pol_modPol]
  split
  · next h => subst h; simp [hp]
  · rw [State.state_voidHeld]

/-- A key agreement that is abandoned discards its tenant, and no other tenant (R327). -/
theorem State.absent_abandonAgreement (s : State) {k : KeyAgreement} (hk : s.ka = some k) (hp : k.pol ≠ owner) (cause : Nat) (q : PolId)
    (hq : q ≠ owner) : ((s.abandonAgreement cause).pol q).state ≠ .absent ↔ (s.pol q).state ≠ .absent ∧ k.pol ≠ q := by
  unfold State.abandonAgreement
  simp only [hk, if_neg hp]
  rw [(Issues.ownerEvent _ _ _).pol q hq, State.state_rebindFrom, State.storeSeqs, State.storePolder, State.pol_requestItem,
    State.pol_requestItem, State.pol_modPol]
  by_cases h : q = k.pol
  · rw [if_pos h, Polder.emptied_state, h]
    simp
  · rw [if_neg h]
    exact (and_iff_left (Ne.symm h)).symm

/-- Every tenant dissolved in turn exists as it did (R329). -/
theorem State.absent_dissolveEach (l : List PolId) (s : State) (q : PolId) :
    ((l.foldl (fun s p => if p ≠ owner ∧ (s.pol p).state = .active then s.dissolve p 3 else s) s).pol q).state ≠ .absent ↔
      (s.pol q).state ≠ .absent := by
  induction l generalizing s with
  | nil => rfl
  | cons p l ih =>
    rw [List.foldl_cons, ih]
    split
    · next h => exact State.absent_dissolve s p q 3 (by rw [h.2]; decide)
    · rfl

/-- The tenants that remain once FIELD has been left: all but the one whose key agreement is discarded (R327, R603). -/
theorem State.absent_dissolveAll (s : State) (q : PolId) (hq : q ≠ owner) :
    ((s.dissolveAll).pol q).state ≠ .absent ↔ (s.pol q).state ≠ .absent ∧ s.ka.all (fun k => k.pol != q) = true := by
  unfold State.dissolveAll
  dsimp only
  rw [State.absent_dissolveEach]
  cases hk : s.ka with
  | none => simp
  | some k =>
    dsimp only
    by_cases hp : k.pol = owner
    · rw [if_pos hp]
      simp [hp, Ne.symm hq]
    · rw [if_neg hp, State.absent_abandonAgreement s hk hp 2 q hq]
      simp

/-- Whether a tenant remains once FIELD has been left (R603, R607). -/
theorem State.tenantExists_dissolveAll (s : State) : s.dissolveAll.tenantExists = true ↔
    ∃ p : PolId, p ≠ owner ∧ (s.pol p).state ≠ .absent ∧ s.ka.all (fun k => k.pol != p) = true := by
  simp only [State.tenantExists, List.any_eq_true, List.mem_finRange, true_and, Bool.and_eq_true, bne_iff_ne]
  exact exists_congr fun p => and_congr_right fun hp => State.absent_dissolveAll s p hp

/-- Settles O34: admission changes no condition, and which tenants remain follows from what dissolving and discarding do. -/
theorem lifecycleAdvance : Obligations.LifecycleAdvance := by
  intro s r params h
  refine exec_eq_of_runs 0x91 ownLcAdvance rfl rfl h ?_
  simp only [ownLcAdvance, State.entryOf_params, State.entryOf_esn, State.taken_life, State.taken_unmet, State.taken_writeRefusal]
  cases Lc.ofCode (byteAt params 0).toNat with
  | none => exact settle_refuse 0x91 _
  | some target =>
    dsimp only
    cases transition s.life.shadow target with
    | none => exact settle_refuse 0x91 _
    | some conditions =>
      refine settle_ite _ (settle_refuse 0x91 _) (settle_ite _ (settle_refuse 0x91 _) ?_)
      cases conditions.find? s.unmet with
      | some n => exact settle_finish _ rfl
      | none =>
        dsimp only
        cases s.writeRefusal with
        | some st => exact settle_refuse 0x91 _
        | none =>
          refine settle_ite_iff _ _ (and_congr_right fun hnow => ?_) (settle_holding _ rfl) (settle_ite _ (settle_holding _ rfl) (settle_finish _ rfl))
          rw [if_pos hnow, State.tenantExists_dissolveAll]
          simp

end Sys2Proof.Machine
end

section
/-! PROOFS. What an operation may change: the parts of the state it touches, and that nothing else of the state changes. The frames of the events
(O6 to O8) and of single operations are read off it. -/

namespace Sys2Proof.Machine

/-- The parts of the state an operation may change: the fields of the state, and of some fields a finer part. `bytes` are the addressed bytes of the
array, `tb` the time base, `doms` the states of the domains, `lifeCore`, `wheelCore` and `thermCore` what is beside CLEARED, the slot in progress and
the charge sums; `resets` allows a wait for a SYS_RESET to begin. -/
structure Touch where
  pending : Bool := false
  freeCtr : Bool := false
  clock : Bool := false
  power : Bool := false
  holdup : Bool := false
  wheel : Bool := false
  lands : Bool := false
  cols : Bool := false
  pols : Bool := false
  ka : Bool := false
  curSlice : Bool := false
  arr : Bool := false
  life : Bool := false
  bist : Bool := false
  therm : Bool := false
  host : Bool := false
  dali : Bool := false
  lineA : Bool := false
  lineB : Bool := false
  fab : Bool := false
  jtag : Bool := false
  restartCause : Bool := false
  carries : Bool := false
  early : Bool := false
  bytes : Bool := false
  tb : Bool := false
  doms : Bool := false
  lifeCore : Bool := false
  wheelCore : Bool := false
  thermCore : Bool := false
  resets : Bool := false

/-- One allowance implies another. -/
@[reducible] def implies (a b : Bool) : Bool := match a with
  | true => b
  | false => true

/-- Both hold. -/
@[reducible] def both (a b : Bool) : Bool := match a with
  | true => b
  | false => false

/-- The new value where it may differ, else the old. -/
@[reducible] def pick {α : Type} (b : Bool) (new old : α) : α := match b with
  | true => new
  | false => old

/-- Whatever one set of parts allows, the other allows. (It evaluates by its matches alone.) -/
@[reducible] def Touch.le (a b : Touch) : Bool :=
  both (implies a.pending b.pending) <| both (implies a.freeCtr b.freeCtr) <| both (implies a.clock b.clock) <| both (implies a.power b.power) <|
  both (implies a.holdup b.holdup) <| both (implies a.wheel b.wheel) <| both (implies a.lands b.lands) <| both (implies a.cols b.cols) <|
  both (implies a.pols b.pols) <| both (implies a.ka b.ka) <| both (implies a.curSlice b.curSlice) <| both (implies a.arr b.arr) <|
  both (implies a.life b.life) <| both (implies a.bist b.bist) <| both (implies a.therm b.therm) <| both (implies a.host b.host) <|
  both (implies a.dali b.dali) <| both (implies a.lineA b.lineA) <| both (implies a.lineB b.lineB) <| both (implies a.fab b.fab) <|
  both (implies a.jtag b.jtag) <| both (implies a.restartCause b.restartCause) <| both (implies a.carries b.carries) <| both (implies a.early b.early) <|
  both (implies a.bytes b.bytes) <| both (implies a.tb b.tb) <| both (implies a.doms b.doms) <| both (implies a.lifeCore b.lifeCore) <|
  both (implies a.wheelCore b.wheelCore) <| both (implies a.thermCore b.thermCore) <|
  implies a.resets b.resets

/-- From one state to another nothing changes but parts of `T`. -/
structure Only (T : Touch) (s t : State) : Prop where
  pending : T.pending = true ∨ t.pending = s.pending
  freeCtr : T.freeCtr = true ∨ t.freeCtr = s.freeCtr
  clock : T.clock = true ∨ t.clock = s.clock
  power : T.power = true ∨ t.power = s.power
  holdup : T.holdup = true ∨ t.holdup = s.holdup
  wheel : T.wheel = true ∨ t.wheel = s.wheel
  lands : T.lands = true ∨ t.lands = s.lands
  cols : T.cols = true ∨ t.cols = s.cols
  pols : T.pols = true ∨ t.pols = s.pols
  ka : T.ka = true ∨ t.ka = s.ka
  curSlice : T.curSlice = true ∨ t.curSlice = s.curSlice
  arr : T.arr = true ∨ t.arr = s.arr
  life : T.life = true ∨ t.life = s.life
  bist : T.bist = true ∨ t.bist = s.bist
  therm : T.therm = true ∨ t.therm = s.therm
  host : T.host = true ∨ t.host = s.host
  dali : T.dali = true ∨ t.dali = s.dali
  lineA : T.lineA = true ∨ t.lineA = s.lineA
  lineB : T.lineB = true ∨ t.lineB = s.lineB
  fab : T.fab = true ∨ t.fab = s.fab
  jtag : T.jtag = true ∨ t.jtag = s.jtag
  restartCause : T.restartCause = true ∨ t.restartCause = s.restartCause
  carries : T.carries = true ∨ t.carries = s.carries
  early : T.early = true ∨ t.early = s.early
  bytes : T.bytes = true ∨ t.arr.bytes = s.arr.bytes
  tb : T.tb = true ∨ t.clock.tb = s.clock.tb
  doms : T.doms = true ∨ t.power.doms = s.power.doms
  lifeCore : T.lifeCore = true ∨ { t.life with cleared := false } = { s.life with cleared := false }
  wheelCore : T.wheelCore = true ∨ { t.wheel with slot := none } = { s.wheel with slot := none }
  thermCore : T.thermCore = true ∨
    { t.therm with chargeSum := Thermal.initial.chargeSum, chargeTicks := 0 } = { s.therm with chargeSum := Thermal.initial.chargeSum, chargeTicks := 0 }
  resets : T.resets = true ∨ (s.waitsCarry .sysReset = false → t.waitsCarry .sysReset = false)

variable {T A B : Touch} {s t u : State}

/-- A part that is allowed to change, or is the same, is so from the first state to the last. -/
theorem same_trans {b : Bool} {α : Type} {x y z : α} (h : b = true ∨ y = x) (k : b = true ∨ z = y) : b = true ∨ z = x := by
  rcases h with h | rfl
  · exact .inl h
  · exact k

/-- The same for a property that is kept. -/
theorem kept_trans {b : Bool} {p q r : Prop} (h : b = true ∨ (p → q)) (k : b = true ∨ (q → r)) : b = true ∨ (p → r) := by
  rcases h with h | h
  · exact .inl h
  · exact k.imp_right fun k hp => k (h hp)

/-- More parts allow more. -/
theorem allowed_of_le {a b : Bool} {p : Prop} (hab : implies a b = true) (h : a = true ∨ p) : b = true ∨ p := by
  rcases h with rfl | h
  · exact .inl hab
  · exact .inr h

theorem both_iff {a b : Bool} : both a b = true ↔ a = true ∧ b = true := by cases a <;> simp

/-- An allowance that implies a second one implies what that implies. -/
theorem implies_trans {a b c : Bool} (h : implies a b = true) (k : implies b c = true) : implies a c = true := by
  cases a
  · rfl
  · cases b
    · cases h
    · exact k

theorem Touch.le_trans {A B C : Touch} (h : A.le B = true) (k : B.le C = true) : A.le C = true := by
  simp only [Touch.le, both_iff] at h k ⊢
  obtain ⟨h0, h1, h2, h3, h4, h5, h6, h7, h8, h9, h10, h11, h12, h13, h14, h15, h16, h17, h18, h19, h20, h21, h22, h23, h24, h25, h26, h27, h28, h29,
    h30⟩ := h
  obtain ⟨k0, k1, k2, k3, k4, k5, k6, k7, k8, k9, k10, k11, k12, k13, k14, k15, k16, k17, k18, k19, k20, k21, k22, k23, k24, k25, k26, k27, k28, k29,
    k30⟩ := k
  exact ⟨implies_trans h0 k0, implies_trans h1 k1, implies_trans h2 k2, implies_trans h3 k3, implies_trans h4 k4, implies_trans h5 k5, implies_trans
    h6 k6, implies_trans h7 k7, implies_trans h8 k8, implies_trans h9 k9, implies_trans h10 k10, implies_trans h11 k11, implies_trans h12
    k12, implies_trans h13 k13, implies_trans h14 k14, implies_trans h15 k15, implies_trans h16 k16, implies_trans h17 k17, implies_trans
    h18 k18, implies_trans h19 k19, implies_trans h20 k20, implies_trans h21 k21, implies_trans h22 k22, implies_trans h23 k23,
    implies_trans h24 k24, implies_trans h25 k25, implies_trans h26 k26, implies_trans h27 k27, implies_trans h28 k28, implies_trans h29
    k29, implies_trans h30 k30⟩

/-- A value picked is allowed to differ, or is the old one. -/
theorem allowed_of_pick {α : Type} {b : Bool} {x y : α} (h : x = pick b x y) : b = true ∨ x = y := by
  cases b
  · exact .inr h
  · exact .inl rfl

/-- The addressed bytes are those of the images, of the USER region, of the LOG and of the pages programmed by array address. -/
theorem allowed_bytes {b : Bool} {x y : ArrayS} (fw0 : b = true ∨ x.fw0.content = y.fw0.content) (fw1 : b = true ∨ x.fw1.content = y.fw1.content)
    (user : b = true ∨ x.user.content = y.user.content) (logCells : b = true ∨ x.logCells = y.logCells) (cells : b = true ∨ x.cells = y.cells) :
    b = true ∨ x.bytes = y.bytes := by
  cases b
  case true => exact .inl rfl
  case false =>
    simp only [Bool.false_eq_true, false_or] at fw0 fw1 user logCells cells
    refine .inr ?_
    simp only [ArrayS.bytes, fw0, fw1, user, logCells, cells]

theorem Only.refl (T : Touch) (s : State) : Only T s s :=
  ⟨.inr rfl, .inr rfl, .inr rfl, .inr rfl, .inr rfl, .inr rfl, .inr rfl, .inr rfl, .inr rfl, .inr rfl,
   .inr rfl, .inr rfl, .inr rfl, .inr rfl, .inr rfl, .inr rfl, .inr rfl, .inr rfl, .inr rfl, .inr rfl,
   .inr rfl, .inr rfl, .inr rfl, .inr rfl, .inr rfl, .inr rfl, .inr rfl, .inr rfl, .inr rfl, .inr rfl, .inr id⟩

theorem Only.trans (h : Only T s t) (k : Only T t u) : Only T s u :=
  ⟨same_trans h.pending k.pending, same_trans h.freeCtr k.freeCtr, same_trans h.clock k.clock, same_trans h.power k.power,
   same_trans h.holdup k.holdup, same_trans h.wheel k.wheel, same_trans h.lands k.lands, same_trans h.cols k.cols,
   same_trans h.pols k.pols, same_trans h.ka k.ka, same_trans h.curSlice k.curSlice, same_trans h.arr k.arr,
   same_trans h.life k.life, same_trans h.bist k.bist, same_trans h.therm k.therm, same_trans h.host k.host,
   same_trans h.dali k.dali, same_trans h.lineA k.lineA, same_trans h.lineB k.lineB, same_trans h.fab k.fab,
   same_trans h.jtag k.jtag, same_trans h.restartCause k.restartCause, same_trans h.carries k.carries, same_trans h.early k.early,
   same_trans h.bytes k.bytes, same_trans h.tb k.tb, same_trans h.doms k.doms, same_trans h.lifeCore k.lifeCore,
   same_trans h.wheelCore k.wheelCore, same_trans h.thermCore k.thermCore, kept_trans h.resets k.resets⟩

theorem Only.mono (h : Only A s t) (hAB : A.le B = true) : Only B s t := by
  simp only [Touch.le, both_iff] at hAB
  obtain ⟨k0, k1, k2, k3, k4, k5, k6, k7, k8, k9, k10, k11, k12, k13, k14, k15,
    k16, k17, k18, k19, k20, k21, k22, k23, k24, k25, k26, k27, k28, k29, k30⟩ := hAB
  exact ⟨allowed_of_le k0 h.pending, allowed_of_le k1 h.freeCtr, allowed_of_le k2 h.clock, allowed_of_le k3 h.power,
    allowed_of_le k4 h.holdup, allowed_of_le k5 h.wheel, allowed_of_le k6 h.lands, allowed_of_le k7 h.cols,
    allowed_of_le k8 h.pols, allowed_of_le k9 h.ka, allowed_of_le k10 h.curSlice, allowed_of_le k11 h.arr,
    allowed_of_le k12 h.life, allowed_of_le k13 h.bist, allowed_of_le k14 h.therm, allowed_of_le k15 h.host,
    allowed_of_le k16 h.dali, allowed_of_le k17 h.lineA, allowed_of_le k18 h.lineB, allowed_of_le k19 h.fab,
    allowed_of_le k20 h.jtag, allowed_of_le k21 h.restartCause, allowed_of_le k22 h.carries, allowed_of_le k23 h.early,
    allowed_of_le k24 h.bytes, allowed_of_le k25 h.tb, allowed_of_le k26 h.doms, allowed_of_le k27 h.lifeCore,
    allowed_of_le k28 h.wheelCore, allowed_of_le k29 h.thermCore, allowed_of_le k30 h.resets⟩

/-- An operation after others: what it touches is among the parts allowed. -/
theorem Only.after (h : Only A t u) (hs : Only B s t) (hAB : A.le B = true) : Only B s u :=
  hs.trans (h.mono hAB)

/-- A state literal: each field is another's, or allowed to change. (`pending` belongs to the step alone, and tells which state the fields come
from; the rest is one equation that holds by evaluation.) -/
theorem Only.upd {a1 a2 a3 a4 a5 a6 a7 a8 a9 a10 a11 a12 a13 a14 a15 a16 a17 a18 a19 a20 a21 a22 a23 a24}
    (pending : a1 = t.pending) (h : Only T s t)
    (kept :
      (a2, a3, a4, a5, a6, a7, a8, a9, a10, a11, a12, a13, a14, a15, a16, a17, a18, a19, a20, a21, a22, a23, a24, a12.fw0.content,
       a12.fw1.content, a12.user.content, a12.logCells, a12.cells, a3.tb, a4.doms, { a13 with cleared := false },
       { a6 with slot := none }, { a15 with chargeSum := Thermal.initial.chargeSum, chargeTicks := 0 }, a23) =
      (pick T.freeCtr a2 t.freeCtr, pick T.clock a3 t.clock, pick T.power a4 t.power, pick T.holdup a5 t.holdup, pick T.wheel a6 t.wheel,
       pick T.lands a7 t.lands, pick T.cols a8 t.cols, pick T.pols a9 t.pols, pick T.ka a10 t.ka, pick T.curSlice a11 t.curSlice,
       pick T.arr a12 t.arr, pick T.life a13 t.life, pick T.bist a14 t.bist, pick T.therm a15 t.therm, pick T.host a16 t.host,
       pick T.dali a17 t.dali, pick T.lineA a18 t.lineA, pick T.lineB a19 t.lineB, pick T.fab a20 t.fab, pick T.jtag a21 t.jtag,
       pick T.restartCause a22 t.restartCause, pick T.carries a23 t.carries, pick T.early a24 t.early,
       pick T.bytes a12.fw0.content t.arr.fw0.content, pick T.bytes a12.fw1.content t.arr.fw1.content,
       pick T.bytes a12.user.content t.arr.user.content, pick T.bytes a12.logCells t.arr.logCells, pick T.bytes a12.cells t.arr.cells,
       pick T.tb a3.tb t.clock.tb, pick T.doms a4.doms t.power.doms,
       pick T.lifeCore ({ a13 with cleared := false }) ({ t.life with cleared := false }),
       pick T.wheelCore ({ a6 with slot := none }) ({ t.wheel with slot := none }),
       pick T.thermCore ({ a15 with chargeSum := Thermal.initial.chargeSum, chargeTicks := 0 }) ({ t.therm with chargeSum := Thermal.initial.chargeSum, chargeTicks := 0 }),
       pick T.resets a23 t.carries)) :
    Only T s (State.mk a1 a2 a3 a4 a5 a6 a7 a8 a9 a10 a11 a12 a13 a14 a15 a16 a17 a18 a19 a20 a21 a22 a23 a24) := by
  simp only [Prod.mk.injEq] at kept
  obtain ⟨freeCtr, clock, power, holdup, wheel, lands, cols, pols, ka, curSlice, arr, life, bist, therm, host, dali, lineA, lineB, fab, jtag,
    restartCause, carries, early, fw0, fw1, user, logCells, cells, tb, doms, lifeCore, wheelCore, thermCore, resets⟩ := kept
  refine h.trans ⟨.inr pending, allowed_of_pick freeCtr, allowed_of_pick clock, allowed_of_pick power, allowed_of_pick holdup, allowed_of_pick wheel,
    allowed_of_pick lands, allowed_of_pick cols, allowed_of_pick pols, allowed_of_pick ka, allowed_of_pick curSlice, allowed_of_pick arr,
    allowed_of_pick life, allowed_of_pick bist, allowed_of_pick therm, allowed_of_pick host, allowed_of_pick dali, allowed_of_pick lineA,
    allowed_of_pick lineB, allowed_of_pick fab, allowed_of_pick jtag, allowed_of_pick restartCause, allowed_of_pick carries,
    allowed_of_pick early,
    ?_, allowed_of_pick tb, allowed_of_pick doms, allowed_of_pick lifeCore, allowed_of_pick wheelCore, allowed_of_pick thermCore, ?_⟩
  · exact allowed_bytes (allowed_of_pick fw0) (allowed_of_pick fw1) (allowed_of_pick user) (allowed_of_pick logCells) (allowed_of_pick cells)
  · refine (allowed_of_pick resets).imp_right fun hc hw => ?_
    simp only [State.waitsCarry] at hw ⊢
    rw [hc]
    exact hw

/-- Waits that all waited before: no wait for a SYS_RESET begins. -/
theorem Only.carriesKept {l : List Carry} (hl : ∀ c ∈ l, ∃ d ∈ s.carries, c.why = d.why) :
    Only { carries := true } s { s with carries := l } := by
  refine { Only.refl { carries := true } s with carries := .inl rfl, resets := .inr fun h => ?_ }
  simp only [State.waitsCarry, List.any_eq_false, decide_eq_true_eq] at h ⊢
  intro c hc
  obtain ⟨d, hd, hw⟩ := hl c hc
  rw [hw]
  exact h d hd

/-- Another array with the same addressed bytes. -/
theorem Only.setArr {a : ArrayS} (ha : a.bytes = s.arr.bytes) : Only { arr := true } s { s with arr := a } :=
  { Only.refl { arr := true } s with arr := .inl rfl, bytes := .inr ha }

/-- A branch. -/
theorem Only.ite {c : Prop} [Decidable c] (ht : Only T s t) (hu : Only T s u) : Only T s (if c then t else u) := by split <;> assumption

/-- A fold of operations that each keep to the parts. -/
theorem Only.foldl {α : Type} (f : State → α → State) (l : List α) (h : Only T s t) (hf : ∀ u x, Only T u (f u x)) :
    Only T s (l.foldl f t) := by
  induction l generalizing t with
  | nil => exact h
  | cons x l ih => exact ih (h.trans (hf t x))

/-- The state of a pair. -/
theorem Only.snd {α : Type} {x : α × State} {a : α} (e : x = (a, t)) (h : Only T s x.2) : Only T s t := by
  rw [e] at h; exact h

/-- The next state of an outcome, if any, has changed in parts of `T` alone. -/
def OnlyNext (T : Touch) (s : State) (o : Host.Outcome State Fault Refusal) : Prop := ∀ t, o = .next t → Only T s t

theorem OnlyNext.next (h : Only T s t) : OnlyNext T s (.next t) := by
  intro u hu
  cases hu
  exact h

theorem OnlyNext.fault (f : Fault) : OnlyNext T s (.fault f) := fun _ h => by cases h

theorem OnlyNext.ite {c : Prop} [Decidable c] {x y : Host.Outcome State Fault Refusal} (hx : OnlyNext T s x) (hy : OnlyNext T s y) :
    OnlyNext T s (if c then x else y) := by split <;> assumption

theorem Only.done {a : Answer} (h : Only T s t) : Only T s (CmdOut.done a t).after := h
theorem Only.hold {r : HoldRule} {a : Option Answer} (h : Only T s t) : Only T s (CmdOut.hold r a t).after := h
theorem Only.replyHold {r : HoldRule} {a : Answer} (h : Only T s t) : Only T s (CmdOut.replyHold r a t).after := h

theorem Only.afterIte {c : Prop} [Decidable c] {x y : CmdOut} (hx : Only T s x.after) (hy : Only T s y.after) :
    Only T s (if c then x else y).after := by split <;> assumption

/-- A polder changes, and nothing else. -/
theorem State.modPol_only {p : PolId} {f : Polder → Polder} : Only { pols := true } s (s.modPol p f) := Only.upd rfl (Only.refl _ _) rfl

/-- The polders change, and nothing else. -/
theorem State.mapPols_only {f : PolId → Polder → Polder} : Only { pols := true } s (s.mapPols f) := Only.upd rfl (Only.refl _ _) rfl

end Sys2Proof.Machine
end

section
/-! PROOFS. What the operations of Machine/Ops.lean touch. -/

namespace Sys2Proof.Machine

variable {T : Touch} {s t : State}

set_option linter.unusedTactic false
set_option linter.unreachableTactic false
set_option linter.unusedVariables false

theorem State.modPort_only (p : Port) (f : LinePort → LinePort) (s : State) :
    Only { lineA := true, lineB := true } s (State.modPort p f s) := by
  unfold State.modPort
  repeat' (with_reducible first
    | exact Only.refl _ _ | refine Only.ite ?_ ?_ | (fail_if_no_progress refine Only.upd rfl ?_ rfl) | split | dsimp only | intro _)

theorem State.countPort_only (p : Port) (i : Nat) (s : State) :
    Only { lineA := true, lineB := true } s (State.countPort p i s) := by
  unfold State.countPort
  repeat' (with_reducible first
    | exact Only.refl _ _ | refine (State.modPort_only ..).after ?_ rfl | refine Only.ite ?_ ?_
    | (fail_if_no_progress refine Only.upd rfl ?_ rfl) | split | dsimp only | intro _)

theorem State.silencePix_only (s : State) :
    Only { wheel := true } s (State.silencePix s) := by
  unfold State.silencePix
  repeat' (with_reducible first
    | exact Only.refl _ _ | refine Only.ite ?_ ?_ | (fail_if_no_progress refine Only.upd rfl ?_ rfl) | split | dsimp only | intro _)

theorem State.drawn_only (s : State) :
    Only { freeCtr := true } s (State.drawn s) := by
  unfold State.drawn
  repeat' (with_reducible first
    | exact Only.refl _ _ | refine Only.ite ?_ ?_ | (fail_if_no_progress refine Only.upd rfl ?_ rfl) | split | dsimp only | intro _)

theorem State.requestItem_only (p : PolId) (v : ItemValue) (s : State) :
    Only { arr := true } s (State.requestItem p v s) := by
  unfold State.requestItem
  repeat' (with_reducible first
    | exact Only.refl _ _ | refine Only.ite ?_ ?_ | (fail_if_no_progress refine Only.upd rfl ?_ rfl) | split | dsimp only | intro _)

theorem State.reserveSeq_only (p : PolId) (s : State) :
    Only { arr := true } s (State.reserveSeq p s) := by
  unfold State.reserveSeq
  repeat' (with_reducible first
    | exact Only.refl _ _ | refine (State.requestItem_only ..).after ?_ rfl | refine Only.ite ?_ ?_
    | (fail_if_no_progress refine Only.upd rfl ?_ rfl) | split | dsimp only | intro _)

theorem State.reserveFrames_only (s : State) :
    Only { arr := true } s (State.reserveFrames s) := by
  unfold State.reserveFrames
  repeat' (with_reducible first
    | exact Only.refl _ _ | refine (State.requestItem_only ..).after ?_ rfl | refine Only.ite ?_ ?_
    | (fail_if_no_progress refine Only.upd rfl ?_ rfl) | split | dsimp only | intro _)

theorem State.addJob_only (p : PolId) (j : PageJob) (s : State) :
    Only { arr := true } s (State.addJob p j s) := by
  unfold State.addJob
  repeat' (with_reducible first
    | exact Only.refl _ _ | refine Only.ite ?_ ?_ | (fail_if_no_progress refine Only.upd rfl ?_ rfl) | split | dsimp only | intro _)

theorem State.pushLog_only (tb : Tb) (frame : W32) (code : Nat) (payload : List Byte) (s : State) :
    Only { arr := true } s (State.pushLog tb frame code payload s) := by
  unfold State.pushLog
  repeat' (with_reducible first
    | exact Only.refl _ _ | refine (State.addJob_only ..).after ?_ rfl | refine Only.ite ?_ ?_
    | (fail_if_no_progress refine Only.upd rfl ?_ rfl) | split | dsimp only | intro _)

theorem State.logEntry_only (tb : Tb) (frame : W32) (code : Nat) (payload : List Byte) (s : State) :
    Only { arr := true } s (State.logEntry tb frame code payload s) := by
  unfold State.logEntry
  repeat' (with_reducible first
    | exact Only.refl _ _ | refine (State.pushLog_only ..).after ?_ rfl | refine Only.ite ?_ ?_
    | (fail_if_no_progress refine Only.upd rfl ?_ rfl) | split | dsimp only | intro _)

theorem State.issueRecord_only (p : PolId) (rtype : Nat) (frame : W32) (body : List Byte) (s : State) :
    Only { pols := true, arr := true } s (State.issueRecord p rtype frame body s) := by
  unfold State.issueRecord
  repeat' (with_reducible first
    | exact Only.refl _ _ | refine State.modPol_only.after ?_ rfl | refine (State.reserveSeq_only ..).after ?_ rfl | refine Only.ite ?_ ?_
    | (fail_if_no_progress refine Only.upd rfl ?_ rfl) | split | dsimp only | intro _)

theorem State.modTcmp_only (ch : Fin 16) (f : Tcmp → Tcmp) (s : State) :
    Only { clock := true } s (State.modTcmp ch f s) := by
  unfold State.modTcmp
  repeat' (with_reducible first
    | exact Only.refl _ _ | refine Only.ite ?_ ?_ | (fail_if_no_progress refine Only.upd rfl ?_ rfl) | split | dsimp only | intro _)

theorem State.resolveEvent_only (e : EventRec) (s : State) :
    Only { clock := true } s (State.resolveEvent e s).2 := by
  unfold State.resolveEvent
  repeat' (with_reducible first
    | exact Only.refl _ _ | refine (State.modTcmp_only ..).after ?_ rfl | refine Only.ite ?_ ?_
    | (fail_if_no_progress refine Only.upd rfl ?_ rfl) | split | dsimp only | intro _)

theorem State.issueEvent_only (p : PolId) (e : EventRec) (s : State) :
    Only { clock := true, pols := true, arr := true } s (State.issueEvent p e s) := by
  unfold State.issueEvent
  repeat' (with_reducible first
    | exact Only.refl _ _ | refine (State.logEntry_only ..).after ?_ rfl | refine (State.issueRecord_only ..).after ?_ rfl
    | refine (State.resolveEvent_only ..).after ?_ rfl | refine Only.ite ?_ ?_ | (fail_if_no_progress refine Only.upd rfl ?_ rfl)
    | split | dsimp only | refine Only.snd (by assumption) ?_ | intro _)

theorem State.issueEventsN_only (n : Nat) (p : PolId) (s : State) :
    Only { clock := true, pols := true, arr := true } s (State.issueEventsN n p s) := by
  induction n generalizing s with
  | zero => exact Only.refl _ _
  | succ n ih =>
    unfold State.issueEventsN
    split
    · exact Only.refl _ _
    · split
      · exact Only.refl _ _
      · exact (ih _).after ((State.issueEvent_only ..).after (State.modPol_only.after (Only.refl _ _) rfl) rfl) rfl


theorem State.issueEvents_only (p : PolId) (s : State) :
    Only { clock := true, pols := true, arr := true } s (State.issueEvents p s) := by
  unfold State.issueEvents
  repeat' (with_reducible first
    | exact Only.refl _ _ | refine (State.issueEventsN_only ..).after ?_ rfl | refine Only.ite ?_ ?_
    | (fail_if_no_progress refine Only.upd rfl ?_ rfl) | split | dsimp only | intro _)

theorem State.issueAll_only (s : State) :
    Only { clock := true, pols := true, arr := true } s (State.issueAll s) := by
  unfold State.issueAll
  repeat' (with_reducible first
    | exact Only.refl _ _ | refine (State.issueEvents_only ..).after ?_ rfl | refine Only.foldl _ _ ?_ (fun _ _ => ?_)
    | refine Only.ite ?_ ?_ | (fail_if_no_progress refine Only.upd rfl ?_ rfl) | split | dsimp only | intro _)

theorem State.eventAt_only (p : PolId) (code : Nat) (frame : W32) (tb : Tb) (payload : List Byte) (s : State) :
    Only { clock := true, pols := true, arr := true } s (State.eventAt p code frame tb payload s) := by
  unfold State.eventAt
  repeat' (with_reducible first
    | exact Only.refl _ _ | refine State.modPol_only.after ?_ rfl | refine (State.issueEvents_only ..).after ?_ rfl | refine Only.ite ?_ ?_
    | (fail_if_no_progress refine Only.upd rfl ?_ rfl) | split | dsimp only | intro _)

theorem State.event_only (p : PolId) (code : Nat) (payload : List Byte) (s : State) :
    Only { clock := true, pols := true, arr := true } s (State.event p code payload s) := by
  unfold State.event
  repeat' (with_reducible first
    | exact Only.refl _ _ | refine (State.eventAt_only ..).after ?_ rfl | refine Only.ite ?_ ?_
    | (fail_if_no_progress refine Only.upd rfl ?_ rfl) | split | dsimp only | intro _)

theorem State.ownerEvent_only (code : Nat) (payload : List Byte) (s : State) :
    Only { clock := true, pols := true, arr := true } s (State.ownerEvent code payload s) := by
  unfold State.ownerEvent
  repeat' (with_reducible first
    | exact Only.refl _ _ | refine (State.event_only ..).after ?_ rfl | refine Only.ite ?_ ?_
    | (fail_if_no_progress refine Only.upd rfl ?_ rfl) | split | dsimp only | intro _)

theorem State.patientEvent_only (code : Nat) (payload : List Byte) (s : State) :
    Only { clock := true, pols := true, arr := true, early := true } s (State.patientEvent code payload s) := by
  unfold State.patientEvent
  repeat' (with_reducible first
    | exact Only.refl _ _ | refine (State.ownerEvent_only ..).after ?_ rfl | refine Only.ite ?_ ?_
    | (fail_if_no_progress refine Only.upd rfl ?_ rfl) | split | dsimp only | intro _)

theorem State.supplyEvent_only (code : Nat) (payload : List Byte) (s : State) :
    Only { clock := true, pols := true, arr := true, early := true } s (State.supplyEvent code payload s) := by
  unfold State.supplyEvent
  repeat' (with_reducible first
    | exact Only.refl _ _ | refine (State.ownerEvent_only ..).after ?_ rfl | refine (State.patientEvent_only ..).after ?_ rfl
    | refine Only.ite ?_ ?_ | (fail_if_no_progress refine Only.upd rfl ?_ rfl) | split | dsimp only | intro _)

theorem State.flushEarly_only (s : State) :
    Only { clock := true, pols := true, arr := true, early := true } s (State.flushEarly s) := by
  unfold State.flushEarly
  repeat' (with_reducible first
    | exact Only.refl _ _ | refine (State.eventAt_only ..).after ?_ rfl | refine Only.foldl _ _ ?_ (fun _ _ => ?_) | refine Only.ite ?_ ?_
    | (fail_if_no_progress refine Only.upd rfl ?_ rfl) | split | dsimp only | intro _)

theorem State.decidePortMode_only (s : State) :
    Only { clock := true, power := true, pols := true, arr := true } s (State.decidePortMode s) := by
  unfold State.decidePortMode
  repeat' (with_reducible first
    | exact Only.refl _ _ | refine (State.ownerEvent_only ..).after ?_ rfl | refine Only.ite ?_ ?_
    | (fail_if_no_progress refine Only.upd rfl ?_ rfl) | split | dsimp only | intro _)

theorem State.eventAll_only (code : Nat) (payload : List Byte) (s : State) :
    Only { clock := true, pols := true, arr := true } s (State.eventAll code payload s) := by
  unfold State.eventAll
  repeat' (with_reducible first
    | exact Only.refl _ _ | refine (State.event_only ..).after ?_ rfl | refine Only.foldl _ _ ?_ (fun _ _ => ?_) | refine Only.ite ?_ ?_
    | (fail_if_no_progress refine Only.upd rfl ?_ rfl) | split | dsimp only | intro _)

theorem State.queueReply_only (p : PolId) (r : Reply) (s : State) :
    Only { pols := true } s (State.queueReply p r s) := by
  unfold State.queueReply
  repeat' (with_reducible first
    | exact Only.refl _ _ | refine State.modPol_only.after ?_ rfl | refine Only.ite ?_ ?_ | (fail_if_no_progress refine Only.upd rfl ?_ rfl)
    | split | dsimp only | intro _)

theorem State.deliver_only (p : PolId) (e : QEntry) (a : Answer) (s : State) :
    Only { pols := true } s (State.deliver p e a s) := by
  unfold State.deliver
  repeat' (with_reducible first
    | exact Only.refl _ _ | refine State.modPol_only.after ?_ rfl | refine Only.ite ?_ ?_ | (fail_if_no_progress refine Only.upd rfl ?_ rfl)
    | split | dsimp only | intro _)

theorem State.drawBackoff_only (p : Port) (s : State) :
    Only { freeCtr := true, lineA := true, lineB := true } s (State.drawBackoff p s) := by
  unfold State.drawBackoff
  repeat' (with_reducible first
    | exact Only.refl _ _ | refine (State.modPort_only ..).after ?_ rfl | refine (State.drawn_only ..).after ?_ rfl | refine Only.ite ?_ ?_
    | (fail_if_no_progress refine Only.upd rfl ?_ rfl) | split | dsimp only | intro _)

theorem State.contend_only (p : Port) (f : TxFrame) (s : State) :
    Only { freeCtr := true, lineA := true, lineB := true } s (State.contend p f s) := by
  unfold State.contend
  repeat' (with_reducible first
    | exact Only.refl _ _ | refine (State.modPort_only ..).after ?_ rfl | refine (State.drawBackoff_only ..).after ?_ rfl
    | refine Only.ite ?_ ?_ | (fail_if_no_progress refine Only.upd rfl ?_ rfl) | split | dsimp only | intro _)

theorem State.contendPacket_only (dst : BitVec 12) (k : OutPacket) (s : State) :
    Only { freeCtr := true, lineA := true, lineB := true } s (State.contendPacket dst k s) := by
  unfold State.contendPacket
  repeat' (with_reducible first
    | exact Only.refl _ _ | refine (State.contend_only ..).after ?_ rfl | refine Only.ite ?_ ?_
    | (fail_if_no_progress refine Only.upd rfl ?_ rfl) | split | dsimp only | intro _)

theorem State.untagged_only (p : PolId) (seq : W16) (st : Status) (next : W16) (path : Path) (s : State) :
    Only { freeCtr := true, host := true, lineA := true, lineB := true, fab := true } s (State.untagged p seq st next path s) := by
  unfold State.untagged
  repeat' (with_reducible first
    | exact Only.refl _ _ | refine (State.countPort_only ..).after ?_ rfl | refine (State.contendPacket_only ..).after ?_ rfl
    | refine Only.ite ?_ ?_ | (fail_if_no_progress refine Only.upd rfl ?_ rfl) | split | dsimp only | intro _)

theorem State.trigger_only (p : PolId) (src : TrigSrc) (s : State) :
    Only { wheel := true, pols := true } s (State.trigger p src s) := by
  unfold State.trigger
  repeat' (with_reducible first
    | exact Only.refl _ _ | refine State.modPol_only.after ?_ rfl | refine Only.ite ?_ ?_ | (fail_if_no_progress refine Only.upd rfl ?_ rfl)
    | split | dsimp only | intro _)

theorem State.latchWake_only (i : Nat) (s : State) :
    Only { power := true } s (State.latchWake i s) := by
  unfold State.latchWake
  repeat' (with_reducible first
    | exact Only.refl _ _ | refine Only.ite ?_ ?_ | (fail_if_no_progress refine Only.upd rfl ?_ rfl) | split | dsimp only | intro _)

theorem State.wakeTrigger_only (woke : Bool) (p : PolId) (src : TrigSrc) (s : State) :
    Only { power := true, wheel := true, pols := true } s (State.wakeTrigger woke p src s) := by
  unfold State.wakeTrigger
  repeat' (with_reducible first
    | exact Only.refl _ _ | refine (State.trigger_only ..).after ?_ rfl | refine Only.ite ?_ ?_
    | (fail_if_no_progress refine Only.upd rfl ?_ rfl) | split | dsimp only | intro _)

theorem State.replayTriggers_only (s : State) :
    Only { power := true, wheel := true, pols := true } s (State.replayTriggers s) := by
  unfold State.replayTriggers
  repeat' (with_reducible first
    | exact Only.refl _ _ | refine (State.trigger_only ..).after ?_ rfl | refine Only.foldl _ _ ?_ (fun _ _ => ?_) | refine Only.ite ?_ ?_
    | (fail_if_no_progress refine Only.upd rfl ?_ rfl) | split | dsimp only | intro _)

theorem State.stamp_only (ch : Fin 16) (s : State) :
    Only { clock := true, pols := true, arr := true } s (State.stamp ch s) := by
  unfold State.stamp
  repeat' (with_reducible first
    | exact Only.refl _ _ | refine (State.modTcmp_only ..).after ?_ rfl | refine (State.event_only ..).after ?_ rfl | refine Only.ite ?_ ?_
    | (fail_if_no_progress refine Only.upd rfl ?_ rfl) | split | dsimp only | intro _)

theorem State.fireTcmp_only (ch : Fin 16) (s : State) :
    Only { clock := true, power := true, wheel := true, pols := true, arr := true } s (State.fireTcmp ch s) := by
  unfold State.fireTcmp
  repeat' (with_reducible first
    | exact Only.refl _ _ | refine (State.modTcmp_only ..).after ?_ rfl | refine (State.latchWake_only ..).after ?_ rfl
    | refine (State.wakeTrigger_only ..).after ?_ rfl | refine (State.stamp_only ..).after ?_ rfl | refine Only.ite ?_ ?_
    | (fail_if_no_progress refine Only.upd rfl ?_ rfl) | split | dsimp only | intro _)

theorem State.fireDue_only (s : State) :
    Only { clock := true, power := true, wheel := true, pols := true, arr := true } s (State.fireDue s) := by
  unfold State.fireDue
  repeat' (with_reducible first
    | exact Only.refl _ _ | refine (State.fireTcmp_only ..).after ?_ rfl | refine Only.foldl _ _ ?_ (fun _ _ => ?_) | refine Only.ite ?_ ?_
    | (fail_if_no_progress refine Only.upd rfl ?_ rfl) | split | dsimp only | intro _)

theorem doneOk_only (rs : List Byte) (s : State) :
    Only {} s (doneOk rs s).after := by
  unfold doneOk
  repeat' (with_reducible first
    | exact Only.refl _ _ | refine Only.done ?_ | refine Only.hold ?_ | refine Only.replyHold ?_ | refine Only.afterIte ?_ ?_
    | refine Only.ite ?_ ?_ | (fail_if_no_progress refine Only.upd rfl ?_ rfl) | split | dsimp only | intro _)

theorem doneAt_only (f : W32) (rs : List Byte) (s : State) :
    Only {} s (doneAt f rs s).after := by
  unfold doneAt
  repeat' (with_reducible first
    | exact Only.refl _ _ | refine Only.done ?_ | refine Only.hold ?_ | refine Only.replyHold ?_ | refine Only.afterIte ?_ ?_
    | refine Only.ite ?_ ?_ | (fail_if_no_progress refine Only.upd rfl ?_ rfl) | split | dsimp only | intro _)

theorem refuse_only (st : Status) (s : State) :
    Only {} s (refuse st s).after := by
  unfold refuse
  repeat' (with_reducible first
    | exact Only.refl _ _ | refine Only.done ?_ | refine Only.hold ?_ | refine Only.replyHold ?_ | refine Only.afterIte ?_ ?_
    | refine Only.ite ?_ ?_ | (fail_if_no_progress refine Only.upd rfl ?_ rfl) | split | dsimp only | intro _)

theorem State.assemblyCheck_only (s : State) (e : QEntry) :
    Only { pols := true } s (State.assemblyCheck s e).2 := by
  unfold State.assemblyCheck
  repeat' (with_reducible first
    | exact Only.refl _ _ | refine State.modPol_only.after ?_ rfl | refine Only.ite ?_ ?_ | (fail_if_no_progress refine Only.upd rfl ?_ rfl)
    | split | dsimp only | intro _)

theorem checked_only {sp : OpSpec} {own : QEntry → State → CmdOut} {e : QEntry} (hT : ({ pols := true } : Touch).le T = true)
    (ho : ∀ e t, Only T t (own e t).after) : Only T s (checked sp own e s).after := by
  have ha : Only T s (s.assemblyCheck e).2 := (State.assemblyCheck_only ..).mono hT
  unfold checked
  repeat (refine Only.afterIte ((refuse_only ..).after (Only.refl _ _) rfl) ?_)
  split <;> (rename_i heq; rw [heq] at ha)
  · exact (refuse_only ..).after ha rfl
  · exact ha.trans (ho _ _)


theorem Only.writeThen {rule : HoldRule} {a : Answer} {req : State → State} (h : Only T s t) (hr : ∀ u, Only T u (req u)) :
    Only T s (writeThen rule a t req).after := by
  unfold Machine.writeThen
  refine Only.afterIte h ?_
  split
  · exact (refuse_only ..).after h rfl
  · exact h.trans (hr t)


theorem Only.commitThen {item : Nat} {a : Answer} {req : State → State} (h : Only T s t) (hr : ∀ u, Only T u (req u)) :
    Only T s (commitThen item a t req).after := h.writeThen hr


theorem goneAnswer_only (e : QEntry) (s : State) :
    Only { pols := true } s (goneAnswer e s).after := by
  unfold goneAnswer
  repeat' (with_reducible first
    | exact Only.refl _ _ | refine State.modPol_only.after ?_ rfl | refine (refuse_only ..).after ?_ rfl | refine Only.done ?_
    | refine Only.hold ?_ | refine Only.replyHold ?_ | refine Only.afterIte ?_ ?_ | refine Only.ite ?_ ?_
    | (fail_if_no_progress refine Only.upd rfl ?_ rfl) | split | dsimp only | intro _)

theorem settle_only {e : QEntry} {o : CmdOut} (hT : ({ pols := true } : Touch).le T = true) (h : Only T s o.after) : Only T s (settle e o) := by
  cases o with
  | done a t => exact h.trans ((State.deliver_only ..).mono hT)
  | hold r a t =>
    have hp := State.modPol_only (s := t) (p := e.req.pol)
      (f := fun q => { q with serving := some { entry := e, rule := r, answer := a, ready := false, replied := false } })
    exact Only.trans (t := t) h (hp.mono hT)
  | replyHold r a t =>
    have hp := State.modPol_only (s := t.deliver e.req.pol e a) (p := e.req.pol)
      (f := fun q => { q with serving := some { entry := e, rule := r, answer := some a, ready := true, replied := true } })
    exact (Only.trans (t := t) h ((State.deliver_only ..).mono hT)).trans (hp.mono hT)


theorem serveWith_only {f : QEntry → State → CmdOut} {e : QEntry} (hT : ({ pols := true } : Touch).le T = true) (h : Only T s t)
    (hf : ∀ e u, Only T u (f e u).after) : Only T s (serveWith f e t) := by
  unfold serveWith
  split
  · exact settle_only hT (h.trans ((goneAnswer_only ..).mono hT))
  · exact settle_only hT (h.trans (hf _ _))


theorem State.admitCommand_only (e : QEntry) (s : State) :
    Only { pols := true, arr := true } s (State.admitCommand e s) := by
  unfold State.admitCommand
  repeat' (with_reducible first
    | exact Only.refl _ _ | refine State.modPol_only.after ?_ rfl | refine (State.requestItem_only ..).after ?_ rfl
    | refine (State.reserveSeq_only ..).after ?_ rfl | refine Only.ite ?_ ?_ | (fail_if_no_progress refine Only.upd rfl ?_ rfl) | split
    | dsimp only | intro _)

theorem State.trafficWake_only (path : Path) (s : State) :
    Only { power := true } s (State.trafficWake path s) := by
  unfold State.trafficWake
  repeat' (with_reducible first
    | exact Only.refl _ _ | refine (State.latchWake_only ..).after ?_ rfl | refine Only.ite ?_ ?_
    | (fail_if_no_progress refine Only.upd rfl ?_ rfl) | split | dsimp only | intro _)

theorem State.bindMiss_only (s : State) :
    Only { host := true } s (State.bindMiss s) := by
  unfold State.bindMiss
  repeat' (with_reducible first
    | exact Only.refl _ _ | refine Only.ite ?_ ?_ | (fail_if_no_progress refine Only.upd rfl ?_ rfl) | split | dsimp only | intro _)

/-- What the transport of a command touches before its own meaning. -/
def Touch.carrying : Touch :=
  { freeCtr := true, power := true, pols := true, arr := true, host := true, lineA := true, lineB := true, fab := true }

/-- An operation that touches what the transport of a command may touch, after others. -/
theorem Only.carried {A : Touch} {u : State} (hT : Touch.carrying.le T = true) (h : Only A t u) (hs : Only T s t)
    (hA : A.le Touch.carrying = true) : Only T s u := hs.trans ((h.mono hA).mono hT)

theorem runCommand_only {opcode : Byte} {f : QEntry → State → CmdOut} {r : Req} {params : List Byte} (hT : Touch.carrying.le T = true)
    (hf : ∀ e t, Only T t (f e t).after) : Only T s (runCommand opcode f r params s) := by
  have hpols := Touch.le_trans (A := { pols := true }) rfl hT
  have hs := Only.refl T s
  unfold runCommand
  dsimp only
  refine Only.ite hs (Only.ite (Only.carried hT (State.bindMiss_only ..) hs rfl) ?_)
  split
  · split
    · exact Only.carried hT (State.untagged_only ..) hs rfl
    · exact Only.carried hT (State.countPort_only ..) hs rfl
  · refine Only.ite (Only.carried hT (State.untagged_only ..) hs rfl) ?_
    split
    · exact Only.carried hT (State.untagged_only ..) (Only.carried hT State.modPol_only hs rfl) rfl
    · split
      · exact Only.carried hT (State.untagged_only ..) (Only.carried hT State.modPol_only hs rfl) rfl
      · split
        · exact serveWith_only hpols (Only.carried hT (State.admitCommand_only ..) hs rfl) hf
        · exact Only.carried hT (State.trafficWake_only ..) (Only.carried hT State.modPol_only (Only.carried hT (State.admitCommand_only ..) hs rfl) rfl) rfl


theorem State.answerHeld_only (p : PolId) (a : Answer) (s : State) :
    Only { pols := true } s (State.answerHeld p a s) := by
  unfold State.answerHeld
  repeat' (with_reducible first
    | exact Only.refl _ _ | refine State.modPol_only.after ?_ rfl | refine (State.deliver_only ..).after ?_ rfl | refine Only.ite ?_ ?_
    | (fail_if_no_progress refine Only.upd rfl ?_ rfl) | split | dsimp only | intro _)

theorem State.readyHeld_only (p : PolId) (rule : HoldRule) (a : Answer) (s : State) :
    Only { pols := true } s (State.readyHeld p rule a s) := by
  unfold State.readyHeld
  repeat' (with_reducible first
    | exact Only.refl _ _ | refine State.modPol_only.after ?_ rfl | refine Only.ite ?_ ?_ | (fail_if_no_progress refine Only.upd rfl ?_ rfl)
    | split | dsimp only | intro _)

theorem State.voidHeld_only (p : PolId) (s : State) :
    Only { pols := true } s (State.voidHeld p s) := by
  unfold State.voidHeld
  repeat' (with_reducible first
    | exact Only.refl _ _ | refine State.modPol_only.after ?_ rfl | refine Only.ite ?_ ?_ | (fail_if_no_progress refine Only.upd rfl ?_ rfl)
    | split | dsimp only | intro _)

theorem State.markCarried_only (n : Nat) (s : State) : Only { carries := true } s (State.markCarried n s) := by
  refine Only.carriesKept fun c hc => ?_
  obtain ⟨d, hd, rfl⟩ := List.mem_map.mp hc
  refine ⟨d, hd, ?_⟩
  split <;> rfl


theorem State.dropCarry_only (why : CarryWhy) (s : State) : Only { carries := true } s (State.dropCarry why s) :=
  Only.carriesKept fun c hc => ⟨c, (List.mem_filter.mp hc).1, rfl⟩


theorem State.zeroFabric_only (s : State) :
    Only { arr := true, life := true } s (State.zeroFabric s) := by
  unfold State.zeroFabric
  repeat' (with_reducible first
    | exact Only.refl _ _ | refine Only.ite ?_ ?_ | (fail_if_no_progress refine Only.upd rfl ?_ rfl) | split | dsimp only | intro _)

/-- Where no SYS_RESET waits, none is due (R425). -/
theorem State.sysResetDue_of_none (h : s.waitsCarry .sysReset = false) : s.sysResetDue = s := by
  have hc : s.carried .sysReset = false := by
    simp only [State.waitsCarry, State.carried, List.any_eq_false, Bool.and_eq_true, not_and] at h ⊢
    exact fun c hc hw _ => h c hc hw
  simp [State.sysResetDue, hc]

/-- No SYS_RESET waits, and none begins to: the one that may be due is not (R425). -/
theorem Only.resetDue (h : Only T s t) (hT : T.resets = false) (hs : s.waitsCarry .sysReset = false) : Only T s t.sysResetDue := by
  have ht : t.waitsCarry .sysReset = false := by
    rcases h.resets with hr | hr
    · rw [hT] at hr; cases hr
    · exact hr hs
  rw [State.sysResetDue_of_none ht]
  exact h


end Sys2Proof.Machine
end

section
/-! PROOFS. What the commands of calibration, exposure, the host, power and the fabric touch. -/

namespace Sys2Proof.Machine

variable {T : Touch} {s t : State}

set_option linter.unusedTactic false
set_option linter.unreachableTactic false
set_option linter.unusedVariables false

theorem ownCalRun_only (e : QEntry) (s : State) :
    Only { cols := true } s (ownCalRun e s).after := by
  unfold ownCalRun
  repeat' (with_reducible first
    | exact Only.refl _ _ | refine (refuse_only ..).after ?_ rfl | refine Only.done ?_ | refine Only.hold ?_ | refine Only.replyHold ?_
    | refine Only.afterIte ?_ ?_ | refine Only.ite ?_ ?_ | (fail_if_no_progress refine Only.upd rfl ?_ rfl) | split | dsimp only
    | intro _)

theorem cmdCalRun_only (e : QEntry) (s : State) :
    Only { cols := true, pols := true } s (cmdCalRun e s).after := by
  unfold cmdCalRun
  repeat' (with_reducible first
    | exact Only.refl _ _ | refine checked_only rfl (fun _ _ => ?_) | refine (ownCalRun_only ..).after ?_ rfl | refine Only.done ?_
    | refine Only.hold ?_ | refine Only.replyHold ?_ | refine Only.afterIte ?_ ?_ | refine Only.ite ?_ ?_
    | (fail_if_no_progress refine Only.upd rfl ?_ rfl) | split | dsimp only | intro _)

theorem ownCalSchedule_only (e : QEntry) (s : State) :
    Only { cols := true, arr := true } s (ownCalSchedule e s).after := by
  unfold ownCalSchedule
  repeat' (with_reducible first
    | exact Only.refl _ _ | refine (State.requestItem_only ..).after ?_ rfl | refine (refuse_only ..).after ?_ rfl
    | refine Only.commitThen ?_ (fun _ => ?_) | refine Only.done ?_ | refine Only.hold ?_ | refine Only.replyHold ?_
    | refine Only.afterIte ?_ ?_ | refine Only.ite ?_ ?_ | (fail_if_no_progress refine Only.upd rfl ?_ rfl) | split | dsimp only
    | intro _)

theorem cmdCalSchedule_only (e : QEntry) (s : State) :
    Only { cols := true, pols := true, arr := true } s (cmdCalSchedule e s).after := by
  unfold cmdCalSchedule
  repeat' (with_reducible first
    | exact Only.refl _ _ | refine checked_only rfl (fun _ _ => ?_) | refine (ownCalSchedule_only ..).after ?_ rfl | refine Only.done ?_
    | refine Only.hold ?_ | refine Only.replyHold ?_ | refine Only.afterIte ?_ ?_ | refine Only.ite ?_ ?_
    | (fail_if_no_progress refine Only.upd rfl ?_ rfl) | split | dsimp only | intro _)

theorem ownCalRead_only (e : QEntry) (s : State) :
    Only {} s (ownCalRead e s).after := by
  unfold ownCalRead
  repeat' (with_reducible first
    | exact Only.refl _ _ | refine (doneOk_only ..).after ?_ rfl | refine (refuse_only ..).after ?_ rfl | refine Only.done ?_
    | refine Only.hold ?_ | refine Only.replyHold ?_ | refine Only.afterIte ?_ ?_ | refine Only.ite ?_ ?_
    | (fail_if_no_progress refine Only.upd rfl ?_ rfl) | split | dsimp only | intro _)

theorem cmdCalRead_only (e : QEntry) (s : State) :
    Only { pols := true } s (cmdCalRead e s).after := by
  unfold cmdCalRead
  repeat' (with_reducible first
    | exact Only.refl _ _ | refine checked_only rfl (fun _ _ => ?_) | refine (ownCalRead_only ..).after ?_ rfl | refine Only.done ?_
    | refine Only.hold ?_ | refine Only.replyHold ?_ | refine Only.afterIte ?_ ?_ | refine Only.ite ?_ ?_
    | (fail_if_no_progress refine Only.upd rfl ?_ rfl) | split | dsimp only | intro _)

theorem ownCalClear_only (x0 : QEntry) (s : State) :
    Only { cols := true } s (ownCalClear x0 s).after := by
  unfold ownCalClear
  repeat' (with_reducible first
    | exact Only.refl _ _ | refine (doneOk_only ..).after ?_ rfl | refine Only.done ?_ | refine Only.hold ?_ | refine Only.replyHold ?_
    | refine Only.afterIte ?_ ?_ | refine Only.ite ?_ ?_ | (fail_if_no_progress refine Only.upd rfl ?_ rfl) | split | dsimp only
    | intro _)

theorem cmdCalClear_only (e : QEntry) (s : State) :
    Only { cols := true, pols := true } s (cmdCalClear e s).after := by
  unfold cmdCalClear
  repeat' (with_reducible first
    | exact Only.refl _ _ | refine checked_only rfl (fun _ _ => ?_) | refine (ownCalClear_only ..).after ?_ rfl | refine Only.done ?_
    | refine Only.hold ?_ | refine Only.replyHold ?_ | refine Only.afterIte ?_ ?_ | refine Only.ite ?_ ?_
    | (fail_if_no_progress refine Only.upd rfl ?_ rfl) | split | dsimp only | intro _)

theorem ownColGet_only (e : QEntry) (s : State) :
    Only {} s (ownColGet e s).after := by
  unfold ownColGet
  repeat' (with_reducible first
    | exact Only.refl _ _ | refine (doneOk_only ..).after ?_ rfl | refine (refuse_only ..).after ?_ rfl | refine Only.done ?_
    | refine Only.hold ?_ | refine Only.replyHold ?_ | refine Only.afterIte ?_ ?_ | refine Only.ite ?_ ?_
    | (fail_if_no_progress refine Only.upd rfl ?_ rfl) | split | dsimp only | intro _)

theorem cmdColGet_only (e : QEntry) (s : State) :
    Only { pols := true } s (cmdColGet e s).after := by
  unfold cmdColGet
  repeat' (with_reducible first
    | exact Only.refl _ _ | refine checked_only rfl (fun _ _ => ?_) | refine (ownColGet_only ..).after ?_ rfl | refine Only.done ?_
    | refine Only.hold ?_ | refine Only.replyHold ?_ | refine Only.afterIte ?_ ?_ | refine Only.ite ?_ ?_
    | (fail_if_no_progress refine Only.upd rfl ?_ rfl) | split | dsimp only | intro _)

theorem ownDefectGet_only (e : QEntry) (s : State) :
    Only {} s (ownDefectGet e s).after := by
  unfold ownDefectGet
  repeat' (with_reducible first
    | exact Only.refl _ _ | refine (doneOk_only ..).after ?_ rfl | refine (refuse_only ..).after ?_ rfl | refine Only.done ?_
    | refine Only.hold ?_ | refine Only.replyHold ?_ | refine Only.afterIte ?_ ?_ | refine Only.ite ?_ ?_
    | (fail_if_no_progress refine Only.upd rfl ?_ rfl) | split | dsimp only | intro _)

theorem cmdDefectGet_only (e : QEntry) (s : State) :
    Only { pols := true } s (cmdDefectGet e s).after := by
  unfold cmdDefectGet
  repeat' (with_reducible first
    | exact Only.refl _ _ | refine checked_only rfl (fun _ _ => ?_) | refine (ownDefectGet_only ..).after ?_ rfl | refine Only.done ?_
    | refine Only.hold ?_ | refine Only.replyHold ?_ | refine Only.afterIte ?_ ?_ | refine Only.ite ?_ ?_
    | (fail_if_no_progress refine Only.upd rfl ?_ rfl) | split | dsimp only | intro _)

theorem ownTrimGet_only (e : QEntry) (s : State) :
    Only {} s (ownTrimGet e s).after := by
  unfold ownTrimGet
  repeat' (with_reducible first
    | exact Only.refl _ _ | refine (doneOk_only ..).after ?_ rfl | refine (refuse_only ..).after ?_ rfl | refine Only.done ?_
    | refine Only.hold ?_ | refine Only.replyHold ?_ | refine Only.afterIte ?_ ?_ | refine Only.ite ?_ ?_
    | (fail_if_no_progress refine Only.upd rfl ?_ rfl) | split | dsimp only | intro _)

theorem cmdTrimGet_only (e : QEntry) (s : State) :
    Only { pols := true } s (cmdTrimGet e s).after := by
  unfold cmdTrimGet
  repeat' (with_reducible first
    | exact Only.refl _ _ | refine checked_only rfl (fun _ _ => ?_) | refine (ownTrimGet_only ..).after ?_ rfl | refine Only.done ?_
    | refine Only.hold ?_ | refine Only.replyHold ?_ | refine Only.afterIte ?_ ?_ | refine Only.ite ?_ ?_
    | (fail_if_no_progress refine Only.upd rfl ?_ rfl) | split | dsimp only | intro _)

theorem execCalRun_only (r : Req) (params : List Byte) (s : State) :
    OnlyNext { freeCtr := true, power := true, cols := true, pols := true, arr := true, host := true, lineA := true, lineB := true,
               fab := true } s (execCalRun r params s) := by
  unfold execCalRun
  repeat' (with_reducible first
    | exact Only.refl _ _ | refine runCommand_only rfl (fun _ _ => ?_) | refine (cmdCalRun_only ..).after ?_ rfl | refine OnlyNext.next ?_
    | refine OnlyNext.fault _ | refine OnlyNext.ite ?_ ?_ | refine Only.ite ?_ ?_ | (fail_if_no_progress refine Only.upd rfl ?_ rfl)
    | split | dsimp only | intro _)

theorem execCalSchedule_only (r : Req) (params : List Byte) (s : State) :
    OnlyNext { freeCtr := true, power := true, cols := true, pols := true, arr := true, host := true, lineA := true, lineB := true,
               fab := true } s (execCalSchedule r params s) := by
  unfold execCalSchedule
  repeat' (with_reducible first
    | exact Only.refl _ _ | refine runCommand_only rfl (fun _ _ => ?_) | refine (cmdCalSchedule_only ..).after ?_ rfl
    | refine OnlyNext.next ?_ | refine OnlyNext.fault _ | refine OnlyNext.ite ?_ ?_ | refine Only.ite ?_ ?_
    | (fail_if_no_progress refine Only.upd rfl ?_ rfl) | split | dsimp only | intro _)

theorem execCalRead_only (r : Req) (params : List Byte) (s : State) :
    OnlyNext { freeCtr := true, power := true, pols := true, arr := true, host := true, lineA := true, lineB := true, fab := true }
      s (execCalRead r params s) := by
  unfold execCalRead
  repeat' (with_reducible first
    | exact Only.refl _ _ | refine runCommand_only rfl (fun _ _ => ?_) | refine (cmdCalRead_only ..).after ?_ rfl | refine OnlyNext.next ?_
    | refine OnlyNext.fault _ | refine OnlyNext.ite ?_ ?_ | refine Only.ite ?_ ?_ | (fail_if_no_progress refine Only.upd rfl ?_ rfl)
    | split | dsimp only | intro _)

theorem execCalClear_only (r : Req) (params : List Byte) (s : State) :
    OnlyNext { freeCtr := true, power := true, cols := true, pols := true, arr := true, host := true, lineA := true, lineB := true,
               fab := true } s (execCalClear r params s) := by
  unfold execCalClear
  repeat' (with_reducible first
    | exact Only.refl _ _ | refine runCommand_only rfl (fun _ _ => ?_) | refine (cmdCalClear_only ..).after ?_ rfl | refine OnlyNext.next ?_
    | refine OnlyNext.fault _ | refine OnlyNext.ite ?_ ?_ | refine Only.ite ?_ ?_ | (fail_if_no_progress refine Only.upd rfl ?_ rfl)
    | split | dsimp only | intro _)

theorem execColGet_only (r : Req) (params : List Byte) (s : State) :
    OnlyNext { freeCtr := true, power := true, pols := true, arr := true, host := true, lineA := true, lineB := true, fab := true }
      s (execColGet r params s) := by
  unfold execColGet
  repeat' (with_reducible first
    | exact Only.refl _ _ | refine runCommand_only rfl (fun _ _ => ?_) | refine (cmdColGet_only ..).after ?_ rfl | refine OnlyNext.next ?_
    | refine OnlyNext.fault _ | refine OnlyNext.ite ?_ ?_ | refine Only.ite ?_ ?_ | (fail_if_no_progress refine Only.upd rfl ?_ rfl)
    | split | dsimp only | intro _)

theorem execDefectGet_only (r : Req) (params : List Byte) (s : State) :
    OnlyNext { freeCtr := true, power := true, pols := true, arr := true, host := true, lineA := true, lineB := true, fab := true }
      s (execDefectGet r params s) := by
  unfold execDefectGet
  repeat' (with_reducible first
    | exact Only.refl _ _ | refine runCommand_only rfl (fun _ _ => ?_) | refine (cmdDefectGet_only ..).after ?_ rfl
    | refine OnlyNext.next ?_ | refine OnlyNext.fault _ | refine OnlyNext.ite ?_ ?_ | refine Only.ite ?_ ?_
    | (fail_if_no_progress refine Only.upd rfl ?_ rfl) | split | dsimp only | intro _)

theorem execTrimGet_only (r : Req) (params : List Byte) (s : State) :
    OnlyNext { freeCtr := true, power := true, pols := true, arr := true, host := true, lineA := true, lineB := true, fab := true }
      s (execTrimGet r params s) := by
  unfold execTrimGet
  repeat' (with_reducible first
    | exact Only.refl _ _ | refine runCommand_only rfl (fun _ _ => ?_) | refine (cmdTrimGet_only ..).after ?_ rfl | refine OnlyNext.next ?_
    | refine OnlyNext.fault _ | refine OnlyNext.ite ?_ ?_ | refine Only.ite ?_ ?_ | (fail_if_no_progress refine Only.upd rfl ?_ rfl)
    | split | dsimp only | intro _)

theorem ownExpoSet_only (q : QEntry) (s : State) :
    Only { pols := true } s (ownExpoSet q s).after := by
  unfold ownExpoSet
  repeat' (with_reducible first
    | exact Only.refl _ _ | refine State.modPol_only.after ?_ rfl | refine (doneAt_only ..).after ?_ rfl
    | refine (refuse_only ..).after ?_ rfl | refine Only.done ?_ | refine Only.hold ?_ | refine Only.replyHold ?_
    | refine Only.afterIte ?_ ?_ | refine Only.ite ?_ ?_ | (fail_if_no_progress refine Only.upd rfl ?_ rfl) | split | dsimp only
    | intro _)

theorem cmdExpoSet_only (e : QEntry) (s : State) :
    Only { pols := true } s (cmdExpoSet e s).after := by
  unfold cmdExpoSet
  repeat' (with_reducible first
    | exact Only.refl _ _ | refine checked_only rfl (fun _ _ => ?_) | refine (ownExpoSet_only ..).after ?_ rfl | refine Only.done ?_
    | refine Only.hold ?_ | refine Only.replyHold ?_ | refine Only.afterIte ?_ ?_ | refine Only.ite ?_ ?_
    | (fail_if_no_progress refine Only.upd rfl ?_ rfl) | split | dsimp only | intro _)

theorem ownExpoGet_only (q : QEntry) (s : State) :
    Only {} s (ownExpoGet q s).after := by
  unfold ownExpoGet
  repeat' (with_reducible first
    | exact Only.refl _ _ | refine (doneOk_only ..).after ?_ rfl | refine Only.done ?_ | refine Only.hold ?_ | refine Only.replyHold ?_
    | refine Only.afterIte ?_ ?_ | refine Only.ite ?_ ?_ | (fail_if_no_progress refine Only.upd rfl ?_ rfl) | split | dsimp only
    | intro _)

theorem cmdExpoGet_only (e : QEntry) (s : State) :
    Only { pols := true } s (cmdExpoGet e s).after := by
  unfold cmdExpoGet
  repeat' (with_reducible first
    | exact Only.refl _ _ | refine checked_only rfl (fun _ _ => ?_) | refine (ownExpoGet_only ..).after ?_ rfl | refine Only.done ?_
    | refine Only.hold ?_ | refine Only.replyHold ?_ | refine Only.afterIte ?_ ?_ | refine Only.ite ?_ ?_
    | (fail_if_no_progress refine Only.upd rfl ?_ rfl) | split | dsimp only | intro _)

theorem ownTrigFire_only (q : QEntry) (s : State) :
    Only { wheel := true, pols := true } s (ownTrigFire q s).after := by
  unfold ownTrigFire
  repeat' (with_reducible first
    | exact Only.refl _ _ | refine (State.trigger_only ..).after ?_ rfl | refine (doneOk_only ..).after ?_ rfl
    | refine (doneAt_only ..).after ?_ rfl | refine Only.done ?_ | refine Only.hold ?_ | refine Only.replyHold ?_
    | refine Only.afterIte ?_ ?_ | refine Only.ite ?_ ?_ | (fail_if_no_progress refine Only.upd rfl ?_ rfl) | split | dsimp only
    | intro _)

theorem cmdTrigFire_only (e : QEntry) (s : State) :
    Only { wheel := true, pols := true } s (cmdTrigFire e s).after := by
  unfold cmdTrigFire
  repeat' (with_reducible first
    | exact Only.refl _ _ | refine checked_only rfl (fun _ _ => ?_) | refine (ownTrigFire_only ..).after ?_ rfl | refine Only.done ?_
    | refine Only.hold ?_ | refine Only.replyHold ?_ | refine Only.afterIte ?_ ?_ | refine Only.ite ?_ ?_
    | (fail_if_no_progress refine Only.upd rfl ?_ rfl) | split | dsimp only | intro _)

theorem ownTrigRead_only (q : QEntry) (s : State) :
    Only { pols := true } s (ownTrigRead q s).after := by
  unfold ownTrigRead
  repeat' (with_reducible first
    | exact Only.refl _ _ | refine State.modPol_only.after ?_ rfl | refine (doneOk_only ..).after ?_ rfl | refine Only.done ?_
    | refine Only.hold ?_ | refine Only.replyHold ?_ | refine Only.afterIte ?_ ?_ | refine Only.ite ?_ ?_
    | (fail_if_no_progress refine Only.upd rfl ?_ rfl) | split | dsimp only | intro _)

theorem cmdTrigRead_only (e : QEntry) (s : State) :
    Only { pols := true } s (cmdTrigRead e s).after := by
  unfold cmdTrigRead
  repeat' (with_reducible first
    | exact Only.refl _ _ | refine checked_only rfl (fun _ _ => ?_) | refine (ownTrigRead_only ..).after ?_ rfl | refine Only.done ?_
    | refine Only.hold ?_ | refine Only.replyHold ?_ | refine Only.afterIte ?_ ?_ | refine Only.ite ?_ ?_
    | (fail_if_no_progress refine Only.upd rfl ?_ rfl) | split | dsimp only | intro _)

theorem ownSyncGet_only (x0 : QEntry) (s : State) :
    Only {} s (ownSyncGet x0 s).after := by
  unfold ownSyncGet
  repeat' (with_reducible first
    | exact Only.refl _ _ | refine (doneOk_only ..).after ?_ rfl | refine Only.done ?_ | refine Only.hold ?_ | refine Only.replyHold ?_
    | refine Only.afterIte ?_ ?_ | refine Only.ite ?_ ?_ | (fail_if_no_progress refine Only.upd rfl ?_ rfl) | split | dsimp only
    | intro _)

theorem cmdSyncGet_only (e : QEntry) (s : State) :
    Only { pols := true } s (cmdSyncGet e s).after := by
  unfold cmdSyncGet
  repeat' (with_reducible first
    | exact Only.refl _ _ | refine checked_only rfl (fun _ _ => ?_) | refine (ownSyncGet_only ..).after ?_ rfl | refine Only.done ?_
    | refine Only.hold ?_ | refine Only.replyHold ?_ | refine Only.afterIte ?_ ?_ | refine Only.ite ?_ ?_
    | (fail_if_no_progress refine Only.upd rfl ?_ rfl) | split | dsimp only | intro _)

theorem ownPeriodSet_only (q : QEntry) (s : State) :
    Only { wheel := true, arr := true, wheelCore := true } s (ownPeriodSet q s).after := by
  unfold ownPeriodSet
  repeat' (with_reducible first
    | exact Only.refl _ _ | refine (State.requestItem_only ..).after ?_ rfl | refine (refuse_only ..).after ?_ rfl
    | refine Only.commitThen ?_ (fun _ => ?_) | refine Only.done ?_ | refine Only.hold ?_ | refine Only.replyHold ?_
    | refine Only.afterIte ?_ ?_ | refine Only.ite ?_ ?_ | (fail_if_no_progress refine Only.upd rfl ?_ rfl) | split | dsimp only
    | intro _)

theorem cmdPeriodSet_only (e : QEntry) (s : State) :
    Only { wheel := true, pols := true, arr := true, wheelCore := true } s (cmdPeriodSet e s).after := by
  unfold cmdPeriodSet
  repeat' (with_reducible first
    | exact Only.refl _ _ | refine checked_only rfl (fun _ _ => ?_) | refine (ownPeriodSet_only ..).after ?_ rfl | refine Only.done ?_
    | refine Only.hold ?_ | refine Only.replyHold ?_ | refine Only.afterIte ?_ ?_ | refine Only.ite ?_ ?_
    | (fail_if_no_progress refine Only.upd rfl ?_ rfl) | split | dsimp only | intro _)

theorem ownWheelGet_only (q : QEntry) (s : State) :
    Only {} s (ownWheelGet q s).after := by
  unfold ownWheelGet
  repeat' (with_reducible first
    | exact Only.refl _ _ | refine (doneOk_only ..).after ?_ rfl | refine Only.done ?_ | refine Only.hold ?_ | refine Only.replyHold ?_
    | refine Only.afterIte ?_ ?_ | refine Only.ite ?_ ?_ | (fail_if_no_progress refine Only.upd rfl ?_ rfl) | split | dsimp only
    | intro _)

theorem cmdWheelGet_only (e : QEntry) (s : State) :
    Only { pols := true } s (cmdWheelGet e s).after := by
  unfold cmdWheelGet
  repeat' (with_reducible first
    | exact Only.refl _ _ | refine checked_only rfl (fun _ _ => ?_) | refine (ownWheelGet_only ..).after ?_ rfl | refine Only.done ?_
    | refine Only.hold ?_ | refine Only.replyHold ?_ | refine Only.afterIte ?_ ?_ | refine Only.ite ?_ ?_
    | (fail_if_no_progress refine Only.upd rfl ?_ rfl) | split | dsimp only | intro _)

theorem execExpoSet_only (r : Req) (params : List Byte) (s : State) :
    OnlyNext { freeCtr := true, power := true, pols := true, arr := true, host := true, lineA := true, lineB := true, fab := true }
      s (execExpoSet r params s) := by
  unfold execExpoSet
  repeat' (with_reducible first
    | exact Only.refl _ _ | refine runCommand_only rfl (fun _ _ => ?_) | refine (cmdExpoSet_only ..).after ?_ rfl | refine OnlyNext.next ?_
    | refine OnlyNext.fault _ | refine OnlyNext.ite ?_ ?_ | refine Only.ite ?_ ?_ | (fail_if_no_progress refine Only.upd rfl ?_ rfl)
    | split | dsimp only | intro _)

theorem execExpoGet_only (r : Req) (params : List Byte) (s : State) :
    OnlyNext { freeCtr := true, power := true, pols := true, arr := true, host := true, lineA := true, lineB := true, fab := true }
      s (execExpoGet r params s) := by
  unfold execExpoGet
  repeat' (with_reducible first
    | exact Only.refl _ _ | refine runCommand_only rfl (fun _ _ => ?_) | refine (cmdExpoGet_only ..).after ?_ rfl | refine OnlyNext.next ?_
    | refine OnlyNext.fault _ | refine OnlyNext.ite ?_ ?_ | refine Only.ite ?_ ?_ | (fail_if_no_progress refine Only.upd rfl ?_ rfl)
    | split | dsimp only | intro _)

theorem execTrigFire_only (r : Req) (params : List Byte) (s : State) :
    OnlyNext { freeCtr := true, power := true, wheel := true, pols := true, arr := true, host := true, lineA := true, lineB := true,
               fab := true } s (execTrigFire r params s) := by
  unfold execTrigFire
  repeat' (with_reducible first
    | exact Only.refl _ _ | refine runCommand_only rfl (fun _ _ => ?_) | refine (cmdTrigFire_only ..).after ?_ rfl | refine OnlyNext.next ?_
    | refine OnlyNext.fault _ | refine OnlyNext.ite ?_ ?_ | refine Only.ite ?_ ?_ | (fail_if_no_progress refine Only.upd rfl ?_ rfl)
    | split | dsimp only | intro _)

theorem execTrigRead_only (r : Req) (params : List Byte) (s : State) :
    OnlyNext { freeCtr := true, power := true, pols := true, arr := true, host := true, lineA := true, lineB := true, fab := true }
      s (execTrigRead r params s) := by
  unfold execTrigRead
  repeat' (with_reducible first
    | exact Only.refl _ _ | refine runCommand_only rfl (fun _ _ => ?_) | refine (cmdTrigRead_only ..).after ?_ rfl | refine OnlyNext.next ?_
    | refine OnlyNext.fault _ | refine OnlyNext.ite ?_ ?_ | refine Only.ite ?_ ?_ | (fail_if_no_progress refine Only.upd rfl ?_ rfl)
    | split | dsimp only | intro _)

theorem execSyncGet_only (r : Req) (params : List Byte) (s : State) :
    OnlyNext { freeCtr := true, power := true, pols := true, arr := true, host := true, lineA := true, lineB := true, fab := true }
      s (execSyncGet r params s) := by
  unfold execSyncGet
  repeat' (with_reducible first
    | exact Only.refl _ _ | refine runCommand_only rfl (fun _ _ => ?_) | refine (cmdSyncGet_only ..).after ?_ rfl | refine OnlyNext.next ?_
    | refine OnlyNext.fault _ | refine OnlyNext.ite ?_ ?_ | refine Only.ite ?_ ?_ | (fail_if_no_progress refine Only.upd rfl ?_ rfl)
    | split | dsimp only | intro _)

theorem execPeriodSet_only (r : Req) (params : List Byte) (s : State) :
    OnlyNext { freeCtr := true, power := true, wheel := true, pols := true, arr := true, host := true, lineA := true, lineB := true,
               fab := true, wheelCore := true } s (execPeriodSet r params s) := by
  unfold execPeriodSet
  repeat' (with_reducible first
    | exact Only.refl _ _ | refine runCommand_only rfl (fun _ _ => ?_) | refine (cmdPeriodSet_only ..).after ?_ rfl
    | refine OnlyNext.next ?_ | refine OnlyNext.fault _ | refine OnlyNext.ite ?_ ?_ | refine Only.ite ?_ ?_
    | (fail_if_no_progress refine Only.upd rfl ?_ rfl) | split | dsimp only | intro _)

theorem execWheelGet_only (r : Req) (params : List Byte) (s : State) :
    OnlyNext { freeCtr := true, power := true, pols := true, arr := true, host := true, lineA := true, lineB := true, fab := true }
      s (execWheelGet r params s) := by
  unfold execWheelGet
  repeat' (with_reducible first
    | exact Only.refl _ _ | refine runCommand_only rfl (fun _ _ => ?_) | refine (cmdWheelGet_only ..).after ?_ rfl | refine OnlyNext.next ?_
    | refine OnlyNext.fault _ | refine OnlyNext.ite ?_ ?_ | refine Only.ite ?_ ?_ | (fail_if_no_progress refine Only.upd rfl ?_ rfl)
    | split | dsimp only | intro _)

theorem ownThermGet_only (e : QEntry) (s : State) :
    Only {} s (ownThermGet e s).after := by
  unfold ownThermGet
  repeat' (with_reducible first
    | exact Only.refl _ _ | refine (doneOk_only ..).after ?_ rfl | refine (refuse_only ..).after ?_ rfl | refine Only.done ?_
    | refine Only.hold ?_ | refine Only.replyHold ?_ | refine Only.afterIte ?_ ?_ | refine Only.ite ?_ ?_
    | (fail_if_no_progress refine Only.upd rfl ?_ rfl) | split | dsimp only | intro _)

theorem cmdThermGet_only (e : QEntry) (s : State) :
    Only { pols := true } s (cmdThermGet e s).after := by
  unfold cmdThermGet
  repeat' (with_reducible first
    | exact Only.refl _ _ | refine checked_only rfl (fun _ _ => ?_) | refine (ownThermGet_only ..).after ?_ rfl | refine Only.done ?_
    | refine Only.hold ?_ | refine Only.replyHold ?_ | refine Only.afterIte ?_ ?_ | refine Only.ite ?_ ?_
    | (fail_if_no_progress refine Only.upd rfl ?_ rfl) | split | dsimp only | intro _)

theorem ownPixPort_only (e : QEntry) (s : State) :
    Only { lands := true } s (ownPixPort e s).after := by
  unfold ownPixPort
  repeat' (with_reducible first
    | exact Only.refl _ _ | refine (doneAt_only ..).after ?_ rfl | refine (refuse_only ..).after ?_ rfl | refine Only.done ?_
    | refine Only.hold ?_ | refine Only.replyHold ?_ | refine Only.afterIte ?_ ?_ | refine Only.ite ?_ ?_
    | (fail_if_no_progress refine Only.upd rfl ?_ rfl) | split | dsimp only | intro _)

theorem cmdPixPort_only (e : QEntry) (s : State) :
    Only { lands := true, pols := true } s (cmdPixPort e s).after := by
  unfold cmdPixPort
  repeat' (with_reducible first
    | exact Only.refl _ _ | refine checked_only rfl (fun _ _ => ?_) | refine (ownPixPort_only ..).after ?_ rfl | refine Only.done ?_
    | refine Only.hold ?_ | refine Only.replyHold ?_ | refine Only.afterIte ?_ ?_ | refine Only.ite ?_ ?_
    | (fail_if_no_progress refine Only.upd rfl ?_ rfl) | split | dsimp only | intro _)

theorem ownDaliCfg_only (e : QEntry) (s : State) :
    Only { arr := true } s (ownDaliCfg e s).after := by
  unfold ownDaliCfg
  repeat' (with_reducible first
    | exact Only.refl _ _ | refine (State.requestItem_only ..).after ?_ rfl | refine (refuse_only ..).after ?_ rfl
    | refine Only.commitThen ?_ (fun _ => ?_) | refine Only.done ?_ | refine Only.hold ?_ | refine Only.replyHold ?_
    | refine Only.afterIte ?_ ?_ | refine Only.ite ?_ ?_ | (fail_if_no_progress refine Only.upd rfl ?_ rfl) | split | dsimp only
    | intro _)

theorem cmdDaliCfg_only (e : QEntry) (s : State) :
    Only { pols := true, arr := true } s (cmdDaliCfg e s).after := by
  unfold cmdDaliCfg
  repeat' (with_reducible first
    | exact Only.refl _ _ | refine checked_only rfl (fun _ _ => ?_) | refine (ownDaliCfg_only ..).after ?_ rfl | refine Only.done ?_
    | refine Only.hold ?_ | refine Only.replyHold ?_ | refine Only.afterIte ?_ ?_ | refine Only.ite ?_ ?_
    | (fail_if_no_progress refine Only.upd rfl ?_ rfl) | split | dsimp only | intro _)

theorem ownDaliGet_only (x0 : QEntry) (s : State) :
    Only {} s (ownDaliGet x0 s).after := by
  unfold ownDaliGet
  repeat' (with_reducible first
    | exact Only.refl _ _ | refine (doneOk_only ..).after ?_ rfl | refine Only.done ?_ | refine Only.hold ?_ | refine Only.replyHold ?_
    | refine Only.afterIte ?_ ?_ | refine Only.ite ?_ ?_ | (fail_if_no_progress refine Only.upd rfl ?_ rfl) | split | dsimp only
    | intro _)

theorem cmdDaliGet_only (e : QEntry) (s : State) :
    Only { pols := true } s (cmdDaliGet e s).after := by
  unfold cmdDaliGet
  repeat' (with_reducible first
    | exact Only.refl _ _ | refine checked_only rfl (fun _ _ => ?_) | refine (ownDaliGet_only ..).after ?_ rfl | refine Only.done ?_
    | refine Only.hold ?_ | refine Only.replyHold ?_ | refine Only.afterIte ?_ ?_ | refine Only.ite ?_ ?_
    | (fail_if_no_progress refine Only.upd rfl ?_ rfl) | split | dsimp only | intro _)

theorem execThermGet_only (r : Req) (params : List Byte) (s : State) :
    OnlyNext { freeCtr := true, power := true, pols := true, arr := true, host := true, lineA := true, lineB := true, fab := true }
      s (execThermGet r params s) := by
  unfold execThermGet
  repeat' (with_reducible first
    | exact Only.refl _ _ | refine runCommand_only rfl (fun _ _ => ?_) | refine (cmdThermGet_only ..).after ?_ rfl | refine OnlyNext.next ?_
    | refine OnlyNext.fault _ | refine OnlyNext.ite ?_ ?_ | refine Only.ite ?_ ?_ | (fail_if_no_progress refine Only.upd rfl ?_ rfl)
    | split | dsimp only | intro _)

theorem execPixPort_only (r : Req) (params : List Byte) (s : State) :
    OnlyNext { freeCtr := true, power := true, lands := true, pols := true, arr := true, host := true, lineA := true, lineB := true,
               fab := true } s (execPixPort r params s) := by
  unfold execPixPort
  repeat' (with_reducible first
    | exact Only.refl _ _ | refine runCommand_only rfl (fun _ _ => ?_) | refine (cmdPixPort_only ..).after ?_ rfl | refine OnlyNext.next ?_
    | refine OnlyNext.fault _ | refine OnlyNext.ite ?_ ?_ | refine Only.ite ?_ ?_ | (fail_if_no_progress refine Only.upd rfl ?_ rfl)
    | split | dsimp only | intro _)

theorem execDaliCfg_only (r : Req) (params : List Byte) (s : State) :
    OnlyNext { freeCtr := true, power := true, pols := true, arr := true, host := true, lineA := true, lineB := true, fab := true }
      s (execDaliCfg r params s) := by
  unfold execDaliCfg
  repeat' (with_reducible first
    | exact Only.refl _ _ | refine runCommand_only rfl (fun _ _ => ?_) | refine (cmdDaliCfg_only ..).after ?_ rfl | refine OnlyNext.next ?_
    | refine OnlyNext.fault _ | refine OnlyNext.ite ?_ ?_ | refine Only.ite ?_ ?_ | (fail_if_no_progress refine Only.upd rfl ?_ rfl)
    | split | dsimp only | intro _)

theorem execDaliGet_only (r : Req) (params : List Byte) (s : State) :
    OnlyNext { freeCtr := true, power := true, pols := true, arr := true, host := true, lineA := true, lineB := true, fab := true }
      s (execDaliGet r params s) := by
  unfold execDaliGet
  repeat' (with_reducible first
    | exact Only.refl _ _ | refine runCommand_only rfl (fun _ _ => ?_) | refine (cmdDaliGet_only ..).after ?_ rfl | refine OnlyNext.next ?_
    | refine OnlyNext.fault _ | refine OnlyNext.ite ?_ ?_ | refine Only.ite ?_ ?_ | (fail_if_no_progress refine Only.upd rfl ?_ rfl)
    | split | dsimp only | intro _)

theorem State.beginEntry_only (e : Entry) (s : State) :
    Only { power := true, wheel := true, wheelCore := true } s (State.beginEntry e s) := by
  unfold State.beginEntry
  repeat' (with_reducible first
    | exact Only.refl _ _ | refine Only.ite ?_ ?_ | (fail_if_no_progress refine Only.upd rfl ?_ rfl) | split | dsimp only | intro _)

theorem ownPwrSet_only (e : QEntry) (s : State) :
    Only { power := true, wheel := true, doms := true, wheelCore := true } s (ownPwrSet e s).after := by
  unfold ownPwrSet
  repeat' (with_reducible first
    | exact Only.refl _ _ | refine (refuse_only ..).after ?_ rfl | refine (State.beginEntry_only ..).after ?_ rfl | refine Only.done ?_
    | refine Only.hold ?_ | refine Only.replyHold ?_ | refine Only.afterIte ?_ ?_ | refine Only.ite ?_ ?_
    | (fail_if_no_progress refine Only.upd rfl ?_ rfl) | split | dsimp only | intro _)

theorem cmdPwrSet_only (e : QEntry) (s : State) :
    Only { power := true, wheel := true, pols := true, doms := true, wheelCore := true } s (cmdPwrSet e s).after := by
  unfold cmdPwrSet
  repeat' (with_reducible first
    | exact Only.refl _ _ | refine checked_only rfl (fun _ _ => ?_) | refine (ownPwrSet_only ..).after ?_ rfl | refine Only.done ?_
    | refine Only.hold ?_ | refine Only.replyHold ?_ | refine Only.afterIte ?_ ?_ | refine Only.ite ?_ ?_
    | (fail_if_no_progress refine Only.upd rfl ?_ rfl) | split | dsimp only | intro _)

theorem ownPstateSet_only (e : QEntry) (s : State) :
    Only { power := true, doms := true } s (ownPstateSet e s).after := by
  unfold ownPstateSet
  repeat' (with_reducible first
    | exact Only.refl _ _ | refine (doneOk_only ..).after ?_ rfl | refine (refuse_only ..).after ?_ rfl | refine Only.done ?_
    | refine Only.hold ?_ | refine Only.replyHold ?_ | refine Only.afterIte ?_ ?_ | refine Only.ite ?_ ?_
    | (fail_if_no_progress refine Only.upd rfl ?_ rfl) | split | dsimp only | intro _)

theorem cmdPstateSet_only (e : QEntry) (s : State) :
    Only { power := true, pols := true, doms := true } s (cmdPstateSet e s).after := by
  unfold cmdPstateSet
  repeat' (with_reducible first
    | exact Only.refl _ _ | refine checked_only rfl (fun _ _ => ?_) | refine (ownPstateSet_only ..).after ?_ rfl | refine Only.done ?_
    | refine Only.hold ?_ | refine Only.replyHold ?_ | refine Only.afterIte ?_ ?_ | refine Only.ite ?_ ?_
    | (fail_if_no_progress refine Only.upd rfl ?_ rfl) | split | dsimp only | intro _)

theorem ownPwrGet_only (x0 : QEntry) (s : State) :
    Only {} s (ownPwrGet x0 s).after := by
  unfold ownPwrGet
  repeat' (with_reducible first
    | exact Only.refl _ _ | refine (doneOk_only ..).after ?_ rfl | refine Only.done ?_ | refine Only.hold ?_ | refine Only.replyHold ?_
    | refine Only.afterIte ?_ ?_ | refine Only.ite ?_ ?_ | (fail_if_no_progress refine Only.upd rfl ?_ rfl) | split | dsimp only
    | intro _)

theorem cmdPwrGet_only (e : QEntry) (s : State) :
    Only { pols := true } s (cmdPwrGet e s).after := by
  unfold cmdPwrGet
  repeat' (with_reducible first
    | exact Only.refl _ _ | refine checked_only rfl (fun _ _ => ?_) | refine (ownPwrGet_only ..).after ?_ rfl | refine Only.done ?_
    | refine Only.hold ?_ | refine Only.replyHold ?_ | refine Only.afterIte ?_ ?_ | refine Only.ite ?_ ?_
    | (fail_if_no_progress refine Only.upd rfl ?_ rfl) | split | dsimp only | intro _)

theorem ownRefusalRead_only (e : QEntry) (s : State) :
    Only {} s (ownRefusalRead e s).after := by
  unfold ownRefusalRead
  repeat' (with_reducible first
    | exact Only.refl _ _ | refine (doneOk_only ..).after ?_ rfl | refine (refuse_only ..).after ?_ rfl | refine Only.done ?_
    | refine Only.hold ?_ | refine Only.replyHold ?_ | refine Only.afterIte ?_ ?_ | refine Only.ite ?_ ?_
    | (fail_if_no_progress refine Only.upd rfl ?_ rfl) | split | dsimp only | intro _)

theorem cmdRefusalRead_only (e : QEntry) (s : State) :
    Only { pols := true } s (cmdRefusalRead e s).after := by
  unfold cmdRefusalRead
  repeat' (with_reducible first
    | exact Only.refl _ _ | refine checked_only rfl (fun _ _ => ?_) | refine (ownRefusalRead_only ..).after ?_ rfl | refine Only.done ?_
    | refine Only.hold ?_ | refine Only.replyHold ?_ | refine Only.afterIte ?_ ?_ | refine Only.ite ?_ ?_
    | (fail_if_no_progress refine Only.upd rfl ?_ rfl) | split | dsimp only | intro _)

theorem ownRefusalClear_only (x0 : QEntry) (s : State) :
    Only { power := true } s (ownRefusalClear x0 s).after := by
  unfold ownRefusalClear
  repeat' (with_reducible first
    | exact Only.refl _ _ | refine (doneOk_only ..).after ?_ rfl | refine Only.done ?_ | refine Only.hold ?_ | refine Only.replyHold ?_
    | refine Only.afterIte ?_ ?_ | refine Only.ite ?_ ?_ | (fail_if_no_progress refine Only.upd rfl ?_ rfl) | split | dsimp only
    | intro _)

theorem cmdRefusalClear_only (e : QEntry) (s : State) :
    Only { power := true, pols := true } s (cmdRefusalClear e s).after := by
  unfold cmdRefusalClear
  repeat' (with_reducible first
    | exact Only.refl _ _ | refine checked_only rfl (fun _ _ => ?_) | refine (ownRefusalClear_only ..).after ?_ rfl | refine Only.done ?_
    | refine Only.hold ?_ | refine Only.replyHold ?_ | refine Only.afterIte ?_ ?_ | refine Only.ite ?_ ?_
    | (fail_if_no_progress refine Only.upd rfl ?_ rfl) | split | dsimp only | intro _)

theorem execPwrSet_only (r : Req) (params : List Byte) (s : State) :
    OnlyNext { freeCtr := true, power := true, wheel := true, pols := true, arr := true, host := true, lineA := true, lineB := true,
               fab := true, doms := true, wheelCore := true } s (execPwrSet r params s) := by
  unfold execPwrSet
  repeat' (with_reducible first
    | exact Only.refl _ _ | refine runCommand_only rfl (fun _ _ => ?_) | refine (cmdPwrSet_only ..).after ?_ rfl | refine OnlyNext.next ?_
    | refine OnlyNext.fault _ | refine OnlyNext.ite ?_ ?_ | refine Only.ite ?_ ?_ | (fail_if_no_progress refine Only.upd rfl ?_ rfl)
    | split | dsimp only | intro _)

theorem execPstateSet_only (r : Req) (params : List Byte) (s : State) :
    OnlyNext { freeCtr := true, power := true, pols := true, arr := true, host := true, lineA := true, lineB := true, fab := true,
               doms := true } s (execPstateSet r params s) := by
  unfold execPstateSet
  repeat' (with_reducible first
    | exact Only.refl _ _ | refine runCommand_only rfl (fun _ _ => ?_) | refine (cmdPstateSet_only ..).after ?_ rfl
    | refine OnlyNext.next ?_ | refine OnlyNext.fault _ | refine OnlyNext.ite ?_ ?_ | refine Only.ite ?_ ?_
    | (fail_if_no_progress refine Only.upd rfl ?_ rfl) | split | dsimp only | intro _)

theorem execPwrGet_only (r : Req) (params : List Byte) (s : State) :
    OnlyNext { freeCtr := true, power := true, pols := true, arr := true, host := true, lineA := true, lineB := true, fab := true }
      s (execPwrGet r params s) := by
  unfold execPwrGet
  repeat' (with_reducible first
    | exact Only.refl _ _ | refine runCommand_only rfl (fun _ _ => ?_) | refine (cmdPwrGet_only ..).after ?_ rfl | refine OnlyNext.next ?_
    | refine OnlyNext.fault _ | refine OnlyNext.ite ?_ ?_ | refine Only.ite ?_ ?_ | (fail_if_no_progress refine Only.upd rfl ?_ rfl)
    | split | dsimp only | intro _)

theorem execRefusalRead_only (r : Req) (params : List Byte) (s : State) :
    OnlyNext { freeCtr := true, power := true, pols := true, arr := true, host := true, lineA := true, lineB := true, fab := true }
      s (execRefusalRead r params s) := by
  unfold execRefusalRead
  repeat' (with_reducible first
    | exact Only.refl _ _ | refine runCommand_only rfl (fun _ _ => ?_) | refine (cmdRefusalRead_only ..).after ?_ rfl
    | refine OnlyNext.next ?_ | refine OnlyNext.fault _ | refine OnlyNext.ite ?_ ?_ | refine Only.ite ?_ ?_
    | (fail_if_no_progress refine Only.upd rfl ?_ rfl) | split | dsimp only | intro _)

theorem execRefusalClear_only (r : Req) (params : List Byte) (s : State) :
    OnlyNext { freeCtr := true, power := true, pols := true, arr := true, host := true, lineA := true, lineB := true, fab := true }
      s (execRefusalClear r params s) := by
  unfold execRefusalClear
  repeat' (with_reducible first
    | exact Only.refl _ _ | refine runCommand_only rfl (fun _ _ => ?_) | refine (cmdRefusalClear_only ..).after ?_ rfl
    | refine OnlyNext.next ?_ | refine OnlyNext.fault _ | refine OnlyNext.ite ?_ ?_ | refine Only.ite ?_ ?_
    | (fail_if_no_progress refine Only.upd rfl ?_ rfl) | split | dsimp only | intro _)

theorem ownFabRead_only (e : QEntry) (s : State) :
    Only { freeCtr := true } s (ownFabRead e s).after := by
  unfold ownFabRead
  repeat' (with_reducible first
    | exact Only.refl _ _ | refine (State.drawn_only ..).after ?_ rfl | refine (doneOk_only ..).after ?_ rfl
    | refine (refuse_only ..).after ?_ rfl | refine Only.done ?_ | refine Only.hold ?_ | refine Only.replyHold ?_
    | refine Only.afterIte ?_ ?_ | refine Only.ite ?_ ?_ | (fail_if_no_progress refine Only.upd rfl ?_ rfl) | split | dsimp only
    | intro _)

theorem cmdFabRead_only (e : QEntry) (s : State) :
    Only { freeCtr := true, pols := true } s (cmdFabRead e s).after := by
  unfold cmdFabRead
  repeat' (with_reducible first
    | exact Only.refl _ _ | refine checked_only rfl (fun _ _ => ?_) | refine (ownFabRead_only ..).after ?_ rfl | refine Only.done ?_
    | refine Only.hold ?_ | refine Only.replyHold ?_ | refine Only.afterIte ?_ ?_ | refine Only.ite ?_ ?_
    | (fail_if_no_progress refine Only.upd rfl ?_ rfl) | split | dsimp only | intro _)

theorem State.requestFabric_only (f : FabricItem → FabricItem) (s : State) :
    Only { arr := true } s (State.requestFabric f s) := by
  unfold State.requestFabric
  repeat' (with_reducible first
    | exact Only.refl _ _ | refine (State.requestItem_only ..).after ?_ rfl | refine Only.ite ?_ ?_
    | (fail_if_no_progress refine Only.upd rfl ?_ rfl) | split | dsimp only | intro _)

theorem ownFabAddrSet_only (e : QEntry) (s : State) :
    Only { arr := true } s (ownFabAddrSet e s).after := by
  unfold ownFabAddrSet
  repeat' (with_reducible first
    | exact Only.refl _ _ | refine (refuse_only ..).after ?_ rfl | refine Only.commitThen ?_ (fun _ => ?_)
    | refine (State.requestFabric_only ..).after ?_ rfl | refine Only.done ?_ | refine Only.hold ?_ | refine Only.replyHold ?_
    | refine Only.afterIte ?_ ?_ | refine Only.ite ?_ ?_ | (fail_if_no_progress refine Only.upd rfl ?_ rfl) | split | dsimp only
    | intro _)

theorem cmdFabAddrSet_only (e : QEntry) (s : State) :
    Only { pols := true, arr := true } s (cmdFabAddrSet e s).after := by
  unfold cmdFabAddrSet
  repeat' (with_reducible first
    | exact Only.refl _ _ | refine checked_only rfl (fun _ _ => ?_) | refine (ownFabAddrSet_only ..).after ?_ rfl | refine Only.done ?_
    | refine Only.hold ?_ | refine Only.replyHold ?_ | refine Only.afterIte ?_ ?_ | refine Only.ite ?_ ?_
    | (fail_if_no_progress refine Only.upd rfl ?_ rfl) | split | dsimp only | intro _)

theorem ownFabKeySet_only (e : QEntry) (s : State) :
    Only { arr := true } s (ownFabKeySet e s).after := by
  unfold ownFabKeySet
  repeat' (with_reducible first
    | exact Only.refl _ _ | refine (refuse_only ..).after ?_ rfl | refine Only.commitThen ?_ (fun _ => ?_)
    | refine (State.requestFabric_only ..).after ?_ rfl | refine Only.done ?_ | refine Only.hold ?_ | refine Only.replyHold ?_
    | refine Only.afterIte ?_ ?_ | refine Only.ite ?_ ?_ | (fail_if_no_progress refine Only.upd rfl ?_ rfl) | split | dsimp only
    | intro _)

theorem cmdFabKeySet_only (e : QEntry) (s : State) :
    Only { pols := true, arr := true } s (cmdFabKeySet e s).after := by
  unfold cmdFabKeySet
  repeat' (with_reducible first
    | exact Only.refl _ _ | refine checked_only rfl (fun _ _ => ?_) | refine (ownFabKeySet_only ..).after ?_ rfl | refine Only.done ?_
    | refine Only.hold ?_ | refine Only.replyHold ?_ | refine Only.afterIte ?_ ?_ | refine Only.ite ?_ ?_
    | (fail_if_no_progress refine Only.upd rfl ?_ rfl) | split | dsimp only | intro _)

theorem ownFabRankSet_only (e : QEntry) (s : State) :
    Only { arr := true } s (ownFabRankSet e s).after := by
  unfold ownFabRankSet
  repeat' (with_reducible first
    | exact Only.refl _ _ | refine Only.commitThen ?_ (fun _ => ?_) | refine (State.requestFabric_only ..).after ?_ rfl
    | refine Only.done ?_ | refine Only.hold ?_ | refine Only.replyHold ?_ | refine Only.afterIte ?_ ?_ | refine Only.ite ?_ ?_
    | (fail_if_no_progress refine Only.upd rfl ?_ rfl) | split | dsimp only | intro _)

theorem cmdFabRankSet_only (e : QEntry) (s : State) :
    Only { pols := true, arr := true } s (cmdFabRankSet e s).after := by
  unfold cmdFabRankSet
  repeat' (with_reducible first
    | exact Only.refl _ _ | refine checked_only rfl (fun _ _ => ?_) | refine (ownFabRankSet_only ..).after ?_ rfl | refine Only.done ?_
    | refine Only.hold ?_ | refine Only.replyHold ?_ | refine Only.afterIte ?_ ?_ | refine Only.ite ?_ ?_
    | (fail_if_no_progress refine Only.upd rfl ?_ rfl) | split | dsimp only | intro _)

theorem State.sendService_only (dst : BitVec 12) (filter : Nat) (byte1 : Nat) (value : BitVec 48) (s : State) :
    Only { freeCtr := true, lineA := true, lineB := true } s (State.sendService dst filter byte1 value s) := by
  unfold State.sendService
  repeat' (with_reducible first
    | exact Only.refl _ _ | refine (State.modPort_only ..).after ?_ rfl | refine (State.contend_only ..).after ?_ rfl
    | refine Only.ite ?_ ?_ | (fail_if_no_progress refine Only.upd rfl ?_ rfl) | split | dsimp only | intro _)

theorem ownRoleSwap_only (e : QEntry) (s : State) :
    Only { freeCtr := true, lineA := true, lineB := true, fab := true } s (ownRoleSwap e s).after := by
  unfold ownRoleSwap
  repeat' (with_reducible first
    | exact Only.refl _ _ | refine (refuse_only ..).after ?_ rfl | refine (State.sendService_only ..).after ?_ rfl | refine Only.done ?_
    | refine Only.hold ?_ | refine Only.replyHold ?_ | refine Only.afterIte ?_ ?_ | refine Only.ite ?_ ?_
    | (fail_if_no_progress refine Only.upd rfl ?_ rfl) | split | dsimp only | intro _)

theorem cmdRoleSwap_only (e : QEntry) (s : State) :
    Only { freeCtr := true, pols := true, lineA := true, lineB := true, fab := true } s (cmdRoleSwap e s).after := by
  unfold cmdRoleSwap
  repeat' (with_reducible first
    | exact Only.refl _ _ | refine checked_only rfl (fun _ _ => ?_) | refine (ownRoleSwap_only ..).after ?_ rfl | refine Only.done ?_
    | refine Only.hold ?_ | refine Only.replyHold ?_ | refine Only.afterIte ?_ ?_ | refine Only.ite ?_ ?_
    | (fail_if_no_progress refine Only.upd rfl ?_ rfl) | split | dsimp only | intro _)

theorem ownFabRoutes_only (e : QEntry) (s : State) :
    Only {} s (ownFabRoutes e s).after := by
  unfold ownFabRoutes
  repeat' (with_reducible first
    | exact Only.refl _ _ | refine (doneOk_only ..).after ?_ rfl | refine (refuse_only ..).after ?_ rfl | refine Only.done ?_
    | refine Only.hold ?_ | refine Only.replyHold ?_ | refine Only.afterIte ?_ ?_ | refine Only.ite ?_ ?_
    | (fail_if_no_progress refine Only.upd rfl ?_ rfl) | split | dsimp only | intro _)

theorem cmdFabRoutes_only (e : QEntry) (s : State) :
    Only { pols := true } s (cmdFabRoutes e s).after := by
  unfold cmdFabRoutes
  repeat' (with_reducible first
    | exact Only.refl _ _ | refine checked_only rfl (fun _ _ => ?_) | refine (ownFabRoutes_only ..).after ?_ rfl | refine Only.done ?_
    | refine Only.hold ?_ | refine Only.replyHold ?_ | refine Only.afterIte ?_ ?_ | refine Only.ite ?_ ?_
    | (fail_if_no_progress refine Only.upd rfl ?_ rfl) | split | dsimp only | intro _)

theorem ownFabPeriodSrc_only (e : QEntry) (s : State) :
    Only { arr := true } s (ownFabPeriodSrc e s).after := by
  unfold ownFabPeriodSrc
  repeat' (with_reducible first
    | exact Only.refl _ _ | refine (refuse_only ..).after ?_ rfl | refine Only.commitThen ?_ (fun _ => ?_)
    | refine (State.requestFabric_only ..).after ?_ rfl | refine Only.done ?_ | refine Only.hold ?_ | refine Only.replyHold ?_
    | refine Only.afterIte ?_ ?_ | refine Only.ite ?_ ?_ | (fail_if_no_progress refine Only.upd rfl ?_ rfl) | split | dsimp only
    | intro _)

theorem cmdFabPeriodSrc_only (e : QEntry) (s : State) :
    Only { pols := true, arr := true } s (cmdFabPeriodSrc e s).after := by
  unfold cmdFabPeriodSrc
  repeat' (with_reducible first
    | exact Only.refl _ _ | refine checked_only rfl (fun _ _ => ?_) | refine (ownFabPeriodSrc_only ..).after ?_ rfl | refine Only.done ?_
    | refine Only.hold ?_ | refine Only.replyHold ?_ | refine Only.afterIte ?_ ?_ | refine Only.ite ?_ ?_
    | (fail_if_no_progress refine Only.upd rfl ?_ rfl) | split | dsimp only | intro _)

theorem ownFabPeriodSet_only (e : QEntry) (s : State) :
    Only { arr := true } s (ownFabPeriodSet e s).after := by
  unfold ownFabPeriodSet
  repeat' (with_reducible first
    | exact Only.refl _ _ | refine (refuse_only ..).after ?_ rfl | refine Only.commitThen ?_ (fun _ => ?_)
    | refine (State.requestFabric_only ..).after ?_ rfl | refine Only.done ?_ | refine Only.hold ?_ | refine Only.replyHold ?_
    | refine Only.afterIte ?_ ?_ | refine Only.ite ?_ ?_ | (fail_if_no_progress refine Only.upd rfl ?_ rfl) | split | dsimp only
    | intro _)

theorem cmdFabPeriodSet_only (e : QEntry) (s : State) :
    Only { pols := true, arr := true } s (cmdFabPeriodSet e s).after := by
  unfold cmdFabPeriodSet
  repeat' (with_reducible first
    | exact Only.refl _ _ | refine checked_only rfl (fun _ _ => ?_) | refine (ownFabPeriodSet_only ..).after ?_ rfl | refine Only.done ?_
    | refine Only.hold ?_ | refine Only.replyHold ?_ | refine Only.afterIte ?_ ?_ | refine Only.ite ?_ ?_
    | (fail_if_no_progress refine Only.upd rfl ?_ rfl) | split | dsimp only | intro _)

theorem execFabRead_only (r : Req) (params : List Byte) (s : State) :
    OnlyNext { freeCtr := true, power := true, pols := true, arr := true, host := true, lineA := true, lineB := true, fab := true }
      s (execFabRead r params s) := by
  unfold execFabRead
  repeat' (with_reducible first
    | exact Only.refl _ _ | refine runCommand_only rfl (fun _ _ => ?_) | refine (cmdFabRead_only ..).after ?_ rfl | refine OnlyNext.next ?_
    | refine OnlyNext.fault _ | refine OnlyNext.ite ?_ ?_ | refine Only.ite ?_ ?_ | (fail_if_no_progress refine Only.upd rfl ?_ rfl)
    | split | dsimp only | intro _)

theorem execFabAddrSet_only (r : Req) (params : List Byte) (s : State) :
    OnlyNext { freeCtr := true, power := true, pols := true, arr := true, host := true, lineA := true, lineB := true, fab := true }
      s (execFabAddrSet r params s) := by
  unfold execFabAddrSet
  repeat' (with_reducible first
    | exact Only.refl _ _ | refine runCommand_only rfl (fun _ _ => ?_) | refine (cmdFabAddrSet_only ..).after ?_ rfl
    | refine OnlyNext.next ?_ | refine OnlyNext.fault _ | refine OnlyNext.ite ?_ ?_ | refine Only.ite ?_ ?_
    | (fail_if_no_progress refine Only.upd rfl ?_ rfl) | split | dsimp only | intro _)

theorem execFabKeySet_only (r : Req) (params : List Byte) (s : State) :
    OnlyNext { freeCtr := true, power := true, pols := true, arr := true, host := true, lineA := true, lineB := true, fab := true }
      s (execFabKeySet r params s) := by
  unfold execFabKeySet
  repeat' (with_reducible first
    | exact Only.refl _ _ | refine runCommand_only rfl (fun _ _ => ?_) | refine (cmdFabKeySet_only ..).after ?_ rfl
    | refine OnlyNext.next ?_ | refine OnlyNext.fault _ | refine OnlyNext.ite ?_ ?_ | refine Only.ite ?_ ?_
    | (fail_if_no_progress refine Only.upd rfl ?_ rfl) | split | dsimp only | intro _)

theorem execFabRankSet_only (r : Req) (params : List Byte) (s : State) :
    OnlyNext { freeCtr := true, power := true, pols := true, arr := true, host := true, lineA := true, lineB := true, fab := true }
      s (execFabRankSet r params s) := by
  unfold execFabRankSet
  repeat' (with_reducible first
    | exact Only.refl _ _ | refine runCommand_only rfl (fun _ _ => ?_) | refine (cmdFabRankSet_only ..).after ?_ rfl
    | refine OnlyNext.next ?_ | refine OnlyNext.fault _ | refine OnlyNext.ite ?_ ?_ | refine Only.ite ?_ ?_
    | (fail_if_no_progress refine Only.upd rfl ?_ rfl) | split | dsimp only | intro _)

theorem execRoleSwap_only (r : Req) (params : List Byte) (s : State) :
    OnlyNext { freeCtr := true, power := true, pols := true, arr := true, host := true, lineA := true, lineB := true, fab := true }
      s (execRoleSwap r params s) := by
  unfold execRoleSwap
  repeat' (with_reducible first
    | exact Only.refl _ _ | refine runCommand_only rfl (fun _ _ => ?_) | refine (cmdRoleSwap_only ..).after ?_ rfl | refine OnlyNext.next ?_
    | refine OnlyNext.fault _ | refine OnlyNext.ite ?_ ?_ | refine Only.ite ?_ ?_ | (fail_if_no_progress refine Only.upd rfl ?_ rfl)
    | split | dsimp only | intro _)

theorem execFabRoutes_only (r : Req) (params : List Byte) (s : State) :
    OnlyNext { freeCtr := true, power := true, pols := true, arr := true, host := true, lineA := true, lineB := true, fab := true }
      s (execFabRoutes r params s) := by
  unfold execFabRoutes
  repeat' (with_reducible first
    | exact Only.refl _ _ | refine runCommand_only rfl (fun _ _ => ?_) | refine (cmdFabRoutes_only ..).after ?_ rfl
    | refine OnlyNext.next ?_ | refine OnlyNext.fault _ | refine OnlyNext.ite ?_ ?_ | refine Only.ite ?_ ?_
    | (fail_if_no_progress refine Only.upd rfl ?_ rfl) | split | dsimp only | intro _)

theorem execFabPeriodSrc_only (r : Req) (params : List Byte) (s : State) :
    OnlyNext { freeCtr := true, power := true, pols := true, arr := true, host := true, lineA := true, lineB := true, fab := true }
      s (execFabPeriodSrc r params s) := by
  unfold execFabPeriodSrc
  repeat' (with_reducible first
    | exact Only.refl _ _ | refine runCommand_only rfl (fun _ _ => ?_) | refine (cmdFabPeriodSrc_only ..).after ?_ rfl
    | refine OnlyNext.next ?_ | refine OnlyNext.fault _ | refine OnlyNext.ite ?_ ?_ | refine Only.ite ?_ ?_
    | (fail_if_no_progress refine Only.upd rfl ?_ rfl) | split | dsimp only | intro _)

theorem execFabPeriodSet_only (r : Req) (params : List Byte) (s : State) :
    OnlyNext { freeCtr := true, power := true, pols := true, arr := true, host := true, lineA := true, lineB := true, fab := true }
      s (execFabPeriodSet r params s) := by
  unfold execFabPeriodSet
  repeat' (with_reducible first
    | exact Only.refl _ _ | refine runCommand_only rfl (fun _ _ => ?_) | refine (cmdFabPeriodSet_only ..).after ?_ rfl
    | refine OnlyNext.next ?_ | refine OnlyNext.fault _ | refine OnlyNext.ite ?_ ?_ | refine Only.ite ?_ ?_
    | (fail_if_no_progress refine Only.upd rfl ?_ rfl) | split | dsimp only | intro _)

end Sys2Proof.Machine
end

section
/-! PROOFS. What the commands of the array, the statistics, the polders, the lifecycle, the system and time touch. -/

namespace Sys2Proof.Machine

variable {T : Touch} {s t : State}

set_option linter.unusedTactic false
set_option linter.unreachableTactic false
set_option linter.unusedVariables false

theorem State.leaseSettled_only (w : W16) (s : State) :
    Only { arr := true } s (State.leaseSettled w s) := by
  unfold State.leaseSettled
  repeat' (with_reducible first
    | exact Only.refl _ _ | refine Only.ite ?_ ?_ | (fail_if_no_progress refine Only.upd rfl ?_ rfl) | split | dsimp only | intro _)

theorem State.forgetHandle_only (w : W16) (s : State) :
    Only { arr := true } s (State.forgetHandle w s) := by
  unfold State.forgetHandle
  repeat' (with_reducible first
    | exact Only.refl _ _ | refine Only.ite ?_ ?_ | (fail_if_no_progress refine Only.upd rfl ?_ rfl) | split | dsimp only | intro _)

theorem State.renewLease_only (w : W16) (s : State) :
    Only { arr := true } s (State.renewLease w s) := by
  unfold State.renewLease
  repeat' (with_reducible first
    | exact Only.refl _ _ | refine Only.ite ?_ ?_ | (fail_if_no_progress refine Only.upd rfl ?_ rfl) | split | dsimp only | intro _)

theorem State.renewed_only (p : PolId) (h : W16) (s : State) :
    Only { arr := true } s (State.renewed p h s) := by
  unfold State.renewed
  repeat' (with_reducible first
    | exact Only.refl _ _ | refine (State.leaseSettled_only ..).after ?_ rfl | refine (State.renewLease_only ..).after ?_ rfl
    | refine Only.ite ?_ ?_ | (fail_if_no_progress refine Only.upd rfl ?_ rfl) | split | dsimp only | intro _)

theorem renewing_only {f : QEntry → State → CmdOut} {e : QEntry} (hT : ({ arr := true } : Touch).le T = true)
    (hf : ∀ e t, Only T t (f e t).after) : Only T s (renewing f e s).after :=
  ((State.renewed_only ..).mono hT).trans (hf _ _)


theorem underHandle_only {e : QEntry} {f : Update → State → CmdOut} (hT : ({ arr := true } : Touch).le T = true)
    (hf : ∀ u t, Only T t (f u t).after) : Only T s (underHandle e s f).after := by
  unfold underHandle
  refine Only.afterIte ((refuse_only ..).after ((State.forgetHandle_only ..).mono hT) rfl) ?_
  split
  · exact (refuse_only ..).after (Only.refl _ _) rfl
  · exact hf _ _


theorem State.cancelSelection_only (region : Nat) (s : State) :
    Only { arr := true } s (State.cancelSelection region s) := by
  unfold State.cancelSelection
  repeat' (with_reducible first
    | exact Only.refl _ _ | refine (State.requestItem_only ..).after ?_ rfl | refine Only.ite ?_ ?_
    | (fail_if_no_progress refine Only.upd rfl ?_ rfl) | split | dsimp only | intro _)

theorem State.closeSlice_only (s : State) : Only { arr := true } s (State.closeSlice s) := by
  refine Only.setArr ?_
  split
  · split <;> rfl
  · rfl


theorem ownArrOpen_only (e : QEntry) (s : State) :
    Only { arr := true } s (ownArrOpen e s).after := by
  unfold ownArrOpen
  repeat' (with_reducible first
    | exact Only.refl _ _ | refine (State.addJob_only ..).after ?_ rfl | refine (refuse_only ..).after ?_ rfl
    | refine Only.writeThen ?_ (fun _ => ?_) | refine (State.leaseSettled_only ..).after ?_ rfl
    | refine (State.forgetHandle_only ..).after ?_ rfl | refine (State.cancelSelection_only ..).after ?_ rfl | refine Only.done ?_
    | refine Only.hold ?_ | refine Only.replyHold ?_ | refine Only.afterIte ?_ ?_ | refine Only.ite ?_ ?_
    | (fail_if_no_progress refine Only.upd rfl ?_ rfl) | split | dsimp only | intro _)

theorem cmdArrOpen_only (e : QEntry) (s : State) :
    Only { pols := true, arr := true } s (cmdArrOpen e s).after := by
  unfold cmdArrOpen
  repeat' (with_reducible first
    | exact Only.refl _ _ | refine checked_only rfl (fun _ _ => ?_) | refine (ownArrOpen_only ..).after ?_ rfl | refine Only.done ?_
    | refine Only.hold ?_ | refine Only.replyHold ?_ | refine Only.afterIte ?_ ?_ | refine Only.ite ?_ ?_
    | (fail_if_no_progress refine Only.upd rfl ?_ rfl) | split | dsimp only | intro _)

theorem ownArrWrite_only (e : QEntry) (s : State) :
    Only { arr := true } s (ownArrWrite e s).after := by
  unfold ownArrWrite
  repeat' (with_reducible first
    | exact Only.refl _ _ | refine (State.addJob_only ..).after ?_ rfl | refine (refuse_only ..).after ?_ rfl
    | refine Only.writeThen ?_ (fun _ => ?_) | refine underHandle_only rfl (fun _ _ => ?_) | refine Only.done ?_ | refine Only.hold ?_
    | refine Only.replyHold ?_ | refine Only.afterIte ?_ ?_ | refine Only.ite ?_ ?_ | (fail_if_no_progress refine Only.upd rfl ?_ rfl)
    | split | dsimp only | intro _)

theorem cmdArrWrite_only (e : QEntry) (s : State) :
    Only { pols := true, arr := true } s (cmdArrWrite e s).after := by
  unfold cmdArrWrite
  repeat' (with_reducible first
    | exact Only.refl _ _ | refine checked_only rfl (fun _ _ => ?_) | refine renewing_only rfl (fun _ _ => ?_)
    | refine (ownArrWrite_only ..).after ?_ rfl | refine Only.done ?_ | refine Only.hold ?_ | refine Only.replyHold ?_
    | refine Only.afterIte ?_ ?_ | refine Only.ite ?_ ?_ | (fail_if_no_progress refine Only.upd rfl ?_ rfl) | split | dsimp only
    | intro _)

theorem ownArrCommit_only (e : QEntry) (s : State) :
    Only { arr := true } s (ownArrCommit e s).after := by
  unfold ownArrCommit
  repeat' (with_reducible first
    | exact Only.refl _ _ | refine (State.addJob_only ..).after ?_ rfl | refine (refuse_only ..).after ?_ rfl
    | refine Only.writeThen ?_ (fun _ => ?_) | refine underHandle_only rfl (fun _ _ => ?_) | refine Only.done ?_ | refine Only.hold ?_
    | refine Only.replyHold ?_ | refine Only.afterIte ?_ ?_ | refine Only.ite ?_ ?_ | (fail_if_no_progress refine Only.upd rfl ?_ rfl)
    | split | dsimp only | intro _)

theorem cmdArrCommit_only (e : QEntry) (s : State) :
    Only { pols := true, arr := true } s (cmdArrCommit e s).after := by
  unfold cmdArrCommit
  repeat' (with_reducible first
    | exact Only.refl _ _ | refine checked_only rfl (fun _ _ => ?_) | refine renewing_only rfl (fun _ _ => ?_)
    | refine (ownArrCommit_only ..).after ?_ rfl | refine Only.done ?_ | refine Only.hold ?_ | refine Only.replyHold ?_
    | refine Only.afterIte ?_ ?_ | refine Only.ite ?_ ?_ | (fail_if_no_progress refine Only.upd rfl ?_ rfl) | split | dsimp only
    | intro _)

theorem ownArrAbort_only (e : QEntry) (s : State) :
    Only { arr := true } s (ownArrAbort e s).after := by
  unfold ownArrAbort
  repeat' (with_reducible first
    | exact Only.refl _ _ | refine (doneOk_only ..).after ?_ rfl | refine underHandle_only rfl (fun _ _ => ?_) | refine Only.done ?_
    | refine Only.hold ?_ | refine Only.replyHold ?_ | refine Only.afterIte ?_ ?_ | refine Only.ite ?_ ?_
    | (fail_if_no_progress refine Only.upd rfl ?_ rfl) | split | dsimp only | intro _)

theorem cmdArrAbort_only (e : QEntry) (s : State) :
    Only { pols := true, arr := true } s (cmdArrAbort e s).after := by
  unfold cmdArrAbort
  repeat' (with_reducible first
    | exact Only.refl _ _ | refine checked_only rfl (fun _ _ => ?_) | refine renewing_only rfl (fun _ _ => ?_)
    | refine (ownArrAbort_only ..).after ?_ rfl | refine Only.done ?_ | refine Only.hold ?_ | refine Only.replyHold ?_
    | refine Only.afterIte ?_ ?_ | refine Only.ite ?_ ?_ | (fail_if_no_progress refine Only.upd rfl ?_ rfl) | split | dsimp only
    | intro _)

theorem ownArrRead_only (e : QEntry) (s : State) :
    Only {} s (ownArrRead e s).after := by
  unfold ownArrRead
  repeat' (with_reducible first
    | exact Only.refl _ _ | refine (doneOk_only ..).after ?_ rfl | refine (refuse_only ..).after ?_ rfl | refine Only.done ?_
    | refine Only.hold ?_ | refine Only.replyHold ?_ | refine Only.afterIte ?_ ?_ | refine Only.ite ?_ ?_
    | (fail_if_no_progress refine Only.upd rfl ?_ rfl) | split | dsimp only | intro _)

theorem cmdArrRead_only (e : QEntry) (s : State) :
    Only { pols := true } s (cmdArrRead e s).after := by
  unfold cmdArrRead
  repeat' (with_reducible first
    | exact Only.refl _ _ | refine checked_only rfl (fun _ _ => ?_) | refine (ownArrRead_only ..).after ?_ rfl | refine Only.done ?_
    | refine Only.hold ?_ | refine Only.replyHold ?_ | refine Only.afterIte ?_ ?_ | refine Only.ite ?_ ?_
    | (fail_if_no_progress refine Only.upd rfl ?_ rfl) | split | dsimp only | intro _)

theorem ownArrInfo_only (x0 : QEntry) (s : State) :
    Only {} s (ownArrInfo x0 s).after := by
  unfold ownArrInfo
  repeat' (with_reducible first
    | exact Only.refl _ _ | refine (doneOk_only ..).after ?_ rfl | refine Only.done ?_ | refine Only.hold ?_ | refine Only.replyHold ?_
    | refine Only.afterIte ?_ ?_ | refine Only.ite ?_ ?_ | (fail_if_no_progress refine Only.upd rfl ?_ rfl) | split | dsimp only
    | intro _)

theorem cmdArrInfo_only (e : QEntry) (s : State) :
    Only { pols := true } s (cmdArrInfo e s).after := by
  unfold cmdArrInfo
  repeat' (with_reducible first
    | exact Only.refl _ _ | refine checked_only rfl (fun _ _ => ?_) | refine (ownArrInfo_only ..).after ?_ rfl | refine Only.done ?_
    | refine Only.hold ?_ | refine Only.replyHold ?_ | refine Only.afterIte ?_ ?_ | refine Only.ite ?_ ?_
    | (fail_if_no_progress refine Only.upd rfl ?_ rfl) | split | dsimp only | intro _)

theorem ownFwActivate_only (e : QEntry) (s : State) :
    Only { arr := true } s (ownFwActivate e s).after := by
  unfold ownFwActivate
  repeat' (with_reducible first
    | exact Only.refl _ _ | refine (State.requestItem_only ..).after ?_ rfl | refine (refuse_only ..).after ?_ rfl
    | refine Only.commitThen ?_ (fun _ => ?_) | refine Only.done ?_ | refine Only.hold ?_ | refine Only.replyHold ?_
    | refine Only.afterIte ?_ ?_ | refine Only.ite ?_ ?_ | (fail_if_no_progress refine Only.upd rfl ?_ rfl) | split | dsimp only
    | intro _)

theorem cmdFwActivate_only (e : QEntry) (s : State) :
    Only { pols := true, arr := true } s (cmdFwActivate e s).after := by
  unfold cmdFwActivate
  repeat' (with_reducible first
    | exact Only.refl _ _ | refine checked_only rfl (fun _ _ => ?_) | refine (ownFwActivate_only ..).after ?_ rfl | refine Only.done ?_
    | refine Only.hold ?_ | refine Only.replyHold ?_ | refine Only.afterIte ?_ ?_ | refine Only.ite ?_ ?_
    | (fail_if_no_progress refine Only.upd rfl ?_ rfl) | split | dsimp only | intro _)

theorem execArrOpen_only (r : Req) (params : List Byte) (s : State) :
    OnlyNext { freeCtr := true, power := true, pols := true, arr := true, host := true, lineA := true, lineB := true, fab := true }
      s (execArrOpen r params s) := by
  unfold execArrOpen
  repeat' (with_reducible first
    | exact Only.refl _ _ | refine runCommand_only rfl (fun _ _ => ?_) | refine (cmdArrOpen_only ..).after ?_ rfl | refine OnlyNext.next ?_
    | refine OnlyNext.fault _ | refine OnlyNext.ite ?_ ?_ | refine Only.ite ?_ ?_ | (fail_if_no_progress refine Only.upd rfl ?_ rfl)
    | split | dsimp only | intro _)

theorem execArrWrite_only (r : Req) (params : List Byte) (s : State) :
    OnlyNext { freeCtr := true, power := true, pols := true, arr := true, host := true, lineA := true, lineB := true, fab := true }
      s (execArrWrite r params s) := by
  unfold execArrWrite
  repeat' (with_reducible first
    | exact Only.refl _ _ | refine runCommand_only rfl (fun _ _ => ?_) | refine (cmdArrWrite_only ..).after ?_ rfl | refine OnlyNext.next ?_
    | refine OnlyNext.fault _ | refine OnlyNext.ite ?_ ?_ | refine Only.ite ?_ ?_ | (fail_if_no_progress refine Only.upd rfl ?_ rfl)
    | split | dsimp only | intro _)

theorem execArrCommit_only (r : Req) (params : List Byte) (s : State) :
    OnlyNext { freeCtr := true, power := true, pols := true, arr := true, host := true, lineA := true, lineB := true, fab := true }
      s (execArrCommit r params s) := by
  unfold execArrCommit
  repeat' (with_reducible first
    | exact Only.refl _ _ | refine runCommand_only rfl (fun _ _ => ?_) | refine (cmdArrCommit_only ..).after ?_ rfl
    | refine OnlyNext.next ?_ | refine OnlyNext.fault _ | refine OnlyNext.ite ?_ ?_ | refine Only.ite ?_ ?_
    | (fail_if_no_progress refine Only.upd rfl ?_ rfl) | split | dsimp only | intro _)

theorem execArrAbort_only (r : Req) (params : List Byte) (s : State) :
    OnlyNext { freeCtr := true, power := true, pols := true, arr := true, host := true, lineA := true, lineB := true, fab := true }
      s (execArrAbort r params s) := by
  unfold execArrAbort
  repeat' (with_reducible first
    | exact Only.refl _ _ | refine runCommand_only rfl (fun _ _ => ?_) | refine (cmdArrAbort_only ..).after ?_ rfl | refine OnlyNext.next ?_
    | refine OnlyNext.fault _ | refine OnlyNext.ite ?_ ?_ | refine Only.ite ?_ ?_ | (fail_if_no_progress refine Only.upd rfl ?_ rfl)
    | split | dsimp only | intro _)

theorem execArrRead_only (r : Req) (params : List Byte) (s : State) :
    OnlyNext { freeCtr := true, power := true, pols := true, arr := true, host := true, lineA := true, lineB := true, fab := true }
      s (execArrRead r params s) := by
  unfold execArrRead
  repeat' (with_reducible first
    | exact Only.refl _ _ | refine runCommand_only rfl (fun _ _ => ?_) | refine (cmdArrRead_only ..).after ?_ rfl | refine OnlyNext.next ?_
    | refine OnlyNext.fault _ | refine OnlyNext.ite ?_ ?_ | refine Only.ite ?_ ?_ | (fail_if_no_progress refine Only.upd rfl ?_ rfl)
    | split | dsimp only | intro _)

theorem execArrInfo_only (r : Req) (params : List Byte) (s : State) :
    OnlyNext { freeCtr := true, power := true, pols := true, arr := true, host := true, lineA := true, lineB := true, fab := true }
      s (execArrInfo r params s) := by
  unfold execArrInfo
  repeat' (with_reducible first
    | exact Only.refl _ _ | refine runCommand_only rfl (fun _ _ => ?_) | refine (cmdArrInfo_only ..).after ?_ rfl | refine OnlyNext.next ?_
    | refine OnlyNext.fault _ | refine OnlyNext.ite ?_ ?_ | refine Only.ite ?_ ?_ | (fail_if_no_progress refine Only.upd rfl ?_ rfl)
    | split | dsimp only | intro _)

theorem execFwActivate_only (r : Req) (params : List Byte) (s : State) :
    OnlyNext { freeCtr := true, power := true, pols := true, arr := true, host := true, lineA := true, lineB := true, fab := true }
      s (execFwActivate r params s) := by
  unfold execFwActivate
  repeat' (with_reducible first
    | exact Only.refl _ _ | refine runCommand_only rfl (fun _ _ => ?_) | refine (cmdFwActivate_only ..).after ?_ rfl
    | refine OnlyNext.next ?_ | refine OnlyNext.fault _ | refine OnlyNext.ite ?_ ?_ | refine Only.ite ?_ ?_
    | (fail_if_no_progress refine Only.upd rfl ?_ rfl) | split | dsimp only | intro _)

theorem refusePart_only (p : PolId) (st : Status) (s : State) :
    Only { pols := true } s (refusePart p st s).after := by
  unfold refusePart
  repeat' (with_reducible first
    | exact Only.refl _ _ | refine State.modPol_only.after ?_ rfl | refine (refuse_only ..).after ?_ rfl | refine Only.done ?_
    | refine Only.hold ?_ | refine Only.replyHold ?_ | refine Only.afterIte ?_ ?_ | refine Only.ite ?_ ?_
    | (fail_if_no_progress refine Only.upd rfl ?_ rfl) | split | dsimp only | intro _)

theorem keepPart_only (e : QEntry) (s : State) :
    Only { pols := true } s (keepPart e s).after := by
  unfold keepPart
  repeat' (with_reducible first
    | exact Only.refl _ _ | refine State.modPol_only.after ?_ rfl | refine (doneOk_only ..).after ?_ rfl | refine Only.done ?_
    | refine Only.hold ?_ | refine Only.replyHold ?_ | refine Only.afterIte ?_ ?_ | refine Only.ite ?_ ?_
    | (fail_if_no_progress refine Only.upd rfl ?_ rfl) | split | dsimp only | intro _)

theorem ownStatSelect_only (e : QEntry) (s : State) :
    Only { pols := true, arr := true } s (ownStatSelect e s).after := by
  unfold ownStatSelect
  repeat' (with_reducible first
    | exact Only.refl _ _ | refine State.modPol_only.after ?_ rfl | refine (State.requestItem_only ..).after ?_ rfl
    | refine Only.commitThen ?_ (fun _ => ?_) | refine (refusePart_only ..).after ?_ rfl | refine (keepPart_only ..).after ?_ rfl
    | refine Only.done ?_ | refine Only.hold ?_ | refine Only.replyHold ?_ | refine Only.afterIte ?_ ?_ | refine Only.ite ?_ ?_
    | (fail_if_no_progress refine Only.upd rfl ?_ rfl) | split | dsimp only | intro _)

theorem cmdStatSelect_only (e : QEntry) (s : State) :
    Only { pols := true, arr := true } s (cmdStatSelect e s).after := by
  unfold cmdStatSelect
  repeat' (with_reducible first
    | exact Only.refl _ _ | refine checked_only rfl (fun _ _ => ?_) | refine (ownStatSelect_only ..).after ?_ rfl | refine Only.done ?_
    | refine Only.hold ?_ | refine Only.replyHold ?_ | refine Only.afterIte ?_ ?_ | refine Only.ite ?_ ?_
    | (fail_if_no_progress refine Only.upd rfl ?_ rfl) | split | dsimp only | intro _)

theorem ownStatGet_only (e : QEntry) (s : State) :
    Only {} s (ownStatGet e s).after := by
  unfold ownStatGet
  repeat' (with_reducible first
    | exact Only.refl _ _ | refine (doneOk_only ..).after ?_ rfl | refine (refuse_only ..).after ?_ rfl | refine Only.done ?_
    | refine Only.hold ?_ | refine Only.replyHold ?_ | refine Only.afterIte ?_ ?_ | refine Only.ite ?_ ?_
    | (fail_if_no_progress refine Only.upd rfl ?_ rfl) | split | dsimp only | intro _)

theorem cmdStatGet_only (e : QEntry) (s : State) :
    Only { pols := true } s (cmdStatGet e s).after := by
  unfold cmdStatGet
  repeat' (with_reducible first
    | exact Only.refl _ _ | refine checked_only rfl (fun _ _ => ?_) | refine (ownStatGet_only ..).after ?_ rfl | refine Only.done ?_
    | refine Only.hold ?_ | refine Only.replyHold ?_ | refine Only.afterIte ?_ ?_ | refine Only.ite ?_ ?_
    | (fail_if_no_progress refine Only.upd rfl ?_ rfl) | split | dsimp only | intro _)

theorem ownOccGet_only (e : QEntry) (s : State) :
    Only {} s (ownOccGet e s).after := by
  unfold ownOccGet
  repeat' (with_reducible first
    | exact Only.refl _ _ | refine (doneOk_only ..).after ?_ rfl | refine Only.done ?_ | refine Only.hold ?_ | refine Only.replyHold ?_
    | refine Only.afterIte ?_ ?_ | refine Only.ite ?_ ?_ | (fail_if_no_progress refine Only.upd rfl ?_ rfl) | split | dsimp only
    | intro _)

theorem cmdOccGet_only (e : QEntry) (s : State) :
    Only { pols := true } s (cmdOccGet e s).after := by
  unfold cmdOccGet
  repeat' (with_reducible first
    | exact Only.refl _ _ | refine checked_only rfl (fun _ _ => ?_) | refine (ownOccGet_only ..).after ?_ rfl | refine Only.done ?_
    | refine Only.hold ?_ | refine Only.replyHold ?_ | refine Only.afterIte ?_ ?_ | refine Only.ite ?_ ?_
    | (fail_if_no_progress refine Only.upd rfl ?_ rfl) | split | dsimp only | intro _)

theorem ownMotionRebase_only (e : QEntry) (s : State) :
    Only { pols := true } s (ownMotionRebase e s).after := by
  unfold ownMotionRebase
  repeat' (with_reducible first
    | exact Only.refl _ _ | refine State.modPol_only.after ?_ rfl | refine (doneAt_only ..).after ?_ rfl | refine Only.done ?_
    | refine Only.hold ?_ | refine Only.replyHold ?_ | refine Only.afterIte ?_ ?_ | refine Only.ite ?_ ?_
    | (fail_if_no_progress refine Only.upd rfl ?_ rfl) | split | dsimp only | intro _)

theorem cmdMotionRebase_only (e : QEntry) (s : State) :
    Only { pols := true } s (cmdMotionRebase e s).after := by
  unfold cmdMotionRebase
  repeat' (with_reducible first
    | exact Only.refl _ _ | refine checked_only rfl (fun _ _ => ?_) | refine (ownMotionRebase_only ..).after ?_ rfl | refine Only.done ?_
    | refine Only.hold ?_ | refine Only.replyHold ?_ | refine Only.afterIte ?_ ?_ | refine Only.ite ?_ ?_
    | (fail_if_no_progress refine Only.upd rfl ?_ rfl) | split | dsimp only | intro _)

theorem execStatSelect_only (r : Req) (params : List Byte) (s : State) :
    OnlyNext { freeCtr := true, power := true, pols := true, arr := true, host := true, lineA := true, lineB := true, fab := true }
      s (execStatSelect r params s) := by
  unfold execStatSelect
  repeat' (with_reducible first
    | exact Only.refl _ _ | refine runCommand_only rfl (fun _ _ => ?_) | refine (cmdStatSelect_only ..).after ?_ rfl
    | refine OnlyNext.next ?_ | refine OnlyNext.fault _ | refine OnlyNext.ite ?_ ?_ | refine Only.ite ?_ ?_
    | (fail_if_no_progress refine Only.upd rfl ?_ rfl) | split | dsimp only | intro _)

theorem execStatGet_only (r : Req) (params : List Byte) (s : State) :
    OnlyNext { freeCtr := true, power := true, pols := true, arr := true, host := true, lineA := true, lineB := true, fab := true }
      s (execStatGet r params s) := by
  unfold execStatGet
  repeat' (with_reducible first
    | exact Only.refl _ _ | refine runCommand_only rfl (fun _ _ => ?_) | refine (cmdStatGet_only ..).after ?_ rfl | refine OnlyNext.next ?_
    | refine OnlyNext.fault _ | refine OnlyNext.ite ?_ ?_ | refine Only.ite ?_ ?_ | (fail_if_no_progress refine Only.upd rfl ?_ rfl)
    | split | dsimp only | intro _)

theorem execOccGet_only (r : Req) (params : List Byte) (s : State) :
    OnlyNext { freeCtr := true, power := true, pols := true, arr := true, host := true, lineA := true, lineB := true, fab := true }
      s (execOccGet r params s) := by
  unfold execOccGet
  repeat' (with_reducible first
    | exact Only.refl _ _ | refine runCommand_only rfl (fun _ _ => ?_) | refine (cmdOccGet_only ..).after ?_ rfl | refine OnlyNext.next ?_
    | refine OnlyNext.fault _ | refine OnlyNext.ite ?_ ?_ | refine Only.ite ?_ ?_ | (fail_if_no_progress refine Only.upd rfl ?_ rfl)
    | split | dsimp only | intro _)

theorem execMotionRebase_only (r : Req) (params : List Byte) (s : State) :
    OnlyNext { freeCtr := true, power := true, pols := true, arr := true, host := true, lineA := true, lineB := true, fab := true }
      s (execMotionRebase r params s) := by
  unfold execMotionRebase
  repeat' (with_reducible first
    | exact Only.refl _ _ | refine runCommand_only rfl (fun _ _ => ?_) | refine (cmdMotionRebase_only ..).after ?_ rfl
    | refine OnlyNext.next ?_ | refine OnlyNext.fault _ | refine OnlyNext.ite ?_ ?_ | refine Only.ite ?_ ?_
    | (fail_if_no_progress refine Only.upd rfl ?_ rfl) | split | dsimp only | intro _)

theorem State.clearBinding_only (old : PolId) (s : State) :
    Only { pols := true, host := true } s (State.clearBinding old s) := by
  unfold State.clearBinding
  repeat' (with_reducible first
    | exact Only.refl _ _ | refine State.modPol_only.after ?_ rfl | refine Only.ite ?_ ?_ | (fail_if_no_progress refine Only.upd rfl ?_ rfl)
    | split | dsimp only | intro _)

theorem State.rebindFrom_only (old : PolId) (s : State) :
    Only { pols := true, host := true } s (State.rebindFrom old s) := by
  unfold State.rebindFrom
  repeat' (with_reducible first
    | exact Only.refl _ _ | refine (State.clearBinding_only ..).after ?_ rfl | refine Only.ite ?_ ?_
    | (fail_if_no_progress refine Only.upd rfl ?_ rfl) | split | dsimp only | intro _)

theorem State.storePolder_only (p : PolId) (s : State) :
    Only { arr := true } s (State.storePolder p s) := by
  unfold State.storePolder
  repeat' (with_reducible first
    | exact Only.refl _ _ | refine (State.requestItem_only ..).after ?_ rfl | refine Only.ite ?_ ?_
    | (fail_if_no_progress refine Only.upd rfl ?_ rfl) | split | dsimp only | intro _)

theorem State.storeSeqs_only (p : PolId) (s : State) :
    Only { arr := true } s (State.storeSeqs p s) := by
  unfold State.storeSeqs
  repeat' (with_reducible first
    | exact Only.refl _ _ | refine (State.requestItem_only ..).after ?_ rfl | refine Only.ite ?_ ?_
    | (fail_if_no_progress refine Only.upd rfl ?_ rfl) | split | dsimp only | intro _)

theorem commitTenant_only (p : PolId) (c : Charter) (s : State) :
    Only { pols := true, ka := true, arr := true, host := true } s (commitTenant p c s).after := by
  unfold commitTenant
  repeat' (with_reducible first
    | exact Only.refl _ _ | refine State.modPol_only.after ?_ rfl | refine (State.requestItem_only ..).after ?_ rfl
    | refine Only.commitThen ?_ (fun _ => ?_) | refine (State.rebindFrom_only ..).after ?_ rfl
    | refine (State.storePolder_only ..).after ?_ rfl | refine Only.done ?_ | refine Only.hold ?_ | refine Only.replyHold ?_
    | refine Only.afterIte ?_ ?_ | refine Only.ite ?_ ?_ | (fail_if_no_progress refine Only.upd rfl ?_ rfl) | split | dsimp only
    | intro _)

theorem commitOwner_only (c : Charter) (s : State) :
    Only { pols := true, ka := true, arr := true } s (commitOwner c s).after := by
  unfold commitOwner
  repeat' (with_reducible first
    | exact Only.refl _ _ | refine State.modPol_only.after ?_ rfl | refine (State.requestItem_only ..).after ?_ rfl
    | refine Only.commitThen ?_ (fun _ => ?_) | refine (State.storePolder_only ..).after ?_ rfl | refine Only.done ?_
    | refine Only.hold ?_ | refine Only.replyHold ?_ | refine Only.afterIte ?_ ?_ | refine Only.ite ?_ ?_
    | (fail_if_no_progress refine Only.upd rfl ?_ rfl) | split | dsimp only | intro _)

theorem commitCharter_only (p : PolId) (bs : List Byte) (s : State) :
    Only { pols := true, ka := true, arr := true, host := true } s (commitCharter p bs s).after := by
  unfold commitCharter
  repeat' (with_reducible first
    | exact Only.refl _ _ | refine (refuse_only ..).after ?_ rfl | refine (commitTenant_only ..).after ?_ rfl
    | refine (commitOwner_only ..).after ?_ rfl | refine Only.done ?_ | refine Only.hold ?_ | refine Only.replyHold ?_
    | refine Only.afterIte ?_ ?_ | refine Only.ite ?_ ?_ | (fail_if_no_progress refine Only.upd rfl ?_ rfl) | split | dsimp only
    | intro _)

theorem ownPoldCreate_only (e : QEntry) (s : State) :
    Only { pols := true, ka := true, arr := true, host := true } s (ownPoldCreate e s).after := by
  unfold ownPoldCreate
  repeat' (with_reducible first
    | exact Only.refl _ _ | refine State.modPol_only.after ?_ rfl | refine (refusePart_only ..).after ?_ rfl
    | refine (keepPart_only ..).after ?_ rfl | refine (commitCharter_only ..).after ?_ rfl | refine Only.done ?_ | refine Only.hold ?_
    | refine Only.replyHold ?_ | refine Only.afterIte ?_ ?_ | refine Only.ite ?_ ?_ | (fail_if_no_progress refine Only.upd rfl ?_ rfl)
    | split | dsimp only | intro _)

theorem cmdPoldCreate_only (e : QEntry) (s : State) :
    Only { pols := true, ka := true, arr := true, host := true } s (cmdPoldCreate e s).after := by
  unfold cmdPoldCreate
  repeat' (with_reducible first
    | exact Only.refl _ _ | refine checked_only rfl (fun _ _ => ?_) | refine (ownPoldCreate_only ..).after ?_ rfl | refine Only.done ?_
    | refine Only.hold ?_ | refine Only.replyHold ?_ | refine Only.afterIte ?_ ?_ | refine Only.ite ?_ ?_
    | (fail_if_no_progress refine Only.upd rfl ?_ rfl) | split | dsimp only | intro _)

theorem ownPoldOffer_only (e : QEntry) (s : State) :
    Only {} s (ownPoldOffer e s).after := by
  unfold ownPoldOffer
  repeat' (with_reducible first
    | exact Only.refl _ _ | refine (doneOk_only ..).after ?_ rfl | refine (refuse_only ..).after ?_ rfl | refine Only.done ?_
    | refine Only.hold ?_ | refine Only.replyHold ?_ | refine Only.afterIte ?_ ?_ | refine Only.ite ?_ ?_
    | (fail_if_no_progress refine Only.upd rfl ?_ rfl) | split | dsimp only | intro _)

theorem cmdPoldOffer_only (e : QEntry) (s : State) :
    Only { pols := true } s (cmdPoldOffer e s).after := by
  unfold cmdPoldOffer
  repeat' (with_reducible first
    | exact Only.refl _ _ | refine checked_only rfl (fun _ _ => ?_) | refine (ownPoldOffer_only ..).after ?_ rfl | refine Only.done ?_
    | refine Only.hold ?_ | refine Only.replyHold ?_ | refine Only.afterIte ?_ ?_ | refine Only.ite ?_ ?_
    | (fail_if_no_progress refine Only.upd rfl ?_ rfl) | split | dsimp only | intro _)

theorem State.abandonAgreement_only (cause : Nat) (s : State) :
    Only { clock := true, pols := true, ka := true, arr := true, host := true } s (State.abandonAgreement cause s) := by
  unfold State.abandonAgreement
  repeat' (with_reducible first
    | exact Only.refl _ _ | refine State.modPol_only.after ?_ rfl | refine (State.ownerEvent_only ..).after ?_ rfl
    | refine (State.rebindFrom_only ..).after ?_ rfl | refine (State.storePolder_only ..).after ?_ rfl
    | refine (State.storeSeqs_only ..).after ?_ rfl | refine Only.ite ?_ ?_ | (fail_if_no_progress refine Only.upd rfl ?_ rfl) | split
    | dsimp only | intro _)

theorem State.resetDali_only (p : PolId) (s : State) :
    Only { arr := true, dali := true } s (State.resetDali p s) := by
  unfold State.resetDali
  repeat' (with_reducible first
    | exact Only.refl _ _ | refine (State.requestItem_only ..).after ?_ rfl | refine Only.ite ?_ ?_
    | (fail_if_no_progress refine Only.upd rfl ?_ rfl) | split | dsimp only | intro _)

theorem State.completeAgreement_only (k : KeyAgreement) (qT : JPoint) (part2 : List Byte) (r : Req) (s : State) :
    Only { clock := true, pols := true, ka := true, arr := true, dali := true, early := true } s (State.completeAgreement k qT part2 r s) := by
  unfold State.completeAgreement
  repeat' (with_reducible first
    | exact Only.refl _ _ | refine State.modPol_only.after ?_ rfl | refine (State.ownerEvent_only ..).after ?_ rfl
    | refine (State.flushEarly_only ..).after ?_ rfl | refine (State.queueReply_only ..).after ?_ rfl
    | refine (State.storePolder_only ..).after ?_ rfl | refine (State.storeSeqs_only ..).after ?_ rfl
    | refine (State.resetDali_only ..).after ?_ rfl | refine Only.ite ?_ ?_ | (fail_if_no_progress refine Only.upd rfl ?_ rfl) | split
    | dsimp only | intro _)

theorem State.dropParts_only (p : PolId) (s : State) :
    Only { pols := true } s (State.dropParts p s) := by
  unfold State.dropParts
  repeat' (with_reducible first
    | exact Only.refl _ _ | refine State.modPol_only.after ?_ rfl | refine Only.ite ?_ ?_ | (fail_if_no_progress refine Only.upd rfl ?_ rfl)
    | split | dsimp only | intro _)

theorem State.answerFinal_only (qT ident : List Byte) (e : QEntry) (s : State) :
    Only { freeCtr := true, clock := true, pols := true, ka := true, arr := true, host := true, dali := true, lineA := true,
           lineB := true, fab := true, early := true } s (State.answerFinal qT ident e s) := by
  unfold State.answerFinal
  repeat' (with_reducible first
    | exact Only.refl _ _ | refine State.modPol_only.after ?_ rfl | refine (State.queueReply_only ..).after ?_ rfl
    | refine (State.untagged_only ..).after ?_ rfl | refine (State.completeAgreement_only ..).after ?_ rfl
    | refine (State.dropParts_only ..).after ?_ rfl | refine Only.ite ?_ ?_ | (fail_if_no_progress refine Only.upd rfl ?_ rfl) | split
    | dsimp only | intro _)

theorem State.serveAnswer_only (e : QEntry) (s : State) :
    Only { freeCtr := true, clock := true, pols := true, ka := true, arr := true, host := true, dali := true, lineA := true,
           lineB := true, fab := true, early := true } s (State.serveAnswer e s) := by
  unfold State.serveAnswer
  repeat' (with_reducible first
    | exact Only.refl _ _ | refine State.modPol_only.after ?_ rfl | refine (State.dropParts_only ..).after ?_ rfl
    | refine (State.answerFinal_only ..).after ?_ rfl | refine Only.ite ?_ ?_ | (fail_if_no_progress refine Only.upd rfl ?_ rfl) | split
    | dsimp only | intro _)

theorem State.dissolve_only (p : PolId) (reason : Nat) (s : State) :
    Only { pols := true, arr := true } s (State.dissolve p reason s) := by
  unfold State.dissolve
  repeat' (with_reducible first
    | exact Only.refl _ _ | refine State.modPol_only.after ?_ rfl | refine (State.voidHeld_only ..).after ?_ rfl
    | refine (State.storePolder_only ..).after ?_ rfl | refine Only.ite ?_ ?_ | (fail_if_no_progress refine Only.upd rfl ?_ rfl) | split
    | dsimp only | intro _)

theorem ownPoldDissolve_only (e : QEntry) (s : State) :
    Only { clock := true, pols := true, ka := true, arr := true, host := true } s (ownPoldDissolve e s).after := by
  unfold ownPoldDissolve
  repeat' (with_reducible first
    | exact Only.refl _ _ | refine (doneOk_only ..).after ?_ rfl | refine (refuse_only ..).after ?_ rfl
    | refine Only.commitThen ?_ (fun _ => ?_) | refine (State.abandonAgreement_only ..).after ?_ rfl
    | refine (State.dissolve_only ..).after ?_ rfl | refine Only.done ?_ | refine Only.hold ?_ | refine Only.replyHold ?_
    | refine Only.afterIte ?_ ?_ | refine Only.ite ?_ ?_ | (fail_if_no_progress refine Only.upd rfl ?_ rfl) | split | dsimp only
    | intro _)

theorem cmdPoldDissolve_only (e : QEntry) (s : State) :
    Only { clock := true, pols := true, ka := true, arr := true, host := true } s (cmdPoldDissolve e s).after := by
  unfold cmdPoldDissolve
  repeat' (with_reducible first
    | exact Only.refl _ _ | refine checked_only rfl (fun _ _ => ?_) | refine (ownPoldDissolve_only ..).after ?_ rfl | refine Only.done ?_
    | refine Only.hold ?_ | refine Only.replyHold ?_ | refine Only.afterIte ?_ ?_ | refine Only.ite ?_ ?_
    | (fail_if_no_progress refine Only.upd rfl ?_ rfl) | split | dsimp only | intro _)

theorem ownPoldStatus_only (e : QEntry) (s : State) :
    Only {} s (ownPoldStatus e s).after := by
  unfold ownPoldStatus
  repeat' (with_reducible first
    | exact Only.refl _ _ | refine (doneOk_only ..).after ?_ rfl | refine (refuse_only ..).after ?_ rfl | refine Only.done ?_
    | refine Only.hold ?_ | refine Only.replyHold ?_ | refine Only.afterIte ?_ ?_ | refine Only.ite ?_ ?_
    | (fail_if_no_progress refine Only.upd rfl ?_ rfl) | split | dsimp only | intro _)

theorem cmdPoldStatus_only (e : QEntry) (s : State) :
    Only { pols := true } s (cmdPoldStatus e s).after := by
  unfold cmdPoldStatus
  repeat' (with_reducible first
    | exact Only.refl _ _ | refine checked_only rfl (fun _ _ => ?_) | refine (ownPoldStatus_only ..).after ?_ rfl | refine Only.done ?_
    | refine Only.hold ?_ | refine Only.replyHold ?_ | refine Only.afterIte ?_ ?_ | refine Only.ite ?_ ?_
    | (fail_if_no_progress refine Only.upd rfl ?_ rfl) | split | dsimp only | intro _)

theorem ownPoldCharter_only (e : QEntry) (s : State) :
    Only {} s (ownPoldCharter e s).after := by
  unfold ownPoldCharter
  repeat' (with_reducible first
    | exact Only.refl _ _ | refine (doneOk_only ..).after ?_ rfl | refine (refuse_only ..).after ?_ rfl | refine Only.done ?_
    | refine Only.hold ?_ | refine Only.replyHold ?_ | refine Only.afterIte ?_ ?_ | refine Only.ite ?_ ?_
    | (fail_if_no_progress refine Only.upd rfl ?_ rfl) | split | dsimp only | intro _)

theorem cmdPoldCharter_only (e : QEntry) (s : State) :
    Only { pols := true } s (cmdPoldCharter e s).after := by
  unfold cmdPoldCharter
  repeat' (with_reducible first
    | exact Only.refl _ _ | refine checked_only rfl (fun _ _ => ?_) | refine (ownPoldCharter_only ..).after ?_ rfl | refine Only.done ?_
    | refine Only.hold ?_ | refine Only.replyHold ?_ | refine Only.afterIte ?_ ?_ | refine Only.ite ?_ ?_
    | (fail_if_no_progress refine Only.upd rfl ?_ rfl) | split | dsimp only | intro _)

theorem execPoldCreate_only (r : Req) (params : List Byte) (s : State) :
    OnlyNext { freeCtr := true, power := true, pols := true, ka := true, arr := true, host := true, lineA := true, lineB := true,
               fab := true } s (execPoldCreate r params s) := by
  unfold execPoldCreate
  repeat' (with_reducible first
    | exact Only.refl _ _ | refine runCommand_only rfl (fun _ _ => ?_) | refine (cmdPoldCreate_only ..).after ?_ rfl
    | refine OnlyNext.next ?_ | refine OnlyNext.fault _ | refine OnlyNext.ite ?_ ?_ | refine Only.ite ?_ ?_
    | (fail_if_no_progress refine Only.upd rfl ?_ rfl) | split | dsimp only | intro _)

theorem execPoldOffer_only (r : Req) (params : List Byte) (s : State) :
    OnlyNext { freeCtr := true, power := true, pols := true, arr := true, host := true, lineA := true, lineB := true, fab := true }
      s (execPoldOffer r params s) := by
  unfold execPoldOffer
  repeat' (with_reducible first
    | exact Only.refl _ _ | refine runCommand_only rfl (fun _ _ => ?_) | refine (cmdPoldOffer_only ..).after ?_ rfl
    | refine OnlyNext.next ?_ | refine OnlyNext.fault _ | refine OnlyNext.ite ?_ ?_ | refine Only.ite ?_ ?_
    | (fail_if_no_progress refine Only.upd rfl ?_ rfl) | split | dsimp only | intro _)

theorem execPoldAnswer_only (r : Req) (params : List Byte) (s : State) :
    OnlyNext { freeCtr := true, clock := true, pols := true, ka := true, arr := true, host := true, dali := true, lineA := true,
               lineB := true, fab := true, early := true } s (execPoldAnswer r params s) := by
  unfold execPoldAnswer
  repeat' (with_reducible first
    | exact Only.refl _ _ | refine State.modPol_only.after ?_ rfl | refine (State.countPort_only ..).after ?_ rfl
    | refine (State.untagged_only ..).after ?_ rfl | refine (State.bindMiss_only ..).after ?_ rfl
    | refine (State.serveAnswer_only ..).after ?_ rfl | refine OnlyNext.next ?_ | refine OnlyNext.fault _ | refine OnlyNext.ite ?_ ?_
    | refine Only.ite ?_ ?_ | (fail_if_no_progress refine Only.upd rfl ?_ rfl) | split | dsimp only | intro _)

theorem execPoldDissolve_only (r : Req) (params : List Byte) (s : State) :
    OnlyNext { freeCtr := true, clock := true, power := true, pols := true, ka := true, arr := true, host := true, lineA := true,
               lineB := true, fab := true } s (execPoldDissolve r params s) := by
  unfold execPoldDissolve
  repeat' (with_reducible first
    | exact Only.refl _ _ | refine runCommand_only rfl (fun _ _ => ?_) | refine (cmdPoldDissolve_only ..).after ?_ rfl
    | refine OnlyNext.next ?_ | refine OnlyNext.fault _ | refine OnlyNext.ite ?_ ?_ | refine Only.ite ?_ ?_
    | (fail_if_no_progress refine Only.upd rfl ?_ rfl) | split | dsimp only | intro _)

theorem execPoldStatus_only (r : Req) (params : List Byte) (s : State) :
    OnlyNext { freeCtr := true, power := true, pols := true, arr := true, host := true, lineA := true, lineB := true, fab := true }
      s (execPoldStatus r params s) := by
  unfold execPoldStatus
  repeat' (with_reducible first
    | exact Only.refl _ _ | refine runCommand_only rfl (fun _ _ => ?_) | refine (cmdPoldStatus_only ..).after ?_ rfl
    | refine OnlyNext.next ?_ | refine OnlyNext.fault _ | refine OnlyNext.ite ?_ ?_ | refine Only.ite ?_ ?_
    | (fail_if_no_progress refine Only.upd rfl ?_ rfl) | split | dsimp only | intro _)

theorem execPoldCharter_only (r : Req) (params : List Byte) (s : State) :
    OnlyNext { freeCtr := true, power := true, pols := true, arr := true, host := true, lineA := true, lineB := true, fab := true }
      s (execPoldCharter r params s) := by
  unfold execPoldCharter
  repeat' (with_reducible first
    | exact Only.refl _ _ | refine runCommand_only rfl (fun _ _ => ?_) | refine (cmdPoldCharter_only ..).after ?_ rfl
    | refine OnlyNext.next ?_ | refine OnlyNext.fault _ | refine OnlyNext.ite ?_ ?_ | refine Only.ite ?_ ?_
    | (fail_if_no_progress refine Only.upd rfl ?_ rfl) | split | dsimp only | intro _)

theorem ownLcGet_only (x0 : QEntry) (s : State) :
    Only {} s (ownLcGet x0 s).after := by
  unfold ownLcGet
  repeat' (with_reducible first
    | exact Only.refl _ _ | refine (doneOk_only ..).after ?_ rfl | refine Only.done ?_ | refine Only.hold ?_ | refine Only.replyHold ?_
    | refine Only.afterIte ?_ ?_ | refine Only.ite ?_ ?_ | (fail_if_no_progress refine Only.upd rfl ?_ rfl) | split | dsimp only
    | intro _)

theorem cmdLcGet_only (e : QEntry) (s : State) :
    Only { pols := true } s (cmdLcGet e s).after := by
  unfold cmdLcGet
  repeat' (with_reducible first
    | exact Only.refl _ _ | refine checked_only rfl (fun _ _ => ?_) | refine (ownLcGet_only ..).after ?_ rfl | refine Only.done ?_
    | refine Only.hold ?_ | refine Only.replyHold ?_ | refine Only.afterIte ?_ ?_ | refine Only.ite ?_ ?_
    | (fail_if_no_progress refine Only.upd rfl ?_ rfl) | split | dsimp only | intro _)

theorem State.expectLc_only (target : Lc) (s : State) :
    Only { life := true, lifeCore := true } s (State.expectLc target s) := by
  unfold State.expectLc
  repeat' (with_reducible first
    | exact Only.refl _ _ | refine Only.ite ?_ ?_ | (fail_if_no_progress refine Only.upd rfl ?_ rfl) | split | dsimp only | intro _)

theorem State.requestField_only (target : Lc) (s : State) :
    Only { arr := true, life := true, lifeCore := true } s (State.requestField target s) := by
  unfold State.requestField
  repeat' (with_reducible first
    | exact Only.refl _ _ | refine (State.requestItem_only ..).after ?_ rfl | refine (State.expectLc_only ..).after ?_ rfl
    | refine Only.ite ?_ ?_ | (fail_if_no_progress refine Only.upd rfl ?_ rfl) | split | dsimp only | intro _)

theorem State.dissolveAll_only (s : State) :
    Only { clock := true, pols := true, ka := true, arr := true, host := true } s (State.dissolveAll s) := by
  unfold State.dissolveAll
  repeat' (with_reducible first
    | exact Only.refl _ _ | refine (State.abandonAgreement_only ..).after ?_ rfl | refine (State.dissolve_only ..).after ?_ rfl
    | refine Only.foldl _ _ ?_ (fun _ _ => ?_) | refine Only.ite ?_ ?_ | (fail_if_no_progress refine Only.upd rfl ?_ rfl) | split
    | dsimp only | intro _)

theorem State.awaitReset_only (target : Lc) (esn : Nat) (s : State) :
    Only { life := true, carries := true, lifeCore := true, resets := true } s (State.awaitReset target esn s) := by
  unfold State.awaitReset
  repeat' (with_reducible first
    | exact Only.refl _ _ | refine Only.ite ?_ ?_ | (fail_if_no_progress refine Only.upd rfl ?_ rfl) | split | dsimp only | intro _)

theorem ownLcAdvance_only (e : QEntry) (s : State) :
    Only { clock := true, pols := true, ka := true, arr := true, life := true, host := true, carries := true, lifeCore := true,
           resets := true } s (ownLcAdvance e s).after := by
  unfold ownLcAdvance
  repeat' (with_reducible first
    | exact Only.refl _ _ | refine (refuse_only ..).after ?_ rfl | refine (State.expectLc_only ..).after ?_ rfl
    | refine (State.requestField_only ..).after ?_ rfl | refine (State.dissolveAll_only ..).after ?_ rfl
    | refine (State.awaitReset_only ..).after ?_ rfl | refine Only.done ?_ | refine Only.hold ?_ | refine Only.replyHold ?_
    | refine Only.afterIte ?_ ?_ | refine Only.ite ?_ ?_ | (fail_if_no_progress refine Only.upd rfl ?_ rfl) | split | dsimp only
    | intro _)

theorem cmdLcAdvance_only (e : QEntry) (s : State) :
    Only { clock := true, pols := true, ka := true, arr := true, life := true, host := true, carries := true, lifeCore := true,
           resets := true } s (cmdLcAdvance e s).after := by
  unfold cmdLcAdvance
  repeat' (with_reducible first
    | exact Only.refl _ _ | refine checked_only rfl (fun _ _ => ?_) | refine (ownLcAdvance_only ..).after ?_ rfl | refine Only.done ?_
    | refine Only.hold ?_ | refine Only.replyHold ?_ | refine Only.afterIte ?_ ?_ | refine Only.ite ?_ ?_
    | (fail_if_no_progress refine Only.upd rfl ?_ rfl) | split | dsimp only | intro _)

theorem State.finishBist_only (j : BistJob) (s : State) :
    Only { clock := true, pols := true, arr := true, bist := true } s (State.finishBist j s) := by
  unfold State.finishBist
  repeat' (with_reducible first
    | exact Only.refl _ _ | refine (State.ownerEvent_only ..).after ?_ rfl | refine Only.ite ?_ ?_
    | (fail_if_no_progress refine Only.upd rfl ?_ rfl) | split | dsimp only | intro _)

theorem ownBistRun_only (e : QEntry) (s : State) :
    Only { bist := true, carries := true, resets := true } s (ownBistRun e s).after := by
  unfold ownBistRun
  repeat' (with_reducible first
    | exact Only.refl _ _ | refine (refuse_only ..).after ?_ rfl | refine Only.done ?_ | refine Only.hold ?_ | refine Only.replyHold ?_
    | refine Only.afterIte ?_ ?_ | refine Only.ite ?_ ?_ | (fail_if_no_progress refine Only.upd rfl ?_ rfl) | split | dsimp only
    | intro _)

theorem cmdBistRun_only (e : QEntry) (s : State) :
    Only { pols := true, bist := true, carries := true, resets := true } s (cmdBistRun e s).after := by
  unfold cmdBistRun
  repeat' (with_reducible first
    | exact Only.refl _ _ | refine checked_only rfl (fun _ _ => ?_) | refine (ownBistRun_only ..).after ?_ rfl | refine Only.done ?_
    | refine Only.hold ?_ | refine Only.replyHold ?_ | refine Only.afterIte ?_ ?_ | refine Only.ite ?_ ?_
    | (fail_if_no_progress refine Only.upd rfl ?_ rfl) | split | dsimp only | intro _)

theorem ownBistRead_only (x0 : QEntry) (s : State) :
    Only {} s (ownBistRead x0 s).after := by
  unfold ownBistRead
  repeat' (with_reducible first
    | exact Only.refl _ _ | refine (doneOk_only ..).after ?_ rfl | refine Only.done ?_ | refine Only.hold ?_ | refine Only.replyHold ?_
    | refine Only.afterIte ?_ ?_ | refine Only.ite ?_ ?_ | (fail_if_no_progress refine Only.upd rfl ?_ rfl) | split | dsimp only
    | intro _)

theorem cmdBistRead_only (e : QEntry) (s : State) :
    Only { pols := true } s (cmdBistRead e s).after := by
  unfold cmdBistRead
  repeat' (with_reducible first
    | exact Only.refl _ _ | refine checked_only rfl (fun _ _ => ?_) | refine (ownBistRead_only ..).after ?_ rfl | refine Only.done ?_
    | refine Only.hold ?_ | refine Only.replyHold ?_ | refine Only.afterIte ?_ ?_ | refine Only.ite ?_ ?_
    | (fail_if_no_progress refine Only.upd rfl ?_ rfl) | split | dsimp only | intro _)

theorem execLcGet_only (r : Req) (params : List Byte) (s : State) :
    OnlyNext { freeCtr := true, power := true, pols := true, arr := true, host := true, lineA := true, lineB := true, fab := true }
      s (execLcGet r params s) := by
  unfold execLcGet
  repeat' (with_reducible first
    | exact Only.refl _ _ | refine runCommand_only rfl (fun _ _ => ?_) | refine (cmdLcGet_only ..).after ?_ rfl | refine OnlyNext.next ?_
    | refine OnlyNext.fault _ | refine OnlyNext.ite ?_ ?_ | refine Only.ite ?_ ?_ | (fail_if_no_progress refine Only.upd rfl ?_ rfl)
    | split | dsimp only | intro _)

theorem execLcAdvance_only (r : Req) (params : List Byte) (s : State) :
    OnlyNext { freeCtr := true, clock := true, power := true, pols := true, ka := true, arr := true, life := true, host := true,
               lineA := true, lineB := true, fab := true, carries := true, lifeCore := true, resets := true } s (execLcAdvance r params s) := by
  unfold execLcAdvance
  repeat' (with_reducible first
    | exact Only.refl _ _ | refine runCommand_only rfl (fun _ _ => ?_) | refine (cmdLcAdvance_only ..).after ?_ rfl
    | refine OnlyNext.next ?_ | refine OnlyNext.fault _ | refine OnlyNext.ite ?_ ?_ | refine Only.ite ?_ ?_
    | (fail_if_no_progress refine Only.upd rfl ?_ rfl) | split | dsimp only | intro _)

theorem execBistRun_only (r : Req) (params : List Byte) (s : State) :
    OnlyNext { freeCtr := true, power := true, pols := true, arr := true, bist := true, host := true, lineA := true, lineB := true,
               fab := true, carries := true, resets := true } s (execBistRun r params s) := by
  unfold execBistRun
  repeat' (with_reducible first
    | exact Only.refl _ _ | refine runCommand_only rfl (fun _ _ => ?_) | refine (cmdBistRun_only ..).after ?_ rfl | refine OnlyNext.next ?_
    | refine OnlyNext.fault _ | refine OnlyNext.ite ?_ ?_ | refine Only.ite ?_ ?_ | (fail_if_no_progress refine Only.upd rfl ?_ rfl)
    | split | dsimp only | intro _)

theorem execBistRead_only (r : Req) (params : List Byte) (s : State) :
    OnlyNext { freeCtr := true, power := true, pols := true, arr := true, host := true, lineA := true, lineB := true, fab := true }
      s (execBistRead r params s) := by
  unfold execBistRead
  repeat' (with_reducible first
    | exact Only.refl _ _ | refine runCommand_only rfl (fun _ _ => ?_) | refine (cmdBistRead_only ..).after ?_ rfl | refine OnlyNext.next ?_
    | refine OnlyNext.fault _ | refine OnlyNext.ite ?_ ?_ | refine Only.ite ?_ ?_ | (fail_if_no_progress refine Only.upd rfl ?_ rfl)
    | split | dsimp only | intro _)

theorem ownSysInfo_only (x0 : QEntry) (s : State) :
    Only {} s (ownSysInfo x0 s).after := by
  unfold ownSysInfo
  repeat' (with_reducible first
    | exact Only.refl _ _ | refine (doneOk_only ..).after ?_ rfl | refine Only.done ?_ | refine Only.hold ?_ | refine Only.replyHold ?_
    | refine Only.afterIte ?_ ?_ | refine Only.ite ?_ ?_ | (fail_if_no_progress refine Only.upd rfl ?_ rfl) | split | dsimp only
    | intro _)

theorem cmdSysInfo_only (e : QEntry) (s : State) :
    Only { pols := true } s (cmdSysInfo e s).after := by
  unfold cmdSysInfo
  repeat' (with_reducible first
    | exact Only.refl _ _ | refine checked_only rfl (fun _ _ => ?_) | refine (ownSysInfo_only ..).after ?_ rfl | refine Only.done ?_
    | refine Only.hold ?_ | refine Only.replyHold ?_ | refine Only.afterIte ?_ ?_ | refine Only.ite ?_ ?_
    | (fail_if_no_progress refine Only.upd rfl ?_ rfl) | split | dsimp only | intro _)

theorem ownSysCounters_only (e : QEntry) (s : State) :
    Only { pols := true } s (ownSysCounters e s).after := by
  unfold ownSysCounters
  repeat' (with_reducible first
    | exact Only.refl _ _ | refine State.modPol_only.after ?_ rfl | refine (doneOk_only ..).after ?_ rfl | refine Only.done ?_
    | refine Only.hold ?_ | refine Only.replyHold ?_ | refine Only.afterIte ?_ ?_ | refine Only.ite ?_ ?_
    | (fail_if_no_progress refine Only.upd rfl ?_ rfl) | split | dsimp only | intro _)

theorem cmdSysCounters_only (e : QEntry) (s : State) :
    Only { pols := true } s (cmdSysCounters e s).after := by
  unfold cmdSysCounters
  repeat' (with_reducible first
    | exact Only.refl _ _ | refine checked_only rfl (fun _ _ => ?_) | refine (ownSysCounters_only ..).after ?_ rfl | refine Only.done ?_
    | refine Only.hold ?_ | refine Only.replyHold ?_ | refine Only.afterIte ?_ ?_ | refine Only.ite ?_ ?_
    | (fail_if_no_progress refine Only.upd rfl ?_ rfl) | split | dsimp only | intro _)

theorem ownAttestGet_only (e : QEntry) (s : State) :
    Only {} s (ownAttestGet e s).after := by
  unfold ownAttestGet
  repeat' (with_reducible first
    | exact Only.refl _ _ | refine (doneOk_only ..).after ?_ rfl | refine (refuse_only ..).after ?_ rfl | refine Only.done ?_
    | refine Only.hold ?_ | refine Only.replyHold ?_ | refine Only.afterIte ?_ ?_ | refine Only.ite ?_ ?_
    | (fail_if_no_progress refine Only.upd rfl ?_ rfl) | split | dsimp only | intro _)

theorem cmdAttestGet_only (e : QEntry) (s : State) :
    Only { pols := true } s (cmdAttestGet e s).after := by
  unfold cmdAttestGet
  repeat' (with_reducible first
    | exact Only.refl _ _ | refine checked_only rfl (fun _ _ => ?_) | refine (ownAttestGet_only ..).after ?_ rfl | refine Only.done ?_
    | refine Only.hold ?_ | refine Only.replyHold ?_ | refine Only.afterIte ?_ ?_ | refine Only.ite ?_ ?_
    | (fail_if_no_progress refine Only.upd rfl ?_ rfl) | split | dsimp only | intro _)

theorem ownSysReset_only (e : QEntry) (s : State) :
    Only { carries := true, resets := true } s (ownSysReset e s).after := by
  unfold ownSysReset
  repeat' (with_reducible first
    | exact Only.refl _ _ | refine (doneOk_only ..).after ?_ rfl | refine (refuse_only ..).after ?_ rfl | refine Only.done ?_
    | refine Only.hold ?_ | refine Only.replyHold ?_ | refine Only.afterIte ?_ ?_ | refine Only.ite ?_ ?_
    | (fail_if_no_progress refine Only.upd rfl ?_ rfl) | split | dsimp only | intro _)

theorem cmdSysReset_only (e : QEntry) (s : State) :
    Only { pols := true, carries := true, resets := true } s (cmdSysReset e s).after := by
  unfold cmdSysReset
  repeat' (with_reducible first
    | exact Only.refl _ _ | refine checked_only rfl (fun _ _ => ?_) | refine (ownSysReset_only ..).after ?_ rfl | refine Only.done ?_
    | refine Only.hold ?_ | refine Only.replyHold ?_ | refine Only.afterIte ?_ ?_ | refine Only.ite ?_ ?_
    | (fail_if_no_progress refine Only.upd rfl ?_ rfl) | split | dsimp only | intro _)

theorem execSysInfo_only (r : Req) (params : List Byte) (s : State) :
    OnlyNext { freeCtr := true, power := true, pols := true, arr := true, host := true, lineA := true, lineB := true, fab := true }
      s (execSysInfo r params s) := by
  unfold execSysInfo
  repeat' (with_reducible first
    | exact Only.refl _ _ | refine runCommand_only rfl (fun _ _ => ?_) | refine (cmdSysInfo_only ..).after ?_ rfl | refine OnlyNext.next ?_
    | refine OnlyNext.fault _ | refine OnlyNext.ite ?_ ?_ | refine Only.ite ?_ ?_ | (fail_if_no_progress refine Only.upd rfl ?_ rfl)
    | split | dsimp only | intro _)

theorem execSysCounters_only (r : Req) (params : List Byte) (s : State) :
    OnlyNext { freeCtr := true, power := true, pols := true, arr := true, host := true, lineA := true, lineB := true, fab := true }
      s (execSysCounters r params s) := by
  unfold execSysCounters
  repeat' (with_reducible first
    | exact Only.refl _ _ | refine runCommand_only rfl (fun _ _ => ?_) | refine (cmdSysCounters_only ..).after ?_ rfl
    | refine OnlyNext.next ?_ | refine OnlyNext.fault _ | refine OnlyNext.ite ?_ ?_ | refine Only.ite ?_ ?_
    | (fail_if_no_progress refine Only.upd rfl ?_ rfl) | split | dsimp only | intro _)

theorem execAttestGet_only (r : Req) (params : List Byte) (s : State) :
    OnlyNext { freeCtr := true, power := true, pols := true, arr := true, host := true, lineA := true, lineB := true, fab := true }
      s (execAttestGet r params s) := by
  unfold execAttestGet
  repeat' (with_reducible first
    | exact Only.refl _ _ | refine runCommand_only rfl (fun _ _ => ?_) | refine (cmdAttestGet_only ..).after ?_ rfl
    | refine OnlyNext.next ?_ | refine OnlyNext.fault _ | refine OnlyNext.ite ?_ ?_ | refine Only.ite ?_ ?_
    | (fail_if_no_progress refine Only.upd rfl ?_ rfl) | split | dsimp only | intro _)

theorem execSysReset_only (r : Req) (params : List Byte) (s : State) :
    OnlyNext { freeCtr := true, power := true, pols := true, arr := true, host := true, lineA := true, lineB := true, fab := true,
               carries := true, resets := true } s (execSysReset r params s) := by
  unfold execSysReset
  repeat' (with_reducible first
    | exact Only.refl _ _ | refine runCommand_only rfl (fun _ _ => ?_) | refine (cmdSysReset_only ..).after ?_ rfl | refine OnlyNext.next ?_
    | refine OnlyNext.fault _ | refine OnlyNext.ite ?_ ?_ | refine Only.ite ?_ ?_ | (fail_if_no_progress refine Only.upd rfl ?_ rfl)
    | split | dsimp only | intro _)

theorem ownTimeGet_only (e : QEntry) (s : State) :
    Only {} s (ownTimeGet e s).after := by
  unfold ownTimeGet
  repeat' (with_reducible first
    | exact Only.refl _ _ | refine (doneOk_only ..).after ?_ rfl | refine Only.done ?_ | refine Only.hold ?_ | refine Only.replyHold ?_
    | refine Only.afterIte ?_ ?_ | refine Only.ite ?_ ?_ | (fail_if_no_progress refine Only.upd rfl ?_ rfl) | split | dsimp only
    | intro _)

theorem cmdTimeGet_only (e : QEntry) (s : State) :
    Only { pols := true } s (cmdTimeGet e s).after := by
  unfold cmdTimeGet
  repeat' (with_reducible first
    | exact Only.refl _ _ | refine checked_only rfl (fun _ _ => ?_) | refine (ownTimeGet_only ..).after ?_ rfl | refine Only.done ?_
    | refine Only.hold ?_ | refine Only.replyHold ?_ | refine Only.afterIte ?_ ?_ | refine Only.ite ?_ ?_
    | (fail_if_no_progress refine Only.upd rfl ?_ rfl) | split | dsimp only | intro _)

theorem ownTimeSet_only (e : QEntry) (s : State) :
    Only { clock := true } s (ownTimeSet e s).after := by
  unfold ownTimeSet
  repeat' (with_reducible first
    | exact Only.refl _ _ | refine (refuse_only ..).after ?_ rfl | refine Only.done ?_ | refine Only.hold ?_ | refine Only.replyHold ?_
    | refine Only.afterIte ?_ ?_ | refine Only.ite ?_ ?_ | (fail_if_no_progress refine Only.upd rfl ?_ rfl) | split | dsimp only
    | intro _)

theorem cmdTimeSet_only (e : QEntry) (s : State) :
    Only { clock := true, pols := true } s (cmdTimeSet e s).after := by
  unfold cmdTimeSet
  repeat' (with_reducible first
    | exact Only.refl _ _ | refine checked_only rfl (fun _ _ => ?_) | refine (ownTimeSet_only ..).after ?_ rfl | refine Only.done ?_
    | refine Only.hold ?_ | refine Only.replyHold ?_ | refine Only.afterIte ?_ ?_ | refine Only.ite ?_ ?_
    | (fail_if_no_progress refine Only.upd rfl ?_ rfl) | split | dsimp only | intro _)

theorem ownTimeSlew_only (e : QEntry) (s : State) :
    Only { clock := true } s (ownTimeSlew e s).after := by
  unfold ownTimeSlew
  repeat' (with_reducible first
    | exact Only.refl _ _ | refine (doneOk_only ..).after ?_ rfl | refine (refuse_only ..).after ?_ rfl | refine Only.done ?_
    | refine Only.hold ?_ | refine Only.replyHold ?_ | refine Only.afterIte ?_ ?_ | refine Only.ite ?_ ?_
    | (fail_if_no_progress refine Only.upd rfl ?_ rfl) | split | dsimp only | intro _)

theorem cmdTimeSlew_only (e : QEntry) (s : State) :
    Only { clock := true, pols := true } s (cmdTimeSlew e s).after := by
  unfold cmdTimeSlew
  repeat' (with_reducible first
    | exact Only.refl _ _ | refine checked_only rfl (fun _ _ => ?_) | refine (ownTimeSlew_only ..).after ?_ rfl | refine Only.done ?_
    | refine Only.hold ?_ | refine Only.replyHold ?_ | refine Only.afterIte ?_ ?_ | refine Only.ite ?_ ?_
    | (fail_if_no_progress refine Only.upd rfl ?_ rfl) | split | dsimp only | intro _)

theorem ownTcmpArm_only (e : QEntry) (s : State) :
    Only { clock := true } s (ownTcmpArm e s).after := by
  unfold ownTcmpArm
  repeat' (with_reducible first
    | exact Only.refl _ _ | refine (State.modTcmp_only ..).after ?_ rfl | refine (doneOk_only ..).after ?_ rfl
    | refine (refuse_only ..).after ?_ rfl | refine Only.done ?_ | refine Only.hold ?_ | refine Only.replyHold ?_
    | refine Only.afterIte ?_ ?_ | refine Only.ite ?_ ?_ | (fail_if_no_progress refine Only.upd rfl ?_ rfl) | split | dsimp only
    | intro _)

theorem cmdTcmpArm_only (e : QEntry) (s : State) :
    Only { clock := true, pols := true } s (cmdTcmpArm e s).after := by
  unfold cmdTcmpArm
  repeat' (with_reducible first
    | exact Only.refl _ _ | refine checked_only rfl (fun _ _ => ?_) | refine (ownTcmpArm_only ..).after ?_ rfl | refine Only.done ?_
    | refine Only.hold ?_ | refine Only.replyHold ?_ | refine Only.afterIte ?_ ?_ | refine Only.ite ?_ ?_
    | (fail_if_no_progress refine Only.upd rfl ?_ rfl) | split | dsimp only | intro _)

theorem execTimeGet_only (r : Req) (params : List Byte) (s : State) :
    OnlyNext { freeCtr := true, power := true, pols := true, arr := true, host := true, lineA := true, lineB := true, fab := true }
      s (execTimeGet r params s) := by
  unfold execTimeGet
  repeat' (with_reducible first
    | exact Only.refl _ _ | refine runCommand_only rfl (fun _ _ => ?_) | refine (cmdTimeGet_only ..).after ?_ rfl | refine OnlyNext.next ?_
    | refine OnlyNext.fault _ | refine OnlyNext.ite ?_ ?_ | refine Only.ite ?_ ?_ | (fail_if_no_progress refine Only.upd rfl ?_ rfl)
    | split | dsimp only | intro _)

theorem execTimeSet_only (r : Req) (params : List Byte) (s : State) :
    OnlyNext { freeCtr := true, clock := true, power := true, pols := true, arr := true, host := true, lineA := true, lineB := true,
               fab := true } s (execTimeSet r params s) := by
  unfold execTimeSet
  repeat' (with_reducible first
    | exact Only.refl _ _ | refine runCommand_only rfl (fun _ _ => ?_) | refine (cmdTimeSet_only ..).after ?_ rfl | refine OnlyNext.next ?_
    | refine OnlyNext.fault _ | refine OnlyNext.ite ?_ ?_ | refine Only.ite ?_ ?_ | (fail_if_no_progress refine Only.upd rfl ?_ rfl)
    | split | dsimp only | intro _)

theorem execTimeSlew_only (r : Req) (params : List Byte) (s : State) :
    OnlyNext { freeCtr := true, clock := true, power := true, pols := true, arr := true, host := true, lineA := true, lineB := true,
               fab := true } s (execTimeSlew r params s) := by
  unfold execTimeSlew
  repeat' (with_reducible first
    | exact Only.refl _ _ | refine runCommand_only rfl (fun _ _ => ?_) | refine (cmdTimeSlew_only ..).after ?_ rfl | refine OnlyNext.next ?_
    | refine OnlyNext.fault _ | refine OnlyNext.ite ?_ ?_ | refine Only.ite ?_ ?_ | (fail_if_no_progress refine Only.upd rfl ?_ rfl)
    | split | dsimp only | intro _)

theorem execTcmpArm_only (r : Req) (params : List Byte) (s : State) :
    OnlyNext { freeCtr := true, clock := true, power := true, pols := true, arr := true, host := true, lineA := true, lineB := true,
               fab := true } s (execTcmpArm r params s) := by
  unfold execTcmpArm
  repeat' (with_reducible first
    | exact Only.refl _ _ | refine runCommand_only rfl (fun _ _ => ?_) | refine (cmdTcmpArm_only ..).after ?_ rfl | refine OnlyNext.next ?_
    | refine OnlyNext.fault _ | refine OnlyNext.ite ?_ ?_ | refine Only.ite ?_ ?_ | (fail_if_no_progress refine Only.upd rfl ?_ rfl)
    | split | dsimp only | intro _)

end Sys2Proof.Machine
end

section
/-! PROOFS. What the service of commands touches. -/

namespace Sys2Proof.Machine

variable {T : Touch} {s t : State}

set_option linter.unusedTactic false
set_option linter.unreachableTactic false
set_option linter.unusedVariables false

theorem cmdTaggedAnswer_only (e : QEntry) (s : State) :
    Only { pols := true } s (cmdTaggedAnswer e s).after := by
  unfold cmdTaggedAnswer
  repeat' (with_reducible first
    | exact Only.refl _ _ | refine (refuse_only ..).after ?_ rfl | refine checked_only rfl (fun _ _ => ?_) | refine Only.done ?_
    | refine Only.hold ?_ | refine Only.replyHold ?_ | refine Only.afterIte ?_ ?_ | refine Only.ite ?_ ?_
    | (fail_if_no_progress refine Only.upd rfl ?_ rfl) | split | dsimp only | intro _)

theorem cmdUnassigned_only (x0 : QEntry) (s : State) :
    Only {} s (cmdUnassigned x0 s).after := by
  unfold cmdUnassigned
  repeat' (with_reducible first
    | exact Only.refl _ _ | refine (refuse_only ..).after ?_ rfl | refine Only.done ?_ | refine Only.hold ?_ | refine Only.replyHold ?_
    | refine Only.afterIte ?_ ?_ | refine Only.ite ?_ ?_ | (fail_if_no_progress refine Only.upd rfl ?_ rfl) | split | dsimp only
    | intro _)

theorem serveLow_only (op : Nat) (e : QEntry) (s : State) :
    Only { clock := true, power := true, wheel := true, pols := true, arr := true, carries := true, doms := true, wheelCore := true,
           resets := true } s (serveLow op e s).after := by
  unfold serveLow
  repeat' (with_reducible first
    | exact Only.refl _ _ | refine (cmdExpoSet_only ..).after ?_ rfl | refine (cmdExpoGet_only ..).after ?_ rfl
    | refine (cmdTrigFire_only ..).after ?_ rfl | refine (cmdTrigRead_only ..).after ?_ rfl | refine (cmdSyncGet_only ..).after ?_ rfl
    | refine (cmdPeriodSet_only ..).after ?_ rfl | refine (cmdWheelGet_only ..).after ?_ rfl | refine (cmdPwrSet_only ..).after ?_ rfl
    | refine (cmdPstateSet_only ..).after ?_ rfl | refine (cmdPwrGet_only ..).after ?_ rfl
    | refine (cmdRefusalRead_only ..).after ?_ rfl | refine (cmdRefusalClear_only ..).after ?_ rfl
    | refine (cmdSysInfo_only ..).after ?_ rfl | refine (cmdSysCounters_only ..).after ?_ rfl
    | refine (cmdAttestGet_only ..).after ?_ rfl | refine (cmdSysReset_only ..).after ?_ rfl | refine (cmdTimeGet_only ..).after ?_ rfl
    | refine (cmdTimeSet_only ..).after ?_ rfl | refine (cmdTimeSlew_only ..).after ?_ rfl | refine (cmdTcmpArm_only ..).after ?_ rfl
    | refine (cmdUnassigned_only ..).after ?_ rfl | refine Only.done ?_ | refine Only.hold ?_ | refine Only.replyHold ?_
    | refine Only.afterIte ?_ ?_ | refine Only.ite ?_ ?_ | (fail_if_no_progress refine Only.upd rfl ?_ rfl) | split | dsimp only
    | intro _)

theorem serveMid_only (op : Nat) (e : QEntry) (s : State) :
    Only { freeCtr := true, clock := true, pols := true, ka := true, arr := true, host := true, lineA := true, lineB := true,
           fab := true } s (serveMid op e s).after := by
  unfold serveMid
  repeat' (with_reducible first
    | exact Only.refl _ _ | refine (cmdFabRead_only ..).after ?_ rfl | refine (cmdFabAddrSet_only ..).after ?_ rfl
    | refine (cmdFabKeySet_only ..).after ?_ rfl | refine (cmdFabRankSet_only ..).after ?_ rfl
    | refine (cmdRoleSwap_only ..).after ?_ rfl | refine (cmdFabRoutes_only ..).after ?_ rfl
    | refine (cmdFabPeriodSrc_only ..).after ?_ rfl | refine (cmdFabPeriodSet_only ..).after ?_ rfl
    | refine (cmdStatSelect_only ..).after ?_ rfl | refine (cmdStatGet_only ..).after ?_ rfl | refine (cmdOccGet_only ..).after ?_ rfl
    | refine (cmdMotionRebase_only ..).after ?_ rfl | refine (cmdPoldCreate_only ..).after ?_ rfl
    | refine (cmdPoldOffer_only ..).after ?_ rfl | refine (cmdPoldDissolve_only ..).after ?_ rfl
    | refine (cmdPoldStatus_only ..).after ?_ rfl | refine (cmdPoldCharter_only ..).after ?_ rfl
    | refine (cmdTaggedAnswer_only ..).after ?_ rfl | refine (cmdUnassigned_only ..).after ?_ rfl | refine Only.done ?_
    | refine Only.hold ?_ | refine Only.replyHold ?_ | refine Only.afterIte ?_ ?_ | refine Only.ite ?_ ?_
    | (fail_if_no_progress refine Only.upd rfl ?_ rfl) | split | dsimp only | intro _)

theorem serveHigh_only (op : Nat) (e : QEntry) (s : State) :
    Only { clock := true, lands := true, cols := true, pols := true, ka := true, arr := true, life := true, bist := true, host := true,
           carries := true, lifeCore := true, resets := true } s (serveHigh op e s).after := by
  unfold serveHigh
  repeat' (with_reducible first
    | exact Only.refl _ _ | refine (cmdCalRun_only ..).after ?_ rfl | refine (cmdCalSchedule_only ..).after ?_ rfl
    | refine (cmdCalRead_only ..).after ?_ rfl | refine (cmdCalClear_only ..).after ?_ rfl | refine (cmdColGet_only ..).after ?_ rfl
    | refine (cmdDefectGet_only ..).after ?_ rfl | refine (cmdTrimGet_only ..).after ?_ rfl | refine (cmdThermGet_only ..).after ?_ rfl
    | refine (cmdPixPort_only ..).after ?_ rfl | refine (cmdDaliCfg_only ..).after ?_ rfl | refine (cmdDaliGet_only ..).after ?_ rfl
    | refine (cmdArrOpen_only ..).after ?_ rfl | refine (cmdArrWrite_only ..).after ?_ rfl | refine (cmdArrCommit_only ..).after ?_ rfl
    | refine (cmdArrAbort_only ..).after ?_ rfl | refine (cmdArrRead_only ..).after ?_ rfl | refine (cmdArrInfo_only ..).after ?_ rfl
    | refine (cmdFwActivate_only ..).after ?_ rfl | refine (cmdLcGet_only ..).after ?_ rfl | refine (cmdLcAdvance_only ..).after ?_ rfl
    | refine (cmdBistRun_only ..).after ?_ rfl | refine (cmdBistRead_only ..).after ?_ rfl | refine (cmdUnassigned_only ..).after ?_ rfl
    | refine Only.done ?_ | refine Only.hold ?_ | refine Only.replyHold ?_ | refine Only.afterIte ?_ ?_ | refine Only.ite ?_ ?_
    | (fail_if_no_progress refine Only.upd rfl ?_ rfl) | split | dsimp only | intro _)

theorem serveOpcode_only (op : Byte) (e : QEntry) (s : State) :
    Only { freeCtr := true, clock := true, power := true, wheel := true, lands := true, cols := true, pols := true, ka := true,
           arr := true, life := true, bist := true, host := true, lineA := true, lineB := true, fab := true, carries := true,
           doms := true, lifeCore := true, wheelCore := true, resets := true } s (serveOpcode op e s).after := by
  unfold serveOpcode
  repeat' (with_reducible first
    | exact Only.refl _ _ | refine (serveLow_only ..).after ?_ rfl | refine (serveMid_only ..).after ?_ rfl
    | refine (serveHigh_only ..).after ?_ rfl | refine Only.done ?_ | refine Only.hold ?_ | refine Only.replyHold ?_
    | refine Only.afterIte ?_ ?_ | refine Only.ite ?_ ?_ | (fail_if_no_progress refine Only.upd rfl ?_ rfl) | split | dsimp only
    | intro _)

theorem State.countPol_only (p : PolId) (f : PolCounters → PolCounters) (s : State) :
    Only { pols := true } s (State.countPol p f s) := by
  unfold State.countPol
  repeat' (with_reducible first
    | exact Only.refl _ _ | refine State.modPol_only.after ?_ rfl | refine Only.ite ?_ ?_ | (fail_if_no_progress refine Only.upd rfl ?_ rfl)
    | split | dsimp only | intro _)

theorem State.admitTagged_only (pk : Packet) (b : PacketBody) (n : Nat) (key : BitVec 128) (s : State) :
    Only { freeCtr := true, pols := true, arr := true, host := true, lineA := true, lineB := true, fab := true }
      s (State.admitTagged pk b n key s) := by
  unfold State.admitTagged
  repeat' (with_reducible first
    | exact Only.refl _ _ | refine State.modPol_only.after ?_ rfl | refine (State.untagged_only ..).after ?_ rfl
    | refine (State.admitCommand_only ..).after ?_ rfl | refine (State.countPol_only ..).after ?_ rfl | refine Only.ite ?_ ?_
    | (fail_if_no_progress refine Only.upd rfl ?_ rfl) | split | dsimp only | intro _)

theorem State.intakeStep_only (pk : Packet) (s : State) :
    Only { freeCtr := true, pols := true, arr := true, host := true, lineA := true, lineB := true, fab := true } s (State.intakeStep pk s) := by
  unfold State.intakeStep
  repeat' (with_reducible first
    | exact Only.refl _ _ | refine State.modPol_only.after ?_ rfl | refine (State.untagged_only ..).after ?_ rfl
    | refine (State.countPol_only ..).after ?_ rfl | refine (State.admitTagged_only ..).after ?_ rfl | refine Only.ite ?_ ?_
    | (fail_if_no_progress refine Only.upd rfl ?_ rfl) | split | dsimp only | intro _)

theorem State.runIntake_only (p : PolId) (s : State) :
    Only { freeCtr := true, pols := true, arr := true, host := true, lineA := true, lineB := true, fab := true } s (State.runIntake p s) := by
  unfold State.runIntake
  repeat' (with_reducible first
    | exact Only.refl _ _ | refine State.modPol_only.after ?_ rfl | refine (State.intakeStep_only ..).after ?_ rfl
    | refine Only.foldl _ _ ?_ (fun _ _ => ?_) | refine Only.ite ?_ ?_ | (fail_if_no_progress refine Only.upd rfl ?_ rfl) | split
    | dsimp only | intro _)

theorem State.serveDuplicate_only (e : QEntry) (s : State) :
    Only { freeCtr := true, pols := true, host := true, lineA := true, lineB := true, fab := true } s (State.serveDuplicate e s) := by
  unfold State.serveDuplicate
  repeat' (with_reducible first
    | exact Only.refl _ _ | refine (State.queueReply_only ..).after ?_ rfl | refine (State.untagged_only ..).after ?_ rfl
    | refine (State.countPol_only ..).after ?_ rfl | refine Only.ite ?_ ?_ | (fail_if_no_progress refine Only.upd rfl ?_ rfl) | split
    | dsimp only | intro _)

theorem State.serveGone_only (e : QEntry) (s : State) :
    Only { freeCtr := true, pols := true, host := true, lineA := true, lineB := true, fab := true } s (State.serveGone e s) := by
  unfold State.serveGone
  repeat' (with_reducible first
    | exact Only.refl _ _ | refine (State.queueReply_only ..).after ?_ rfl | refine (State.untagged_only ..).after ?_ rfl
    | refine Only.ite ?_ ?_ | (fail_if_no_progress refine Only.upd rfl ?_ rfl) | split | dsimp only | intro _)

theorem State.serveEntry_only (e : QEntry) (s : State) :
    Only { freeCtr := true, clock := true, power := true, wheel := true, lands := true, cols := true, pols := true, ka := true,
           arr := true, life := true, bist := true, host := true, dali := true, lineA := true, lineB := true, fab := true,
           carries := true, early := true, doms := true, lifeCore := true, wheelCore := true, resets := true } s (State.serveEntry e s) := by
  unfold State.serveEntry
  repeat' (with_reducible first
    | exact Only.refl _ _ | refine serveWith_only rfl ?_ (fun _ _ => ?_) | refine (State.serveAnswer_only ..).after ?_ rfl
    | refine (serveOpcode_only ..).after ?_ rfl | refine (State.serveDuplicate_only ..).after ?_ rfl
    | refine (State.serveGone_only ..).after ?_ rfl | refine Only.ite ?_ ?_ | (fail_if_no_progress refine Only.upd rfl ?_ rfl) | split
    | dsimp only | intro _)

theorem State.serveHead_only (p : PolId) (s : State) :
    Only { freeCtr := true, clock := true, power := true, wheel := true, lands := true, cols := true, pols := true, ka := true,
           arr := true, life := true, bist := true, host := true, dali := true, lineA := true, lineB := true, fab := true,
           carries := true, early := true, doms := true, lifeCore := true, wheelCore := true, resets := true } s (State.serveHead p s) := by
  unfold State.serveHead
  repeat' (with_reducible first
    | exact Only.refl _ _ | refine State.modPol_only.after ?_ rfl | refine (State.drawn_only ..).after ?_ rfl
    | refine (State.deliver_only ..).after ?_ rfl | refine (State.serveEntry_only ..).after ?_ rfl | refine Only.ite ?_ ?_
    | (fail_if_no_progress refine Only.upd rfl ?_ rfl) | split | dsimp only | intro _)

theorem State.startRound_only (s : State) :
    Only { power := true, arr := true, fab := true } s (State.startRound s) := by
  unfold State.startRound
  repeat' (with_reducible first
    | exact Only.refl _ _ | refine Only.ite ?_ ?_ | (fail_if_no_progress refine Only.upd rfl ?_ rfl) | split | dsimp only | intro _)

theorem State.marginSlice_only (s : State) :
    Only { freeCtr := true, clock := true, pols := true, arr := true, bist := true } s (State.marginSlice s) := by
  unfold State.marginSlice
  repeat' (with_reducible first
    | exact Only.refl _ _ | refine (State.drawn_only ..).after ?_ rfl | refine (State.finishBist_only ..).after ?_ rfl
    | refine Only.ite ?_ ?_ | (fail_if_no_progress refine Only.upd rfl ?_ rfl) | split | dsimp only | intro _)

theorem execServiceSlice_only (p : PolId) (s : State) :
    OnlyNext { freeCtr := true, clock := true, power := true, wheel := true, lands := true, cols := true, pols := true, ka := true,
               curSlice := true, arr := true, life := true, bist := true, host := true, dali := true, lineA := true, lineB := true,
               fab := true, carries := true, early := true, doms := true, lifeCore := true, wheelCore := true, resets := true }
      s (execServiceSlice p s) := by
  unfold execServiceSlice
  repeat' (with_reducible first
    | exact Only.refl _ _ | refine (State.issueAll_only ..).after ?_ rfl | refine (State.closeSlice_only ..).after ?_ rfl
    | refine (State.runIntake_only ..).after ?_ rfl | refine (State.serveHead_only ..).after ?_ rfl
    | refine (State.startRound_only ..).after ?_ rfl | refine (State.marginSlice_only ..).after ?_ rfl | refine OnlyNext.next ?_
    | refine OnlyNext.fault _ | refine OnlyNext.ite ?_ ?_ | refine Only.ite ?_ ?_ | (fail_if_no_progress refine Only.upd rfl ?_ rfl)
    | split | dsimp only | intro _)

theorem State.arrive_only (pk : Packet) (s : State) :
    Only { power := true, pols := true, host := true } s (State.arrive pk s) := by
  unfold State.arrive
  repeat' (with_reducible first
    | exact Only.refl _ _ | refine State.modPol_only.after ?_ rfl | refine (State.trafficWake_only ..).after ?_ rfl
    | refine (State.bindMiss_only ..).after ?_ rfl | refine (State.countPol_only ..).after ?_ rfl | refine Only.ite ?_ ?_
    | (fail_if_no_progress refine Only.upd rfl ?_ rfl) | split | dsimp only | intro _)

theorem execPacketArrival_only (pk : Packet) (s : State) :
    OnlyNext { power := true, pols := true, host := true, lineA := true, lineB := true } s (execPacketArrival pk s) := by
  unfold execPacketArrival
  repeat' (with_reducible first
    | exact Only.refl _ _ | refine (State.countPort_only ..).after ?_ rfl | refine (State.arrive_only ..).after ?_ rfl
    | refine OnlyNext.next ?_ | refine OnlyNext.fault _ | refine OnlyNext.ite ?_ ?_ | refine Only.ite ?_ ?_
    | (fail_if_no_progress refine Only.upd rfl ?_ rfl) | split | dsimp only | intro _)

theorem execAssemblyTimeout_only (p : PolId) (s : State) :
    OnlyNext { pols := true } s (execAssemblyTimeout p s) := by
  unfold execAssemblyTimeout
  repeat' (with_reducible first
    | exact Only.refl _ _ | refine State.modPol_only.after ?_ rfl | refine OnlyNext.next ?_ | refine OnlyNext.fault _
    | refine OnlyNext.ite ?_ ?_ | refine Only.ite ?_ ?_ | (fail_if_no_progress refine Only.upd rfl ?_ rfl) | split | dsimp only
    | intro _)

theorem execAnswerHoldExpiry_only (p : PolId) (s : State) :
    OnlyNext { pols := true } s (execAnswerHoldExpiry p s) := by
  unfold execAnswerHoldExpiry
  repeat' (with_reducible first
    | exact Only.refl _ _ | refine (State.dropParts_only ..).after ?_ rfl | refine OnlyNext.next ?_ | refine OnlyNext.fault _
    | refine OnlyNext.ite ?_ ?_ | refine Only.ite ?_ ?_ | (fail_if_no_progress refine Only.upd rfl ?_ rfl) | split | dsimp only
    | intro _)

theorem execOfferGenerate_only (p : PolId) (s : State) :
    OnlyNext { freeCtr := true, ka := true } s (execOfferGenerate p s) := by
  unfold execOfferGenerate
  repeat' (with_reducible first
    | exact Only.refl _ _ | refine (State.drawn_only ..).after ?_ rfl | refine OnlyNext.next ?_ | refine OnlyNext.fault _
    | refine OnlyNext.ite ?_ ?_ | refine Only.ite ?_ ?_ | (fail_if_no_progress refine Only.upd rfl ?_ rfl) | split | dsimp only
    | intro _)

theorem execKeyAgreementTimeout_only (s : State) :
    OnlyNext { clock := true, pols := true, ka := true, arr := true, host := true } s (execKeyAgreementTimeout s) := by
  unfold execKeyAgreementTimeout
  repeat' (with_reducible first
    | exact Only.refl _ _ | refine (State.abandonAgreement_only ..).after ?_ rfl | refine OnlyNext.next ?_ | refine OnlyNext.fault _
    | refine OnlyNext.ite ?_ ?_ | refine Only.ite ?_ ?_ | (fail_if_no_progress refine Only.upd rfl ?_ rfl) | split | dsimp only
    | intro _)

theorem State.leaveField_only (s : State) :
    Only { pols := true, arr := true, life := true, carries := true, lifeCore := true, resets := true } s (State.leaveField s) := by
  unfold State.leaveField
  repeat' (with_reducible first
    | exact Only.refl _ _ | refine State.modPol_only.after ?_ rfl | refine (State.answerHeld_only ..).after ?_ rfl
    | refine (State.requestField_only ..).after ?_ rfl | refine (State.awaitReset_only ..).after ?_ rfl | refine Only.ite ?_ ?_
    | (fail_if_no_progress refine Only.upd rfl ?_ rfl) | split | dsimp only | intro _)

theorem execPolderErase_only (p : PolId) (s : State) :
    OnlyNext { clock := true, pols := true, arr := true, life := true, host := true, dali := true, carries := true, lifeCore := true,
               resets := true } s (execPolderErase p s) := by
  unfold execPolderErase
  repeat' (with_reducible first
    | exact Only.refl _ _ | refine State.modPol_only.after ?_ rfl | refine (State.modTcmp_only ..).after ?_ rfl
    | refine (State.ownerEvent_only ..).after ?_ rfl | refine (State.rebindFrom_only ..).after ?_ rfl
    | refine (State.storePolder_only ..).after ?_ rfl | refine (State.storeSeqs_only ..).after ?_ rfl
    | refine (State.resetDali_only ..).after ?_ rfl | refine (State.leaveField_only ..).after ?_ rfl | refine OnlyNext.next ?_
    | refine OnlyNext.fault _ | refine OnlyNext.ite ?_ ?_ | refine Only.ite ?_ ?_ | (fail_if_no_progress refine Only.upd rfl ?_ rfl)
    | split | dsimp only | intro _)

end Sys2Proof.Machine
end

section
/-! PROOFS. What the events of columns, the throttle, the wheel, power and the array touch. -/

namespace Sys2Proof.Machine

variable {T : Touch} {s t : State}

set_option linter.unusedTactic false
set_option linter.unreachableTactic false
set_option linter.unusedVariables false

theorem State.colFail_only (kind means c row : Nat) (f : W32) (s : State) :
    Only { clock := true, pols := true, arr := true } s (State.colFail kind means c row f s) := by
  unfold State.colFail
  repeat' (with_reducible first
    | exact Only.refl _ _ | refine (State.eventAt_only ..).after ?_ rfl | refine Only.ite ?_ ?_
    | (fail_if_no_progress refine Only.upd rfl ?_ rfl) | split | dsimp only | intro _)

theorem State.declareDefect_only (c cause : Nat) (f : W32) (s : State) :
    Only { clock := true, cols := true, pols := true, arr := true } s (State.declareDefect c cause f s) := by
  unfold State.declareDefect
  repeat' (with_reducible first
    | exact Only.refl _ _ | refine (State.colFail_only ..).after ?_ rfl | refine Only.ite ?_ ?_
    | (fail_if_no_progress refine Only.upd rfl ?_ rfl) | split | dsimp only | intro _)

theorem State.declareReplaced_only (c means row : Nat) (f : W32) (s : State) :
    Only { clock := true, cols := true, pols := true, arr := true } s (State.declareReplaced c means row f s) := by
  unfold State.declareReplaced
  repeat' (with_reducible first
    | exact Only.refl _ _ | refine (State.colFail_only ..).after ?_ rfl | refine Only.ite ?_ ?_
    | (fail_if_no_progress refine Only.upd rfl ?_ rfl) | split | dsimp only | intro _)

theorem State.declareSpare_only (g : Nat) (f : W32) (s : State) :
    Only { clock := true, cols := true, pols := true, arr := true } s (State.declareSpare g f s) := by
  unfold State.declareSpare
  repeat' (with_reducible first
    | exact Only.refl _ _ | refine (State.colFail_only ..).after ?_ rfl | refine Only.ite ?_ ?_
    | (fail_if_no_progress refine Only.upd rfl ?_ rfl) | split | dsimp only | intro _)

theorem State.declareColumns_only (f : W32) (l : List Nat) (s : State) :
    Only { clock := true, cols := true, pols := true, arr := true } s (State.declareColumns f l s) := by
  induction l generalizing s with
  | nil => exact Only.refl _ _
  | cons c l ih =>
    unfold State.declareColumns
    split
    · exact (ih _).after ((State.declareReplaced_only ..).after (Only.refl _ _) rfl) rfl
    · exact (ih _).after ((State.declareDefect_only ..).after (Only.refl _ _) rfl) rfl


theorem State.checkGroup_only (depth10 : Bool) (conv : List CheckConv) (f : W32) (s : State) (g : Nat) :
    Only { clock := true, cols := true, pols := true, arr := true } s (State.checkGroup depth10 conv f s g) := by
  unfold State.checkGroup
  repeat' (with_reducible first
    | exact Only.refl _ _ | refine (State.declareDefect_only ..).after ?_ rfl | refine (State.declareSpare_only ..).after ?_ rfl
    | refine (State.declareColumns_only ..).after ?_ rfl | refine Only.ite ?_ ?_ | (fail_if_no_progress refine Only.upd rfl ?_ rfl)
    | split | dsimp only | intro _)

theorem State.storeColumns_only (before : ColStateItem) (s : State) :
    Only { arr := true } s (State.storeColumns before s) := by
  unfold State.storeColumns
  repeat' (with_reducible first
    | exact Only.refl _ _ | refine (State.requestItem_only ..).after ?_ rfl | refine Only.ite ?_ ?_
    | (fail_if_no_progress refine Only.upd rfl ?_ rfl) | split | dsimp only | intro _)

theorem State.calReject_only (kind reason n : Nat) (f : W32) (s : State) :
    Only { clock := true, pols := true, arr := true } s (State.calReject kind reason n f s) := by
  unfold State.calReject
  repeat' (with_reducible first
    | exact Only.refl _ _ | refine (State.ownerEvent_only ..).after ?_ rfl | refine Only.ite ?_ ?_
    | (fail_if_no_progress refine Only.upd rfl ?_ rfl) | split | dsimp only | intro _)

theorem State.writeTrims_only (s : State) :
    Only { cols := true, arr := true } s (State.writeTrims s) := by
  unfold State.writeTrims
  repeat' (with_reducible first
    | exact Only.refl _ _ | refine (State.requestItem_only ..).after ?_ rfl | refine Only.ite ?_ ?_
    | (fail_if_no_progress refine Only.upd rfl ?_ rfl) | split | dsimp only | intro _)

theorem State.applyColumns_only (s : State) :
    Only { cols := true } s (State.applyColumns s) := by
  unfold State.applyColumns
  repeat' (with_reducible first
    | exact Only.refl _ _ | refine Only.ite ?_ ?_ | (fail_if_no_progress refine Only.upd rfl ?_ rfl) | split | dsimp only | intro _)

theorem State.decideStep_only (s : State) :
    Only { clock := true, pols := true, arr := true, therm := true, thermCore := true } s (State.decideStep s) := by
  unfold State.decideStep
  repeat' (with_reducible first
    | exact Only.refl _ _ | refine (State.ownerEvent_only ..).after ?_ rfl | refine Only.ite ?_ ?_
    | (fail_if_no_progress refine Only.upd rfl ?_ rfl) | split | dsimp only | intro _)

theorem State.insertPauses_only (n : Nat) (s : State) :
    Only { wheel := true, pols := true, wheelCore := true } s (State.insertPauses n s) := by
  unfold State.insertPauses
  repeat' (with_reducible first
    | exact Only.refl _ _ | refine State.mapPols_only.after ?_ rfl | refine Only.ite ?_ ?_
    | (fail_if_no_progress refine Only.upd rfl ?_ rfl) | split | dsimp only | intro _)

theorem State.decideBoundary_only (s : State) :
    Only { clock := true, wheel := true, pols := true, arr := true, therm := true, wheelCore := true, thermCore := true }
      s (State.decideBoundary s) := by
  unfold State.decideBoundary
  repeat' (with_reducible first
    | exact Only.refl _ _ | refine (State.decideStep_only ..).after ?_ rfl | refine (State.insertPauses_only ..).after ?_ rfl
    | refine Only.ite ?_ ?_ | (fail_if_no_progress refine Only.upd rfl ?_ rfl) | split | dsimp only | intro _)

theorem State.decideAgain_only (s : State) :
    Only { clock := true, wheel := true, pols := true, arr := true, therm := true, wheelCore := true, thermCore := true }
      s (State.decideAgain s) := by
  unfold State.decideAgain
  repeat' (with_reducible first
    | exact Only.refl _ _ | refine (State.decideStep_only ..).after ?_ rfl | refine (State.insertPauses_only ..).after ?_ rfl
    | refine Only.ite ?_ ?_ | (fail_if_no_progress refine Only.upd rfl ?_ rfl) | split | dsimp only | intro _)

theorem State.syncLostEvents_only (src : LockSrc) (s : State) :
    Only { clock := true, pols := true, arr := true } s (State.syncLostEvents src s) := by
  unfold State.syncLostEvents
  repeat' (with_reducible first
    | exact Only.refl _ _ | refine (State.event_only ..).after ?_ rfl | refine Only.foldl _ _ ?_ (fun _ _ => ?_) | refine Only.ite ?_ ?_
    | (fail_if_no_progress refine Only.upd rfl ?_ rfl) | split | dsimp only | intro _)

theorem State.syncOkEvents_only (src : LockSrc) (old new : Nat × Nat) (s : State) :
    Only { clock := true, pols := true, arr := true } s (State.syncOkEvents src old new s) := by
  unfold State.syncOkEvents
  repeat' (with_reducible first
    | exact Only.refl _ _ | refine (State.event_only ..).after ?_ rfl | refine Only.foldl _ _ ?_ (fun _ _ => ?_) | refine Only.ite ?_ ?_
    | (fail_if_no_progress refine Only.upd rfl ?_ rfl) | split | dsimp only | intro _)

theorem State.passDissolutions_only (s : State) :
    Only { pols := true } s (State.passDissolutions s) := by
  unfold State.passDissolutions
  repeat' (with_reducible first
    | exact Only.refl _ _ | refine State.mapPols_only.after ?_ rfl | refine Only.ite ?_ ?_
    | (fail_if_no_progress refine Only.upd rfl ?_ rfl) | split | dsimp only | intro _)

theorem State.stopWheel_only (s : State) :
    Only { clock := true, wheel := true, cols := true, pols := true, arr := true, therm := true, wheelCore := true, thermCore := true
           } s (State.stopWheel s) := by
  unfold State.stopWheel
  repeat' (with_reducible first
    | exact Only.refl _ _ | refine State.mapPols_only.after ?_ rfl | refine (State.eventAll_only ..).after ?_ rfl
    | refine (State.writeTrims_only ..).after ?_ rfl | refine (State.decideStep_only ..).after ?_ rfl
    | refine (State.passDissolutions_only ..).after ?_ rfl | refine Only.ite ?_ ?_ | (fail_if_no_progress refine Only.upd rfl ?_ rfl)
    | split | dsimp only | intro _)

theorem State.startWheel_only (s : State) :
    Only { clock := true, wheel := true, cols := true, pols := true, arr := true, wheelCore := true } s (State.startWheel s) := by
  unfold State.startWheel
  repeat' (with_reducible first
    | exact Only.refl _ _ | refine State.mapPols_only.after ?_ rfl | refine (State.eventAll_only ..).after ?_ rfl | refine Only.ite ?_ ?_
    | (fail_if_no_progress refine Only.upd rfl ?_ rfl) | split | dsimp only | intro _)

theorem State.markBlocks_only (s : State) :
    Only { bist := true } s (State.markBlocks s) := by
  unfold State.markBlocks
  repeat' (with_reducible first
    | exact Only.refl _ _ | refine Only.foldl _ _ ?_ (fun _ _ => ?_) | refine Only.ite ?_ ?_
    | (fail_if_no_progress refine Only.upd rfl ?_ rfl) | split | dsimp only | intro _)

theorem State.endRevolution_only (s : State) :
    Only { clock := true, wheel := true, cols := true, pols := true, arr := true, bist := true, therm := true, wheelCore := true,
           thermCore := true } s (State.endRevolution s) := by
  unfold State.endRevolution
  repeat' (with_reducible first
    | exact Only.refl _ _ | refine (State.decideBoundary_only ..).after ?_ rfl | refine (State.stopWheel_only ..).after ?_ rfl
    | refine (State.markBlocks_only ..).after ?_ rfl | refine Only.ite ?_ ?_ | (fail_if_no_progress refine Only.upd rfl ?_ rfl) | split
    | dsimp only | intro _)

theorem State.adoptPeriod_only (s : State) :
    Only { clock := true, wheel := true, pols := true, arr := true, wheelCore := true } s (State.adoptPeriod s) := by
  unfold State.adoptPeriod
  repeat' (with_reducible first
    | exact Only.refl _ _ | refine (State.requestItem_only ..).after ?_ rfl | refine (State.ownerEvent_only ..).after ?_ rfl
    | refine Only.ite ?_ ?_ | (fail_if_no_progress refine Only.upd rfl ?_ rfl) | split | dsimp only | intro _)

theorem State.keepMachines_only (s : State) :
    Only { wheel := true, wheelCore := true } s (State.keepMachines s) := by
  unfold State.keepMachines
  repeat' (with_reducible first
    | exact Only.refl _ _ | refine Only.ite ?_ ?_ | (fail_if_no_progress refine Only.upd rfl ?_ rfl) | split | dsimp only | intro _)

theorem State.beginRevolution_only (s : State) :
    Only { clock := true, wheel := true, cols := true, pols := true, arr := true, wheelCore := true } s (State.beginRevolution s) := by
  unfold State.beginRevolution
  repeat' (with_reducible first
    | exact Only.refl _ _ | refine State.mapPols_only.after ?_ rfl | refine (State.writeTrims_only ..).after ?_ rfl
    | refine (State.passDissolutions_only ..).after ?_ rfl | refine (State.adoptPeriod_only ..).after ?_ rfl
    | refine (State.keepMachines_only ..).after ?_ rfl | refine Only.ite ?_ ?_ | (fail_if_no_progress refine Only.upd rfl ?_ rfl)
    | split | dsimp only | intro _)

theorem State.announceCover_only (f : W32) (s : State) :
    Only { clock := true, wheel := true, pols := true, arr := true, wheelCore := true } s (State.announceCover f s) := by
  unfold State.announceCover
  repeat' (with_reducible first
    | exact Only.refl _ _ | refine (State.event_only ..).after ?_ rfl | refine Only.foldl _ _ ?_ (fun _ _ => ?_) | refine Only.ite ?_ ?_
    | (fail_if_no_progress refine Only.upd rfl ?_ rfl) | split | dsimp only | intro _)

theorem State.pixBoundary_only (ownerSlot : Bool) (s : State) :
    Only { lands := true } s (State.pixBoundary ownerSlot s) := by
  unfold State.pixBoundary
  repeat' (with_reducible first
    | exact Only.refl _ _ | refine Only.ite ?_ ?_ | (fail_if_no_progress refine Only.upd rfl ?_ rfl) | split | dsimp only | intro _)

theorem State.openSlot_only (p : PolId) (f : W32) (cal : Option CalParts) (s : State) :
    Only { clock := true, wheel := true, cols := true, pols := true, wheelCore := true } s (State.openSlot p f cal s) := by
  unfold State.openSlot
  repeat' (with_reducible first
    | exact Only.refl _ _ | refine State.modPol_only.after ?_ rfl | refine Only.ite ?_ ?_ | (fail_if_no_progress refine Only.upd rfl ?_ rfl)
    | split | dsimp only | intro _)

theorem State.passRestart_only (f : W32) (s : State) :
    Only { cols := true } s (State.passRestart f s) := by
  unfold State.passRestart
  repeat' (with_reducible first
    | exact Only.refl _ _ | refine Only.ite ?_ ?_ | (fail_if_no_progress refine Only.upd rfl ?_ rfl) | split | dsimp only | intro _)

theorem State.turnSlot_only (f : W32) (s : State) :
    Only { clock := true, wheel := true, lands := true, cols := true, pols := true, wheelCore := true } s (State.turnSlot f s) := by
  unfold State.turnSlot
  repeat' (with_reducible first
    | exact Only.refl _ _ | refine State.modPol_only.after ?_ rfl | refine (State.pixBoundary_only ..).after ?_ rfl
    | refine (State.openSlot_only ..).after ?_ rfl | refine Only.ite ?_ ?_ | (fail_if_no_progress refine Only.upd rfl ?_ rfl) | split
    | dsimp only | intro _)

theorem State.startSlot_only (s : State) :
    Only { clock := true, wheel := true, lands := true, cols := true, pols := true, arr := true, wheelCore := true } s (State.startSlot s) := by
  unfold State.startSlot
  repeat' (with_reducible first
    | exact Only.refl _ _ | refine (State.reserveFrames_only ..).after ?_ rfl | refine (State.applyColumns_only ..).after ?_ rfl
    | refine (State.beginRevolution_only ..).after ?_ rfl | refine (State.announceCover_only ..).after ?_ rfl
    | refine (State.pixBoundary_only ..).after ?_ rfl | refine (State.passRestart_only ..).after ?_ rfl
    | refine (State.turnSlot_only ..).after ?_ rfl | refine Only.ite ?_ ?_ | (fail_if_no_progress refine Only.upd rfl ?_ rfl) | split
    | dsimp only | intro _)

theorem execWheelSlotStart_only (s : State) :
    OnlyNext { clock := true, wheel := true, lands := true, cols := true, pols := true, arr := true, wheelCore := true }
      s (execWheelSlotStart s) := by
  unfold execWheelSlotStart
  repeat' (with_reducible first
    | exact Only.refl _ _ | refine (State.startSlot_only ..).after ?_ rfl | refine OnlyNext.next ?_ | refine OnlyNext.fault _
    | refine OnlyNext.ite ?_ ?_ | refine Only.ite ?_ ?_ | (fail_if_no_progress refine Only.upd rfl ?_ rfl) | split | dsimp only
    | intro _)

theorem execExposureStart_only (s : State) :
    OnlyNext { wheel := true, lands := true } s (execExposureStart s) := by
  unfold execExposureStart
  repeat' (with_reducible first
    | exact Only.refl _ _ | refine OnlyNext.next ?_ | refine OnlyNext.fault _ | refine OnlyNext.ite ?_ ?_ | refine Only.ite ?_ ?_
    | (fail_if_no_progress refine Only.upd rfl ?_ rfl) | split | dsimp only | intro _)

theorem execTriggerDeadline_only (s : State) :
    OnlyNext { wheel := true } s (execTriggerDeadline s) := by
  unfold execTriggerDeadline
  repeat' (with_reducible first
    | exact Only.refl _ _ | refine OnlyNext.next ?_ | refine OnlyNext.fault _ | refine OnlyNext.ite ?_ ?_ | refine Only.ite ?_ ?_
    | (fail_if_no_progress refine Only.upd rfl ?_ rfl) | split | dsimp only | intro _)

theorem State.showPixels_only (x : Slot) (s : State) :
    Only { freeCtr := true, lands := true } s (State.showPixels x s) := by
  unfold State.showPixels
  repeat' (with_reducible first
    | exact Only.refl _ _ | refine Only.ite ?_ ?_ | (fail_if_no_progress refine Only.upd rfl ?_ rfl) | split | dsimp only | intro _)

theorem execSlotEnd_only (s : State) :
    OnlyNext { freeCtr := true, clock := true, wheel := true, lands := true, cols := true, pols := true, arr := true, bist := true,
               therm := true, wheelCore := true, thermCore := true } s (execSlotEnd s) := by
  unfold execSlotEnd
  repeat' (with_reducible first
    | exact Only.refl _ _ | refine (State.issueAll_only ..).after ?_ rfl | refine (State.endRevolution_only ..).after ?_ rfl
    | refine (State.showPixels_only ..).after ?_ rfl | refine OnlyNext.next ?_ | refine OnlyNext.fault _ | refine OnlyNext.ite ?_ ?_
    | refine Only.ite ?_ ?_ | (fail_if_no_progress refine Only.upd rfl ?_ rfl) | split | dsimp only | intro _)

theorem State.countEdge_only (p : PolId) (s : State) :
    Only { pols := true } s (State.countEdge p s) := by
  unfold State.countEdge
  repeat' (with_reducible first
    | exact Only.refl _ _ | refine State.modPol_only.after ?_ rfl | refine Only.ite ?_ ?_ | (fail_if_no_progress refine Only.upd rfl ?_ rfl)
    | split | dsimp only | intro _)

theorem execTrigInEdge_only (s : State) :
    OnlyNext { power := true, wheel := true, lands := true, pols := true } s (execTrigInEdge s) := by
  unfold execTrigInEdge
  repeat' (with_reducible first
    | exact Only.refl _ _ | refine (State.latchWake_only ..).after ?_ rfl | refine (State.wakeTrigger_only ..).after ?_ rfl
    | refine (State.countEdge_only ..).after ?_ rfl | refine OnlyNext.next ?_ | refine OnlyNext.fault _ | refine OnlyNext.ite ?_ ?_
    | refine Only.ite ?_ ?_ | (fail_if_no_progress refine Only.upd rfl ?_ rfl) | split | dsimp only | intro _)

theorem execTrigRefractoryEnd_only (s : State) :
    OnlyNext { lands := true } s (execTrigRefractoryEnd s) := by
  unfold execTrigRefractoryEnd
  repeat' (with_reducible first
    | exact Only.refl _ _ | refine OnlyNext.next ?_ | refine OnlyNext.fault _ | refine OnlyNext.ite ?_ ?_ | refine Only.ite ?_ ?_
    | (fail_if_no_progress refine Only.upd rfl ?_ rfl) | split | dsimp only | intro _)

theorem State.loseSync_only (s : State) :
    Only { clock := true, lands := true, pols := true, arr := true } s (State.loseSync s) := by
  unfold State.loseSync
  repeat' (with_reducible first
    | exact Only.refl _ _ | refine (State.syncLostEvents_only ..).after ?_ rfl | refine Only.ite ?_ ?_
    | (fail_if_no_progress refine Only.upd rfl ?_ rfl) | split | dsimp only | intro _)

theorem State.badPeriod_only (s : State) :
    Only { clock := true, lands := true, pols := true, arr := true } s (State.badPeriod s) := by
  unfold State.badPeriod
  repeat' (with_reducible first
    | exact Only.refl _ _ | refine (State.loseSync_only ..).after ?_ rfl | refine Only.ite ?_ ?_
    | (fail_if_no_progress refine Only.upd rfl ?_ rfl) | split | dsimp only | intro _)

theorem State.syncPeriod_only (p : Nat) (s : State) :
    Only { clock := true, lands := true, pols := true, arr := true } s (State.syncPeriod p s) := by
  unfold State.syncPeriod
  repeat' (with_reducible first
    | exact Only.refl _ _ | refine (State.badPeriod_only ..).after ?_ rfl | refine Only.ite ?_ ?_
    | (fail_if_no_progress refine Only.upd rfl ?_ rfl) | split | dsimp only | intro _)

theorem State.lostPeriod_only (p : Nat) (s : State) :
    Only { clock := true, lands := true, pols := true, arr := true } s (State.lostPeriod p s) := by
  unfold State.lostPeriod
  repeat' (with_reducible first
    | exact Only.refl _ _ | refine (State.syncOkEvents_only ..).after ?_ rfl | refine Only.ite ?_ ?_
    | (fail_if_no_progress refine Only.upd rfl ?_ rfl) | split | dsimp only | intro _)

theorem execSyncInEdge_only (s : State) :
    OnlyNext { clock := true, lands := true, pols := true, arr := true } s (execSyncInEdge s) := by
  unfold execSyncInEdge
  repeat' (with_reducible first
    | exact Only.refl _ _ | refine (State.syncPeriod_only ..).after ?_ rfl | refine (State.lostPeriod_only ..).after ?_ rfl
    | refine OnlyNext.next ?_ | refine OnlyNext.fault _ | refine OnlyNext.ite ?_ ?_ | refine Only.ite ?_ ?_
    | (fail_if_no_progress refine Only.upd rfl ?_ rfl) | split | dsimp only | intro _)

theorem execSyncPeriodMissing_only (s : State) :
    OnlyNext { clock := true, lands := true, pols := true, arr := true } s (execSyncPeriodMissing s) := by
  unfold execSyncPeriodMissing
  repeat' (with_reducible first
    | exact Only.refl _ _ | refine (State.badPeriod_only ..).after ?_ rfl | refine OnlyNext.next ?_ | refine OnlyNext.fault _
    | refine OnlyNext.ite ?_ ?_ | refine Only.ite ?_ ?_ | (fail_if_no_progress refine Only.upd rfl ?_ rfl) | split | dsimp only
    | intro _)

theorem execCommissionNRise_only (s : State) :
    OnlyNext { lands := true } s (execCommissionNRise s) := by
  unfold execCommissionNRise
  repeat' (with_reducible first
    | exact Only.refl _ _ | refine OnlyNext.next ?_ | refine OnlyNext.fault _ | refine OnlyNext.ite ?_ ?_ | refine Only.ite ?_ ?_
    | (fail_if_no_progress refine Only.upd rfl ?_ rfl) | split | dsimp only | intro _)

theorem State.lowerDomain_only (n : Nat) (d : DomState) (s : State) :
    Only { power := true, holdup := true, wheel := true, lands := true, pols := true, ka := true, arr := true, host := true,
           dali := true, lineA := true, lineB := true, jtag := true, doms := true } s (State.lowerDomain n d s) := by
  unfold State.lowerDomain
  repeat' (with_reducible first
    | exact Only.refl _ _ | refine State.mapPols_only.after ?_ rfl | refine (State.modPort_only ..).after ?_ rfl
    | refine (State.silencePix_only ..).after ?_ rfl | refine Only.ite ?_ ?_ | (fail_if_no_progress refine Only.upd rfl ?_ rfl) | split
    | dsimp only | intro _)

theorem State.domainReady_only (s : State) (n : Nat) :
    Only { power := true, holdup := true, cols := true, host := true, jtag := true, doms := true } s (State.domainReady s n) := by
  unfold State.domainReady
  repeat' (with_reducible first
    | exact Only.refl _ _ | refine Only.ite ?_ ?_ | (fail_if_no_progress refine Only.upd rfl ?_ rfl) | split | dsimp only | intro _)

theorem State.logRefusal_only (n reason step esn : Nat) (s : State) :
    Only { power := true } s (State.logRefusal n reason step esn s) := by
  unfold State.logRefusal
  repeat' (with_reducible first
    | exact Only.refl _ _ | refine Only.ite ?_ ?_ | (fail_if_no_progress refine Only.upd rfl ?_ rfl) | split | dsimp only | intro _)

theorem State.releasePower_only (s : State) :
    Only { pols := true } s (State.releasePower s) := by
  unfold State.releasePower
  repeat' (with_reducible first
    | exact Only.refl _ _ | refine State.modPol_only.after ?_ rfl | refine Only.ite ?_ ?_ | (fail_if_no_progress refine Only.upd rfl ?_ rfl)
    | split | dsimp only | intro _)

theorem State.finishReturn_only (doms : BitVec 12) (cause : RetCause) (s : State) :
    Only { clock := true, power := true, holdup := true, wheel := true, cols := true, pols := true, arr := true, host := true,
           jtag := true, doms := true, wheelCore := true } s (State.finishReturn doms cause s) := by
  unfold State.finishReturn
  repeat' (with_reducible first
    | exact Only.refl _ _ | refine (State.ownerEvent_only ..).after ?_ rfl | refine (State.replayTriggers_only ..).after ?_ rfl
    | refine (State.beginEntry_only ..).after ?_ rfl | refine (State.startWheel_only ..).after ?_ rfl
    | refine (State.domainReady_only ..).after ?_ rfl | refine (State.releasePower_only ..).after ?_ rfl
    | refine Only.foldl _ _ ?_ (fun _ _ => ?_) | refine Only.ite ?_ ?_ | (fail_if_no_progress refine Only.upd rfl ?_ rfl) | split
    | dsimp only | intro _)

theorem State.startReturn_only (doms : BitVec 12) (cause : RetCause) (s : State) :
    Only { clock := true, power := true, holdup := true, wheel := true, cols := true, pols := true, arr := true, host := true,
           jtag := true, doms := true, wheelCore := true } s (State.startReturn doms cause s) := by
  unfold State.startReturn
  repeat' (with_reducible first
    | exact Only.refl _ _ | refine (State.finishReturn_only ..).after ?_ rfl | refine Only.ite ?_ ?_
    | (fail_if_no_progress refine Only.upd rfl ?_ rfl) | split | dsimp only | intro _)

theorem execReturnStepReady_only (s : State) :
    OnlyNext { clock := true, power := true, holdup := true, wheel := true, cols := true, pols := true, arr := true, host := true,
               jtag := true, doms := true, wheelCore := true } s (execReturnStepReady s) := by
  unfold execReturnStepReady
  repeat' (with_reducible first
    | exact Only.refl _ _ | refine (State.finishReturn_only ..).after ?_ rfl | refine OnlyNext.next ?_ | refine OnlyNext.fault _
    | refine OnlyNext.ite ?_ ?_ | refine Only.ite ?_ ?_ | (fail_if_no_progress refine Only.upd rfl ?_ rfl) | split | dsimp only
    | intro _)

theorem State.abandonEntry_only (e : Entry) (step : Nat) (refusal : Option (Nat × Nat)) (s : State) :
    Only { clock := true, power := true, holdup := true, wheel := true, cols := true, pols := true, arr := true, host := true,
           jtag := true, doms := true, wheelCore := true } s (State.abandonEntry e step refusal s) := by
  unfold State.abandonEntry
  repeat' (with_reducible first
    | exact Only.refl _ _ | refine (State.readyHeld_only ..).after ?_ rfl | refine (State.logRefusal_only ..).after ?_ rfl
    | refine (State.startReturn_only ..).after ?_ rfl | refine Only.ite ?_ ?_ | (fail_if_no_progress refine Only.upd rfl ?_ rfl) | split
    | dsimp only | intro _)

theorem State.finishEntry_only (s : State) :
    Only { power := true, pols := true, carries := true } s (State.finishEntry s) := by
  unfold State.finishEntry
  repeat' (with_reducible first
    | exact Only.refl _ _ | refine (State.dropCarry_only ..).after ?_ rfl | refine (State.releasePower_only ..).after ?_ rfl
    | refine Only.ite ?_ ?_ | (fail_if_no_progress refine Only.upd rfl ?_ rfl) | split | dsimp only | intro _)

theorem State.lowerStep_only (e : Entry) (k : Nat) (s : State) :
    Only { clock := true, power := true, holdup := true, wheel := true, lands := true, pols := true, ka := true, arr := true,
           host := true, dali := true, lineA := true, lineB := true, jtag := true, carries := true, doms := true } s (State.lowerStep e k s) := by
  unfold State.lowerStep
  repeat' (with_reducible first
    | exact Only.refl _ _ | refine (State.lowerDomain_only ..).after ?_ rfl | refine (State.finishEntry_only ..).after ?_ rfl
    | refine Only.ite ?_ ?_ | (fail_if_no_progress refine Only.upd rfl ?_ rfl) | split | dsimp only | intro _)

theorem State.finalPoint_only (e : Entry) (s : State) :
    Only { clock := true, power := true, holdup := true, wheel := true, cols := true, pols := true, arr := true, host := true,
           jtag := true, carries := true, doms := true, wheelCore := true, resets := true } s (State.finalPoint e s) := by
  unfold State.finalPoint
  repeat' (with_reducible first
    | exact Only.refl _ _ | refine (State.readyHeld_only ..).after ?_ rfl | refine (State.abandonEntry_only ..).after ?_ rfl
    | refine (State.finishEntry_only ..).after ?_ rfl | refine Only.ite ?_ ?_ | (fail_if_no_progress refine Only.upd rfl ?_ rfl) | split
    | dsimp only | intro _)

theorem State.abortPoint_only (e : Entry) (s : State) :
    Only { clock := true, power := true, holdup := true, wheel := true, lands := true, cols := true, pols := true, ka := true,
           arr := true, host := true, dali := true, lineA := true, lineB := true, jtag := true, carries := true, doms := true,
           wheelCore := true, resets := true } s (State.abortPoint e s) := by
  unfold State.abortPoint
  repeat' (with_reducible first
    | exact Only.refl _ _ | refine (State.abandonEntry_only ..).after ?_ rfl | refine (State.lowerStep_only ..).after ?_ rfl
    | refine (State.finalPoint_only ..).after ?_ rfl | refine Only.ite ?_ ?_ | (fail_if_no_progress refine Only.upd rfl ?_ rfl) | split
    | dsimp only | intro _)

theorem State.boundaryPoint_only (e : Entry) (s : State) :
    Only { clock := true, power := true, holdup := true, wheel := true, lands := true, cols := true, pols := true, ka := true,
           arr := true, therm := true, host := true, dali := true, lineA := true, lineB := true, jtag := true, carries := true,
           doms := true, wheelCore := true, thermCore := true, resets := true } s (State.boundaryPoint e s) := by
  unfold State.boundaryPoint
  repeat' (with_reducible first
    | exact Only.refl _ _ | refine (State.decideBoundary_only ..).after ?_ rfl | refine (State.stopWheel_only ..).after ?_ rfl
    | refine (State.abandonEntry_only ..).after ?_ rfl | refine (State.abortPoint_only ..).after ?_ rfl | refine Only.ite ?_ ?_
    | (fail_if_no_progress refine Only.upd rfl ?_ rfl) | split | dsimp only | intro _)

theorem State.lateStep_only (e : Entry) (s : State) :
    Only { clock := true, power := true, holdup := true, wheel := true, lands := true, pols := true, ka := true, arr := true,
           host := true, dali := true, lineA := true, lineB := true, jtag := true, carries := true, doms := true } s (State.lateStep e s) := by
  unfold State.lateStep
  repeat' (with_reducible first
    | exact Only.refl _ _ | refine (State.finishEntry_only ..).after ?_ rfl | refine (State.lowerStep_only ..).after ?_ rfl
    | refine Only.ite ?_ ?_ | (fail_if_no_progress refine Only.upd rfl ?_ rfl) | split | dsimp only | intro _)

theorem execPowerEntryStep_only (s : State) :
    OnlyNext { clock := true, power := true, holdup := true, wheel := true, lands := true, cols := true, pols := true, ka := true,
               arr := true, therm := true, host := true, dali := true, lineA := true, lineB := true, jtag := true, carries := true,
               doms := true, wheelCore := true, thermCore := true, resets := true } s (execPowerEntryStep s) := by
  unfold execPowerEntryStep
  repeat' (with_reducible first
    | exact Only.refl _ _ | refine (State.abortPoint_only ..).after ?_ rfl | refine (State.boundaryPoint_only ..).after ?_ rfl
    | refine (State.lateStep_only ..).after ?_ rfl | refine OnlyNext.next ?_ | refine OnlyNext.fault _ | refine OnlyNext.ite ?_ ?_
    | refine Only.ite ?_ ?_ | (fail_if_no_progress refine Only.upd rfl ?_ rfl) | split | dsimp only | intro _)

theorem execReplyCarriedTimeout_only (s : State) (hs : s.waitsCarry .sysReset = false) :
    OnlyNext { carries := true } s (execReplyCarriedTimeout s) := by
  refine OnlyNext.next (Only.ite (Only.refl _ _) (Only.resetDue (Only.carriesKept fun c hc => ?_) rfl hs))
  obtain ⟨d, hd, rfl⟩ := List.mem_map.mp hc
  refine ⟨d, hd, ?_⟩
  unfold State.hostCarried
  split <;> rfl


theorem execOpPointVoltageReady_only (domain : Fin 4) (s : State) :
    OnlyNext { power := true, pols := true, doms := true } s (execOpPointVoltageReady domain s) := by
  unfold execOpPointVoltageReady
  repeat' (with_reducible first
    | exact Only.refl _ _ | refine (State.readyHeld_only ..).after ?_ rfl | refine OnlyNext.next ?_ | refine OnlyNext.fault _
    | refine OnlyNext.ite ?_ ?_ | refine Only.ite ?_ ?_ | (fail_if_no_progress refine Only.upd rfl ?_ rfl) | split | dsimp only
    | intro _)

theorem execWakeEvent_only (s : State) :
    OnlyNext { clock := true, power := true, holdup := true, wheel := true, cols := true, pols := true, arr := true, host := true,
               jtag := true, doms := true, wheelCore := true } s (execWakeEvent s) := by
  unfold execWakeEvent
  repeat' (with_reducible first
    | exact Only.refl _ _ | refine (State.startReturn_only ..).after ?_ rfl | refine OnlyNext.next ?_ | refine OnlyNext.fault _
    | refine OnlyNext.ite ?_ ?_ | refine Only.ite ?_ ?_ | (fail_if_no_progress refine Only.upd rfl ?_ rfl) | split | dsimp only
    | intro _)

theorem execWakeMatch_only (port : Port) (target : WakeTarget) (s : State) :
    OnlyNext { power := true, lineA := true, lineB := true } s (execWakeMatch port target s) := by
  unfold execWakeMatch
  repeat' (with_reducible first
    | exact Only.refl _ _ | refine (State.countPort_only ..).after ?_ rfl | refine (State.latchWake_only ..).after ?_ rfl
    | refine OnlyNext.next ?_ | refine OnlyNext.fault _ | refine OnlyNext.ite ?_ ?_ | refine Only.ite ?_ ?_
    | (fail_if_no_progress refine Only.upd rfl ?_ rfl) | split | dsimp only | intro _)

theorem execI2cAddrMatch_only (addr : BitVec 7) (s : State) :
    OnlyNext { power := true } s (execI2cAddrMatch addr s) := by
  unfold execI2cAddrMatch
  repeat' (with_reducible first
    | exact Only.refl _ _ | refine (State.latchWake_only ..).after ?_ rfl | refine OnlyNext.next ?_ | refine OnlyNext.fault _
    | refine OnlyNext.ite ?_ ?_ | refine Only.ite ?_ ?_ | (fail_if_no_progress refine Only.upd rfl ?_ rfl) | split | dsimp only
    | intro _)

theorem execWakeNFall_only (s : State) :
    OnlyNext { power := true } s (execWakeNFall s) := by
  unfold execWakeNFall
  repeat' (with_reducible first
    | exact Only.refl _ _ | refine (State.latchWake_only ..).after ?_ rfl | refine OnlyNext.next ?_ | refine OnlyNext.fault _
    | refine OnlyNext.ite ?_ ?_ | refine Only.ite ?_ ?_ | (fail_if_no_progress refine Only.upd rfl ?_ rfl) | split | dsimp only
    | intro _)

theorem execItemWriteStart_only (p : PolId) (s : State) :
    OnlyNext { arr := true } s (execItemWriteStart p s) := by
  unfold execItemWriteStart
  repeat' (with_reducible first
    | exact Only.refl _ _ | refine (State.addJob_only ..).after ?_ rfl | refine OnlyNext.next ?_ | refine OnlyNext.fault _
    | refine OnlyNext.ite ?_ ?_ | refine Only.ite ?_ ?_ | (fail_if_no_progress refine Only.upd rfl ?_ rfl) | split | dsimp only
    | intro _)

theorem State.answerPage_only (a : Answer) (s : State) :
    Only { pols := true } s (State.answerPage a s) := by
  unfold State.answerPage
  repeat' (with_reducible first
    | exact Only.refl _ _ | refine (State.answerHeld_only ..).after ?_ rfl | refine Only.ite ?_ ?_
    | (fail_if_no_progress refine Only.upd rfl ?_ rfl) | split | dsimp only | intro _)

theorem execArrayLeaseExpired_only (handle : W16) (s : State) :
    OnlyNext { clock := true, pols := true, arr := true } s (execArrayLeaseExpired handle s) := by
  unfold execArrayLeaseExpired
  repeat' (with_reducible first
    | exact Only.refl _ _ | refine (State.ownerEvent_only ..).after ?_ rfl | refine (State.answerPage_only ..).after ?_ rfl
    | refine OnlyNext.next ?_ | refine OnlyNext.fault _ | refine OnlyNext.ite ?_ ?_ | refine Only.ite ?_ ?_
    | (fail_if_no_progress refine Only.upd rfl ?_ rfl) | split | dsimp only | intro _)

theorem execLogPageTimer_only (s : State) :
    OnlyNext { arr := true } s (execLogPageTimer s) := by
  unfold execLogPageTimer
  repeat' (with_reducible first
    | exact Only.refl _ _ | refine (State.addJob_only ..).after ?_ rfl | refine OnlyNext.next ?_ | refine OnlyNext.fault _
    | refine OnlyNext.ite ?_ ?_ | refine Only.ite ?_ ?_ | (fail_if_no_progress refine Only.upd rfl ?_ rfl) | split | dsimp only
    | intro _)

end Sys2Proof.Machine
end

section
/-! PROOFS. What the events of calibration, DALI, the host, the line, faults, the holdup and the lifecycle touch. -/

namespace Sys2Proof.Machine

variable {T : Touch} {s t : State}

set_option linter.unusedTactic false
set_option linter.unreachableTactic false
set_option linter.unusedVariables false

theorem State.settleVerdict_only (n : Nat) (f : W32) (v : Verdict) (s : State) :
    Only { clock := true, cols := true, pols := true, arr := true } s (State.settleVerdict n f v s) := by
  unfold State.settleVerdict
  repeat' (with_reducible first
    | exact Only.refl _ _ | refine (State.calReject_only ..).after ?_ rfl | refine Only.ite ?_ ?_
    | (fail_if_no_progress refine Only.upd rfl ?_ rfl) | split | dsimp only | intro _)

theorem State.measureStandIns_only (x : Slot) (scale : Frac) (refA refB : BankRef) (trim : List (Nat × TrimMeas)) (s : State) :
    Only { clock := true, cols := true, pols := true, arr := true } s (State.measureStandIns x scale refA refB trim s) := by
  unfold State.measureStandIns
  repeat' (with_reducible first
    | exact Only.refl _ _ | refine (State.settleVerdict_only ..).after ?_ rfl | refine Only.foldl _ _ ?_ (fun _ _ => ?_)
    | refine Only.ite ?_ ?_ | (fail_if_no_progress refine Only.upd rfl ?_ rfl) | split | dsimp only | intro _)

theorem State.judgeSpares_only (f : W32) (s : State) :
    Only { clock := true, cols := true, pols := true, arr := true } s (State.judgeSpares f s) := by
  unfold State.judgeSpares
  repeat' (with_reducible first
    | exact Only.refl _ _ | refine (State.calReject_only ..).after ?_ rfl | refine Only.foldl _ _ ?_ (fun _ _ => ?_) | refine Only.ite ?_ ?_
    | (fail_if_no_progress refine Only.upd rfl ?_ rfl) | split | dsimp only | intro _)

theorem State.ownerConversions_only (x : Slot) (conv : List CheckConv) (trim : List (Nat × TrimMeas)) (s : State) :
    Only { clock := true, cols := true, pols := true, arr := true } s (State.ownerConversions x conv trim s) := by
  unfold State.ownerConversions
  repeat' (with_reducible first
    | exact Only.refl _ _ | refine (State.measureStandIns_only ..).after ?_ rfl | refine (State.judgeSpares_only ..).after ?_ rfl
    | refine Only.ite ?_ ?_ | (fail_if_no_progress refine Only.upd rfl ?_ rfl) | split | dsimp only | intro _)

theorem execBlankIntervalCheck_only (conv : List CheckConv) (trim : List (Nat × TrimMeas)) (s : State) :
    OnlyNext { clock := true, wheel := true, cols := true, pols := true, arr := true } s (execBlankIntervalCheck conv trim s) := by
  unfold execBlankIntervalCheck
  repeat' (with_reducible first
    | exact Only.refl _ _ | refine (State.checkGroup_only ..).after ?_ rfl | refine (State.storeColumns_only ..).after ?_ rfl
    | refine (State.ownerConversions_only ..).after ?_ rfl | refine Only.foldl _ _ ?_ (fun _ _ => ?_) | refine OnlyNext.next ?_
    | refine OnlyNext.fault _ | refine OnlyNext.ite ?_ ?_ | refine Only.ite ?_ ?_ | (fail_if_no_progress refine Only.upd rfl ?_ rfl)
    | split | dsimp only | intro _)

theorem execQualityRecompute_only (s : State) :
    OnlyNext { cols := true } s (execQualityRecompute s) := by
  unfold execQualityRecompute
  repeat' (with_reducible first
    | exact Only.refl _ _ | refine OnlyNext.next ?_ | refine OnlyNext.fault _ | refine OnlyNext.ite ?_ ?_ | refine Only.ite ?_ ?_
    | (fail_if_no_progress refine Only.upd rfl ?_ rfl) | split | dsimp only | intro _)

theorem State.modReport_only (f : CalReport → CalReport) (s : State) :
    Only { wheel := true } s (State.modReport f s) := by
  unfold State.modReport
  repeat' (with_reducible first
    | exact Only.refl _ _ | refine Only.ite ?_ ?_ | (fail_if_no_progress refine Only.upd rfl ?_ rfl) | split | dsimp only | intro _)

theorem State.rampBank_only (b : Bool) (f : W32) (intervals : List Nat) (s : State) :
    Only { wheel := true, cols := true } s (State.rampBank b f intervals s) := by
  unfold State.rampBank
  repeat' (with_reducible first
    | exact Only.refl _ _ | refine (State.modReport_only ..).after ?_ rfl | refine Only.ite ?_ ?_
    | (fail_if_no_progress refine Only.upd rfl ?_ rfl) | split | dsimp only | intro _)

theorem execCalRampDone_only (intervalsA : List Nat) (intervalsB : List Nat) (s : State) :
    OnlyNext { wheel := true, cols := true } s (execCalRampDone intervalsA intervalsB s) := by
  unfold execCalRampDone
  repeat' (with_reducible first
    | exact Only.refl _ _ | refine (State.modReport_only ..).after ?_ rfl | refine (State.rampBank_only ..).after ?_ rfl
    | refine OnlyNext.next ?_ | refine OnlyNext.fault _ | refine OnlyNext.ite ?_ ?_ | refine Only.ite ?_ ?_
    | (fail_if_no_progress refine Only.upd rfl ?_ rfl) | split | dsimp only | intro _)

theorem State.columnVerdict_only (f : W32) (n : Nat) (v : Verdict) (s : State) :
    Only { wheel := true, cols := true } s (State.columnVerdict f n v s) := by
  unfold State.columnVerdict
  repeat' (with_reducible first
    | exact Only.refl _ _ | refine (State.modReport_only ..).after ?_ rfl | refine Only.ite ?_ ?_
    | (fail_if_no_progress refine Only.upd rfl ?_ rfl) | split | dsimp only | intro _)

theorem execCalColumnsDone_only (meas : List (Nat × TrimMeas)) (s : State) :
    OnlyNext { wheel := true, cols := true } s (execCalColumnsDone meas s) := by
  unfold execCalColumnsDone
  repeat' (with_reducible first
    | exact Only.refl _ _ | refine (State.modReport_only ..).after ?_ rfl | refine (State.columnVerdict_only ..).after ?_ rfl
    | refine Only.foldl _ _ ?_ (fun _ _ => ?_) | refine OnlyNext.next ?_ | refine OnlyNext.fault _ | refine OnlyNext.ite ?_ ?_
    | refine Only.ite ?_ ?_ | (fail_if_no_progress refine Only.upd rfl ?_ rfl) | split | dsimp only | intro _)

theorem execCalLeaseExpired_only (s : State) :
    OnlyNext { wheel := true, cols := true } s (execCalLeaseExpired s) := by
  unfold execCalLeaseExpired
  repeat' (with_reducible first
    | exact Only.refl _ _ | refine (State.modReport_only ..).after ?_ rfl | refine OnlyNext.next ?_ | refine OnlyNext.fault _
    | refine OnlyNext.ite ?_ ?_ | refine Only.ite ?_ ?_ | (fail_if_no_progress refine Only.upd rfl ?_ rfl) | split | dsimp only
    | intro _)

theorem State.reportCal_only (f : W32) (r : CalReport) (s : State) :
    Only { clock := true, cols := true, pols := true, arr := true } s (State.reportCal f r s) := by
  unfold State.reportCal
  repeat' (with_reducible first
    | exact Only.refl _ _ | refine (State.eventAt_only ..).after ?_ rfl | refine Only.ite ?_ ?_
    | (fail_if_no_progress refine Only.upd rfl ?_ rfl) | split | dsimp only | intro _)

theorem State.daliStore_only (d : DaliItem) (s : State) :
    Only { arr := true } s (State.daliStore d s) := by
  unfold State.daliStore
  repeat' (with_reducible first
    | exact Only.refl _ _ | refine (State.requestItem_only ..).after ?_ rfl | refine Only.ite ?_ ?_
    | (fail_if_no_progress refine Only.upd rfl ?_ rfl) | split | dsimp only | intro _)

theorem State.daliAnswer_only (a : Option Byte) (s : State) :
    Only { dali := true } s (State.daliAnswer a s) := by
  unfold State.daliAnswer
  repeat' (with_reducible first
    | exact Only.refl _ _ | refine Only.ite ?_ ?_ | (fail_if_no_progress refine Only.upd rfl ?_ rfl) | split | dsimp only | intro _)

theorem State.daliSpecial_only (cmd v : Byte) (s : State) :
    Only { freeCtr := true, arr := true, dali := true } s (State.daliSpecial cmd v s) := by
  unfold State.daliSpecial
  repeat' (with_reducible first
    | exact Only.refl _ _ | refine (State.drawn_only ..).after ?_ rfl | refine (State.daliStore_only ..).after ?_ rfl
    | refine (State.daliAnswer_only ..).after ?_ rfl | refine Only.ite ?_ ?_ | (fail_if_no_progress refine Only.upd rfl ?_ rfl) | split
    | dsimp only | intro _)

theorem execDaliFrameReceive_only (f : DaliFrame) (s : State) :
    OnlyNext { freeCtr := true, arr := true, dali := true } s (execDaliFrameReceive f s) := by
  unfold execDaliFrameReceive
  repeat' (with_reducible first
    | exact Only.refl _ _ | refine (State.daliStore_only ..).after ?_ rfl | refine (State.daliAnswer_only ..).after ?_ rfl
    | refine (State.daliSpecial_only ..).after ?_ rfl | refine OnlyNext.next ?_ | refine OnlyNext.fault _ | refine OnlyNext.ite ?_ ?_
    | refine Only.ite ?_ ?_ | (fail_if_no_progress refine Only.upd rfl ?_ rfl) | split | dsimp only | intro _)

theorem execDaliBusPowerLost_only (s : State) :
    OnlyNext { dali := true } s (execDaliBusPowerLost s) := by
  unfold execDaliBusPowerLost
  repeat' (with_reducible first
    | exact Only.refl _ _ | refine OnlyNext.next ?_ | refine OnlyNext.fault _ | refine OnlyNext.ite ?_ ?_ | refine Only.ite ?_ ?_
    | (fail_if_no_progress refine Only.upd rfl ?_ rfl) | split | dsimp only | intro _)

theorem execDaliBusPowerRestored_only (s : State) :
    OnlyNext { dali := true } s (execDaliBusPowerRestored s) := by
  unfold execDaliBusPowerRestored
  repeat' (with_reducible first
    | exact Only.refl _ _ | refine OnlyNext.next ?_ | refine OnlyNext.fault _ | refine OnlyNext.ite ?_ ?_ | refine Only.ite ?_ ?_
    | (fail_if_no_progress refine Only.upd rfl ?_ rfl) | split | dsimp only | intro _)

theorem State.daliEvent_only (inst : Fin 2) (s : State) :
    Only { dali := true } s (State.daliEvent inst s) := by
  unfold State.daliEvent
  repeat' (with_reducible first
    | exact Only.refl _ _ | refine Only.ite ?_ ?_ | (fail_if_no_progress refine Only.upd rfl ?_ rfl) | split | dsimp only | intro _)

theorem execDaliReportTimer_only (inst : Fin 2) (s : State) :
    OnlyNext { dali := true } s (execDaliReportTimer inst s) := by
  unfold execDaliReportTimer
  repeat' (with_reducible first
    | exact Only.refl _ _ | refine (State.daliEvent_only ..).after ?_ rfl | refine OnlyNext.next ?_ | refine OnlyNext.fault _
    | refine OnlyNext.ite ?_ ?_ | refine Only.ite ?_ ?_ | (fail_if_no_progress refine Only.upd rfl ?_ rfl) | split | dsimp only
    | intro _)

theorem execDaliEventSend_only (collided : Bool) (s : State) :
    OnlyNext { dali := true } s (execDaliEventSend collided s) := by
  unfold execDaliEventSend
  repeat' (with_reducible first
    | exact Only.refl _ _ | refine OnlyNext.next ?_ | refine OnlyNext.fault _ | refine OnlyNext.ite ?_ ?_ | refine Only.ite ?_ ?_
    | (fail_if_no_progress refine Only.upd rfl ?_ rfl) | split | dsimp only | intro _)

theorem State.selectBus_only (b : HostBus) (s : State) :
    Only { host := true } s (State.selectBus b s) := by
  unfold State.selectBus
  repeat' (with_reducible first
    | exact Only.refl _ _ | refine Only.ite ?_ ?_ | (fail_if_no_progress refine Only.upd rfl ?_ rfl) | split | dsimp only | intro _)

theorem State.endXfer_only (s : State) :
    Only { pols := true, host := true } s (State.endXfer s) := by
  unfold State.endXfer
  repeat' (with_reducible first
    | exact Only.refl _ _ | refine (State.clearBinding_only ..).after ?_ rfl | refine Only.ite ?_ ?_
    | (fail_if_no_progress refine Only.upd rfl ?_ rfl) | split | dsimp only | intro _)

theorem State.startXfer_only (bus : HostBus) (read : Bool) (index : Nat) (dead : Bool) (s : State) :
    Only { pols := true, host := true } s (State.startXfer bus read index dead s) := by
  unfold State.startXfer
  repeat' (with_reducible first
    | exact Only.refl _ _ | refine (State.selectBus_only ..).after ?_ rfl | refine (State.endXfer_only ..).after ?_ rfl
    | refine Only.ite ?_ ?_ | (fail_if_no_progress refine Only.upd rfl ?_ rfl) | split | dsimp only | intro _)

theorem State.fifoXfer_only (bus : HostBus) (read : Bool) (index : Nat) (s : State) :
    Only { pols := true, host := true } s (State.fifoXfer bus read index s) := by
  unfold State.fifoXfer
  repeat' (with_reducible first
    | exact Only.refl _ _ | refine (State.startXfer_only ..).after ?_ rfl | refine Only.ite ?_ ?_
    | (fail_if_no_progress refine Only.upd rfl ?_ rfl) | split | dsimp only | intro _)

theorem State.writeTxByte_only (b : Byte) (x : Xfer) (s : State) :
    Only { power := true, host := true } s (State.writeTxByte b x s) := by
  unfold State.writeTxByte
  repeat' (with_reducible first
    | exact Only.refl _ _ | refine (State.trafficWake_only ..).after ?_ rfl | refine Only.ite ?_ ?_
    | (fail_if_no_progress refine Only.upd rfl ?_ rfl) | split | dsimp only | intro _)

theorem State.writeByte_only (s : State) (b : Byte) :
    Only { power := true, host := true } s (State.writeByte s b) := by
  unfold State.writeByte
  repeat' (with_reducible first
    | exact Only.refl _ _ | refine (State.writeTxByte_only ..).after ?_ rfl | refine Only.ite ?_ ?_
    | (fail_if_no_progress refine Only.upd rfl ?_ rfl) | split | dsimp only | intro _)

theorem State.latchTime_only (s : State) :
    Only { clock := true } s (State.latchTime s) := by
  unfold State.latchTime
  repeat' (with_reducible first
    | exact Only.refl _ _ | refine Only.ite ?_ ?_ | (fail_if_no_progress refine Only.upd rfl ?_ rfl) | split | dsimp only | intro _)

theorem State.packetRead_only (k : OutPacket) (s : State) :
    Only { carries := true } s (State.packetRead k s) := by
  unfold State.packetRead
  repeat' (with_reducible first
    | exact Only.refl _ _ | refine (State.markCarried_only ..).after ?_ rfl | refine Only.ite ?_ ?_
    | (fail_if_no_progress refine Only.upd rfl ?_ rfl) | split | dsimp only | intro _)

theorem State.readRxByte_only (s : State) :
    Only { host := true, carries := true } s (State.readRxByte s).2 := by
  unfold State.readRxByte
  repeat' (with_reducible first
    | exact Only.refl _ _ | refine (State.packetRead_only ..).after ?_ rfl | refine Only.ite ?_ ?_
    | (fail_if_no_progress refine Only.upd rfl ?_ rfl) | split | dsimp only | intro _)

theorem State.captureRegister_only (i : Nat) (s : State) :
    Only { clock := true } s (State.captureRegister i s).2 := by
  unfold State.captureRegister
  repeat' (with_reducible first
    | exact Only.refl _ _ | refine (State.latchTime_only ..).after ?_ rfl | refine Only.ite ?_ ?_
    | (fail_if_no_progress refine Only.upd rfl ?_ rfl) | split | dsimp only | intro _)

theorem State.readByte_only (s : State) :
    Only { clock := true, host := true, carries := true } s (State.readByte s).2 := by
  unfold State.readByte
  repeat' (with_reducible first
    | exact Only.refl _ _ | refine (State.readRxByte_only ..).after ?_ rfl | refine (State.captureRegister_only ..).after ?_ rfl
    | refine Only.ite ?_ ?_ | (fail_if_no_progress refine Only.upd rfl ?_ rfl) | split | dsimp only | refine Only.snd (by assumption) ?_
    | intro _)

theorem State.readMany_only (n : Nat) (s : State) : Only { clock := true, host := true, carries := true } s (s.readMany n).2 := by
  induction n generalizing s with
  | zero => exact Only.refl _ _
  | succ n ih => exact (ih _).after (State.readByte_only ..) rfl


theorem State.hostRead_only (n : Nat) (s : State) : Only { clock := true, host := true, carries := true } s (s.hostRead n) :=
  Only.upd rfl ((State.readMany_only ..).after (Only.upd rfl (Only.refl _ _) rfl) rfl) rfl


theorem execTxfifo_only (bus : HostBus) (bytes : List Byte) (ends : Bool) (s : State) :
    OnlyNext { power := true, pols := true, host := true } s (execTxfifo bus bytes ends s) := by
  unfold execTxfifo
  repeat' (with_reducible first
    | exact Only.refl _ _ | refine (State.endXfer_only ..).after ?_ rfl | refine (State.fifoXfer_only ..).after ?_ rfl
    | refine (State.writeByte_only ..).after ?_ rfl | refine Only.foldl _ _ ?_ (fun _ _ => ?_) | refine OnlyNext.next ?_
    | refine OnlyNext.fault _ | refine OnlyNext.ite ?_ ?_ | refine Only.ite ?_ ?_ | (fail_if_no_progress refine Only.upd rfl ?_ rfl)
    | split | dsimp only | intro _)

theorem execTxfifoPacketToIntake_only (s : State) :
    OnlyNext { pols := true, host := true } s (execTxfifoPacketToIntake s) := by
  unfold execTxfifoPacketToIntake
  repeat' (with_reducible first
    | exact Only.refl _ _ | refine State.modPol_only.after ?_ rfl | refine (State.bindMiss_only ..).after ?_ rfl | refine OnlyNext.next ?_
    | refine OnlyNext.fault _ | refine OnlyNext.ite ?_ ?_ | refine Only.ite ?_ ?_ | (fail_if_no_progress refine Only.upd rfl ?_ rfl)
    | split | dsimp only | intro _)

theorem execRxfifo_only (bus : HostBus) (bytes : Nat) (ends : Bool) (s : State) (hs : s.waitsCarry .sysReset = false) :
    OnlyNext { clock := true, pols := true, host := true, carries := true } s (execRxfifo bus bytes ends s) := by
  refine OnlyNext.next (Only.ite (Only.resetDue ?_ rfl hs) (Only.refl _ _))
  have hread : Only { clock := true, pols := true, host := true, carries := true } s ((s.fifoXfer bus true 5).hostRead bytes) :=
    (State.hostRead_only ..).after ((State.fifoXfer_only ..).after (Only.refl _ _) rfl) rfl
  exact Only.ite ((State.endXfer_only ..).after hread rfl) hread


theorem State.pushRx_only (k : OutPacket) (s : State) :
    Only { host := true } s (State.pushRx k s) := by
  unfold State.pushRx
  repeat' (with_reducible first
    | exact Only.refl _ _ | refine Only.ite ?_ ?_ | (fail_if_no_progress refine Only.upd rfl ?_ rfl) | split | dsimp only | intro _)

theorem execRxfifoEnqueue_only (s : State) :
    OnlyNext { pols := true, host := true } s (execRxfifoEnqueue s) := by
  unfold execRxfifoEnqueue
  repeat' (with_reducible first
    | exact Only.refl _ _ | refine State.modPol_only.after ?_ rfl | refine (State.pushRx_only ..).after ?_ rfl | refine OnlyNext.next ?_
    | refine OnlyNext.fault _ | refine OnlyNext.ite ?_ ?_ | refine Only.ite ?_ ?_ | (fail_if_no_progress refine Only.upd rfl ?_ rfl)
    | split | dsimp only | intro _)

theorem execIrqFlags_only (w : W32) (s : State) :
    OnlyNext { host := true } s (execIrqFlags w s) := by
  unfold execIrqFlags
  repeat' (with_reducible first
    | exact Only.refl _ _ | refine OnlyNext.next ?_ | refine OnlyNext.fault _ | refine OnlyNext.ite ?_ ?_ | refine Only.ite ?_ ?_
    | (fail_if_no_progress refine Only.upd rfl ?_ rfl) | split | dsimp only | intro _)

theorem execHostRegisterWrite_only (bus : HostBus) (header : Byte) (read : Bool) (bytes : List Byte) (ends : Bool) (s : State)
    (hs : s.waitsCarry .sysReset = false) :
    OnlyNext { clock := true, power := true, pols := true, host := true, carries := true } s
      (execHostRegisterWrite bus header read bytes ends s) := by
  refine OnlyNext.next (Only.ite (Only.refl _ _) (Only.resetDue ?_ rfl hs))
  have hdone : ∀ t, Only { clock := true, power := true, pols := true, host := true, carries := true } s t →
      Only { clock := true, power := true, pols := true, host := true, carries := true } s
        (if (if bus = .spi then bit header.toNat 7 else read) then t.hostRead bytes.length else bytes.foldl State.writeByte t) := fun t ht =>
    Only.ite ((State.hostRead_only ..).after ht rfl) (Only.foldl _ _ ht fun u x => (State.writeByte_only u x).after (Only.refl _ _) rfl)
  exact Only.ite ((State.endXfer_only ..).after (hdone _ ((State.startXfer_only ..).after (Only.refl _ _) rfl)) rfl)
    (hdone _ ((State.startXfer_only ..).after (Only.refl _ _) rfl))


theorem execTimeSubRead_only (s : State) :
    OnlyNext { clock := true } s (execTimeSubRead s) := by
  unfold execTimeSubRead
  repeat' (with_reducible first
    | exact Only.refl _ _ | refine (State.latchTime_only ..).after ?_ rfl | refine OnlyNext.next ?_ | refine OnlyNext.fault _
    | refine OnlyNext.ite ?_ ?_ | refine Only.ite ?_ ?_ | (fail_if_no_progress refine Only.upd rfl ?_ rfl) | split | dsimp only
    | intro _)

theorem State.newCycle_only (p : Port) (c : W32) (lentNow lentNext : Bool) (s : State) :
    Only { lineA := true, lineB := true } s (State.newCycle p c lentNow lentNext s) := by
  unfold State.newCycle
  repeat' (with_reducible first
    | exact Only.refl _ _ | refine (State.modPort_only ..).after ?_ rfl | refine Only.ite ?_ ?_
    | (fail_if_no_progress refine Only.upd rfl ?_ rfl) | split | dsimp only | intro _)

theorem State.queueJoin_only (p : Port) (reclaim : Bool) (s : State) :
    Only { freeCtr := true, lineA := true, lineB := true } s (State.queueJoin p reclaim s) := by
  unfold State.queueJoin
  repeat' (with_reducible first
    | exact Only.refl _ _ | refine (State.contend_only ..).after ?_ rfl | refine Only.ite ?_ ?_
    | (fail_if_no_progress refine Only.upd rfl ?_ rfl) | split | dsimp only | intro _)

theorem State.putLine_only (p : Port) (slotted : Bool) (f : TxFrame) (s : State) :
    Only { lineA := true, lineB := true } s (State.putLine p slotted f s) := by
  unfold State.putLine
  repeat' (with_reducible first
    | exact Only.refl _ _ | refine (State.modPort_only ..).after ?_ rfl | refine Only.ite ?_ ?_
    | (fail_if_no_progress refine Only.upd rfl ?_ rfl) | split | dsimp only | intro _)

theorem State.packetCarried_only (k : OutPacket) (s : State) :
    Only { carries := true } s (State.packetCarried k s) := by
  unfold State.packetCarried
  repeat' (with_reducible first
    | exact Only.refl _ _ | refine (State.packetRead_only ..).after ?_ rfl | refine Only.ite ?_ ?_
    | (fail_if_no_progress refine Only.upd rfl ?_ rfl) | split | dsimp only | intro _)

theorem State.packetGivenUp_only (k : OutPacket) (s : State) :
    Only { pols := true, carries := true } s (State.packetGivenUp k s) := by
  unfold State.packetGivenUp
  repeat' (with_reducible first
    | exact Only.refl _ _ | refine State.modPol_only.after ?_ rfl | refine (State.packetCarried_only ..).after ?_ rfl
    | refine Only.ite ?_ ?_ | (fail_if_no_progress refine Only.upd rfl ?_ rfl) | split | dsimp only | intro _)

theorem State.giveUp_only (p : Port) (u : Unacked) (s : State) :
    Only { pols := true, lineA := true, lineB := true, carries := true } s (State.giveUp p u s) := by
  unfold State.giveUp
  repeat' (with_reducible first
    | exact Only.refl _ _ | refine (State.modPort_only ..).after ?_ rfl | refine (State.countPort_only ..).after ?_ rfl
    | refine (State.packetGivenUp_only ..).after ?_ rfl | refine Only.ite ?_ ?_ | (fail_if_no_progress refine Only.upd rfl ?_ rfl)
    | split | dsimp only | intro _)

theorem State.acknowledged_only (p : Port) (u : Unacked) (s : State) :
    Only { lineA := true, lineB := true, carries := true } s (State.acknowledged p u s) := by
  unfold State.acknowledged
  repeat' (with_reducible first
    | exact Only.refl _ _ | refine (State.modPort_only ..).after ?_ rfl | refine (State.packetCarried_only ..).after ?_ rfl
    | refine Only.ite ?_ ?_ | (fail_if_no_progress refine Only.upd rfl ?_ rfl) | split | dsimp only | intro _)

theorem State.readAcks_only (h : Heard) (s : State) :
    Only { lineA := true, lineB := true, carries := true } s (State.readAcks h s) := by
  unfold State.readAcks
  repeat' (with_reducible first
    | exact Only.refl _ _ | refine (State.modPort_only ..).after ?_ rfl | refine (State.acknowledged_only ..).after ?_ rfl
    | refine Only.foldl _ _ ?_ (fun _ _ => ?_) | refine Only.ite ?_ ?_ | (fail_if_no_progress refine Only.upd rfl ?_ rfl) | split
    | dsimp only | intro _)

theorem State.hear_only (h : Heard) (s : State) :
    Only { freeCtr := true, clock := true, pols := true, arr := true, lineA := true, lineB := true, fab := true, early := true }
      s (State.hear h s) := by
  unfold State.hear
  repeat' (with_reducible first
    | exact Only.refl _ _ | refine (State.modPort_only ..).after ?_ rfl | refine (State.countPort_only ..).after ?_ rfl
    | refine (State.patientEvent_only ..).after ?_ rfl | refine (State.queueJoin_only ..).after ?_ rfl | refine Only.ite ?_ ?_
    | (fail_if_no_progress refine Only.upd rfl ?_ rfl) | split | dsimp only | intro _)

theorem State.rxOk_only (p : Port) (s : State) :
    Only { lineA := true, lineB := true } s (State.rxOk p s) := by
  unfold State.rxOk
  repeat' (with_reducible first
    | exact Only.refl _ _ | refine (State.countPort_only ..).after ?_ rfl | refine Only.ite ?_ ?_
    | (fail_if_no_progress refine Only.upd rfl ?_ rfl) | split | dsimp only | intro _)

theorem State.willAck_only (h : Heard) (s : State) :
    Only { lineA := true, lineB := true } s (State.willAck h s) := by
  unfold State.willAck
  repeat' (with_reducible first
    | exact Only.refl _ _ | refine (State.modPort_only ..).after ?_ rfl | refine Only.ite ?_ ?_
    | (fail_if_no_progress refine Only.upd rfl ?_ rfl) | split | dsimp only | intro _)

theorem State.buffer_only (from_ out : Port) (f : FwdFrame) (s : State) :
    Only { lineA := true, lineB := true } s (State.buffer from_ out f s).2 := by
  unfold State.buffer
  repeat' (with_reducible first
    | exact Only.refl _ _ | refine (State.modPort_only ..).after ?_ rfl | refine (State.countPort_only ..).after ?_ rfl
    | refine Only.ite ?_ ?_ | (fail_if_no_progress refine Only.upd rfl ?_ rfl) | split | dsimp only | intro _)

theorem State.receiveHop_only (h : Heard) (pol : Option PolId) (body : TxBody) (s : State) :
    Only { lineA := true, lineB := true } s (State.receiveHop h pol body s).2 := by
  unfold State.receiveHop
  repeat' (with_reducible first
    | exact Only.refl _ _ | refine (State.modPort_only ..).after ?_ rfl | refine (State.countPort_only ..).after ?_ rfl
    | refine (State.rxOk_only ..).after ?_ rfl | refine (State.willAck_only ..).after ?_ rfl
    | refine (State.buffer_only ..).after ?_ rfl | refine Only.ite ?_ ?_ | (fail_if_no_progress refine Only.upd rfl ?_ rfl) | split
    | dsimp only | refine Only.snd (by assumption) ?_ | intro _)

/-- What a frame touches before the meaning of its kind. -/
def Touch.hearing : Touch :=
  { freeCtr := true, clock := true, pols := true, arr := true, lineA := true, lineB := true, fab := true, carries := true, early := true }

theorem State.heardOn_only {f : LineRx} {is : Heard → Bool} {act : Heard → State → State} (hT : Touch.hearing.le T = true)
    (hr : T.resets = false) (hs : s.waitsCarry .sysReset = false) (hact : ∀ h t, Only T t (act h t)) : Only T s (State.heardOn f is act s) := by
  unfold State.heardOn
  refine Only.ite ?_ (Only.refl _ _)
  split
  · exact Only.mono ((State.countPort_only ..).mono rfl) hT
  · next h _ =>
    refine Only.ite (Only.resetDue ?_ hr hs) (Only.refl _ _)
    have hheard : Only Touch.hearing s ((s.hear h).readAcks h) := (State.readAcks_only ..).after ((State.hear_only ..).after (Only.refl _ _) rfl) rfl
    exact (hheard.mono hT).trans (hact h _)


theorem State.keyed_only {act : Heard → State → State} {h : Heard} (hT : ({ lineA := true, lineB := true } : Touch).le T = true)
    (hact : ∀ h t, Only T t (act h t)) : Only T s (State.keyed act h s) := by
  unfold State.keyed
  split
  · exact hact h s
  · exact (State.countPort_only ..).mono hT


theorem State.modFaultSlot_only (f : Slot → Slot) (s : State) :
    Only { wheel := true, wheelCore := true } s (State.modFaultSlot f s) := by
  unfold State.modFaultSlot
  repeat' (with_reducible first
    | exact Only.refl _ _ | refine Only.ite ?_ ?_ | (fail_if_no_progress refine Only.upd rfl ?_ rfl) | split | dsimp only | intro _)

theorem State.voidData_only (kind block lane : Nat) (x : Slot) (s : State) :
    Only { clock := true, wheel := true, lands := true, pols := true, arr := true, wheelCore := true }
      s (State.voidData kind block lane x s) := by
  unfold State.voidData
  repeat' (with_reducible first
    | exact Only.refl _ _ | refine (State.ownerEvent_only ..).after ?_ rfl | refine (State.modFaultSlot_only ..).after ?_ rfl
    | refine Only.ite ?_ ?_ | (fail_if_no_progress refine Only.upd rfl ?_ rfl) | split | dsimp only | intro _)

theorem State.countFaultSlot_only (b : Fin 12) (x : Slot) (s : State) :
    Only { wheel := true, bist := true, wheelCore := true } s (State.countFaultSlot b x s) := by
  unfold State.countFaultSlot
  repeat' (with_reducible first
    | exact Only.refl _ _ | refine (State.modFaultSlot_only ..).after ?_ rfl | refine Only.ite ?_ ?_
    | (fail_if_no_progress refine Only.upd rfl ?_ rfl) | split | dsimp only | intro _)

theorem State.faultLoss_only (b : Fin 12) (inReference : Bool) (x : Slot) (s : State) :
    Only { cols := true, pols := true } s (State.faultLoss b inReference x s) := by
  unfold State.faultLoss
  repeat' (with_reducible first
    | exact Only.refl _ _ | refine State.modPol_only.after ?_ rfl | refine Only.ite ?_ ?_ | (fail_if_no_progress refine Only.upd rfl ?_ rfl)
    | split | dsimp only | intro _)

theorem execDataFault_only (parity : Bool) (block : Fin 12) (lane : Fin 4) (inReference : Bool) (s : State) :
    OnlyNext { clock := true, wheel := true, lands := true, cols := true, pols := true, arr := true, bist := true, wheelCore := true }
      s (execDataFault parity block lane inReference s) := by
  unfold execDataFault
  repeat' (with_reducible first
    | exact Only.refl _ _ | refine (State.voidData_only ..).after ?_ rfl | refine (State.countFaultSlot_only ..).after ?_ rfl
    | refine (State.faultLoss_only ..).after ?_ rfl | refine OnlyNext.next ?_ | refine OnlyNext.fault _ | refine OnlyNext.ite ?_ ?_
    | refine Only.ite ?_ ?_ | (fail_if_no_progress refine Only.upd rfl ?_ rfl) | split | dsimp only | intro _)

theorem State.loseMeasuring_only (s : State) :
    Only { cols := true } s (State.loseMeasuring s) := by
  unfold State.loseMeasuring
  repeat' (with_reducible first
    | exact Only.refl _ _ | refine Only.ite ?_ ?_ | (fail_if_no_progress refine Only.upd rfl ?_ rfl) | split | dsimp only | intro _)

theorem execLockLost_only (s : State) :
    OnlyNext { clock := true, wheel := true, lands := true, cols := true, wheelCore := true } s (execLockLost s) := by
  unfold execLockLost
  repeat' (with_reducible first
    | exact Only.refl _ _ | refine (State.loseMeasuring_only ..).after ?_ rfl | refine OnlyNext.next ?_ | refine OnlyNext.fault _
    | refine OnlyNext.ite ?_ ?_ | refine Only.ite ?_ ?_ | (fail_if_no_progress refine Only.upd rfl ?_ rfl) | split | dsimp only
    | intro _)

theorem State.holdJobs_only (s : State) :
    Only { arr := true } s (State.holdJobs s) := by
  unfold State.holdJobs
  repeat' (with_reducible first
    | exact Only.refl _ _ | refine Only.ite ?_ ?_ | (fail_if_no_progress refine Only.upd rfl ?_ rfl) | split | dsimp only | intro _)

theorem State.holdupLow_only (reason : Nat) (s : State) :
    Only { clock := true, holdup := true, pols := true, arr := true, early := true } s (State.holdupLow reason s) := by
  unfold State.holdupLow
  repeat' (with_reducible first
    | exact Only.refl _ _ | refine (State.supplyEvent_only ..).after ?_ rfl | refine (State.holdJobs_only ..).after ?_ rfl
    | refine Only.ite ?_ ?_ | (fail_if_no_progress refine Only.upd rfl ?_ rfl) | split | dsimp only | intro _)

theorem State.holdupJudge_only (s : State) :
    Only { clock := true, holdup := true, pols := true, arr := true, life := true, early := true } s (State.holdupJudge s) := by
  unfold State.holdupJudge
  repeat' (with_reducible first
    | exact Only.refl _ _ | refine (State.supplyEvent_only ..).after ?_ rfl | refine (State.zeroFabric_only ..).after ?_ rfl
    | refine Only.ite ?_ ?_ | (fail_if_no_progress refine Only.upd rfl ?_ rfl) | split | dsimp only | intro _)

theorem State.placeStart_only (mv : Nat) (s : State) :
    Only { freeCtr := true, holdup := true } s (State.placeStart mv s) := by
  unfold State.placeStart
  repeat' (with_reducible first
    | exact Only.refl _ _ | refine (State.drawn_only ..).after ?_ rfl | refine Only.ite ?_ ?_
    | (fail_if_no_progress refine Only.upd rfl ?_ rfl) | split | dsimp only | intro _)

theorem execHoldMeasure_only (millivolts chargeMicroamps : Nat) (s : State) :
    OnlyNext { freeCtr := true, clock := true, holdup := true, pols := true, arr := true, life := true, early := true }
      s (execHoldMeasure millivolts chargeMicroamps s) := by
  unfold execHoldMeasure
  repeat' (with_reducible first
    | exact Only.refl _ _ | refine (State.holdupLow_only ..).after ?_ rfl | refine (State.holdupJudge_only ..).after ?_ rfl
    | refine (State.placeStart_only ..).after ?_ rfl | refine OnlyNext.next ?_ | refine OnlyNext.fault _ | refine OnlyNext.ite ?_ ?_
    | refine Only.ite ?_ ?_ | (fail_if_no_progress refine Only.upd rfl ?_ rfl) | split | dsimp only | intro _)

theorem execPulseTest_only (fallMillivolts : Nat) (s : State) :
    OnlyNext { clock := true, holdup := true, pols := true, arr := true, life := true, early := true } s (execPulseTest fallMillivolts s) := by
  unfold execPulseTest
  repeat' (with_reducible first
    | exact Only.refl _ _ | refine (State.holdupLow_only ..).after ?_ rfl | refine (State.holdupJudge_only ..).after ?_ rfl
    | refine OnlyNext.next ?_ | refine OnlyNext.fault _ | refine OnlyNext.ite ?_ ?_ | refine Only.ite ?_ ?_
    | (fail_if_no_progress refine Only.upd rfl ?_ rfl) | split | dsimp only | intro _)

theorem execHoldupDeadline_only (s : State) :
    OnlyNext { clock := true, holdup := true, pols := true, arr := true, early := true } s (execHoldupDeadline s) := by
  unfold execHoldupDeadline
  repeat' (with_reducible first
    | exact Only.refl _ _ | refine (State.holdupLow_only ..).after ?_ rfl | refine OnlyNext.next ?_ | refine OnlyNext.fault _
    | refine OnlyNext.ite ?_ ?_ | refine Only.ite ?_ ?_ | (fail_if_no_progress refine Only.upd rfl ?_ rfl) | split | dsimp only
    | intro _)

theorem execBistStart_only (s : State) :
    OnlyNext { bist := true, carries := true } s (execBistStart s) := by
  unfold execBistStart
  repeat' (with_reducible first
    | exact Only.refl _ _ | refine (State.dropCarry_only ..).after ?_ rfl | refine OnlyNext.next ?_ | refine OnlyNext.fault _
    | refine OnlyNext.ite ?_ ?_ | refine Only.ite ?_ ?_ | (fail_if_no_progress refine Only.upd rfl ?_ rfl) | split | dsimp only
    | intro _)

theorem State.reinit_only (b : Nat) (s : State) :
    Only { cols := true, pols := true, host := true, lineA := true, lineB := true } s (State.reinit b s) := by
  unfold State.reinit
  repeat' (with_reducible first
    | exact Only.refl _ _ | refine State.modPol_only.after ?_ rfl | refine (State.modPort_only ..).after ?_ rfl | refine Only.ite ?_ ?_
    | (fail_if_no_progress refine Only.upd rfl ?_ rfl) | split | dsimp only | intro _)

theorem execBistBlockDone_only (failed : Bool) (s : State) :
    OnlyNext { clock := true, cols := true, pols := true, arr := true, bist := true, host := true, lineA := true, lineB := true }
      s (execBistBlockDone failed s) := by
  unfold execBistBlockDone
  repeat' (with_reducible first
    | exact Only.refl _ _ | refine (State.finishBist_only ..).after ?_ rfl | refine (State.reinit_only ..).after ?_ rfl
    | refine OnlyNext.next ?_ | refine OnlyNext.fault _ | refine OnlyNext.ite ?_ ?_ | refine Only.ite ?_ ?_
    | (fail_if_no_progress refine Only.upd rfl ?_ rfl) | split | dsimp only | intro _)

end Sys2Proof.Machine
end

section
/-! PROOFS. What the events of the test access port and of sending touch. -/

namespace Sys2Proof.Machine

variable {T : Touch} {s t : State}

set_option linter.unusedTactic false
set_option linter.unreachableTactic false
set_option linter.unusedVariables false

theorem State.loadIr_only (ir : JtagIr) (out : List Byte) (s : State) :
    Only { jtag := true } s (State.loadIr ir out s) := by
  unfold State.loadIr
  repeat' (with_reducible first
    | exact Only.refl _ _ | refine Only.ite ?_ ?_ | (fail_if_no_progress refine Only.upd rfl ?_ rfl) | split | dsimp only | intro _)

theorem State.jtagDo_only {ir : JtagIr} {out : List Byte} {act : State → State} (hT : ({ jtag := true } : Touch).le T = true)
    (hact : ∀ t, Only T t (act t)) : Only T s (State.jtagDo ir out act s) := by
  have hload : Only T s (s.loadIr ir out) := (State.loadIr_only ..).mono hT
  unfold State.jtagDo
  exact Only.ite (Only.refl _ _) (Only.ite (hload.trans (hact _)) hload)


theorem execJtagExtest_only (outputs : BitVec 99) (s : State) :
    OnlyNext { wheel := true, jtag := true } s (execJtagExtest outputs s) := by
  unfold execJtagExtest
  repeat' (with_reducible first
    | exact Only.refl _ _ | refine (State.silencePix_only ..).after ?_ rfl | refine State.jtagDo_only rfl (fun _ => ?_)
    | refine OnlyNext.next ?_ | refine OnlyNext.fault _ | refine OnlyNext.ite ?_ ?_ | refine Only.ite ?_ ?_
    | (fail_if_no_progress refine Only.upd rfl ?_ rfl) | split | dsimp only | intro _)

theorem execJtagIdcode_only (s : State) :
    OnlyNext { jtag := true } s (execJtagIdcode s) := by
  unfold execJtagIdcode
  repeat' (with_reducible first
    | exact Only.refl _ _ | refine State.jtagDo_only rfl (fun _ => ?_) | refine OnlyNext.next ?_ | refine OnlyNext.fault _
    | refine OnlyNext.ite ?_ ?_ | refine Only.ite ?_ ?_ | (fail_if_no_progress refine Only.upd rfl ?_ rfl) | split | dsimp only
    | intro _)

theorem execJtagSamplePreload_only (lands : BitVec 99) (s : State) :
    OnlyNext { jtag := true } s (execJtagSamplePreload lands s) := by
  unfold execJtagSamplePreload
  repeat' (with_reducible first
    | exact Only.refl _ _ | refine State.jtagDo_only rfl (fun _ => ?_) | refine OnlyNext.next ?_ | refine OnlyNext.fault _
    | refine OnlyNext.ite ?_ ?_ | refine Only.ite ?_ ?_ | (fail_if_no_progress refine Only.upd rfl ?_ rfl) | split | dsimp only
    | intro _)

theorem execJtagDebug_only (a : DebugAction) (s : State) :
    OnlyNext { freeCtr := true, clock := true, pols := true, arr := true, jtag := true } s (execJtagDebug a s) := by
  unfold execJtagDebug
  repeat' (with_reducible first
    | exact Only.refl _ _ | refine (State.drawn_only ..).after ?_ rfl | refine (State.issueAll_only ..).after ?_ rfl
    | refine State.jtagDo_only rfl (fun _ => ?_) | refine OnlyNext.next ?_ | refine OnlyNext.fault _ | refine OnlyNext.ite ?_ ?_
    | refine Only.ite ?_ ?_ | (fail_if_no_progress refine Only.upd rfl ?_ rfl) | split | dsimp only | intro _)

theorem execJtagMbist_only (blocks failed : BitVec 16) (s : State) :
    OnlyNext { cols := true, pols := true, bist := true, host := true, lineA := true, lineB := true, jtag := true }
      s (execJtagMbist blocks failed s) := by
  unfold execJtagMbist
  repeat' (with_reducible first
    | exact Only.refl _ _ | refine (State.reinit_only ..).after ?_ rfl | refine State.jtagDo_only rfl (fun _ => ?_)
    | refine Only.foldl _ _ ?_ (fun _ _ => ?_) | refine OnlyNext.next ?_ | refine OnlyNext.fault _ | refine OnlyNext.ite ?_ ?_
    | refine Only.ite ?_ ?_ | (fail_if_no_progress refine Only.upd rfl ?_ rfl) | split | dsimp only | intro _)

theorem execJtagScan_only (s : State) :
    OnlyNext { jtag := true } s (execJtagScan s) := by
  unfold execJtagScan
  repeat' (with_reducible first
    | exact Only.refl _ _ | refine State.jtagDo_only rfl (fun _ => ?_) | refine OnlyNext.next ?_ | refine OnlyNext.fault _
    | refine OnlyNext.ite ?_ ?_ | refine Only.ite ?_ ?_ | (fail_if_no_progress refine Only.upd rfl ?_ rfl) | split | dsimp only
    | intro _)

theorem execJtagRelease_only (s : State) :
    OnlyNext { clock := true, wheel := true, pols := true, ka := true, arr := true, jtag := true, wheelCore := true } s (execJtagRelease s) := by
  unfold execJtagRelease
  repeat' (with_reducible first
    | exact Only.refl _ _ | refine State.modPol_only.after ?_ rfl | refine (State.modTcmp_only ..).after ?_ rfl
    | refine (State.voidHeld_only ..).after ?_ rfl | refine (State.storePolder_only ..).after ?_ rfl
    | refine (State.storeSeqs_only ..).after ?_ rfl | refine State.jtagDo_only rfl (fun _ => ?_) | refine OnlyNext.next ?_
    | refine OnlyNext.fault _ | refine OnlyNext.ite ?_ ?_ | refine Only.ite ?_ ?_ | (fail_if_no_progress refine Only.upd rfl ?_ rfl)
    | split | dsimp only | intro _)

theorem execJtagBypass_only (x0 : BitVec 5) (s : State) :
    OnlyNext { jtag := true } s (execJtagBypass x0 s) := by
  unfold execJtagBypass
  repeat' (with_reducible first
    | exact Only.refl _ _ | refine State.jtagDo_only rfl (fun _ => ?_) | refine OnlyNext.next ?_ | refine OnlyNext.fault _
    | refine OnlyNext.ite ?_ ?_ | refine Only.ite ?_ ?_ | (fail_if_no_progress refine Only.upd rfl ?_ rfl) | split | dsimp only
    | intro _)

theorem execTrstNAssert_only (s : State) :
    OnlyNext { jtag := true } s (execTrstNAssert s) := by
  unfold execTrstNAssert
  repeat' (with_reducible first
    | exact Only.refl _ _ | refine OnlyNext.next ?_ | refine OnlyNext.fault _ | refine OnlyNext.ite ?_ ?_ | refine Only.ite ?_ ?_
    | (fail_if_no_progress refine Only.upd rfl ?_ rfl) | split | dsimp only | intro _)

theorem State.putSlot_only (p : Port) (slot : Nat) (f : TxFrame) (s : State) :
    Only { lineA := true, lineB := true } s (State.putSlot p slot f s) := by
  unfold State.putSlot
  repeat' (with_reducible first
    | exact Only.refl _ _ | refine (State.modPort_only ..).after ?_ rfl | refine (State.countPort_only ..).after ?_ rfl
    | refine (State.putLine_only ..).after ?_ rfl | refine Only.ite ?_ ?_ | (fail_if_no_progress refine Only.upd rfl ?_ rfl) | split
    | dsimp only | intro _)

theorem State.sendFlow_only (p : Port) (slot : Nat) (f : Flow) (body : TxBody) (arrived : Nat) (s : State) :
    Only { lineA := true, lineB := true } s (State.sendFlow p slot f body arrived s) := by
  unfold State.sendFlow
  repeat' (with_reducible first
    | exact Only.refl _ _ | refine (State.modPort_only ..).after ?_ rfl | refine (State.putSlot_only ..).after ?_ rfl
    | refine Only.ite ?_ ?_ | (fail_if_no_progress refine Only.upd rfl ?_ rfl) | split | dsimp only | intro _)

theorem State.sendAgain_only (p : Port) (slot : Nat) (u : Unacked) (s : State) :
    Only { lineA := true, lineB := true } s (State.sendAgain p slot u s) := by
  unfold State.sendAgain
  repeat' (with_reducible first
    | exact Only.refl _ _ | refine (State.modPort_only ..).after ?_ rfl | refine (State.countPort_only ..).after ?_ rfl
    | refine (State.putSlot_only ..).after ?_ rfl | refine Only.ite ?_ ?_ | (fail_if_no_progress refine Only.upd rfl ?_ rfl) | split
    | dsimp only | intro _)

theorem State.sendWake_only (p : Port) (slot : Nat) (dst : BitVec 12) (s : State) :
    Only { lineA := true, lineB := true } s (State.sendWake p slot dst s) := by
  unfold State.sendWake
  repeat' (with_reducible first
    | exact Only.refl _ _ | refine (State.modPort_only ..).after ?_ rfl | refine (State.countPort_only ..).after ?_ rfl
    | refine (State.putSlot_only ..).after ?_ rfl | refine Only.ite ?_ ?_ | (fail_if_no_progress refine Only.upd rfl ?_ rfl) | split
    | dsimp only | intro _)

theorem State.dueAgain_only (p : Port) (slot : Nat) (mine : Flow → Bool) (s : State) :
    Only { pols := true, lineA := true, lineB := true, carries := true } s (State.dueAgain p slot mine s).2 := by
  unfold State.dueAgain
  repeat' (with_reducible first
    | exact Only.refl _ _ | refine (State.giveUp_only ..).after ?_ rfl | refine Only.foldl _ _ ?_ (fun _ _ => ?_) | refine Only.ite ?_ ?_
    | (fail_if_no_progress refine Only.upd rfl ?_ rfl) | split | dsimp only | intro _)

/-- What sending in a slot touches. -/
def Touch.sending : Touch := { pols := true, lineA := true, lineB := true, carries := true }

/-- What a share sends, and what it leaves where it sends nothing. -/
theorem State.shareTx_only (p : Port) (slot : Nat) (q : PolId) (s : State) :
    Only Touch.sending s (State.shareTx p slot q s).2 ∧ ∀ t, (State.shareTx p slot q s).1 = some t → Only Touch.sending s t := by
  have hd : Only Touch.sending s (s.dueAgain p slot (fun f => f.src == s.fab.addr && f.pol == some q)).2 :=
    (State.dueAgain_only ..).after (Only.refl _ _) rfl
  unfold State.shareTx
  split
  · next heq =>
    rw [heq] at hd
    exact ⟨hd, fun t e => by cases e; exact (State.sendAgain_only ..).after hd rfl⟩
  · next heq =>
    rw [heq] at hd
    split
    · dsimp only
      split
      · exact ⟨hd, fun t e => by cases e⟩
      · split
        · exact ⟨hd, fun t e => by cases e; exact (State.sendWake_only ..).after hd rfl⟩
        · exact ⟨hd, fun t e => by cases e; exact (State.sendFlow_only ..).after (State.modPol_only.after hd rfl) rfl⟩
    · exact ⟨hd, fun t e => by cases e⟩


theorem State.mgmtTx_only (p : Port) (slot : Nat) (ok : TxFrame → Bool) (s : State) :
    ∀ t, State.mgmtTx p slot ok s = some t → Only Touch.sending s t := by
  intro t e
  unfold State.mgmtTx at e
  split at e
  · dsimp only at e
    split at e
    · cases e
      exact (State.sendFlow_only ..).after ((State.modPort_only ..).after (Only.refl _ _) rfl) rfl
    · cases e
  · cases e


theorem State.idleShareTx_only (p : Port) (slot : Nat) (s : State) : Only Touch.sending s (State.idleShareTx p slot s) := by
  have hd : Only Touch.sending s (s.dueAgain p slot (fun f => f.src == s.fab.addr && f.pol == none)).2 :=
    (State.dueAgain_only ..).after (Only.refl _ _) rfl
  unfold State.idleShareTx
  split
  · next heq =>
    rw [heq] at hd
    exact (State.sendAgain_only ..).after hd rfl
  · next x heq =>
    rw [heq] at hd
    have hm := State.mgmtTx_only p slot (fun f => f.inShare x.bridging) x
    generalize State.mgmtTx _ _ _ _ = o at hm ⊢
    cases o with
    | some t => exact hd.trans (hm t rfl)
    | none => exact (State.putSlot_only ..).after hd rfl


theorem State.drainPut_only (p : Port) (body : TxBody) (s : State) :
    Only { lineA := true, lineB := true } s (State.drainPut p body s) := by
  unfold State.drainPut
  repeat' (with_reducible first
    | exact Only.refl _ _ | refine (State.modPort_only ..).after ?_ rfl | refine Only.ite ?_ ?_
    | (fail_if_no_progress refine Only.upd rfl ?_ rfl) | split | dsimp only | intro _)

theorem State.forwardTx_only (p : Port) (slot : Nat) (s : State) :
    Only Touch.sending s (State.forwardTx p slot s).2 ∧ ∀ t, (State.forwardTx p slot s).1 = some t → Only Touch.sending s t := by
  have hd : Only Touch.sending s (s.dueAgain p slot (fun f => f.src != s.fab.addr)).2 := (State.dueAgain_only ..).after (Only.refl _ _) rfl
  unfold State.forwardTx
  split
  · next heq =>
    rw [heq] at hd
    exact ⟨hd, fun t e => by cases e; exact (State.sendAgain_only ..).after hd rfl⟩
  · next heq =>
    rw [heq] at hd
    split
    · split
      · exact ⟨hd, fun t e => by cases e; exact (State.sendWake_only ..).after hd rfl⟩
      · exact ⟨hd, fun t e => by
          cases e
          exact (State.drainPut_only ..).after ((State.sendFlow_only ..).after ((State.modPort_only ..).after hd rfl) rfl) rfl⟩
    · exact ⟨hd, fun t e => by cases e⟩


theorem State.forwardSlotTx_only (p : Port) (slot : Nat) (s : State) : Only Touch.sending s (State.forwardSlotTx p slot s) := by
  have hf := State.forwardTx_only p slot s
  unfold State.forwardSlotTx
  split
  · next e => exact State.mgmtTx_only _ _ _ _ _ e
  · split
    · next e => exact hf.2 _ (by rw [e])
    · next e =>
      rw [e] at hf
      exact (State.putSlot_only ..).after hf.1 rfl


theorem State.shareSlotTx_only (p : Port) (slot : Nat) (s : State) : Only Touch.sending s (State.shareSlotTx p slot s) := by
  unfold State.shareSlotTx
  split
  · next q _ =>
    have hf := State.shareTx_only p slot q s
    split
    · next e => exact hf.2 _ (by rw [e])
    · next e =>
      rw [e] at hf
      exact hf.1.trans (State.idleShareTx_only ..)
  · exact State.idleShareTx_only ..


theorem State.slotTx_only (p : Port) (slot : Nat) (s : State) : Only Touch.sending s (State.slotTx p slot s) := by
  have hf := State.forwardTx_only p slot s
  unfold State.slotTx
  refine Only.ite (Only.ite ((State.putSlot_only ..).after (Only.refl _ _) rfl) (Only.ite (State.forwardSlotTx_only ..) (State.shareSlotTx_only ..)))
    (Only.ite (Only.refl _ _) ?_)
  split
  · next e => exact hf.2 _ (by rw [e])
  · next e =>
    rw [e] at hf
    exact hf.1


theorem execDataSlotTx_only (port : Port) (s : State) (hs : s.waitsCarry .sysReset = false) :
    OnlyNext Touch.sending s (execDataSlotTx port s) := by
  refine OnlyNext.next (Only.ite (Only.refl _ _) ?_)
  split
  · exact Only.resetDue ((State.slotTx_only ..).after ((State.modPort_only ..).after (Only.refl _ _) rfl) rfl) rfl hs
  · exact Only.refl _ _


theorem execContentionTx_only (port : Port) (collided : Bool) (s : State) :
    OnlyNext { freeCtr := true, lineA := true, lineB := true } s (execContentionTx port collided s) := by
  unfold execContentionTx
  repeat' (with_reducible first
    | exact Only.refl _ _ | refine (State.modPort_only ..).after ?_ rfl | refine (State.countPort_only ..).after ?_ rfl
    | refine (State.drawBackoff_only ..).after ?_ rfl | refine (State.putLine_only ..).after ?_ rfl | refine OnlyNext.next ?_
    | refine OnlyNext.fault _ | refine OnlyNext.ite ?_ ?_ | refine Only.ite ?_ ?_ | (fail_if_no_progress refine Only.upd rfl ?_ rfl)
    | split | dsimp only | intro _)

theorem execJoinRetryTimer_only (s : State) :
    OnlyNext { freeCtr := true, lineA := true, lineB := true } s (execJoinRetryTimer s) := by
  unfold execJoinRetryTimer
  repeat' (with_reducible first
    | exact Only.refl _ _ | refine (State.queueJoin_only ..).after ?_ rfl | refine OnlyNext.next ?_ | refine OnlyNext.fault _
    | refine OnlyNext.ite ?_ ?_ | refine Only.ite ?_ ?_ | (fail_if_no_progress refine Only.upd rfl ?_ rfl) | split | dsimp only
    | intro _)

theorem execSlotConflictRetry_only (s : State) :
    OnlyNext { lineA := true, lineB := true } s (execSlotConflictRetry s) := by
  unfold execSlotConflictRetry
  repeat' (with_reducible first
    | exact Only.refl _ _ | refine (State.modPort_only ..).after ?_ rfl | refine OnlyNext.next ?_ | refine OnlyNext.fault _
    | refine OnlyNext.ite ?_ ?_ | refine Only.ite ?_ ?_ | (fail_if_no_progress refine Only.upd rfl ?_ rfl) | split | dsimp only
    | intro _)

theorem State.queueRoute_only (p : Port) (s : State) :
    Only { lineA := true, lineB := true } s (State.queueRoute p s) := by
  unfold State.queueRoute
  repeat' (with_reducible first
    | exact Only.refl _ _ | refine (State.modPort_only ..).after ?_ rfl | refine Only.ite ?_ ?_
    | (fail_if_no_progress refine Only.upd rfl ?_ rfl) | split | dsimp only | intro _)

theorem execRouteAdvertTimer_only (s : State) :
    OnlyNext { lineA := true, lineB := true } s (execRouteAdvertTimer s) := by
  unfold execRouteAdvertTimer
  repeat' (with_reducible first
    | exact Only.refl _ _ | refine (State.queueRoute_only ..).after ?_ rfl | refine OnlyNext.next ?_ | refine OnlyNext.fault _
    | refine OnlyNext.ite ?_ ?_ | refine Only.ite ?_ ?_ | (fail_if_no_progress refine Only.upd rfl ?_ rfl) | split | dsimp only
    | intro _)

end Sys2Proof.Machine
end

section
/-! PROOFS. What the events of receiving and of the pipeline touch. -/

namespace Sys2Proof.Machine

variable {T : Touch} {s t : State}

set_option linter.unusedTactic false
set_option linter.unreachableTactic false
set_option linter.unusedVariables false

theorem execAck_only (f : LineRx) (s : State) (hs : s.waitsCarry .sysReset = false) :
    OnlyNext { freeCtr := true, clock := true, pols := true, arr := true, lineA := true, lineB := true, fab := true, carries := true,
               early := true } s (execAck f s) := by
  unfold execAck
  repeat' (with_reducible first
    | exact Only.refl _ _ | refine (State.rxOk_only ..).after ?_ rfl | refine State.heardOn_only rfl rfl hs (fun _ _ => ?_)
    | refine OnlyNext.next ?_ | refine OnlyNext.fault _ | refine OnlyNext.ite ?_ ?_ | refine Only.ite ?_ ?_
    | (fail_if_no_progress refine Only.upd rfl ?_ rfl) | split | dsimp only | intro _)

theorem State.dataUp_only (h : Heard) (s : State) :
    Only { power := true, pols := true, host := true, lineA := true, lineB := true } s (State.dataUp h s) := by
  unfold State.dataUp
  repeat' (with_reducible first
    | exact Only.refl _ _ | refine (State.countPort_only ..).after ?_ rfl | refine (State.arrive_only ..).after ?_ rfl
    | refine Only.ite ?_ ?_ | (fail_if_no_progress refine Only.upd rfl ?_ rfl) | split | dsimp only | intro _)

theorem execData_only (f : LineRx) (s : State) (hs : s.waitsCarry .sysReset = false) :
    OnlyNext { freeCtr := true, clock := true, power := true, pols := true, arr := true, host := true, lineA := true, lineB := true,
               fab := true, carries := true, early := true } s (execData f s) := by
  unfold execData
  repeat' (with_reducible first
    | exact Only.refl _ _ | refine (State.receiveHop_only ..).after ?_ rfl | refine State.heardOn_only rfl rfl hs (fun _ _ => ?_)
    | refine (State.dataUp_only ..).after ?_ rfl | refine OnlyNext.next ?_ | refine OnlyNext.fault _ | refine OnlyNext.ite ?_ ?_
    | refine Only.ite ?_ ?_ | (fail_if_no_progress refine Only.upd rfl ?_ rfl) | split | dsimp only | refine Only.snd (by assumption) ?_
    | intro _)

theorem execWake_only (f : LineRx) (s : State) (hs : s.waitsCarry .sysReset = false) :
    OnlyNext { freeCtr := true, clock := true, pols := true, arr := true, lineA := true, lineB := true, fab := true, carries := true,
               early := true } s (execWake f s) := by
  unfold execWake
  repeat' (with_reducible first
    | exact Only.refl _ _ | refine State.heardOn_only rfl rfl hs (fun _ _ => ?_) | refine OnlyNext.next ?_ | refine OnlyNext.fault _
    | refine OnlyNext.ite ?_ ?_ | refine Only.ite ?_ ?_ | (fail_if_no_progress refine Only.upd rfl ?_ rfl) | split | dsimp only
    | intro _)

theorem State.noteUid_only (addr : BitVec 12) (uid : BitVec 64) (s : State) :
    Only { fab := true } s (State.noteUid addr uid s) := by
  unfold State.noteUid
  repeat' (with_reducible first
    | exact Only.refl _ _ | refine Only.ite ?_ ?_ | (fail_if_no_progress refine Only.upd rfl ?_ rfl) | split | dsimp only | intro _)

theorem State.noteJoin_only (j : JoinFields) (s : State) :
    Only { fab := true } s (State.noteJoin j s) := by
  unfold State.noteJoin
  repeat' (with_reducible first
    | exact Only.refl _ _ | refine Only.ite ?_ ?_ | (fail_if_no_progress refine Only.upd rfl ?_ rfl) | split | dsimp only | intro _)

theorem execJoin_only (f : LineRx) (s : State) (hs : s.waitsCarry .sysReset = false) :
    OnlyNext { freeCtr := true, clock := true, pols := true, arr := true, lineA := true, lineB := true, fab := true, carries := true,
               early := true } s (execJoin f s) := by
  unfold execJoin
  repeat' (with_reducible first
    | exact Only.refl _ _ | refine (State.rxOk_only ..).after ?_ rfl | refine State.heardOn_only rfl rfl hs (fun _ _ => ?_)
    | refine State.keyed_only rfl (fun _ _ => ?_) | refine (State.noteUid_only ..).after ?_ rfl
    | refine (State.noteJoin_only ..).after ?_ rfl | refine OnlyNext.next ?_ | refine OnlyNext.fault _ | refine OnlyNext.ite ?_ ?_
    | refine Only.ite ?_ ?_ | (fail_if_no_progress refine Only.upd rfl ?_ rfl) | split | dsimp only | intro _)

theorem execDiscover_only (f : LineRx) (s : State) (hs : s.waitsCarry .sysReset = false) :
    OnlyNext { freeCtr := true, clock := true, pols := true, arr := true, lineA := true, lineB := true, fab := true, carries := true,
               early := true } s (execDiscover f s) := by
  unfold execDiscover
  repeat' (with_reducible first
    | exact Only.refl _ _ | refine (State.queueJoin_only ..).after ?_ rfl | refine (State.rxOk_only ..).after ?_ rfl
    | refine State.heardOn_only rfl rfl hs (fun _ _ => ?_) | refine State.keyed_only rfl (fun _ _ => ?_) | refine OnlyNext.next ?_
    | refine OnlyNext.fault _ | refine OnlyNext.ite ?_ ?_ | refine Only.ite ?_ ?_ | (fail_if_no_progress refine Only.upd rfl ?_ rfl)
    | split | dsimp only | intro _)

theorem State.reroute_only (s : State) :
    Only { fab := true } s (State.reroute s) := by
  unfold State.reroute
  repeat' (with_reducible first
    | exact Only.refl _ _ | refine Only.ite ?_ ?_ | (fail_if_no_progress refine Only.upd rfl ?_ rfl) | split | dsimp only | intro _)

theorem State.sendDrain_only (p : Port) (g : BitVec 6) (s : State) :
    Only { lineA := true, lineB := true, fab := true } s (State.sendDrain p g s) := by
  unfold State.sendDrain
  repeat' (with_reducible first
    | exact Only.refl _ _ | refine (State.modPort_only ..).after ?_ rfl | refine Only.ite ?_ ?_
    | (fail_if_no_progress refine Only.upd rfl ?_ rfl) | split | dsimp only | intro _)

theorem State.claimantChange_only (p : Port) (g : BitVec 6) (old new : Option (BitVec 12)) (s : State) :
    Only { lineA := true, lineB := true, fab := true } s (State.claimantChange p g old new s) := by
  unfold State.claimantChange
  repeat' (with_reducible first
    | exact Only.refl _ _ | refine (State.modPort_only ..).after ?_ rfl | refine (State.sendDrain_only ..).after ?_ rfl
    | refine Only.ite ?_ ?_ | (fail_if_no_progress refine Only.upd rfl ?_ rfl) | split | dsimp only | intro _)

theorem State.reclaim_only (p : Port) (s : State) :
    Only { lineA := true, lineB := true, fab := true } s (State.reclaim p s) := by
  unfold State.reclaim
  repeat' (with_reducible first
    | exact Only.refl _ _ | refine (State.modPort_only ..).after ?_ rfl | refine (State.claimantChange_only ..).after ?_ rfl
    | refine Only.foldl _ _ ?_ (fun _ _ => ?_) | refine Only.ite ?_ ?_ | (fail_if_no_progress refine Only.upd rfl ?_ rfl) | split
    | dsimp only | intro _)

theorem State.reroutes_only (s : State) :
    Only { lineA := true, lineB := true, fab := true } s (State.reroutes s) := by
  unfold State.reroutes
  repeat' (with_reducible first
    | exact Only.refl _ _ | refine (State.reroute_only ..).after ?_ rfl | refine (State.reclaim_only ..).after ?_ rfl
    | refine Only.ite ?_ ?_ | (fail_if_no_progress refine Only.upd rfl ?_ rfl) | split | dsimp only | intro _)

theorem execRoute_only (f : LineRx) (s : State) (hs : s.waitsCarry .sysReset = false) :
    OnlyNext { freeCtr := true, clock := true, pols := true, arr := true, lineA := true, lineB := true, fab := true, carries := true,
               early := true } s (execRoute f s) := by
  unfold execRoute
  repeat' (with_reducible first
    | exact Only.refl _ _ | refine (State.modPort_only ..).after ?_ rfl | refine (State.rxOk_only ..).after ?_ rfl
    | refine State.heardOn_only rfl rfl hs (fun _ _ => ?_) | refine State.keyed_only rfl (fun _ _ => ?_)
    | refine (State.reroutes_only ..).after ?_ rfl | refine OnlyNext.next ?_ | refine OnlyNext.fault _ | refine OnlyNext.ite ?_ ?_
    | refine Only.ite ?_ ?_ | (fail_if_no_progress refine Only.upd rfl ?_ rfl) | split | dsimp only | intro _)

theorem execRouteLapse_only (segment : Fin 63) (s : State) :
    OnlyNext { lineA := true, lineB := true, fab := true } s (execRouteLapse segment s) := by
  unfold execRouteLapse
  repeat' (with_reducible first
    | exact Only.refl _ _ | refine (State.modPort_only ..).after ?_ rfl | refine (State.reroutes_only ..).after ?_ rfl
    | refine OnlyNext.next ?_ | refine OnlyNext.fault _ | refine OnlyNext.ite ?_ ?_ | refine Only.ite ?_ ?_
    | (fail_if_no_progress refine Only.upd rfl ?_ rfl) | split | dsimp only | intro _)

theorem State.noteDrain_only (isDone : Bool) (d : DrainFields) (s : State) :
    Only { fab := true } s (State.noteDrain isDone d s) := by
  unfold State.noteDrain
  repeat' (with_reducible first
    | exact Only.refl _ _ | refine Only.ite ?_ ?_ | (fail_if_no_progress refine Only.upd rfl ?_ rfl) | split | dsimp only | intro _)

theorem State.forwardDrain_only (h : Heard) (g : BitVec 6) (body : TxBody) (s : State) :
    Only { lineA := true, lineB := true } s (State.forwardDrain h g body s) := by
  unfold State.forwardDrain
  repeat' (with_reducible first
    | exact Only.refl _ _ | refine (State.buffer_only ..).after ?_ rfl | refine Only.ite ?_ ?_
    | (fail_if_no_progress refine Only.upd rfl ?_ rfl) | split | dsimp only | refine Only.snd (by assumption) ?_ | intro _)

theorem execDrain_only (f : LineRx) (s : State) (hs : s.waitsCarry .sysReset = false) :
    OnlyNext { freeCtr := true, clock := true, pols := true, arr := true, lineA := true, lineB := true, fab := true, carries := true,
               early := true } s (execDrain f s) := by
  unfold execDrain
  repeat' (with_reducible first
    | exact Only.refl _ _ | refine (State.rxOk_only ..).after ?_ rfl | refine State.heardOn_only rfl rfl hs (fun _ _ => ?_)
    | refine State.keyed_only rfl (fun _ _ => ?_) | refine (State.noteDrain_only ..).after ?_ rfl
    | refine (State.forwardDrain_only ..).after ?_ rfl | refine OnlyNext.next ?_ | refine OnlyNext.fault _ | refine OnlyNext.ite ?_ ?_
    | refine Only.ite ?_ ?_ | (fail_if_no_progress refine Only.upd rfl ?_ rfl) | split | dsimp only | intro _)

theorem State.release_only (p : Port) (g : BitVec 6) (s : State) :
    Only { lineA := true, lineB := true, fab := true } s (State.release p g s) := by
  unfold State.release
  repeat' (with_reducible first
    | exact Only.refl _ _ | refine (State.modPort_only ..).after ?_ rfl | refine (State.reroute_only ..).after ?_ rfl
    | refine Only.ite ?_ ?_ | (fail_if_no_progress refine Only.upd rfl ?_ rfl) | split | dsimp only | intro _)

theorem execDrainDone_only (f : LineRx) (s : State) (hs : s.waitsCarry .sysReset = false) :
    OnlyNext { freeCtr := true, clock := true, pols := true, arr := true, lineA := true, lineB := true, fab := true, carries := true,
               early := true } s (execDrainDone f s) := by
  unfold execDrainDone
  repeat' (with_reducible first
    | exact Only.refl _ _ | refine (State.rxOk_only ..).after ?_ rfl | refine State.heardOn_only rfl rfl hs (fun _ _ => ?_)
    | refine State.keyed_only rfl (fun _ _ => ?_) | refine (State.noteDrain_only ..).after ?_ rfl
    | refine (State.forwardDrain_only ..).after ?_ rfl | refine (State.release_only ..).after ?_ rfl | refine OnlyNext.next ?_
    | refine OnlyNext.fault _ | refine OnlyNext.ite ?_ ?_ | refine Only.ite ?_ ?_ | (fail_if_no_progress refine Only.upd rfl ?_ rfl)
    | split | dsimp only | intro _)

theorem execHoldbackExpired_only (port : Port) (segment : Fin 63) (s : State) :
    OnlyNext { lineA := true, lineB := true, fab := true } s (execHoldbackExpired port segment s) := by
  unfold execHoldbackExpired
  repeat' (with_reducible first
    | exact Only.refl _ _ | refine (State.countPort_only ..).after ?_ rfl | refine (State.release_only ..).after ?_ rfl
    | refine OnlyNext.next ?_ | refine OnlyNext.fault _ | refine OnlyNext.ite ?_ ?_ | refine Only.ite ?_ ?_
    | (fail_if_no_progress refine Only.upd rfl ?_ rfl) | split | dsimp only | intro _)

theorem State.dropHeld_only (out : Port) (f : Flow) (arrived : Nat) (all : Bool) (s : State) :
    Only { lineA := true, lineB := true } s (State.dropHeld out f arrived all s) := by
  unfold State.dropHeld
  repeat' (with_reducible first
    | exact Only.refl _ _ | refine (State.modPort_only ..).after ?_ rfl | refine Only.ite ?_ ?_
    | (fail_if_no_progress refine Only.upd rfl ?_ rfl) | split | dsimp only | intro _)

theorem execFwdFrameTimeout_only (port : Port) (s : State) :
    OnlyNext { lineA := true, lineB := true } s (execFwdFrameTimeout port s) := by
  unfold execFwdFrameTimeout
  repeat' (with_reducible first
    | exact Only.refl _ _ | refine (State.countPort_only ..).after ?_ rfl | refine (State.dropHeld_only ..).after ?_ rfl
    | refine Only.foldl _ _ ?_ (fun _ _ => ?_) | refine OnlyNext.next ?_ | refine OnlyNext.fault _ | refine OnlyNext.ite ?_ ?_
    | refine Only.ite ?_ ?_ | (fail_if_no_progress refine Only.upd rfl ?_ rfl) | split | dsimp only | intro _)

theorem execFlowStateExpiry_only (port : Port) (src : BitVec 12) (dst : BitVec 12) (pol : Option PolId) (s : State) :
    OnlyNext { lineA := true, lineB := true } s (execFlowStateExpiry port src dst pol s) := by
  unfold execFlowStateExpiry
  repeat' (with_reducible first
    | exact Only.refl _ _ | refine (State.modPort_only ..).after ?_ rfl | refine OnlyNext.next ?_ | refine OnlyNext.fault _
    | refine OnlyNext.ite ?_ ?_ | refine Only.ite ?_ ?_ | (fail_if_no_progress refine Only.upd rfl ?_ rfl) | split | dsimp only
    | intro _)

theorem execLineFrameBad_only (f : LineRx) (s : State) :
    OnlyNext { lineA := true, lineB := true } s (execLineFrameBad f s) := by
  unfold execLineFrameBad
  repeat' (with_reducible first
    | exact Only.refl _ _ | refine (State.countPort_only ..).after ?_ rfl | refine OnlyNext.next ?_ | refine OnlyNext.fault _
    | refine OnlyNext.ite ?_ ?_ | refine Only.ite ?_ ?_ | (fail_if_no_progress refine Only.upd rfl ?_ rfl) | split | dsimp only
    | intro _)

theorem State.noteRepair_only (r : Repair) (s : State) :
    Only { wheel := true } s (State.noteRepair r s) := by
  unfold State.noteRepair
  repeat' (with_reducible first
    | exact Only.refl _ _ | refine Only.ite ?_ ?_ | (fail_if_no_progress refine Only.upd rfl ?_ rfl) | split | dsimp only | intro _)

theorem State.compareShadow_only (x : Slot) (k : Nat) (columns spares : List Conversion) (s : State) (g : Nat) :
    Only { clock := true, wheel := true, cols := true, pols := true, arr := true } s (State.compareShadow x k columns spares s g) := by
  unfold State.compareShadow
  repeat' (with_reducible first
    | exact Only.refl _ _ | refine (State.declareReplaced_only ..).after ?_ rfl | refine (State.noteRepair_only ..).after ?_ rfl
    | refine Only.ite ?_ ?_ | (fail_if_no_progress refine Only.upd rfl ?_ rfl) | split | dsimp only | intro _)

theorem execRowRead_only (columns : List Conversion) (spares : List Conversion) (s : State) :
    OnlyNext { clock := true, wheel := true, lands := true, cols := true, pols := true, arr := true, wheelCore := true }
      s (execRowRead columns spares s) := by
  unfold execRowRead
  repeat' (with_reducible first
    | exact Only.refl _ _ | refine (State.storeColumns_only ..).after ?_ rfl | refine (State.compareShadow_only ..).after ?_ rfl
    | refine Only.foldl _ _ ?_ (fun _ _ => ?_) | refine OnlyNext.next ?_ | refine OnlyNext.fault _ | refine OnlyNext.ite ?_ ?_
    | refine Only.ite ?_ ?_ | (fail_if_no_progress refine Only.upd rfl ?_ rfl) | split | dsimp only | intro _)

theorem State.occEvents_only (p : PolId) (f : W32) (old new : Vector OccMachine 4) (s : State) :
    Only { clock := true, pols := true, arr := true } s (State.occEvents p f old new s) := by
  unfold State.occEvents
  repeat' (with_reducible first
    | exact Only.refl _ _ | refine (State.eventAt_only ..).after ?_ rfl | refine Only.foldl _ _ ?_ (fun _ _ => ?_) | refine Only.ite ?_ ?_
    | (fail_if_no_progress refine Only.upd rfl ?_ rfl) | split | dsimp only | intro _)

theorem State.daliOccupancy_only (occ : Vector OccMachine 4) (s : State) :
    Only { dali := true } s (State.daliOccupancy occ s) := by
  unfold State.daliOccupancy
  repeat' (with_reducible first
    | exact Only.refl _ _ | refine (State.daliEvent_only ..).after ?_ rfl | refine Only.ite ?_ ?_
    | (fail_if_no_progress refine Only.upd rfl ?_ rfl) | split | dsimp only | intro _)

theorem State.daliLight_only (lux : List Frac) (s : State) :
    Only { freeCtr := true, dali := true } s (State.daliLight lux s) := by
  unfold State.daliLight
  repeat' (with_reducible first
    | exact Only.refl _ _ | refine (State.drawn_only ..).after ?_ rfl | refine (State.daliEvent_only ..).after ?_ rfl
    | refine Only.ite ?_ ?_ | (fail_if_no_progress refine Only.upd rfl ?_ rfl) | split | dsimp only | intro _)

theorem State.daliUpdate_only (p : PolId) (evaluated : Bool) (occ : Vector OccMachine 4) (lux : List Frac) (s : State) :
    Only { freeCtr := true, dali := true } s (State.daliUpdate p evaluated occ lux s) := by
  unfold State.daliUpdate
  repeat' (with_reducible first
    | exact Only.refl _ _ | refine (State.daliOccupancy_only ..).after ?_ rfl | refine (State.daliLight_only ..).after ?_ rfl
    | refine Only.ite ?_ ?_ | (fail_if_no_progress refine Only.upd rfl ?_ rfl) | split | dsimp only | intro _)

theorem State.leaveStats_only (x : Slot) (p : PolId) (te : Tb) (replaced : Option (Vector OccMachine 4)) (s : State) :
    Only { freeCtr := true, clock := true, wheel := true, pols := true, arr := true, dali := true, wheelCore := true }
      s (State.leaveStats x p te replaced s) := by
  unfold State.leaveStats
  repeat' (with_reducible first
    | exact Only.refl _ _ | refine State.modPol_only.after ?_ rfl | refine (State.occEvents_only ..).after ?_ rfl
    | refine (State.daliUpdate_only ..).after ?_ rfl | refine Only.ite ?_ ?_ | (fail_if_no_progress refine Only.upd rfl ?_ rfl) | split
    | dsimp only | intro _)

theorem State.leaveVoid_only (x : Slot) (p : PolId) (reason : Nat) (s : State) :
    Only { wheel := true, pols := true, wheelCore := true } s (State.leaveVoid x p reason s) := by
  unfold State.leaveVoid
  repeat' (with_reducible first
    | exact Only.refl _ _ | refine State.modPol_only.after ?_ rfl | refine Only.ite ?_ ?_ | (fail_if_no_progress refine Only.upd rfl ?_ rfl)
    | split | dsimp only | intro _)

theorem execRecordLeavesFork_only (s : State) :
    OnlyNext { freeCtr := true, clock := true, wheel := true, cols := true, pols := true, arr := true, dali := true, wheelCore := true
               } s (execRecordLeavesFork s) := by
  unfold execRecordLeavesFork
  repeat' (with_reducible first
    | exact Only.refl _ _ | refine (State.reportCal_only ..).after ?_ rfl | refine (State.leaveStats_only ..).after ?_ rfl
    | refine (State.leaveVoid_only ..).after ?_ rfl | refine OnlyNext.next ?_ | refine OnlyNext.fault _ | refine OnlyNext.ite ?_ ?_
    | refine Only.ite ?_ ?_ | (fail_if_no_progress refine Only.upd rfl ?_ rfl) | split | dsimp only | intro _)

theorem State.issueDissolved_only (p : PolId) (s : State) :
    Only { pols := true, arr := true } s (State.issueDissolved p s) := by
  unfold State.issueDissolved
  repeat' (with_reducible first
    | exact Only.refl _ _ | refine State.modPol_only.after ?_ rfl | refine (State.issueRecord_only ..).after ?_ rfl | refine Only.ite ?_ ?_
    | (fail_if_no_progress refine Only.upd rfl ?_ rfl) | split | dsimp only | intro _)

theorem execRecordEntersDelivery_only (s : State) :
    OnlyNext { clock := true, wheel := true, pols := true, arr := true, wheelCore := true } s (execRecordEntersDelivery s) := by
  unfold execRecordEntersDelivery
  repeat' (with_reducible first
    | exact Only.refl _ _ | refine (State.issueRecord_only ..).after ?_ rfl | refine (State.issueAll_only ..).after ?_ rfl
    | refine (State.issueDissolved_only ..).after ?_ rfl | refine Only.foldl _ _ ?_ (fun _ _ => ?_) | refine OnlyNext.next ?_
    | refine OnlyNext.fault _ | refine OnlyNext.ite ?_ ?_ | refine Only.ite ?_ ?_ | (fail_if_no_progress refine Only.upd rfl ?_ rfl)
    | split | dsimp only | intro _)

end Sys2Proof.Machine
end

section
/-! PROOFS. What the events of the reeves, the start, the thermal model and the time base touch. -/

namespace Sys2Proof.Machine

variable {T : Touch} {s t : State}

set_option linter.unusedTactic false
set_option linter.unreachableTactic false
set_option linter.unusedVariables false

theorem State.changeRole_only (new : Fin 3) (cause : Nat) (cycle : W32) (s : State) :
    Only { clock := true, pols := true, arr := true, fab := true } s (State.changeRole new cause cycle s) := by
  unfold State.changeRole
  repeat' (with_reducible first
    | exact Only.refl _ _ | refine (State.ownerEvent_only ..).after ?_ rfl | refine Only.ite ?_ ?_
    | (fail_if_no_progress refine Only.upd rfl ?_ rfl) | split | dsimp only | intro _)

theorem State.timeEvent_only (state : Nat) (offset : Int) (s : State) :
    Only { clock := true, pols := true, arr := true } s (State.timeEvent state offset s) := by
  unfold State.timeEvent
  repeat' (with_reducible first
    | exact Only.refl _ _ | refine (State.ownerEvent_only ..).after ?_ rfl | refine Only.ite ?_ ?_
    | (fail_if_no_progress refine Only.upd rfl ?_ rfl) | split | dsimp only | intro _)

theorem State.stopFollowing_only (s : State) :
    Only { clock := true, pols := true, arr := true, fab := true } s (State.stopFollowing s) := by
  unfold State.stopFollowing
  repeat' (with_reducible first
    | exact Only.refl _ _ | refine (State.timeEvent_only ..).after ?_ rfl | refine Only.ite ?_ ?_
    | (fail_if_no_progress refine Only.upd rfl ?_ rfl) | split | dsimp only | intro _)

theorem State.takePhase_only (valid newSource : Bool) (edge : Tb) (period : Nat) (s : State) :
    Only { clock := true, lands := true, pols := true, arr := true } s (State.takePhase valid newSource edge period s) := by
  unfold State.takePhase
  repeat' (with_reducible first
    | exact Only.refl _ _ | refine (State.syncLostEvents_only ..).after ?_ rfl | refine (State.syncOkEvents_only ..).after ?_ rfl
    | refine Only.ite ?_ ?_ | (fail_if_no_progress refine Only.upd rfl ?_ rfl) | split | dsimp only | intro _)

theorem State.loadFabricTime_only (b : BeaconFields) (theta : Int) (s : State) :
    Only { clock := true, pols := true, arr := true, fab := true, tb := true } s (State.loadFabricTime b theta s) := by
  unfold State.loadFabricTime
  repeat' (with_reducible first
    | exact Only.refl _ _ | refine (State.timeEvent_only ..).after ?_ rfl | refine Only.ite ?_ ?_
    | (fail_if_no_progress refine Only.upd rfl ?_ rfl) | split | dsimp only | intro _)

theorem State.slewToFabric_only (theta : Int) (s : State) :
    Only { freeCtr := true, clock := true, pols := true, arr := true, fab := true } s (State.slewToFabric theta s) := by
  unfold State.slewToFabric
  repeat' (with_reducible first
    | exact Only.refl _ _ | refine (State.drawn_only ..).after ?_ rfl | refine (State.timeEvent_only ..).after ?_ rfl
    | refine Only.ite ?_ ?_ | (fail_if_no_progress refine Only.upd rfl ?_ rfl) | split | dsimp only | intro _)

theorem State.followTime_only (b : BeaconFields) (s : State) :
    Only { freeCtr := true, clock := true, pols := true, arr := true, fab := true, tb := true } s (State.followTime b s) := by
  unfold State.followTime
  repeat' (with_reducible first
    | exact Only.refl _ _ | refine (State.timeEvent_only ..).after ?_ rfl | refine (State.loadFabricTime_only ..).after ?_ rfl
    | refine (State.slewToFabric_only ..).after ?_ rfl | refine Only.ite ?_ ?_ | (fail_if_no_progress refine Only.upd rfl ?_ rfl)
    | split | dsimp only | intro _)

theorem State.contendService_only (p : Port) (dst : BitVec 12) (filter byte1 : Nat) (value : BitVec 48) (s : State) :
    Only { freeCtr := true, lineA := true, lineB := true } s (State.contendService p dst filter byte1 value s) := by
  unfold State.contendService
  repeat' (with_reducible first
    | exact Only.refl _ _ | refine (State.contend_only ..).after ?_ rfl | refine Only.ite ?_ ?_
    | (fail_if_no_progress refine Only.upd rfl ?_ rfl) | split | dsimp only | intro _)

theorem State.repeatSwap_only (s : State) :
    Only { freeCtr := true, lineA := true, lineB := true, fab := true } s (State.repeatSwap s) := by
  unfold State.repeatSwap
  repeat' (with_reducible first
    | exact Only.refl _ _ | refine (State.sendService_only ..).after ?_ rfl | refine Only.ite ?_ ?_
    | (fail_if_no_progress refine Only.upd rfl ?_ rfl) | split | dsimp only | intro _)

theorem State.sendDone_only (role : SwapRole) (peer : BitVec 12) (stamp : BitVec 48) (s : State) :
    Only { freeCtr := true, lineA := true, lineB := true, fab := true } s (State.sendDone role peer stamp s) := by
  unfold State.sendDone
  repeat' (with_reducible first
    | exact Only.refl _ _ | refine (State.sendService_only ..).after ?_ rfl | refine Only.ite ?_ ?_
    | (fail_if_no_progress refine Only.upd rfl ?_ rfl) | split | dsimp only | intro _)

theorem State.finishSwap_only (role : SwapRole) (peer : BitVec 12) (stood : BitVec 48) (change : Tb) (s : State) :
    Only { pols := true, fab := true } s (State.finishSwap role peer stood change s) := by
  unfold State.finishSwap
  repeat' (with_reducible first
    | exact Only.refl _ _ | refine (State.readyHeld_only ..).after ?_ rfl | refine Only.ite ?_ ?_
    | (fail_if_no_progress refine Only.upd rfl ?_ rfl) | split | dsimp only | intro _)

theorem State.startHandover_only (role : SwapRole) (peer : BitVec 12) (stamp : BitVec 48) (s : State) :
    Only { freeCtr := true, pols := true, lineA := true, lineB := true, fab := true } s (State.startHandover role peer stamp s) := by
  unfold State.startHandover
  repeat' (with_reducible first
    | exact Only.refl _ _ | refine (State.sendDone_only ..).after ?_ rfl | refine (State.finishSwap_only ..).after ?_ rfl
    | refine Only.ite ?_ ?_ | (fail_if_no_progress refine Only.upd rfl ?_ rfl) | split | dsimp only | intro _)

theorem State.becomeReeve_only (cause : Nat) (cycle : W32) (s : State) :
    Only { clock := true, pols := true, arr := true, fab := true } s (State.becomeReeve cause cycle s) := by
  unfold State.becomeReeve
  repeat' (with_reducible first
    | exact Only.refl _ _ | refine (State.changeRole_only ..).after ?_ rfl | refine (State.stopFollowing_only ..).after ?_ rfl
    | refine Only.ite ?_ ?_ | (fail_if_no_progress refine Only.upd rfl ?_ rfl) | split | dsimp only | intro _)

theorem State.emitBeacon_only (first : Bool) (s : State) :
    Only { freeCtr := true, clock := true, power := true, lands := true, pols := true, arr := true, lineA := true, lineB := true,
           fab := true } s (State.emitBeacon first s) := by
  unfold State.emitBeacon
  repeat' (with_reducible first
    | exact Only.refl _ _ | refine (State.modPort_only ..).after ?_ rfl | refine (State.drawn_only ..).after ?_ rfl
    | refine (State.decidePortMode_only ..).after ?_ rfl | refine (State.newCycle_only ..).after ?_ rfl
    | refine (State.putLine_only ..).after ?_ rfl | refine (State.takePhase_only ..).after ?_ rfl
    | refine (State.repeatSwap_only ..).after ?_ rfl | refine Only.ite ?_ ?_ | (fail_if_no_progress refine Only.upd rfl ?_ rfl) | split
    | dsimp only | intro _)

theorem State.handoverAtBeacon_only (s : State) :
    Only { clock := true, pols := true, arr := true, fab := true } s (State.handoverAtBeacon s).2 := by
  unfold State.handoverAtBeacon
  repeat' (with_reducible first
    | exact Only.refl _ _ | refine (State.changeRole_only ..).after ?_ rfl | refine (State.becomeReeve_only ..).after ?_ rfl
    | refine Only.ite ?_ ?_ | (fail_if_no_progress refine Only.upd rfl ?_ rfl) | split | dsimp only | intro _)

theorem State.handoverAfterBeacon_only (s : State) :
    Only { fab := true } s (State.handoverAfterBeacon s) := by
  unfold State.handoverAfterBeacon
  repeat' (with_reducible first
    | exact Only.refl _ _ | refine Only.ite ?_ ?_ | (fail_if_no_progress refine Only.upd rfl ?_ rfl) | split | dsimp only | intro _)

theorem execBeaconTx_only (s : State) :
    OnlyNext { freeCtr := true, clock := true, power := true, lands := true, pols := true, arr := true, lineA := true, lineB := true,
               fab := true } s (execBeaconTx s) := by
  unfold execBeaconTx
  repeat' (with_reducible first
    | exact Only.refl _ _ | refine (State.emitBeacon_only ..).after ?_ rfl | refine (State.handoverAtBeacon_only ..).after ?_ rfl
    | refine (State.handoverAfterBeacon_only ..).after ?_ rfl | refine OnlyNext.next ?_ | refine OnlyNext.fault _
    | refine OnlyNext.ite ?_ ?_ | refine Only.ite ?_ ?_ | (fail_if_no_progress refine Only.upd rfl ?_ rfl) | split | dsimp only
    | refine Only.snd (by assumption) ?_ | intro _)

theorem State.findHome_only (p : Port) (b : BeaconFields) (s : State) :
    Only { fab := true } s (State.findHome p b s) := by
  unfold State.findHome
  repeat' (with_reducible first
    | exact Only.refl _ _ | refine Only.ite ?_ ?_ | (fail_if_no_progress refine Only.upd rfl ?_ rfl) | split | dsimp only | intro _)

theorem State.takeGrant_only (b : BeaconFields) (s : State) :
    Only { clock := true, pols := true, arr := true, fab := true, early := true } s (State.takeGrant b s) := by
  unfold State.takeGrant
  repeat' (with_reducible first
    | exact Only.refl _ _ | refine (State.patientEvent_only ..).after ?_ rfl | refine Only.ite ?_ ?_
    | (fail_if_no_progress refine Only.upd rfl ?_ rfl) | split | dsimp only | intro _)

theorem State.judgeMismatch_only (p : Port) (b : BeaconFields) (s : State) :
    Only { freeCtr := true, clock := true, pols := true, arr := true, lineA := true, lineB := true, early := true }
      s (State.judgeMismatch p b s) := by
  unfold State.judgeMismatch
  repeat' (with_reducible first
    | exact Only.refl _ _ | refine (State.modPort_only ..).after ?_ rfl | refine (State.patientEvent_only ..).after ?_ rfl
    | refine (State.queueJoin_only ..).after ?_ rfl | refine Only.ite ?_ ?_ | (fail_if_no_progress refine Only.upd rfl ?_ rfl) | split
    | dsimp only | intro _)

theorem State.keepBeacon_only (p : Port) (h : Heard) (b : BeaconFields) (s : State) :
    Only { freeCtr := true, lineA := true, lineB := true, fab := true } s (State.keepBeacon p h b s) := by
  unfold State.keepBeacon
  repeat' (with_reducible first
    | exact Only.refl _ _ | refine (State.modPort_only ..).after ?_ rfl | refine (State.newCycle_only ..).after ?_ rfl
    | refine (State.queueJoin_only ..).after ?_ rfl | refine Only.ite ?_ ?_ | (fail_if_no_progress refine Only.upd rfl ?_ rfl) | split
    | dsimp only | intro _)

theorem State.keepRoot_only (b : BeaconFields) (s : State) :
    Only { arr := true } s (State.keepRoot b s) := by
  unfold State.keepRoot
  repeat' (with_reducible first
    | exact Only.refl _ _ | refine (State.requestItem_only ..).after ?_ rfl | refine Only.ite ?_ ?_
    | (fail_if_no_progress refine Only.upd rfl ?_ rfl) | split | dsimp only | intro _)

theorem State.keepPeriod_only (b : BeaconFields) (s : State) :
    Only { arr := true } s (State.keepPeriod b s) := by
  unfold State.keepPeriod
  repeat' (with_reducible first
    | exact Only.refl _ _ | refine (State.requestItem_only ..).after ?_ rfl | refine Only.ite ?_ ?_
    | (fail_if_no_progress refine Only.upd rfl ?_ rfl) | split | dsimp only | intro _)

theorem State.followBeacon_only (may newSource : Bool) (b : BeaconFields) (s : State) :
    Only { freeCtr := true, clock := true, lands := true, pols := true, arr := true, fab := true, tb := true }
      s (State.followBeacon may newSource b s) := by
  unfold State.followBeacon
  repeat' (with_reducible first
    | exact Only.refl _ _ | refine (State.stopFollowing_only ..).after ?_ rfl | refine (State.takePhase_only ..).after ?_ rfl
    | refine (State.followTime_only ..).after ?_ rfl | refine Only.ite ?_ ?_ | (fail_if_no_progress refine Only.upd rfl ?_ rfl) | split
    | dsimp only | intro _)

theorem State.completeHandover_only (x : Handover) (b : BeaconFields) (s : State) :
    Only { clock := true, pols := true, arr := true, fab := true } s (State.completeHandover x b s) := by
  unfold State.completeHandover
  repeat' (with_reducible first
    | exact Only.refl _ _ | refine (State.changeRole_only ..).after ?_ rfl | refine (State.finishSwap_only ..).after ?_ rfl
    | refine Only.ite ?_ ?_ | (fail_if_no_progress refine Only.upd rfl ?_ rfl) | split | dsimp only | intro _)

theorem State.takeHandover_only (h : Heard) (b : BeaconFields) (s : State) :
    Only { fab := true } s (State.takeHandover h b s) := by
  unfold State.takeHandover
  repeat' (with_reducible first
    | exact Only.refl _ _ | refine Only.ite ?_ ?_ | (fail_if_no_progress refine Only.upd rfl ?_ rfl) | split | dsimp only | intro _)

theorem State.meetBeacon_only (h : Heard) (b : BeaconFields) (s : State) :
    Only { clock := true, pols := true, arr := true, fab := true } s (State.meetBeacon h b s).2 := by
  unfold State.meetBeacon
  repeat' (with_reducible first
    | exact Only.refl _ _ | refine (State.changeRole_only ..).after ?_ rfl | refine (State.completeHandover_only ..).after ?_ rfl
    | refine Only.ite ?_ ?_ | (fail_if_no_progress refine Only.upd rfl ?_ rfl) | split | dsimp only | intro _)

theorem State.homeBeacon_only (p : Port) (h : Heard) (b : BeaconFields) (s : State) :
    Only { freeCtr := true, clock := true, lands := true, pols := true, arr := true, lineA := true, lineB := true, fab := true,
           tb := true } s (State.homeBeacon p h b s) := by
  unfold State.homeBeacon
  repeat' (with_reducible first
    | exact Only.refl _ _ | refine (State.repeatSwap_only ..).after ?_ rfl | refine (State.keepBeacon_only ..).after ?_ rfl
    | refine (State.keepRoot_only ..).after ?_ rfl | refine (State.followBeacon_only ..).after ?_ rfl
    | refine (State.takeHandover_only ..).after ?_ rfl | refine (State.meetBeacon_only ..).after ?_ rfl | refine Only.ite ?_ ?_
    | (fail_if_no_progress refine Only.upd rfl ?_ rfl) | split | dsimp only | refine Only.snd (by assumption) ?_ | intro _)

theorem State.farBeacon_only (p : Port) (h : Heard) (b : BeaconFields) (s : State) :
    Only { freeCtr := true, clock := true, lands := true, pols := true, arr := true, lineA := true, lineB := true, fab := true,
           tb := true } s (State.farBeacon p h b s) := by
  unfold State.farBeacon
  repeat' (with_reducible first
    | exact Only.refl _ _ | refine (State.keepBeacon_only ..).after ?_ rfl | refine (State.followBeacon_only ..).after ?_ rfl
    | refine Only.ite ?_ ?_ | (fail_if_no_progress refine Only.upd rfl ?_ rfl) | split | dsimp only | intro _)

theorem State.takeBeacon_only (h : Heard) (b : BeaconFields) (s : State) :
    Only { freeCtr := true, clock := true, power := true, lands := true, pols := true, arr := true, lineA := true, lineB := true,
           fab := true, early := true, tb := true } s (State.takeBeacon h b s) := by
  unfold State.takeBeacon
  repeat' (with_reducible first
    | exact Only.refl _ _ | refine (State.modPort_only ..).after ?_ rfl | refine (State.decidePortMode_only ..).after ?_ rfl
    | refine (State.rxOk_only ..).after ?_ rfl | refine (State.noteUid_only ..).after ?_ rfl
    | refine (State.findHome_only ..).after ?_ rfl | refine (State.takeGrant_only ..).after ?_ rfl
    | refine (State.judgeMismatch_only ..).after ?_ rfl | refine (State.keepPeriod_only ..).after ?_ rfl
    | refine (State.homeBeacon_only ..).after ?_ rfl | refine (State.farBeacon_only ..).after ?_ rfl | refine Only.ite ?_ ?_
    | (fail_if_no_progress refine Only.upd rfl ?_ rfl) | split | dsimp only | intro _)

theorem execBeacon_only (f : LineRx) (s : State) :
    OnlyNext { freeCtr := true, clock := true, power := true, lands := true, pols := true, arr := true, lineA := true, lineB := true,
               fab := true, early := true, tb := true } s (execBeacon f s) := by
  unfold execBeacon
  repeat' (with_reducible first
    | exact Only.refl _ _ | refine (State.countPort_only ..).after ?_ rfl | refine State.keyed_only rfl (fun _ _ => ?_)
    | refine (State.takeBeacon_only ..).after ?_ rfl | refine OnlyNext.next ?_ | refine OnlyNext.fault _ | refine OnlyNext.ite ?_ ?_
    | refine Only.ite ?_ ?_ | (fail_if_no_progress refine Only.upd rfl ?_ rfl) | split | dsimp only | intro _)

theorem State.resumeRole_only (p : Port) (s : State) :
    Only { clock := true, pols := true, arr := true, fab := true } s (State.resumeRole p s) := by
  unfold State.resumeRole
  repeat' (with_reducible first
    | exact Only.refl _ _ | refine (State.changeRole_only ..).after ?_ rfl | refine Only.ite ?_ ?_
    | (fail_if_no_progress refine Only.upd rfl ?_ rfl) | split | dsimp only | intro _)

theorem State.loseTime_only (p : Port) (s : State) :
    Only { clock := true, lands := true, pols := true, arr := true, fab := true } s (State.loseTime p s) := by
  unfold State.loseTime
  repeat' (with_reducible first
    | exact Only.refl _ _ | refine (State.stopFollowing_only ..).after ?_ rfl | refine (State.takePhase_only ..).after ?_ rfl
    | refine Only.ite ?_ ?_ | (fail_if_no_progress refine Only.upd rfl ?_ rfl) | split | dsimp only | intro _)

theorem execBeaconMissed_only (port : Port) (s : State) :
    OnlyNext { freeCtr := true, clock := true, lands := true, pols := true, arr := true, lineA := true, lineB := true, fab := true }
      s (execBeaconMissed port s) := by
  unfold execBeaconMissed
  repeat' (with_reducible first
    | exact Only.refl _ _ | refine (State.modPort_only ..).after ?_ rfl | refine (State.countPort_only ..).after ?_ rfl
    | refine (State.repeatSwap_only ..).after ?_ rfl | refine (State.resumeRole_only ..).after ?_ rfl
    | refine (State.loseTime_only ..).after ?_ rfl | refine OnlyNext.next ?_ | refine OnlyNext.fault _ | refine OnlyNext.ite ?_ ?_
    | refine Only.ite ?_ ?_ | (fail_if_no_progress refine Only.upd rfl ?_ rfl) | split | dsimp only | intro _)

theorem execReevePresumedLost_only (port : Port) (s : State) :
    OnlyNext { clock := true, pols := true, arr := true, fab := true } s (execReevePresumedLost port s) := by
  unfold execReevePresumedLost
  repeat' (with_reducible first
    | exact Only.refl _ _ | refine (State.ownerEvent_only ..).after ?_ rfl | refine OnlyNext.next ?_ | refine OnlyNext.fault _
    | refine OnlyNext.ite ?_ ?_ | refine Only.ite ?_ ?_ | (fail_if_no_progress refine Only.upd rfl ?_ rfl) | split | dsimp only
    | intro _)

theorem execElectionDelayExpired_only (collided : Bool) (s : State) :
    OnlyNext { freeCtr := true, clock := true, power := true, lands := true, pols := true, arr := true, lineA := true, lineB := true,
               fab := true } s (execElectionDelayExpired collided s) := by
  unfold execElectionDelayExpired
  repeat' (with_reducible first
    | exact Only.refl _ _ | refine (State.countPort_only ..).after ?_ rfl | refine (State.drawn_only ..).after ?_ rfl
    | refine (State.becomeReeve_only ..).after ?_ rfl | refine (State.emitBeacon_only ..).after ?_ rfl | refine OnlyNext.next ?_
    | refine OnlyNext.fault _ | refine OnlyNext.ite ?_ ?_ | refine Only.ite ?_ ?_ | (fail_if_no_progress refine Only.upd rfl ?_ rfl)
    | split | dsimp only | intro _)

theorem State.service_only {f : LineRx} {filter : Nat} {act : Heard → State → State} (hT : Touch.hearing.le T = true)
    (hr : T.resets = false) (hs : s.waitsCarry .sysReset = false) (hact : ∀ h t, Only T t (act h t)) : Only T s (State.service f filter act s) := by
  have hhop : ∀ h pol body t, Only T t (t.receiveHop h pol body).2 := fun h pol body t =>
    ((State.receiveHop_only ..).mono (B := Touch.hearing) rfl).mono hT
  have hkeyed := Touch.le_trans (A := { lineA := true, lineB := true }) rfl hT
  unfold State.service
  refine State.heardOn_only hT hr hs fun h t => State.keyed_only hkeyed fun h t => ?_
  split
  · next e => exact Only.ite ((Only.snd e (hhop ..)).trans (hact _ _)) (Only.snd e (hhop ..))
  · next e => exact Only.snd e (hhop ..)


theorem State.swapService_only {f : LineRx} {filter : Nat} {act : Heard → SwapRole → BitVec 48 → State → State}
    (hT : Touch.hearing.le T = true) (hr : T.resets = false) (hs : s.waitsCarry .sysReset = false) (hact : ∀ h r x t, Only T t (act h r x t)) :
    Only T s (State.swapService f filter act s) := by
  unfold State.swapService
  refine State.service_only hT hr hs fun h t => ?_
  split
  · exact hact _ _ _ _
  · exact Only.refl _ _


theorem execRangeReq_only (f : LineRx) (roundTrip : Nat) (s : State) (hs : s.waitsCarry .sysReset = false) :
    OnlyNext { freeCtr := true, clock := true, pols := true, arr := true, lineA := true, lineB := true, fab := true, carries := true,
               early := true } s (execRangeReq f roundTrip s) := by
  unfold execRangeReq
  repeat' (with_reducible first
    | exact Only.refl _ _ | refine (State.contendService_only ..).after ?_ rfl | refine State.service_only rfl rfl hs (fun _ _ => ?_)
    | refine OnlyNext.next ?_ | refine OnlyNext.fault _ | refine OnlyNext.ite ?_ ?_ | refine Only.ite ?_ ?_
    | (fail_if_no_progress refine Only.upd rfl ?_ rfl) | split | dsimp only | intro _)

theorem execRangeEcho_only (f : LineRx) (s : State) (hs : s.waitsCarry .sysReset = false) :
    OnlyNext { freeCtr := true, clock := true, pols := true, arr := true, lineA := true, lineB := true, fab := true, carries := true,
               early := true } s (execRangeEcho f s) := by
  unfold execRangeEcho
  repeat' (with_reducible first
    | exact Only.refl _ _ | refine State.service_only rfl rfl hs (fun _ _ => ?_) | refine OnlyNext.next ?_ | refine OnlyNext.fault _
    | refine OnlyNext.ite ?_ ?_ | refine Only.ite ?_ ?_ | (fail_if_no_progress refine Only.upd rfl ?_ rfl) | split | dsimp only
    | intro _)

theorem execRangeReqTimer_only (s : State) :
    OnlyNext { freeCtr := true, lineA := true, lineB := true } s (execRangeReqTimer s) := by
  unfold execRangeReqTimer
  repeat' (with_reducible first
    | exact Only.refl _ _ | refine (State.contendService_only ..).after ?_ rfl | refine OnlyNext.next ?_ | refine OnlyNext.fault _
    | refine OnlyNext.ite ?_ ?_ | refine Only.ite ?_ ?_ | (fail_if_no_progress refine Only.upd rfl ?_ rfl) | split | dsimp only
    | intro _)

theorem State.answerSwap_only (role : SwapRole) (peer : BitVec 12) (stamp : BitVec 48) (s : State) :
    Only { freeCtr := true, lineA := true, lineB := true, fab := true } s (State.answerSwap role peer stamp s) := by
  unfold State.answerSwap
  repeat' (with_reducible first
    | exact Only.refl _ _ | refine (State.sendService_only ..).after ?_ rfl | refine Only.ite ?_ ?_
    | (fail_if_no_progress refine Only.upd rfl ?_ rfl) | split | dsimp only | intro _)

theorem State.serveSwap_only (role : SwapRole) (peer : BitVec 12) (stamp : BitVec 48) (s : State) :
    Only { freeCtr := true, pols := true, lineA := true, lineB := true, fab := true } s (State.serveSwap role peer stamp s) := by
  unfold State.serveSwap
  repeat' (with_reducible first
    | exact Only.refl _ _ | refine (State.startHandover_only ..).after ?_ rfl | refine (State.answerSwap_only ..).after ?_ rfl
    | refine Only.ite ?_ ?_ | (fail_if_no_progress refine Only.upd rfl ?_ rfl) | split | dsimp only | intro _)

theorem State.crossSwap_only (w : SwapPending) (stamp : BitVec 48) (s : State) :
    Only { freeCtr := true, pols := true, lineA := true, lineB := true, fab := true } s (State.crossSwap w stamp s) := by
  unfold State.crossSwap
  repeat' (with_reducible first
    | exact Only.refl _ _ | refine (State.drawn_only ..).after ?_ rfl | refine (State.startHandover_only ..).after ?_ rfl
    | refine (State.serveSwap_only ..).after ?_ rfl | refine Only.ite ?_ ?_ | (fail_if_no_progress refine Only.upd rfl ?_ rfl) | split
    | dsimp only | intro _)

theorem execSwapReq_only (f : LineRx) (s : State) (hs : s.waitsCarry .sysReset = false) :
    OnlyNext { freeCtr := true, clock := true, pols := true, arr := true, lineA := true, lineB := true, fab := true, carries := true,
               early := true } s (execSwapReq f s) := by
  unfold execSwapReq
  repeat' (with_reducible first
    | exact Only.refl _ _ | refine (State.sendService_only ..).after ?_ rfl | refine State.swapService_only rfl rfl hs (fun _ _ _ _ => ?_)
    | refine (State.serveSwap_only ..).after ?_ rfl | refine (State.crossSwap_only ..).after ?_ rfl | refine OnlyNext.next ?_
    | refine OnlyNext.fault _ | refine OnlyNext.ite ?_ ?_ | refine Only.ite ?_ ?_ | (fail_if_no_progress refine Only.upd rfl ?_ rfl)
    | split | dsimp only | intro _)

theorem State.swapAnswered_only (s : State) :
    Only { fab := true } s (State.swapAnswered s) := by
  unfold State.swapAnswered
  repeat' (with_reducible first
    | exact Only.refl _ _ | refine Only.ite ?_ ?_ | (fail_if_no_progress refine Only.upd rfl ?_ rfl) | split | dsimp only | intro _)

theorem State.swapRefused_only (s : State) :
    Only { pols := true, fab := true } s (State.swapRefused s) := by
  unfold State.swapRefused
  repeat' (with_reducible first
    | exact Only.refl _ _ | refine (State.readyHeld_only ..).after ?_ rfl | refine Only.ite ?_ ?_
    | (fail_if_no_progress refine Only.upd rfl ?_ rfl) | split | dsimp only | intro _)

theorem execSwapReady_only (f : LineRx) (s : State) (hs : s.waitsCarry .sysReset = false) :
    OnlyNext { freeCtr := true, clock := true, pols := true, arr := true, lineA := true, lineB := true, fab := true, carries := true,
               early := true } s (execSwapReady f s) := by
  unfold execSwapReady
  repeat' (with_reducible first
    | exact Only.refl _ _ | refine (State.startHandover_only ..).after ?_ rfl | refine State.swapService_only rfl rfl hs (fun _ _ _ _ => ?_)
    | refine (State.swapAnswered_only ..).after ?_ rfl | refine (State.swapRefused_only ..).after ?_ rfl | refine OnlyNext.next ?_
    | refine OnlyNext.fault _ | refine OnlyNext.ite ?_ ?_ | refine Only.ite ?_ ?_ | (fail_if_no_progress refine Only.upd rfl ?_ rfl)
    | split | dsimp only | intro _)

theorem execSwapNot_only (f : LineRx) (s : State) (hs : s.waitsCarry .sysReset = false) :
    OnlyNext { freeCtr := true, clock := true, pols := true, arr := true, lineA := true, lineB := true, fab := true, carries := true,
               early := true } s (execSwapNot f s) := by
  unfold execSwapNot
  repeat' (with_reducible first
    | exact Only.refl _ _ | refine State.swapService_only rfl rfl hs (fun _ _ _ _ => ?_) | refine (State.swapRefused_only ..).after ?_ rfl
    | refine OnlyNext.next ?_ | refine OnlyNext.fault _ | refine OnlyNext.ite ?_ ?_ | refine Only.ite ?_ ?_
    | (fail_if_no_progress refine Only.upd rfl ?_ rfl) | split | dsimp only | intro _)

theorem execSwapDone_only (f : LineRx) (s : State) (hs : s.waitsCarry .sysReset = false) :
    OnlyNext { freeCtr := true, clock := true, pols := true, arr := true, lineA := true, lineB := true, fab := true, carries := true,
               early := true } s (execSwapDone f s) := by
  unfold execSwapDone
  repeat' (with_reducible first
    | exact Only.refl _ _ | refine (State.finishSwap_only ..).after ?_ rfl | refine State.swapService_only rfl rfl hs (fun _ _ _ _ => ?_)
    | refine OnlyNext.next ?_ | refine OnlyNext.fault _ | refine OnlyNext.ite ?_ ?_ | refine Only.ite ?_ ?_
    | (fail_if_no_progress refine Only.upd rfl ?_ rfl) | split | dsimp only | intro _)

theorem execRoleSwapTimeout_only (s : State) :
    OnlyNext { pols := true, fab := true } s (execRoleSwapTimeout s) := by
  unfold execRoleSwapTimeout
  repeat' (with_reducible first
    | exact Only.refl _ _ | refine (State.readyHeld_only ..).after ?_ rfl | refine OnlyNext.next ?_ | refine OnlyNext.fault _
    | refine OnlyNext.ite ?_ ?_ | refine Only.ite ?_ ?_ | (fail_if_no_progress refine Only.upd rfl ?_ rfl) | split | dsimp only
    | intro _)

theorem execLinePowerLost_only (s : State) :
    OnlyNext { power := true, wheel := true, lands := true, arr := true, doms := true, wheelCore := true } s (execLinePowerLost s) := by
  unfold execLinePowerLost
  repeat' (with_reducible first
    | exact Only.refl _ _ | refine OnlyNext.next ?_ | refine OnlyNext.fault _ | refine OnlyNext.ite ?_ ?_ | refine Only.ite ?_ ?_
    | (fail_if_no_progress refine Only.upd rfl ?_ rfl) | split | dsimp only | intro _)

theorem execPortPresenceChange_only (port : Port) (millivolts : Nat) (s : State) :
    OnlyNext { clock := true, power := true, pols := true, arr := true } s (execPortPresenceChange port millivolts s) := by
  unfold execPortPresenceChange
  refine OnlyNext.ite (OnlyNext.fault _) (OnlyNext.next ((State.decidePortMode_only ..).after ?_ rfl))
  cases port <;> exact Only.upd rfl (Only.refl _ _) rfl


theorem State.sampleStraps_only (straps : Straps) (vioPresent : Bool) (s : State) :
    Only { lands := true } s (State.sampleStraps straps vioPresent s) := by
  unfold State.sampleStraps
  repeat' (with_reducible first
    | exact Only.refl _ _ | refine Only.ite ?_ ?_ | (fail_if_no_progress refine Only.upd rfl ?_ rfl) | split | dsimp only | intro _)

theorem State.setVio_only (lost : Bool) (s : State) :
    Only { clock := true, power := true, wheel := true, pols := true, arr := true, host := true, jtag := true, early := true }
      s (State.setVio lost s) := by
  unfold State.setVio
  repeat' (with_reducible first
    | exact Only.refl _ _ | refine (State.silencePix_only ..).after ?_ rfl | refine (State.patientEvent_only ..).after ?_ rfl
    | refine (State.endXfer_only ..).after ?_ rfl | refine Only.ite ?_ ?_ | (fail_if_no_progress refine Only.upd rfl ?_ rfl) | split
    | dsimp only | intro _)

theorem execAonReady_only (straps : Straps) (vioPresent : Bool) (s : State) :
    OnlyNext { clock := true, power := true, wheel := true, lands := true, pols := true, arr := true, host := true, jtag := true,
               early := true, tb := true } s (execAonReady straps vioPresent s) := by
  unfold execAonReady
  repeat' (with_reducible first
    | exact Only.refl _ _ | refine (State.sampleStraps_only ..).after ?_ rfl | refine (State.setVio_only ..).after ?_ rfl
    | refine OnlyNext.next ?_ | refine OnlyNext.fault _ | refine OnlyNext.ite ?_ ?_ | refine Only.ite ?_ ?_
    | (fail_if_no_progress refine Only.upd rfl ?_ rfl) | split | dsimp only | intro _)

theorem execResetNRelease_only (straps : Straps) (vioPresent : Bool) (s : State) :
    OnlyNext { clock := true, power := true, wheel := true, lands := true, pols := true, arr := true, host := true, jtag := true,
               restartCause := true, early := true, tb := true } s (execResetNRelease straps vioPresent s) := by
  unfold execResetNRelease
  repeat' (with_reducible first
    | exact Only.refl _ _ | refine (State.sampleStraps_only ..).after ?_ rfl | refine (State.setVio_only ..).after ?_ rfl
    | refine OnlyNext.next ?_ | refine OnlyNext.fault _ | refine OnlyNext.ite ?_ ?_ | refine Only.ite ?_ ?_
    | (fail_if_no_progress refine Only.upd rfl ?_ rfl) | split | dsimp only | intro _)

theorem execVauxTrip_only (s : State) :
    OnlyNext { clock := true, power := true, pols := true, arr := true, early := true } s (execVauxTrip s) := by
  unfold execVauxTrip
  repeat' (with_reducible first
    | exact Only.refl _ _ | refine (State.supplyEvent_only ..).after ?_ rfl | refine OnlyNext.next ?_ | refine OnlyNext.fault _
    | refine OnlyNext.ite ?_ ?_ | refine Only.ite ?_ ?_ | (fail_if_no_progress refine Only.upd rfl ?_ rfl) | split | dsimp only
    | intro _)

theorem execVauxRetry_only (limiting : Bool) (s : State) :
    OnlyNext { clock := true, power := true, pols := true, arr := true, early := true } s (execVauxRetry limiting s) := by
  unfold execVauxRetry
  repeat' (with_reducible first
    | exact Only.refl _ _ | refine (State.supplyEvent_only ..).after ?_ rfl | refine OnlyNext.next ?_ | refine OnlyNext.fault _
    | refine OnlyNext.ite ?_ ?_ | refine Only.ite ?_ ?_ | (fail_if_no_progress refine Only.upd rfl ?_ rfl) | split | dsimp only
    | intro _)

theorem execVioLost_only (s : State) :
    OnlyNext { clock := true, power := true, wheel := true, pols := true, arr := true, host := true, jtag := true, early := true }
      s (execVioLost s) := by
  unfold execVioLost
  repeat' (with_reducible first
    | exact Only.refl _ _ | refine (State.setVio_only ..).after ?_ rfl | refine OnlyNext.next ?_ | refine OnlyNext.fault _
    | refine OnlyNext.ite ?_ ?_ | refine Only.ite ?_ ?_ | (fail_if_no_progress refine Only.upd rfl ?_ rfl) | split | dsimp only
    | intro _)

theorem execVioRestored_only (s : State) :
    OnlyNext { clock := true, power := true, wheel := true, pols := true, arr := true, host := true, jtag := true, early := true }
      s (execVioRestored s) := by
  unfold execVioRestored
  repeat' (with_reducible first
    | exact Only.refl _ _ | refine (State.setVio_only ..).after ?_ rfl | refine OnlyNext.next ?_ | refine OnlyNext.fault _
    | refine OnlyNext.ite ?_ ?_ | refine Only.ite ?_ ?_ | (fail_if_no_progress refine Only.upd rfl ?_ rfl) | split | dsimp only
    | intro _)

theorem State.loadItems_only (s : State) :
    Only { wheel := true, cols := true, pols := true, arr := true, dali := true, fab := true, early := true, wheelCore := true }
      s (State.loadItems s) := by
  unfold State.loadItems
  repeat' (with_reducible first
    | exact Only.refl _ _ | refine Only.ite ?_ ?_ | (fail_if_no_progress refine Only.upd rfl ?_ rfl) | split | dsimp only | intro _)

theorem State.clearFabric_only (s : State) :
    Only { arr := true, life := true } s (State.clearFabric s) := by
  unfold State.clearFabric
  repeat' (with_reducible first
    | exact Only.refl _ _ | refine (State.zeroFabric_only ..).after ?_ rfl | refine Only.ite ?_ ?_
    | (fail_if_no_progress refine Only.upd rfl ?_ rfl) | split | dsimp only | intro _)

theorem State.startTest_only (f : StartFindings) (s : State) :
    Only { clock := true, pols := true, arr := true, bist := true, early := true } s (State.startTest f s) := by
  unfold State.startTest
  repeat' (with_reducible first
    | exact Only.refl _ _ | refine (State.patientEvent_only ..).after ?_ rfl | refine Only.ite ?_ ?_
    | (fail_if_no_progress refine Only.upd rfl ?_ rfl) | split | dsimp only | intro _)

theorem State.announceRestart_only (s : State) :
    Only { clock := true, pols := true, arr := true } s (State.announceRestart s) := by
  unfold State.announceRestart
  repeat' (with_reducible first
    | exact Only.refl _ _ | refine (State.reserveSeq_only ..).after ?_ rfl | refine (State.event_only ..).after ?_ rfl
    | refine Only.foldl _ _ ?_ (fun _ _ => ?_) | refine Only.ite ?_ ?_ | (fail_if_no_progress refine Only.upd rfl ?_ rfl) | split
    | dsimp only | intro _)

theorem State.settleStored_only (s : State) :
    Only { clock := true, pols := true, arr := true } s (State.settleStored s) := by
  unfold State.settleStored
  repeat' (with_reducible first
    | exact Only.refl _ _ | refine State.modPol_only.after ?_ rfl | refine (State.requestItem_only ..).after ?_ rfl
    | refine (State.reserveSeq_only ..).after ?_ rfl | refine (State.ownerEvent_only ..).after ?_ rfl
    | refine (State.issueDissolved_only ..).after ?_ rfl | refine Only.foldl _ _ ?_ (fun _ _ => ?_) | refine Only.ite ?_ ?_
    | (fail_if_no_progress refine Only.upd rfl ?_ rfl) | split | dsimp only | intro _)

theorem State.logStart_only (s : State) :
    Only { arr := true } s (State.logStart s) := by
  unfold State.logStart
  repeat' (with_reducible first
    | exact Only.refl _ _ | refine (State.logEntry_only ..).after ?_ rfl | refine Only.ite ?_ ?_
    | (fail_if_no_progress refine Only.upd rfl ?_ rfl) | split | dsimp only | intro _)

theorem State.runImage_only (f : StartFindings) (i : Fin 2) (s : State) :
    Only { freeCtr := true, clock := true, power := true, pols := true, arr := true, lineA := true, lineB := true, jtag := true,
           early := true } s (State.runImage f i s) := by
  unfold State.runImage
  repeat' (with_reducible first
    | exact Only.refl _ _ | refine (State.requestItem_only ..).after ?_ rfl | refine (State.reserveFrames_only ..).after ?_ rfl
    | refine (State.patientEvent_only ..).after ?_ rfl | refine (State.flushEarly_only ..).after ?_ rfl
    | refine (State.drawBackoff_only ..).after ?_ rfl | refine (State.announceRestart_only ..).after ?_ rfl
    | refine (State.settleStored_only ..).after ?_ rfl | refine (State.logStart_only ..).after ?_ rfl | refine Only.ite ?_ ?_
    | (fail_if_no_progress refine Only.upd rfl ?_ rfl) | split | dsimp only | intro _)

/-- An item loaded is no addressed byte (R271). -/
theorem ArrayS.take_bytes (v : ItemValue) (a : ArrayS) : (a.take v).bytes = a.bytes := by cases v <;> rfl

/-- Loading the items touches no addressed byte (R271, R555). -/
theorem ArrayS.load_bytes (a : ArrayS) : a.load.bytes = a.bytes := by
  have key : ∀ (l : List Nat) (b : ArrayS), (l.foldl (fun b i =>
      match newestCopy i a.copies with
      | some c => b.take c.value
      | none => b) b).bytes = b.bytes := by
    intro l
    induction l with
    | nil => exact fun _ => rfl
    | cons i l ih =>
      intro b
      rw [List.foldl_cons, ih]
      split
      · exact ArrayS.take_bytes _ _
      · rfl
  exact key itemIds a.defaults

/-- What the start of the firmware touches (R112, R672). -/
def Touch.starting : Touch :=
  { freeCtr := true, clock := true, power := true, wheel := true, cols := true, pols := true, arr := true, life := true, bist := true, dali := true,
    lineA := true, lineB := true, fab := true, jtag := true, early := true, lifeCore := true, wheelCore := true }

theorem execFirmwareStart_only (f : StartFindings) (s : State) :
    OnlyNext Touch.starting s (execFirmwareStart f s) := by
  unfold execFirmwareStart
  refine OnlyNext.next (Only.ite (Only.refl _ _) ?_)
  extract_lets s1 c1 s2 selected other
  have h1 : Only { arr := true } s s1 := Only.setArr (ArrayS.load_bytes _)
  have h2 : Only Touch.starting s s2 :=
    (State.startTest_only ..).after ((State.loadItems_only ..).after ((State.clearFabric_only ..).after (Only.upd rfl (h1.mono rfl) rfl) rfl) rfl) rfl
  exact Only.ite h2 (Only.ite ((State.runImage_only ..).after h2 rfl) (Only.ite ((State.runImage_only ..).after h2 rfl) h2))


theorem execCommandsAcceptedStart_only (s : State) :
    OnlyNext { power := true } s (execCommandsAcceptedStart s) := by
  unfold execCommandsAcceptedStart
  repeat' (with_reducible first
    | exact Only.refl _ _ | refine OnlyNext.next ?_ | refine OnlyNext.fault _ | refine OnlyNext.ite ?_ ?_ | refine Only.ite ?_ ?_
    | (fail_if_no_progress refine Only.upd rfl ?_ rfl) | split | dsimp only | intro _)

theorem execDiscoveryWindowEnd_only (s : State) :
    OnlyNext { power := true, lineA := true, lineB := true } s (execDiscoveryWindowEnd s) := by
  unfold execDiscoveryWindowEnd
  repeat' (with_reducible first
    | exact Only.refl _ _ | refine OnlyNext.next ?_ | refine OnlyNext.fault _ | refine OnlyNext.ite ?_ ?_ | refine Only.ite ?_ ?_
    | (fail_if_no_progress refine Only.upd rfl ?_ rfl) | split | dsimp only | intro _)

theorem State.checkMonitor_only (m : ThermReadings) (s : State) (i : Nat) :
    Only { clock := true, pols := true, arr := true, therm := true, thermCore := true } s (State.checkMonitor m s i) := by
  unfold State.checkMonitor
  repeat' (with_reducible first
    | exact Only.refl _ _ | refine (State.ownerEvent_only ..).after ?_ rfl | refine Only.ite ?_ ?_
    | (fail_if_no_progress refine Only.upd rfl ?_ rfl) | split | dsimp only | intro _)

theorem State.checkOverdraw_only (m : ThermReadings) (s : State) (i : Nat) :
    Only { clock := true, pols := true, arr := true, therm := true, thermCore := true } s (State.checkOverdraw m s i) := by
  unfold State.checkOverdraw
  repeat' (with_reducible first
    | exact Only.refl _ _ | refine (State.ownerEvent_only ..).after ?_ rfl | refine Only.ite ?_ ?_
    | (fail_if_no_progress refine Only.upd rfl ?_ rfl) | split | dsimp only | intro _)

theorem State.runModel_only (m : ThermReadings) (s : State) :
    Only { therm := true, thermCore := true } s (State.runModel m s) := by
  unfold State.runModel
  repeat' (with_reducible first
    | exact Only.refl _ _ | refine Only.ite ?_ ?_ | (fail_if_no_progress refine Only.upd rfl ?_ rfl) | split | dsimp only | intro _)

theorem execThermalModelRun_only (m : ThermReadings) (s : State) :
    OnlyNext { clock := true, pols := true, arr := true, therm := true, thermCore := true } s (execThermalModelRun m s) := by
  unfold execThermalModelRun
  repeat' (with_reducible first
    | exact Only.refl _ _ | refine (State.checkMonitor_only ..).after ?_ rfl | refine (State.checkOverdraw_only ..).after ?_ rfl
    | refine (State.runModel_only ..).after ?_ rfl | refine Only.foldl _ _ ?_ (fun _ _ => ?_) | refine OnlyNext.next ?_
    | refine OnlyNext.fault _ | refine OnlyNext.ite ?_ ?_ | refine Only.ite ?_ ?_ | (fail_if_no_progress refine Only.upd rfl ?_ rfl)
    | split | dsimp only | intro _)

theorem execThrottleDecisionStopped_only (s : State) :
    OnlyNext { clock := true, pols := true, arr := true, therm := true, thermCore := true } s (execThrottleDecisionStopped s) := by
  unfold execThrottleDecisionStopped
  repeat' (with_reducible first
    | exact Only.refl _ _ | refine (State.decideStep_only ..).after ?_ rfl | refine (State.passDissolutions_only ..).after ?_ rfl
    | refine OnlyNext.next ?_ | refine OnlyNext.fault _ | refine OnlyNext.ite ?_ ?_ | refine Only.ite ?_ ?_
    | (fail_if_no_progress refine Only.upd rfl ?_ rfl) | split | dsimp only | intro _)

theorem execThrottlePauseEnd_only (s : State) :
    OnlyNext { clock := true, wheel := true, pols := true, arr := true, therm := true, wheelCore := true, thermCore := true }
      s (execThrottlePauseEnd s) := by
  unfold execThrottlePauseEnd
  repeat' (with_reducible first
    | exact Only.refl _ _ | refine (State.decideAgain_only ..).after ?_ rfl | refine OnlyNext.next ?_ | refine OnlyNext.fault _
    | refine OnlyNext.ite ?_ ?_ | refine Only.ite ?_ ?_ | (fail_if_no_progress refine Only.upd rfl ?_ rfl) | split | dsimp only
    | intro _)

theorem State.loadTime_only (v : Tb) (s : State) :
    Only { clock := true, pols := true, arr := true, tb := true } s (State.loadTime v s) := by
  unfold State.loadTime
  repeat' (with_reducible first
    | exact Only.refl _ _ | refine (State.ownerEvent_only ..).after ?_ rfl | refine (State.readyHeld_only ..).after ?_ rfl
    | refine Only.ite ?_ ?_ | (fail_if_no_progress refine Only.upd rfl ?_ rfl) | split | dsimp only | intro _)

theorem State.updateTb_only (s : State) :
    Only { clock := true, power := true, wheel := true, pols := true, arr := true, therm := true, tb := true } s (State.updateTb s) := by
  unfold State.updateTb
  repeat' (with_reducible first
    | exact Only.refl _ _ | refine (State.fireDue_only ..).after ?_ rfl | refine (State.loadTime_only ..).after ?_ rfl
    | refine Only.ite ?_ ?_ | (fail_if_no_progress refine Only.upd rfl ?_ rfl) | split | dsimp only | intro _)

theorem execTbUpdate_only (s : State) :
    OnlyNext { clock := true, power := true, wheel := true, pols := true, arr := true, therm := true, tb := true } s (execTbUpdate s) := by
  unfold execTbUpdate
  repeat' (with_reducible first
    | exact Only.refl _ _ | refine (State.updateTb_only ..).after ?_ rfl | refine OnlyNext.next ?_ | refine OnlyNext.fault _
    | refine OnlyNext.ite ?_ ?_ | refine Only.ite ?_ ?_ | (fail_if_no_progress refine Only.upd rfl ?_ rfl) | split | dsimp only
    | intro _)

theorem execTcmpFire_only (ch : Fin 16) (s : State) :
    OnlyNext { clock := true, power := true, wheel := true, pols := true, arr := true } s (execTcmpFire ch s) := by
  unfold execTcmpFire
  repeat' (with_reducible first
    | exact Only.refl _ _ | refine (State.fireTcmp_only ..).after ?_ rfl | refine OnlyNext.next ?_ | refine OnlyNext.fault _
    | refine OnlyNext.ite ?_ ?_ | refine Only.ite ?_ ?_ | (fail_if_no_progress refine Only.upd rfl ?_ rfl) | split | dsimp only
    | intro _)

theorem execTimeSetLoad_only (s : State) :
    OnlyNext { clock := true, power := true, wheel := true, pols := true, arr := true, therm := true, tb := true } s (execTimeSetLoad s) := by
  unfold execTimeSetLoad
  repeat' (with_reducible first
    | exact Only.refl _ _ | refine (State.updateTb_only ..).after ?_ rfl | refine OnlyNext.next ?_ | refine OnlyNext.fault _
    | refine OnlyNext.ite ?_ ?_ | refine Only.ite ?_ ?_ | (fail_if_no_progress refine Only.upd rfl ?_ rfl) | split | dsimp only
    | intro _)

theorem execSlewAdjust_only (s : State) :
    OnlyNext { clock := true, power := true, wheel := true, pols := true, arr := true, therm := true, tb := true } s (execSlewAdjust s) := by
  unfold execSlewAdjust
  repeat' (with_reducible first
    | exact Only.refl _ _ | refine (State.updateTb_only ..).after ?_ rfl | refine OnlyNext.next ?_ | refine OnlyNext.fault _
    | refine OnlyNext.ite ?_ ?_ | refine Only.ite ?_ ?_ | (fail_if_no_progress refine Only.upd rfl ?_ rfl) | split | dsimp only
    | intro _)

end Sys2Proof.Machine
end

section
/-! PROOFS. The frames of the machine (O6 to O8): every command keeps the addressed bytes but those that program pages, and each group of events
touches what is its own. -/

namespace Sys2Proof.Machine

variable {T A B : Touch} {s t : State}

theorem OnlyNext.mono {o : Host.Outcome State Fault Refusal} (h : OnlyNext A s o) (hAB : A.le B = true) : OnlyNext B s o :=
  fun t ht => (h t ht).mono hAB

/-- Everything but the addressed bytes. -/
def Touch.besideBytes : Touch :=
  { pending := true, freeCtr := true, clock := true, power := true, holdup := true, wheel := true, lands := true, cols := true, pols := true,
    ka := true, curSlice := true, arr := true, life := true, bist := true, therm := true, host := true, dali := true, lineA := true,
    lineB := true, fab := true, jtag := true, restartCause := true, carries := true, early := true, tb := true, doms := true,
    lifeCore := true, wheelCore := true, thermCore := true, resets := true }

/-- A wait for a SYS_RESET is one of the waits (R425). -/
theorem State.waitsCarry_eq_false (h : ∀ x ∈ s.carries, x.why ≠ .sysReset) : s.waitsCarry .sysReset = false := by
  simpa [State.waitsCarry] using h

/-- Every command that programs no page leaves the addressed bytes alone, while no SYS_RESET waits (R543, R546, R557, R558, R614). -/
theorem exec_besideBytes (c : Instr) (hc : programsPages c = false) (hs : s.waitsCarry .sysReset = false) : OnlyNext Touch.besideBytes s (exec c s) := by
  match c with
  | .timeGet r params => exact (execTimeGet_only r params s).mono rfl
  | .timeSet r params => exact (execTimeSet_only r params s).mono rfl
  | .timeSlew r params => exact (execTimeSlew_only r params s).mono rfl
  | .tcmpArm r params => exact (execTcmpArm_only r params s).mono rfl
  | .expoSet r params => exact (execExpoSet_only r params s).mono rfl
  | .expoGet r params => exact (execExpoGet_only r params s).mono rfl
  | .trigFire r params => exact (execTrigFire_only r params s).mono rfl
  | .trigRead r params => exact (execTrigRead_only r params s).mono rfl
  | .syncGet r params => exact (execSyncGet_only r params s).mono rfl
  | .periodSet r params => exact (execPeriodSet_only r params s).mono rfl
  | .wheelGet r params => exact (execWheelGet_only r params s).mono rfl
  | .statSelect r params => exact (execStatSelect_only r params s).mono rfl
  | .statGet r params => exact (execStatGet_only r params s).mono rfl
  | .occGet r params => exact (execOccGet_only r params s).mono rfl
  | .motionRebase r params => exact (execMotionRebase_only r params s).mono rfl
  | .calRun r params => exact (execCalRun_only r params s).mono rfl
  | .calSchedule r params => exact (execCalSchedule_only r params s).mono rfl
  | .calRead r params => exact (execCalRead_only r params s).mono rfl
  | .calClear r params => exact (execCalClear_only r params s).mono rfl
  | .colGet r params => exact (execColGet_only r params s).mono rfl
  | .defectGet r params => exact (execDefectGet_only r params s).mono rfl
  | .trimGet r params => exact (execTrimGet_only r params s).mono rfl
  | .sysInfo r params => exact (execSysInfo_only r params s).mono rfl
  | .sysCounters r params => exact (execSysCounters_only r params s).mono rfl
  | .attestGet r params => exact (execAttestGet_only r params s).mono rfl
  | .sysReset r params => exact (execSysReset_only r params s).mono rfl
  | .pwrSet r params => exact (execPwrSet_only r params s).mono rfl
  | .pstateSet r params => exact (execPstateSet_only r params s).mono rfl
  | .pwrGet r params => exact (execPwrGet_only r params s).mono rfl
  | .refusalRead r params => exact (execRefusalRead_only r params s).mono rfl
  | .refusalClear r params => exact (execRefusalClear_only r params s).mono rfl
  | .poldCreate r params => exact (execPoldCreate_only r params s).mono rfl
  | .poldOffer r params => exact (execPoldOffer_only r params s).mono rfl
  | .poldAnswer r params => exact (execPoldAnswer_only r params s).mono rfl
  | .poldDissolve r params => exact (execPoldDissolve_only r params s).mono rfl
  | .poldStatus r params => exact (execPoldStatus_only r params s).mono rfl
  | .poldCharter r params => exact (execPoldCharter_only r params s).mono rfl
  | .fabRead r params => exact (execFabRead_only r params s).mono rfl
  | .fabAddrSet r params => exact (execFabAddrSet_only r params s).mono rfl
  | .fabKeySet r params => exact (execFabKeySet_only r params s).mono rfl
  | .fabRankSet r params => exact (execFabRankSet_only r params s).mono rfl
  | .roleSwap r params => exact (execRoleSwap_only r params s).mono rfl
  | .fabRoutes r params => exact (execFabRoutes_only r params s).mono rfl
  | .fabPeriodSrc r params => exact (execFabPeriodSrc_only r params s).mono rfl
  | .fabPeriodSet r params => exact (execFabPeriodSet_only r params s).mono rfl
  | .arrOpen r params => exact (execArrOpen_only r params s).mono rfl
  | .arrWrite r params => exact (execArrWrite_only r params s).mono rfl
  | .arrCommit r params => exact (execArrCommit_only r params s).mono rfl
  | .arrAbort r params => exact (execArrAbort_only r params s).mono rfl
  | .arrRead r params => exact (execArrRead_only r params s).mono rfl
  | .arrInfo r params => exact (execArrInfo_only r params s).mono rfl
  | .fwActivate r params => exact (execFwActivate_only r params s).mono rfl
  | .lcGet r params => exact (execLcGet_only r params s).mono rfl
  | .lcAdvance r params => exact (execLcAdvance_only r params s).mono rfl
  | .bistRun r params => exact (execBistRun_only r params s).mono rfl
  | .bistRead r params => exact (execBistRead_only r params s).mono rfl
  | .thermGet r params => exact (execThermGet_only r params s).mono rfl
  | .pixPort r params => exact (execPixPort_only r params s).mono rfl
  | .daliCfg r params => exact (execDaliCfg_only r params s).mono rfl
  | .daliGet r params => exact (execDaliGet_only r params s).mono rfl
  | .packetArrival pk => exact (execPacketArrival_only pk s).mono rfl
  | .serviceSlice p => exact (execServiceSlice_only p s).mono rfl
  | .assemblyTimeout p => exact (execAssemblyTimeout_only p s).mono rfl
  | .answerHoldExpiry p => exact (execAnswerHoldExpiry_only p s).mono rfl
  | .offerGenerate p => exact (execOfferGenerate_only p s).mono rfl
  | .keyAgreementTimeout => exact (execKeyAgreementTimeout_only s).mono rfl
  | .polderErase p => exact (execPolderErase_only p s).mono rfl
  | .tbUpdate => exact (execTbUpdate_only s).mono rfl
  | .tcmpFire ch => exact (execTcmpFire_only ch s).mono rfl
  | .timeSetLoad => exact (execTimeSetLoad_only s).mono rfl
  | .slewAdjust => exact (execSlewAdjust_only s).mono rfl
  | .timeSubRead => exact (execTimeSubRead_only s).mono rfl
  | .wheelSlotStart => exact (execWheelSlotStart_only s).mono rfl
  | .exposureStart => exact (execExposureStart_only s).mono rfl
  | .triggerDeadline => exact (execTriggerDeadline_only s).mono rfl
  | .blankIntervalCheck conv trim => exact (execBlankIntervalCheck_only conv trim s).mono rfl
  | .rowRead columns spares => exact (execRowRead_only columns spares s).mono rfl
  | .slotEnd => exact (execSlotEnd_only s).mono rfl
  | .recordLeavesFork => exact (execRecordLeavesFork_only s).mono rfl
  | .recordEntersDelivery => exact (execRecordEntersDelivery_only s).mono rfl
  | .trigInEdge => exact (execTrigInEdge_only s).mono rfl
  | .trigRefractoryEnd => exact (execTrigRefractoryEnd_only s).mono rfl
  | .syncInEdge => exact (execSyncInEdge_only s).mono rfl
  | .syncPeriodMissing => exact (execSyncPeriodMissing_only s).mono rfl
  | .commissionNRise => exact (execCommissionNRise_only s).mono rfl
  | .calRampDone intervalsA intervalsB => exact (execCalRampDone_only intervalsA intervalsB s).mono rfl
  | .calColumnsDone meas => exact (execCalColumnsDone_only meas s).mono rfl
  | .calLeaseExpired => exact (execCalLeaseExpired_only s).mono rfl
  | .qualityRecompute => exact (execQualityRecompute_only s).mono rfl
  | .linePowerGood => cases hc
  | .linePowerLost => exact (execLinePowerLost_only s).mono rfl
  | .powerDownReset => cases hc
  | .portPresenceChange port millivolts => exact (execPortPresenceChange_only port millivolts s).mono rfl
  | .aonReady straps vioPresent => exact (execAonReady_only straps vioPresent s).mono rfl
  | .firmwareStart f => exact (execFirmwareStart_only f s).mono rfl
  | .commandsAcceptedStart => exact (execCommandsAcceptedStart_only s).mono rfl
  | .discoveryWindowEnd => exact (execDiscoveryWindowEnd_only s).mono rfl
  | .holdMeasure millivolts chargeMicroamps => exact (execHoldMeasure_only millivolts chargeMicroamps s).mono rfl
  | .pulseTest fallMillivolts => exact (execPulseTest_only fallMillivolts s).mono rfl
  | .holdupDeadline => exact (execHoldupDeadline_only s).mono rfl
  | .vauxTrip => exact (execVauxTrip_only s).mono rfl
  | .vauxRetry limiting => exact (execVauxRetry_only limiting s).mono rfl
  | .vioLost => exact (execVioLost_only s).mono rfl
  | .vioRestored => exact (execVioRestored_only s).mono rfl
  | .resetNAssert => cases hc
  | .resetNRelease straps vioPresent => exact (execResetNRelease_only straps vioPresent s).mono rfl
  | .powerEntryStep => exact (execPowerEntryStep_only s).mono rfl
  | .returnStepReady => exact (execReturnStepReady_only s).mono rfl
  | .replyCarriedTimeout => exact (execReplyCarriedTimeout_only s hs).mono rfl
  | .opPointVoltageReady domain => exact (execOpPointVoltageReady_only domain s).mono rfl
  | .wakeEvent => exact (execWakeEvent_only s).mono rfl
  | .wakeMatch port target => exact (execWakeMatch_only port target s).mono rfl
  | .i2cAddrMatch addr => exact (execI2cAddrMatch_only addr s).mono rfl
  | .wakeNFall => exact (execWakeNFall_only s).mono rfl
  | .dataSlotTx port => exact (execDataSlotTx_only port s hs).mono rfl
  | .beaconTx => exact (execBeaconTx_only s).mono rfl
  | .contentionTx port collided => exact (execContentionTx_only port collided s).mono rfl
  | .ack f => exact (execAck_only f s hs).mono rfl
  | .data f => exact (execData_only f s hs).mono rfl
  | .beacon f => exact (execBeacon_only f s).mono rfl
  | .wake f => exact (execWake_only f s hs).mono rfl
  | .join f => exact (execJoin_only f s hs).mono rfl
  | .discover f => exact (execDiscover_only f s hs).mono rfl
  | .route f => exact (execRoute_only f s hs).mono rfl
  | .drain f => exact (execDrain_only f s hs).mono rfl
  | .drainDone f => exact (execDrainDone_only f s hs).mono rfl
  | .rangeReq f roundTrip => exact (execRangeReq_only f roundTrip s hs).mono rfl
  | .rangeEcho f => exact (execRangeEcho_only f s hs).mono rfl
  | .swapReq f => exact (execSwapReq_only f s hs).mono rfl
  | .swapReady f => exact (execSwapReady_only f s hs).mono rfl
  | .swapNot f => exact (execSwapNot_only f s hs).mono rfl
  | .swapDone f => exact (execSwapDone_only f s hs).mono rfl
  | .lineFrameBad f => exact (execLineFrameBad_only f s).mono rfl
  | .beaconMissed port => exact (execBeaconMissed_only port s).mono rfl
  | .reevePresumedLost port => exact (execReevePresumedLost_only port s).mono rfl
  | .electionDelayExpired collided => exact (execElectionDelayExpired_only collided s).mono rfl
  | .routeAdvertTimer => exact (execRouteAdvertTimer_only s).mono rfl
  | .routeLapse segment => exact (execRouteLapse_only segment s).mono rfl
  | .holdbackExpired port segment => exact (execHoldbackExpired_only port segment s).mono rfl
  | .fwdFrameTimeout port => exact (execFwdFrameTimeout_only port s).mono rfl
  | .flowStateExpiry port src dst pol => exact (execFlowStateExpiry_only port src dst pol s).mono rfl
  | .rangeReqTimer => exact (execRangeReqTimer_only s).mono rfl
  | .joinRetryTimer => exact (execJoinRetryTimer_only s).mono rfl
  | .slotConflictRetry => exact (execSlotConflictRetry_only s).mono rfl
  | .roleSwapTimeout => exact (execRoleSwapTimeout_only s).mono rfl
  | .txfifo bus bytes ends => exact (execTxfifo_only bus bytes ends s).mono rfl
  | .txfifoPacketToIntake => exact (execTxfifoPacketToIntake_only s).mono rfl
  | .rxfifo bus bytes ends => exact (execRxfifo_only bus bytes ends s hs).mono rfl
  | .rxfifoEnqueue => exact (execRxfifoEnqueue_only s).mono rfl
  | .irqFlags w => exact (execIrqFlags_only w s).mono rfl
  | .hostRegisterWrite bus header read bytes ends => exact (execHostRegisterWrite_only bus header read bytes ends s hs).mono rfl
  | .daliFrameReceive f => exact (execDaliFrameReceive_only f s).mono rfl
  | .daliBusPowerLost => exact (execDaliBusPowerLost_only s).mono rfl
  | .thermalModelRun m => exact (execThermalModelRun_only m s).mono rfl
  | .throttleDecisionStopped => exact (execThrottleDecisionStopped_only s).mono rfl
  | .throttlePauseEnd => exact (execThrottlePauseEnd_only s).mono rfl
  | .pageProgramComplete _ _ => cases hc
  | .itemWriteStart p => exact (execItemWriteStart_only p s).mono rfl
  | .arrayLeaseExpired handle => exact (execArrayLeaseExpired_only handle s).mono rfl
  | .logPageTimer => exact (execLogPageTimer_only s).mono rfl
  | .lcTransitionExecute => cases hc
  | .bistStart => exact (execBistStart_only s).mono rfl
  | .bistBlockDone failed => exact (execBistBlockDone_only failed s).mono rfl
  | .jtagExtest outputs => exact (execJtagExtest_only outputs s).mono rfl
  | .jtagIdcode => exact (execJtagIdcode_only s).mono rfl
  | .jtagSamplePreload lands => exact (execJtagSamplePreload_only lands s).mono rfl
  | .jtagDebug a => exact (execJtagDebug_only a s).mono rfl
  | .jtagArray _ => cases hc
  | .jtagMbist blocks failed => exact (execJtagMbist_only blocks failed s).mono rfl
  | .jtagScan => exact (execJtagScan_only s).mono rfl
  | .jtagRelease => exact (execJtagRelease_only s).mono rfl
  | .jtagBypass code => exact (execJtagBypass_only code s).mono rfl
  | .dataFault parity block lane inReference => exact (execDataFault_only parity block lane inReference s).mono rfl
  | .uncorrectableWord _ => cases hc
  | .lockLost => exact (execLockLost_only s).mono rfl
  | .relockAttemptEnd _ => cases hc
  | .watchdogExpiry => cases hc
  | .daliBusPowerRestored => exact (execDaliBusPowerRestored_only s).mono rfl
  | .daliReportTimer inst => exact (execDaliReportTimer_only inst s).mono rfl
  | .daliEventSend collided => exact (execDaliEventSend_only collided s).mono rfl
  | .trstNAssert => exact (execTrstNAssert_only s).mono rfl

/-- Settles O6: no command that programs no page touches the addressed bytes. -/
theorem memoryFrame : Obligations.MemoryFrame := by
  intro c s t hc hs ht
  exact (exec_besideBytes c hc (State.waitsCarry_eq_false hs) t ht).bytes.resolve_left Bool.false_ne_true

/-- What events of imaging touch. -/
def Touch.imaging : Touch :=
  { freeCtr := true, clock := true, wheel := true, lands := true, cols := true, pols := true, arr := true, bist := true, therm := true,
    dali := true, wheelCore := true, thermCore := true }

theorem imagingEvent_only (c : Instr) (hc : imagingEvent c = true) : OnlyNext Touch.imaging s (exec c s) := by
  cases c with
  | wheelSlotStart => exact (execWheelSlotStart_only s).mono rfl
  | blankIntervalCheck conv trim => exact (execBlankIntervalCheck_only conv trim s).mono rfl
  | rowRead columns spares => exact (execRowRead_only columns spares s).mono rfl
  | slotEnd => exact (execSlotEnd_only s).mono rfl
  | recordLeavesFork => exact (execRecordLeavesFork_only s).mono rfl
  | recordEntersDelivery => exact (execRecordEntersDelivery_only s).mono rfl
  | syncInEdge => exact (execSyncInEdge_only s).mono rfl
  | syncPeriodMissing => exact (execSyncPeriodMissing_only s).mono rfl
  | calRampDone intervalsA intervalsB => exact (execCalRampDone_only intervalsA intervalsB s).mono rfl
  | calColumnsDone meas => exact (execCalColumnsDone_only meas s).mono rfl
  | calLeaseExpired => exact (execCalLeaseExpired_only s).mono rfl
  | qualityRecompute => exact (execQualityRecompute_only s).mono rfl
  | dataFault parity block lane inReference => exact (execDataFault_only parity block lane inReference s).mono rfl
  | _ => cases hc

/-- What events of the time base touch. -/
def Touch.timing : Touch :=
  { clock := true, power := true, wheel := true, pols := true, arr := true, therm := true, tb := true, wheelCore := true }

theorem timeEvent_only (c : Instr) (hc : timeEvent c = true) : OnlyNext Touch.timing s (exec c s) := by
  cases c with
  | tbUpdate => exact (execTbUpdate_only s).mono rfl
  | tcmpFire ch => exact (execTcmpFire_only ch s).mono rfl
  | timeSetLoad => exact (execTimeSetLoad_only s).mono rfl
  | slewAdjust => exact (execSlewAdjust_only s).mono rfl
  | _ => cases hc

/-- What events of the supply touch. -/
def Touch.supply : Touch :=
  { freeCtr := true, clock := true, power := true, holdup := true, wheel := true, lands := true, pols := true, arr := true, life := true,
    host := true, jtag := true, early := true }

theorem supplyEvent_only (c : Instr) (hc : supplyEvent c = true) : OnlyNext Touch.supply s (exec c s) := by
  cases c with
  | portPresenceChange port millivolts => exact (execPortPresenceChange_only port millivolts s).mono rfl
  | holdMeasure millivolts chargeMicroamps => exact (execHoldMeasure_only millivolts chargeMicroamps s).mono rfl
  | pulseTest fallMillivolts => exact (execPulseTest_only fallMillivolts s).mono rfl
  | holdupDeadline => exact (execHoldupDeadline_only s).mono rfl
  | vauxTrip => exact (execVauxTrip_only s).mono rfl
  | vauxRetry limiting => exact (execVauxRetry_only limiting s).mono rfl
  | vioLost => exact (execVioLost_only s).mono rfl
  | vioRestored => exact (execVioRestored_only s).mono rfl
  | _ => cases hc

/-- What events of the thermal model touch. -/
def Touch.thermal : Touch :=
  { clock := true, wheel := true, pols := true, arr := true, therm := true, wheelCore := true, thermCore := true }

theorem thermalEvent_only (c : Instr) (hc : thermalEvent c = true) : OnlyNext Touch.thermal s (exec c s) := by
  cases c with
  | thermalModelRun m => exact (execThermalModelRun_only m s).mono rfl
  | throttleDecisionStopped => exact (execThrottleDecisionStopped_only s).mono rfl
  | throttlePauseEnd => exact (execThrottlePauseEnd_only s).mono rfl
  | _ => cases hc

/-- What events of the line touch. -/
def Touch.line : Touch :=
  { freeCtr := true, clock := true, power := true, lands := true, pols := true, arr := true, host := true, lineA := true, lineB := true,
    fab := true, carries := true, early := true, tb := true }

theorem lineEvent_only (c : Instr) (hc : lineEvent c = true) (hs : s.waitsCarry .sysReset = false) : OnlyNext Touch.line s (exec c s) := by
  cases c with
  | dataSlotTx port => exact (execDataSlotTx_only port s hs).mono rfl
  | beaconTx => exact (execBeaconTx_only s).mono rfl
  | contentionTx port collided => exact (execContentionTx_only port collided s).mono rfl
  | ack f => exact (execAck_only f s hs).mono rfl
  | data f => exact (execData_only f s hs).mono rfl
  | beacon f => exact (execBeacon_only f s).mono rfl
  | wake f => exact (execWake_only f s hs).mono rfl
  | join f => exact (execJoin_only f s hs).mono rfl
  | discover f => exact (execDiscover_only f s hs).mono rfl
  | route f => exact (execRoute_only f s hs).mono rfl
  | drain f => exact (execDrain_only f s hs).mono rfl
  | drainDone f => exact (execDrainDone_only f s hs).mono rfl
  | rangeReq f roundTrip => exact (execRangeReq_only f roundTrip s hs).mono rfl
  | rangeEcho f => exact (execRangeEcho_only f s hs).mono rfl
  | swapReq f => exact (execSwapReq_only f s hs).mono rfl
  | swapReady f => exact (execSwapReady_only f s hs).mono rfl
  | swapNot f => exact (execSwapNot_only f s hs).mono rfl
  | swapDone f => exact (execSwapDone_only f s hs).mono rfl
  | lineFrameBad f => exact (execLineFrameBad_only f s).mono rfl
  | beaconMissed port => exact (execBeaconMissed_only port s).mono rfl
  | electionDelayExpired collided => exact (execElectionDelayExpired_only collided s).mono rfl
  | routeAdvertTimer => exact (execRouteAdvertTimer_only s).mono rfl
  | routeLapse segment => exact (execRouteLapse_only segment s).mono rfl
  | holdbackExpired port segment => exact (execHoldbackExpired_only port segment s).mono rfl
  | fwdFrameTimeout port => exact (execFwdFrameTimeout_only port s).mono rfl
  | flowStateExpiry port src dst pol => exact (execFlowStateExpiry_only port src dst pol s).mono rfl
  | rangeReqTimer => exact (execRangeReqTimer_only s).mono rfl
  | joinRetryTimer => exact (execJoinRetryTimer_only s).mono rfl
  | slotConflictRetry => exact (execSlotConflictRetry_only s).mono rfl
  | _ => cases hc

/-- A part that may change is what it became, any other what it was. -/
theorem chosen {b : Bool} {α : Type} {x y : α} (h : b = true ∨ y = x) : y = cond b y x := by
  rcases h with rfl | rfl
  · rfl
  · cases b <;> rfl

/-- The state after is the state before but for the parts that may change. -/
theorem Only.eq (h : Only T s t) :
    t = { pending := cond T.pending t.pending s.pending, freeCtr := cond T.freeCtr t.freeCtr s.freeCtr, clock := cond T.clock t.clock s.clock,
          power := cond T.power t.power s.power, holdup := cond T.holdup t.holdup s.holdup, wheel := cond T.wheel t.wheel s.wheel,
          lands := cond T.lands t.lands s.lands, cols := cond T.cols t.cols s.cols, pols := cond T.pols t.pols s.pols,
          ka := cond T.ka t.ka s.ka, curSlice := cond T.curSlice t.curSlice s.curSlice, arr := cond T.arr t.arr s.arr,
          life := cond T.life t.life s.life, bist := cond T.bist t.bist s.bist, therm := cond T.therm t.therm s.therm,
          host := cond T.host t.host s.host, dali := cond T.dali t.dali s.dali, lineA := cond T.lineA t.lineA s.lineA,
          lineB := cond T.lineB t.lineB s.lineB, fab := cond T.fab t.fab s.fab, jtag := cond T.jtag t.jtag s.jtag,
          restartCause := cond T.restartCause t.restartCause s.restartCause, carries := cond T.carries t.carries s.carries,
          early := cond T.early t.early s.early } := by
  obtain ⟨pending, freeCtr, clock, power, holdup, wheel, lands, cols, pols, ka, curSlice, arr, life, bist, therm, host, dali, lineA, lineB,
    fab, jtag, restartCause, carries, early, -, -, -, -, -, -, -⟩ := h
  cases t
  simp only [State.mk.injEq]
  exact ⟨chosen pending, chosen freeCtr, chosen clock, chosen power, chosen holdup, chosen wheel, chosen lands, chosen cols, chosen pols,
    chosen ka, chosen curSlice, chosen arr, chosen life, chosen bist, chosen therm, chosen host, chosen dali, chosen lineA, chosen
    lineB, chosen fab, chosen jtag, chosen restartCause, chosen carries, chosen early⟩

/-- Settles O7: each group of events touches what is its own. -/
theorem eventFrames : Obligations.EventFrames := by
  intro c s t ht
  refine ⟨fun hc => ?imaging, fun hc => ?timing, fun hc => ?supply, fun hc => ?thermal⟩
  case imaging =>
    have h := imagingEvent_only c hc t ht
    exact ⟨h.bytes.resolve_left Bool.false_ne_true, h.tb.resolve_left Bool.false_ne_true, h.eq⟩
  case timing =>
    have h := timeEvent_only c hc t ht
    have hcharge := h.thermCore.resolve_left Bool.false_ne_true
    exact ⟨h.bytes.resolve_left Bool.false_ne_true, h.doms.resolve_left Bool.false_ne_true, h.eq,
      congrArg (fun x : Thermal => { x with chargeSum := t.therm.chargeSum, chargeTicks := t.therm.chargeTicks }) hcharge⟩
  case supply =>
    have h := supplyEvent_only c hc t ht
    have hlife := h.lifeCore.resolve_left Bool.false_ne_true
    have hwheel := h.wheelCore.resolve_left Bool.false_ne_true
    exact ⟨h.bytes.resolve_left Bool.false_ne_true, h.tb.resolve_left Bool.false_ne_true, h.doms.resolve_left Bool.false_ne_true, h.eq,
      congrArg (fun x : Life => { x with cleared := t.life.cleared }) hlife, congrArg (fun x : Wheel => { x with slot := t.wheel.slot }) hwheel⟩
  case thermal =>
    have h := thermalEvent_only c hc t ht
    exact ⟨h.bytes.resolve_left Bool.false_ne_true, h.tb.resolve_left Bool.false_ne_true, h.eq⟩

/-- Settles O8: an event of the line touches what is the line's, and the clock, the queues and the wake logic. -/
theorem lineFrame : Obligations.LineFrame := by
  intro c s t hc hs ht
  have h := lineEvent_only c hc (State.waitsCarry_eq_false hs) t ht
  exact ⟨h.bytes.resolve_left Bool.false_ne_true, h.doms.resolve_left Bool.false_ne_true, h.eq⟩

end Sys2Proof.Machine
end

section
/-! PROOFS. Sealed packets open under their key and number (R340, R341): AES works on bytes, and the key stream cancels itself. -/

namespace Sys2Proof.Machine

/-- Numbers that are bytes. -/
def IsOctets (l : List Nat) : Prop := ∀ x ∈ l, x < 256

theorem IsOctets.append {a b : List Nat} (ha : IsOctets a) (hb : IsOctets b) : IsOctets (a ++ b) := fun x hx =>
  (List.mem_append.mp hx).elim (ha x) (hb x)

theorem IsOctets.take {a : List Nat} (ha : IsOctets a) (n : Nat) : IsOctets (a.take n) := fun x hx => ha x (List.mem_of_mem_take hx)

theorem IsOctets.drop {a : List Nat} (ha : IsOctets a) (n : Nat) : IsOctets (a.drop n) := fun x hx => ha x (List.mem_of_mem_drop hx)

theorem IsOctets.getD {a : List Nat} (ha : IsOctets a) (i : Nat) : a.getD i 0 < 256 := by
  rw [List.getD_eq_getElem?_getD]
  cases h : a[i]? with
  | none => decide
  | some x => exact ha x (List.mem_of_getElem? h)

theorem octet_xor {a b : Nat} (ha : a < 256) (hb : b < 256) : a ^^^ b < 256 := Nat.xor_lt_two_pow (n := 8) ha hb

theorem IsOctets.xorLists {a b : List Nat} (ha : IsOctets a) (hb : IsOctets b) : IsOctets (xorLists a b) := by
  induction a generalizing b with
  | nil => intro x hx; cases hx
  | cons x a ih =>
    cases b with
    | nil => intro y hy; cases hy
    | cons y b =>
      intro z hz
      rcases List.mem_cons.mp hz with rfl | hz
      · exact octet_xor (ha x (by simp)) (hb y (by simp))
      · exact ih (fun v hv => ha v (by simp [hv])) (fun v hv => hb v (by simp [hv])) z hz

theorem sbox_lt (b : Nat) : sbox b < 256 := Nat.mod_lt _ (by decide)

theorem xtime_lt (b : Nat) : xtime b < 256 := by
  unfold xtime
  split
  · omega
  · exact Nat.mod_lt _ (by decide)

theorem IsOctets.shiftRows {a : List Nat} (ha : IsOctets a) : IsOctets (shiftRows a) := by
  intro x hx
  obtain ⟨i, -, rfl⟩ := List.mem_map.mp hx
  exact ha.getD i

theorem IsOctets.nextRoundKey {k : List Nat} {rcon : Nat} (hk : IsOctets k) (hr : rcon < 256) : IsOctets (nextRoundKey rcon k) := by
  have ht : IsOctets [sbox (k.getD 13 0) ^^^ rcon, sbox (k.getD 14 0), sbox (k.getD 15 0), sbox (k.getD 12 0)] := by
    intro x hx
    simp only [List.mem_cons, List.not_mem_nil, or_false] at hx
    rcases hx with rfl | rfl | rfl | rfl
    · exact octet_xor (sbox_lt _) hr
    · exact sbox_lt _
    · exact sbox_lt _
    · exact sbox_lt _
  have h0 := (hk.take 4).xorLists ht
  have h1 := ((hk.drop 4).take 4).xorLists h0
  have h2 := ((hk.drop 8).take 4).xorLists h1
  exact ((h0.append h1).append h2).append ((hk.drop 12).xorLists h2)

/-- A round or more of AES leaves bytes, whatever the state. -/
theorem aesRounds_octets (n rcon : Nat) (k st : List Nat) (hk : IsOctets k) (hr : rcon < 256) (hs : n = 0 → IsOctets st) :
    IsOctets (aesRounds n rcon k st) := by
  induction n generalizing rcon k st with
  | zero => exact hs rfl
  | succ n ih =>
    have hsub : IsOctets (shiftRows (st.map sbox)) := IsOctets.shiftRows fun x hx => by
      obtain ⟨b, -, rfl⟩ := List.mem_map.mp hx
      exact sbox_lt b
    refine ih _ _ _ (hk.nextRoundKey hr) (xtime_lt _) fun hn => IsOctets.xorLists ?_ (hk.nextRoundKey hr)
    rw [if_pos hn]
    exact hsub

theorem aes128_octets (k b : List Nat) (hk : IsOctets k) : IsOctets (aes128 k b) :=
  aesRounds_octets 10 1 k _ hk (by decide) (fun h => absurd h (by decide))

theorem octets_isOctets (bs : List Byte) : IsOctets (octets bs) := by
  intro x hx
  obtain ⟨b, -, rfl⟩ := List.mem_map.mp hx
  exact b.isLt

theorem octets_ofOctets {l : List Nat} (h : IsOctets l) : octets (ofOctets l) = l := by
  rw [octets, ofOctets, List.map_map]
  refine (List.map_congr_left fun x hx => ?_).trans (List.map_id l)
  simpa using h x hx

theorem ofOctets_octets (bs : List Byte) : ofOctets (octets bs) = bs := by
  rw [octets, ofOctets, List.map_map]
  refine (List.map_congr_left fun b _ => ?_).trans (List.map_id bs)
  simp

theorem cbcMac_octets (k : List Nat) (n : Nat) (l c : List Nat) (hk : IsOctets k) (hc : IsOctets c) : IsOctets (cbcMac k n l c) := by
  induction n generalizing l c with
  | zero => exact hc
  | succ n ih => exact ih _ _ (aes128_octets k _ hk)

theorem ccmCounter_length (nonce : List Nat) (i : Nat) (hn : nonce.length = 13) : (ccmCounter nonce i).length = 16 := by
  simp [ccmCounter, hn]

theorem ccmStream_length (k nonce : List Nat) (n i : Nat) (hk : k.length = 16) (hn : nonce.length = 13) :
    (ccmStream k nonce n i).length = 16 * n := by
  induction n generalizing i with
  | zero => rfl
  | succ n ih =>
    rw [ccmStream, List.length_append, aes128_length k _ hk (ccmCounter_length nonce i hn), ih]
    omega

theorem ccmStream_octets (k nonce : List Nat) (n i : Nat) (hk : IsOctets k) : IsOctets (ccmStream k nonce n i) := by
  induction n generalizing i with
  | zero => intro x hx; cases hx
  | succ n ih => exact (aes128_octets k _ hk).append (ih _)

/-- A key stream that is long enough cancels itself. -/
theorem xorLists_cancel (a b : List Nat) (h : a.length ≤ b.length) : xorLists (xorLists a b) b = a := by
  induction a generalizing b with
  | nil => rfl
  | cons x a ih =>
    cases b with
    | nil => cases h
    | cons y b =>
      rw [xorLists, xorLists, List.zipWith_cons_cons, List.zipWith_cons_cons, Nat.xor_assoc, Nat.xor_self, Nat.xor_zero]
      exact congrArg (x :: ·) (ih b (Nat.le_of_succ_le_succ h))

theorem ccmCrypt_length (k nonce p : List Nat) (hk : k.length = 16) (hn : nonce.length = 13) : (ccmCrypt k nonce p).length = p.length := by
  rw [ccmCrypt, xorLists_length, ccmStream_length _ _ _ _ hk hn]
  omega

/-- Encryption undoes itself (R341). -/
theorem ccmCrypt_ccmCrypt (k nonce p : List Nat) (hk : k.length = 16) (hn : nonce.length = 13) :
    ccmCrypt k nonce (ccmCrypt k nonce p) = p := by
  have hlen := ccmCrypt_length k nonce p hk hn
  rw [ccmCrypt, hlen, ccmCrypt]
  refine xorLists_cancel _ _ ?_
  rw [ccmStream_length _ _ _ _ hk hn]
  omega

theorem blockPad_length (l : List Nat) : (blockPad l).length % 16 = 0 := by
  simp only [blockPad, List.length_append, List.length_replicate]
  omega

theorem ccmTag_length (k nonce aad p : List Nat) (hk : k.length = 16) (hn : nonce.length = 13) : (ccmTag k nonce aad p).length = 8 := by
  have haad : (if aad = [] then [] else blockPad ([aad.length / 256, aad.length % 256] ++ aad)).length % 16 = 0 := by
    split
    · rfl
    · exact blockPad_length _
  have hp := blockPad_length p
  unfold ccmTag
  dsimp only
  rw [xorLists_length, List.length_take, aes128_length k _ hk (ccmCounter_length nonce 0 hn), cbcMac_length _ _ _ _ hk (by simp)]
  · rfl
  · simp only [List.length_append, List.length_cons, List.length_nil, hn]
    omega

theorem ccmTag_octets (k nonce aad p : List Nat) (hk : IsOctets k) : IsOctets (ccmTag k nonce aad p) := by
  have hzero : IsOctets (List.replicate 16 0) := fun x hx => by rw [List.eq_of_mem_replicate hx]; decide
  exact IsOctets.xorLists ((cbcMac_octets k _ _ _ hk hzero).take 8) (aes128_octets k _ hk)

/-- What was sealed opens under the same key, nonce and associated data (R341). -/
theorem ccmOpen_ccmSeal (k nonce aad p : List Nat) (hk : k.length = 16) (hn : nonce.length = 13) :
    ccmOpen k nonce aad (ccmSeal k nonce aad p) = some p := by
  have htag := ccmTag_length k nonce aad p hk hn
  have hlen : (ccmSeal k nonce aad p).length - 8 = (ccmCrypt k nonce p).length := by rw [ccmSeal, List.length_append, htag]; omega
  unfold ccmOpen
  rw [hlen, ccmSeal, List.take_left, List.drop_left, ccmCrypt_ccmCrypt k nonce p hk hn, if_pos]
  refine ⟨?_, rfl⟩
  rw [List.length_append, htag]
  omega

theorem ccmSeal_octets (k nonce aad p : List Nat) (hk : IsOctets k) (hp : IsOctets p) : IsOctets (ccmSeal k nonce aad p) :=
  (hp.xorLists (ccmStream_octets k nonce _ _ hk)).append (ccmTag_octets k nonce aad p hk)

/-- A sealed packet opens under the key and the nonce it was sealed under (R340, R341). -/
theorem openPacket_sealPacket (key : BitVec 128) (nonce : List Nat) (header area : List Byte) (hn : nonce.length = 13) (hh : header.length = 8) :
    openPacket key nonce (sealPacket key nonce header area) = some (header.drop 4 ++ area) := by
  have h4 : (header.take 4).length = 4 := by simp [hh]
  have hsealed := ccmSeal_octets (keyOctets key) nonce (octets (header.take 4)) (octets (header.drop 4 ++ area)) (octets_isOctets _) (octets_isOctets _)
  unfold openPacket sealPacket
  rw [List.take_left' h4, List.drop_left' h4, octets_ofOctets hsealed, ccmOpen_ccmSeal _ _ _ _ (keyOctets_length key) hn, Option.map_some,
    ofOctets_octets]

theorem packetNonce_length (fromNode : Bool) (kind : Nat) (dup : Bool) (frag number : Nat) :
    (packetNonce fromNode kind dup frag number).length = 13 := by simp [packetNonce, octets]

end Sys2Proof.Machine
end

section
/-! PROOFS. Intake and service (O36): what a packet that arrives leaves, and what a slice does with a packet, the head of the queue and a reply that
was held back. -/

namespace Sys2Proof.Machine

variable {s : State} {p : PolId}

/-! ### Arrival -/

/-- A saturating count is one more, but no more than its top (R376). -/
theorem satInc_eq {top n : Nat} : satInc top n = min top (n + 1) := by
  unfold satInc
  split <;> omega

theorem sat16_eq {n : Nat} : sat16 n = min 65535 (n + 1) := satInc_eq

/-- A wake for traffic leaves the polders alone. -/
theorem State.trafficWake_pol (path : Path) (p : PolId) : (s.trafficWake path).pol p = s.pol p :=
  congrArg (fun v => v[p]) ((State.trafficWake_only path s).pols.resolve_left Bool.false_ne_true)

/-- A running sequencer needs no wake (R164). -/
theorem State.trafficWake_awake {path : Path} (h : s.domOn 7 = true) : s.trafficWake path = s := if_pos h

/-- A line packet wakes a sleeping sequencer while its port is ON (R157, R164). -/
theorem State.trafficWake_latches {a : BitVec 12} (h7 : s.domOn 7 = false) (h9 : s.domOn 9 = true) :
    (s.trafficWake (.line a)).power.latches.toNat.testBit 7 = true := by
  have hw : s.trafficWake (.line a) = s.latchWake 7 := by simp [State.trafficWake, h7, h9]
  have hbit : (BitVec.ofNat 8 (2 ^ 7)).toNat.testBit 7 = true := by decide
  have hl : s.latchWake 7 = { s with power := (s.latchWake 7).power } := by unfold State.latchWake; split <;> rfl
  have hlatch : (s.latchWake 7).power.latches = s.power.latches ||| BitVec.ofNat 8 (2 ^ 7) := by simp [State.latchWake, h7]
  rw [hw, hlatch, BitVec.toNat_or, Nat.testBit_or, hbit, Bool.or_true]

/-- A packet that reaches the intake takes a place of it, or is counted as dropped, after the wake (R348). -/
theorem State.arrive_eq {pk : Packet} (hline : pk.path ≠ .host → s.life.shadow ≠ .manufacture ∧ s.life.shadow ≠ .ret)
    (hhost : pk.path = .host → s.hostPol = pk.pol) :
    s.arrive pk = (s.trafficWake pk.path).modPol pk.pol (fun q =>
      if q.intake.length < 4 then { q with intake := q.intake ++ [pk] }
      else { q with cnt := { q.cnt with intakeDrop := min 65535 (q.cnt.intakeDrop + 1) } }) := by
  have h1 : ¬ (pk.path ≠ .host ∧ (s.life.shadow = .manufacture ∨ s.life.shadow = .ret)) := fun ⟨hp, hl⟩ =>
    hl.elim (hline hp).1 (hline hp).2
  have h2 : ¬ (pk.path = .host ∧ s.hostPol ≠ pk.pol) := fun ⟨hp, hn⟩ => hn (hhost hp)
  rw [State.arrive, if_neg h1, if_neg h2]
  dsimp only
  split
  · next h => exact State.modPol_congr (by rw [if_neg (by omega), ← sat16_eq])
  · next h => exact State.modPol_congr (by rw [if_pos (by omega)])

theorem execPacketArrival_host {pk : Packet} (h : pk.path = .host) : execPacketArrival pk s = .next (s.arrive pk) := by
  rw [execPacketArrival, h]

theorem execPacketArrival_line {pk : Packet} {a : BitVec 12} (h : pk.path = .line a) :
    execPacketArrival pk s = .next (if s.power.accepting then s.arrive pk else s.countPort (s.portToward a) 3) := by
  rw [execPacketArrival, h]

theorem execPacketArrival_arrives {pk : Packet} (h : pk.path ≠ .host → s.power.accepting = true) :
    execPacketArrival pk s = .next (s.arrive pk) := by
  cases hp : pk.path with
  | host => exact execPacketArrival_host hp
  | line a => rw [execPacketArrival_line hp, h (by rw [hp]; simp), if_pos rfl]

/-! ### A slice -/

/-- The state in which the intake phase of a polder's slice begins (R348, R361, R593). -/
def State.sliceBegun (p : PolId) (s : State) : State :=
  { (if p = owner then s.closeSlice.startRound else s.closeSlice) with curSlice := some p }

theorem State.sliceBegun_only : Only { fab := true, arr := true, power := true, curSlice := true } s (s.sliceBegun p) := by
  have hc : Only { fab := true, arr := true, power := true, curSlice := true } s s.closeSlice := (State.closeSlice_only s).mono rfl
  unfold State.sliceBegun
  split
  · exact Only.upd rfl ((State.startRound_only _).after hc rfl) rfl
  · exact Only.upd rfl hc rfl

@[simp] theorem State.sliceBegun_pol (p' : PolId) : (s.sliceBegun p).pol p' = s.pol p' :=
  congrArg (fun v => v[p']) (State.sliceBegun_only.pols.resolve_left Bool.false_ne_true)

@[simp] theorem State.sliceBegun_wheel : (s.sliceBegun p).wheel = s.wheel := State.sliceBegun_only.wheel.resolve_left Bool.false_ne_true
@[simp] theorem State.sliceBegun_life : (s.sliceBegun p).life = s.life := State.sliceBegun_only.life.resolve_left Bool.false_ne_true
@[simp] theorem State.sliceBegun_ka : (s.sliceBegun p).ka = s.ka := State.sliceBegun_only.ka.resolve_left Bool.false_ne_true

@[simp] theorem State.sliceBegun_points : (s.sliceBegun p).power.points = s.power.points := by
  unfold State.sliceBegun
  split <;> rfl

@[simp] theorem State.sliceBegun_accepting : (s.sliceBegun p).power.accepting = s.power.accepting := by
  unfold State.sliceBegun
  split <;> rfl

/-- A slice outside a read-margin check: the intake phase, then the head of the queue (R318, R348, R352). -/
theorem execServiceSlice_eq (hseq : s.sequencing = true) (hjob : s.bist.job = none) :
    execServiceSlice p s = .next (((s.sliceBegun p).runIntake p).serveHead p).issueAll := by
  have hm : s.closeSlice.startRound.marginSlice = s.closeSlice.startRound := by
    unfold State.marginSlice
    rw [show s.closeSlice.startRound.bist.job = none from hjob]
  simp only [execServiceSlice, hseq, Bool.not_true, Bool.false_eq_true, if_false, hm]
  rfl

/-- A polder that stays as it is. -/
theorem State.modPol_id : s.modPol p id = s := by
  cases s
  simp [State.modPol]

/-- An empty intake leaves the state alone. -/
theorem State.runIntake_nil (h : (s.pol p).intake = []) : s.runIntake p = s := by
  have hm : s.modPol p (fun q => { q with intake := [] }) = s := by
    rw [State.modPol_congr (g := id)]
    · exact State.modPol_id
    · rw [← h]; rfl
  rw [State.runIntake, h, hm]
  rfl

/-- At the point P0 no command tarries (R170). -/
theorem State.tarries_of_p0 (h : s.power.points[2] = 0) : s.tarries p = false := by
  simp [State.tarries, h, slowBound]

/-- The next entry of the queue is served (R352). -/
theorem State.serveHead_next {e : QEntry} {rest : List QEntry} (hserv : (s.pol p).serving = none) (hq : (s.pol p).queue = e :: rest)
    (hr : (s.pol p).replyQ.length < 8) (hp : s.power.points[2] = 0) :
    s.serveHead p = ((s.drawn.modPol p (fun q => { q with queue := rest, slow := 0 })).serveEntry e) := by
  unfold State.serveHead
  dsimp only
  rw [if_neg (by omega), hserv, hq]
  dsimp only
  rw [State.tarries_of_p0 hp]
  rfl

/-- A full reply queue holds the head back (R352). -/
theorem State.serveHead_full (h : 8 ≤ (s.pol p).replyQ.length) : s.serveHead p = s := if_pos h

/-- A reply that was held back leaves, and its command with it (R352, R362). -/
theorem State.serveHead_reply {v : Serving} {a : Answer} (hserv : (s.pol p).serving = some v) (ha : v.answer = some a) (hready : v.ready = true)
    (hrep : v.replied = false) (hrule : v.rule ≠ .powerChange) (hr : (s.pol p).replyQ.length < 8) :
    s.serveHead p = s.modPol p (fun q => { q with serving := none, replyQ := q.replyQ ++ [replyOf p v.entry a s],
                                                   journal := (replyOf p v.entry a s :: q.journal).take 16 }) := by
  have hdue : s.replyDue v.rule = true := by rw [State.replyDue, if_neg hrule]
  have hno : ¬ (v.rule = .powerChange ∧ s.powerBusy = true) := fun h => hrule h.1
  unfold State.serveHead
  dsimp only
  rw [if_neg (by omega), hserv]
  dsimp only
  rw [ha]
  dsimp only
  rw [hready, hrep, hdue, if_neg hno]
  refine (if_pos rfl).trans ?_
  exact State.modPol_modPol _ _ _ _

/-- A duplicate request with its reply in the journal (R363). -/
theorem State.serveEntry_duplicate {e : QEntry} {r : Reply} (hk : e.kind = .duplicate) (hg : s.entryGone e = false)
    (hj : (s.pol e.req.pol).journal.find? (fun x => x.esn == e.esn) = some r) :
    s.serveEntry e = ((s.queueReply e.req.pol { r with status := .duplicate, origStatus := r.status, dup := true, path := e.req.path }).countPol e.req.pol
      (fun c => { c with dupServed := min 65535 (c.dupServed + 1) })) := by
  simp only [← sat16_eq]
  rw [State.serveEntry, if_neg (by rw [hg]; decide), hk]
  show s.serveDuplicate e = _
  unfold State.serveDuplicate
  dsimp only
  rw [hj]

/-! ### The intake of a packet in order -/

/-- NEXT_ADMIT is the nearest number with its own low 16 bits (R345). -/
theorem assignEsn_self (n : Nat) : assignEsn n (BitVec.ofNat 16 n) = n := by simp [assignEsn]

/-- A packet sealed in order is admitted while the queue takes one more (R349 steps 5 to 11). -/
theorem intakeStep_admits {pk : Packet} {k : BitVec 128} {body : PacketBody} (htype : pk.ptype = 1) (hflags : pk.flags < 2) (hmin : 16 ≤ pk.len)
    (hmax : pk.len ≤ 128) (hacc : s.power.accepting = true) (hgone : s.polderGone pk.pol = false) (hkey : s.sessionKey pk.pol pk.path = some k)
    (hseq : pk.seq = BitVec.ofNat 16 (s.pol pk.pol).nextAdmit) (hbody : commandBody k (s.pol pk.pol).nextAdmit pk = some body)
    (hopen : s.queueClosed pk.pol = false) :
    s.intakeStep pk = (s.admitCommand (entryOf .command pk body (s.pol pk.pol).nextAdmit k)).modPol pk.pol
      (fun q => { q with queue := q.queue ++ [entryOf .command pk body (s.pol pk.pol).nextAdmit k] }) := by
  have hform : packetFormOk pk = true := by
    have h4 : pk.flags / 4 = 0 := by omega
    simp [packetFormOk, htype, h4, hmin, hmax]
  have huntagged : pk.untagged = false := by
    rw [Packet.untagged, bit]
    exact Nat.testBit_lt_two_pow hflags
  have hn : assignEsn (s.pol pk.pol).nextAdmit pk.seq = (s.pol pk.pol).nextAdmit := by rw [hseq, assignEsn_self]
  have hunsealed : s.unsealed pk = some (body, (s.pol pk.pol).nextAdmit, k) := by
    simp [State.unsealed, hn, huntagged, hkey, hbody]
  simp only [State.intakeStep, hform, huntagged, hacc, hgone, hunsealed, Bool.not_true, Bool.false_eq_true, Bool.true_eq_false, and_false,
    if_false, Bool.false_and]
  simp only [State.admitTagged, hopen, Nat.lt_irrefl, Bool.false_eq_true, if_false]

/-- A duplicate at the head is answered from the journal (R363). -/
theorem State.serveEntry_duplicate_next {e : QEntry} {rest : List QEntry} {r : Reply} (hk : e.kind = .duplicate) (hg : s.entryGone e = false)
    (hj : (s.pol e.req.pol).journal.find? (fun x => x.esn == e.esn) = some r) :
    (s.drawn.modPol e.req.pol (fun q => { q with queue := rest, slow := 0 })).serveEntry e =
      (s.drawn.modPol e.req.pol (fun q => { q with queue := rest, slow := 0, replyQ := q.replyQ ++
        [{ r with status := .duplicate, origStatus := r.status, dup := true, path := e.req.path }] })).countPol e.req.pol
          (fun c => { c with dupServed := min 65535 (c.dupServed + 1) }) := by
  have hg' : (s.drawn.modPol e.req.pol (fun q => { q with queue := rest, slow := 0 })).entryGone e = false := by
    rw [← hg]
    simp only [State.entryGone, State.takesAnswer, State.lives, State.pol_modPol, State.modPol_ka, if_true]
    rfl
  have hj' : ((s.drawn.modPol e.req.pol (fun q => { q with queue := rest, slow := 0 })).pol e.req.pol).journal.find? (fun x => x.esn == e.esn) = some r := by
    rw [State.pol_modPol, if_pos rfl]
    exact hj
  rw [State.serveEntry_duplicate hk hg' hj']
  exact congrArg (State.countPol _ _) (State.modPol_modPol ..)

theorem State.sessionKey_congr {t : State} (hl : t.lives p = s.lives p) (hk : (t.pol p).key = (s.pol p).key) (hlife : t.life = s.life) (path : Path) :
    t.sessionKey p path = s.sessionKey p path := by
  unfold State.sessionKey
  rw [hl, hk, hlife]

/-- The intake phase with one packet in order (R348, R349). -/
theorem runIntake_admits {pk : Packet} {k : BitVec 128} {body : PacketBody} (hin : (s.pol pk.pol).intake = [pk]) (htype : pk.ptype = 1)
    (hflags : pk.flags < 2) (hmin : 16 ≤ pk.len) (hmax : pk.len ≤ 128) (hacc : s.power.accepting = true) (hgone : s.polderGone pk.pol = false)
    (hkey : s.sessionKey pk.pol pk.path = some k) (hseq : pk.seq = BitVec.ofNat 16 (s.pol pk.pol).nextAdmit)
    (hbody : commandBody k (s.pol pk.pol).nextAdmit pk = some body) (hopen : s.queueClosed pk.pol = false) :
    s.runIntake pk.pol = ((s.modPol pk.pol (fun q => { q with intake := [] })).admitCommand (entryOf .command pk body (s.pol pk.pol).nextAdmit k)).modPol
      pk.pol (fun q => { q with queue := q.queue ++ [entryOf .command pk body (s.pol pk.pol).nextAdmit k] }) := by
  have hp : (s.modPol pk.pol (fun q => { q with intake := [] })).pol pk.pol = { s.pol pk.pol with intake := [] } := by
    rw [State.pol_modPol, if_pos rfl]
  have hlives : (s.modPol pk.pol (fun q => { q with intake := [] })).lives pk.pol = s.lives pk.pol := by rw [State.lives, hp, State.lives]
  have hn : ((s.modPol pk.pol (fun q => { q with intake := [] })).pol pk.pol).nextAdmit = (s.pol pk.pol).nextAdmit := by rw [hp]
  have hstep := intakeStep_admits (s := s.modPol pk.pol (fun q => { q with intake := [] })) (k := k) (body := body) htype hflags hmin hmax hacc
    (by rw [State.polderGone, hlives, hp]; exact hgone) (by rw [State.sessionKey_congr hlives (by rw [hp]) rfl]; exact hkey) (by rw [hn]; exact hseq)
    (by rw [hn]; exact hbody) (by rw [State.queueClosed, hlives, hp]; exact hopen)
  rw [hn] at hstep
  rw [State.runIntake, hin]
  exact hstep

/-- What is admitted leaves the reply queue alone. -/
theorem State.admitCommand_replyQ (e : QEntry) : ((s.admitCommand e).pol p).replyQ = (s.pol p).replyQ := by
  have hres : ∀ u : State, (u.reserveSeq e.req.pol).pol p = u.pol p := fun u =>
    congrArg (fun v => v[p]) ((State.reserveSeq_only e.req.pol u).pols.resolve_left Bool.false_ne_true)
  have hmod : ∀ u : State, ((u.modPol e.req.pol (fun q => { q with nextAdmit := q.nextAdmit + 1, path := some e.req.path, kept := none })).pol p).replyQ =
      (u.pol p).replyQ := fun u => State.pol_modPol_same Polder.replyQ (g := fun q => { q with nextAdmit := q.nextAdmit + 1, path := some e.req.path, kept := none }) (fun _ => rfl) u e.req.pol p
  unfold State.admitCommand
  dsimp only
  rw [hres]
  split
  · rw [State.pol_requestItem]
    exact hmod s
  · exact hmod s

theorem packet_arrives : ∀ (s : State) (pk : Packet), (pk.path ≠ .host → s.power.accepting = true ∧ s.life.shadow ≠ .manufacture ∧ s.life.shadow ≠ .ret) →
    (pk.path = .host → s.hostPol = pk.pol) →
    ∃ t, exec (.packetArrival pk) s = .next t ∧
      t.pol pk.pol = (if (s.pol pk.pol).intake.length < 4 then { s.pol pk.pol with intake := (s.pol pk.pol).intake ++ [pk] }
        else { s.pol pk.pol with cnt := { (s.pol pk.pol).cnt with intakeDrop := min 65535 ((s.pol pk.pol).cnt.intakeDrop + 1) } }) ∧
      (∀ p, p ≠ pk.pol → t.pol p = s.pol p) ∧ t = { s with pols := t.pols, power := t.power } ∧
      ((s.domOn 7 = false ∧ s.domOn 9 = true ∧ (∃ a, pk.path = .line a)) → t.power.latches.toNat.testBit 7 = true) ∧
      (s.domOn 7 = true → t.power = s.power) := by
  intro s pk hline hhost
  have hexec := execPacketArrival_arrives (s := s) fun h => (hline h).1
  rw [State.arrive_eq (fun h => (hline h).2) hhost] at hexec
  refine ⟨_, hexec, ?_, fun p hne => ?_, ?_, fun ⟨h7, h9, a, ha⟩ => ?_, fun h7 => ?_⟩
  · simp only [State.pol_modPol, State.trafficWake_pol, if_true]
  · simp only [State.pol_modPol, State.trafficWake_pol, if_neg hne]
  · exact (State.modPol_only.after ((State.trafficWake_only ..).mono (B := { pols := true, power := true }) rfl) rfl).eq
  · rw [State.modPol_power, ha]
    exact State.trafficWake_latches h7 h9
  · rw [State.modPol_power, State.trafficWake_awake h7]

theorem packet_early : ∀ (s : State) (pk : Packet) (a : BitVec 12), pk.path = .line a → s.power.accepting = false →
    exec (.packetArrival pk) s = .next (s.countPort (s.portToward a) 3) := by
  intro s pk a hp hacc
  exact (execPacketArrival_line hp).trans (by rw [hacc]; rfl)

theorem packet_bindMiss : ∀ (s : State) (pk : Packet), pk.path = .host → s.hostPol ≠ pk.pol →
    exec (.packetArrival pk) s = .next { s with host := { s.host with bindMissCnt := min 255 (s.host.bindMissCnt + 1) } } := by
  intro s pk hp hne
  refine (execPacketArrival_host hp).trans ?_
  rw [State.arrive, if_neg (fun h => h.1 hp), if_pos ⟨hp, hne⟩, State.bindMiss, satInc_eq]

theorem slice_sleeps : ∀ (s : State) (p : PolId), s.sequencing = false → exec (.serviceSlice p) s = .next s := by
  intro s p hseq
  exact if_pos (by rw [hseq]; rfl)

theorem slice_serves : ∀ (s : State) (p : PolId), s.sequencing = true → s.bist.job = none →
    let closed := s.closeSlice
    let round : State := if p = owner then
        { closed with fab := { closed.fab with spillDest := [] }, arr := { closed.arr with ownerStarts := closed.arr.ownerStarts + 1 },
                      power := { closed.power with vioLost := closed.power.vioLost && !closed.power.vioWaits, vioWaits := false } } else closed
    let b : State := { round with curSlice := some p }
    (∀ (e : QEntry) (rest : List QEntry), (s.pol p).intake = [] → (s.pol p).serving = none → (s.pol p).queue = e :: rest →
      (s.pol p).replyQ.length < 8 → s.power.points[2] = 0 →
      exec (.serviceSlice p) s = .next ((({ b with freeCtr := b.freeCtr + 1 }).modPol p
        (fun q => { q with queue := rest, slow := 0 })).serveEntry e).issueAll ∧
      (∀ (r : Reply), e.kind = .duplicate → e.req.pol = p → s.entryGone e = false → (s.pol p).journal.find? (fun x => x.esn == e.esn) = some r →
        let again : Reply := { r with status := .duplicate, origStatus := r.status, dup := true, path := e.req.path }
        exec (.serviceSlice p) s = .next (((({ b with freeCtr := b.freeCtr + 1 }).modPol p (fun q =>
          { q with queue := rest, slow := 0, replyQ := q.replyQ ++ [again] })).countPol p
          (fun c => { c with dupServed := min 65535 (c.dupServed + 1) }))).issueAll)) ∧
    (∀ (v : Serving) (a : Answer), (s.pol p).intake = [] → (s.pol p).serving = some v → v.answer = some a → v.ready = true →
      v.replied = false → v.rule ≠ .powerChange → (s.pol p).replyQ.length < 8 →
      let out : Reply := replyOf p v.entry a s
      exec (.serviceSlice p) s = .next (b.modPol p (fun q =>
        { q with serving := none, replyQ := q.replyQ ++ [out], journal := (out :: q.journal).take 16 })).issueAll) ∧
    (∀ (pk : Packet) (k : BitVec 128) (body : PacketBody), (s.pol p).intake = [pk] → pk.pol = p → pk.ptype = 1 → pk.flags < 2 →
      16 ≤ pk.len → pk.len ≤ 128 → s.power.accepting = true → s.polderGone p = false → s.sessionKey p pk.path = some k →
      pk.seq = BitVec.ofNat 16 (s.pol p).nextAdmit → commandBody k (s.pol p).nextAdmit pk = some body → s.queueClosed p = false →
      8 ≤ (s.pol p).replyQ.length →
      let from_ : Req := { pol := p, more := pk.flags.testBit 0, handle := body.handle, path := pk.path }
      let e : QEntry := { kind := .command, opcode := body.opcode, params := body.params, plen := body.plen, key := k, raw := pk.bytes,
                          esn := (s.pol p).nextAdmit, req := from_ }
      exec (.serviceSlice p) s = .next (((b.modPol p (fun q => { q with intake := [] })).admitCommand e).modPol p
        (fun q => { q with queue := q.queue ++ [e] })).issueAll) := by
  intro s p hseq hjob
  have hexec := execServiceSlice_eq (p := p) hseq hjob
  intro closed round b
  have hb : s.sliceBegun p = b := rfl
  refine ⟨fun e rest hin hserv hq hr hpt => ?_, fun v a hin hserv ha hready hrep hrule hr => ?_,
    fun pk k body hin hpol htype hflags hmin hmax hacc hgone hkey hpseq hbody hopen hfull => ?_⟩
  · have hnil : (s.sliceBegun p).runIntake p = s.sliceBegun p := State.runIntake_nil (by rw [State.sliceBegun_pol, hin])
    have hserve := State.serveHead_next (s := s.sliceBegun p) (p := p) (by rw [State.sliceBegun_pol, hserv]) (by rw [State.sliceBegun_pol, hq])
      (by rw [State.sliceBegun_pol]; exact hr) (by rw [State.sliceBegun_points, hpt])
    have hthis : execServiceSlice p s = .next ((((s.sliceBegun p).drawn.modPol p (fun q => { q with queue := rest, slow := 0 })).serveEntry e).issueAll) := by
      rw [hexec, hnil, hserve]
    refine ⟨hthis, fun r hk hpol hg hj => hthis.trans ?_⟩
    subst hpol
    have hg' : (s.sliceBegun e.req.pol).entryGone e = false := by
      rw [← hg]
      simp only [State.entryGone, State.takesAnswer, State.lives, State.sliceBegun_pol, State.sliceBegun_ka]
    exact congrArg (fun u => Host.Outcome.next (State.issueAll u)) (State.serveEntry_duplicate_next hk hg' (by rw [State.sliceBegun_pol]; exact hj))
  · have hnil : (s.sliceBegun p).runIntake p = s.sliceBegun p := State.runIntake_nil (by rw [State.sliceBegun_pol, hin])
    have hreply := State.serveHead_reply (s := s.sliceBegun p) (p := p) (v := v) (by rw [State.sliceBegun_pol, hserv]) ha hready hrep hrule
      (by rw [State.sliceBegun_pol]; exact hr)
    have hout : replyOf p v.entry a (s.sliceBegun p) = replyOf p v.entry a s := by simp only [replyOf, State.sliceBegun_wheel]
    rw [hnil, hreply, hout] at hexec
    exact hexec
  · subst hpol
    have hn : ((s.sliceBegun pk.pol).pol pk.pol).nextAdmit = (s.pol pk.pol).nextAdmit := by rw [State.sliceBegun_pol]
    have hlives : (s.sliceBegun pk.pol).lives pk.pol = s.lives pk.pol := by rw [State.lives, State.sliceBegun_pol, State.lives]
    have hrun := runIntake_admits (s := s.sliceBegun pk.pol) (k := k) (body := body) (by rw [State.sliceBegun_pol, hin]) htype hflags hmin hmax
      (by rw [State.sliceBegun_accepting, hacc]) (by rw [State.polderGone, hlives, State.sliceBegun_pol]; exact hgone)
      (by rw [State.sessionKey_congr hlives (by rw [State.sliceBegun_pol]) State.sliceBegun_life]; exact hkey) (by rw [hn]; exact hpseq) (by rw [hn]; exact hbody)
      (by rw [State.queueClosed, hlives, State.sliceBegun_pol]; exact hopen)
    rw [hn] at hrun
    rw [hrun, State.serveHead_full] at hexec
    · exact hexec
    · rw [State.pol_modPol, if_pos rfl]
      refine le_of_le_of_eq hfull ?_
      rw [State.admitCommand_replyQ, State.pol_modPol, if_pos rfl, State.sliceBegun_pol]

theorem sealed_opens : ∀ (key : BitVec 128) (esn : Nat) (header area : List Byte) (path : Path), header.length = 8 → area.length ≤ 112 →
    commandBody key esn { bytes := sealPacket key (packetNonce false 0 false 0 esn) header area, path := path } =
      some (bodyOf (header.drop 4 ++ area)) := by
  intro key esn header area path hh _
  show (openPacket key (packetNonce false 0 false 0 esn) (sealPacket key (packetNonce false 0 false 0 esn) header area)).map bodyOf = _
  rw [openPacket_sealPacket _ _ _ _ (packetNonce_length ..) hh, Option.map_some]

/-- Settles O36: arrival, the slice case by case of its head, and CCM undoing itself for what a sealed packet holds. -/
theorem intakeAndService : Obligations.IntakeAndService :=
  ⟨packet_arrives, packet_early, packet_bindMiss, slice_sleeps, slice_serves, sealed_opens⟩

end Sys2Proof.Machine
end

section
/-! PROOFS. What issuing events as records leaves of the polders, of the item writes that wait and of the compare channels, and the timers of a polder (O37). -/

namespace Sys2Proof.Machine

variable {s t u : State} {p : PolId}

/-! ### Issuing -/

/-- Of a polder only its records, its events and its counts have changed. -/
def Polder.IssuedFrom (q r : Polder) : Prop :=
  r = { q with ersEq := r.ersEq, dlv := r.dlv, events := r.events, lastFrame := r.lastFrame, cnt := r.cnt }

theorem Polder.IssuedFrom.refl (q : Polder) : q.IssuedFrom q := rfl

theorem Polder.IssuedFrom.trans {q r x : Polder} (h : q.IssuedFrom r) (k : r.IssuedFrom x) : q.IssuedFrom x := by
  unfold Polder.IssuedFrom at *
  rw [h] at k
  exact k

/-- Of the array only what is asked for and the log's buffer have changed. -/
def ArrayS.IssuedFrom (a b : ArrayS) : Prop :=
  b = { a with writes := b.writes, jobs := b.jobs, heldJobs := b.heldJobs, logBuf := b.logBuf, lseq := b.lseq, logTimes := b.logTimes,
               logSpill := b.logSpill }

theorem ArrayS.IssuedFrom.trans {a b c : ArrayS} (h : a.IssuedFrom b) (k : b.IssuedFrom c) : a.IssuedFrom c := by
  unfold ArrayS.IssuedFrom at *
  rw [h] at k
  exact k

/-- What issuing leaves: each polder but for its records and events, the item writes that wait for other items than the SEQ items, a
compare channel that is clear, the holdup state and the page programs, behind which that of a log page may be asked for, or held. -/
structure Issued (s t : State) : Prop where
  polder : ∀ p, (s.pol p).IssuedFrom (t.pol p)
  writes : ∀ x ∈ s.arr.writes, (∀ q : PolId, x.value.item ≠ 0x38 + q.val) → x ∈ t.arr.writes
  tcmp : ∀ ch : Fin 16, s.clock.tcmp[ch] = Tcmp.zero → t.clock.tcmp[ch] = Tcmp.zero
  channel : ∀ ch : Fin 16, t.clock.tcmp[ch] = { s.clock.tcmp[ch] with openEv := (t.clock.tcmp[ch]).openEv, closedEvs := (t.clock.tcmp[ch]).closedEvs }
  clock : t.clock = { s.clock with tcmp := t.clock.tcmp }
  holdup : t.holdup = s.holdup
  arr : s.arr.IssuedFrom t.arr
  jobs : s.holdup.low = true → t.arr.jobs = s.arr.jobs
  heldJobs : s.holdup.low = false → t.arr.heldJobs = s.arr.heldJobs ∧ ∃ l, t.arr.jobs = s.arr.jobs ++ l

theorem Issued.refl (s : State) : Issued s s :=
  ⟨fun _ => .refl _, fun _ hw _ => hw, fun _ h => h, fun _ => rfl, rfl, rfl, rfl, fun _ => rfl, fun _ => ⟨rfl, [], (List.append_nil _).symm⟩⟩

theorem Issued.trans (h : Issued s t) (k : Issued t u) : Issued s u :=
  ⟨fun p => (h.polder p).trans (k.polder p), fun w hw hn => k.writes w (h.writes w hw hn) hn, fun ch hc => k.tcmp ch (h.tcmp ch hc),
   fun ch => (k.channel ch).trans (by rw [h.channel ch]), k.clock.trans (by rw [h.clock]),
   k.holdup.trans h.holdup, h.arr.trans k.arr, fun hl => (k.jobs (by rw [h.holdup, hl])).trans (h.jobs hl), fun hl => by
    obtain ⟨h1, l, h2⟩ := h.heldJobs hl
    obtain ⟨k1, m, k2⟩ := k.heldJobs (by rw [h.holdup, hl])
    exact ⟨k1.trans h1, l ++ m, by rw [k2, h2, List.append_assoc]⟩⟩

theorem Issued.modPol {f : Polder → Polder} (hf : ∀ q : Polder, q.IssuedFrom (f q)) : Issued s (s.modPol p f) :=
  { Issued.refl s with
    polder := fun q => by
      rw [State.pol_modPol]
      split
      · next h => rw [h]; exact hf _
      · exact .refl _ }

/-- Another array with the same item writes and page programs. -/
theorem Issued.setArr {a : ArrayS} (hi : s.arr.IssuedFrom a) (ha : a.writes = s.arr.writes) (hj : a.jobs = s.arr.jobs) (hh : a.heldJobs = s.arr.heldJobs) :
    Issued s { s with arr := a } :=
  ⟨fun _ => .refl _, fun w hw _ => ha ▸ hw, fun _ h => h, fun _ => rfl, rfl, rfl, hi, fun _ => hj, fun _ => ⟨hh, [], by rw [List.append_nil]; exact hj⟩⟩

/-- A page program asked for goes behind the others, or is held (R559). -/
theorem Issued.addJob (j : PageJob) : Issued s (s.addJob p j) := by
  unfold State.addJob
  split
  · next h => exact ⟨fun _ => .refl _, fun _ hw _ => hw, fun _ h => h, fun _ => rfl, rfl, rfl, rfl, fun _ => rfl, fun hl => by rw [h] at hl; cases hl⟩
  · next h => exact ⟨fun _ => .refl _, fun _ hw _ => hw, fun _ h => h, fun _ => rfl, rfl, rfl, rfl, fun hl => absurd hl h, fun _ => ⟨rfl, _, rfl⟩⟩

/-- A write that waits for another item still waits once an item is requested (R549, R554). -/
theorem mem_replaceWaiting {v : ItemValue} {w : ItemWrite} (hw : w.value.item ≠ v.item) (l l' : List ItemWrite) (h : replaceWaiting v p l = some l')
    (hm : w ∈ l) : w ∈ l' := by
  induction l generalizing l' with
  | nil => cases hm
  | cons x rest ih =>
    unfold replaceWaiting at h
    split at h
    · next hx =>
      cases h
      rcases List.mem_cons.mp hm with rfl | hm
      · simp [hw] at hx
      · exact List.mem_cons_of_mem _ hm
    · obtain ⟨l'', hl, rfl⟩ := Option.map_eq_some_iff.mp h
      rcases List.mem_cons.mp hm with rfl | hm
      · exact List.mem_cons_self
      · exact List.mem_cons_of_mem _ (ih l'' hl hm)

theorem State.mem_requestItem {v : ItemValue} {w : ItemWrite} (hw : w.value.item ≠ v.item) (hm : w ∈ s.arr.writes) :
    w ∈ (s.requestItem p v).arr.writes := by
  show w ∈ (replaceWaiting v p s.arr.writes).getD _
  cases h : replaceWaiting v p s.arr.writes with
  | none => exact List.mem_append_left _ hm
  | some l => exact mem_replaceWaiting hw _ l h hm

/-- A requested value waits to be written (R549). -/
theorem State.exists_requestItem (s : State) (p : PolId) (v : ItemValue) :
    ∃ w ∈ (s.requestItem p v).arr.writes, w.value = v ∧ w.started = false := by
  have key : ∀ l l', replaceWaiting v p l = some l' → ∃ w ∈ l', w.value = v ∧ w.started = false := by
    intro l
    induction l with
    | nil => intro l' h; cases h
    | cons x rest ih =>
      intro l' h
      unfold replaceWaiting at h
      split at h
      · next hx =>
        cases h
        simp only [Bool.and_eq_true, Bool.not_eq_eq_eq_not, Bool.not_true] at hx
        exact ⟨_, List.mem_cons_self, rfl, hx.1⟩
      · obtain ⟨l'', hl, rfl⟩ := Option.map_eq_some_iff.mp h
        obtain ⟨w, hw, hv⟩ := ih l'' hl
        exact ⟨w, List.mem_cons_of_mem _ hw, hv⟩
  show ∃ w ∈ (replaceWaiting v p s.arr.writes).getD _, _
  cases h : replaceWaiting v p s.arr.writes with
  | none => exact ⟨_, List.mem_append_right _ (List.mem_singleton_self _), rfl, rfl⟩
  | some l => exact key _ l h

theorem Issued.reserveSeq (q : PolId) : Issued s (s.reserveSeq q) := by
  simp only [State.reserveSeq]
  split
  · exact { Issued.refl s with writes := fun w hw hn => State.mem_requestItem (hn q) hw, arr := rfl }
  · exact .refl s

theorem Issued.issueRecord (rtype : Nat) (frame : W32) (body : List Byte) : Issued s (s.issueRecord p rtype frame body) := by
  refine (Issued.modPol ?_).trans (Issued.reserveSeq p)
  exact fun _ => rfl

theorem Issued.pushLog (tb : Tb) (f : W32) (code : Nat) (payload : List Byte) : Issued s (s.pushLog tb f code payload) := by
  unfold State.pushLog
  dsimp only
  split
  · exact (Issued.setArr (s := s) (by rfl) (by rfl) (by rfl) (by rfl)).trans (Issued.addJob _)
  · exact Issued.setArr rfl rfl rfl rfl

theorem Issued.logEntry (tb : Tb) (f : W32) (code : Nat) (payload : List Byte) : Issued s (s.logEntry tb f code payload) := by
  simp only [State.logEntry]
  split
  · exact Issued.setArr rfl rfl rfl rfl
  · split
    · exact Issued.pushLog ..
    · have h : Issued s (({ s with arr := { s.arr with logSpill := 0 } } : State).pushLog s.clock.tb s.lastFrame 0xffff (leBytes 2 (min 65535 s.arr.logSpill))) :=
        (Issued.setArr (s := s) (by rfl) (by rfl) (by rfl) (by rfl)).trans (Issued.pushLog ..)
      split
      · exact h.trans (Issued.pushLog ..)
      · exact h.trans (Issued.setArr rfl rfl rfl rfl)

/-- A clear channel has no event to give (R121). -/
theorem Tcmp.takeEvent_zero : Tcmp.zero.takeEvent.2 = Tcmp.zero := rfl

/-- Taking an event from a channel changes its events alone (R121, R122). -/
theorem Tcmp.takeEvent_kept (c : Tcmp) : c.takeEvent.2 = { c with openEv := c.takeEvent.2.openEv, closedEvs := c.takeEvent.2.closedEvs } := by
  unfold Tcmp.takeEvent
  split <;> rfl

theorem Issued.takeEvent (ch : Fin 16) : Issued s (s.modTcmp ch (fun _ => (s.clock.tcmp[ch]).takeEvent.2)) := by
  refine { Issued.refl s with tcmp := fun c hc => ?_, channel := fun c => ?_, clock := rfl }
  · show (s.clock.tcmp.set ch _)[c] = Tcmp.zero
    rw [Fin.getElem_fin, Vector.getElem_set]
    split
    · next h =>
      obtain rfl : ch = c := Fin.ext h
      show (s.clock.tcmp[ch]).takeEvent.2 = Tcmp.zero
      rw [hc]
      exact Tcmp.takeEvent_zero
    · exact hc
  · by_cases h : ch = c
    · subst h
      have hset : (s.modTcmp ch (fun _ => (s.clock.tcmp[ch]).takeEvent.2)).clock.tcmp[ch] = (s.clock.tcmp[ch]).takeEvent.2 := by
        simp [State.modTcmp]
      rw [hset]
      exact Tcmp.takeEvent_kept _
    · have hset : (s.modTcmp ch (fun _ => (s.clock.tcmp[ch]).takeEvent.2)).clock.tcmp[c] = s.clock.tcmp[c] := by
        simp [State.modTcmp, Fin.val_ne_of_ne h]
      rw [hset]

theorem Issued.resolveEvent (e : EventRec) : Issued s (s.resolveEvent e).2 := by
  simp only [State.resolveEvent]
  split
  · exact Issued.takeEvent e.channel
  · exact .refl s

theorem Issued.issueEvent (e : EventRec) : Issued s (s.issueEvent p e) := by
  have h := Issued.resolveEvent (s := s) e
  simp only [State.issueEvent]
  split
  · next e' s' he =>
    rw [he] at h
    split
    · exact (h.trans (Issued.issueRecord ..)).trans (Issued.logEntry ..)
    · exact h.trans (Issued.issueRecord ..)
  · next s' he => rw [he] at h; exact h

theorem Issued.issueEventsN (n : Nat) (p : PolId) (s : State) : Issued s (s.issueEventsN n p) := by
  induction n generalizing s with
  | zero => exact .refl s
  | succ n ih =>
    unfold State.issueEventsN
    split
    · exact .refl s
    · split
      · exact .refl s
      · refine ((Issued.modPol ?_).trans (Issued.issueEvent ..)).trans (ih _)
        exact fun _ => rfl

theorem Issued.issueEvents : Issued s (s.issueEvents p) := by
  unfold State.issueEvents
  split
  · exact Issued.issueEventsN _ p s
  · exact .refl s

theorem Issued.eventAt (code : Nat) (f : W32) (tb : Tb) (payload : List Byte) : Issued s (s.eventAt p code f tb payload) := by
  unfold State.eventAt
  split
  · refine (Issued.modPol ?_).trans Issued.issueEvents
    exact fun _ => rfl
  · exact .refl s

/-- An event of the supply, at once or where it waits for the sequencer (R72, R675). -/
theorem Issued.supplyEvent (code : Nat) (payload : List Byte) : Issued s (s.supplyEvent code payload) := by
  unfold State.supplyEvent
  split
  · exact Issued.eventAt ..
  · unfold State.patientEvent
    split
    · exact Issued.eventAt ..
    · exact { Issued.refl s with }

theorem Issued.ownerEvent (code : Nat) (payload : List Byte) : Issued s (s.ownerEvent code payload) := Issued.eventAt ..

/-! ### The host binding (R313, R644) -/

/-- The first of a list, where one that was not the first no longer counts. -/
theorem find?_getD_congr {f g : PolId → Bool} {k d : PolId} (l : List PolId) (hk : g k = false) (hfg : ∀ x, x ≠ k → g x = f x)
    (h : (l.find? f).getD d ≠ k) : (l.find? g).getD d = (l.find? f).getD d := by
  induction l with
  | nil => rfl
  | cons x l ih =>
    by_cases hx : x = k
    · subst hx
      cases hf : f x with
      | true => simp [List.find?, hf] at h
      | false =>
        simp only [List.find?, hk, hf] at h ⊢
        exact ih h
    · rw [List.find?_cons, List.find?_cons, hfg x hx] at *
      split at h
      · rfl
      · exact ih h

/-- An absent polder holds no binding (R313). -/
theorem State.bindHolder_ne {i : Nat} (hp : p ≠ owner) (ha : (s.pol p).state = .absent) : s.bindHolder i ≠ p := by
  intro h
  unfold State.bindHolder at h
  cases hf : (List.finRange 8).find? (fun p => p != owner && (s.pol p).charter.bind.toNat.testBit i &&
    (s.lives p || (i == 0 && (s.pol p).state == .chartered))) with
  | none => rw [hf] at h; exact hp h.symm
  | some x =>
    rw [hf] at h
    obtain rfl : x = p := h
    have := List.find?_some hf
    simp [State.lives, ha] at this

/-- A polder that leaves takes the binding of no other with it (R645). -/
theorem State.hostPol_congr (hp : s.hostPol ≠ p) (ha : (t.pol p).state = .absent) (h : ∀ q, q ≠ p → t.pol q = s.pol q) : t.hostPol = s.hostPol := by
  refine find?_getD_congr (k := p) (List.finRange 8) ?_ (fun q hq => ?_) hp
  · simp [State.lives, ha]
  · simp only [State.lives, h q hq]

theorem State.rebindFrom_host {old : PolId} : (s.rebindFrom old).host = if s.hostPol = old then s.host
    else if s.host.xfer.isSome then { s.host with leaving := some (s.host.leaving.getD old) } else HostPort.initial := by
  unfold State.rebindFrom
  split
  · rfl
  · split <;> rfl

/-- A new holder of the host binding changes the queues of the old one, and no more of a polder (R645). -/
theorem State.pol_rebindFrom {α : Type} (f : Polder → α) (hf : ∀ (q : Polder) rq dv pa, f { q with replyQ := rq, dlv := dv, path := pa } = f q)
    (old : PolId) (q : PolId) : f ((s.rebindFrom old).pol q) = f (s.pol q) := by
  unfold State.rebindFrom
  split
  · rfl
  · split
    · rfl
    · refine State.pol_modPol_same f ?_ _ _ _
      exact fun q => hf q _ _ _

theorem State.rebindFrom_same {old : PolId} (h : s.hostPol = old) : s.rebindFrom old = s := if_pos h

/-! ### A polder emptied -/

/-- A tenant is emptied, and the items of its charter and its numbers are to be erased (R327, R332). -/
def State.emptyTenant (p : PolId) (s : State) : State := ((s.modPol p Polder.emptied).storePolder p).storeSeqs p

theorem State.emptyTenant_only : Only { pols := true, arr := true } s (s.emptyTenant p) :=
  (State.storeSeqs_only ..).after ((State.storePolder_only ..).after (State.modPol_only.mono rfl) rfl) rfl

theorem State.emptyTenant_pol (q : PolId) : (s.emptyTenant p).pol q = if q = p then (s.pol p).emptied else s.pol q := State.pol_modPol ..

theorem State.emptyTenant_hostPol (h : s.hostPol ≠ p) : (s.emptyTenant p).hostPol = s.hostPol :=
  State.hostPol_congr h (by rw [State.emptyTenant_pol, if_pos rfl]; rfl) (fun q hq => by rw [State.emptyTenant_pol, if_neg hq])

/-- The charter of a tenant that is emptied is to be erased (R332). -/
theorem State.emptyTenant_erases : ∃ w ∈ (s.emptyTenant p).arr.writes, w.value = .stored p none ∧ w.started = false := by
  have hv : (s.modPol p Polder.emptied).storePolder p = (s.modPol p Polder.emptied).requestItem p (.stored p none) := by
    have hp : (s.modPol p Polder.emptied).pol p = (s.pol p).emptied := by rw [State.pol_modPol, if_pos rfl]
    have hl : (s.modPol p Polder.emptied).lives p = false := by rw [State.lives, hp]; rfl
    rw [State.storePolder, hl, hp]
    rfl
  obtain ⟨w, hw, hval, hstart⟩ := State.exists_requestItem (s.modPol p Polder.emptied) p (.stored p none)
  refine ⟨w, ?_, hval, hstart⟩
  unfold State.emptyTenant State.storeSeqs
  rw [hv]
  refine State.mem_requestItem ?_ hw
  rw [hval]
  show 0x30 + p.val ≠ 0x38 + p.val
  omega

end Sys2Proof.Machine
end

section
/-! PROOFS. The timers of a polder (O37). -/

namespace Sys2Proof.Machine

variable {s t u : State} {p : PolId}

theorem beBytes_length (n v : Nat) : (beBytes n v).length = n := by simp [beBytes]

/-- A point is 64 bytes (R416). -/
theorem JPoint.bytes_length (q : JPoint) : q.bytes.length = 64 := by
  rw [JPoint.bytes, List.length_append, beBytes_length, beBytes_length]

/-- A change of one polder leaves the others. -/
theorem State.pol_modPol_ne {q : PolId} (f : Polder → Polder) (h : q ≠ p) : (s.modPol p f).pol q = s.pol q := by
  rw [State.pol_modPol, if_neg h]

theorem State.pol_modPol_self (f : Polder → Polder) : (s.modPol p f).pol p = f (s.pol p) := by
  rw [State.pol_modPol, if_pos rfl]

/-- The agreement with a tenant abandoned: its polder emptied, the binding it held returned, the owner told (R327). -/
theorem State.abandonAgreement_tenant {k : KeyAgreement} {cause : Nat} (hk : s.ka = some k) (ho : k.pol ≠ owner) :
    s.abandonAgreement cause = (((({ s with ka := none } : State).emptyTenant k.pol).rebindFrom s.hostPol).ownerEvent 0x0041
      (leBytes 1 k.pol.val ++ leBytes 1 cause ++ leBytes 2 0)) := by
  unfold State.abandonAgreement
  rw [hk]
  dsimp only
  rw [if_neg ho]
  rfl

/-- The agreement with the owner abandoned: only the parts held go (R327, R433). -/
theorem State.abandonAgreement_owner {k : KeyAgreement} {cause : Nat} (hk : s.ka = some k) (ho : k.pol = owner) :
    s.abandonAgreement cause = ((({ s with ka := none } : State).modPol owner (fun q => { q with answerHold := none })).rebindFrom s.hostPol).ownerEvent 0x0041
      (leBytes 1 k.pol.val ++ leBytes 1 cause ++ leBytes 2 0) := by
  unfold State.abandonAgreement
  rw [hk]
  dsimp only
  rw [if_pos ho]

/-- Where the holder of a binding is judged by: state, charter. -/
theorem State.hostPol_modPol {f : Polder → Polder} (hs : ∀ q, (f q).state = q.state) (hc : ∀ q, (f q).charter = q.charter) :
    (s.modPol p f).hostPol = s.hostPol := by
  have h1 : ∀ q, ((s.modPol p f).pol q).state = (s.pol q).state := fun q => State.pol_modPol_same Polder.state hs ..
  have h2 : ∀ q, ((s.modPol p f).pol q).charter = (s.pol q).charter := fun q => State.pol_modPol_same Polder.charter hc ..
  simp only [State.hostPol, State.bindHolder, State.lives, h1, h2]

/-- The owner's key agreement ends (R327). -/
theorem keyAgreementTimeout_owner {k : KeyAgreement} (hk : s.ka = some k) (ho : k.pol = owner) :
    ((s.abandonAgreement 1).pol owner).answerHold = none ∧ (s.abandonAgreement 1).host = s.host := by
  rw [State.abandonAgreement_owner hk ho, State.rebindFrom_same (by
    refine (State.hostPol_modPol ?_ ?_).trans rfl
    · exact fun _ => rfl
    · exact fun _ => rfl)]
  constructor
  · have h := ((Issued.ownerEvent (s := ({ s with ka := none } : State).modPol owner (fun q => { q with answerHold := none })) 0x0041
      (leBytes 1 k.pol.val ++ leBytes 1 1 ++ leBytes 2 0)).polder owner)
    rw [h, State.pol_modPol_self]
  · rw [(Issues.ownerEvent _ _ _).frame]
    rfl

/-- A tenant's key agreement ends, its charter is to be erased, and the host binding it held returns (R327, R645). -/
theorem keyAgreementTimeout_tenant {k : KeyAgreement} (hk : s.ka = some k) (ho : k.pol ≠ owner) :
    let t := s.abandonAgreement 1
    (t.pol k.pol).state = .absent ∧ (t.pol k.pol).charter = Charter.none ∧ (s.hostPol ≠ k.pol → t.pol k.pol = (s.pol k.pol).emptied) ∧
      (∃ w ∈ t.arr.writes, w.value = .stored k.pol none ∧ w.started = false) ∧
      t.host = (if s.hostPol ≠ k.pol then s.host
        else if s.host.xfer.isSome then { s.host with leaving := some (s.host.leaving.getD k.pol) } else HostPort.initial) := by
  intro t
  have ht := State.abandonAgreement_tenant (cause := 1) hk ho
  generalize hr : (({ s with ka := none } : State).emptyTenant k.pol).rebindFrom s.hostPol = r at ht
  have hpol : t.pol k.pol = r.pol k.pol := by
    show (s.abandonAgreement 1).pol k.pol = _
    rw [ht, (Issues.ownerEvent _ _ _).pol _ ho]
  have hempty : (({ s with ka := none } : State).emptyTenant k.pol).pol k.pol = (s.pol k.pol).emptied := by
    rw [State.emptyTenant_pol, if_pos rfl]
    rfl
  have hne : (({ s with ka := none } : State).emptyTenant k.pol).hostPol ≠ k.pol := State.bindHolder_ne ho (by rw [hempty]; rfl)
  have hkeep : s.hostPol ≠ k.pol → (({ s with ka := none } : State).emptyTenant k.pol).hostPol = s.hostPol := fun h =>
    (State.emptyTenant_hostPol (s := { s with ka := none }) h).trans rfl
  refine ⟨?_, ?_, fun h => ?_, ?_, ?_⟩
  · rw [hpol, ← hr, State.pol_rebindFrom Polder.state (fun _ _ _ _ => rfl), hempty]
    rfl
  · rw [hpol, ← hr, State.pol_rebindFrom Polder.charter (fun _ _ _ _ => rfl), hempty]
    rfl
  · rw [hpol, ← hr, State.rebindFrom_same (hkeep h), hempty]
  · obtain ⟨w, hw, hval, hstart⟩ := State.emptyTenant_erases (s := { s with ka := none }) (p := k.pol)
    refine ⟨w, ?_, hval, hstart⟩
    show w ∈ (s.abandonAgreement 1).arr.writes
    rw [ht]
    refine Issued.writes (Issued.ownerEvent ..) w ?_ fun q => ?_
    · rw [← hr]
      unfold State.rebindFrom
      split
      · exact hw
      · split <;> exact hw
    · rw [hval]
      show 0x30 + k.pol.val ≠ 0x38 + q.val
      omega
  · show (s.abandonAgreement 1).host = _
    have hsame : (({ s with ka := none } : State).emptyTenant k.pol).host = s.host :=
      (State.emptyTenant_only (s := { s with ka := none })).host.resolve_left Bool.false_ne_true
    rw [ht, (Issues.ownerEvent _ _ _).frame, ← hr]
    refine State.rebindFrom_host.trans ?_
    rw [hsame]
    by_cases h : s.hostPol = k.pol
    · rw [if_neg (fun e => hne (e.trans h)), if_neg (show ¬ (s.hostPol ≠ k.pol) from fun hn => hn h), h]
    · rw [if_pos (hkeep h), if_pos h]

/-! ### The erasure of a polder -/

/-- The compare channels of a polder are cleared (R116). -/
def State.clearChannels (p : PolId) (s : State) : State :=
  (s.modTcmp (Fin.ofNat 16 (2 * p.val)) (fun _ => Tcmp.zero)).modTcmp (Fin.ofNat 16 (2 * p.val + 1)) (fun _ => Tcmp.zero)

theorem State.clearChannels_tcmp : (s.clearChannels p).clock.tcmp[2 * p.val] = Tcmp.zero ∧ (s.clearChannels p).clock.tcmp[2 * p.val + 1] = Tcmp.zero := by
  have hp := p.isLt
  have h0 : (2 * p.val) % 16 = 2 * p.val := Nat.mod_eq_of_lt (by omega)
  have h1 : (2 * p.val + 1) % 16 = 2 * p.val + 1 := Nat.mod_eq_of_lt (by omega)
  constructor <;> simp [State.clearChannels, State.modTcmp, Fin.ofNat, h0, h1]

/-- A tenant erased, before its owner is told and a transition may go on (R332). -/
def State.erased (p : PolId) (s : State) : State :=
  let t := ((s.emptyTenant p).clearChannels p).rebindFrom s.hostPol
  if (s.pol p).charter.bind.toNat.testBit 2 then t.resetDali owner else t

theorem execPolderErase_eq {g : Dissolution} (hg : (s.pol p).gone = some g) (hi : g.issued = true) :
    execPolderErase p s = .next (((s.erased p).ownerEvent 0x0042
      (leBytes 1 p.val ++ leBytes 1 g.reason ++ leBytes 2 g.goneCount ++ leBytes 4 g.lastFrame.toNat)).leaveField) := by
  rw [execPolderErase, hg]
  exact congrArg _ (if_pos hi)

/-- Of a polder only its head, its replies and its journal have changed. -/
def Polder.AnsweredTo (q r : Polder) : Prop := r = { q with serving := r.serving, replyQ := r.replyQ, journal := r.journal }

/-- Of the polders only one has changed, in its head, its replies and its journal. -/
def Answers (p : PolId) (s t : State) : Prop := (∀ q, q ≠ p → t.pol q = s.pol q) ∧ (s.pol p).AnsweredTo (t.pol p)

theorem Answers.refl (p : PolId) (s : State) : Answers p s s := ⟨fun _ _ => rfl, rfl⟩

theorem Answers.modPol {f : Polder → Polder} (hf : ∀ q : Polder, q.AnsweredTo (f q)) : Answers p s (s.modPol p f) :=
  ⟨fun _ hq => State.pol_modPol_ne f hq, by rw [State.pol_modPol_self]; exact hf _⟩

theorem Answers.trans (h : Answers p s t) (k : Answers p t u) : Answers p s u := by
  refine ⟨fun q hq => (k.1 q hq).trans (h.1 q hq), ?_⟩
  have h2 := h.2
  have k2 := k.2
  unfold Polder.AnsweredTo at *
  rw [h2] at k2
  exact k2

/-- A held command answered (R352, R354). -/
theorem Answers.answerHeld (a : Answer) : Answers p s (s.answerHeld p a) := by
  unfold State.answerHeld
  split
  · exact .refl p s
  · split
    · refine Answers.trans (t := s.deliver p _ a) (Answers.modPol ?_) (Answers.modPol ?_)
      · exact fun _ => rfl
      · exact fun _ => rfl
    · refine Answers.modPol ?_
      exact fun _ => rfl

/-- A transition that may go on answers its command or hands it on (R459, R603). -/
theorem Answers.leaveField : Answers owner s s.leaveField := by
  unfold State.leaveField
  split
  · split
    · split
      · next v _ _ _ _ _ =>
        exact Answers.modPol (s := s) (f := fun q => { q with serving := some { v with rule := .itemCommit 0x12 } }) (fun _ => rfl)
      · exact Answers.answerHeld (s := s.awaitReset _ _) _
    · exact .refl _ s
  · exact .refl _ s

/-- What an erased polder is before its owner is told: empty, but that packets waiting for a host it held are discarded (R332, R645). -/
theorem State.erased_pol {α : Type} (f : Polder → α) (hf : ∀ (q : Polder) rq dv pa, f { q with replyQ := rq, dlv := dv, path := pa } = f q)
    (q : PolId) : f ((s.erased p).pol q) = f (if q = p then (s.pol p).emptied else s.pol q) := by
  have h : f ((((s.emptyTenant p).clearChannels p).rebindFrom s.hostPol).pol q) = f (if q = p then (s.pol p).emptied else s.pol q) := by
    rw [State.pol_rebindFrom f hf, ← State.emptyTenant_pol]
    rfl
  unfold State.erased
  dsimp only
  split
  · exact h
  · exact h

/-- A polder that held no host binding keeps its records that are on their way (R333). -/
theorem State.erased_dlv (h : s.hostPol ≠ p) : ((s.erased p).pol p).dlv = (s.pol p).dlv := by
  have hsame : ((s.emptyTenant p).clearChannels p).hostPol = s.hostPol := State.emptyTenant_hostPol h
  have hd : (((s.emptyTenant p).clearChannels p).pol p).dlv = (s.pol p).dlv := by
    show ((s.emptyTenant p).pol p).dlv = _
    rw [State.emptyTenant_pol, if_pos rfl]
    rfl
  unfold State.erased
  rw [State.rebindFrom_same hsame]
  split
  · exact hd
  · exact hd

theorem State.erased_tcmp : (s.erased p).clock.tcmp[2 * p.val] = Tcmp.zero ∧ (s.erased p).clock.tcmp[2 * p.val + 1] = Tcmp.zero := by
  have hc : (s.erased p).clock = ((s.emptyTenant p).clearChannels p).clock := by
    have hr := (State.rebindFrom_only s.hostPol ((s.emptyTenant p).clearChannels p)).clock.resolve_left Bool.false_ne_true
    unfold State.erased
    split
    · exact hr
    · exact hr
  rw [hc]
  exact State.clearChannels_tcmp

theorem State.erased_dali (h : (s.pol p).charter.bind.toNat.testBit 2 = true) : (s.erased p).dali = { Dali.initial with busDown := s.dali.busDown } := by
  have hd : (((s.emptyTenant p).clearChannels p).rebindFrom s.hostPol).dali = s.dali :=
    ((State.rebindFrom_only s.hostPol ((s.emptyTenant p).clearChannels p)).dali.resolve_left Bool.false_ne_true).trans
      ((State.emptyTenant_only (s := s) (p := p)).dali.resolve_left Bool.false_ne_true)
  unfold State.erased
  rw [if_pos h, ← hd]
  rfl

theorem assemblyTimeout_expires : ∀ (s : State) (p : PolId), ∃ t, exec (.assemblyTimeout p) s = .next t ∧ t = { s with pols := t.pols } ∧
    (∀ q, q ≠ p → t.pol q = s.pol q) ∧
    t.pol p = { s.pol p with assembly := (s.pol p).assembly.map (fun a => { a with parts := [], expired := true }) } := by
  intro s p
  exact ⟨_, rfl, rfl, fun q hq => State.pol_modPol_ne _ hq, State.pol_modPol_self _⟩

theorem answerHoldExpiry_drops : ∀ (s : State) (p : PolId), ∃ t, exec (.answerHoldExpiry p) s = .next t ∧ t = { s with pols := t.pols } ∧
    (∀ q, q ≠ p → t.pol q = s.pol q) ∧ t.pol p = { s.pol p with answerHold := none } := by
  intro s p
  exact ⟨_, rfl, rfl, fun q hq => State.pol_modPol_ne _ hq, State.pol_modPol_self _⟩

theorem offerGenerate_forms : ∀ (s : State) (k : KeyAgreement), s.ka = some k → k.offered = false → s.sequencing = true →
    let d := scalarOf (Config.freeNat s.freeCtr)
    let drawn : KeyAgreement := { k with offered := true, dE := d, qE := (base256.mul d).bytes }
    exec (.offerGenerate k.pol) s = .next { s with freeCtr := s.freeCtr + 2, ka := some { drawn with
        signature := ecdsaSign (scalarOf Config.attestKey) (scalarOf (Config.freeNat (s.freeCtr + 1))) (offerSigned s.life.uid drawn) } } ∧
      drawn.qE.length = 64 ∧ 1 ≤ d ∧ d < n256 := by
  intro s k hk hoff hseq
  have hn : 0 < n256 - 1 := by decide
  refine ⟨?_, JPoint.bytes_length _, Nat.succ_le_succ (Nat.zero_le _), ?_⟩
  · show execOfferGenerate k.pol s = _
    rw [execOfferGenerate, hk]
    exact congrArg _ (if_pos ⟨rfl, hoff, hseq⟩)
  · have := Nat.mod_lt (Config.freeNat s.freeCtr) hn
    show Config.freeNat s.freeCtr % (n256 - 1) + 1 < n256
    omega

theorem keyAgreementTimeout_ends : ∀ (s : State) (k : KeyAgreement), s.ka = some k → ∃ t, exec .keyAgreementTimeout s = .next t ∧ t.ka = none ∧
    (k.pol ≠ owner → (t.pol k.pol).state = .absent ∧ (t.pol k.pol).charter = Charter.none ∧ (s.hostPol ≠ k.pol → t.pol k.pol = (s.pol k.pol).emptied) ∧
      (∃ w ∈ t.arr.writes, w.value = .stored k.pol none ∧ w.started = false) ∧
      t.host = (if s.hostPol ≠ k.pol then s.host
        else if s.host.xfer.isSome then { s.host with leaving := some (s.host.leaving.getD k.pol) } else HostPort.initial)) ∧
    (k.pol = owner → (t.pol owner).answerHold = none ∧ t.host = s.host) ∧
    t = { s with ka := none, pols := t.pols, arr := t.arr, host := t.host, clock := t.clock } := by
  intro s k hk
  have hka : (s.abandonAgreement 1).ka = none := by
    by_cases ho : k.pol = owner
    · rw [State.abandonAgreement_owner hk ho, (Issues.ownerEvent _ _ _).frame]
      exact (State.rebindFrom_only s.hostPol (({ s with ka := none } : State).modPol owner (fun q => { q with answerHold := none }))).ka.resolve_left Bool.false_ne_true
    · rw [State.abandonAgreement_tenant hk ho, (Issues.ownerEvent _ _ _).frame]
      exact (State.rebindFrom_only s.hostPol (({ s with ka := none } : State).emptyTenant k.pol)).ka.resolve_left Bool.false_ne_true
  refine ⟨s.abandonAgreement 1, rfl, hka, fun ho => keyAgreementTimeout_tenant hk ho, fun ho => keyAgreementTimeout_owner hk ho, ?_⟩
  rw [← hka]
  exact (State.abandonAgreement_only 1 s).eq

theorem polderErase_empties : ∀ (s : State) (p : PolId) (g : Dissolution), (s.pol p).gone = some g → g.issued = true → p ≠ owner →
    ∃ t, exec (.polderErase p) s = .next t ∧ (t.pol p).state = .absent ∧ (t.pol p).key = testKey ∧ (t.pol p).charter = Charter.none ∧
      (t.pol p).queue = (s.pol p).queue ∧ (t.pol p).journal = [] ∧ (t.pol p).gone = none ∧ (t.pol p).nextAdmit = 0 ∧
      (t.pol p).trigOverrun = 0 ∧ (t.pol p).trigDropped = 0 ∧ (t.pol owner).trigOverrun = (s.pol owner).trigOverrun ∧
      (t.pol owner).trigDropped = (s.pol owner).trigDropped ∧
      (s.hostPol ≠ p → (t.pol p).dlv = (s.pol p).dlv) ∧ t.hostPol ≠ p ∧
      t.clock.tcmp[2 * p.val] = Tcmp.zero ∧ t.clock.tcmp[2 * p.val + 1] = Tcmp.zero ∧
      ((s.pol p).charter.bind.toNat.testBit 2 = true → t.dali = { Dali.initial with busDown := s.dali.busDown }) ∧
      t.wheel = s.wheel ∧ t.clock.tb = s.clock.tb ∧ t.cols = s.cols ∧ t.therm = s.therm := by
  intro s p g hg hi ho
  have hexec := execPolderErase_eq hg hi
  generalize leBytes 1 p.val ++ leBytes 1 g.reason ++ leBytes 2 g.goneCount ++ leBytes 4 g.lastFrame.toNat = payload at hexec
  have hpol : (((s.erased p).ownerEvent 0x0042 payload).leaveField).pol p = (s.erased p).pol p :=
    (Answers.leaveField.1 p ho).trans ((Issues.ownerEvent _ _ _).pol p ho)
  have howner := (((Issued.ownerEvent (s := s.erased p) 0x0042 payload).polder owner))
  have hanswered := (Answers.leaveField (s := (s.erased p).ownerEvent 0x0042 payload)).2
  have hempty : ∀ {α : Type} (f : Polder → α), (∀ (q : Polder) rq dv pa, f { q with replyQ := rq, dlv := dv, path := pa } = f q) →
      f ((((s.erased p).ownerEvent 0x0042 payload).leaveField).pol p) = f (s.pol p).emptied := fun f hf => by
    rw [hpol, State.erased_pol f hf, if_pos rfl]
  have hkept : ∀ {α : Type} (f : Polder → α), (∀ (q : Polder) rq dv pa, f { q with replyQ := rq, dlv := dv, path := pa } = f q) →
      f ((s.erased p).pol owner) = f (s.pol owner) := fun f hf => by
    rw [State.erased_pol f hf, if_neg (Ne.symm ho)]
  have hframe := execPolderErase_only p s _ hexec
  have hclock : (((s.erased p).ownerEvent 0x0042 payload).leaveField).clock = ((s.erased p).ownerEvent 0x0042 payload).clock :=
    (State.leaveField_only _).clock.resolve_left Bool.false_ne_true
  have hp := p.isLt
  refine ⟨_, hexec, hempty Polder.state fun _ _ _ _ => rfl, hempty Polder.key fun _ _ _ _ => rfl, hempty Polder.charter fun _ _ _ _ => rfl,
    hempty Polder.queue fun _ _ _ _ => rfl, hempty Polder.journal fun _ _ _ _ => rfl, hempty Polder.gone fun _ _ _ _ => rfl,
    hempty Polder.nextAdmit fun _ _ _ _ => rfl, hempty Polder.trigOverrun fun _ _ _ _ => rfl, hempty Polder.trigDropped fun _ _ _ _ => rfl,
    ?_, ?_, fun h => ?_, ?_, ?_, ?_, fun hb => ?_, hframe.wheel.resolve_left Bool.false_ne_true, hframe.tb.resolve_left Bool.false_ne_true,
    hframe.cols.resolve_left Bool.false_ne_true, hframe.therm.resolve_left Bool.false_ne_true⟩
  · rw [hanswered, howner]
    exact hkept Polder.trigOverrun fun _ _ _ _ => rfl
  · rw [hanswered, howner]
    exact hkept Polder.trigDropped fun _ _ _ _ => rfl
  · rw [hpol]
    exact State.erased_dlv h
  · exact State.bindHolder_ne ho (hempty Polder.state fun _ _ _ _ => rfl)
  · rw [hclock]
    exact (Issued.ownerEvent ..).tcmp ⟨2 * p.val, by omega⟩ State.erased_tcmp.1
  · rw [hclock]
    exact (Issued.ownerEvent ..).tcmp ⟨2 * p.val + 1, by omega⟩ State.erased_tcmp.2
  · rw [(State.leaveField_only _).dali.resolve_left Bool.false_ne_true, (Issues.ownerEvent _ _ _).frame]
    exact State.erased_dali hb

/-- Settles O37: each timer's meaning, the agreement and the erasure through what emptying a tenant and issuing an event leave. -/
theorem polderTimers : Obligations.PolderTimers :=
  ⟨assemblyTimeout_expires, answerHoldExpiry_drops, offerGenerate_forms, keyAgreementTimeout_ends, polderErase_empties⟩

end Sys2Proof.Machine
end

section
/-! PROOFS. Edges at the imaging-control lands and their timers (O40). -/

namespace Sys2Proof.Machine

variable {s : State} {p : PolId}

/-- A trigger of TRIG_IN, case by case (R193 to R196). -/
theorem State.trigger_trigIn (s : State) (p : PolId) :
    s.trigger p .trigIn =
      if (s.wheel.turning && (s.pol p).expo.triggered && (s.pol p).expo.srcTrigIn) = false then
        s.modPol p (fun q => { q with trigDropped := min 65535 (q.trigDropped + 1) })
      else if s.windowOpen p then
        { s with wheel := { s.wheel with slot := s.wheel.slot.map (fun x => { x with trig := some { src := .trigIn, at_ := s.clock.elapsed } }) } }
      else if (s.pol p).trigPending = none then s.modPol p (fun q => { q with trigPending := some { src := .trigIn, at_ := s.clock.elapsed } })
      else s.modPol p (fun q => { q with trigOverrun := min 65535 (q.trigOverrun + 1) }) := by
  simp only [← sat16_eq]
  by_cases hd : (s.wheel.turning && (s.pol p).expo.triggered && (s.pol p).expo.srcTrigIn) = false
  · have ho : s.trigOutcome p .trigIn = .dropped := if_pos (by
      cases ht : s.wheel.turning <;> cases he : (s.pol p).expo.triggered <;> simp_all [Expo.hasSource])
    rw [if_pos hd, State.trigger, ho]
  · have hd' : (!s.wheel.turning || !(s.pol p).expo.triggered || !(s.pol p).expo.hasSource .trigIn) = false := by
      simp only [Bool.not_eq_false, Bool.and_eq_true] at hd
      simp [hd, Expo.hasSource]
    have hout : s.trigOutcome p .trigIn = if s.windowOpen p then .accepted else if (s.pol p).trigPending.isNone then .pending else .overrun := by
      unfold State.trigOutcome
      dsimp only
      rw [hd']
      rfl
    rw [if_neg hd, State.trigger, hout]
    by_cases hw : s.windowOpen p
    · rw [if_pos hw, if_pos hw]
    · rw [if_neg hw, if_neg hw]
      by_cases hp : (s.pol p).trigPending = none
      · rw [if_pos hp, if_pos (by rw [hp]; rfl)]
      · rw [if_neg hp, if_neg (by simpa using hp)]

/-- No wake is latched while SEQ is ON and no entry runs (R159). -/
theorem State.latchWake_awake (i : Nat) (h7 : s.domOn 7 = true) (he : s.power.entry = none) : s.latchWake i = s := by
  simp [State.latchWake, h7, he]

/-- Without an entry a trigger is presented at once (R161). -/
theorem State.wakeTrigger_of_none (woke : Bool) (src : TrigSrc) (h : woke = false ∨ s.power.entry = none) : s.wakeTrigger woke p src = s.trigger p src := by
  rcases h with rfl | h
  · rfl
  · simp [State.wakeTrigger, h]

theorem execTrigInEdge_free (hl : s.landsFree = true) (hr : s.lands.refractory = false)
    (hw : s.power.wakeEn.toNat.testBit 4 = false ∨ (s.domOn 7 = true ∧ s.power.entry = none)) :
    execTrigInEdge s = .next (({ s with lands := { s.lands with refractory := true } } : State).trigger (s.bindHolder 1) .trigIn) := by
  simp only [execTrigInEdge, hl, hr, Bool.not_true, Bool.false_eq_true, if_false]
  congr 1
  rcases hw with hw | ⟨h7, he⟩
  · rw [hw]
    rfl
  · rw [State.latchWake_awake 4 (s := { s with lands := { s.lands with refractory := true } }) h7 he, ite_self]
    exact State.wakeTrigger_of_none _ _ (.inr he)

/-- A period of R206 in whole numbers. -/
theorem periodValid_iff (p v : Nat) :
    periodValid p v = true ↔ 200000 ≤ p ∧ p ≤ 10000000 ∧ (v = 0 ∨ (10 * p ≤ 11 * v ∧ 9 * v ≤ 10 * p)) := by
  simp only [periodValid, Bool.and_eq_true, Bool.or_eq_true, decide_eq_true_eq, beq_iff_eq, and_assoc]
  refine and_congr_right fun _ => and_congr_right fun _ => or_congr_right ?_
  omega

/-- An edge a period after the last, while the lock source is not lost (R206, R207). -/
theorem execSyncInEdge_period {e : Nat} (hl : s.landsFree = true) (he : s.lands.sync.lastEdge = some e) (hm : s.lands.sync.missingRun = 0)
    (hlost : s.lands.sync.lost = false) :
    execSyncInEdge s = .next
      { s.syncPeriod (s.clock.elapsed - e) with lands := { (s.syncPeriod (s.clock.elapsed - e)).lands with
          sync := { (s.syncPeriod (s.clock.elapsed - e)).lands.sync with
            lastEdge := some (s.syncPeriod (s.clock.elapsed - e)).clock.elapsed, missingRun := 0 } } } := by
  simp only [execSyncInEdge, hl, he, hm, hlost, Bool.not_true, Bool.false_eq_true, if_false, ne_eq, not_true_eq_false]

/-- Losing the lock source changes of it only what R207 says. -/
theorem State.loseSync_sync : s.loseSync.lands.sync =
    { s.lands.sync with lost := true, agreeRun := 0, measured := s.lands.sync.validPeriod, prev := none } := by
  unfold State.loseSync
  rw [(State.syncLostEvents_only ..).lands.resolve_left Bool.false_ne_true]

/-- A bad period counts, and the third in a row loses the lock source (R207). -/
theorem State.badPeriod_sync : s.badPeriod.lands.sync =
    if 3 ≤ s.lands.sync.badRun + 1 then
      { s.lands.sync with badRun := s.lands.sync.badRun + 1, lost := true, agreeRun := 0, measured := s.lands.sync.validPeriod, prev := none }
    else { s.lands.sync with badRun := s.lands.sync.badRun + 1 } := by
  unfold State.badPeriod
  dsimp only
  split
  · exact State.loseSync_sync
  · rfl

theorem trigIn_triggers : ∀ s : State, s.landsFree = true → s.lands.refractory = false → (s.power.wakeEn.toNat.testBit 4 = false ∨ (s.domOn 7 = true ∧ s.power.entry = none)) →
    let p := s.bindHolder 1
    let trig : Trigger := { src := .trigIn, at_ := s.clock.elapsed }
    let a : State := { s with lands := { s.lands with refractory := true } }
    exec .trigInEdge s = .next (
      if (s.wheel.turning && (s.pol p).expo.triggered && (s.pol p).expo.srcTrigIn) = false then
        a.modPol p (fun q => { q with trigDropped := min 65535 (q.trigDropped + 1) })
      else if s.windowOpen p then { a with wheel := { a.wheel with slot := a.wheel.slot.map (fun x => { x with trig := some trig }) } }
      else if (s.pol p).trigPending = none then a.modPol p (fun q => { q with trigPending := some trig })
      else a.modPol p (fun q => { q with trigOverrun := min 65535 (q.trigOverrun + 1) })) := by
  intro s hl hr hw
  exact (execTrigInEdge_free hl hr hw).trans (congrArg _ (State.trigger_trigIn ..))

theorem trigIn_refractory : ∀ s : State, s.landsFree = true → s.lands.refractory = true → exec .trigInEdge s = .next (s.modPol (s.bindHolder 1) (fun q =>
      if s.wheel.turning && q.expo.triggered then { q with trigOverrun := min 65535 (q.trigOverrun + 1) }
      else { q with trigDropped := min 65535 (q.trigDropped + 1) })) := by
  intro s hl hr
  show execTrigInEdge s = _
  simp only [execTrigInEdge, hl, hr, Bool.not_true, Bool.false_eq_true, if_false, if_true, State.countEdge, sat16_eq]

theorem lands_taken : ∀ s : State, s.landsFree = false → exec .trigInEdge s = .next s ∧ exec .syncInEdge s = .next s ∧ exec .commissionNRise s = .next s := by
  intro s hl
  have hl' : (!s.landsFree) = true := by rw [hl]; rfl
  exact ⟨congrArg _ (if_pos hl'), congrArg _ (if_pos hl'), congrArg _ (if_neg (by rw [hl]; decide))⟩

theorem trigRefractory_ends : ∀ s : State, exec .trigRefractoryEnd s = .next { s with lands := { s.lands with refractory := false } } :=
  fun s => rfl

theorem commissionN_rises : ∀ s : State, s.landsFree = true → exec .commissionNRise s = .next
    { s with lands := { s.lands with commissionStays := false, pixDisable := true } } := by
  intro s hl
  exact congrArg _ (if_pos hl)

theorem syncIn_period : ∀ (s : State) (e : Nat), s.landsFree = true → s.lands.sync.lastEdge = some e → s.lands.sync.missingRun = 0 → s.lands.sync.lost = false →
    let p := s.clock.elapsed - e
    let y := s.lands.sync
    (200000 ≤ p ∧ p ≤ 10000000 ∧ (y.validPeriod = 0 ∨ (10 * p ≤ 11 * y.validPeriod ∧ 9 * y.validPeriod ≤ 10 * p)) →
      exec .syncInEdge s = .next { s with lands := { s.lands with sync :=
        { y with validPeriod := p, validEdge := s.clock.tb, validAt := s.clock.elapsed, badRun := 0, lastEdge := some s.clock.elapsed } } }) ∧
    (p < 200000 ∨ 10000000 < p → y.badRun < 2 →
      exec .syncInEdge s = .next { s with lands := { s.lands with sync :=
        { y with badRun := y.badRun + 1, lastEdge := some s.clock.elapsed } } }) ∧
    (p < 200000 ∨ 10000000 < p → 2 ≤ y.badRun → ∃ t, exec .syncInEdge s = .next t ∧ t.lands.sync.lost = true ∧
      t.lands.sync.validPeriod = y.validPeriod) := by
  intro s e hl he hm hlost
  have hexec := execSyncInEdge_period hl he hm hlost
  dsimp only
  generalize s.clock.elapsed - e = p at hexec
  have hbad : p < 200000 ∨ 10000000 < p → s.syncPeriod p = s.badPeriod := fun hp => if_neg (by
    rw [periodValid_iff]
    omega)
  refine ⟨fun hp => ?_, fun hp hb => ?_, fun hp hb => ?_⟩
  · have hvalid : s.syncPeriod p = { s with lands := { s.lands with sync := { s.lands.sync with
        validPeriod := p, validEdge := s.clock.tb, validAt := s.clock.elapsed, badRun := 0 } } } := if_pos ((periodValid_iff _ _).mpr hp)
    rw [hvalid] at hexec
    refine hexec.trans ?_
    simp only [hm]
  · have hstays : s.badPeriod = { s with lands := { s.lands with sync := { s.lands.sync with badRun := s.lands.sync.badRun + 1 } } } :=
      if_neg (by omega)
    rw [hbad hp, hstays] at hexec
    refine hexec.trans ?_
    simp only [hm]
  · have hloses : s.badPeriod = ({ s with lands := { s.lands with sync := { s.lands.sync with badRun := s.lands.sync.badRun + 1 } } } : State).loseSync :=
      if_pos (by omega)
    rw [hbad hp, hloses] at hexec
    refine ⟨_, hexec, ?_, ?_⟩
    · rw [State.loseSync_sync]
    · rw [State.loseSync_sync]

theorem syncPeriod_missing : ∀ s : State, s.lands.sync.validPeriod ≠ 0 → s.lands.sync.lastEdge.isSome = true → s.lands.sync.lost = false →
    ∃ t, exec .syncPeriodMissing s = .next t ∧ t.lands.sync.missingRun = s.lands.sync.missingRun + 1 ∧
      t.lands.sync.lost = decide (2 ≤ s.lands.sync.badRun) ∧ t.lands.sync.badRun = s.lands.sync.badRun + 1 ∧
      t.lands.sync.validPeriod = s.lands.sync.validPeriod ∧ t.wheel = s.wheel ∧ t.cols = s.cols := by
  intro s hv he hlost
  have hexec : execSyncPeriodMissing s = .next (({ s with lands := { s.lands with sync := { s.lands.sync with
      missingRun := s.lands.sync.missingRun + 1, agreeRun := 0, prev := none } } } : State).badPeriod) := by
    refine congrArg _ ((if_neg ?_).trans (if_neg ?_))
    · rintro (h | h)
      · exact hv h
      · simp [Option.isNone_iff_eq_none.mp h] at he
    · rw [hlost]
      decide
  have hframe := execSyncPeriodMissing_only s _ hexec
  refine ⟨_, hexec, ?_, ?_, ?_, ?_, hframe.wheel.resolve_left Bool.false_ne_true, hframe.cols.resolve_left Bool.false_ne_true⟩
  · rw [State.badPeriod_sync]
    split <;> rfl
  · rw [State.badPeriod_sync]
    split
    · next h => exact (decide_eq_true (Nat.le_of_succ_le_succ h)).symm
    · next h => exact hlost.trans (decide_eq_false fun hn => h (Nat.succ_le_succ hn)).symm
  · rw [State.badPeriod_sync]
    split <;> rfl
  · rw [State.badPeriod_sync]
    split <;> rfl

/-- Settles O40: each event by the cases of its definition. -/
theorem landEvents : Obligations.LandEvents :=
  ⟨trigIn_triggers, trigIn_refractory, lands_taken, trigRefractory_ends, commissionN_rises, syncIn_period, syncPeriod_missing⟩

end Sys2Proof.Machine
end

section
/-! PROOFS. DALI frames, the bus supply and events (O55). -/

namespace Sys2Proof.Machine

variable {s : State} {f : DaliFrame}

/-- A frame for this device whose answer the spec fixes (R652 to R655). -/
theorem execDaliFrameReceive_query {a : Option Byte} (hact : s.daliActive = true) (hbus : s.dali.busDown = false) (hadr : f.address ≠ 0xc1)
    (hfor : daliAddressed f s.daliWanted.shortAddr = true) (hq : s.daliQuery f = some a) :
    execDaliFrameReceive f s = .next { s with dali := { s.dali with answer := a } } := by
  have h1 : ¬ (!s.daliActive || s.dali.busDown) = true := by simp [hact, hbus]
  rw [execDaliFrameReceive, if_neg h1, if_neg hadr, if_neg (by simp [hfor]), hq]
  rfl

/-- An addressing command (R652). -/
theorem execDaliFrameReceive_special (hact : s.daliActive = true) (hbus : s.dali.busDown = false) (hadr : f.address = 0xc1) :
    execDaliFrameReceive f s = .next (s.daliSpecial f.inst f.opcode) := by
  have h1 : ¬ (!s.daliActive || s.dali.busDown) = true := by simp [hact, hbus]
  rw [execDaliFrameReceive, if_neg h1, if_pos hadr]

/-- The input value of instance 0: two bits, four times (R653). -/
theorem Dali.occValue_eq (d : Dali) : d.occValue = match d.occupied, d.movement with
    | false, false => 0x00
    | false, true => 0x55
    | true, false => 0xaa
    | true, true => 0xff := by
  cases ho : d.occupied <;> cases hm : d.movement <;> simp [Dali.occValue, ho, hm, b2n]

/-- A query by its instance and opcode (R652 to R655). -/
theorem State.daliQuery_of {i o : Byte} (hi : f.inst = i) (ho : f.opcode = o) :
    s.daliQuery f =
      if i = 0xfe ∧ o = 0x35 then some (some 2)
      else if 1 < i.toNat then none
      else if o = 0x80 then some (some (if i.toNat = 0 then 3 else 4))
      else if o = 0x82 then some (if (s.daliArea i.toNat).isNone then some 0xff else none)
      else if o = 0x8c then some ((s.daliArea i.toNat).map (fun _ => if i.toNat = 0 then s.dali.occValue else BitVec.ofNat 8 (s.dali.lux / 256)))
      else if o = 0x8d ∧ i.toNat = 1 then some ((s.daliArea 1).map (fun _ => BitVec.ofNat 8 s.dali.lux))
      else if o = 0x2d ∧ i.toNat = 0 then some ((s.daliArea 0).map holdTimerUnits)
      else if o = 0x21 ∧ i.toNat = 0 then some none
      else none := by
  rw [State.daliQuery, hi, ho]

/-- Where no DALI item waits, the committed one stands (R656). -/
theorem State.daliWanted_of (h : ∀ w ∈ s.arr.writes, w.value.item ≠ 0x13) : s.daliWanted = s.arr.dali := by
  have hf : s.arr.writes.reverse.find? (fun w => w.value.item == 0x13) = none := by
    rw [List.find?_eq_none]
    intro w hw
    simpa using h w (List.mem_reverse.mp hw)
  simp [State.daliWanted, State.requested?, hf]

/-- A request for an item of which none waits goes behind the others (R549). -/
theorem State.requestItem_append {p : PolId} {v : ItemValue} (h : ∀ w ∈ s.arr.writes, w.value.item ≠ v.item) :
    s.requestItem p v = { s with arr := { s.arr with writes := s.arr.writes ++
      [{ value := v, pol := p, pagesLeft := itemPages v.item, started := false }] } } := by
  have key : ∀ l : List ItemWrite, (∀ w ∈ l, w.value.item ≠ v.item) → replaceWaiting v p l = none := by
    intro l
    induction l with
    | nil => exact fun _ => rfl
    | cons x rest ih =>
      intro hl
      unfold replaceWaiting
      rw [if_neg (by simp [hl x List.mem_cons_self]), ih (fun w hw => hl w (List.mem_cons_of_mem _ hw))]
      rfl
  rw [State.requestItem, key _ h]
  rfl

/-- A byte of the search address replaced reads back (R652). -/
theorem setSearch_byte (a : BitVec 24) (k : Nat) (hk : k < 3) (v : Byte) : (setSearch a k v).toNat / 256 ^ k % 256 = v.toNat := by
  have ha := a.isLt
  have hv := v.isLt
  rw [setSearch, BitVec.toNat_ofNat]
  generalize a.toNat = x at ha
  generalize v.toNat = y at hv
  match k, hk with
  | 0, _ => simp; omega
  | 1, _ => simp; omega
  | 2, _ => simp; omega

/-- PROGRAM SHORT ADDRESS for the device that was found (R652, R656). -/
theorem State.daliSpecial_program {v : Byte} (hinit : s.dali.initialised = true) (hfound : s.daliWanted.randomAddr = s.dali.searchAddr)
    (hlt : v.toNat < 64) (hne : v ≠ s.daliWanted.shortAddr) (hno : ∀ w ∈ s.arr.writes, w.value.item ≠ 0x13) :
    s.daliSpecial 0x08 v = { s with
      dali := { s.dali with answer := none },
      arr := { s.arr with writes := s.arr.writes ++
        [{ value := .dali { s.arr.dali with shortAddr := v }, pol := s.bindHolder 2, pagesLeft := itemPages 0x13, started := false }] } } := by
  have hcond : ((s.dali.initialised && s.daliWanted.randomAddr == s.dali.searchAddr) && (v == 0xff || decide (v.toNat < 64))) = true := by
    simp [hinit, hfound, hlt]
  have hdiff : { s.daliWanted with shortAddr := v } ≠ (s.daliAnswer none).daliWanted := fun h => hne (congrArg DaliItem.shortAddr h)
  have hreq := State.requestItem_append (s := s.daliAnswer none) (p := s.bindHolder 2) (v := .dali { s.daliWanted with shortAddr := v }) hno
  refine (if_pos hcond).trans ((if_neg hdiff).trans (hreq.trans ?_))
  rw [State.daliWanted_of hno]
  rfl

theorem daliFrame_silent : ∀ (s : State) (f : DaliFrame), s.daliActive = false ∨ s.dali.busDown = true → exec (.daliFrameReceive f) s = .next s := by
  intro s f h
  exact congrArg _ (if_pos (by rcases h with h | h <;> simp [h]))

theorem daliFrame_other : ∀ (s : State) (f : DaliFrame), s.daliActive = true → s.dali.busDown = false → f.address ≠ 0xc1 → daliAddressed f s.daliWanted.shortAddr = false →
    exec (.daliFrameReceive f) s = .next { s with dali := { s.dali with answer := none } } := by
  intro s f hact hbus hadr hfor
  have h1 : ¬ (!s.daliActive || s.dali.busDown) = true := by simp [hact, hbus]
  show execDaliFrameReceive f s = _
  rw [execDaliFrameReceive, if_neg h1, if_neg hadr, if_pos (by rw [hfor]; rfl)]
  rfl

theorem daliFrame_queries : ∀ (s : State) (f : DaliFrame), s.daliActive = true → s.dali.busDown = false → f.address ≠ 0xc1 → daliAddressed f s.daliWanted.shortAddr = true →
    let said : Option Byte → Host.Outcome State Fault Refusal := fun a => .next { s with dali := { s.dali with answer := a } }
    (f.inst = 0xfe → f.opcode = 0x35 → exec (.daliFrameReceive f) s = said (some 2)) ∧
    (f.inst = 0 → f.opcode = 0x80 → exec (.daliFrameReceive f) s = said (some 3)) ∧
    (f.inst = 1 → f.opcode = 0x80 → exec (.daliFrameReceive f) s = said (some 4)) ∧
    (f.inst = 0 → f.opcode = 0x8c → s.daliArea 0 = none → exec (.daliFrameReceive f) s = said none) ∧
    (∀ a, f.inst = 0 → f.opcode = 0x8c → s.daliArea 0 = some a → exec (.daliFrameReceive f) s =
      said (some (match s.dali.occupied, s.dali.movement with
        | false, false => 0x00
        | false, true => 0x55
        | true, false => 0xaa
        | true, true => 0xff))) ∧
    (∀ a, f.inst = 1 → f.opcode = 0x8c → s.daliArea 1 = some a → exec (.daliFrameReceive f) s = said (some (BitVec.ofNat 8 (s.dali.lux / 256)))) ∧
    (∀ a, f.inst = 1 → f.opcode = 0x8d → s.daliArea 1 = some a → exec (.daliFrameReceive f) s = said (some (BitVec.ofNat 8 s.dali.lux))) ∧
    (∀ a, f.inst = 0 → f.opcode = 0x2d → s.daliArea 0 = some a →
      exec (.daliFrameReceive f) s = said (some (BitVec.ofNat 8 (min 254 ((a.holdSeconds + 9) / 10))))) ∧
    (f.inst = 0 → f.opcode = 0x21 → exec (.daliFrameReceive f) s = said none) ∧
    (f.inst.toNat < 2 → f.opcode = 0x82 → s.daliArea f.inst.toNat = none → exec (.daliFrameReceive f) s = said (some 0xff)) := by
  intro s f hact hbus hadr hfor
  have hq : ∀ a, s.daliQuery f = some a → execDaliFrameReceive f s = _ := fun a => execDaliFrameReceive_query hact hbus hadr hfor
  refine ⟨fun hi ho => hq _ ?_, fun hi ho => hq _ ?_, fun hi ho => hq _ ?_, fun hi ho ha => hq _ ?_, fun a hi ho ha => hq _ ?_,
    fun a hi ho ha => hq _ ?_, fun a hi ho ha => hq _ ?_, fun a hi ho ha => hq _ ?_, fun hi ho => hq _ ?_, fun hi ho ha => hq _ ?_⟩
  · rw [State.daliQuery_of hi ho]
    rfl
  · rw [State.daliQuery_of hi ho]
    rfl
  · rw [State.daliQuery_of hi ho]
    rfl
  · rw [State.daliQuery_of hi ho]
    show some ((s.daliArea 0).map _) = _
    rw [ha]
    rfl
  · rw [State.daliQuery_of hi ho]
    show some ((s.daliArea 0).map _) = _
    rw [ha]
    exact congrArg (some ∘ some) (Dali.occValue_eq _)
  · rw [State.daliQuery_of hi ho]
    show some ((s.daliArea 1).map _) = _
    rw [ha]
    rfl
  · rw [State.daliQuery_of hi ho]
    show some ((s.daliArea 1).map _) = _
    rw [ha]
    rfl
  · rw [State.daliQuery_of hi ho]
    show some ((s.daliArea 0).map _) = _
    rw [ha]
    rfl
  · rw [State.daliQuery_of hi ho]
    rfl
  · have h1 : ¬ (f.inst = 0xfe ∧ (0x82 : Byte) = 0x35) := by simp
    rw [State.daliQuery_of rfl ho, if_neg h1, if_neg (by omega), if_neg (by decide), if_pos rfl, ha]
    rfl

theorem daliFrame_special : ∀ (s : State) (f : DaliFrame), s.daliActive = true → s.dali.busDown = false → f.address = 0xc1 →
    (f.inst = 0x08 → s.dali.initialised = true → s.daliWanted.randomAddr = s.dali.searchAddr → f.opcode.toNat < 64 → f.opcode ≠ s.daliWanted.shortAddr →
      (∀ w ∈ s.arr.writes, w.value.item ≠ 0x13) →
      let w : ItemWrite := { value := .dali { s.arr.dali with shortAddr := f.opcode }, pol := s.bindHolder 2, pagesLeft := itemPages 0x13, started := false }
      exec (.daliFrameReceive f) s =
        .next { s with dali := { s.dali with answer := none }, arr := { s.arr with writes := s.arr.writes ++ [w] } }) ∧
    (f.inst = 0x03 → exec (.daliFrameReceive f) s = .next { s with dali := { s.dali with
      answer := if s.dali.initialised && decide (s.daliWanted.randomAddr.toNat ≤ s.dali.searchAddr.toNat) then some 0xff else none } }) ∧
    (f.inst = 0x05 ∨ f.inst = 0x06 ∨ f.inst = 0x07 → ∃ t, exec (.daliFrameReceive f) s = .next t ∧
      t = { s with dali := { s.dali with answer := none, searchAddr := t.dali.searchAddr } } ∧
      (t.dali.searchAddr.toNat / 256 ^ (7 - f.inst.toNat)) % 256 = f.opcode.toNat) := by
  intro s f hact hbus hadr
  have hexec := execDaliFrameReceive_special hact hbus hadr
  refine ⟨fun hi hinit hfound hlt hne hno => ?_, fun hi => ?_, fun hi => ?_⟩
  · rw [hi] at hexec
    refine hexec.trans (congrArg _ ?_)
    exact State.daliSpecial_program hinit hfound hlt hne hno
  · rw [hi] at hexec
    exact hexec
  · rcases hi with hi | hi | hi
    · rw [hi] at hexec ⊢
      exact ⟨_, hexec, rfl, setSearch_byte _ 2 (by decide) _⟩
    · rw [hi] at hexec ⊢
      exact ⟨_, hexec, rfl, setSearch_byte _ 1 (by decide) _⟩
    · rw [hi] at hexec ⊢
      exact ⟨_, hexec, rfl, setSearch_byte _ 0 (by decide) _⟩

theorem daliBus_power : ∀ s : State, s.daliActive = true →
    exec .daliBusPowerLost s = .next { s with dali := { s.dali with busDown := true, pendingEv := [] } } ∧
    exec .daliBusPowerRestored s = .next { s with dali := { s.dali with busDown := false } } := by
  intro s hact
  exact ⟨congrArg _ (if_pos hact), congrArg _ (if_pos hact)⟩

theorem daliReport_timer : ∀ (s : State) (inst : Fin 2), (s.dali.timerOn[inst] = false ∨ s.dali.busDown = true ∨ s.daliArea inst.val = none →
      exec (.daliReportTimer inst) s = .next s) ∧
    (∀ a, s.dali.timerOn[inst] = true → s.dali.busDown = false → s.daliArea inst.val = some a → s.daliActive = true →
      let info : Nat := if inst = 0 then 2 * (if s.dali.occupied then 1 else 0) + (if s.dali.movement then 1 else 0) else s.dali.lux / 64
      exec (.daliReportTimer inst) s = .next { s with dali := { s.dali with pendingEv := s.dali.pendingEv ++ [(inst.val, info)],
                                                                            timerOn := s.dali.timerOn.set inst true } }) := by
  intro s inst
  refine ⟨fun h => ?_, fun a hon hbus ha hact => ?_⟩
  · show execDaliReportTimer inst s = _
    unfold execDaliReportTimer State.daliEvent
    rcases h with h | h | h <;> simp [h]
  · refine congrArg _ ((if_pos hon).trans ((if_neg ?_).trans ?_))
    · simp [hbus, ha, hact]
    · unfold Dali.eventInfo
      match inst with
      | 0 => rfl
      | 1 => rfl

theorem daliEvent_sent : ∀ (s : State) (e : Nat × Nat) (rest : List (Nat × Nat)), s.dali.pendingEv = e :: rest →
    exec (.daliEventSend true) s = .next s ∧
    (s.daliActive = true → s.dali.busDown = false →
      exec (.daliEventSend false) s = .next { s with dali := { s.dali with pendingEv := rest, sentEv := [e] } }) := by
  intro s e rest he
  refine ⟨?_, fun hact hbus => ?_⟩
  · show execDaliEventSend true s = _
    simp [execDaliEventSend, he]
  · show execDaliEventSend false s = _
    simp [execDaliEventSend, he, hact, hbus]

/-- Settles O55: each query, each addressing command and each event by its branch. -/
theorem daliEvents : Obligations.DaliEvents :=
  ⟨daliFrame_silent, daliFrame_other, daliFrame_queries, daliFrame_special, daliBus_power, daliReport_timer, daliEvent_sent⟩

end Sys2Proof.Machine
end

section
/-! PROOFS. The holdup store (O46). -/

namespace Sys2Proof.Machine

variable {s : State}

/-- Where a condition of R91 is met: what it leaves of the holdup state. -/
theorem State.holdupLow_holdup (reason : Nat) : (s.holdupLow reason).holdup =
    if s.holdup.low && (s.holdup.firstOkDone || s.holdup.lowSent) then s.holdup
    else { s.holdup with low := true, lowSent := true, lastReason := reason } := by
  unfold State.holdupLow
  dsimp only
  by_cases hc : (s.holdup.low && (s.holdup.firstOkDone || s.holdup.lowSent)) = true
  · rw [if_pos hc, if_pos hc]
    split <;> rfl
  · rw [if_neg hc, if_neg hc, (State.supplyEvent_only ..).holdup.resolve_left Bool.false_ne_true]

/-- HOLDUP_LOW holds once a condition of R91 has been met. -/
theorem State.holdupLow_low (reason : Nat) : (s.holdupLow reason).holdup.low = true := by
  rw [State.holdupLow_holdup]
  split
  · next h => exact (Bool.and_eq_true_iff.mp h).1
  · rfl

/-- A new HOLDUP_LOW keeps the page program in progress and no other (R559). -/
theorem State.holdupLow_jobs (reason : Nat) (h : s.holdup.low = false) : (s.holdupLow reason).arr.jobs = s.activeJob.toList := by
  unfold State.holdupLow
  simp only [h, Bool.false_and, Bool.false_eq_true, if_false]
  exact ((Issued.supplyEvent ..).jobs rfl).trans rfl

/-- HOLDUP_LOW ends where R92 says, and only there. -/
theorem State.holdupJudge_ends (hl : s.holdup.low = true) (hc : s.holdup.checkPassed = true) (hm : 14000 ≤ s.holdup.lastMv) :
    (s.holdupJudge).holdup = { s.holdup with low := false, firstOkDone := true, lowSent := false } ∧
      (s.holdupJudge).arr.heldJobs = [] ∧ ∃ l, (s.holdupJudge).arr.jobs = s.arr.jobs ++ s.arr.heldJobs ++ l := by
  have key : ∀ u : State, u.holdup = { s.holdup with low := false, firstOkDone := true, lowSent := false } → u.arr.heldJobs = [] →
      u.arr.jobs = s.arr.jobs ++ s.arr.heldJobs → ∀ c payload, (u.supplyEvent c payload).holdup = { s.holdup with low := false, firstOkDone := true, lowSent := false } ∧ (u.supplyEvent c payload).arr.heldJobs = [] ∧
        ∃ l, (u.supplyEvent c payload).arr.jobs = s.arr.jobs ++ s.arr.heldJobs ++ l := fun u hu hh hj c payload => by
    have hi := Issued.supplyEvent (s := u) c payload
    obtain ⟨h1, l, h2⟩ := hi.heldJobs (by rw [hu])
    exact ⟨hi.holdup.trans hu, h1.trans hh, l, by rw [h2, hj]⟩
  have hcond : (s.holdup.low && s.holdup.checkPassed && decide (14000 ≤ s.holdup.lastMv)) = true := by simp [hl, hc, hm]
  unfold State.holdupJudge
  dsimp only
  rw [if_pos hcond]
  split
  · split
    · exact key _ rfl rfl rfl _ _
    · exact key _ rfl rfl rfl _ _
  · split
    · exact ⟨rfl, rfl, [], (List.append_nil _).symm⟩
    · exact ⟨rfl, rfl, [], (List.append_nil _).symm⟩

theorem State.holdupJudge_stays (h : s.holdup.low = false ∨ s.holdup.checkPassed = false ∨ s.holdup.lastMv < 14000) : s.holdupJudge = s := by
  refine if_neg ?_
  simp only [Bool.and_eq_true, decide_eq_true_eq, not_and, Nat.not_le]
  rintro ⟨h1, h2⟩
  rcases h with h | h | h
  · rw [h] at h1; cases h1
  · rw [h] at h2; cases h2
  · exact h

/-- What a judgement never changes of the holdup state. -/
theorem State.holdupJudge_same {α : Type} (f : Holdup → α) (hf : ∀ h : Holdup, f { h with low := false, firstOkDone := true, lowSent := false } = f h) :
    f (s.holdupJudge).holdup = f s.holdup := by
  by_cases h : s.holdup.low = true ∧ s.holdup.checkPassed = true ∧ 14000 ≤ s.holdup.lastMv
  · obtain ⟨h1, h2, h3⟩ := h
    rw [(State.holdupJudge_ends h1 h2 h3).1, hf]
  · rw [State.holdupJudge_stays]
    by_contra hn
    simp only [not_or, Bool.not_eq_false, Nat.not_lt] at hn
    exact h hn

/-- What a condition of R91 never changes of the holdup state. -/
theorem State.holdupLow_same {α : Type} (f : Holdup → α) (hf : ∀ (h : Holdup) r, f { h with low := true, lowSent := true, lastReason := r } = f h)
    (reason : Nat) : f (s.holdupLow reason).holdup = f s.holdup := by
  rw [State.holdupLow_holdup]
  split
  · rfl
  · exact hf _ _

/-- A measurement taken, before it is judged (R89). -/
def State.measured (mv current : Nat) (s : State) : State :=
  let u := s.placeStart mv
  let h := u.holdup.charge mv current
  let complete := h.estimateDone mv
  { u with holdup := { h with
      lastMv := mv, seen12 := decide (12000 ≤ mv), reached14 := h.reached14 || decide (14000 ≤ mv),
      holding := h.charger && (h.holding || decide (15500 ≤ mv)), startedBelow4 := h.startedBelow4 && !complete,
      checkPassed := if complete then h.estimateOk else h.checkPassed } }

/-- What placing the start and counting the charge leave of the holdup state (R88, R89). -/
theorem State.placeStart_same {α : Type} (f : Holdup → α) (hf : ∀ (h : Holdup) a b, f { h with firstMeasure := a, startedBelow4 := b } = f h) (mv : Nat) :
    f (s.placeStart mv).holdup = f s.holdup := by
  unfold State.placeStart
  dsimp only
  split
  · rfl
  · split
    · exact hf _ _ _
    · exact hf _ _ _

theorem Holdup.charge_same {α : Type} (f : Holdup → α) (hf : ∀ (h : Holdup) a b, f { h with sinceV4 := a, chargeSum := b } = f h) (mv current : Nat)
    (h : Holdup) : f (h.charge mv current) = f h := by
  unfold Holdup.charge
  split
  · rfl
  · split
    · split
      · exact hf _ _ _
      · rfl
    · exact hf _ _ _

theorem State.measured_low (mv current : Nat) : (s.measured mv current).holdup.low = s.holdup.low :=
  (Holdup.charge_same Holdup.low (fun _ _ _ => rfl) ..).trans (State.placeStart_same Holdup.low (fun _ _ _ => rfl) mv)

theorem State.measured_arr (mv current : Nat) : (s.measured mv current).arr = s.arr :=
  (State.placeStart_only mv s).arr.resolve_left Bool.false_ne_true

theorem State.measured_activeJob (mv current : Nat) : (s.measured mv current).activeJob = s.activeJob := by
  have hc : (s.measured mv current).curSlice = s.curSlice := (State.placeStart_only mv s).curSlice.resolve_left Bool.false_ne_true
  rw [State.activeJob, State.measured_arr, hc, State.activeJob]

/-- The charge did not start below 4 V: no estimate, and the check stands (R89, R92). -/
theorem State.measured_checkPassed {mv current : Nat} (h4 : s.holdup.startedBelow4 = false) (hf : s.holdup.firstMeasure = false) :
    (s.measured mv current).holdup.checkPassed = s.holdup.checkPassed ∧ ((s.placeStart mv).holdup.charge mv current).estimateDone mv = false := by
  have hp : s.placeStart mv = s := if_pos (by rw [hf]; rfl)
  have hd : ((s.placeStart mv).holdup.charge mv current).estimateDone mv = false := by
    rw [hp, Holdup.estimateDone, Holdup.charge_same Holdup.startedBelow4 (fun _ _ _ => rfl), h4]
    simp
  refine ⟨?_, hd⟩
  show (if ((s.placeStart mv).holdup.charge mv current).estimateDone mv then _ else ((s.placeStart mv).holdup.charge mv current).checkPassed) = _
  rw [hd, hp]
  exact Holdup.charge_same Holdup.checkPassed (fun _ _ _ => rfl) ..

/-- The measurement judged: a failed estimate, a fall below 12 V, the end of HOLDUP_LOW (R91, R92). -/
def State.judged (mv current : Nat) (s : State) : State :=
  let h := (s.placeStart mv).holdup.charge mv current
  let u := if h.estimateDone mv && !h.estimateOk then (s.measured mv current).holdupLow 3 else s.measured mv current
  if h.seen12 && decide (mv < 12000) then u.holdupLow 2 else u

theorem execHoldMeasure_eq {mv current : Nat} (hmv : mv ≤ 18000) (hs : s.power.shedding = false) (ha : s.power.aonReady = true)
    (hl : s.power.lineGood = true) : execHoldMeasure mv current s = .next (s.judged mv current).holdupJudge := by
  rw [execHoldMeasure, if_neg (by omega), if_neg (by rw [hs]; decide), if_neg (by rw [ha, hl]; decide)]
  rfl

/-- What no condition of R91 changes stands as measured. -/
theorem State.judged_same {α : Type} (f : Holdup → α) (hf : ∀ (h : Holdup) r, f { h with low := true, lowSent := true, lastReason := r } = f h)
    (mv current : Nat) : f (s.judged mv current).holdup = f (s.measured mv current).holdup := by
  have h3 : f (if ((s.placeStart mv).holdup.charge mv current).estimateDone mv && !((s.placeStart mv).holdup.charge mv current).estimateOk
      then (s.measured mv current).holdupLow 3 else s.measured mv current).holdup = f (s.measured mv current).holdup := by
    split
    · exact State.holdupLow_same f hf 3
    · rfl
  unfold State.judged
  dsimp only
  split
  · exact (State.holdupLow_same f hf 2).trans h3
  · exact h3

theorem State.judged_lastMv (mv current : Nat) : (s.judged mv current).holdup.lastMv = mv :=
  State.judged_same Holdup.lastMv (fun _ _ => rfl) mv current

/-- HOLDUP_LOW stays under a measurement that is not judged. -/
theorem State.judged_low {mv current : Nat} (h : s.holdup.low = true) : (s.judged mv current).holdup.low = true := by
  have h3 : (if ((s.placeStart mv).holdup.charge mv current).estimateDone mv && !((s.placeStart mv).holdup.charge mv current).estimateOk
      then (s.measured mv current).holdupLow 3 else s.measured mv current).holdup.low = true := by
    split
    · exact State.holdupLow_low 3
    · rw [State.measured_low, h]
  unfold State.judged
  dsimp only
  split
  · exact State.holdupLow_low 2
  · exact h3

/-- Above 12 V, where the charge did not start below 4 V, no condition of R91 is met. -/
theorem State.judged_quiet {mv current : Nat} (h4 : s.holdup.startedBelow4 = false) (hf : s.holdup.firstMeasure = false) (hmv : 12000 ≤ mv) :
    s.judged mv current = s.measured mv current := by
  unfold State.judged
  dsimp only
  rw [(State.measured_checkPassed h4 hf).2, decide_eq_false (by omega), Bool.and_false]
  rfl

/-- Below 12 V, after 12 V had been seen, the state is HOLDUP_LOW for reason 2 (R91, R94, R559). -/
theorem State.judged_falls {mv current : Nat} (h12 : s.holdup.seen12 = true) (hmv : mv < 12000) (hl : s.holdup.low = false) :
    (s.judged mv current).holdup.low = true ∧ (s.judged mv current).holdup.lastReason = 2 ∧ (s.judged mv current).arr.jobs = s.activeJob.toList := by
  have hseen : ((s.placeStart mv).holdup.charge mv current).seen12 = true :=
    ((Holdup.charge_same Holdup.seen12 (fun _ _ _ => rfl) ..).trans (State.placeStart_same Holdup.seen12 (fun _ _ _ => rfl) mv)).trans h12
  have hdone : ((s.placeStart mv).holdup.charge mv current).estimateDone mv = false := by
    rw [Holdup.estimateDone, decide_eq_false (by omega), Bool.and_false]
  have hj : s.judged mv current = (s.measured mv current).holdupLow 2 := by
    unfold State.judged
    dsimp only
    rw [hdone, hseen, decide_eq_true hmv]
    rfl
  have hlow := (State.measured_low (s := s) mv current).trans hl
  rw [hj]
  refine ⟨State.holdupLow_low 2, ?_, ?_⟩
  · rw [State.holdupLow_holdup, hlow]
    rfl
  · rw [State.holdupLow_jobs 2 hlow, State.measured_activeJob]

/-- The result of a pulse test, before it is judged (R90, R92). -/
def State.pulsed (fall : Nat) (s : State) : State :=
  { s with holdup := { s.holdup with checkPassed := decide (fall ≤ 100), seen12 := decide (12000 ≤ s.holdup.lastMv - fall) } }

theorem execPulseTest_eq {fall : Nat} (hc : s.holdup.charger = true) (hh : s.holdup.holding = true) (hl : s.power.lineGood = true) :
    execPulseTest fall s = .next (if fall ≤ 100 then s.pulsed fall else (s.pulsed fall).holdupLow 4).holdupJudge := by
  refine congrArg _ ((if_neg (by rw [hc, hh, hl]; decide)).trans (congrArg State.holdupJudge ?_))
  by_cases hf : fall ≤ 100
  · rw [if_pos hf]
    exact if_pos (decide_eq_true hf)
  · rw [if_neg hf]
    exact if_neg (by simpa using hf)

theorem holdMeasure_outside : ∀ (s : State) (mv ua : Nat), 18000 < mv → exec (.holdMeasure mv ua) s = .fault .outsideRatings :=
  fun s mv ua h => if_pos h

theorem holdMeasure_shedding : ∀ (s : State) (mv ua : Nat), mv ≤ 18000 → s.power.shedding = true → exec (.holdMeasure mv ua) s = .next { s with
      holdup := { s.holdup with lastMv := mv }, arr := { s.arr with jobs := if mv < 6000 then [] else s.arr.jobs } } := by
  intro s mv ua hmv hs
  show execHoldMeasure mv ua s = _
  rw [execHoldMeasure, if_neg (by omega), if_pos hs]
  split <;> rfl

theorem holdMeasure_judges : ∀ (s : State) (mv ua : Nat), mv ≤ 18000 → s.power.shedding = false → s.power.aonReady = true → s.power.lineGood = true →
    ∃ t, exec (.holdMeasure mv ua) s = .next t ∧ t.holdup.lastMv = mv ∧ t.holdup.seen12 = decide (12000 ≤ mv) ∧
      (s.holdup.seen12 = true → mv < 12000 → s.holdup.low = false →
        t.holdup.low = true ∧ t.holdup.lastReason = 2 ∧ t.arr.jobs = s.activeJob.toList) ∧
      (mv < 14000 → s.holdup.low = true → t.holdup.low = true) ∧
      (14000 ≤ mv → s.holdup.low = true → s.holdup.checkPassed = true → s.holdup.startedBelow4 = false → s.holdup.firstMeasure = false →
        t.holdup.low = false ∧ t.arr.heldJobs = [] ∧ t.arr.jobs.take (s.arr.jobs ++ s.arr.heldJobs).length = s.arr.jobs ++ s.arr.heldJobs) ∧
      (12000 ≤ mv → s.holdup.low = false → s.holdup.startedBelow4 = false → s.holdup.firstMeasure = false → t.holdup.low = false ∧ t.arr = s.arr) := by
  intro s mv ua hmv hs ha hl
  refine ⟨_, execHoldMeasure_eq hmv hs ha hl, ?_, ?_, fun h12 hlt hlow => ?_, fun hlt hlow => ?_, fun hge hlow hcheck h4 hf => ?_,
    fun hge hlow h4 hf => ?_⟩
  · rw [State.holdupJudge_same Holdup.lastMv (fun _ => rfl), State.judged_lastMv]
  · rw [State.holdupJudge_same Holdup.seen12 (fun _ => rfl), State.judged_same Holdup.seen12 (fun _ _ => rfl)]
    rfl
  · rw [State.holdupJudge_stays (.inr (.inr (by rw [State.judged_lastMv]; omega)))]
    exact State.judged_falls h12 hlt hlow
  · rw [State.holdupJudge_stays (.inr (.inr (by rw [State.judged_lastMv]; exact hlt)))]
    exact State.judged_low hlow
  · rw [State.judged_quiet h4 hf (by omega)]
    obtain ⟨h1, h2, l, h3⟩ := State.holdupJudge_ends (s := s.measured mv ua) (by rw [State.measured_low, hlow])
      (by rw [(State.measured_checkPassed h4 hf).1, hcheck]) hge
    refine ⟨by rw [h1], h2, ?_⟩
    rw [h3, State.measured_arr, List.take_left]
  · rw [State.judged_quiet h4 hf hge, State.holdupJudge_stays (.inl (by rw [State.measured_low, hlow])), State.measured_low, State.measured_arr]
    exact ⟨hlow, rfl⟩

theorem pulseTest_checks : ∀ (s : State) (fall : Nat), s.holdup.charger = true → s.holdup.holding = true → s.power.lineGood = true →
    ∃ t, exec (.pulseTest fall) s = .next t ∧ t.holdup.checkPassed = decide (fall ≤ 100) ∧ t.holdup.lastMv = s.holdup.lastMv ∧
      (100 < fall → s.holdup.low = false → t.holdup.low = true ∧ t.holdup.lastReason = 4) ∧
      (fall ≤ 100 → s.holdup.low = false → t.holdup.low = false) ∧
      (fall ≤ 100 → s.holdup.low = true → 14000 ≤ s.holdup.lastMv → t.holdup.low = false) := by
  intro s fall hc hh hl
  have hexec := execPulseTest_eq (fall := fall) hc hh hl
  by_cases hf : fall ≤ 100
  · have hno : ¬ 100 < fall := by omega
    rw [if_pos hf] at hexec
    refine ⟨_, hexec, ?_, ?_, fun h => absurd h hno, fun _ hlow => ?_, fun _ hlow hmv => ?_⟩
    · exact State.holdupJudge_same Holdup.checkPassed (fun _ => rfl)
    · exact State.holdupJudge_same Holdup.lastMv (fun _ => rfl)
    · rw [State.holdupJudge_stays (s := s.pulsed fall) (.inl hlow)]
      exact hlow
    · rw [(State.holdupJudge_ends (s := s.pulsed fall) hlow (decide_eq_true hf) hmv).1]
  · have hchecked : ((s.pulsed fall).holdupLow 4).holdup.checkPassed = false :=
      (State.holdupLow_same Holdup.checkPassed (fun _ _ => rfl) 4).trans (decide_eq_false hf)
    rw [if_neg hf, State.holdupJudge_stays (.inr (.inl hchecked))] at hexec
    refine ⟨_, hexec, hchecked.trans (decide_eq_false hf).symm, State.holdupLow_same Holdup.lastMv (fun _ _ => rfl) 4, fun _ hlow => ?_,
      fun h => absurd h hf, fun h => absurd h hf⟩
    refine ⟨State.holdupLow_low 4, ?_⟩
    rw [State.holdupLow_holdup, if_neg (by rw [show (s.pulsed fall).holdup.low = false from hlow, Bool.false_and]; decide)]

theorem holdupDeadline_ends : ∀ s : State, s.holdup.deadlineOpen = true → ∃ t, exec .holdupDeadline s = .next t ∧ t.holdup.deadlineOpen = false ∧
    ((s.holdup.charger = true ∧ s.holdup.reached14 = false) → t.holdup.low = true ∧
      (s.holdup.low = false ∨ (s.holdup.firstOkDone = false ∧ s.holdup.lowSent = false) → t.holdup.lastReason = 1 ∧ t.holdup.lowSent = true)) ∧
    (s.holdup.charger = false ∨ s.holdup.reached14 = true → t = { s with holdup := { s.holdup with deadlineOpen := false, starting := false } }) := by
  intro s ho
  by_cases hc : s.holdup.charger = true ∧ s.holdup.reached14 = false
  · have hexec : execHoldupDeadline s = .next (({ s with holdup := { s.holdup with deadlineOpen := false, starting := false } } : State).holdupLow 1) :=
      congrArg _ ((if_neg (by rw [show _ = true from ho]; decide)).trans (if_pos (by rw [show _ = true from hc.1, show _ = false from hc.2]; rfl)))
    refine ⟨_, hexec, State.holdupLow_same Holdup.deadlineOpen (fun _ _ => rfl) 1, fun _ => ⟨State.holdupLow_low 1, fun h => ?_⟩,
      fun h => ?_⟩
    · have hn : (s.holdup.low && (s.holdup.firstOkDone || s.holdup.lowSent)) = false := by
        rcases h with h | ⟨h1, h2⟩
        · rw [h]; rfl
        · rw [h1, h2, Bool.or_false, Bool.and_false]
      rw [State.holdupLow_holdup, if_neg (by rw [show _ = false from hn]; decide)]
      exact ⟨rfl, rfl⟩
    · rcases h with h | h
      · rw [hc.1] at h; cases h
      · rw [hc.2] at h; cases h
  · have hn : (s.holdup.charger && !s.holdup.reached14) = false := by
      cases h1 : s.holdup.charger <;> cases h2 : s.holdup.reached14 <;> simp_all
    have hexec : execHoldupDeadline s = .next ({ s with holdup := { s.holdup with deadlineOpen := false, starting := false } } : State) :=
      congrArg _ ((if_neg (by rw [show _ = true from ho]; decide)).trans (if_neg (by rw [show _ = false from hn]; decide)))
    exact ⟨_, hexec, rfl, fun h => absurd h hc, fun _ => rfl⟩

theorem holdupDeadline_closed : ∀ s : State, s.holdup.deadlineOpen = false → exec .holdupDeadline s = .next { s with holdup := { s.holdup with starting := false } } := by
  intro s ho
  exact congrArg _ (if_pos (by rw [show _ = false from ho]; rfl))

/-- Settles O46: a measurement, a test and the deadline through what the conditions of R91 and the judgement of R92 leave. -/
theorem holdupEvents : Obligations.HoldupEvents :=
  ⟨holdMeasure_outside, holdMeasure_shedding, holdMeasure_judges, pulseTest_checks, holdupDeadline_ends, holdupDeadline_closed⟩

end Sys2Proof.Machine
end

section
/-! PROOFS. The thermal model (O56): an event of a check issues the markers of the compare channels that waited before it. -/

namespace Sys2Proof.Machine

variable {s : State}

/-- A check without two neighbours to compare with changes nothing (R586, R587). -/
theorem State.checkMonitor_alone {m : ThermReadings} {i : Nat} (h : s.meanRatio m i = none) : State.checkMonitor m s i = s := by
  rw [State.checkMonitor, h]
  exact ite_self s

/-- A fold of steps that each leave the state alone. -/
theorem foldl_fixed {α : Type} {f : State → α → State} {l : List α} (h : ∀ x ∈ l, f s x = s) : l.foldl f s = s := by
  induction l with
  | nil => rfl
  | cons x l ih => rw [List.foldl_cons, h x List.mem_cons_self, ih fun y hy => h y (List.mem_cons_of_mem _ hy)]

/-- An ACTIVE owner with an EV_TCMP marker that waits, a running sequencer, and a monitor of AON that has been above its charge seven times. -/
def markerWaits : State :=
  { State.reset with
    clock := { Clock.initial with tcmp := Clock.initial.tcmp.set 0 { Tcmp.zero with openEv := some { tb := Tb.zero, frame := 0, count := 1 } } }
    power := { Power.initial with aonReady := true, seqRunning := true, doms := Vector.replicate 12 .on }
    pols := State.reset.pols.set 0 { Polder.none with
      state := .active, events := [{ code := 3, frame := 0, tb := Tb.zero, payload := [0] }] }
    therm := { Thermal.initial with
      broken := (Vector.replicate 13 true).set 0 false, overCount := (Vector.replicate 13 0).set 0 7 } }

/-- AON draws a lot. -/
def heavyDraw : ThermReadings := { currents := [1000000], activeCycles := [], moduleDraw := 0, vauxCurrent := 0 }

theorem markerWaits_monitors : (List.range 13).foldl (State.checkMonitor heavyDraw) markerWaits = markerWaits := by
  refine foldl_fixed fun i hi => ?_
  match i with
  | 0 => exact State.checkMonitor_alone (by rfl)
  | i + 1 =>
    have hb : markerWaits.therm.broken.toList.getD (i + 1) false = true := by
      have : i < 12 := Nat.lt_of_succ_lt_succ (List.mem_range.mp hi)
      interval_cases i <;> rfl
    exact if_pos (by rw [hb]; rfl)

theorem markerWaits_taken :
    (((List.range 13).foldl (State.checkOverdraw heavyDraw) markerWaits).clock.tcmp[0]).openEv = none := by
  decide +kernel

/-- Refutes O56: the event of a check issues the EV_TCMP marker that waited before it, which takes the event from its compare channel. -/
theorem not_thermalEvents : ¬ Obligations.ThermalEvents := by
  intro h
  obtain ⟨-, hrun, -⟩ := h
  obtain ⟨-, hclock, -⟩ := hrun markerWaits heavyDraw rfl
  rw [markerWaits_monitors] at hclock
  have hsame : (markerWaits.clock.tcmp[0]).openEv = none := by rw [← hclock]; exact markerWaits_taken
  exact absurd hsame (by decide)

end Sys2Proof.Machine
end

section
/-! PROOFS. The start of a slot, of an exposure, and the trigger deadline (O39). -/

namespace Sys2Proof.Machine

variable {s t u : State} {p : PolId}

/-! ### What a slot's start leaves -/

theorem Issued.foldl {α : Type} {f : State → α → State} (hf : ∀ u x, Issued u (f u x)) (l : List α) : Issued s (l.foldl f s) := by
  induction l generalizing s with
  | nil => exact .refl s
  | cons x l ih => exact (hf s x).trans ih

/-- EV_FRAME_RESERVE: two marks of the wheel, then events (R674). -/
theorem State.announceCover_issued (f : W32) : ∃ a b,
    Issued { s with wheel := { s.wheel with announcedUncovered := a, uncovered := b } } (s.announceCover f) ∧
      Only { clock := true, pols := true, arr := true } { s with wheel := { s.wheel with announcedUncovered := a, uncovered := b } } (s.announceCover f) := by
  have hi : ∀ (n : Nat) (u : State), Issued u ((List.finRange 8).foldl (fun s p =>
      if (s.pol p).state = .active then s.event p 0x0054 (leBytes 1 n ++ leBytes 3 0 ++ leBytes 4 f.toNat) else s) u) := fun n u =>
    Issued.foldl (fun v x => by
      split
      · exact Issued.eventAt ..
      · exact .refl v) _
  have ho : ∀ (n : Nat) (u : State), Only { clock := true, pols := true, arr := true } u ((List.finRange 8).foldl (fun s p =>
      if (s.pol p).state = .active then s.event p 0x0054 (leBytes 1 n ++ leBytes 3 0 ++ leBytes 4 f.toNat) else s) u) := fun n u =>
    Only.foldl _ _ (Only.refl _ _) (fun v x => Only.ite (State.event_only ..) (Only.refl _ _))
  unfold State.announceCover
  dsimp only
  split
  · exact ⟨true, true, hi _ _, ho _ _⟩
  · split
    · exact ⟨s.wheel.announcedUncovered, false, hi _ _, ho _ _⟩
    · exact ⟨s.wheel.announcedUncovered, s.wheel.uncovered, .refl s, Only.refl _ _⟩

/-- A covered frame after covered ones is not announced (R674). -/
theorem State.announceCover_covered {f : W32} (hc : frameLater (BitVec.ofNat 32 s.wheel.fR) f = true) (hu : s.wheel.uncovered = false) :
    s.announceCover f = s := by
  simp [State.announceCover, hc, hu]

/-- The state in which the slot of the next frame is turned (R30, R34, R247). -/
def State.slotReady (s : State) : State :=
  let s := s.applyColumns
  let s := if s.wheel.nextFrame.toNat % 16 = 0 then s.beginRevolution else s
  let s := { s with wheel := { s.wheel with nextFrame := s.wheel.nextFrame + 1, slotTb := s.clock.tb },
                    lands := { s.lands with strobe := false } }
  let s := if s.lands.pixDisable then s.pixBoundary false else s
  { s with cols := { s.cols with groups := s.cols.groups.map Group.freshCount } }

/-- A new revolution issues no frame, and moves neither the time nor the elapsed ticks. -/
theorem State.beginRevolution_kept : s.beginRevolution.wheel.nextFrame = s.wheel.nextFrame ∧ s.beginRevolution.clock.tb = s.clock.tb ∧
    s.beginRevolution.clock.elapsed = s.clock.elapsed := by
  have hadopt : ∀ v : State, v.adoptPeriod.wheel.nextFrame = v.wheel.nextFrame ∧ v.adoptPeriod.clock.tb = v.clock.tb ∧
      v.adoptPeriod.clock.elapsed = v.clock.elapsed := fun v => by
    unfold State.adoptPeriod
    dsimp only
    split
    · exact ⟨rfl, rfl, rfl⟩
    · split
      · split
        · exact ⟨rfl, rfl, rfl⟩
        · have h := Issues.ownerEvent 0x0046 (leBytes 1 (if v.tenantExists then 1 else 2) ++ leBytes 3 0 ++ leBytes 4 v.fabricWanted.fabPeriod)
            { v with wheel := { v.wheel with heldPeriods := v.fabricWanted.fabPeriod :: v.wheel.heldPeriods } }
          refine ⟨?_, ?_, ?_⟩
          · rw [h.frame]
          · rw [h.clock]
          · rw [h.clock]
      · exact ⟨rfl, rfl, rfl⟩
  have hw : s.writeTrims.wheel = s.wheel ∧ s.writeTrims.clock = s.clock :=
    ⟨(State.writeTrims_only s).wheel.resolve_left Bool.false_ne_true, (State.writeTrims_only s).clock.resolve_left Bool.false_ne_true⟩
  unfold State.beginRevolution
  dsimp only
  have hn : s.writeTrims.wheel.nextFrame = s.wheel.nextFrame := by rw [hw.1]
  have ht : s.writeTrims.clock.tb = s.clock.tb := by rw [hw.2]
  have he : s.writeTrims.clock.elapsed = s.clock.elapsed := by rw [hw.2]
  exact ⟨(hadopt _).1.trans hn, (hadopt _).2.1.trans ht, (hadopt _).2.2.trans he⟩

/-- What the state is like in which the next slot is turned. -/
theorem State.slotReady_kept : s.slotReady.wheel.nextFrame = s.wheel.nextFrame + 1 ∧ s.slotReady.wheel.slotTb = s.clock.tb ∧
    s.slotReady.clock.tb = s.clock.tb ∧ s.slotReady.clock.elapsed = s.clock.elapsed ∧ s.slotReady.lands.strobe = false := by
  have hb := State.beginRevolution_kept (s := s.applyColumns)
  obtain ⟨h1, h2, h3⟩ := hb
  unfold State.slotReady
  dsimp only
  have key : ∀ v : State, v.wheel.nextFrame = s.wheel.nextFrame → v.clock.tb = s.clock.tb → v.clock.elapsed = s.clock.elapsed →
      let w : State := { v with wheel := { v.wheel with nextFrame := v.wheel.nextFrame + 1, slotTb := v.clock.tb },
                                lands := { v.lands with strobe := false } }
      let w := if w.lands.pixDisable then w.pixBoundary false else w
      w.wheel.nextFrame = s.wheel.nextFrame + 1 ∧ w.wheel.slotTb = s.clock.tb ∧ w.clock.tb = s.clock.tb ∧ w.clock.elapsed = s.clock.elapsed ∧
        w.lands.strobe = false := by
    intro v hn ht he
    dsimp only
    split
    · unfold State.pixBoundary
      dsimp only
      split
      · exact ⟨by rw [hn], ht, ht, he, rfl⟩
      · exact ⟨by rw [hn], ht, ht, he, rfl⟩
    · exact ⟨by rw [hn], ht, ht, he, rfl⟩
  split
  · exact key _ h1 h2 h3
  · exact key _ rfl rfl rfl

/-- Inside a revolution the next slot is turned with the polders, the holders and the period as they are. -/
theorem State.slotReady_inside (h : s.wheel.nextFrame.toNat % 16 ≠ 0) : s.slotReady.pols = s.pols ∧ s.slotReady.clock = s.clock ∧
    s.slotReady.wheel = { s.wheel with nextFrame := s.wheel.nextFrame + 1, slotTb := s.clock.tb } := by
  have h' : ¬ s.applyColumns.wheel.nextFrame.toNat % 16 = 0 := h
  unfold State.slotReady
  dsimp only
  rw [if_neg h']
  split
  · unfold State.pixBoundary
    dsimp only
    split <;> exact ⟨rfl, rfl, rfl⟩
  · exact ⟨rfl, rfl, rfl⟩

theorem State.startSlot_eq : s.startSlot = (((s.slotReady.turnSlot s.wheel.nextFrame).passRestart s.wheel.nextFrame).announceCover s.wheel.nextFrame).reserveFrames := by
  have hf : (if s.applyColumns.wheel.nextFrame.toNat % 16 = 0 then s.applyColumns.beginRevolution else s.applyColumns).wheel.nextFrame = s.wheel.nextFrame := by
    split
    · exact (State.beginRevolution_kept (s := s.applyColumns)).1
    · rfl
  unfold State.startSlot State.slotReady
  dsimp only
  rw [hf]

/-- What comes after the slot has been turned: the marks of a frame reservation, events, a request (R260, R673, R674). -/
def State.slotTurned (f : W32) (s : State) : State := ((s.passRestart f).announceCover f).reserveFrames

theorem State.slotTurned_kept (f : W32) : ∃ a b, (s.slotTurned f).wheel = { s.wheel with announcedUncovered := a, uncovered := b } ∧
    (∀ p, (s.pol p).IssuedFrom ((s.slotTurned f).pol p)) ∧ (s.slotTurned f).cols.mapFull = s.cols.mapFull ∧ (s.slotTurned f).lands = s.lands := by
  have hp : s.passRestart f = { s with cols := (s.passRestart f).cols } := by unfold State.passRestart; split <;> rfl
  have hm : (s.passRestart f).cols.mapFull = s.cols.mapFull := by unfold State.passRestart; split <;> rfl
  obtain ⟨a, b, hi, ho⟩ := State.announceCover_issued (s := s.passRestart f) f
  have hr := State.reserveFrames_only ((s.passRestart f).announceCover f)
  have hpols : ∀ p, (s.slotTurned f).pol p = ((s.passRestart f).announceCover f).pol p := fun p =>
    congrArg (fun v => v[p]) (hr.pols.resolve_left Bool.false_ne_true)
  refine ⟨a, b, ?_, fun p => ?_, ?_, ?_⟩
  · refine (hr.wheel.resolve_left Bool.false_ne_true).trans ((ho.wheel.resolve_left Bool.false_ne_true).trans ?_)
    rw [hp]
  · rw [hpols]
    have hpol : (s.passRestart f).pol p = s.pol p := by rw [hp]; rfl
    have h : ((s.passRestart f).pol p).IssuedFrom (((s.passRestart f).announceCover f).pol p) := hi.polder p
    rw [hpol] at h
    exact h
  · rw [show (s.slotTurned f).cols = _ from (hr.cols.resolve_left Bool.false_ne_true).trans (ho.cols.resolve_left Bool.false_ne_true)]
    exact hm
  · refine (hr.lands.resolve_left Bool.false_ne_true).trans ((ho.lands.resolve_left Bool.false_ne_true).trans ?_)
    rw [hp]

/-- The wheel of `t` is that of `s` with a slot of frame `f` that begins now; the strobe is as it was. -/
def TurnsTo (f : W32) (s t : State) : Prop :=
  ∃ x l, t.wheel = { s.wheel with slot := some x, lastSlotFrame := l } ∧ x.frame = f ∧ x.startAt = s.clock.elapsed ∧ x.te = none ∧ x.reads = [] ∧
    t.lands.strobe = s.lands.strobe

/-- What matters of a state for the slot that is turned in it. -/
def SlotFrame (s t : State) : Prop := t.wheel = s.wheel ∧ t.clock = s.clock ∧ t.lands.strobe = s.lands.strobe

theorem TurnsTo.empty {f : W32} (h : SlotFrame s t) : TurnsTo f s { t with wheel := { t.wheel with slot := some (t.emptySlot f) } } := by
  obtain ⟨hw, hc, hl⟩ := h
  refine ⟨t.emptySlot f, s.wheel.lastSlotFrame, ?_, rfl, congrArg Clock.elapsed hc, rfl, rfl, hl⟩
  rw [hw]

theorem TurnsTo.openSlot {f : W32} {cal : Option CalParts} (h : SlotFrame s t) : TurnsTo f s (t.openSlot p f cal) := by
  obtain ⟨hw, hc, hl⟩ := h
  have hslot : ∃ x, (t.openSlot p f cal).wheel.slot = some x ∧ x.frame = f ∧ x.startAt = t.clock.elapsed ∧ x.te = none ∧ x.reads = [] :=
    ⟨_, rfl, rfl, rfl, rfl, rfl⟩
  obtain ⟨x, hx, hframe, hstart, hte, hreads⟩ := hslot
  refine ⟨x, s.wheel.lastSlotFrame.set p (some f), ?_, hframe, hstart.trans (congrArg Clock.elapsed hc), hte, hreads, hl⟩
  rw [← hx, ← hw]
  rfl

theorem SlotFrame.pixBoundary (b : Bool) : SlotFrame s (s.pixBoundary b) := by
  unfold State.pixBoundary
  dsimp only
  split
  · exact ⟨rfl, rfl, rfl⟩
  · split <;> exact ⟨rfl, rfl, rfl⟩

theorem SlotFrame.modPol {f : Polder → Polder} (h : SlotFrame s t) : SlotFrame s (t.modPol p f) := h

/-- The slot turned: what it is, and what the wheel and the lands keep (R30, R31). -/
theorem State.turnSlot_turns (f : W32) : TurnsTo f s (s.turnSlot f) := by
  unfold State.turnSlot
  split
  · exact .empty ⟨rfl, rfl, rfl⟩
  · next p _ =>
    dsimp only
    generalize (if p = owner then s.calPartsAt f else none) = cal
    have hw : SlotFrame s (if cal.isSome then s.pixBoundary (p = owner && cal.isNone) else (s.pixBoundary (p = owner && cal.isNone)).modPol p (applyShadow f)) := by
      split
      · exact .pixBoundary _
      · exact .modPol (.pixBoundary _)
    generalize (if cal.isSome then s.pixBoundary (p = owner && cal.isNone)
      else (s.pixBoundary (p = owner && cal.isNone)).modPol p (applyShadow f)) = w at hw
    split
    · exact .empty hw
    · exact .openSlot hw

/-- The slot of a tenant whose settings fit (R30, R31, R180, R194). -/
theorem State.turnSlot_tenant {f : W32} (hp : p ≠ owner) (hh : s.wheel.holders.toList.getD (slotIndex f) none = some p)
    (hfit : (applyShadow f (s.pol p)).expo.fits s.wheel.period = true) :
    ∃ v : State, s.turnSlot f = v.openSlot p f none ∧ v.wheel = s.wheel ∧ v.clock = s.clock ∧ v.pol p = applyShadow f (s.pol p) := by
  have hpix : (s.pixBoundary false).pol p = s.pol p := by
    unfold State.pixBoundary
    dsimp only
    split <;> rfl
  refine ⟨(s.pixBoundary false).modPol p (applyShadow f), ?_, (SlotFrame.pixBoundary false).1, (SlotFrame.pixBoundary false).2.1, ?_⟩
  · unfold State.turnSlot
    rw [hh]
    dsimp only
    rw [if_neg hp]
    have hpol : ((s.pixBoundary false).modPol p (applyShadow f)).pol p = applyShadow f (s.pol p) := by
      rw [State.pol_modPol_self, hpix]
    have hno : (p = owner && (none : Option CalParts).isNone) = false := by simp [hp]
    simp only [hno, Option.isSome_none, Bool.false_eq_true, if_false]
    refine if_neg ?_
    rw [hpol, show ((s.pixBoundary false).modPol p (applyShadow f)).wheel.period = s.wheel.period from
      congrArg Wheel.period (SlotFrame.pixBoundary false).1, hfit]
    decide
  · rw [State.pol_modPol_self, hpix]

/-- The slot of a polder, outside a calibration and a clock hold (R180, R194). -/
theorem State.openSlot_slot {f : W32} (hh : s.clock.hold = none) : ∃ x, (s.openSlot p f none).wheel.slot = some x ∧ x.holder = some p ∧
    x.expo = (s.pol p).expo ∧ x.voidReason = none ∧ x.charter = (s.pol p).charter ∧
    x.trig = if (s.pol p).expo.triggered then (s.pol p).trigPending.map (fun t => { t with at_ := s.clock.elapsed }) else none :=
  ⟨_, rfl, rfl, rfl, by rw [hh]; rfl, rfl, rfl⟩

/-- A pending trigger goes to the slot that takes it (R194). -/
theorem State.openSlot_pol {f : W32} {cal : Option CalParts} {x : Slot} (hx : (s.openSlot p f cal).wheel.slot = some x) :
    (s.openSlot p f cal).pol p = { s.pol p with throttled := false, trigPending := if x.trig.isSome then none else (s.pol p).trigPending } := by
  have ht : x.trig = if (s.pol p).expo.triggered then (s.pol p).trigPending.map (fun t => { t with at_ := s.clock.elapsed }) else none := by
    cases hx
    rfl
  rw [ht]
  exact State.pol_modPol_self (s := s) (fun q => { q with
    throttled := false
    trigPending := if (if (s.pol p).expo.triggered then (s.pol p).trigPending.map (fun t => { t with at_ := s.clock.elapsed }) else none).isSome
      then none else q.trigPending })

theorem applyShadow_charter (f : W32) (q : Polder) : (applyShadow f q).charter = q.charter := by
  unfold applyShadow
  split
  · split_ifs <;> rfl
  · rfl

/-- T_E without a lock, and the wait for the next phase point with one (R180, R193, R203, R204). -/
theorem State.exposureStart_unlocked {x : Slot} (hl : x.lockRef = none) : s.exposureStart x =
    (max (x.startAt + x.expo.teMin) (x.trig.elim 0 (fun g => g.at_ + 4096)),
     Tb.ofTicks (((s.clock.tb.ticks : Int) + (max (x.startAt + x.expo.teMin) (x.trig.elim 0 (fun g => g.at_ + 4096)) : Nat) - s.clock.elapsed
       + (0 : Nat)).emod tbRange).toNat, .none) := by
  unfold State.exposureStart
  rw [hl]
  cases x.trig <;> rfl

/-- A wait for a phase point is at most A_LOCK, after which the lock is missed (R204). -/
theorem lockWait_cases (a w : Nat) (free : Bool) :
    let r : Nat × LockState := if a < w then (a, .missed) else (w, if free then .free else .locked)
    r.1 ≤ a ∧ (r.2 = .missed → r.1 = a) ∧ (r.2 = .free → free = true) ∧ (r.2 = .locked → free = false) ∧ r.2 ≠ .none := by
  dsimp only
  by_cases h : a < w
  · rw [if_pos h]
    exact ⟨Nat.le_refl _, fun _ => rfl, nofun, nofun, nofun⟩
  · rw [if_neg h]
    cases free
    · exact ⟨Nat.not_lt.mp h, nofun, nofun, fun _ => rfl, nofun⟩
    · exact ⟨Nat.not_lt.mp h, nofun, fun _ => rfl, nofun, nofun⟩

theorem State.exposureStart_locked {x : Slot} {r : LockRef} (hl : x.lockRef = some r) :
    ∃ w tb lock, s.exposureStart x = (max (x.startAt + x.expo.teMin) (x.trig.elim 0 (fun g => g.at_ + 4096)) + w, tb, lock) ∧ w ≤ x.expo.aLock ∧
      (lock = .missed → w = x.expo.aLock) ∧ (lock = .free → r.free = true) ∧ (lock = .locked → r.free = false) ∧ lock ≠ .none := by
  unfold State.exposureStart
  rw [hl]
  generalize x.trig = trig
  cases trig
  · exact ⟨_, _, _, rfl, lockWait_cases x.expo.aLock _ r.free⟩
  · exact ⟨_, _, _, rfl, lockWait_cases x.expo.aLock _ r.free⟩

theorem execExposureStart_eq {x : Slot} (hx : s.wheel.slot = some x) (he : x.exposes = true) (hh : s.clock.hold = none) :
    execExposureStart s = .next { s with
      wheel := { s.wheel with slot := some { x with
        te := some (s.exposureStart x).2.1, teAt := (s.exposureStart x).1, lockState := (s.exposureStart x).2.2 } },
      lands := { s.lands with strobe := x.voidReason.isNone && x.holder == some (s.bindHolder 3) } } := by
  rw [execExposureStart, hx]
  exact congrArg _ (if_pos (by rw [he, hh]; rfl))

/-- A TB word stands for the ticks it was made of, below the range of SEC (R111). -/
theorem Tb.ticks_ofTicks {n : Nat} (h : n < 2 ^ 32 * 400000000) : (Tb.ofTicks n).ticks = n := by
  have h1 : n / 400000000 < 4294967296 := by omega
  have h2 : n % 400000000 < 536870912 := by omega
  show (BitVec.ofNat 32 (n / 400000000)).toNat * 400000000 + (BitVec.ofNat 29 (n % 400000000)).toNat = n
  rw [BitVec.toNat_ofNat, BitVec.toNat_ofNat, Nat.mod_eq_of_lt h1, Nat.mod_eq_of_lt h2]
  omega

theorem slotStart_idle : ∀ s : State, s.slotDue = false → exec .wheelSlotStart s = .next s := by
  intro s h
  exact congrArg _ (if_neg (by rw [h]; decide))

theorem slotStart_numbers : ∀ s : State, s.slotDue = true → ∃ t x, exec .wheelSlotStart s = .next t ∧ t.wheel.slot = some x ∧ x.frame = s.wheel.nextFrame ∧
    t.wheel.nextFrame = s.wheel.nextFrame + 1 ∧ t.wheel.slotTb = s.clock.tb ∧ x.startAt = s.clock.elapsed ∧ x.te = none ∧ x.reads = [] ∧
    t.lands.strobe = false ∧ t.clock.tb = s.clock.tb ∧ t.fab = s.fab ∧ t.life.shadow = s.life.shadow := by
  intro s hd
  have hexec : execWheelSlotStart s = .next ((s.slotReady.turnSlot s.wheel.nextFrame).slotTurned s.wheel.nextFrame) :=
    congrArg _ ((if_pos hd).trans State.startSlot_eq)
  obtain ⟨hn, hstb, htb, hel, hstrobe⟩ := State.slotReady_kept (s := s)
  obtain ⟨x, l, hw, hframe, hstart, hte, hreads, hl⟩ := State.turnSlot_turns (s := s.slotReady) s.wheel.nextFrame
  obtain ⟨a, b, hw', -, -, hlands⟩ := State.slotTurned_kept (s := s.slotReady.turnSlot s.wheel.nextFrame) s.wheel.nextFrame
  have hf := execWheelSlotStart_only s _ hexec
  rw [hw] at hw'
  refine ⟨_, x, hexec, by rw [hw'], hframe, by rw [hw', hn], by rw [hw', hstb], hstart.trans hel, hte, hreads, ?_,
    ?_, hf.fab.resolve_left Bool.false_ne_true, ?_⟩
  · rw [hlands, hl, hstrobe]
  · exact hf.tb.resolve_left Bool.false_ne_true
  · rw [hf.life.resolve_left Bool.false_ne_true]

theorem slotStart_empty : ∀ (s : State), s.slotDue = true → s.wheel.nextFrame.toNat % 16 ≠ 0 →
    s.wheel.holders.toList.getD (s.wheel.nextFrame.toNat % 16) none = none →
    ∃ t, exec .wheelSlotStart s = .next t ∧ t.wheel.slot = some { s.emptySlot s.wheel.nextFrame with mapFull := t.cols.mapFull } ∧
      (frameLater (BitVec.ofNat 32 s.wheel.fR) s.wheel.nextFrame = true → s.wheel.uncovered = false → ∀ p, t.pol p = s.pol p) := by
  intro s hd hrev hh
  have hexec : execWheelSlotStart s = .next ((s.slotReady.turnSlot s.wheel.nextFrame).slotTurned s.wheel.nextFrame) :=
    congrArg _ ((if_pos hd).trans State.startSlot_eq)
  obtain ⟨hpols, hclock, hwheel⟩ := State.slotReady_inside hrev
  have hturn : s.slotReady.turnSlot s.wheel.nextFrame =
      { s.slotReady with wheel := { s.slotReady.wheel with slot := some (s.slotReady.emptySlot s.wheel.nextFrame) } } := by
    have hholders : s.slotReady.wheel.holders.toList.getD (slotIndex s.wheel.nextFrame) none = none := by rw [hwheel]; exact hh
    unfold State.turnSlot
    rw [hholders]
  rw [hturn] at hexec
  have hempty : s.slotReady.emptySlot s.wheel.nextFrame = { s.emptySlot s.wheel.nextFrame with mapFull := s.slotReady.cols.mapFull } := by
    unfold State.emptySlot
    rw [hclock]
  obtain ⟨a, b, hw', -, hmap, -⟩ := State.slotTurned_kept
    (s := { s.slotReady with wheel := { s.slotReady.wheel with slot := some (s.slotReady.emptySlot s.wheel.nextFrame) } }) s.wheel.nextFrame
  refine ⟨_, hexec, ?_, fun hc hu p => ?_⟩
  · rw [hw', hmap, hempty]
  · have hpass : ∀ (f : W32) (v : State), (v.passRestart f).pols = v.pols ∧ (v.passRestart f).wheel = v.wheel := fun f v => by
      unfold State.passRestart
      split <;> exact ⟨rfl, rfl⟩
    have hcover := State.announceCover_covered (f := s.wheel.nextFrame)
      (s := State.passRestart s.wheel.nextFrame { s.slotReady with wheel := { s.slotReady.wheel with slot := some (s.slotReady.emptySlot s.wheel.nextFrame) } })
      (by rw [(hpass _ _).2, hwheel]; exact hc) (by rw [(hpass _ _).2, hwheel]; exact hu)
    unfold State.slotTurned
    rw [hcover]
    refine congrArg (fun v => v[p]) (((State.reserveFrames_only _).pols.resolve_left Bool.false_ne_true).trans ((hpass _ _).1.trans hpols))

theorem slotStart_tenant : ∀ (s : State) (p : PolId), s.slotDue = true → s.wheel.nextFrame.toNat % 16 ≠ 0 → p ≠ owner →
    s.wheel.holders.toList.getD (s.wheel.nextFrame.toNat % 16) none = some p → s.clock.hold = none →
    let settings := (applyShadow s.wheel.nextFrame (s.pol p)).expo
    settings.fits s.wheel.period = true →
    ∃ t x, exec .wheelSlotStart s = .next t ∧ t.wheel.slot = some x ∧ x.holder = some p ∧ x.expo = settings ∧ x.voidReason = none ∧
      (t.pol p).expo = settings ∧ x.charter = (s.pol p).charter ∧
      (x.trig.isSome = true → settings.triggered = true ∧ (t.pol p).trigPending = none) ∧
      (settings.triggered = true → (s.pol p).shadow = none → x.trig.isSome = (s.pol p).trigPending.isSome) := by
  intro s p hd hrev hp hh hhold settings hfit
  have hexec : execWheelSlotStart s = .next ((s.slotReady.turnSlot s.wheel.nextFrame).slotTurned s.wheel.nextFrame) :=
    congrArg _ ((if_pos hd).trans State.startSlot_eq)
  obtain ⟨hpols, hclock, hwheel⟩ := State.slotReady_inside hrev
  have hpol : s.slotReady.pol p = s.pol p := congrArg (fun v => v[p]) hpols
  obtain ⟨v, hv, hvw, hvc, hvp⟩ := State.turnSlot_tenant (s := s.slotReady) (f := s.wheel.nextFrame) hp (by rw [hwheel]; exact hh)
    (by rw [hpol, hwheel]; exact hfit)
  rw [hpol] at hvp
  rw [hv] at hexec
  obtain ⟨a, b, hw', hissued, -, -⟩ := State.slotTurned_kept (s := v.openSlot p s.wheel.nextFrame none) s.wheel.nextFrame
  obtain ⟨x, hx, hholder, hexpo, hvoid, hcharter, htrig⟩ := State.openSlot_slot (s := v) (p := p) (f := s.wheel.nextFrame) (by rw [hvc, hclock, hhold])
  have htp := State.openSlot_pol (s := v) (p := p) (f := s.wheel.nextFrame) hx
  rw [hvp] at hexpo hcharter htrig htp
  refine ⟨_, x, hexec, by rw [hw']; exact hx, hholder, hexpo, hvoid, ?_, hcharter.trans (applyShadow_charter ..), fun ht => ?_, fun ht hs => ?_⟩
  · rw [hissued p, htp]
  · rw [htrig] at ht
    have hon : settings.triggered = true := by
      by_contra hn
      rw [if_neg hn] at ht
      cases ht
    refine ⟨hon, ?_⟩
    rw [hissued p, htp, htrig]
    exact if_pos ht
  · have hsame : applyShadow s.wheel.nextFrame (s.pol p) = s.pol p := by rw [applyShadow, hs]
    rw [htrig, if_pos ht, Option.isSome_map, hsame]

theorem exposureStart_unlocked : ∀ (s : State) (x : Slot), s.wheel.slot = some x → x.exposes = true → s.clock.hold = none → x.lockRef = none →
    let te := max (x.startAt + x.expo.teMin) (x.trig.elim 0 (fun g => g.at_ + 4096))
    ∃ tb, exec .exposureStart s = .next { s with
        wheel := { s.wheel with slot := some { x with te := some tb, teAt := te, lockState := .none } },
        lands := { s.lands with strobe := x.voidReason.isNone && x.holder == some (s.bindHolder 3) } } ∧
      (s.clock.elapsed ≤ te → s.clock.tb.ticks + (te - s.clock.elapsed) < 2 ^ 32 * 400000000 →
        tb.ticks = s.clock.tb.ticks + (te - s.clock.elapsed)) := by
  intro s x hx he hhold hl te
  have hexec := execExposureStart_eq hx he hhold
  rw [State.exposureStart_unlocked hl] at hexec
  refine ⟨_, hexec, fun hle hlt => ?_⟩
  have hint : (((s.clock.tb.ticks : Int) + (te : Nat) - s.clock.elapsed + (0 : Nat)).emod tbRange).toNat = s.clock.tb.ticks + (te - s.clock.elapsed) := by
    have hr : tbRange = 2 ^ 32 * 400000000 := rfl
    rw [hr]
    generalize s.clock.tb.ticks = k at hlt ⊢
    generalize te = m at hle hlt ⊢
    have hsum : (k : Int) + m - s.clock.elapsed + (0 : Nat) = ((k + (m - s.clock.elapsed) : Nat) : Int) := by omega
    rw [hsum]
    show ((((k + (m - s.clock.elapsed) : Nat) : Int) % ((2 ^ 32 * 400000000 : Nat) : Int))).toNat = _
    rw [← Int.natCast_emod, Int.toNat_natCast, Nat.mod_eq_of_lt hlt]
  exact (congrArg (fun n => (Tb.ofTicks n).ticks) hint).trans (Tb.ticks_ofTicks hlt)

theorem exposureStart_locked : ∀ (s : State) (x : Slot) (r : LockRef), s.wheel.slot = some x → x.exposes = true → s.clock.hold = none → x.lockRef = some r →
    ∃ t y, exec .exposureStart s = .next t ∧ t.wheel.slot = some y ∧ y.te.isSome = true ∧
      max (x.startAt + x.expo.teMin) (x.trig.elim 0 (fun g => g.at_ + 4096)) ≤ y.teAt ∧
      y.teAt ≤ max (x.startAt + x.expo.teMin) (x.trig.elim 0 (fun g => g.at_ + 4096)) + x.expo.aLock ∧
      (y.lockState = .missed → y.teAt = max (x.startAt + x.expo.teMin) (x.trig.elim 0 (fun g => g.at_ + 4096)) + x.expo.aLock) ∧
      (y.lockState = .free → r.free = true) ∧ (y.lockState = .locked → r.free = false) ∧ y.lockState ≠ .none := by
  intro s x r hx he hhold hl
  have hexec := execExposureStart_eq hx he hhold
  obtain ⟨w, tb, lock, hstart, hw, hmiss, hfree, hlock, hne⟩ := State.exposureStart_locked (s := s) hl
  rw [hstart] at hexec
  refine ⟨_, _, hexec, rfl, rfl, Nat.le_add_right _ _, Nat.add_le_add_left hw _, fun h => ?_, hfree, hlock, hne⟩
  exact congrArg _ (hmiss h)

theorem triggerDeadline_closes : ∀ (s : State) (x : Slot), s.wheel.slot = some x → x.expo.triggered = true →
    ∃ t, exec .triggerDeadline s = .next t ∧ t.wheel.slot = some { x with deadlinePassed := true } ∧ (∀ p, t.windowOpen p = false) ∧
      t = { s with wheel := t.wheel } := by
  intro s x hx htrig
  refine ⟨_, rfl, ?_, fun p => ?_, rfl⟩
  · rw [hx]
    exact congrArg some (if_pos htrig)
  · show State.windowOpen { s with wheel := { s.wheel with slot := s.wheel.slot.map _ } } p = false
    rw [State.windowOpen, hx]
    simp [htrig]

/-- Settles O39: the slot as it is turned, then events and requests; T_E by its sum. -/
theorem wheelEvents : Obligations.WheelEvents :=
  ⟨slotStart_idle, slotStart_numbers, slotStart_empty, slotStart_tenant, exposureStart_unlocked, exposureStart_locked, triggerDeadline_closes⟩

end Sys2Proof.Machine
end

section
/-! PROOFS. The time base (O38): an update, its compare channels, a load, an adjusted update. -/

namespace Sys2Proof.Machine

variable {s t u : State} {p : PolId} {ch : Fin 16}

/-! ### TB words -/

theorem Tb.ticks_eq (a : Tb) : a.ticks = a.sec.toNat * 400000000 + a.sub.toNat := rfl

theorem Tb.word_eq (a : Tb) : a.word = a.sec.toNat * 4294967296 + a.sub.toNat := rfl

/-- A word in the time base's form, SUB below 400,000,000, is later in ticks exactly where it is later as a word; any word in ticks before it is
before it as a word (R109, R111). -/
theorem Tb.not_le_of_ticks_lt {a b : Tb} (ha : a.sub.toNat < 400000000) (h : b.ticks < a.ticks) : a.le b = false := by
  have hb : b.sub.toNat < 536870912 := b.sub.isLt
  rw [Tb.ticks_eq, Tb.ticks_eq] at h
  rw [Tb.le, Tb.word_eq, Tb.word_eq]
  exact decide_eq_false (by omega)

theorem Tb.ofTicks_sub_lt (n : Nat) : (Tb.ofTicks n).sub.toNat < 400000000 := by
  have h2 : n % 400000000 < 536870912 := by omega
  show (BitVec.ofNat 29 (n % 400000000)).toNat < 400000000
  rw [BitVec.toNat_ofNat, Nat.mod_eq_of_lt h2]
  omega

theorem Tb.ticks_lt {a : Tb} (ha : a.sub.toNat < 400000000) : a.ticks < 2 ^ 32 * 400000000 := by
  have hs : a.sec.toNat < 4294967296 := a.sec.isLt
  rw [Tb.ticks_eq]
  omega

/-! ### A firing -/

/-- A channel's VALUE after a firing is not due, or waits for the wrap of SEC (R120). -/
theorem Tcmp.reload_not_due (c : Tcmp) (t : Tb) (hp : 0 < c.period.toNat) : (c.reload t).due t = false := by
  unfold Tcmp.reload
  dsimp only
  split
  · next hk =>
    have hr : tbRange = 2 ^ 32 * 400000000 := rfl
    have hk1 : (tbRange - c.value.ticks + c.period.toNat - 1) / c.period.toNat * c.period.toNat ≤ tbRange - c.value.ticks + c.period.toNat - 1 :=
      Nat.div_mul_le_self _ _
    have hk2 : t.ticks - c.value.ticks < ((t.ticks - c.value.ticks) / c.period.toNat + 1) * c.period.toNat := by
      rw [Nat.mul_comm]
      exact Nat.lt_mul_div_succ _ hp
    rw [hr] at hk hk1
    generalize (t.ticks - c.value.ticks) / c.period.toNat + 1 = k at *
    generalize (2 ^ 32 * 400000000 - c.value.ticks + c.period.toNat - 1) / c.period.toNat = m at *
    have hm : (k + 1) * c.period.toNat ≤ m * c.period.toNat := Nat.mul_le_mul_right _ hk
    rw [Nat.succ_mul] at hm
    have hlt : c.value.ticks + k * c.period.toNat < 2 ^ 32 * 400000000 := by omega
    have hle : (Tb.ofTicks (c.value.ticks + k * c.period.toNat)).le t = false :=
      Tb.not_le_of_ticks_lt (Tb.ofTicks_sub_lt _) (by rw [Tb.ticks_ofTicks hlt]; omega)
    show (c.arm && !c.wrapped && (Tb.ofTicks (c.value.ticks + k * c.period.toNat)).le t) = false
    rw [hle, Bool.and_false]
  · exact (by simp [Tcmp.due])

/-- A channel that has fired is not due (R119, R120). -/
theorem Tcmp.fire_not_due (c : Tcmp) (t : Tb) : (c.fire t).due t = false := by
  unfold Tcmp.fire
  dsimp only
  split
  · rfl
  · next h => exact Tcmp.reload_not_due _ _ (Nat.pos_of_ne_zero fun h0 => h (BitVec.eq_of_toNat_eq h0))

/-- A channel moved on by k periods, or by m to the wrap of SEC (R120). -/
def Tcmp.movedOn (c : Tcmp) (k m : Nat) : Tcmp :=
  if k < m then { c with value := Tb.ofTicks (c.value.ticks + k * c.period.toNat), missed := min 255 (c.missed + (k - 1)) }
  else { c with value := Tb.ofTicks (c.value.ticks + m * c.period.toNat), missed := min 255 (c.missed + (m - 1)), wrapped := true }

theorem Tcmp.reload_eq (c : Tcmp) (t : Tb) :
    c.reload t = c.movedOn ((t.ticks - c.value.ticks) / c.period.toNat + 1) ((tbRange - c.value.ticks + c.period.toNat - 1) / c.period.toNat) := rfl

theorem Tcmp.movedOn_kept (c : Tcmp) (k m : Nat) :
    c.movedOn k m = { c with value := (c.movedOn k m).value, missed := (c.movedOn k m).missed, wrapped := (c.movedOn k m).wrapped } := by
  unfold Tcmp.movedOn
  split <;> rfl

theorem Tcmp.reload_kept (c : Tcmp) (t : Tb) :
    c.reload t = { c with value := (c.reload t).value, missed := (c.reload t).missed, wrapped := (c.reload t).wrapped } := by
  rw [Tcmp.reload_eq]
  exact Tcmp.movedOn_kept ..

/-- The channel at a firing, before its VALUE moves on (R120). -/
def Tcmp.marked (c : Tcmp) : Tcmp := { c with fired := true, fires := (c.fires + 1) % 256 }

theorem Tcmp.fire_eq (c : Tcmp) (t : Tb) : c.fire t = if c.period = 0 then { c.marked with arm := false } else c.marked.reload t := rfl

theorem Tcmp.fire_fired (c : Tcmp) (t : Tb) : (c.fire t).fired = true := by
  rw [Tcmp.fire_eq]
  split
  · rfl
  · rw [Tcmp.reload_kept]
    rfl

theorem Tcmp.fire_fires (c : Tcmp) (t : Tb) : (c.fire t).fires = (c.fires + 1) % 256 := by
  rw [Tcmp.fire_eq]
  split
  · rfl
  · rw [Tcmp.reload_kept]
    rfl

/-- A channel without a period fires once (R120). -/
theorem Tcmp.fire_once (c : Tcmp) (t : Tb) (hp : c.period = 0) :
    c.fire t = { c with fired := true, fires := (c.fire t).fires, arm := false } := by
  rw [Tcmp.fire_fires]
  exact if_pos hp

theorem Tcmp.fire_of_period (c : Tcmp) (t : Tb) (hp : 0 < c.period.toNat) : c.fire t = c.marked.reload t :=
  if_neg (by rintro h; rw [h] at hp; exact absurd hp (by decide))

theorem Tcmp.fire_arm (c : Tcmp) (t : Tb) (hp : 0 < c.period.toNat) : (c.fire t).arm = c.arm := by
  rw [Tcmp.fire_of_period c t hp, Tcmp.reload_kept]
  rfl

theorem Tcmp.movedOn_counts (c : Tcmp) {k m : Nat} (hk : 0 < k) (hm : 0 < m) :
    ∃ n, 0 < n ∧ (c.movedOn k m).value = Tb.ofTicks (c.value.ticks + n * c.period.toNat) ∧ (c.movedOn k m).missed = min 255 (c.missed + (n - 1)) := by
  unfold Tcmp.movedOn
  split
  · exact ⟨k, hk, rfl, rfl⟩
  · exact ⟨m, hm, rfl, rfl⟩

/-- A periodic channel's VALUE moves on by a number of periods, at least one, all but one of them missed (R120). -/
theorem Tcmp.fire_periodic (c : Tcmp) (t : Tb) (hp : 0 < c.period.toNat) (hv : c.value.sub.toNat < 400000000) :
    ∃ k, 0 < k ∧ (c.fire t).value = Tb.ofTicks (c.value.ticks + k * c.period.toNat) ∧ (c.fire t).missed = min 255 (c.missed + (k - 1)) := by
  have hlt := Tb.ticks_lt hv
  have hr : tbRange = 2 ^ 32 * 400000000 := rfl
  rw [Tcmp.fire_of_period c t hp, Tcmp.reload_eq]
  refine Tcmp.movedOn_counts c.marked (Nat.succ_pos _) (Nat.div_pos ?_ hp)
  show c.period.toNat ≤ tbRange - c.value.ticks + c.period.toNat - 1
  rw [hr]
  omega

/-- What a firing leaves beside the channel: the channels but for their events, the rest of the clock, the commands held, the wheel's count and
period (R120). -/
structure Unfired (s t : State) : Prop where
  channel : ∀ ch : Fin 16, t.clock.tcmp[ch] = { s.clock.tcmp[ch] with openEv := (t.clock.tcmp[ch]).openEv, closedEvs := (t.clock.tcmp[ch]).closedEvs }
  clock : t.clock = { s.clock with tcmp := t.clock.tcmp }
  serving : ∀ p, (t.pol p).serving = (s.pol p).serving
  nextFrame : t.wheel.nextFrame = s.wheel.nextFrame
  period : t.wheel.period = s.wheel.period

theorem Unfired.refl (s : State) : Unfired s s := ⟨fun _ => rfl, rfl, fun _ => rfl, rfl, rfl⟩

theorem Unfired.trans (h : Unfired s t) (k : Unfired t u) : Unfired s u :=
  ⟨fun ch => (k.channel ch).trans (by rw [h.channel ch]), k.clock.trans (by rw [h.clock]), fun p => (k.serving p).trans (h.serving p),
   k.nextFrame.trans h.nextFrame, k.period.trans h.period⟩

theorem Unfired.modPol {f : Polder → Polder} (hf : ∀ q : Polder, (f q).serving = q.serving) : Unfired s (s.modPol p f) :=
  { Unfired.refl s with serving := fun q => State.pol_modPol_same Polder.serving hf s p q }

/-- Issuing fires no channel. -/
theorem Unfired.issued (h : Issued s t) (hw : t.wheel = s.wheel) : Unfired s t :=
  ⟨h.channel, h.clock, fun p => by rw [h.polder p], by rw [hw], by rw [hw]⟩

theorem Unfired.trigger (src : TrigSrc) : Unfired s (s.trigger p src) := by
  unfold State.trigger
  dsimp only
  split
  · exact { Unfired.refl s with }
  · exact Unfired.modPol fun _ => rfl
  · exact Unfired.modPol fun _ => rfl
  · exact Unfired.modPol fun _ => rfl

theorem Unfired.latchWake (i : Nat) : Unfired s (s.latchWake i) := by
  unfold State.latchWake
  split
  · exact { Unfired.refl s with }
  · exact .refl s

theorem Unfired.wakeTrigger (woke : Bool) (src : TrigSrc) : Unfired s (s.wakeTrigger woke p src) := by
  unfold State.wakeTrigger
  dsimp only
  split
  all_goals
    split
    · exact { Unfired.refl s with }
    · exact .trigger src

theorem State.tcmp_modTcmp (f : Tcmp → Tcmp) (ch c : Fin 16) :
    (s.modTcmp ch f).clock.tcmp[c] = if c = ch then f s.clock.tcmp[ch] else s.clock.tcmp[c] := by
  by_cases h : c = ch
  · subst h
    simp [State.modTcmp]
  · simp [State.modTcmp, h, Ne.symm (Fin.val_ne_of_ne h)]

theorem Unfired.modTcmp {f : Tcmp → Tcmp} (hf : ∀ c : Tcmp, f c = { c with openEv := (f c).openEv, closedEvs := (f c).closedEvs }) :
    Unfired s (s.modTcmp ch f) :=
  { Unfired.refl s with
    channel := fun c => by
      rw [State.tcmp_modTcmp]
      split
      · next h => rw [h]; exact hf _
      · rfl
    clock := rfl }

theorem Unfired.event (code : Nat) (payload : List Byte) : Unfired s (s.event p code payload) :=
  .issued (Issued.eventAt ..) ((State.event_only ..).wheel.resolve_left Bool.false_ne_true)

theorem Unfired.stamp : Unfired s (s.stamp ch) := by
  unfold State.stamp
  split
  · exact Unfired.modTcmp fun _ => rfl
  · split
    · refine (Unfired.modTcmp ?_).trans (Unfired.event ..)
      exact fun _ => rfl
    · exact .refl s

/-- A firing changes its channel, and beyond that latches a wake, presents a trigger and stamps (R120, R121). -/
theorem State.fireTcmp_unfired : Unfired (s.modTcmp ch (fun c => c.fire s.clock.tb)) (s.fireTcmp ch) := by
  unfold State.fireTcmp
  dsimp only
  have hw : ∀ (b : Bool) (u : State), Unfired u (if b then u.latchWake (5 + ch.val) else u) := fun b u => by
    cases b
    · exact .refl u
    · exact .latchWake _
  have he : ∀ (b w : Bool) (u : State), Unfired u (if b then u.wakeTrigger w (channelPol ch) .compare else u) := fun b w u => by
    cases b
    · exact .refl u
    · exact .wakeTrigger w _
  have hs : ∀ (b : Bool) (u : State), Unfired u (if b then u.stamp ch else u) := fun b u => by
    cases b
    · exact .refl u
    · exact .stamp
  exact ((hw _ _).trans (he _ _ _)).trans (hs _ _)

theorem Tcmp.due_congr {c d : Tcmp} (h : d = { c with openEv := d.openEv, closedEvs := d.closedEvs }) (v : Tb) : d.due v = c.due v := by rw [h]; rfl

theorem State.fireTcmp_tb : (s.fireTcmp ch).clock.tb = s.clock.tb := by rw [State.fireTcmp_unfired.clock]; rfl

/-- A firing leaves every other channel as due as it was. -/
theorem State.fireTcmp_due (v : Tb) {c : Fin 16} (hc : c ≠ ch) : ((s.fireTcmp ch).clock.tcmp[c]).due v = (s.clock.tcmp[c]).due v := by
  rw [Tcmp.due_congr (State.fireTcmp_unfired.channel c), State.tcmp_modTcmp, if_neg hc]

theorem State.fireTcmp_not_due : ((s.fireTcmp ch).clock.tcmp[ch]).due s.clock.tb = false := by
  rw [Tcmp.due_congr (State.fireTcmp_unfired.channel ch), State.tcmp_modTcmp, if_pos rfl]
  exact Tcmp.fire_not_due ..

/-- One channel fires where it is due. -/
def State.fireIfDue (s : State) (ch : Fin 16) : State := if (s.clock.tcmp[ch]).due s.clock.tb then s.fireTcmp ch else s

theorem State.fireDue_eq : s.fireDue = (List.finRange 16).foldl State.fireIfDue s := rfl

theorem State.fireIfDue_tb : (s.fireIfDue ch).clock.tb = s.clock.tb := by
  unfold State.fireIfDue
  split
  · exact State.fireTcmp_tb
  · rfl

theorem State.fireIfDue_self : ((s.fireIfDue ch).clock.tcmp[ch]).due s.clock.tb = false := by
  unfold State.fireIfDue
  split
  · exact State.fireTcmp_not_due
  · next h => exact Bool.eq_false_iff.mpr h

theorem State.fireIfDue_stays {c : Fin 16} (v : Tb) (hv : s.clock.tb = v) (hc : (s.clock.tcmp[c]).due v = false) :
    ((s.fireIfDue ch).clock.tcmp[c]).due v = false := by
  by_cases h : c = ch
  · rw [h, ← hv]
    exact State.fireIfDue_self
  · unfold State.fireIfDue
    split
    · rw [State.fireTcmp_due v h, hc]
    · exact hc

/-- After the channels of a list have had their turn, none of them is due. -/
theorem State.foldl_fireIfDue_not_due (v : Tb) (l : List (Fin 16)) (c : Fin 16) (s : State) (hv : s.clock.tb = v)
    (hc : c ∈ l ∨ (s.clock.tcmp[c]).due v = false) : ((l.foldl State.fireIfDue s).clock.tcmp[c]).due v = false := by
  induction l generalizing s with
  | nil => exact hc.resolve_left List.not_mem_nil
  | cons x l ih =>
    refine ih (s.fireIfDue x) (State.fireIfDue_tb.trans hv) ?_
    rcases hc with hc | hc
    · rcases List.mem_cons.mp hc with rfl | hc
      · exact .inr (hv ▸ State.fireIfDue_self)
      · exact .inl hc
    · exact .inr (State.fireIfDue_stays v hv hc)

/-- The clock but for its channels, the commands held, the wheel's count and period. -/
structure Fired (s t : State) : Prop where
  clock : t.clock = { s.clock with tcmp := t.clock.tcmp }
  serving : ∀ p, (t.pol p).serving = (s.pol p).serving
  nextFrame : t.wheel.nextFrame = s.wheel.nextFrame
  period : t.wheel.period = s.wheel.period

theorem Fired.trans (h : Fired s t) (k : Fired t u) : Fired s u :=
  ⟨k.clock.trans (by rw [h.clock]), fun p => (k.serving p).trans (h.serving p), k.nextFrame.trans h.nextFrame, k.period.trans h.period⟩

theorem State.fireIfDue_fired : Fired s (s.fireIfDue ch) := by
  unfold State.fireIfDue
  split
  · obtain ⟨-, hclock, hserv, hn, hp⟩ := State.fireTcmp_unfired (s := s) (ch := ch)
    exact ⟨by rw [hclock]; rfl, hserv, hn, hp⟩
  · exact ⟨rfl, fun _ => rfl, rfl, rfl⟩

theorem State.foldl_fireIfDue_fired (l : List (Fin 16)) (s : State) : Fired s (l.foldl State.fireIfDue s) := by
  induction l generalizing s with
  | nil => exact ⟨rfl, fun _ => rfl, rfl, rfl⟩
  | cons x l ih => exact State.fireIfDue_fired.trans (ih _)

theorem State.fireDue_fired (s : State) : Fired s s.fireDue := State.foldl_fireIfDue_fired _ s

/-- No channel is due once the due ones have fired (R119). -/
theorem State.fireDue_not_due (s : State) (c : Fin 16) : (s.fireDue.clock.tcmp[c]).due s.fireDue.clock.tb = false := by
  have htb : s.fireDue.clock.tb = s.clock.tb := by rw [(State.fireDue_fired s).clock]
  have h := State.foldl_fireIfDue_not_due s.clock.tb _ c s rfl (.inl (List.mem_finRange c))
  rw [htb]
  rwa [← State.fireDue_eq] at h

/-- Nothing fires where no channel is armed. -/
theorem State.fireDue_unarmed (h : ∀ ch : Fin 16, (s.clock.tcmp[ch]).arm = false) : s.fireDue = s :=
  foldl_fixed (f := State.fireIfDue) fun c _ => by
    show State.fireIfDue s c = s
    exact if_neg (by rw [Tcmp.due, h c]; exact Bool.false_ne_true)

/-! ### Updates -/

/-- The state at an update, before its channels fire: the charges metered, the clock advanced (R110, R583). -/
def State.advance (s : State) : State := { s with therm := s.meterCharges s.clock.increment, clock := s.clock.advanced }

/-- The state as an update loads a staged time, before its channels fire (R124). -/
def State.load (v : Tb) (s : State) : State := State.loadTime v { s with therm := s.meterCharges s.clock.increment }

theorem State.updateTb_stopped (h : s.clock.running = false) : s.updateTb = s := by
  unfold State.updateTb
  rw [h]
  rfl

theorem State.updateTb_advance (h : s.clock.running = true) (hs : s.clock.staged = none) : s.updateTb = s.advance.fireDue := by
  unfold State.updateTb
  rw [h, Bool.not_true, if_neg Bool.false_ne_true]
  dsimp only
  rw [hs]
  rfl

theorem State.updateTb_staged {v : Tb} (h : s.clock.running = true) (hs : s.clock.staged = some v) :
    s.updateTb = if s.clock.crosses then (s.load v).fireDue else s.advance.fireDue := by
  unfold State.updateTb
  rw [h, Bool.not_true, if_neg Bool.false_ne_true]
  dsimp only
  rw [hs]
  rfl

/-- Every update ends with the due channels (R119). -/
theorem State.updateTb_fireDue (h : s.clock.running = true) : ∃ u : State, s.updateTb = u.fireDue := by
  cases hs : s.clock.staged with
  | none => exact ⟨_, State.updateTb_advance h hs⟩
  | some v =>
    rw [State.updateTb_staged h hs]
    split
    · exact ⟨_, rfl⟩
    · exact ⟨_, rfl⟩

theorem Clock.stepNext_none {c : Clock} (h : c.slew = none) : c.stepNext = c.increment := by
  unfold Clock.stepNext
  rw [h]

theorem Clock.stepNext_due {c : Clock} {w : Slew} (h : c.slew = some w) (hd : w.dueIn c.increment = true) :
    c.stepNext = if w.advance then c.increment + 1 else c.increment - 1 := by
  unfold Clock.stepNext
  rw [h]
  exact if_pos hd

theorem Clock.increment_pos (c : Clock) : 0 < c.increment := by
  unfold Clock.increment
  split <;> decide

/-- PIX gives an update of 1, XO one of 16 (R110). -/
theorem Clock.counting_eq (c : Clock) : c.counting = decide (c.increment = 1) := by
  unfold Clock.increment
  cases c.counting <;> rfl

/-- The carry of an update into SEC (R111). -/
theorem Tb.ofTicks_carry {a : Tb} {n : Nat} (ha : a.sub.toNat < 400000000) (hn : n ≤ 16) :
    (Tb.ofTicks (a.ticks + n)).sub.toNat = (a.sub.toNat + n) % 400000000 ∧
    (Tb.ofTicks (a.ticks + n)).sec = if a.sub.toNat + n < 400000000 then a.sec else a.sec + 1 := by
  have hsub : (a.ticks + n) % 400000000 = (a.sub.toNat + n) % 400000000 := by
    rw [Tb.ticks_eq, Nat.add_assoc, Nat.add_comm, Nat.add_mul_mod_self_right]
  have hsec : (a.ticks + n) / 400000000 = a.sec.toNat + if a.sub.toNat + n < 400000000 then 0 else 1 := by
    rw [Tb.ticks_eq]
    split <;> omega
  constructor
  · show (BitVec.ofNat 29 ((a.ticks + n) % 400000000)).toNat = _
    rw [BitVec.toNat_ofNat, hsub, Nat.mod_eq_of_lt]
    omega
  · show BitVec.ofNat 32 ((a.ticks + n) / 400000000) = _
    rw [hsec]
    split
    · rw [Nat.add_zero, BitVec.ofNat_toNat, BitVec.setWidth_eq]
    · rw [BitVec.ofNat_add, BitVec.ofNat_toNat, BitVec.setWidth_eq]
      rfl

/-- Channels that may all have stopped waiting for the wrap of SEC. -/
theorem unwrapped_kept (b : Prop) [Decidable b] (v w : Vector Tcmp 16) (h : w = if b then v.map (fun t => { t with wrapped := false }) else v)
    (ch : Fin 16) : w[ch] = { v[ch] with wrapped := (w[ch]).wrapped } := by
  subst h
  split
  · rw [Fin.getElem_fin, Vector.getElem_map]
    rfl
  · rfl

theorem Clock.advanced_tcmp_eq (c : Clock) :
    c.advanced.tcmp = if tbRange ≤ c.next then c.tcmp.map (fun t => { t with wrapped := false }) else c.tcmp := rfl

/-- A channel over an update, before the firings: one that waited for the wrap of SEC may wait no longer (R120). -/
theorem Clock.advanced_tcmp (c : Clock) (ch : Fin 16) : c.advanced.tcmp[ch] = { c.tcmp[ch] with wrapped := (c.advanced.tcmp[ch]).wrapped } :=
  unwrapped_kept _ _ _ c.advanced_tcmp_eq ch

/-- An update with neither a load, a slew nor an armed channel (R110, R111). -/
theorem State.updateTb_plain (hr : s.clock.running = true) (hs : s.clock.staged = none)
    (ha : ∀ ch : Fin 16, (s.clock.tcmp[ch]).arm = false) : s.updateTb = s.advance := by
  rw [State.updateTb_advance hr hs]
  exact State.fireDue_unarmed fun ch => by
    show (s.clock.advanced.tcmp[ch]).arm = false
    rw [Clock.advanced_tcmp]
    exact ha ch

theorem Clock.advanced_unslewed {c : Clock} (h : c.slew = none) :
    c.advanced = { c with tb := Tb.ofTicks (c.tb.ticks + c.increment), onPix := c.counting, elapsed := c.elapsed + c.increment, tcmp := c.advanced.tcmp } := by
  unfold Clock.advanced Clock.next
  rw [Clock.stepNext_none h, h]
  rfl

/-- An owner event, and the command held under a rule made ready: what stays, and the answer (R129, R352). -/
theorem State.eventReady_kept (u : State) (rule : HoldRule) (code : Nat) (l : List Byte) (a : Answer) :
    let t := (u.ownerEvent code l).readyHeld owner rule a
    t.clock = { u.clock with tcmp := t.clock.tcmp } ∧ t.wheel = u.wheel ∧ t.cols = u.cols ∧ t.fab = u.fab ∧
    ∀ x, (u.pol owner).serving = some x → x.rule = rule → (t.pol owner).serving = some { x with answer := some a, ready := true } := by
  have hi : Issued u (u.ownerEvent code l) := Issued.ownerEvent ..
  have ho := State.ownerEvent_only code l u
  refine ⟨hi.clock, ho.wheel.resolve_left Bool.false_ne_true, ho.cols.resolve_left Bool.false_ne_true,
    ho.fab.resolve_left Bool.false_ne_true, fun x hx hrule => ?_⟩
  unfold State.readyHeld
  rw [State.pol_modPol, if_pos rfl]
  dsimp only
  rw [hi.polder owner]
  show Option.map _ (u.pol owner).serving = _
  rw [hx]
  exact congrArg some (if_pos hrule)

/-- The state with a staged time loaded, before the owner is told (R124). -/
def State.loaded (v : Tb) (s : State) : State :=
  { s with therm := s.meterCharges s.clock.increment, clock := { s.clock.advanced with tb := v, slew := none, staged := none, tcmp := s.clock.tcmp } }

/-- EV_TIME_SET's bytes, which are TIME_SET's results: the old time and the new (R129). -/
def State.loadBytes (v : Tb) (s : State) : List Byte := (Tb.ofTicks s.clock.next).bytes ++ v.bytes

theorem State.load_eq (v : Tb) (s : State) : s.load v =
    ((s.loaded v).ownerEvent 0x0004 (s.loadBytes v)).readyHeld owner .timeSetLoad { status := .ok, effectFrame := none, results := s.loadBytes v } := rfl

/-- The load of a staged time: the new time, the slew ended, the reply held for it ready (R124, R129). -/
theorem State.load_kept (v : Tb) (s : State) :
    (s.load v).clock = { (s.loaded v).clock with tcmp := (s.load v).clock.tcmp } ∧
    (s.load v).wheel = s.wheel ∧ (s.load v).cols = s.cols ∧ (s.load v).fab = s.fab ∧
    ∀ x, (s.pol owner).serving = some x → x.rule = .timeSetLoad → ((s.load v).pol owner).serving = some
      { x with answer := some { status := .ok, effectFrame := none, results := s.loadBytes v }, ready := true } := by
  rw [State.load_eq]
  exact State.eventReady_kept (s.loaded v) ..

theorem tbUpdate_stopped : ∀ s : State, s.clock.running = false → exec .tbUpdate s = .next s :=
  fun s h => congrArg Host.Outcome.next (State.updateTb_stopped h)

theorem tbUpdate_counts : ∀ s : State, s.clock.running = true → s.clock.staged = none → s.clock.slew = none → s.clock.tb.sub.toNat < 400000000 →
    (∀ ch : Fin 16, (s.clock.tcmp[ch]).arm = false) →
    let step := if (if s.clock.elapsed % 16 = 0 then s.clock.pllOn else s.clock.onPix) then 1 else 16
    let n := s.clock.tb.sub.toNat + step
    ∃ t, exec .tbUpdate s = .next t ∧
      t.clock.tb.sub.toNat = n % 400000000 ∧ t.clock.tb.sec = (if n < 400000000 then s.clock.tb.sec else s.clock.tb.sec + 1) ∧
      t.clock.elapsed = s.clock.elapsed + step ∧ t.clock.onPix = decide (step = 1) ∧
      (∀ ch : Fin 16, t.clock.tcmp[ch] = { s.clock.tcmp[ch] with wrapped := (t.clock.tcmp[ch]).wrapped }) ∧
      t = { s with clock := { s.clock with tb := t.clock.tb, onPix := t.clock.onPix, elapsed := t.clock.elapsed, tcmp := t.clock.tcmp },
                   therm := s.meterCharges step } := by
  intro s hr hs hslew hsub ha
  have hadv := Clock.advanced_unslewed hslew
  have hcarry := Tb.ofTicks_carry (n := s.clock.increment) hsub (by unfold Clock.increment; split <;> decide)
  refine ⟨s.advance, congrArg Host.Outcome.next (State.updateTb_plain hr hs ha), ?_, ?_, ?_, ?_, fun ch => Clock.advanced_tcmp _ ch, ?_⟩
  · show s.clock.advanced.tb.sub.toNat = _
    rw [hadv]
    exact hcarry.1
  · show s.clock.advanced.tb.sec = _
    rw [hadv]
    exact hcarry.2
  · rfl
  · exact Clock.counting_eq _
  · unfold State.advance
    rw [hadv]
    rfl

theorem tcmpFire_fires : ∀ (s : State) (ch : Fin 16), s.clock.running = true → (s.clock.tcmp[ch]).due s.clock.tb = true → (s.clock.tcmp[ch]).stamp = false →
    (s.clock.tcmp[ch]).expose = false → (s.clock.tcmp[ch]).wake = false →
    ∃ c, exec (.tcmpFire ch) s = .next (s.modTcmp ch (fun _ => c)) ∧ c.fired = true ∧ c.fires = ((s.clock.tcmp[ch]).fires + 1) % 256 ∧
      ((s.clock.tcmp[ch]).period = 0 → c = { s.clock.tcmp[ch] with fired := true, fires := c.fires, arm := false }) ∧
      (0 < (s.clock.tcmp[ch]).period.toNat → (s.clock.tcmp[ch]).value.sub.toNat < 400000000 → c.arm = true ∧ c.due s.clock.tb = false ∧
        ∃ k, 0 < k ∧ c.value = Tb.ofTicks ((s.clock.tcmp[ch]).value.ticks + k * (s.clock.tcmp[ch]).period.toNat) ∧
          c.missed = min 255 ((s.clock.tcmp[ch]).missed + (k - 1))) := by
  intro s ch hr hdue hstamp hexpose hwake
  have hfire : exec (.tcmpFire ch) s = .next (s.modTcmp ch (fun _ => (s.clock.tcmp[ch]).fire s.clock.tb)) := by
    show Host.Outcome.next (if (s.clock.running && (s.clock.tcmp[ch]).due s.clock.tb) = true then s.fireTcmp ch else s) = _
    rw [hr, hdue]
    show Host.Outcome.next (s.fireTcmp ch) = _
    unfold State.fireTcmp
    dsimp only
    rw [hstamp, hexpose, hwake]
    rfl
  refine ⟨_, hfire, ?_, ?_, fun hp => ?_, fun hp hsub => ?_⟩
  · exact Tcmp.fire_fired ..
  · exact Tcmp.fire_fires ..
  · exact Tcmp.fire_once _ _ hp
  · have harm : (s.clock.tcmp[ch]).arm = true := by
      rw [Tcmp.due, Bool.and_eq_true, Bool.and_eq_true] at hdue
      exact hdue.1.1
    exact ⟨(Tcmp.fire_arm _ _ hp).trans harm, Tcmp.fire_not_due .., Tcmp.fire_periodic _ _ hp hsub⟩

theorem timeSetLoad_loads : ∀ (s : State) (v : Tb), s.clock.running = true → s.clock.staged = some v → s.clock.crosses = true →
    let old := Tb.ofTicks (s.clock.tb.ticks + s.clock.stepNext)
    ∃ t, exec .timeSetLoad s = .next t ∧ t.clock.tb = v ∧ t.clock.staged = none ∧ t.clock.slew = none ∧
      t.clock.elapsed = s.clock.elapsed + s.clock.increment ∧
      (∀ x, (s.pol owner).serving = some x → x.rule = .timeSetLoad → (t.pol owner).serving = some
        { x with answer := some { status := .ok, effectFrame := none, results := old.bytes ++ v.bytes }, ready := true }) ∧
      t.wheel.nextFrame = s.wheel.nextFrame ∧ t.wheel.period = s.wheel.period ∧ t.cols = s.cols ∧ t.fab = s.fab := by
  intro s v hr hs hc
  have hexec : exec .timeSetLoad s = .next (s.load v).fireDue := by
    show Host.Outcome.next (if (s.clock.staged.isSome && s.clock.crosses) = true then s.updateTb else s) = _
    rw [State.updateTb_staged hr hs, hs, hc]
    rfl
  obtain ⟨hclock, hwheel, hcols, hfab, hserv⟩ := State.load_kept v s
  obtain ⟨fclock, fserv, fn, fp⟩ := State.fireDue_fired (s.load v)
  refine ⟨_, hexec, ?_, ?_, ?_, ?_, fun x hx hrule => ?_, ?_, ?_, ?_, ?_⟩
  · rw [fclock, hclock]; rfl
  · rw [fclock, hclock]; rfl
  · rw [fclock, hclock]; rfl
  · rw [fclock, hclock]; rfl
  · exact (fserv owner).trans (hserv x hx hrule)
  · rw [fn, hwheel]
  · rw [fp, hwheel]
  · exact ((State.fireDue_only _).cols.resolve_left Bool.false_ne_true).trans hcols
  · exact ((State.fireDue_only _).fab.resolve_left Bool.false_ne_true).trans hfab

theorem slewAdjust_adjusts : ∀ (s : State) (w : Slew), s.clock.running = true → s.clock.staged = none → s.clock.slew = some w → w.dueIn s.clock.increment = true →
    ∃ t, exec .slewAdjust s = .next t ∧
      t.clock.tb = Tb.ofTicks (if w.advance then s.clock.tb.ticks + s.clock.increment + 1 else s.clock.tb.ticks + s.clock.increment - 1) ∧
      t.clock.slew = (if w.remain ≤ 1 then none
        else some { w with remain := w.remain - 1, elapsed := w.elapsed + s.clock.increment, k := w.k + 1 }) ∧
      t.clock.elapsed = s.clock.elapsed + s.clock.increment := by
  intro s w hr hs hslew hdue
  have hexec : exec .slewAdjust s = .next s.advance.fireDue := by
    have hadj : s.clock.adjusts = true := by rw [Clock.adjusts, hslew]; exact hdue
    show Host.Outcome.next (if s.clock.adjusts = true then s.updateTb else s) = _
    rw [hadj, if_pos rfl, State.updateTb_advance hr hs]
  obtain ⟨fclock, -, -, -⟩ := State.fireDue_fired s.advance
  refine ⟨_, hexec, ?_, ?_, ?_⟩
  · rw [fclock]
    show Tb.ofTicks (s.clock.tb.ticks + s.clock.stepNext) = _
    have := s.clock.increment_pos
    rw [Clock.stepNext_due hslew hdue]
    split
    · rw [Nat.add_assoc]
    · rw [Nat.add_sub_assoc this]
  · rw [fclock]
    show s.clock.slew.bind (fun w => w.after s.clock.increment) = _
    rw [hslew]
    show w.after s.clock.increment = _
    rw [Slew.after, if_pos hdue]
  · rw [fclock]
    rfl

theorem timeSubRead_pair : ∀ s : State, s.landsFree = true → s.domOn 12 = true → s.bist.unusable.toNat.testBit 11 = false → s.blockUnderTest 11 = false →
    exec .timeSubRead s = .next { s with clock := { s.clock with secShadow := s.clock.tb.sec, subOut := BitVec.ofNat 32 s.clock.tb.sub.toNat } } := by
  intro s h1 h2 h3 h4
  show Host.Outcome.next (if s.hostActive = true then s.latchTime else s) = _
  have hact : s.hostActive = true := by rw [State.hostActive, h1, h2, h3, h4]; rfl
  rw [hact, if_pos rfl]
  rfl

theorem channels_fired : ∀ (s t : State), s.clock.running = true → exec .tbUpdate s = .next t → ∀ ch : Fin 16, (t.clock.tcmp[ch]).due t.clock.tb = false := by
  intro s t hr h ch
  obtain ⟨u, hu⟩ := State.updateTb_fireDue hr
  obtain rfl : s.updateTb = t := Host.Outcome.next.inj h
  rw [hu]
  exact State.fireDue_not_due u ch

/-- Settles O38: every update ends with the due channels in order, a channel that fired is not due, and no later firing changes that. -/
theorem timeBaseEvents : Obligations.TimeBaseEvents :=
  ⟨tbUpdate_stopped, tbUpdate_counts, tcmpFire_fires, timeSetLoad_loads, slewAdjust_adjusts, timeSubRead_pair, channels_fired⟩

end Sys2Proof.Machine
end

section
/-! PROOFS. Calibration slots: slope codes, measured converters, an expired lease (O42). -/

namespace Sys2Proof.Machine

variable {s t : State} {x : Slot} {r : CalReport}

/-- The slot with another report. -/
def Slot.reporting (x : Slot) (r : CalReport) : Slot := { x with calRep := some r }

/-- The calibration slot in progress is that of the wheel, its report unexpired (R256, R264). -/
theorem State.calSlot_eq (h : s.calSlot = some (x, r)) : s.wheel.slot = some (x.reporting r) ∧ r.expired = false := by
  unfold State.calSlot at h
  split at h
  · next y hy =>
    split at h
    · next q hq =>
      split at h
      · next hc =>
        simp only [Bool.and_eq_true, Bool.not_eq_eq_eq_not, Bool.not_true] at hc
        cases h
        exact ⟨by rw [hy, Slot.reporting, ← hq], hc.2⟩
      · cases h
    · cases h
  · cases h

theorem State.modReport_slot {f : CalReport → CalReport} (h : s.wheel.slot = some (x.reporting r)) :
    (s.modReport f).wheel.slot = some (x.reporting (f r)) := by
  show s.wheel.slot.map _ = _
  rw [h]
  rfl

theorem State.modReport_cols (f : CalReport → CalReport) : (s.modReport f).cols = s.cols := rfl

theorem State.modReport_pols (f : CalReport → CalReport) : (s.modReport f).pols = s.pols := rfl

/-! ### Slope codes -/

/-- What one bank's ramp measurement leaves of the state: the slot with its report, the trims, the groups, the polders and the array. -/
structure RampKept (s t : State) : Prop where
  trims : t.cols.trims = s.cols.trims
  groups : t.cols.groups = s.cols.groups
  pols : t.pols = s.pols
  arr : t.arr = s.arr

theorem State.rampBank_kept (b : Bool) (f : W32) (l : List Nat) : RampKept s (s.rampBank b f l) := by
  unfold State.rampBank
  split
  · cases b <;> exact ⟨rfl, rfl, rfl, rfl⟩
  · exact ⟨rfl, rfl, rfl, rfl⟩

/-- Bank A accepted: its code, its error and its frame (R258, R269). -/
theorem State.rampBankA_ok {f : W32} {l : List Nat} {new err : Int} (hs : s.wheel.slot = some (x.reporting r))
    (h : judgeRamp l s.cols.slopeA = .ok (new, err)) :
    (s.rampBank false f l).wheel.slot = some (x.reporting { r with rampResA := 1, rampReasonA := 0 }) ∧
    (s.rampBank false f l).cols.slopeA = new ∧ (s.rampBank false f l).cols.slopeB = s.cols.slopeB ∧
    (s.rampBank false f l).cols.quality = { s.cols.quality with rampErrA := err, rampFrame := f } := by
  unfold State.rampBank
  rw [if_neg Bool.false_ne_true, h]
  exact ⟨State.modReport_slot hs, rfl, rfl, rfl⟩

theorem State.rampBankA_error {f : W32} {l : List Nat} {e : Nat} (hs : s.wheel.slot = some (x.reporting r))
    (h : judgeRamp l s.cols.slopeA = .error e) :
    (s.rampBank false f l).wheel.slot = some (x.reporting { r with rampResA := 2, rampReasonA := e }) ∧
    (s.rampBank false f l).cols.slopeA = s.cols.slopeA ∧ (s.rampBank false f l).cols.slopeB = s.cols.slopeB ∧
    (s.rampBank false f l).cols.quality = s.cols.quality := by
  unfold State.rampBank
  rw [if_neg Bool.false_ne_true, h]
  exact ⟨State.modReport_slot hs, rfl, rfl, rfl⟩

/-- Bank B accepted: its code, its error and its frame (R258, R269). -/
theorem State.rampBankB_ok {f : W32} {l : List Nat} {new err : Int} (hs : s.wheel.slot = some (x.reporting r))
    (h : judgeRamp l s.cols.slopeB = .ok (new, err)) :
    (s.rampBank true f l).wheel.slot = some (x.reporting { r with rampResB := 1, rampReasonB := 0 }) ∧
    (s.rampBank true f l).cols.slopeB = new ∧ (s.rampBank true f l).cols.slopeA = s.cols.slopeA ∧
    (s.rampBank true f l).cols.quality = { s.cols.quality with rampErrB := err, rampFrame := f } := by
  unfold State.rampBank
  rw [if_pos rfl, h]
  exact ⟨State.modReport_slot hs, rfl, rfl, rfl⟩

theorem State.rampBankB_error {f : W32} {l : List Nat} {e : Nat} (hs : s.wheel.slot = some (x.reporting r))
    (h : judgeRamp l s.cols.slopeB = .error e) :
    (s.rampBank true f l).wheel.slot = some (x.reporting { r with rampResB := 2, rampReasonB := e }) ∧
    (s.rampBank true f l).cols.slopeB = s.cols.slopeB ∧ (s.rampBank true f l).cols.slopeA = s.cols.slopeA ∧
    (s.rampBank true f l).cols.quality = s.cols.quality := by
  unfold State.rampBank
  rw [if_pos rfl, h]
  exact ⟨State.modReport_slot hs, rfl, rfl, rfl⟩

/-- What a measurement of bank A gives, whichever way it is judged. -/
theorem State.rampBankA (f : W32) (l : List Nat) (hs : s.wheel.slot = some (x.reporting r)) :
    ∃ q : CalReport, (s.rampBank false f l).wheel.slot = some (x.reporting q) ∧ (s.rampBank false f l).cols.slopeB = s.cols.slopeB ∧
      (∀ new err, judgeRamp l s.cols.slopeA = .ok (new, err) → (s.rampBank false f l).cols.slopeA = new ∧ q.rampResA = 1 ∧
        (s.rampBank false f l).cols.quality = { s.cols.quality with rampErrA := err, rampFrame := f }) ∧
      (∀ e, judgeRamp l s.cols.slopeA = .error e → (s.rampBank false f l).cols.slopeA = s.cols.slopeA ∧ q.rampResA = 2 ∧ q.rampReasonA = e ∧
        (s.rampBank false f l).cols.quality = s.cols.quality) ∧
      (s.rampBank false f l).cols.quality.rampErrB = s.cols.quality.rampErrB := by
  cases h : judgeRamp l s.cols.slopeA with
  | ok v =>
    obtain ⟨hslot, ha, hb, hq⟩ := State.rampBankA_ok (f := f) hs h
    refine ⟨_, hslot, hb, fun new err he => ?_, (fun _ he => nomatch he), by rw [hq]⟩
    obtain rfl : v = (new, err) := Except.ok.inj he
    exact ⟨ha, rfl, hq⟩
  | error e =>
    obtain ⟨hslot, ha, hb, hq⟩ := State.rampBankA_error (f := f) hs h
    refine ⟨_, hslot, hb, (fun _ _ he => nomatch he), fun e' he => ?_, by rw [hq]⟩
    obtain rfl : e = e' := Except.error.inj he
    exact ⟨ha, rfl, rfl, hq⟩

/-- What a measurement of bank B gives, whichever way it is judged: nothing of bank A's result. -/
theorem State.rampBankB (f : W32) (l : List Nat) (hs : s.wheel.slot = some (x.reporting r)) :
    ∃ q : CalReport, (s.rampBank true f l).wheel.slot = some (x.reporting q) ∧ (s.rampBank true f l).cols.slopeA = s.cols.slopeA ∧
      q.rampResA = r.rampResA ∧ q.rampReasonA = r.rampReasonA ∧
      (∀ new err, judgeRamp l s.cols.slopeB = .ok (new, err) → (s.rampBank true f l).cols.slopeB = new ∧ q.rampResB = 1 ∧
        (s.rampBank true f l).cols.quality = { s.cols.quality with rampErrB := err, rampFrame := f }) ∧
      (∀ e, judgeRamp l s.cols.slopeB = .error e → (s.rampBank true f l).cols.slopeB = s.cols.slopeB ∧ q.rampResB = 2 ∧ q.rampReasonB = e ∧
        (s.rampBank true f l).cols.quality = s.cols.quality) ∧
      (s.rampBank true f l).cols.quality.rampErrA = s.cols.quality.rampErrA ∧
      (s.cols.quality.rampFrame = f → (s.rampBank true f l).cols.quality.rampFrame = f) := by
  cases h : judgeRamp l s.cols.slopeB with
  | ok v =>
    obtain ⟨hslot, hb, ha, hq⟩ := State.rampBankB_ok (f := f) hs h
    refine ⟨_, hslot, ha, rfl, rfl, fun new err he => ?_, (fun _ he => nomatch he), by rw [hq], fun _ => by rw [hq]⟩
    obtain rfl : v = (new, err) := Except.ok.inj he
    exact ⟨hb, rfl, hq⟩
  | error e =>
    obtain ⟨hslot, hb, ha, hq⟩ := State.rampBankB_error (f := f) hs h
    refine ⟨_, hslot, ha, rfl, rfl, (fun _ _ he => nomatch he), fun e' he => ?_, by rw [hq], fun hf => by rw [hq, hf]⟩
    obtain rfl : e = e' := Except.error.inj he
    exact ⟨hb, rfl, rfl, hq⟩

/-! ### Measured converters -/

/-- What the verdicts of COLUMNS leave: the codes in force, the slopes and the polders; each is counted once, and at most 16 rejections are
listed (R259, R266, R267). -/
structure Counted (s t : State) (x : Slot) (r : CalReport) (n : Nat) : Prop where
  slot : ∃ q : CalReport, t.wheel.slot = some (x.reporting q) ∧ q.accepted + q.rejected = r.accepted + r.rejected + n ∧
    (r.rejectList.length ≤ 16 → q.rejectList.length ≤ 16)
  trims : t.cols.trims = s.cols.trims
  slopeA : t.cols.slopeA = s.cols.slopeA
  slopeB : t.cols.slopeB = s.cols.slopeB
  pols : t.pols = s.pols

theorem Columns.cancelBackground_kept (f : W32) (n : Nat) (k : Columns) :
    (k.cancelBackground f n).trims = k.trims ∧ (k.cancelBackground f n).slopeA = k.slopeA ∧ (k.cancelBackground f n).slopeB = k.slopeB := by
  unfold Columns.cancelBackground
  split <;> exact ⟨rfl, rfl, rfl⟩

theorem State.columnVerdict_counted (f : W32) (n : Nat) (v : Verdict) (h : s.wheel.slot = some (x.reporting r)) :
    Counted s (s.columnVerdict f n v) x r 1 := by
  unfold State.columnVerdict
  split
  · obtain ⟨ht, ha, hb⟩ := s.cols.cancelBackground_kept f n
    refine ⟨⟨_, State.modReport_slot h, ?_, id⟩, ht, ha, hb, rfl⟩
    show r.accepted + 1 + r.rejected = _
    omega
  · refine ⟨⟨_, State.modReport_slot h, ?_, fun hl => ?_⟩, rfl, rfl, rfl, rfl⟩
    · show r.accepted + (r.rejected + 1) = _
      omega
    · dsimp only
      split
      · next hlt => rw [List.length_append, List.length_singleton]; omega
      · exact hl

theorem Counted.foldl {α : Type} (f : State → α → State) (hf : ∀ (s : State) (r : CalReport) (m : α), s.wheel.slot = some (x.reporting r) →
    Counted s (f s m) x r 1) (l : List α) (s : State) (r : CalReport) (h : s.wheel.slot = some (x.reporting r)) :
    Counted s (l.foldl f s) x r l.length := by
  induction l generalizing s r with
  | nil => exact ⟨⟨r, h, rfl, id⟩, rfl, rfl, rfl, rfl⟩
  | cons m l ih =>
    obtain ⟨⟨q, hq, hn, hl⟩, h1, h2, h3, h4⟩ := hf s r m h
    obtain ⟨⟨q', hq', hn', hl'⟩, k1, k2, k3, k4⟩ := ih _ q hq
    refine ⟨⟨q', hq', ?_, fun hr => hl' (hl hr)⟩, k1.trans h1, k2.trans h2, k3.trans h3, k4.trans h4⟩
    rw [hn', hn, List.length_cons]
    omega

/-- The results COLUMNS takes: one of each measurable converter that was measured. -/
def Columns.found (k : Columns) (meas : List (Nat × TrimMeas)) : List (Nat × TrimMeas) :=
  (List.range 1632).filterMap (fun n => if k.measurable n then (meas.find? (fun m => m.1 = n)).map (fun m => (m.1, codedMeas false m.2)) else none)

theorem Columns.found_length (k : Columns) (meas : List (Nat × TrimMeas)) :
    (k.found meas).length = ((List.range 1632).filter (fun n => k.measurable n && meas.any (fun m => m.1 == n))).length := by
  rw [Columns.found, List.length_filterMap_eq_countP, List.countP_eq_length_filter]
  congr 2
  funext n
  cases k.measurable n with
  | false => rfl
  | true =>
    show ((meas.find? fun m => decide (m.1 = n)).map _).isSome = meas.any (fun m => m.1 == n)
    rw [Option.isSome_map, Bool.eq_iff_iff, List.find?_isSome, List.any_eq_true]
    simp only [decide_eq_true_eq, beq_iff_eq]

/-- The verdicts of COLUMNS on the results found, against the reference sets of their banks (R259). -/
def State.judgeColumns (f : W32) (found : List (Nat × TrimMeas)) (s : State) : State :=
  found.foldl (fun s m => s.columnVerdict f m.1 (s.cols.judgeMeas (Frac.ofNat 1)
    (columnsRef found (bankB m.1) false) (columnsRef found (bankB m.1) true) m.1 m.2)) s

theorem State.judgeColumns_counted (f : W32) (found : List (Nat × TrimMeas)) (h : s.wheel.slot = some (x.reporting r)) :
    Counted s (s.judgeColumns f found) x r found.length :=
  Counted.foldl _ (fun _ _ _ hu => State.columnVerdict_counted _ _ _ hu) found s r h

/-! ### An expired lease -/

/-- A report whose lease has expired: the results of the parts its slot runs are gone, the others stand (R264). -/
theorem CalReport.expire_spec (p : CalParts) (r : CalReport) :
    (r.expire p).expired = true ∧
    (p.columns = true → (r.expire p).accepted = 0 ∧ (r.expire p).rejected = 0 ∧ (r.expire p).rejectList = []) ∧
    (p.ramp = true → (r.expire p).rampResA = 0 ∧ (r.expire p).rampResB = 0) ∧
    (p.columns = false → (r.expire p).accepted = r.accepted ∧ (r.expire p).rejected = r.rejected ∧ (r.expire p).rejectList = r.rejectList) ∧
    (p.ramp = false → (r.expire p).rampResA = r.rampResA ∧ (r.expire p).rampResB = r.rampResB) := by
  cases hr : p.ramp <;> cases hc : p.columns <;> simp [CalReport.expire, hr, hc]

theorem calRampDone_codes : ∀ (s : State) (x : Slot) (r : CalReport) (a b : List Nat), s.calSlot = some (x, r) → r.parts.ramp = true → r.rampDone = false → x.cal.any (·.ramp) = true →
    ∃ t y q, exec (.calRampDone a b) s = .next t ∧ t.wheel.slot = some y ∧ y.calRep = some q ∧ q.rampDone = true ∧
      (∀ new err, judgeRamp a s.cols.slopeA = .ok (new, err) → t.cols.slopeA = new ∧ q.rampResA = 1 ∧ t.cols.quality.rampErrA = err ∧
        t.cols.quality.rampFrame = x.frame) ∧
      (∀ e, judgeRamp a s.cols.slopeA = .error e → t.cols.slopeA = s.cols.slopeA ∧ q.rampResA = 2 ∧ q.rampReasonA = e ∧
        t.cols.quality.rampErrA = s.cols.quality.rampErrA) ∧
      (∀ new err, judgeRamp b s.cols.slopeB = .ok (new, err) → t.cols.slopeB = new ∧ q.rampResB = 1 ∧ t.cols.quality.rampErrB = err ∧
        t.cols.quality.rampFrame = x.frame) ∧
      (∀ e, judgeRamp b s.cols.slopeB = .error e → t.cols.slopeB = s.cols.slopeB ∧ q.rampResB = 2 ∧ q.rampReasonB = e ∧
        t.cols.quality.rampErrB = s.cols.quality.rampErrB) ∧
      t.cols.trims = s.cols.trims ∧ t.cols.groups = s.cols.groups ∧ t.pols = s.pols ∧ t.arr = s.arr := by
  intro s x r a b h hp hd hc
  have hexec : exec (.calRampDone a b) s =
      .next (((s.rampBank false x.frame a).rampBank true x.frame b).modReport (fun r => { r with rampDone := true })) := by
    show Host.Outcome.next _ = _
    rw [h]
    dsimp only
    rw [hp, hd, hc]
    rfl
  obtain ⟨q, hq, hqb, hokA, herrA, herrB⟩ := State.rampBankA x.frame a (State.calSlot_eq h).1
  obtain ⟨q', hq', hqa, hresA, hreaA, hokB, herB, hqual, hframe⟩ := State.rampBankB x.frame b hq
  have k1 := s.rampBank_kept false x.frame a
  have k2 := (s.rampBank false x.frame a).rampBank_kept true x.frame b
  refine ⟨_, _, _, hexec, State.modReport_slot hq', rfl, rfl, fun new err hj => ?_, fun e hj => ?_, fun new err hj => ?_, fun e hj => ?_,
    k2.trims.trans k1.trims, k2.groups.trans k1.groups, k2.pols.trans k1.pols, k2.arr.trans k1.arr⟩
  · obtain ⟨h1, h2, h3⟩ := hokA new err hj
    exact ⟨hqa.trans h1, hresA.trans h2, hqual.trans (by rw [h3]), hframe (by rw [h3])⟩
  · obtain ⟨h1, h2, h3, h4⟩ := herrA e hj
    exact ⟨hqa.trans h1, hresA.trans h2, hreaA.trans h3, hqual.trans (by rw [h4])⟩
  · obtain ⟨h1, h2, h3⟩ := hokB new err (by rw [hqb]; exact hj)
    have h4 : (State.rampBank true x.frame b (s.rampBank false x.frame a)).cols.quality.rampErrB = err ∧
        (State.rampBank true x.frame b (s.rampBank false x.frame a)).cols.quality.rampFrame = x.frame := by rw [h3]; exact ⟨rfl, rfl⟩
    exact ⟨h1, h2, h4⟩
  · obtain ⟨h1, h2, h3, h4⟩ := herB e (by rw [hqb]; exact hj)
    exact ⟨h1.trans hqb, h2, h3, (congrArg Quality.rampErrB h4).trans herrB⟩

theorem calColumnsDone_reports : ∀ (s : State) (x : Slot) (r : CalReport) (meas : List (Nat × TrimMeas)), s.calSlot = some (x, r) → r.parts.columns = true → r.columnsDone = false →
    (r.parts.ramp = true → r.rampDone = true) → x.cal.any (·.columns) = true →
    let found := (List.range 1632).filter (fun n => s.cols.measurable n && meas.any (fun m => m.1 == n))
    ∃ t y q, exec (.calColumnsDone meas) s = .next t ∧ t.wheel.slot = some y ∧ y.calRep = some q ∧ q.columnsDone = true ∧
      q.accepted + q.rejected = r.accepted + r.rejected + found.length ∧ (r.rejectList.length ≤ 16 → q.rejectList.length ≤ 16) ∧
      t.cols.trims = s.cols.trims ∧ t.cols.slopeA = s.cols.slopeA ∧ t.cols.slopeB = s.cols.slopeB ∧ t.pols = s.pols := by
  intro s x r meas h hp hd hramp hc
  have hexec : exec (.calColumnsDone meas) s =
      .next ((s.judgeColumns x.frame (s.cols.found meas)).modReport (fun r => { r with columnsDone := true })) := by
    have hr : (!r.parts.ramp || r.rampDone) = true := by
      cases hpr : r.parts.ramp
      · rfl
      · exact hramp hpr
    show Host.Outcome.next _ = _
    rw [h]
    dsimp only
    rw [hp, hd, hc, hr]
    exact congrArg Host.Outcome.next (if_pos rfl)
  obtain ⟨⟨q, hq, hn, hl⟩, h1, h2, h3, h4⟩ := State.judgeColumns_counted x.frame (s.cols.found meas) (State.calSlot_eq h).1
  refine ⟨_, _, _, hexec, State.modReport_slot hq, rfl, rfl, ?_, hl, ?_, ?_, ?_, ?_⟩
  · rw [← Columns.found_length]
    exact hn
  · rw [State.modReport_cols]; exact h1
  · rw [State.modReport_cols]; exact h2
  · rw [State.modReport_cols]; exact h3
  · rw [State.modReport_pols]; exact h4

theorem calLeaseExpired_restores : ∀ (s : State) (x : Slot) (r : CalReport), s.calSlot = some (x, r) → r.finished = false →
    ∃ t y q, exec .calLeaseExpired s = .next t ∧ t.wheel.slot = some y ∧ y.calRep = some q ∧ q.expired = true ∧ q.finished = true ∧
      (x.cal.any (·.columns) = true → q.accepted = 0 ∧ q.rejected = 0 ∧ q.rejectList = []) ∧
      (x.cal.any (·.ramp) = true → q.rampResA = 0 ∧ q.rampResB = 0) ∧
      (x.cal.any (·.columns) = false → x.cal.isSome = true → q.accepted = r.accepted ∧ q.rejected = r.rejected ∧ q.rejectList = r.rejectList) ∧
      (x.cal.any (·.ramp) = false → x.cal.isSome = true → q.rampResA = r.rampResA ∧ q.rampResB = r.rampResB) ∧
      t.cols.slopeA = r.old.1 ∧ t.cols.slopeB = r.old.2.1 ∧ (∀ p ∈ t.cols.pendingTrims, p.kind ≠ .columns) ∧
      (∀ p ∈ s.cols.pendingTrims, p.kind ≠ .columns → p ∈ t.cols.pendingTrims) ∧ t.cols.trims = s.cols.trims ∧ t.pols = s.pols := by
  intro s x r h hf
  let p := x.cal.getD r.parts
  let k := s.cols
  have hexec : exec .calLeaseExpired s = .next (({ s with cols := { k with
      slopeA := r.old.1, slopeB := r.old.2.1,
      quality := { k.quality with rampErrA := r.old.2.2.rampErrA, rampErrB := r.old.2.2.rampErrB, rampFrame := r.old.2.2.rampFrame },
      pendingTrims := k.pendingTrims.filter (fun p => p.kind ≠ .columns) } } : State).modReport (CalReport.expire p)) := by
    show Host.Outcome.next _ = _
    rw [h]
    dsimp only
    rw [hf]
    rfl
  obtain ⟨hexp, hcol, hramp, hnocol, hnoramp⟩ := CalReport.expire_spec p r
  have hcal : ∀ f : CalParts → Bool, x.cal.any f = true → f p = true := fun f hc => by
    cases hx : x.cal with
    | none => rw [hx] at hc; cases hc
    | some c => rw [hx] at hc; show f (x.cal.getD r.parts) = true; rw [hx]; exact hc
  have hcal' : ∀ f : CalParts → Bool, x.cal.any f = false → x.cal.isSome = true → f p = false := fun f hc hs => by
    cases hx : x.cal with
    | none => rw [hx] at hs; cases hs
    | some c => rw [hx] at hc; show f (x.cal.getD r.parts) = false; rw [hx]; exact hc
  refine ⟨_, _, _, hexec, State.modReport_slot (State.calSlot_eq h).1, rfl, hexp, ?_, fun hc => hcol (hcal _ hc), fun hc => hramp (hcal _ hc),
    fun hc hs => hnocol (hcal' _ hc hs), fun hc hs => hnoramp (hcal' _ hc hs), rfl, rfl, fun v hv => ?_, fun v hv hk => ?_, rfl, rfl⟩
  · rw [CalReport.finished, hexp]
    rfl
  · exact of_decide_eq_true (List.mem_filter.mp hv).2
  · exact List.mem_filter.mpr ⟨hv, decide_eq_true hk⟩

/-- Settles O42: each bank's result concerns its own code alone, every verdict is counted once, and an expired lease takes back what the slot's own parts gave. -/
theorem calibrationSlotEvents : Obligations.CalibrationSlotEvents :=
  ⟨calRampDone_codes, calColumnsDone_reports, calLeaseExpired_restores⟩

end Sys2Proof.Machine
end

section
/-! PROOFS. The records of held slots: the end of a slot, the fork, the delivery queue (O43). -/

namespace Sys2Proof.Machine

variable {s t u : State} {x : Slot} {p : PolId}

/-! ### The end of a slot -/

/-- What the end of a revolution leaves of the wheel, beside its pauses and its stop, and the time base. -/
structure Revolved (s t : State) : Prop where
  wheel : t.wheel = { s.wheel with turning := t.wheel.turning, stopRequested := t.wheel.stopRequested, pauses := t.wheel.pauses,
                                   pauseCount := t.wheel.pauseCount }
  tb : t.clock.tb = s.clock.tb

theorem Revolved.same (hw : t.wheel = s.wheel) (hc : t.clock = s.clock) : Revolved s t := ⟨by rw [hw], by rw [hc]⟩

theorem Revolved.refl (s : State) : Revolved s s := .same rfl rfl

theorem Revolved.trans (h : Revolved s t) (k : Revolved t u) : Revolved s u := ⟨k.wheel.trans (by rw [h.wheel]), k.tb.trans h.tb⟩

theorem Revolved.issued (h : Issued s t) (hw : t.wheel = s.wheel) : Revolved s t := ⟨by rw [hw], by rw [h.clock]⟩

theorem Issued.issueAll (s : State) : Issued s s.issueAll := Issued.foldl (fun _ _ => Issued.issueEvents) _

theorem Revolved.issueAll (s : State) : Revolved s s.issueAll :=
  .issued (.issueAll s) ((State.issueAll_only s).wheel.resolve_left Bool.false_ne_true)

theorem Revolved.eventAll (code : Nat) (payload : List Byte) (s : State) : Revolved s (s.eventAll code payload) :=
  .issued (Issued.foldl (fun u x => by
      split
      · exact Issued.eventAt ..
      · exact .refl u) _) ((State.eventAll_only ..).wheel.resolve_left Bool.false_ne_true)

theorem Revolved.decideStep (s : State) : Revolved s s.decideStep := by
  unfold State.decideStep
  dsimp only
  split
  · exact .refl s
  · exact (Revolved.same (by rfl) (by rfl)).trans (.issued (Issued.ownerEvent ..) ((State.ownerEvent_only ..).wheel.resolve_left Bool.false_ne_true))

theorem Revolved.insertPauses (n : Nat) (s : State) : Revolved s (s.insertPauses n) := by
  unfold State.insertPauses
  split
  · exact .refl s
  · exact ⟨rfl, rfl⟩

theorem Revolved.decideBoundary (s : State) : Revolved s s.decideBoundary := (Revolved.decideStep s).trans (Revolved.insertPauses _ _)

theorem Revolved.writeTrims (s : State) : Revolved s s.writeTrims :=
  .same ((State.writeTrims_only s).wheel.resolve_left Bool.false_ne_true) ((State.writeTrims_only s).clock.resolve_left Bool.false_ne_true)

theorem Revolved.stopWheel (s : State) : Revolved s s.stopWheel := by
  unfold State.stopWheel
  dsimp only
  generalize hu : State.eventAll 0x0001 _ _ = u
  have h : Revolved s u :=
    Revolved.trans (t := { s with wheel := { s.wheel with turning := false, stopRequested := false, pauses := 0 } }) ⟨rfl, rfl⟩
      (hu ▸ Revolved.eventAll ..)
  refine (h.trans ?_).trans ((Revolved.writeTrims _).trans (Revolved.decideStep _))
  exact ⟨rfl, rfl⟩

theorem Revolved.endRevolution (s : State) : Revolved s s.endRevolution := by
  have h1 : Revolved s ({ s with cols := (s.cols.endRevolution (revolutionNo s.lastFrame)).countRevolution } : State).markBlocks := ⟨rfl, rfl⟩
  unfold State.endRevolution
  dsimp only
  split
  · exact h1.trans (Revolved.stopWheel _)
  · split
    · exact h1
    · split
      · exact h1.trans (Revolved.stopWheel _)
      · exact h1.trans (Revolved.decideBoundary _)

/-- A slot whose work is over goes to the fork (R180, R195, R201). -/
def State.closeSlot (x : Slot) (s : State) : State :=
  { s with wheel := { s.wheel with slot := none, bus := x.ended.endBus s.wheel.bus,
                                   fork := x.holder.map (fun p => { slot := x.ended, holder := p, machines := none }) },
           lands := { s.lands with strobe := false } }

/-- What follows the end of a slot: the end of a revolution, and events (R222, R296). -/
def State.afterSlot (s : State) : State := (if s.wheel.nextFrame.toNat % 16 = 0 then s.endRevolution else s).issueAll

theorem execSlotEnd_eq (h : s.wheel.slot = some x) (ho : x.over = true) (hf : s.wheel.fork = none) (hc : x.calRep = none) :
    exec .slotEnd s = .next (State.afterSlot (if x.pix = 0 then s.closeSlot x else (s.closeSlot x).showPixels x)) := by
  have hcut : (x.voidReason == some 4 && x.calRep.any (fun r => !r.finished)) = false := by rw [hc, Option.any_none, Bool.and_false]
  show Host.Outcome.next _ = _
  rw [h]
  dsimp only
  rw [ho, hf, hcut]
  rw [if_pos (by rfl), if_neg Bool.false_ne_true, if_neg Bool.false_ne_true]
  rfl

theorem State.afterSlot_revolved (s : State) : Revolved s s.afterSlot := by
  unfold State.afterSlot
  split
  · exact (Revolved.endRevolution s).trans (Revolved.issueAll _)
  · exact Revolved.issueAll s

theorem State.afterSlot_only (s : State) :
    Only { clock := true, wheel := true, cols := true, pols := true, arr := true, bist := true, therm := true, wheelCore := true, thermCore := true }
      s s.afterSlot := by
  unfold State.afterSlot
  split
  · exact (State.issueAll_only _).after (State.endRevolution_only s) rfl
  · exact (State.issueAll_only s).mono rfl

theorem Slot.ended_eq (x : Slot) : x.ended = { x with voidReason := if x.voidReason.isNone && x.te.isNone then some 1 else x.voidReason } := by
  unfold Slot.ended
  cases x.voidReason <;> rfl

theorem State.closeSlot_pixels (x : Slot) (s : State) : let u := if x.pix = 0 then s.closeSlot x else (s.closeSlot x).showPixels x
    u.wheel = (s.closeSlot x).wheel ∧ u.lands.strobe = false ∧ u.clock = s.clock ∧ u.fab = s.fab := by
  dsimp only
  split
  · exact ⟨rfl, rfl, rfl, rfl⟩
  · exact ⟨rfl, rfl, rfl, rfl⟩

/-- A slot without reads gives the bus its tag, with the reason it is void for (R277). -/
theorem Slot.ended_tag (b : SampleBus) (hh : x.holder = some p) (hr : x.reads = []) (hv : x.voidReason ≠ none ∨ x.te = none) :
    (x.ended.endBus b).tag[0]? = some (x.frame.setWidth 16) ∧ (x.ended.endBus b).tag[3]? = some (BitVec.ofNat 16 (x.voidReason.getD 1)) := by
  have hreason : x.ended.voidReason.getD 0 = x.voidReason.getD 1 := by
    rw [Slot.ended_eq]
    cases hx : x.voidReason with
    | some r => rfl
    | none => rw [hv.resolve_left fun h => h hx]; rfl
  have hbus : x.ended.endBus b = { b with frameValid := false, tag := x.ended.tagWords (x.ended.voidReason.getD 0) } :=
    if_pos (by show (x.holder.isSome && x.reads.isEmpty) = true; rw [hh, hr]; rfl)
  rw [hbus, hreason]
  exact ⟨rfl, rfl⟩

theorem Slot.endBus_frameValid (b : SampleBus) : (x.endBus b).frameValid = false := by
  unfold Slot.endBus
  split <;> rfl

/-! ### The fork -/

theorem execRecordLeavesFork_void {d : DoneSlot} {reason : Nat} (h : s.wheel.fork = some d) (he : s.wheel.enclave = none)
    (hv : d.slot.voidReason = some reason) (hc : d.slot.calRep = none) :
    exec .recordLeavesFork s = .next (({ s with wheel := { s.wheel with fork := none } } : State).leaveVoid d.slot d.holder reason) := by
  show Host.Outcome.next _ = _
  rw [h]
  dsimp only
  rw [he, hv, hc]
  rfl

theorem execRecordLeavesFork_stats {d : DoneSlot} {te : Tb} (h : s.wheel.fork = some d) (he : s.wheel.enclave = none)
    (hv : d.slot.voidReason = none) (ht : d.slot.te = some te) (hc : d.slot.calRep = none) :
    exec .recordLeavesFork s = .next (({ s with wheel := { s.wheel with fork := none } } : State).leaveStats d.slot d.holder te d.machines) := by
  show Host.Outcome.next _ = _
  rw [h]
  dsimp only
  rw [he, hv, ht, hc]
  rfl

theorem State.leaveVoid_unthrottled (reason : Nat) (ht : x.throttled = false) : s.leaveVoid x p reason =
    { s with wheel := { s.wheel with enclave := some { pol := p, rtype := 2, frame := x.frame, body := voidBody reason x.startTb } } } := by
  unfold State.leaveVoid
  rw [ht]
  rfl

/-- A STATS body begins with T_E and EL, then AGAIN (R299). -/
theorem statsFixed_starts (te : Tb) (init : Bool) (f : FrameStats) :
    ∃ l, statsFixed x te init f = te.bytes ++ (leBytes 4 x.expo.eL ++ (BitVec.ofNat 8 x.expo.again :: l)) := by
  unfold statsFixed
  dsimp only
  simp only [List.append_assoc]
  exact ⟨_, rfl⟩

theorem Tb.bytes_length (te : Tb) : te.bytes.length = 8 := leBytes_length ..

theorem State.occEvents_issued (f : W32) (old new : Vector OccMachine 4) : Issued s (s.occEvents p f old new) :=
  Issued.foldl (fun u a => by
    split
    · exact Issued.eventAt ..
    · exact .refl u) _

theorem State.occEvents_issues (f : W32) (old new : Vector OccMachine 4) (s : State) : Issues p s (s.occEvents p f old new) := by
  unfold State.occEvents
  induction List.finRange 4 generalizing s with
  | nil => exact .refl p s
  | cons a l ih =>
    rw [List.foldl_cons]
    refine Issues.trans ?_ (ih _)
    split
    · exact Issues.eventAt ..
    · exact .refl p s

/-- What the record of a slot with reads leaves: its body before the enclave, its holder without the mark of MOTION_REBASE, the other polders as
they were (R286, R299). -/
theorem State.leaveStats_kept (te : Tb) (m : Option (Vector OccMachine 4)) (s : State) :
    (∃ init f l, (s.leaveStats x p te m).wheel =
      { s.wheel with enclave := some { pol := p, rtype := 1, frame := x.frame, body := statsFixed x te init f ++ l } }) ∧
    (∀ q, q ≠ p → (s.leaveStats x p te m).pol q = s.pol q) ∧ ((s.leaveStats x p te m).pol p).motionInit = false := by
  have key : ∀ (q' : Polder) (init : Bool) (f : FrameStats) (l : List Byte) (old new : Vector OccMachine 4) (e : Bool) (lux : List Frac),
      q'.motionInit = false →
      let v := ({ s with freeCtr := s.freeCtr + 24 } : State).modPol p (fun _ => q')
      let v : State := { v with wheel := { v.wheel with enclave := some { pol := p, rtype := 1, frame := x.frame, body := statsFixed x te init f ++ l } } }
      let t := (v.occEvents p x.frame old new).daliUpdate p e new lux
      (∃ init f l, t.wheel = { s.wheel with enclave := some { pol := p, rtype := 1, frame := x.frame, body := statsFixed x te init f ++ l } }) ∧
        (∀ q, q ≠ p → t.pol q = s.pol q) ∧ (t.pol p).motionInit = false := by
    intro q' init f l old new e lux hm v₀ v t
    have hd := State.daliUpdate_only p e new lux (v.occEvents p x.frame old new)
    have hpol : ∀ q, t.pol q = (v.occEvents p x.frame old new).pol q := fun q => congrArg (fun a => a[q]) (hd.pols.resolve_left Bool.false_ne_true)
    have ho := State.occEvents_issues (p := p) x.frame old new v
    have hw : (v.occEvents p x.frame old new).wheel = v.wheel := by rw [ho.frame]
    refine ⟨⟨init, f, l, (hd.wheel.resolve_left Bool.false_ne_true).trans hw⟩, fun q hq => ?_, ?_⟩
    · rw [hpol, ho.pol q hq]
      exact State.pol_modPol_ne (s := { s with freeCtr := s.freeCtr + 24 }) (fun _ => q') hq
    · rw [hpol, (State.occEvents_issued (s := v) (p := p) x.frame old new).polder p]
      show (v₀.pol p).motionInit = false
      rw [State.pol_modPol_self]
      exact hm
  exact key _ _ _ _ _ _ _ _ rfl

/-! ### The delivery queue -/

theorem displace_zero (l : List DlvRec) : displace 0 l = (l, 0, 0) := by
  cases l <;> rfl

/-- A record with room enters at the end of the queue, nothing displaced (R370). -/
theorem enterDelivery_room {r : DlvRec} {q : Polder} (h : dlvPlaces q.dlv + r.frags ≤ 128) : enterDelivery r q = { q with dlv := q.dlv ++ [r] } := by
  unfold enterDelivery
  rw [Nat.sub_eq_zero_of_le h, displace_zero]
  rfl

/-- Without events that wait nothing is issued (R296). -/
theorem State.issueEvents_none (h : (s.pol p).events = []) : s.issueEvents p = s := by
  unfold State.issueEvents
  rw [h]
  split <;> rfl

theorem State.issueAll_none (h : ∀ p, (s.pol p).events = []) : s.issueAll = s :=
  foldl_fixed fun p _ => State.issueEvents_none (h p)

/-- A record issued: it takes its polder's next record number; beside that polder and the array nothing changes (R295, R298). -/
theorem State.issueRecord_kept (rtype : Nat) (frame : W32) (body : List Byte) :
    (s.issueRecord p rtype frame body).pol p =
      { enterDelivery { ersEq := (s.pol p).ersEq, rtype := rtype, frame := frame, body := body, frags := fragments body.length, sent := 0,
                        path := (s.pol p).path, key := (s.pol p).key } (s.pol p) with
        ersEq := (s.pol p).ersEq + 1, lastFrame := some frame } ∧
    (∀ q, q ≠ p → (s.issueRecord p rtype frame body).pol q = s.pol q) ∧
    s.issueRecord p rtype frame body = { s with pols := (s.issueRecord p rtype frame body).pols, arr := (s.issueRecord p rtype frame body).arr } := by
  have hframe := (State.issueRecord_only p rtype frame body s).eq
  unfold State.issueRecord at *
  generalize hf : (fun q : Polder =>
    { enterDelivery { ersEq := q.ersEq, rtype := rtype, frame := frame, body := body, frags := fragments body.length, sent := 0,
                      path := q.path, key := q.key } q with ersEq := q.ersEq + 1, lastFrame := some frame }) = f
  have hr := State.reserveSeq_only p (s.modPol p f)
  have hpol : ∀ q, ((s.modPol p f).reserveSeq p).pol q = (s.modPol p f).pol q := fun q => congrArg (fun a => a[q]) (hr.pols.resolve_left Bool.false_ne_true)
  refine ⟨?_, fun q hq => ?_, ?_⟩
  · rw [hpol, State.pol_modPol_self, ← hf]
  · rw [hpol, State.pol_modPol_ne _ hq]
  · subst hf
    exact hframe

/-- Where no event waits and no polder leaves, only the sealed record enters (R295, R296, R331). -/
theorem execRecordEntersDelivery_quiet {r : DoneRec} (h : s.wheel.enclave = some r) (hn : ∀ p, (s.pol p).events = [] ∧ (s.pol p).gone = none) :
    let t := ({ s with wheel := { s.wheel with enclave := none } } : State).issueRecord r.pol r.rtype r.frame r.body
    exec .recordEntersDelivery s = .next t ∧
      t.pol r.pol = { enterDelivery { ersEq := (s.pol r.pol).ersEq, rtype := r.rtype, frame := r.frame, body := r.body,
                                      frags := fragments r.body.length, sent := 0, path := (s.pol r.pol).path, key := (s.pol r.pol).key } (s.pol r.pol) with
        ersEq := (s.pol r.pol).ersEq + 1, lastFrame := some r.frame } ∧
      (∀ q, q ≠ r.pol → t.pol q = s.pol q) ∧ t = { s with wheel := { s.wheel with enclave := none }, pols := t.pols, arr := t.arr } := by
  intro t
  obtain ⟨hpol, hother, hframe⟩ := State.issueRecord_kept (s := { s with wheel := { s.wheel with enclave := none } }) (p := r.pol) r.rtype r.frame r.body
  have hquiet : ∀ p, (t.pol p).events = [] ∧ (t.pol p).gone = none := fun p => by
    by_cases hp : p = r.pol
    · subst hp
      have hq : t.pol r.pol = _ := hpol
      rw [hq]
      exact hn r.pol
    · have hq : t.pol p = s.pol p := hother p hp
      rw [hq]
      exact hn p
  refine ⟨?_, hpol, hother, hframe⟩
  have hdue : ∀ p, t.dissolvedDue p = false := fun p => by
    unfold State.dissolvedDue
    rw [(hquiet p).2]
  show Host.Outcome.next _ = _
  rw [h]
  dsimp only
  rw [State.issueAll_none fun p => (hquiet p).1]
  have hfold : (List.finRange 8).foldl (fun s p => if s.dissolvedDue p then s.issueDissolved p else s) t = t :=
    foldl_fixed fun p _ => if_neg (by rw [hdue p]; exact Bool.false_ne_true)
  rw [hfold, ite_self]

/-- Settles O43: a slot goes to the fork as it ended, its record leaves it as VOID or STATS, and takes its holder's next record number. -/
theorem recordEvents : Obligations.RecordEvents := by
  unfold Obligations.RecordEvents
  refine ⟨fun s x h ho hf hc => ?_, fun s d reason h he hv ht hc => ?_, fun s d te h he hv ht hc => ?_, fun s r h hnone => ?_⟩
  · obtain ⟨hu, hstrobe, hclock, hfab⟩ := State.closeSlot_pixels x s
    generalize hw : (if x.pix = 0 then s.closeSlot x else (s.closeSlot x).showPixels x) = u at *
    have hr := u.afterSlot_revolved
    have hon := u.afterSlot_only
    have hwheel := hr.wheel
    rw [hu] at hwheel
    refine ⟨u.afterSlot, by rw [execSlotEnd_eq h ho hf hc, hw], ?_, ?_, ?_, ?_, fun p hp hreads hvoid => ?_, ?_, hr.tb.trans (by rw [hclock]),
      (hon.fab.resolve_left Bool.false_ne_true).trans hfab⟩
    · rw [hwheel]; rfl
    · rw [hon.lands.resolve_left Bool.false_ne_true]; exact hstrobe
    · rw [hwheel, ← Slot.ended_eq]; rfl
    · rw [hwheel]; exact Slot.endBus_frameValid _
    · rw [hwheel]; exact Slot.ended_tag _ hp hreads hvoid
    · rw [hwheel]; rfl
  · rw [execRecordLeavesFork_void h he hv hc, State.leaveVoid_unthrottled reason ht]
    rfl
  · obtain ⟨⟨init, f, l, hw⟩, hp, hm⟩ := State.leaveStats_kept (x := d.slot) (p := d.holder) te d.machines
      ({ s with wheel := { s.wheel with fork := none } } : State)
    obtain ⟨l', hb⟩ := statsFixed_starts (x := d.slot) te init f
    refine ⟨_, _, execRecordLeavesFork_stats h he hv ht hc, by rw [hw], by rw [hw], rfl, rfl, rfl, ?_, ?_, hp, hm⟩
    · show (statsFixed d.slot te init f ++ l).take 8 = te.bytes
      rw [hb, List.append_assoc]
      exact List.take_left' (Tb.bytes_length te)
    · show (statsFixed d.slot te init f ++ l)[12]? = _
      rw [hb, List.append_assoc, List.getElem?_append_right (by rw [Tb.bytes_length]; omega), Tb.bytes_length]
      rfl
  · obtain ⟨hexec, hkept⟩ := execRecordEntersDelivery_quiet h hnone
    obtain ⟨hpol, hother, hframe⟩ := hkept
    refine ⟨_, hexec, by rw [hframe], fun hroom => ?_, ?_, hother, hframe⟩
    · rw [hpol, enterDelivery_room hroom]
    · rw [hpol]

end Sys2Proof.Machine
end

section
/-! PROOFS. The blank-interval check (O41 fails). -/

namespace Sys2Proof.Machine

variable {s t u : State} {k : Columns} {g h c : Nat}

/-! ### Groups and declarations -/

theorem Columns.group_modGroup_ne (f : Group → Group) (hh : h ≠ g) : (k.modGroup g f).group h = k.group h := by
  unfold Columns.group Columns.modGroup
  dsimp only
  rw [List.getD_eq_getElem?_getD, List.getD_eq_getElem?_getD, List.getElem?_modify]
  simp only [if_neg (Ne.symm hh), Option.map_eq_map, Option.map_id_fun', id_eq]

/-- A change that keeps a group's state keeps that of every group. -/
theorem Columns.group_modGroup_state (f : Group → Group) (hf : ∀ y, (f y).state = y.state) :
    ((k.modGroup g f).group h).state = (k.group h).state := by
  by_cases hh : h = g
  · subst hh
    unfold Columns.group Columns.modGroup
    dsimp only
    rw [List.getD_eq_getElem?_getD, List.getD_eq_getElem?_getD, List.getElem?_modify]
    cases k.groups[h]? with
    | none => rfl
    | some y => exact (congrArg Group.state (if_pos rfl)).trans (hf y)
  · rw [Columns.group_modGroup_ne f hh]

theorem State.colFail_cols (kind means c row : Nat) (f : W32) : (s.colFail kind means c row f).cols = s.cols :=
  (State.colFail_only kind means c row f s).cols.resolve_left Bool.false_ne_true

theorem State.declareReplaced_cols (means row : Nat) (f : W32) : (s.declareReplaced c means row f).cols =
    s.cols.modGroup (groupOf c) (fun y => { y with state := .replacing, replOffset := c % 50, abandoned := true }) := State.colFail_cols ..

theorem State.declareSpare_cols (f : W32) : (s.declareSpare g f).cols =
    s.cols.modGroup g (fun x => { x with state := .spareFailed, replOffset := 0, abandoned := true }) := State.colFail_cols ..

/-- The count of defects of a group (R237). -/
def Group.defected (y : Group) : Group := { y with defects := min 255 (y.defects + 1) }

/-- A declared defect: it is on the map, or beyond a full one (R237, R239). -/
theorem State.declareDefect_cols (cause : Nat) (f : W32) : (s.declareDefect c cause f).cols =
    let k := s.cols.modGroup (groupOf c) Group.defected
    if s.cols.defectMap.length < 64 then { k with defectMap := k.defectMap ++ [{ column := c, frame := f, cause := cause }] }
    else { k with mapFull := true, beyondMap := c :: k.beyondMap } := by
  unfold State.declareDefect
  dsimp only
  split
  · exact State.colFail_cols ..
  · exact State.colFail_cols ..

/-- A declared defect changes no group's state. -/
theorem State.declareDefect_state (cause : Nat) (f : W32) (h : Nat) :
    ((s.declareDefect c cause f).cols.group h).state = (s.cols.group h).state := by
  have hk := Columns.group_modGroup_state (k := s.cols) (g := groupOf c) (h := h) Group.defected fun _ => rfl
  rw [State.declareDefect_cols]
  dsimp only
  split <;> exact hk

theorem Columns.groupOf_failing {depth10 : Bool} {conv : List CheckConv} (hc : c ∈ k.failing depth10 conv g) : groupOf c = g := by
  have h := (List.mem_range'_1.mp (List.mem_filter.mp hc).1)
  unfold groupOf
  omega

theorem State.declareColumns_state (f : W32) (l : List Nat) (hl : ∀ c ∈ l, groupOf c ≠ h) (s : State) :
    ((s.declareColumns f l).cols.group h).state = (s.cols.group h).state := by
  induction l generalizing s with
  | nil => rfl
  | cons c l ih =>
    have hrest := fun y hy => hl y (List.mem_cons_of_mem c hy)
    unfold State.declareColumns
    split
    · rw [ih hrest, State.declareReplaced_cols, Columns.group_modGroup_ne _ (Ne.symm (hl c List.mem_cons_self))]
    · rw [ih hrest, State.declareDefect_state]

/-- The check of a group leaves the state of every other group (R227, R237). -/
theorem State.checkGroup_state (depth10 : Bool) (conv : List CheckConv) (f : W32) (s : State) (hh : h ≠ g) :
    ((s.checkGroup depth10 conv f g).cols.group h).state = (s.cols.group h).state := by
  have hcols : ∀ c ∈ s.cols.failing depth10 conv g, groupOf c ≠ h := fun c hc e => hh (e ▸ Columns.groupOf_failing hc)
  unfold State.checkGroup
  dsimp only
  refine (State.declareColumns_state f _ hcols _).trans ?_
  split
  · rfl
  · split
    · rw [State.declareSpare_cols, Columns.group_modGroup_ne _ hh]
    · rw [State.declareDefect_state, Columns.group_modGroup_ne _ hh]

theorem State.foldl_checkGroup_state (depth10 : Bool) (conv : List CheckConv) (f : W32) (l : List Nat) (hl : h ∉ l) (s : State) :
    ((l.foldl (State.checkGroup depth10 conv f) s).cols.group h).state = (s.cols.group h).state := by
  induction l generalizing s with
  | nil => rfl
  | cons g l ih =>
    rw [List.mem_cons, not_or] at hl
    exact (ih hl.2 _).trans (State.checkGroup_state depth10 conv f s hl.1)

/-- A group of which nothing fails is left as it is. -/
theorem State.checkGroup_passes {depth10 : Bool} {conv : List CheckConv} (f : W32) (hs : checkFails depth10 (convOf depth10 conv (1600 + g)) = false)
    (hc : s.cols.failing depth10 conv g = []) : s.checkGroup depth10 conv f g = s := by
  unfold State.checkGroup
  dsimp only
  rw [hs, hc, Bool.and_false]
  rfl

/-- The check of a tenant's slot (R225 to R227). -/
theorem execBlankIntervalCheck_tenant {x : Slot} (conv : List CheckConv) (trim : List (Nat × TrimMeas)) (h : s.wheel.slot = some x)
    (hh : x.holder.isSome = true) (hc : x.cal = none) (hk : x.checked = false) (hclk : s.clock.hold = none) (ho : (x.holder == some owner) = false) :
    exec (.blankIntervalCheck conv trim) s = .next (((List.range 32).foldl (State.checkGroup x.expo.depth10 conv x.frame)
      { s with wheel := { s.wheel with slot := some { x with checked := true } } }).storeColumns s.colStateNow) := by
  have hcond : (x.holder.isSome && x.cal.isNone && !x.checked && s.clock.hold.isNone) = true := by
    rw [hh, hc, hk, hclk]
    rfl
  show Host.Outcome.next _ = _
  rw [h]
  dsimp only
  rw [if_pos hcond, ho, if_neg Bool.false_ne_true]

/-! ### A replacement beyond its group -/

/-- A group whose spare replaces the column 75 places on, one of the next group's. -/
def farReplacement : Group :=
  { state := .replacing, replOffset := 75, defects := 0, maxDiff := 0, runMax := 0, diffCount := 0, abandoned := false }

/-- A tenant's slot. -/
def tenantSlot : Slot := { State.reset.emptySlot 0 with holder := some 1 }

/-- A tenant's slot in progress, with such a replacement in group 0. -/
def replacedOutside : State :=
  { State.reset with
    wheel := { State.reset.wheel with slot := some tenantSlot }
    cols := { State.reset.cols with groups := State.reset.cols.groups.set 0 farReplacement } }

/-- The conversions of a check in which converter n reads low codes of 0 where it is one of a list, else nominal codes. -/
def lowAt (bad : List Nat) (n : Nat) : CheckConv := { low0 := if n ∈ bad then 0 else 512, low1 := if n ∈ bad then 0 else 512, high0 := 3584, high1 := 3584 }

/-- Column 75 and the spare of group 0 fail. -/
def twoFail : List CheckConv := (List.range 1601).map (lowAt [75, 1600])

theorem checkFails_twoFail (n : Nat) : checkFails false (convOf false twoFail n) = decide (n = 75 ∨ n = 1600) := by
  have hconv : convOf false twoFail n = codedCheck false (lowAt [75, 1600] n) := by
    unfold convOf twoFail
    rw [List.getD_eq_getElem?_getD, List.getElem?_map]
    by_cases hn : n < 1601
    · rw [List.getElem?_range hn]
      rfl
    · have hne : n ∉ [75, 1600] := by simp; omega
      rw [List.getElem?_eq_none (by rw [List.length_range]; omega), lowAt, if_neg hne]
      rfl
  have hmem : n ∈ [75, 1600] ↔ n = 75 ∨ n = 1600 := by simp
  rw [hconv, lowAt]
  by_cases hn : n ∈ [75, 1600]
  · rw [if_pos hn, decide_eq_true (hmem.mp hn)]
    decide
  · rw [if_neg hn, decide_eq_false fun h => hn (hmem.mpr h)]
    decide

/-- What fails of a group's columns: column 75, where it has not failed before. -/
theorem Columns.failing_twoFail (k : Columns) (hg : g < 32) :
    k.failing false twoFail g = (List.range' (50 * g) 50).filter (fun c => !k.failed c && decide (c = 75)) := by
  unfold Columns.failing
  refine List.filter_congr fun c hc => ?_
  have hlt := List.mem_range'_1.mp hc
  have hiff : (c = 75 ∨ c = 1600) ↔ c = 75 := by omega
  rw [checkFails_twoFail, decide_eq_decide.mpr hiff]

/-- The slot's check has begun. -/
def replacedOutsideChecked : State :=
  { replacedOutside with wheel := { replacedOutside.wheel with slot := some { tenantSlot with checked := true } } }

/-- The failed spare's column is declared in the next group: column 75 is a defect before its own group is checked. -/
theorem replacedOutside_defect : (replacedOutsideChecked.checkGroup false twoFail 0 0).cols.failed 75 = true := by
  have hfail : replacedOutsideChecked.cols.failing false twoFail 0 = [] := by
    rw [Columns.failing_twoFail _ (by decide)]
    exact List.filter_eq_nil_iff.mpr fun c hc => by
      have := List.mem_range'_1.mp hc
      simp only [Bool.and_eq_true, decide_eq_true_eq, not_and]
      omega
  have hspare : checkFails false (convOf false twoFail (1600 + 0)) = true := by rw [checkFails_twoFail]; rfl
  have hcheck : replacedOutsideChecked.checkGroup false twoFail 0 0 =
      ({ replacedOutsideChecked with cols := replacedOutsideChecked.cols.modGroup 0 (fun y => { y with state := .spareFailed, replOffset := 0 }) } : State).declareDefect
        75 2 0 := by
    unfold State.checkGroup
    dsimp only
    rw [hfail, hspare]
    rfl
  rw [hcheck]
  unfold Columns.failed Columns.defective
  rw [State.declareDefect_cols]
  decide +kernel

theorem replacedOutside_state : (((List.range 32).foldl (State.checkGroup false twoFail 0) replacedOutsideChecked).cols.group 1).state = .live := by
  have hsplit : List.range 32 = 0 :: 1 :: List.range' 2 30 := by decide
  have hrest : 1 ∉ List.range' 2 30 := fun h => by have := List.mem_range'_1.mp h; omega
  have hpass : (replacedOutsideChecked.checkGroup false twoFail 0 0).checkGroup false twoFail 0 1 = replacedOutsideChecked.checkGroup false twoFail 0 0 := by
    refine State.checkGroup_passes 0 (by rw [checkFails_twoFail]; rfl) ?_
    rw [Columns.failing_twoFail _ (by decide)]
    refine List.filter_eq_nil_iff.mpr fun c _ hc => ?_
    rw [Bool.and_eq_true, decide_eq_true_eq] at hc
    obtain ⟨h1, rfl⟩ := hc
    rw [replacedOutside_defect] at h1
    cases h1
  rw [hsplit, List.foldl_cons, List.foldl_cons, hpass, State.foldl_checkGroup_state _ _ _ _ hrest,
    State.checkGroup_state _ _ _ _ (by decide)]
  rfl

/-- Refutes O41: where a group's record names a replaced column beyond the group's 50, the spare's failure is declared on a column of the next group,
which is then not checked, and not replaced where it fails. -/
theorem not_columnEvents : ¬ Obligations.ColumnEvents := by
  unfold Obligations.ColumnEvents
  rintro ⟨-, hcheck, -⟩
  obtain ⟨-, t, hexec, -, hgroups⟩ := hcheck replacedOutside tenantSlot twoFail [] rfl rfl rfl rfl rfl (by decide)
  obtain ⟨-, hfirst, -⟩ := hgroups 1 (by decide) (by rfl)
  have hfail : replacedOutside.cols.failing false twoFail 1 = [75] := by
    rw [Columns.failing_twoFail _ (by decide)]
    decide +kernel
  obtain ⟨hstate, -⟩ := hfirst 75 [] (by rw [show tenantSlot.expo.depth10 = false from rfl, checkFails_twoFail]; rfl) hfail
  have hrun : exec (.blankIntervalCheck twoFail []) replacedOutside =
      .next (((List.range 32).foldl (State.checkGroup false twoFail 0) replacedOutsideChecked).storeColumns replacedOutside.colStateNow) :=
    execBlankIntervalCheck_tenant (x := tenantSlot) twoFail [] rfl rfl rfl rfl rfl rfl
  rw [hrun] at hexec
  obtain rfl := Host.Outcome.next.inj hexec
  rw [(State.storeColumns_only _ _).cols.resolve_left Bool.false_ne_true, replacedOutside_state] at hstate
  cases hstate

end Sys2Proof.Machine
end

section
/-! PROOFS. Wakes, operating points and replies that count as carried (O48). -/

namespace Sys2Proof.Machine

variable {s t : State} {p : PolId}

/-! ### Maps of domains -/

/-- Powers of two summed in ascending order are the bits of the sum. -/
theorem testBit_foldl_pow (l : List Nat) (hl : l.Pairwise (· < ·)) (a m : Nat) (ha : a < 2 ^ m) (hm : ∀ n ∈ l, m < n) (j : Nat) :
    (l.foldl (fun a n => a + 2 ^ (n - 1)) a).testBit j = (a.testBit j || decide (j + 1 ∈ l)) := by
  induction l generalizing a m with
  | nil => simp
  | cons n l ih =>
    rw [List.pairwise_cons] at hl
    have hn := hm n List.mem_cons_self
    have ha' : a < 2 ^ (n - 1) := lt_of_lt_of_le ha (Nat.pow_le_pow_right (by omega) (by omega))
    have hor : a + 2 ^ (n - 1) = 2 ^ (n - 1) ||| a := by
      have := Nat.two_pow_add_eq_or_of_lt ha' 1
      rw [Nat.mul_one] at this
      rw [← this, Nat.add_comm]
    have hlt : a + 2 ^ (n - 1) < 2 ^ n := by
      have : 2 ^ n = 2 * 2 ^ (n - 1) := by rw [← Nat.pow_succ']; congr 1; omega
      omega
    rw [List.foldl_cons, ih hl.2 _ n hlt hl.1, hor, Nat.testBit_or, Nat.testBit_two_pow]
    have hmem : (j + 1 ∈ n :: l) ↔ (n - 1 = j ∨ j + 1 ∈ l) := by
      rw [List.mem_cons]
      have : j + 1 = n ↔ n - 1 = j := by omega
      rw [this]
    rw [decide_eq_decide.mpr hmem, Bool.decide_or, ← Bool.or_assoc, Bool.or_comm (decide _) (a.testBit j)]

/-- The map of a choice of domains has a bit for each of them (R134, R426). -/
theorem testBit_domMap (f : Nat → Bool) {n : Nat} (h1 : 1 ≤ n) (h12 : n ≤ 12) :
    (domMap ((List.range' 1 12).filter f)).toNat.testBit (n - 1) = f n := by
  have hsort : ((List.range' 1 12).filter f).Pairwise (· < ·) := (by decide : (List.range' 1 12).Pairwise (· < ·)).filter f
  have hpos : ∀ k ∈ (List.range' 1 12).filter f, 0 < k := fun k hk => (List.mem_range'_1.mp (List.mem_filter.mp hk).1).1
  rw [domMap, BitVec.toNat_ofNat, Nat.testBit_mod_two_pow, testBit_foldl_pow _ hsort 0 0 (by decide) hpos,
    decide_eq_true (by omega : n - 1 < 12), Nat.zero_testBit, Bool.true_and, Bool.false_or, Nat.sub_add_cancel h1]
  have hmem : n ∈ (List.range' 1 12).filter f ↔ f n = true := by
    rw [List.mem_filter]
    exact ⟨fun h => h.2, fun h => ⟨List.mem_range'_1.mpr ⟨h1, by omega⟩, h⟩⟩
  rw [Bool.eq_iff_iff, decide_eq_true_eq]
  exact hmem

/-! ### Carried replies -/

theorem State.hostCarried_eq (s : State) (c : Carry) :
    s.hostCarried c = { c with carried := c.carried || (s.pol owner).journal.any (fun r => r.esn == c.esn && r.path == Path.host) } := by
  unfold State.hostCarried
  by_cases h : (s.pol owner).journal.any (fun r => r.esn == c.esn && r.path == Path.host) = true
  · rw [h, Bool.or_true]
    exact if_pos h
  · rw [Bool.eq_false_iff.mpr h, Bool.or_false]
    exact if_neg h

theorem State.hostCarried_why (s : State) (c : Carry) : (s.hostCarried c).why = c.why := by rw [State.hostCarried_eq]

/-- Without a SYS_RESET that waits no reset is due (R425). -/
theorem State.sysResetDue_none (h : s.carries.all (fun c => c.why ≠ .sysReset) = true) : s.sysResetDue = s := by
  have hc : s.carried .sysReset = false := by
    unfold State.carried
    rw [List.any_eq_false]
    intro c hc hw
    rw [Bool.and_eq_true, decide_eq_true_eq] at hw
    exact of_decide_eq_true (List.all_eq_true.mp h c hc) hw.1
  unfold State.sysResetDue
  rw [hc]
  rfl

theorem State.sysResetDue_carried (hc : s.carried .sysReset = true) (hw : s.arr.writes = []) (hs : s.power.shedding = false) :
    s.sysResetDue = (s.dropCarry .sysReset).restart 3 := by
  unfold State.sysResetDue
  rw [hc, hw, hs]
  rfl

theorem execReplyCarriedTimeout_eq (hs : s.power.shedding = false) :
    exec .replyCarriedTimeout s = .next ({ s with carries := s.carries.map s.hostCarried } : State).sysResetDue := by
  show Host.Outcome.next _ = _
  rw [hs]
  rfl

/-! ### Operating points -/

/-- The points of a list of changes alone are changed, and no domain (R167, R169). -/
theorem Power.changePoints_kept (l : List Nat) (b : Nat) (p : Power) : (p.changePoints l b).1.doms = p.doms ∧
    ∀ i : Fin 4, i.val ∉ l → (p.changePoints l b).1.points[i] = p.points[i] ∧ (p.changePoints l b).1.pointNext[i] = p.pointNext[i] := by
  induction l generalizing p with
  | nil => exact ⟨rfl, fun _ _ => ⟨rfl, rfl⟩⟩
  | cons j l ih =>
    cases hp : pointAsked b j with
    | none =>
      have heq : p.changePoints (j :: l) b = p.changePoints l b := by rw [Power.changePoints, hp]
      obtain ⟨h1, h2⟩ := ih p
      rw [heq]
      exact ⟨h1, fun i hi => h2 i fun h => hi (List.mem_cons_of_mem _ h)⟩
    | some t =>
      rw [Power.changePoints, hp]
      dsimp only
      split
      · obtain ⟨h1, h2⟩ := ih { p with points := p.points.mapIdx (fun k x => if k = j then t else x) }
        refine ⟨h1, fun i hi => ?_⟩
        rw [List.mem_cons, not_or] at hi
        obtain ⟨k1, k2⟩ := h2 i hi.2
        refine ⟨k1.trans ?_, k2⟩
        simp [hi.1]
      · refine ⟨rfl, fun i hi => ⟨rfl, ?_⟩⟩
        rw [List.mem_cons, not_or] at hi
        simp [hi.1]

/-- The divider follows the raised voltage of a point (R167). -/
def Power.raised (d : Fin 4) (t : Fin 3) (p : Power) : Power := { p with points := p.points.set d t, pointNext := p.pointNext.set d none }

/-- A raised point takes effect, and the changes of a PSTATE_SET after it may go on (R167, R169). -/
theorem execOpPointVoltageReady_spec {d : Fin 4} {n : Fin 3} (hn : s.power.pointNext[d] = some n) :
    ∃ t, exec (.opPointVoltageReady d) s = .next t ∧
      (t.power = s.power.raised d n ∨ ∃ b, t.power = ((s.power.raised d n).changePoints ((List.range 4).drop (d.val + 1)) b).1) ∧
      ((s.pol owner).serving = none → t.power = s.power.raised d n ∧ t.pols = s.pols) := by
  have hexec : exec (.opPointVoltageReady d) s = .next (match (s.pol owner).serving with
      | some v =>
        if v.rule = .pointChange then
          let (p, complete) := (s.power.raised d n).changePoints ((List.range 4).drop (d.val + 1)) (byteAt v.entry.params 0).toNat
          let s := { s with power := p }
          if complete then s.readyHeld owner .pointChange { status := .ok, effectFrame := none, results := leBytes 1 (pointsByte p.points) }
          else s
        else { s with power := s.power.raised d n }
      | none => { s with power := s.power.raised d n }) := by
    show Host.Outcome.next _ = _
    rw [hn]
    rfl
  rw [hexec]
  cases hv : (s.pol owner).serving with
  | none => exact ⟨_, rfl, .inl rfl, fun _ => ⟨rfl, rfl⟩⟩
  | some v =>
    dsimp only
    split
    · refine ⟨_, rfl, .inr ⟨(byteAt v.entry.params 0).toNat, ?_⟩, fun h => nomatch h⟩
      split
      · rfl
      · rfl
    · exact ⟨_, rfl, .inl rfl, fun h => nomatch h⟩

/-- Neither a raised point nor the changes after it touch a point before it, or a domain. -/
theorem Power.raised_changed {d : Fin 4} {n : Fin 3} {p r : Power}
    (hr : r = p.raised d n ∨ ∃ b, r = ((p.raised d n).changePoints ((List.range 4).drop (d.val + 1)) b).1) :
    r.points[d] = n ∧ r.pointNext[d] = none ∧ r.doms = p.doms ∧
      ∀ i : Fin 4, i.val < d.val → r.points[i] = p.points[i] ∧ r.pointNext[i] = p.pointNext[i] := by
  have hkept : r.doms = p.doms ∧ ∀ i : Fin 4, i.val ≤ d.val → r.points[i] = (p.raised d n).points[i] ∧ r.pointNext[i] = (p.raised d n).pointNext[i] := by
    rcases hr with rfl | ⟨b, rfl⟩
    · exact ⟨rfl, fun _ _ => ⟨rfl, rfl⟩⟩
    · obtain ⟨h1, h2⟩ := Power.changePoints_kept ((List.range 4).drop (d.val + 1)) b (p.raised d n)
      refine ⟨h1, fun i hi => h2 i fun hm => ?_⟩
      have hmem : ∀ (d i : Fin 4), i.val ≤ d.val → i.val ∉ (List.range 4).drop (d.val + 1) := by decide
      exact hmem d i hi hm
  obtain ⟨hdoms, hpts⟩ := hkept
  refine ⟨(hpts d le_rfl).1.trans ?_, (hpts d le_rfl).2.trans ?_, hdoms, fun i hi => ⟨(hpts i hi.le).1.trans ?_, (hpts i hi.le).2.trans ?_⟩⟩
  · simp [Power.raised]
  · simp [Power.raised]
  · simp [Power.raised, Nat.ne_of_gt hi]
  · simp [Power.raised, Nat.ne_of_gt hi]

/-! ### Wakes -/

/-- A wake of bit i while SEQ is not ON and no entry runs (R159, R160). -/
theorem State.latchWake_asleep (i : Nat) (h7 : s.domOn 7 = false) (he : s.power.entry = none) : s.latchWake i =
    { s with power := { s.power with latches := s.power.latches ||| BitVec.ofNat 8 (2 ^ i), firstLatch := some (s.power.firstLatch.getD s.clock.tb) } } := by
  unfold State.latchWake
  rw [h7, he]
  dsimp only
  rw [Bool.or_false]
  rfl

theorem State.countPort_power (s : State) (port : Port) (i : Nat) :
    (s.countPort port i).power = s.power ∧ (s.countPort port i).domOn = s.domOn := by cases port <;> exact ⟨rfl, rfl⟩

theorem State.countPort_clock (s : State) (port : Port) (i : Nat) : (s.countPort port i).clock = s.clock := by cases port <;> rfl

/-- One more on a port's counter (R509). -/
theorem State.countPort_counter (s : State) (port : Port) {i : Nat} (hi : 0 < i) : ((s.countPort port i).port port).counters.toList[i - 1]? =
    ((s.port port).counters.toList[i - 1]?).map (fun c => min 65535 (c + 1)) := by
  have hline : (s.countPort port i).port port = (s.port port).count i := by cases port <;> rfl
  rw [hline]
  show ((s.port port).counters.mapIdx _).toList[i - 1]? = _
  rw [Vector.toList_mapIdx, List.getElem?_mapIdx]
  cases (s.port port).counters.toList[i - 1]? with
  | none => rfl
  | some c => exact congrArg some ((if_pos (Nat.sub_add_cancel hi)).trans sat16_eq)

/-- The I²C target address in figures (R59). -/
theorem Straps.eq_i2cAddress (y : Straps) (addr : BitVec 7) :
    addr = Straps.i2cAddress y ↔ addr.toNat = 0x4c + (if y.adr0High then 1 else 0) + (if y.adr1High then 2 else 0) := by
  have hval : (Straps.i2cAddress y).toNat = 0x4c + (if y.adr0High then 1 else 0) + (if y.adr1High then 2 else 0) := by
    unfold Straps.i2cAddress
    cases y.adr0High <;> cases y.adr1High <;> rfl
  rw [← hval]
  exact BitVec.toNat_inj.symm

theorem shedding_waits : ∀ s : State, s.power.shedding = true → exec .replyCarriedTimeout s = .next s ∧ exec .wakeEvent s = .next s := by
  refine fun s h => ⟨?_, ?_⟩
  · show Host.Outcome.next _ = _
    rw [h]
    rfl
  · exact congrArg Host.Outcome.next (if_neg fun h' => by rw [h'.2.1] at h; cases h)

theorem replyCarried_marks : ∀ s : State, s.power.shedding = false → s.carries.all (fun c => c.why ≠ .sysReset) = true → exec .replyCarriedTimeout s = .next { s with
      carries := s.carries.map (fun c => { c with carried := c.carried || (s.pol owner).journal.any (fun r => r.esn == c.esn && r.path == Path.host) }) } := by
  intro s h hc
  have hmap : s.carries.map s.hostCarried =
      s.carries.map (fun c => { c with carried := c.carried || (s.pol owner).journal.any (fun r => r.esn == c.esn && r.path == Path.host) }) :=
    List.map_congr_left fun c _ => State.hostCarried_eq s c
  rw [execReplyCarriedTimeout_eq h, State.sysResetDue_none, hmap]
  show (s.carries.map s.hostCarried).all _ = true
  rw [List.all_map]
  refine (List.all_congr rfl fun c => ?_).trans hc
  rw [Function.comp_apply, State.hostCarried_why]

theorem replyCarried_resets : ∀ (s : State) (c : Carry), s.carries = [c] → c.why = .sysReset → s.arr.writes = [] → s.power.shedding = false → (s.pol owner).journal.any (fun r => r.esn == c.esn && r.path == Path.host) = true →
    ∃ t, exec .replyCarriedTimeout s = .next t ∧ t.restartCause = 3 ∧ t.power.seqRunning = false ∧ t.clock.tb = Tb.zero ∧ t.carries = [] := by
  intro s c hc hw ha hs hj
  have hcarries : s.carries.map s.hostCarried = [{ c with carried := true }] := by
    rw [hc, List.map_cons, List.map_nil, State.hostCarried_eq, hj, Bool.or_true]
  have hdue : State.carried { s with carries := s.carries.map s.hostCarried } .sysReset = true := by
    show (s.carries.map s.hostCarried).any _ = true
    rw [hcarries, List.any_cons, hw]
    rfl
  rw [execReplyCarriedTimeout_eq hs, State.sysResetDue_carried hdue ha hs]
  exact ⟨_, rfl, rfl, rfl, rfl, rfl⟩

theorem opPoint_reached : ∀ (s : State) (d : Fin 4) (p : Fin 3), s.power.pointNext[d] = some p → ∃ t, exec (.opPointVoltageReady d) s = .next t ∧
    t.power.points[d] = p ∧ t.power.pointNext[d] = none ∧ t.power.doms = s.power.doms ∧
    (∀ i : Fin 4, i.val < d.val → t.power.points[i] = s.power.points[i] ∧ t.power.pointNext[i] = s.power.pointNext[i]) ∧
    ((s.pol owner).serving = none → t.power = { s.power with points := s.power.points.set d p, pointNext := s.power.pointNext.set d none } ∧ t.pols = s.pols) := by
  intro s d p hp
  obtain ⟨t, hexec, hr, hnone⟩ := execOpPointVoltageReady_spec hp
  obtain ⟨h1, h2, h3, h4⟩ := Power.raised_changed hr
  exact ⟨t, hexec, h1, h2, h3, h4, hnone⟩

theorem wakeEvent_returns : ∀ s : State, s.power.latches ≠ 0 → s.power.shedding = false → s.power.entry = none → s.power.ret = none → s.domOn 7 = false →
    s.power.wakeSet.toNat.testBit 7 = true →
    ∃ m : BitVec 12, exec .wakeEvent s = .next { s with power := { s.power with ret := some { doms := m, step := .v, cause := .wake, relock := 0 } } } ∧
      (∀ n, 1 ≤ n → n ≤ 12 → m.toNat.testBit (n - 1) = (s.power.wakeSet.toNat.testBit n && !s.domOn n)) := by
  intro s h1 h2 h3 h4 h5 h6
  have hcond : s.power.latches ≠ 0 ∧ s.power.shedding = false ∧ s.power.entry.isNone ∧ s.power.ret.isNone ∧
      (s.power.lateWake || !s.domOn 7) = true := ⟨h1, h2, by rw [h3]; rfl, by rw [h4]; rfl, by rw [h5, Bool.not_false, Bool.or_true]⟩
  have hbits := fun {n : Nat} => testBit_domMap (n := n) (fun n => s.power.wakeSet.toNat.testBit n && !s.domOn n)
  refine ⟨_, (congrArg Host.Outcome.next (if_pos hcond)).trans ?_, fun n hn h12 => hbits hn h12⟩
  refine congrArg Host.Outcome.next (if_neg fun h0 => ?_)
  have h7 := hbits (n := 7) (by decide) (by decide)
  rw [h0, h5, h6] at h7
  exact absurd h7 (by decide)

theorem wakeMatch_latches : ∀ (s : State) (port : Port) (target : BitVec 12),
    let i := if port = .a then 0 else 1
    s.domOn (9 + i) = false → wakeNames s.fab.addr target = true → s.power.lineGood = true → s.domOn 7 = false → s.power.entry = none →
    ∃ t, exec (.wakeMatch port target) s = .next t ∧ (t.port port).counters.toList[14]? = ((s.port port).counters.toList[14]?).map (fun c => min 65535 (c + 1)) ∧
      t.power = (if s.power.wakeEn.toNat.testBit i then
        { s.power with latches := s.power.latches ||| BitVec.ofNat 8 (2 ^ i), firstLatch := some (s.power.firstLatch.getD s.clock.tb) } else s.power) := by
  intro s port target i hdom hname hgood h7 he
  obtain ⟨hpower, hdoms⟩ := State.countPort_power s port 15
  have hexec : exec (.wakeMatch port target) s =
      .next (if s.power.wakeEn.toNat.testBit i then (s.countPort port 15).latchWake i else s.countPort port 15) := by
    have hcond : ¬ (s.domOn (9 + i) || !wakeNames s.fab.addr target || !s.power.lineGood) = true := by
      rw [hdom, hname, hgood]
      decide
    show Host.Outcome.next (if (s.domOn (9 + i) || !wakeNames s.fab.addr target || !s.power.lineGood) = true then s else _) = _
    rw [if_neg hcond]
    dsimp only
    rw [hpower]
  have hcount := State.countPort_counter s port (i := 15) (by decide)
  rw [hexec]
  split
  · rw [State.latchWake_asleep i (by rw [hdoms]; exact h7) (by rw [hpower]; exact he), hpower, State.countPort_clock]
    exact ⟨_, rfl, hcount, rfl⟩
  · exact ⟨_, rfl, hcount, hpower⟩

theorem i2cMatch_latches : ∀ (s : State) (addr : BitVec 7), s.domOn 7 = false → s.power.entry = none →
    exec (.i2cAddrMatch addr) s = .next (if s.domOn 12 = false ∧ s.jtag.ir ≠ .extest ∧ s.power.wakeEn.toNat.testBit 2 = true ∧
        s.hostPol = owner ∧ addr.toNat = 0x4c + (if s.lands.straps.adr0High then 1 else 0) + (if s.lands.straps.adr1High then 2 else 0) then
      { s with power := { s.power with latches := s.power.latches ||| 4, firstLatch := some (s.power.firstLatch.getD s.clock.tb) } } else s) := by
  intro s addr h7 he
  have hcond : (!s.domOn 12 && s.jtag.ir != .extest && addr == Straps.i2cAddress s.lands.straps && s.power.wakeEn.toNat.testBit 2 &&
      s.hostPol == owner) = true ↔ (s.domOn 12 = false ∧ s.jtag.ir ≠ .extest ∧ s.power.wakeEn.toNat.testBit 2 = true ∧ s.hostPol = owner ∧
        addr.toNat = 0x4c + (if s.lands.straps.adr0High then 1 else 0) + (if s.lands.straps.adr1High then 2 else 0)) := by
    rw [← Straps.eq_i2cAddress]
    simp only [Bool.and_eq_true, Bool.not_eq_eq_eq_not, Bool.not_true, bne_iff_ne, beq_iff_eq]
    tauto
  exact congrArg Host.Outcome.next (if_congr hcond (State.latchWake_asleep 2 h7 he) rfl)

theorem wakeN_latches : ∀ s : State, s.domOn 7 = false → s.power.entry = none →
    exec .wakeNFall s = .next (if s.landsFree = true ∧ s.power.wakeEn.toNat.testBit 3 = true ∧ s.hostPol = owner then
      { s with power := { s.power with latches := s.power.latches ||| 8, firstLatch := some (s.power.firstLatch.getD s.clock.tb) } } else s) := by
  intro s h7 he
  have hcond : (s.power.wakeEn.toNat.testBit 3 && s.landsFree && s.hostPol == owner) = true ↔
      (s.landsFree = true ∧ s.power.wakeEn.toNat.testBit 3 = true ∧ s.hostPol = owner) := by
    simp only [Bool.and_eq_true, beq_iff_eq]
    tauto
  exact congrArg Host.Outcome.next (if_congr hcond (State.latchWake_asleep 3 h7 he) rfl)

/-- Settles O48: each source latches its own bit alone, a raised point leaves those before it, and the reset takes its carried reply's place. -/
theorem wakeAndPointEvents : Obligations.WakeAndPointEvents :=
  ⟨shedding_waits, replyCarried_marks, replyCarried_resets, opPoint_reached, wakeEvent_returns, wakeMatch_latches, i2cMatch_latches, wakeN_latches⟩

end Sys2Proof.Machine
end

section
/-! PROOFS. The abort points of an entry and the steps of a return (O47). -/

namespace Sys2Proof.Machine

variable {s t : State} {e : Entry} {r : Returning} {k n m : Nat} {d : DomState}

/-! ### Domains -/

/-- One domain's state is set, no other's (R134). -/
theorem Power.domAt_setDom (p : Power) (d : DomState) (n : Nat) (hm : 1 ≤ m) (h12 : m ≤ 12) :
    domAt (p.setDom n d).doms m = if m = n then d else domAt p.doms m := by
  unfold domAt Power.setDom
  dsimp only
  rw [Vector.toList_mapIdx, List.getD_eq_getElem?_getD, List.getD_eq_getElem?_getD, List.getElem?_mapIdx]
  have hlt : m - 1 < p.doms.toList.length := by rw [Vector.length_toList]; omega
  rw [List.getElem?_eq_getElem hlt]
  have hiff : m - 1 + 1 = n ↔ m = n := by omega
  exact if_congr hiff rfl rfl

/-- The command held under a rule is ready with its answer (R352). -/
theorem State.readyHeld_serving {p : PolId} {rule : HoldRule} {a : Answer} {v : Serving} (hv : (s.pol p).serving = some v) (hr : v.rule = rule) :
    ((s.readyHeld p rule a).pol p).serving = some { v with answer := some a, ready := true } := by
  unfold State.readyHeld
  rw [State.pol_modPol, if_pos rfl]
  show Option.map _ (s.pol p).serving = _
  rw [hv]
  exact congrArg some (if_pos hr)

/-! ### Abandoned entries -/

theorem State.startReturn_domains {doms : BitVec 12} (cause : RetCause) (h : doms ≠ 0) :
    s.startReturn doms cause = { s with power := s.power.beginReturn doms cause } := if_neg h

/-- An entry abandoned for a latched wake (R161, R426). -/
theorem State.abandonEntry_wake (step : Nat) (h : e.lowered ≠ 0) : s.abandonEntry e step none =
    { ({ s with power := { s.power with entry := none } } : State).readyHeld owner .powerChange
        (pwrAnswer .aborted (s.power.withOn e.lowered) 0 0 s.power.latches.toNat) with
      power := { s.power with entry := none, ret := some { doms := e.lowered, step := .v, cause := .abandoned e.oldWakeSet e.oldWakeEn, relock := 0 } } } := by
  unfold State.abandonEntry
  dsimp only
  rw [State.startReturn_domains _ h]
  rfl

/-- An entry abandoned for a refusal, which is counted and logged (R151 to R153, R426). -/
theorem State.abandonEntry_refusal (step n reason : Nat) (h : e.lowered ≠ 0) : s.abandonEntry e step (some (n, reason)) =
    { ({ s.logRefusal n reason step e.esn with power := { (s.logRefusal n reason step e.esn).power with entry := none } } : State).readyHeld owner .powerChange
        (pwrAnswer .refused (s.power.withOn e.lowered) n reason 0) with
      power := { (s.logRefusal n reason step e.esn).power with
        entry := none, ret := some { doms := e.lowered, step := .v, cause := .abandoned e.oldWakeSet e.oldWakeEn, relock := 0 } } } := by
  unfold State.abandonEntry
  dsimp only
  rw [State.startReturn_domains _ h]
  rfl

theorem stepDomain_pos (k : Nat) : 1 ≤ stepDomain k ∧ stepDomain k ≤ 12 := by
  unfold stepDomain
  split <;> decide

/-- A refusal is one more of its domain (R152). -/
theorem State.logRefusal_count (k reason step esn : Nat) : (s.logRefusal (stepDomain k) reason step esn).power.refusals.toList[stepDomain k - 1]? =
    (s.power.refusals.toList[stepDomain k - 1]?).map (fun c => min 65535 (c + 1)) := by
  show (s.power.refusals.mapIdx _).toList[stepDomain k - 1]? = _
  rw [Vector.toList_mapIdx, List.getElem?_mapIdx]
  cases s.power.refusals.toList[stepDomain k - 1]? with
  | none => rfl
  | some c => exact congrArg some ((if_pos (Nat.sub_add_cancel (stepDomain_pos k).1)).trans sat16_eq)

theorem execPowerEntryStep_abort (h : s.power.entry = some e) (hs : s.entryStops = false) (h8 : e.step ≤ 8) :
    exec .powerEntryStep s = .next (s.abortPoint e) := by
  show Host.Outcome.next _ = _
  rw [h]
  dsimp only
  rw [hs, if_neg Bool.false_ne_true, if_pos h8]

theorem State.abortPoint_wake (h : s.power.latches ≠ 0) : s.abortPoint e = s.abandonEntry e e.step none := if_pos h

theorem State.abortPoint_refusal {reason : Nat} (h : s.power.latches = 0) (hk : (s.stepsLeft e e.step).find? (· ≤ 7) = some k)
    (hr : s.refusalOf (stepDomain k) = some reason) : s.abortPoint e = s.abandonEntry e k (some (stepDomain k, reason)) := by
  unfold State.abortPoint
  rw [if_neg (fun hn => hn h), hk]
  dsimp only
  rw [hr]

theorem State.abortPoint_lowers (h : s.power.latches = 0) (hk : (s.stepsLeft e e.step).find? (· ≤ 7) = some k)
    (hr : s.refusalOf (stepDomain k) = none) (hc : s.stepCanAct k = true) : s.abortPoint e = s.lowerStep e k := by
  unfold State.abortPoint
  rw [if_neg (fun hn => hn h), hk]
  dsimp only
  rw [hr]
  exact if_pos hc

/-! ### Lowered domains -/

/-- A lowered domain: of power its state alone changes (R135). -/
theorem State.lowerDomain_power (n : Nat) (d : DomState) : (s.lowerDomain n d).power = s.power.setDom n d := by
  unfold State.lowerDomain
  dsimp only
  split <;> cases d <;> rfl

theorem State.lowerStep_eq (e : Entry) (h : k ≤ 7) : s.lowerStep e k =
    let u := s.lowerDomain (stepDomain k) (domAt e.target (stepDomain k))
    { u with power := { u.power with entry := some { e with step := k + 1,
                                                            lowered := if s.domOn (stepDomain k) then e.lowered ||| domMap [stepDomain k] else e.lowered } },
             clock := { u.clock with pllOn := u.clock.pllOn && !u.power.quiet } } :=
  if_neg fun hc => absurd hc.1 (by omega)

/-! ### Returning domains -/

/-- A domain that reports RDY_L is ON, and of power nothing else changes; HOST tells the host (R154, R638). -/
theorem State.domainReady_kept (s : State) (n : Nat) : (s.domainReady n).power = s.power.setDom n .on ∧
    (n = 12 → (s.domainReady n).host.wakeDone = true) ∧ (s.host.wakeDone = true → (s.domainReady n).host.wakeDone = true) := by
  unfold State.domainReady
  dsimp only
  split
  · next h => exact ⟨rfl, fun h' => absurd h.1 (by omega), id⟩
  · split
    · next h => exact ⟨rfl, fun h' => absurd h.1 (by omega), id⟩
    · split
      · exact ⟨rfl, fun h' => by omega, id⟩
      · split
        · exact ⟨rfl, fun _ => rfl, fun _ => rfl⟩
        · next h => exact ⟨rfl, fun h' => absurd h' h, id⟩

/-- Every domain of a list is ON after its return, the others stay. -/
theorem State.foldl_domainReady (l : List Nat) (s : State) : let u := l.foldl State.domainReady s
    u.power = { s.power with doms := u.power.doms } ∧
    (∀ n, 1 ≤ n → n ≤ 12 → domAt u.power.doms n = if n ∈ l then .on else domAt s.power.doms n) ∧
    (12 ∈ l ∨ s.host.wakeDone = true → u.host.wakeDone = true) := by
  induction l generalizing s with
  | nil => exact ⟨rfl, fun _ _ _ => rfl, fun h => h.resolve_left List.not_mem_nil⟩
  | cons x l ih =>
    obtain ⟨hp, h12, hw⟩ := s.domainReady_kept x
    obtain ⟨k1, k2, k3⟩ := ih (s.domainReady x)
    refine ⟨k1.trans (by rw [hp]; rfl), fun n h1 hn => (k2 n h1 hn).trans ?_, fun h => k3 ?_⟩
    · rw [hp, Power.domAt_setDom _ _ _ h1 hn]
      by_cases hx : n = x
      · rw [if_pos hx, ite_self, if_pos (by rw [hx]; exact List.mem_cons_self)]
      · rw [if_neg hx]
        exact if_congr ⟨fun h => List.mem_cons_of_mem _ h, fun h => (List.mem_cons.mp h).resolve_left hx⟩ rfl rfl
    · rcases h with h | h
      · rcases List.mem_cons.mp h with rfl | h
        · exact .inr (h12 rfl)
        · exact .inl h
      · exact .inr (hw h)

theorem mem_domsOf {doms : BitVec 12} : n ∈ domsOf doms ↔ (1 ≤ n ∧ n ≤ 12) ∧ doms.toNat.testBit (n - 1) = true := by
  rw [domsOf, List.mem_filter, List.mem_range'_1]
  have : (1 ≤ n ∧ n < 1 + 12) ↔ (1 ≤ n ∧ n ≤ 12) := by omega
  rw [this]

/-- What a complete return settles: its domains, and what follows of its cause (R143, R160, R161). -/
structure Returned (s t : State) (doms : BitVec 12) (cause : RetCause) : Prop where
  ret : t.power.ret = none
  on : ∀ n, 1 ≤ n → n ≤ 12 → domAt t.power.doms n = if doms.toNat.testBit (n - 1) then .on else domAt s.power.doms n
  wake : cause = .wake → t.power.latches = 0 ∧ t.power.firstLatch = none
  abandoned : ∀ ws we, cause = .abandoned ws we → t.power.wakeSet = ws ∧ t.power.wakeEn = we ∧ t.power.latches = 0
  wakeDone : doms.toNat.testBit 11 = true → t.host.wakeDone = true

/-- The state in which the domains of a return are ON and the wheel may have started (R35, R154). -/
def State.returned (doms : BitVec 12) (s : State) : State :=
  let s := (domsOf doms).foldl State.domainReady { s with power := { s.power with ret := none } }
  if s.sensorsOn then s.startWheel else s

theorem State.returned_kept (doms : BitVec 12) (s : State) : (s.returned doms).power.ret = none ∧
    (∀ n, 1 ≤ n → n ≤ 12 → domAt (s.returned doms).power.doms n = if doms.toNat.testBit (n - 1) then .on else domAt s.power.doms n) ∧
    (doms.toNat.testBit 11 = true → (s.returned doms).host.wakeDone = true) := by
  obtain ⟨h1, h2, h3⟩ := State.foldl_domainReady (domsOf doms) { s with power := { s.power with ret := none } }
  have hkept : ∀ u : State, (if u.sensorsOn then u.startWheel else u).power = u.power ∧ (if u.sensorsOn then u.startWheel else u).host = u.host := fun u => by
    split
    · exact ⟨(State.startWheel_only u).power.resolve_left Bool.false_ne_true, (State.startWheel_only u).host.resolve_left Bool.false_ne_true⟩
    · exact ⟨rfl, rfl⟩
  unfold State.returned
  dsimp only
  rw [(hkept _).1, (hkept _).2]
  refine ⟨by rw [h1], fun n hn h12 => (h2 n hn h12).trans (if_congr ?_ rfl rfl), fun h => h3 (.inl (mem_domsOf.mpr ⟨by decide, h⟩))⟩
  exact mem_domsOf.trans ⟨fun h => h.2, fun h => ⟨⟨hn, h12⟩, h⟩⟩

theorem State.trigger_power (p : PolId) (src : TrigSrc) : (s.trigger p src).power = s.power :=
  (State.trigger_only p src s).power.resolve_left Bool.false_ne_true

theorem State.replayTriggers_power : s.replayTriggers.power = { s.power with replay := [] } := by
  have h : ∀ (l : List (PolId × TrigSrc)) (u : State), (l.foldl (fun s x => s.trigger x.1 x.2) u).power = u.power := by
    intro l
    induction l with
    | nil => exact fun _ => rfl
    | cons x l ih => exact fun u => (ih _).trans (State.trigger_power ..)
  exact h _ _

theorem State.finishReturn_returned (doms : BitVec 12) (cause : RetCause) (s : State) : Returned s (s.finishReturn doms cause) doms cause := by
  obtain ⟨h1, h2, h3⟩ := State.returned_kept doms s
  cases cause with
  | raise =>
    have heq : s.finishReturn doms .raise = match (s.returned doms).power.pendingEntry with
      | some e => ({ s.returned doms with power := { (s.returned doms).power with pendingEntry := none, entryRef := (s.returned doms).clock.elapsed } } : State).beginEntry e
      | none => (s.returned doms).releasePower := rfl
    rw [heq]
    split
    · exact ⟨h1, h2, fun h => (nomatch h), fun _ _ h => (nomatch h), h3⟩
    · exact ⟨h1, h2, fun h => (nomatch h), fun _ _ h => (nomatch h), h3⟩
  | abandoned ws we =>
    have heq : s.finishReturn doms (.abandoned ws we) = (({ s.returned doms with power := { (s.returned doms).power with
        wakeSet := ws, wakeEn := we, latches := 0, firstLatch := none, lateWake := false } } : State).replayTriggers).releasePower := rfl
    have hpower : (s.finishReturn doms (.abandoned ws we)).power = { (s.returned doms).power with
        wakeSet := ws, wakeEn := we, latches := 0, firstLatch := none, lateWake := false, replay := [] } := by
      rw [heq]
      exact State.replayTriggers_power
    have hhost : (s.finishReturn doms (.abandoned ws we)).host = (s.returned doms).host := by
      rw [heq]
      exact (State.replayTriggers_only _).host.resolve_left Bool.false_ne_true
    exact ⟨by rw [hpower, h1], by rw [hpower]; exact h2, fun h => (nomatch h), fun a b h => by cases h; rw [hpower]; exact ⟨rfl, rfl, rfl⟩, by rw [hhost]; exact h3⟩
  | wake =>
    have heq : ∃ l, s.finishReturn doms .wake = { (s.returned doms).ownerEvent 0x0005 l with power :=
        { ((s.returned doms).ownerEvent 0x0005 l).power with latches := 0, firstLatch := none, lateWake := false } } := ⟨_, rfl⟩
    obtain ⟨l, heq⟩ := heq
    have ho := State.ownerEvent_only 0x0005 l (s.returned doms)
    have hpower := ho.power.resolve_left Bool.false_ne_true
    have hhost := ho.host.resolve_left Bool.false_ne_true
    rw [heq]
    exact ⟨by rw [hpower]; exact h1, by rw [hpower]; exact h2, fun _ => ⟨rfl, rfl⟩, fun _ _ h => (nomatch h), fun h => by rw [hhost]; exact h3 h⟩

theorem entryStep_wakes : ∀ (s : State) (e : Entry), s.power.entry = some e → s.entryStops = false → e.step ≤ 8 → s.power.latches ≠ 0 → e.lowered ≠ 0 →
    ∃ t, exec .powerEntryStep s = .next t ∧ t.power.entry = none ∧ t.power.doms = s.power.doms ∧
      t.power.ret = some { doms := e.lowered, step := .v, cause := .abandoned e.oldWakeSet e.oldWakeEn, relock := 0 } ∧
      t.power.refusals = s.power.refusals ∧ t.power.refusalLog = s.power.refusalLog ∧
      (∀ v, (s.pol owner).serving = some v → v.rule = .powerChange → ∃ a, (t.pol owner).serving = some { v with answer := some a, ready := true } ∧
        a.status = .aborted) := by
  intro s e h hs h8 hl hd
  refine ⟨_, (execPowerEntryStep_abort h hs h8).trans (congrArg Host.Outcome.next ((State.abortPoint_wake hl).trans (State.abandonEntry_wake _ hd))), rfl, rfl, rfl, rfl, rfl, fun v hv hr => ?_⟩
  exact ⟨_, State.readyHeld_serving (s := { s with power := { s.power with entry := none } }) hv hr, rfl⟩

theorem entryStep_refuses : ∀ (s : State) (e : Entry) (k reason : Nat), s.power.entry = some e → s.entryStops = false → e.step ≤ 8 → s.power.latches = 0 → e.lowered ≠ 0 →
    (s.stepsLeft e e.step).find? (· ≤ 7) = some k → s.refusalOf (stepDomain k) = some reason →
    ∃ t, exec .powerEntryStep s = .next t ∧ t.power.entry = none ∧ t.power.doms = s.power.doms ∧
      t.power.ret = some { doms := e.lowered, step := .v, cause := .abandoned e.oldWakeSet e.oldWakeEn, relock := 0 } ∧
      t.power.refusals.toList[stepDomain k - 1]? = (s.power.refusals.toList[stepDomain k - 1]?).map (fun c => min 65535 (c + 1)) ∧
      t.power.refusalLog = (({ tb := s.clock.tb, domain := stepDomain k, reason := reason, step := k, cmdSeq := BitVec.ofNat 16 e.esn } : RefusalEntry) ::
        s.power.refusalLog).take 16 ∧
      (∀ v, (s.pol owner).serving = some v → v.rule = .powerChange → ∃ a, (t.pol owner).serving = some { v with answer := some a, ready := true } ∧
        a.status = .refused) := by
  intro s e k reason h hs h8 hl hd hk hr
  refine ⟨_, (execPowerEntryStep_abort h hs h8).trans (congrArg Host.Outcome.next
    ((State.abortPoint_refusal hl hk hr).trans (State.abandonEntry_refusal _ _ _ hd))), rfl, rfl, rfl, ?_, rfl,
    fun v hv hr => ?_⟩
  · exact State.logRefusal_count k reason k e.esn
  · exact ⟨_, State.readyHeld_serving hv hr, rfl⟩

theorem entryStep_lowers : ∀ (s : State) (e : Entry) (k : Nat), s.power.entry = some e → s.entryStops = false → e.step ≤ 8 → s.power.latches = 0 →
    (s.stepsLeft e e.step).find? (· ≤ 7) = some k → s.refusalOf (stepDomain k) = none → s.stepCanAct k = true →
    ∃ t e', exec .powerEntryStep s = .next t ∧ t.power.entry = some e' ∧ e'.step = k + 1 ∧ e'.target = e.target ∧ e'.esn = e.esn ∧
      domAt t.power.doms (stepDomain k) = domAt e.target (stepDomain k) ∧
      (∀ n, 1 ≤ n → n ≤ 12 → n ≠ stepDomain k → domAt t.power.doms n = domAt s.power.doms n) ∧ t.clock.tb = s.clock.tb ∧ t.life = s.life ∧ t.therm = s.therm := by
  intro s e k h hs h8 hl hk hr hc
  have h7 : k ≤ 7 := of_decide_eq_true (List.find?_some (p := fun j => decide (j ≤ 7)) hk)
  have hexec := (execPowerEntryStep_abort h hs h8).trans (congrArg Host.Outcome.next ((State.abortPoint_lowers hl hk hr hc).trans (State.lowerStep_eq e h7)))
  have hpower := s.lowerDomain_power (stepDomain k) (domAt e.target (stepDomain k))
  have honly := State.lowerDomain_only (stepDomain k) (domAt e.target (stepDomain k)) s
  have hdoms := fun {m : Nat} => s.power.domAt_setDom (m := m) (domAt e.target (stepDomain k)) (stepDomain k)
  refine ⟨_, _, hexec, rfl, rfl, rfl, rfl, ?_, fun n h1 h12 hn => ?_, ?_, ?_, ?_⟩
  · show domAt (s.lowerDomain _ _).power.doms _ = _
    rw [hpower, hdoms (stepDomain_pos k).1 (stepDomain_pos k).2, if_pos rfl]
  · show domAt (s.lowerDomain _ _).power.doms _ = _
    rw [hpower, hdoms h1 h12, if_neg hn]
  · show (s.lowerDomain _ _).clock.tb = _
    rw [honly.clock.resolve_left Bool.false_ne_true]
  · exact honly.life.resolve_left Bool.false_ne_true
  · exact honly.therm.resolve_left Bool.false_ne_true

theorem returnStep_v : ∀ (s : State) (r : Returning), s.power.ret = some r → r.step = .v → (bits r.doms.toNat 3 0 = 0 ∨ s.power.sensorPointsWait = false) →
    exec .returnStepReady s = .next { s with power := { s.power with ret := some { r with step := .c } } } := by
  intro s r h hv hp
  have hn : ¬ (bits r.doms.toNat 3 0 ≠ 0 ∧ s.power.sensorPointsWait = true) := fun hn => by
    rcases hp with hp | hp
    · exact hn.1 hp
    · rw [hp] at hn; exact absurd hn.2 Bool.false_ne_true
  show Host.Outcome.next _ = _
  rw [h]
  dsimp only
  rw [hv]
  exact congrArg Host.Outcome.next (if_neg hn)

theorem returnStep_c : ∀ (s : State) (r : Returning), s.power.ret = some r → r.step = .c →
    exec .returnStepReady s = .next { s with power := { s.power with ret := some { r with step := .m } }, clock := { s.clock with pllOn := true } } := by
  intro s r h hc
  show Host.Outcome.next _ = _
  rw [h]
  dsimp only
  rw [hc]

theorem returnStep_m : ∀ (s : State) (r : Returning), s.power.ret = some r → r.step = .m →
    exec .returnStepReady s = .next { s with power := { s.power with ret := some { r with step := .l } } } := by
  intro s r h hm
  show Host.Outcome.next _ = _
  rw [h]
  dsimp only
  rw [hm]

theorem returnStep_l : ∀ (s : State) (r : Returning), s.power.ret = some r → r.step = .l → ∃ t, exec .returnStepReady s = .next t ∧ t.power.ret = none ∧
    (∀ n, 1 ≤ n → n ≤ 12 → domAt t.power.doms n = if r.doms.toNat.testBit (n - 1) then .on else domAt s.power.doms n) ∧
    (r.cause = .wake → t.power.latches = 0 ∧ t.power.firstLatch = none) ∧
    (∀ ws we, r.cause = .abandoned ws we → t.power.wakeSet = ws ∧ t.power.wakeEn = we ∧ t.power.latches = 0) ∧
    (r.doms.toNat.testBit 11 = true → t.host.wakeDone = true) := by
  intro s r h hl
  have hexec : exec .returnStepReady s = .next (s.finishReturn r.doms r.cause) := by
    show Host.Outcome.next _ = _
    rw [h]
    dsimp only
    rw [hl]
  have hr := s.finishReturn_returned r.doms r.cause
  exact ⟨_, hexec, hr.ret, hr.on, hr.wake, hr.abandoned, hr.wakeDone⟩

/-- Settles O47: an abort point abandons, refuses or lowers one domain, and a return that is complete has its domains ON. -/
theorem entryAndReturn : Obligations.EntryAndReturn :=
  ⟨entryStep_wakes, entryStep_refuses, entryStep_lowers, returnStep_v, returnStep_c, returnStep_m, returnStep_l⟩

end Sys2Proof.Machine
end

section
/-! PROOFS. Line power, presence, AON, RESET_N and VIO (O44). -/

namespace Sys2Proof.Machine

variable {s t : State} {n : Nat}

/-! ### Restarts -/

/-- The page in progress is all a restart completes (R557, R558). -/
theorem State.finishPage_eq (s : State) : ∃ a, s.finishPage = { s with arr := a } := by
  unfold State.finishPage
  split
  · split
    · split <;> exact ⟨_, rfl⟩
    · exact ⟨_, rfl⟩
  · exact ⟨_, rfl⟩
  · split <;> exact ⟨_, rfl⟩
  · exact ⟨_, rfl⟩
  · exact ⟨_, rfl⟩

/-- A restart, field by field: what the array keeps, the supply, the straps, the fuses (R57, R648, R672). -/
theorem State.restart_eq (cause : Nat) (s : State) : ∃ a, s.finishPage = { s with arr := a } ∧ s.restart cause =
    { State.reset with
      pending := s.pending, freeCtr := s.drawn.freeCtr, arr := a.kept,
      power := { Power.initial with presentA := s.power.presentA, presentB := s.power.presentB, feedA := s.power.feedA, feedB := s.power.feedB,
                                    lineGood := s.power.lineGood, vauxOn := s.power.vauxOn, vauxFaultSent := s.power.vauxFaultSent,
                                    vioLost := s.power.vioLost, vioWaits := s.power.vioWaits },
      holdup := { s.holdup.start with lastReason := 0 },
      lands := { Lands.initial with straps := s.strapsNow, commissionStays := s.strapsNow.commissionLow },
      life := { s.life with shadow := State.lcDerived { s with arr := a }, cleared := false, pending := none },
      jtag := { Jtag.inReset s.jtag with halted := false, tcm := [] },
      restartCause := cause } := by
  obtain ⟨a, ha⟩ := s.finishPage_eq
  refine ⟨a, ha, ?_⟩
  unfold State.restart
  rw [ha]
  rfl

theorem domAt_replicate_off (n : Nat) : domAt (Vector.replicate 12 .off) n = .off := by
  unfold domAt
  rw [List.getD_eq_getElem?_getD, Vector.toList_replicate, List.getElem?_replicate]
  split <;> rfl

/-- Every domain is off but NVM, which keeps its state for the page in progress (R96). -/
theorem domAt_shed (d : DomState) (h1 : 1 ≤ n) (h12 : n ≤ 12) :
    domAt ((Vector.replicate 12 DomState.off).mapIdx (fun i x => if i = 10 then d else x)) n = if n = 11 then d else .off := by
  unfold domAt
  rw [Vector.toList_mapIdx, List.getD_eq_getElem?_getD, List.getElem?_mapIdx, Vector.toList_replicate, List.getElem?_replicate, if_pos (by omega)]
  have hiff : n - 1 = 10 ↔ n = 11 := by omega
  exact if_congr hiff rfl rfl

/-! ### VIO -/

/-- An event that may wait for the owner moves no time (R72). -/
theorem Issued.patientEvent (code : Nat) (payload : List Byte) : Issued s (s.patientEvent code payload) := by
  unfold State.patientEvent
  split
  · exact Issued.eventAt ..
  · exact { Issued.refl s with }

/-- VIO is gone: what the host and the pixel port had in hand ends, and the owner is told (R45, R72, R646). -/
def State.vioGone (s : State) : State :=
  ((({ s with power := { s.power with vioLost := true, vioWaits := false }, jtag := Jtag.inReset s.jtag } : State).silencePix.endXfer).patientEvent
    0x000C [])

theorem State.setVio_lost (s : State) : s.setVio true = if (s.power.vioLost && !s.power.vioWaits) = true then s else s.vioGone := rfl

theorem State.setVio_back (s : State) : s.setVio false = if (!s.power.vioLost || s.power.vioWaits) = true then s
    else ({ s with power := { s.power with vioWaits := true } } : State).patientEvent 0x000D [] := rfl

/-- What VIO's marks and events leave: the time, the lands, the cause of the restart (R72). -/
structure VioKept (s t : State) : Prop where
  clock : t.clock = { s.clock with tcmp := t.clock.tcmp }
  lands : t.lands = s.lands
  restartCause : t.restartCause = s.restartCause

theorem VioKept.refl (s : State) : VioKept s s := ⟨rfl, rfl, rfl⟩

theorem State.patientEvent_kept (code : Nat) (payload : List Byte) : VioKept s (s.patientEvent code payload) ∧
    (s.patientEvent code payload).power = s.power ∧ (s.patientEvent code payload).wheel = s.wheel :=
  let h := State.patientEvent_only code payload s
  ⟨⟨(Issued.patientEvent ..).clock, h.lands.resolve_left Bool.false_ne_true, h.restartCause.resolve_left Bool.false_ne_true⟩,
   h.power.resolve_left Bool.false_ne_true, h.wheel.resolve_left Bool.false_ne_true⟩

theorem State.vioGone_kept (s : State) : VioKept s s.vioGone ∧ s.vioGone.power = { s.power with vioLost := true, vioWaits := false } := by
  unfold State.vioGone
  generalize hu : State.endXfer _ = u
  have ho := State.endXfer_only
    ({ s with power := { s.power with vioLost := true, vioWaits := false }, jtag := Jtag.inReset s.jtag } : State).silencePix
  rw [hu] at ho
  obtain ⟨⟨h1, h2, h3⟩, h4, -⟩ := State.patientEvent_kept (s := u) 0x000C []
  refine ⟨⟨h1.trans ?_, h2.trans (ho.lands.resolve_left Bool.false_ne_true), h3.trans (ho.restartCause.resolve_left Bool.false_ne_true)⟩,
    h4.trans (ho.power.resolve_left Bool.false_ne_true)⟩
  rw [ho.clock.resolve_left Bool.false_ne_true]
  rfl

/-- VIO as it is found at a start: the marks it leaves, and nothing else the time, the lands or the wheel of a node whose VIO is there (R57, R72). -/
theorem State.setVio_found (vio : Bool) (s : State) : VioKept s (s.setVio (!vio)) ∧
    (s.setVio (!vio)).power = { s.power with vioLost := (s.setVio (!vio)).power.vioLost, vioWaits := (s.setVio (!vio)).power.vioWaits } ∧
    (vio = false → (s.setVio (!vio)).power.vioLost = true ∧ (s.setVio (!vio)).power.vioWaits = false) ∧
    (vio = true → s.power.vioLost = false → (s.setVio (!vio)).power.vioLost = false) ∧
    (vio = true → s.power.vioLost = true → (s.setVio (!vio)).power.vioWaits = true) ∧
    (vio = true → (s.setVio (!vio)).wheel = s.wheel) := by
  cases vio with
  | false =>
    rw [Bool.not_false, State.setVio_lost]
    split
    · next h =>
      simp only [Bool.and_eq_true, Bool.not_eq_eq_eq_not, Bool.not_true] at h
      exact ⟨.refl s, rfl, fun _ => h, fun h' => (nomatch h'), fun h' => (nomatch h'), fun h' => (nomatch h')⟩
    · obtain ⟨hk, hp⟩ := s.vioGone_kept
      refine ⟨hk, by rw [hp], fun _ => by rw [hp]; exact ⟨rfl, rfl⟩, fun h' => (nomatch h'), fun h' => (nomatch h'), fun h' => (nomatch h')⟩
  | true =>
    rw [Bool.not_true, State.setVio_back]
    split
    · next h =>
      refine ⟨.refl s, rfl, fun h' => (nomatch h'), fun _ h' => h', fun _ h' => ?_, fun _ => rfl⟩
      rw [h'] at h
      exact h
    · next h =>
      have hl : s.power.vioLost = true := by
        cases hv : s.power.vioLost
        · rw [hv] at h; exact absurd rfl h
        · rfl
      obtain ⟨⟨h1, h2, h3⟩, h4, h5⟩ := State.patientEvent_kept (s := { s with power := { s.power with vioWaits := true } }) 0x000D []
      refine ⟨⟨h1, h2, h3⟩, by rw [h4], fun h' => (nomatch h'), fun _ h' => ?_, fun _ _ => by rw [h4], fun _ => h5⟩
      rw [hl] at h'
      cases h'

/-! ### Presence -/

/-- The state with a port's voltage (R69, R71, R77). -/
def State.portVoltage (s : State) (port : Port) (mv : Nat) : State :=
  { s with power := match port with
    | .a => { s.power with presentA := decide (18000 ≤ mv), feedA := decide (16000 ≤ mv) }
    | .b => { s.power with presentB := decide (18000 ≤ mv), feedB := decide (16000 ≤ mv) } }

/-- Deciding the port mode changes no presence, and nothing once it is known (R494). -/
theorem State.decidePortMode_kept (s : State) : (s.power.portMode ≠ .unknown → s.decidePortMode = s) ∧
    s.decidePortMode.power = { s.power with portMode := s.decidePortMode.power.portMode } ∧ s.decidePortMode.clock.tb = s.clock.tb := by
  unfold State.decidePortMode
  split
  · exact ⟨fun _ => rfl, rfl, rfl⟩
  · next h =>
    dsimp only
    have hp : ∀ (u : State) (l : List Byte), (u.ownerEvent 0x0048 l).power = u.power := fun u l =>
      (State.ownerEvent_only 0x0048 l u).power.resolve_left Bool.false_ne_true
    have hc : ∀ (u : State) (l : List Byte), (u.ownerEvent 0x0048 l).clock.tb = u.clock.tb := fun u l => by
      rw [(Issued.ownerEvent (s := u) 0x0048 l).clock]
    exact ⟨fun h' => absurd (.inl h') h, by rw [hp], hc _ _⟩

/-- AON is ready: the time base starts from 0 (R100, R112). -/
def State.aonStarted (s : State) : State :=
  { s with power := { s.power with aonReady := true }, clock := { s.clock with tb := Tb.zero, elapsed := 0, running := !s.power.resetLow } }

/-- RESET_N is released: the time base starts from 0 (R112, R648). -/
def State.released (s : State) : State :=
  { s with power := { s.power with resetLow := false }, clock := { s.clock with tb := Tb.zero, elapsed := 0, running := true }, restartCause := 2 }

theorem linePowerGood_starts : ∀ s : State, s.power.lineGood = false → s.power.shedding = false → (s.power.presentA || s.power.presentB) = true →
    ∃ t, exec .linePowerGood s = .next t ∧ t.power.lineGood = true ∧ t.power.vauxOn = true ∧ t.power.aonReady = false ∧ t.power.seqRunning = false ∧
      t.power.accepting = false ∧ t.power.doms = domainsAtReset ∧ t.clock.running = false ∧ t.clock.tb = Tb.zero ∧ t.holdup.low = true ∧
      t.holdup.charger = true ∧ t.restartCause = 1 ∧ t.wheel = Wheel.initial ∧ t.pols = Vector.replicate 8 Polder.none ∧ t.fab = Fabric.initial ∧
      t.therm = Thermal.initial ∧ t.life.uid = s.life.uid ∧ t.life.shadow = t.lcDerived ∧ t.arr.user = s.finishPage.arr.user := by
  intro s hg hs hp
  obtain ⟨a, ha, heq⟩ := State.restart_eq 1 s
  have hexec : exec .linePowerGood s = .next { s.restart 1 with
      power := { (s.restart 1).power with lineGood := true, resetLow := s.power.resetLow, aonReady := false, vauxOn := true,
                                          vauxFaultSent := false, vioLost := false },
      holdup := { (s.restart 1).holdup with firstMeasure := true },
      clock := { (s.restart 1).clock with running := false } } := by
    show Host.Outcome.next _ = _
    rw [hg, hs, hp]
    rfl
  rw [heq] at hexec
  exact ⟨_, hexec, rfl, rfl, rfl, rfl, rfl, rfl, rfl, rfl, rfl, rfl, rfl, rfl, rfl, rfl, rfl, rfl, rfl, by rw [ha]; rfl⟩

theorem linePowerLost_fed : ∀ s : State, s.power.feedA = true ∨ s.power.feedB = true → exec .linePowerLost s = .next s := by
  intro s h
  show Host.Outcome.next (if (!s.power.lineGood || s.power.feedA || s.power.feedB) = true then s else _) = _
  rw [if_pos]
  rcases h with h | h
  · rw [h, Bool.or_true, Bool.true_or]
  · rw [h, Bool.or_true]

theorem linePowerLost_sheds : ∀ s : State, s.power.lineGood = true → s.power.feedA = false → s.power.feedB = false → ∃ t, exec .linePowerLost s = .next t ∧ t.power.lineGood = false ∧ t.power.shedding = true ∧
    t.power.vauxOn = false ∧ t.power.seqRunning = false ∧ t.wheel.turning = false ∧ t.wheel.slot = none ∧ t.lands.strobe = false ∧
    (∀ n, 1 ≤ n → n ≤ 12 → domAt t.power.doms n = if n = 11 then domAt s.power.doms 11 else .off) ∧
    t.arr = { s.arr with jobs := s.activeJob.toList } ∧ t.clock = s.clock ∧ t.holdup = s.holdup := by
  intro s hg ha hb
  have hexec : exec .linePowerLost s = .next { s with
      power := { s.power with lineGood := false, shedding := true, vauxOn := false, seqRunning := false, accepting := false, entry := none,
                              pendingEntry := none, ret := none,
                              doms := (Vector.replicate 12 DomState.off).mapIdx (fun i d => if i = 10 then domAt s.power.doms 11 else d) },
      wheel := { s.wheel with turning := false, slot := none, fork := none, enclave := none, pauses := 0, stopRequested := false },
      lands := { s.lands with strobe := false },
      arr := { s.arr with jobs := s.activeJob.toList } } := by
    show Host.Outcome.next _ = _
    rw [hg, ha, hb]
    rfl
  exact ⟨_, hexec, rfl, rfl, rfl, rfl, rfl, rfl, rfl, fun n h1 h12 => domAt_shed _ h1 h12, rfl, rfl, rfl⟩

theorem powerDownReset_resets : ∀ s : State, s.power.shedding = true → ∃ t, exec .powerDownReset s = .next t ∧ t.power.shedding = false ∧ t.power.lineGood = false ∧
    t.clock.running = false ∧ t.clock.tb = Tb.zero ∧ (∀ n, 1 ≤ n → n ≤ 12 → domAt t.power.doms n = .off) ∧ t.holdup.charger = false ∧
    t.arr.writes = [] ∧ t.arr.jobs = [] ∧ t.arr.updates = [] ∧ t.pols = Vector.replicate 8 Polder.none ∧ t.life.uid = s.life.uid := by
  intro s hs
  obtain ⟨a, ha, heq⟩ := State.restart_eq 1 s
  have hexec : exec .powerDownReset s = .next { s.restart 1 with
      power := { (s.restart 1).power with lineGood := false, shedding := false, resetLow := s.power.resetLow, aonReady := false, vauxOn := false,
                                          vauxFaultSent := false, vioLost := false, doms := Vector.replicate 12 .off },
      clock := { (s.restart 1).clock with running := false, pllOn := false },
      holdup := { (s.restart 1).holdup with charger := false, deadlineOpen := false } } := by
    show Host.Outcome.next _ = _
    rw [hs]
    rfl
  rw [heq] at hexec
  exact ⟨_, hexec, rfl, rfl, rfl, rfl, fun n _ _ => domAt_replicate_off n, rfl, rfl, rfl, rfl, rfl, rfl⟩

theorem portPresence_outside : ∀ (s : State) (port : Port) (mv : Nat), 56000 < mv → exec (.portPresenceChange port mv) s = .fault .outsideRatings :=
  fun s port mv h => if_pos h

theorem portPresence_counts : ∀ (s : State) (port : Port) (mv : Nat), mv ≤ 56000 → ∃ t, exec (.portPresenceChange port mv) s = .next t ∧
    (port = .a → t.power.presentA = decide (18000 ≤ mv) ∧ t.power.presentB = s.power.presentB ∧ t.power.feedA = decide (16000 ≤ mv) ∧
      t.power.feedB = s.power.feedB) ∧
    (port = .b → t.power.presentB = decide (18000 ≤ mv) ∧ t.power.presentA = s.power.presentA ∧ t.power.feedB = decide (16000 ≤ mv) ∧
      t.power.feedA = s.power.feedA) ∧
    (s.power.portMode ≠ .unknown → t = { s with power := t.power } ∧ t.power.portMode = s.power.portMode) ∧ t.clock.tb = s.clock.tb := by
  intro s port mv h
  obtain ⟨hknown, hpower, htb⟩ := (s.portVoltage port mv).decidePortMode_kept
  have hmode : (s.portVoltage port mv).power.portMode = s.power.portMode := by cases port <;> rfl
  have hexec : exec (.portPresenceChange port mv) s = .next (s.portVoltage port mv).decidePortMode := if_neg (Nat.not_lt.mpr h)
  refine ⟨_, hexec, ?_, ?_, fun hm => ?_, htb⟩
  · rintro rfl
    rw [hpower]
    exact ⟨rfl, rfl, rfl, rfl⟩
  · rintro rfl
    rw [hpower]
    exact ⟨rfl, rfl, rfl, rfl⟩
  · rw [hknown (hmode ▸ hm)]
    exact ⟨rfl, hmode⟩

theorem aonReady_clears : ∀ (s : State) (straps : Straps) (vio : Bool), s.power.aonReady = false → s.power.lineGood = true →
    ∃ t, exec (.aonReady straps vio) s = .next t ∧ t.power.aonReady = true ∧ t.clock.tb = Tb.zero ∧ t.clock.elapsed = 0 ∧
      t.clock.running = !s.power.resetLow ∧ (vio = false → t.power.vioLost = true ∧ t.power.vioWaits = false) ∧
      (vio = true → s.power.vioLost = false → t.power.vioLost = false) ∧ (vio = true → s.power.vioLost = true → t.power.vioWaits = true) ∧
      t.lands.straps = (if vio then straps else { commissionLow := false, adr0High := false, adr1High := false }) ∧
      t.lands.commissionStays = t.lands.straps.commissionLow := by
  intro s straps vio ha hg
  have hexec : exec (.aonReady straps vio) s = .next ((s.aonStarted.sampleStraps straps vio).setVio (!vio)) := by
    show Host.Outcome.next _ = _
    rw [ha, hg]
    rfl
  obtain ⟨⟨hclock, hlands, -⟩, hpower, hlost, hfound, hback, -⟩ := State.setVio_found vio (s.aonStarted.sampleStraps straps vio)
  refine ⟨_, hexec, by rw [hpower]; rfl, by rw [hclock]; rfl, by rw [hclock]; rfl, by rw [hclock]; rfl, hlost, hfound, hback, ?_, ?_⟩
  · rw [hlands]; rfl
  · rw [hlands]; rfl

theorem resetNAssert_resets : ∀ s : State, s.power.resetLow = false → s.jtag.ir ≠ .extest → s.power.lineGood = true → s.power.aonReady = true → s.power.vioLost = false →
    ∃ t, exec .resetNAssert s = .next t ∧ t.power.resetLow = true ∧ t.clock.running = false ∧ t.clock.tb = Tb.zero ∧ t.restartCause = 2 ∧
      t.power.presentA = s.power.presentA ∧ t.power.presentB = s.power.presentB ∧ t.power.lineGood = true ∧ t.power.vauxOn = s.power.vauxOn ∧
      t.wheel = Wheel.initial ∧ t.pols = Vector.replicate 8 Polder.none ∧ t.arr.writes = [] ∧ t.arr.jobs = [] ∧ t.life.uid = s.life.uid ∧
      t.lands.straps.adr0High = s.lands.straps.adr0High ∧ t.lands.straps.adr1High = s.lands.straps.adr1High ∧ t.jtag.ir = .idcode ∧
      (s.lands.commissionStays = true → t.lands.straps.commissionLow = true) := by
  intro s hr hx hg ha hv
  obtain ⟨a, harr, heq⟩ := State.restart_eq 2 s
  have hexec : exec .resetNAssert s = .next { s.restart 2 with
      power := { (s.restart 2).power with resetLow := true }, clock := { (s.restart 2).clock with running := false } } := by
    show Host.Outcome.next _ = _
    rw [hr, beq_false_of_ne hx, hg, ha, hv]
    rfl
  rw [heq] at hexec
  have hstraps : s.strapsNow = { s.lands.straps with commissionLow := s.lands.commissionStays || s.draw.testBit 0 } := by
    unfold State.strapsNow
    rw [hv]
    rfl
  refine ⟨_, hexec, rfl, rfl, rfl, rfl, rfl, rfl, hg, rfl, rfl, rfl, rfl, rfl, rfl, ?_, ?_, rfl, fun hc => ?_⟩
  · show s.strapsNow.adr0High = _
    rw [hstraps]
  · show s.strapsNow.adr1High = _
    rw [hstraps]
  · show s.strapsNow.commissionLow = true
    rw [hstraps, hc]
    rfl

theorem resetNAssert_extest : ∀ s : State, s.jtag.ir = .extest → exec .resetNAssert s = .next s := by
  intro s hx
  show Host.Outcome.next (if (s.power.resetLow || s.jtag.ir == .extest || (s.power.aonReady && s.power.vioLost)) = true then s else _) = _
  rw [if_pos]
  rw [hx, beq_self_eq_true, Bool.or_true, Bool.true_or]

theorem resetNAssert_noVio : ∀ s : State, s.power.aonReady = true → s.power.vioLost = true → exec .resetNAssert s = .next s := by
  intro s ha hv
  show Host.Outcome.next (if (s.power.resetLow || s.jtag.ir == .extest || (s.power.aonReady && s.power.vioLost)) = true then s else _) = _
  rw [if_pos]
  rw [ha, hv, Bool.and_self, Bool.or_true]

theorem resetNRelease_starts : ∀ (s : State) (straps : Straps) (vio : Bool), s.power.resetLow = true → s.power.lineGood = true → s.power.aonReady = true →
    ∃ t, exec (.resetNRelease straps vio) s = .next t ∧ t.power.resetLow = false ∧ t.clock.running = true ∧ t.clock.tb = Tb.zero ∧
      t.clock.elapsed = 0 ∧ t.restartCause = 2 ∧ (vio = false → t.power.vioLost = true ∧ t.power.vioWaits = false) ∧
      (vio = true → s.power.vioLost = false → t.power.vioLost = false ∧ t.wheel = s.wheel) ∧
      (vio = true → s.power.vioLost = true → t.power.vioWaits = true ∧ t.wheel = s.wheel) ∧
      t.lands.straps = (if vio then straps else { commissionLow := false, adr0High := false, adr1High := false }) := by
  intro s straps vio hr hg ha
  have hexec : exec (.resetNRelease straps vio) s = .next ((s.released.sampleStraps straps vio).setVio (!vio)) := by
    have h1 : ¬ (!s.power.resetLow) = true := by rw [hr]; decide
    have h2 : ¬ (!s.power.lineGood || !s.power.aonReady) = true := by rw [hg, ha]; decide
    exact congrArg Host.Outcome.next ((if_neg h1).trans (if_neg h2))
  obtain ⟨⟨hclock, hlands, hcause⟩, hpower, hlost, hfound, hback, hwheel⟩ := State.setVio_found vio (s.released.sampleStraps straps vio)
  refine ⟨_, hexec, by rw [hpower]; rfl, by rw [hclock]; rfl, by rw [hclock]; rfl, by rw [hclock]; rfl, hcause, hlost,
    fun hv hl => ⟨hfound hv hl, hwheel hv⟩, fun hv hl => ⟨hback hv hl, hwheel hv⟩, ?_⟩
  rw [hlands]
  rfl

/-- Settles O44: what a restart keeps is the array's committed part, the supply, the straps and the fuses; all else is as after RESET_N. -/
theorem supplyEvents : Obligations.SupplyEvents :=
  ⟨linePowerGood_starts, linePowerLost_fed, linePowerLost_sheds, powerDownReset_resets, portPresence_outside, portPresence_counts, aonReady_clears,
   resetNAssert_resets, resetNAssert_extest, resetNAssert_noVio, resetNRelease_starts⟩

end Sys2Proof.Machine
end

section
/-! PROOFS. The start of the firmware, VAUX and VIO (O45). -/

namespace Sys2Proof.Machine

variable {s t u : State} {p : PolId}

/-! ### Items at a start-up -/

/-- The better of two copy slots of an item (R552). -/
def betterCopy (item : Nat) (best : Option ItemCopy) (c : ItemCopy) : Option ItemCopy :=
  if c.item ≠ item then best else
    match best with
    | some b => if b.gen < c.gen then some c else some b
    | none => some c

/-- The copy found is one of the item's. -/
theorem newestCopy_mem {item : Nat} {l : List ItemCopy} {c : ItemCopy} (h : newestCopy item l = some c) : c ∈ l ∧ c.item = item := by
  have key : ∀ (l : List ItemCopy) (best : Option ItemCopy), l.foldl (betterCopy item) best = some c → best = some c ∨ (c ∈ l ∧ c.item = item) := by
    intro l
    induction l with
    | nil => exact fun _ h => .inl h
    | cons d l ih =>
      intro best h
      rcases ih _ h with hb | ⟨hm, hi⟩
      · unfold betterCopy at hb
        split at hb
        · exact .inl hb
        · next hd =>
          rw [not_not] at hd
          split at hb
          · split at hb
            · cases hb; exact .inr ⟨List.mem_cons_self, hd⟩
            · exact .inl hb
          · cases hb; exact .inr ⟨List.mem_cons_self, hd⟩
      · exact .inr ⟨List.mem_cons_of_mem _ hm, hi⟩
  exact (key l none h).resolve_left fun h => nomatch h

/-- The copy with a GEN above every other's is the one found (R552). -/
theorem newestCopy_of_newest {item : Nat} {l : List ItemCopy} {c : ItemCopy} (hc : c ∈ l) (hi : c.item = item)
    (h : ∀ d ∈ l, d.item = item → d ≠ c → d.gen < c.gen) : newestCopy item l = some c := by
  have hbetter : ∀ d, (d.item = item → d ≠ c → d.gen < c.gen) → betterCopy item (some c) d = some c := fun d hd => by
    unfold betterCopy
    split
    · rfl
    · next hn =>
      by_cases hdc : d = c
      · rw [hdc]; exact if_neg (lt_irrefl _)
      · exact if_neg (Nat.lt_asymm (hd (not_not.mp hn) hdc))
  have hstays : ∀ (l : List ItemCopy), (∀ d ∈ l, d.item = item → d ≠ c → d.gen < c.gen) → l.foldl (betterCopy item) (some c) = some c := by
    intro l
    induction l with
    | nil => exact fun _ => rfl
    | cons d l ih => exact fun h => by rw [List.foldl_cons, hbetter d (h d List.mem_cons_self), ih fun x hx => h x (List.mem_cons_of_mem _ hx)]
  have key : ∀ (l : List ItemCopy) (best : Option ItemCopy), c ∈ l → (∀ b, best = some b → b = c ∨ b.gen < c.gen) →
      (∀ d ∈ l, d.item = item → d ≠ c → d.gen < c.gen) → l.foldl (betterCopy item) best = some c := by
    intro l
    induction l with
    | nil => exact fun _ hm => nomatch hm
    | cons d l ih =>
      intro best hm hb h
      have hrest := fun x hx => h x (List.mem_cons_of_mem d hx)
      rw [List.foldl_cons]
      by_cases hdc : d = c
      · have hfound : betterCopy item best d = some c := by
          subst hdc
          unfold betterCopy
          rw [if_neg (not_not.mpr hi)]
          cases best with
          | none => rfl
          | some b =>
            rcases hb b rfl with rfl | hlt
            · exact if_neg (lt_irrefl _)
            · exact if_pos hlt
        rw [hfound]
        exact hstays l hrest
      · refine ih _ ((List.mem_cons.mp hm).resolve_left (Ne.symm hdc)) (fun b hbest => ?_) hrest
        unfold betterCopy at hbest
        split at hbest
        · exact hb b hbest
        · next hn =>
          have hlt := h d List.mem_cons_self (not_not.mp hn) hdc
          split at hbest
          · next b' =>
            split at hbest
            · cases hbest; exact .inr hlt
            · cases hbest; exact hb _ rfl
          · cases hbest; exact .inr hlt
  exact key l none hc (fun _ h => nomatch h) h

theorem ArrayS.take_wheel {v : ItemValue} {a : ArrayS} (h : v.item ≠ 0x11) : (a.take v).wheel = a.wheel := by
  cases v
  case wheel => exact absurd rfl h
  all_goals rfl

/-- One item loaded (R555). -/
def ArrayS.loadItem (copies : List ItemCopy) (b : ArrayS) (i : Nat) : ArrayS :=
  match newestCopy i copies with
  | some c => b.take c.value
  | none => b

theorem ArrayS.load_eq (a : ArrayS) : a.load = itemIds.foldl (ArrayS.loadItem a.copies) a.defaults := rfl

/-- The wheel item is loaded from no other item's copy. -/
theorem ArrayS.foldl_loadItem_wheel {copies : List ItemCopy} (l : List Nat)
    (h : ∀ i ∈ l, ∀ c, newestCopy i copies = some c → c.value.item ≠ 0x11) (b : ArrayS) : (l.foldl (ArrayS.loadItem copies) b).wheel = b.wheel := by
  induction l generalizing b with
  | nil => rfl
  | cons i l ih =>
    refine (ih (fun j hj => h j (List.mem_cons_of_mem _ hj)) _).trans ?_
    unfold ArrayS.loadItem
    split
    · next c hc => exact ArrayS.take_wheel (h i List.mem_cons_self c hc)
    · rfl

theorem ArrayS.load_wheel_newest {a : ArrayS} {c : ItemCopy} {w : WheelItem} (hc : c ∈ a.copies) (hi : c.item = 0x11) (hv : c.value = .wheel w)
    (hwell : ∀ d ∈ a.copies, d.value.item = d.item) (h : ∀ d ∈ a.copies, d.item = 0x11 → d ≠ c → d.gen < c.gen) : a.load.wheel = w := by
  have hsplit : itemIds = [0x01, 0x02, 0x03, 0x10] ++ 0x11 :: ([0x12, 0x13, 0x20] ++ List.range' 0x30 16) := rfl
  have hlater : ∀ i ∈ [0x12, 0x13, 0x20] ++ List.range' 0x30 16, i ≠ 0x11 := by decide
  have hload : ∀ b : ArrayS, ArrayS.loadItem a.copies b 0x11 = b.take (.wheel w) := fun b => by
    unfold ArrayS.loadItem
    rw [newestCopy_of_newest hc hi h, ← hv]
  rw [ArrayS.load_eq, hsplit, List.foldl_append, List.foldl_cons, ArrayS.foldl_loadItem_wheel _ fun i hi c hc => ?_, hload]
  · rfl
  · obtain ⟨hm, he⟩ := newestCopy_mem hc
    rw [hwell c hm, he]
    exact hlater i hi

theorem ArrayS.load_wheel_none {a : ArrayS} (h : ∀ d ∈ a.copies, d.value.item = d.item ∧ d.item ≠ 0x11) : a.load.wheel = WheelItem.factory := by
  rw [ArrayS.load_eq, ArrayS.foldl_loadItem_wheel]
  · rfl
  · intro i _ c hc
    obtain ⟨hm, -⟩ := newestCopy_mem hc
    rw [(h c hm).1]
    exact (h c hm).2

theorem ArrayS.load_copies (a : ArrayS) : a.load.copies = a.copies := by
  have h : ∀ (l : List Nat) (b : ArrayS), (l.foldl (ArrayS.loadItem a.copies) b).copies = b.copies := by
    intro l
    induction l with
    | nil => exact fun _ => rfl
    | cons i l ih =>
      intro b
      refine (ih _).trans ?_
      unfold ArrayS.loadItem
      split
      · next c _ => cases c.value <;> rfl
      · rfl
  exact h _ _

/-! ### What runs before the image -/

/-- Before the sequencer runs the owner's events wait (R72). -/
theorem State.patientEvent_asleep (code : Nat) (payload : List Byte) (h : s.power.seqRunning = false) : s.patientEvent code payload =
    { s with early := s.early ++ [{ code := code, frame := s.lastFrame, tb := s.clock.tb, payload := payload }] } := by
  unfold State.patientEvent
  rw [h]
  rfl

/-- The start-up test's result (R617, R623). -/
theorem State.startTest_spec (f : StartFindings) (h : s.power.seqRunning = false) : ∃ b e, s.startTest f = { s with bist := b, early := e } ∧
    (s.life.shadow ≠ .scrapped → b.unusable = f.failedBlocks &&& 0x0fff) := by
  unfold State.startTest
  split
  · next hs => exact ⟨_, _, rfl, fun hn => absurd hs hn⟩
  · dsimp only
    split
    · exact ⟨_, _, rfl, fun _ => rfl⟩
    · exact ⟨_, _, State.patientEvent_asleep _ _ h, fun _ => rfl⟩

/-- What the check of the FABRIC item before the start leaves (R605, R607). -/
structure Cleared (s t : State) : Prop where
  frame : t = { s with arr := t.arr, life := t.life }
  arr : t.arr = { s.arr with fabric := t.arr.fabric, copies := t.arr.copies, fabricWaits := t.arr.fabricWaits }
  life : t.life = { s.life with cleared := t.life.cleared }
  others : s.life.shadow ≠ .ret → s.life.shadow ≠ .scrapped → t = s
  fabric : s.life.shadow = .ret → t.arr.fabric = FabricItem.factory
  zeroed : s.life.shadow = .ret → s.holdup.low = false ∨ (∀ d ∈ s.arr.copies, d.item ≠ 0x10) → t.life.cleared = true
  waits : s.life.shadow = .ret → s.holdup.low = true → (∃ d ∈ s.arr.copies, d.item = 0x10) → t.life.cleared = s.life.cleared ∧ t.arr.fabricWaits = true

theorem State.clearFabric_cleared (s : State) : Cleared s s.clearFabric := by
  have hany : (s.arr.copies.any (fun c => c.item == 0x10)) = true ↔ ∃ d ∈ s.arr.copies, d.item = 0x10 := by
    simp only [List.any_eq_true, beq_iff_eq]
  unfold State.clearFabric
  split
  · split
    · next h =>
      rw [Bool.and_eq_true, hany] at h
      obtain ⟨⟨d, hd, hi⟩, hlow⟩ := h
      exact ⟨rfl, rfl, rfl, fun hr hs => by next hrs => exact absurd hrs (not_or.mpr ⟨hr, hs⟩), fun _ => rfl,
        fun _ hz => absurd hz (not_or.mpr ⟨by rw [hlow]; exact Bool.noConfusion, fun hn => hn d hd hi⟩), fun _ _ _ => ⟨rfl, rfl⟩⟩
    · next h =>
      rw [Bool.and_eq_true, hany] at h
      exact ⟨rfl, rfl, rfl, fun hr hs => by next hrs => exact absurd hrs (not_or.mpr ⟨hr, hs⟩), fun _ => rfl, fun _ _ => rfl, fun _ hlow hd => absurd ⟨hd, hlow⟩ h⟩
  · next hrs =>
    rw [not_or] at hrs
    exact ⟨rfl, rfl, rfl, fun _ _ => rfl, fun hr => absurd hr hrs.1, fun hr => absurd hr hrs.1, fun hr => absurd hr hrs.1⟩

/-! ### The image runs -/

/-- Of a polder only its records, its events and the state of its dissolution have changed. -/
def Polder.StartedFrom (q r : Polder) : Prop :=
  r = { q with ersEq := r.ersEq, dlv := r.dlv, events := r.events, lastFrame := r.lastFrame, cnt := r.cnt, gone := r.gone }

theorem Polder.StartedFrom.trans {q r x : Polder} (h : q.StartedFrom r) (k : r.StartedFrom x) : q.StartedFrom x := by
  unfold Polder.StartedFrom at *
  rw [h] at k
  exact k

theorem Polder.IssuedFrom.started {q r : Polder} (h : q.IssuedFrom r) : q.StartedFrom r := by
  unfold Polder.IssuedFrom at h
  unfold Polder.StartedFrom
  rw [h]

/-- What the start of the image leaves: power, the running image, the FABRIC item's wait, and of the polders all but records, events and
dissolutions (R366, R675, R676). -/
structure Started (s t : State) : Prop where
  power : t.power = s.power
  running : t.arr.running = s.arr.running
  fabricWaits : t.arr.fabricWaits = s.arr.fabricWaits
  polder : ∀ p, (s.pol p).StartedFrom (t.pol p)

theorem Started.refl (s : State) : Started s s := ⟨rfl, rfl, rfl, fun _ => rfl⟩

theorem Started.trans (h : Started s t) (k : Started t u) : Started s u :=
  ⟨k.power.trans h.power, k.running.trans h.running, k.fabricWaits.trans h.fabricWaits, fun p => (h.polder p).trans (k.polder p)⟩

theorem Started.issued (h : Issued s t) (hp : t.power = s.power) : Started s t :=
  ⟨hp, by rw [h.arr], by rw [h.arr], fun p => (h.polder p).started⟩

theorem Started.modPol {f : Polder → Polder} (hf : ∀ q : Polder, q.StartedFrom (f q)) : Started s (s.modPol p f) :=
  { Started.refl s with
    polder := fun q => by
      rw [State.pol_modPol]
      split
      · next h => rw [h]; exact hf _
      · exact rfl }

theorem Started.foldl {α : Type} {f : State → α → State} (hf : ∀ u x, Started u (f u x)) (l : List α) (s : State) : Started s (l.foldl f s) := by
  induction l generalizing s with
  | nil => exact .refl s
  | cons x l ih => exact (hf s x).trans (ih _)

theorem Started.requestItem (v : ItemValue) : Started s (s.requestItem p v) := ⟨rfl, rfl, rfl, fun _ => rfl⟩

theorem Started.eventAt (code : Nat) (f : W32) (tb : Tb) (payload : List Byte) : Started s (s.eventAt p code f tb payload) :=
  .issued (Issued.eventAt ..) ((State.eventAt_only ..).power.resolve_left Bool.false_ne_true)

theorem Started.reserveSeq : Started s (s.reserveSeq p) :=
  .issued (Issued.reserveSeq p) ((State.reserveSeq_only ..).power.resolve_left Bool.false_ne_true)

theorem Started.logStart (s : State) : Started s s.logStart :=
  .issued (Issued.logEntry ..) ((State.logStart_only s).power.resolve_left Bool.false_ne_true)

theorem Started.announceRestart (s : State) : Started s s.announceRestart :=
  Started.foldl (fun u p => by
    split
    · exact (Started.reserveSeq.trans (Started.eventAt ..)).trans (Started.eventAt ..)
    · exact .refl u) _ s

theorem Started.issueDissolved : Started s (s.issueDissolved p) := by
  unfold State.issueDissolved
  split
  · refine (Started.issued (Issued.issueRecord ..) ((State.issueRecord_only ..).power.resolve_left Bool.false_ne_true)).trans (Started.modPol ?_)
    exact fun _ => rfl
  · exact .refl s

theorem Started.settleStored (s : State) : Started s s.settleStored :=
  Started.foldl (fun u p => by
    split
    · exact (Started.requestItem _).trans (Started.eventAt ..)
    · refine ((Started.modPol ?_).trans Started.reserveSeq).trans Started.issueDissolved
      exact fun _ => rfl
    · exact .refl u) _ s

theorem Started.drawBackoff (port : Port) : Started s (s.drawBackoff port) := by cases port <;> exact ⟨rfl, rfl, rfl, fun _ => rfl⟩

theorem Started.patientEvent (code : Nat) (payload : List Byte) : Started s (s.patientEvent code payload) :=
  .issued (Issued.patientEvent ..) ((State.patientEvent_only ..).power.resolve_left Bool.false_ne_true)

theorem Started.flushEarly (s : State) : Started s s.flushEarly := by
  unfold State.flushEarly
  split
  · have h : Started s { s with early := [] } := ⟨rfl, rfl, rfl, fun _ => rfl⟩
    exact h.trans (Started.foldl (fun u e => Started.eventAt ..) _ _)
  · exact .refl s

theorem Started.reserveFrames (s : State) : Started s s.reserveFrames := by
  unfold State.reserveFrames
  dsimp only
  split
  · exact Started.requestItem _
  · exact .refl s

/-- The state in which image i has begun to run (R273, R567). -/
def State.imageBegun (i : Fin 2) (s : State) : State :=
  let noPair := s.life.shadow == .manufacture && !s.arr.mfg.hasKeyPair
  { s with power := { s.power with seqRunning := true }, jtag := { s.jtag with tcm := ({ s.arr with running := i } : ArrayS).tcmImage },
           arr := { s.arr with running := i, mfg := { s.arr.mfg with hasKeyPair := s.arr.mfg.hasKeyPair || noPair } } }

theorem State.runImage_started (f : StartFindings) (i : Fin 2) (s : State) : Started (s.imageBegun i) (s.runImage f i) := by
  have hpair : ∀ (b : Bool) (u : State), Started u (if b then u.requestItem owner (.mfg u.arr.mfg) else u) := fun b u => by
    cases b
    · exact .refl u
    · exact .requestItem _
  have hmid : ∀ u : State, Started u (((u.logStart.announceRestart.settleStored).drawBackoff .a).drawBackoff .b) := fun u =>
    ((((Started.logStart u).trans (Started.announceRestart _)).trans (Started.settleStored _)).trans (Started.drawBackoff .a)).trans (Started.drawBackoff .b)
  have htrim : ∀ (b : Bool) (u : State), Started u (if b then u.patientEvent 0x0009 [] else u) := fun b u => by
    cases b
    · exact .refl u
    · exact .patientEvent ..
  have hend : ∀ u : State, Started u u.flushEarly.reserveFrames := fun u => (Started.flushEarly u).trans (Started.reserveFrames _)
  have hother : ∀ (c : Prop) [Decidable c] (u : State) (l : List Byte), Started u (if c then u else u.patientEvent 0x004C l) := fun c _ u l => by
    split
    · exact .refl u
    · exact .patientEvent ..
  let selected := s.arr.bootImage
  exact (((hpair (s.life.shadow == .manufacture && !s.arr.mfg.hasKeyPair) (s.imageBegun i)).trans (hmid _)).trans (htrim s.arr.trimTab.isNone _)).trans
    ((hother (i = selected) _ _).trans (hend _))

/-! ### FIRMWARE_START -/

/-- The state with its items loaded and its lifecycle state taken. -/
def State.itemsRead (s : State) : State := { s with arr := s.arr.load, life := { s.life with shadow := State.lcDerived { s with arr := s.arr.load } } }

/-- The state in which an image may start (R555, R607, R617). -/
def State.startReady (f : StartFindings) (s : State) : State := s.itemsRead.clearFabric.loadItems.startTest f

/-- What the start finds, whether an image runs or not. -/
structure StartReady (f : StartFindings) (s u : State) : Prop where
  power : u.power = s.power
  life : u.life = s.itemsRead.clearFabric.life
  arr : u.arr = s.itemsRead.clearFabric.loadItems.arr
  wheel : u.wheel = s.itemsRead.clearFabric.loadItems.wheel
  fab : u.fab = s.itemsRead.clearFabric.loadItems.fab
  pols : u.pols = s.itemsRead.clearFabric.loadItems.pols
  unusable : s.itemsRead.life.shadow ≠ .scrapped → u.bist.unusable = f.failedBlocks &&& 0x0fff

theorem State.startReady_ready (f : StartFindings) (h : s.power.seqRunning = false) : StartReady f s (s.startReady f) := by
  have hc := s.itemsRead.clearFabric_cleared
  have hp : s.itemsRead.clearFabric.loadItems.power = s.power := by
    show s.itemsRead.clearFabric.power = s.power
    rw [hc.frame]
    rfl
  obtain ⟨b, e, heq, hb⟩ := State.startTest_spec (s := s.itemsRead.clearFabric.loadItems) f (by rw [hp, h])
  have hl : s.itemsRead.clearFabric.loadItems.life.shadow = s.itemsRead.life.shadow := by
    show s.itemsRead.clearFabric.life.shadow = _
    rw [hc.life]
  unfold State.startReady
  rw [heq]
  exact ⟨hp, rfl, rfl, rfl, rfl, rfl, fun hs => hb (by rw [hl]; exact hs)⟩

/-- The image a start runs, if any (R567, R623). -/
def State.bootChoice (f : StartFindings) (u : State) : Option (Fin 2) :=
  if !u.canStart then none
  else if u.imageOk f u.arr.bootImage then some u.arr.bootImage
  else if u.imageOk f (1 - u.arr.bootImage) then some (1 - u.arr.bootImage)
  else none

theorem execFirmwareStart_eq (f : StartFindings) (h1 : s.power.seqRunning = false) (h2 : s.clock.running = true) (h3 : s.power.lineGood = true)
    (h4 : s.power.resetLow = false) :
    exec (.firmwareStart f) s = .next (((s.startReady f).bootChoice f).elim (s.startReady f) ((s.startReady f).runImage f)) := by
  have hcond : ¬ (s.power.seqRunning || !s.clock.running || !s.power.lineGood || s.power.resetLow) = true := by
    rw [h1, h2, h3, h4]
    decide
  refine congrArg Host.Outcome.next ((if_neg hcond).trans ?_)
  show (if (!(s.startReady f).canStart) = true then s.startReady f
    else if (s.startReady f).imageOk f (s.startReady f).arr.bootImage = true then (s.startReady f).runImage f (s.startReady f).arr.bootImage
    else if (s.startReady f).imageOk f (1 - (s.startReady f).arr.bootImage) = true then (s.startReady f).runImage f (1 - (s.startReady f).arr.bootImage)
    else s.startReady f) = _
  generalize s.startReady f = u
  unfold State.bootChoice
  split
  · rfl
  · split
    · rfl
    · split
      · rfl
      · rfl

/-- What a start leaves, whether an image runs or not. -/
theorem State.booted_kept (f : StartFindings) (u : State) (c : Option (Fin 2)) : let t := c.elim u (u.runImage f)
    t.life = u.life ∧ t.bist = u.bist ∧ t.wheel = u.wheel ∧ t.fab = u.fab ∧ t.arr.fabricWaits = u.arr.fabricWaits ∧
      (∀ p, (u.pol p).StartedFrom (t.pol p)) ∧
      (∀ i, c = some i → t.power.seqRunning = true ∧ t.arr.running = i) ∧ (c = none → t = u) := by
  cases c with
  | none => exact ⟨rfl, rfl, rfl, rfl, rfl, fun _ => rfl, fun _ h => (nomatch h), fun _ => rfl⟩
  | some i =>
    have h := u.runImage_started f i
    have ho := u.runImage_only f i
    exact ⟨ho.life.resolve_left Bool.false_ne_true, ho.bist.resolve_left Bool.false_ne_true, ho.wheel.resolve_left Bool.false_ne_true,
      ho.fab.resolve_left Bool.false_ne_true, h.fabricWaits, h.polder, fun j hj => by cases hj; exact ⟨(congrArg Power.seqRunning h.power).trans rfl, h.running⟩,
      fun hn => nomatch hn⟩

/-- An ACTIVE polder resumes with its key, its charter, its reservation and its path (R366). -/
theorem resumed_active (first : W32) (period : Nat) {y : StoredPolder} (v : StoredSeq) (h : y.state = .active) :
    let q := resumed first period (some y) (some v)
    q.state = .active ∧ q.key = y.key ∧ q.nextAdmit = v.cR ∧ q.charter = y.charter ∧ q.path = v.path := by
  unfold resumed
  dsimp only [Option.getD]
  rw [h]
  exact ⟨rfl, rfl, rfl, rfl, rfl⟩

theorem mask_fold (w : W16) : (w &&& 0x0fff) &&& 0x00c1 = w &&& 0x00c1 := by
  rw [BitVec.and_assoc]
  rfl

theorem State.firmwareStart_settled (f : StartFindings) (h1 : s.power.seqRunning = false) :
    let a := s.arr.load
    let l : State := { s with arr := a }
    let u := s.startReady f
    (u.canStart = (l.lcDerived != .scrapped && f.failedBlocks &&& 0x00c1 == 0)) ∧ (∀ i, u.imageOk f i = l.imageOk f i) ∧ u.arr.bootImage = a.bootImage ∧
      u.arr.running = a.running := by
  intro a l u
  have hr := State.startReady_ready f h1
  have hc := s.itemsRead.clearFabric_cleared
  have harr : u.arr = { s.itemsRead.clearFabric.arr with fabric := u.arr.fabric } := by
    rw [hr.arr]
    rfl
  rw [hc.arr] at harr
  have hshadow : u.life.shadow = l.lcDerived := by
    rw [hr.life, hc.life]
    rfl
  refine ⟨?_, fun i => ?_, by rw [harr]; rfl, by rw [harr]; rfl⟩
  · unfold State.canStart
    rw [hshadow]
    by_cases hs : l.lcDerived = .scrapped
    · rw [hs]
      rfl
    · rw [hr.unusable hs, mask_fold]
  · have hregion : u.arr.region i.val = l.arr.region i.val := by
      rw [harr]
      rfl
    unfold State.imageOk
    rw [hregion]

theorem State.bootChoice_spec (f : StartFindings) (h1 : s.power.seqRunning = false) :
    let a := s.arr.load
    let l : State := { s with arr := a }
    (l.lcDerived ≠ .scrapped → f.failedBlocks &&& 0x00c1 = 0 → l.imageOk f a.bootImage = true → (s.startReady f).bootChoice f = some a.bootImage) ∧
    (l.lcDerived ≠ .scrapped → f.failedBlocks &&& 0x00c1 = 0 → l.imageOk f a.bootImage = false → l.imageOk f (1 - a.bootImage) = true →
      (s.startReady f).bootChoice f = some (1 - a.bootImage)) ∧
    (l.lcDerived = .scrapped ∨ f.failedBlocks &&& 0x00c1 ≠ 0 ∨ (l.imageOk f a.bootImage = false ∧ l.imageOk f (1 - a.bootImage) = false) →
      (s.startReady f).bootChoice f = none) := by
  intro a l
  obtain ⟨hstart, himage, hboot, -⟩ := State.firmwareStart_settled f h1
  have hcan : l.lcDerived ≠ .scrapped → f.failedBlocks &&& 0x00c1 = 0 → (s.startReady f).canStart = true := fun hs hf => by
    rw [hstart, bne_iff_ne.mpr hs, hf]
    rfl
  unfold State.bootChoice
  rw [hboot]
  simp only [himage]
  refine ⟨fun hs hf h => ?_, fun hs hf h h' => ?_, fun h => ?_⟩
  · rw [hcan hs hf]
    exact if_pos h
  · rw [hcan hs hf]
    exact (if_neg (Bool.eq_false_iff.mp h)).trans (if_pos h')
  · rcases h with h | h | ⟨h, h'⟩
    · rw [hstart, show State.lcDerived { s with arr := s.arr.load } = .scrapped from h]
      rfl
    · rw [hstart, beq_false_of_ne h, Bool.and_false]
      rfl
    · split
      · rfl
      · exact (if_neg (Bool.eq_false_iff.mp h)).trans (if_neg (Bool.eq_false_iff.mp h'))

/-! ### VIO -/

/-- A transfer that ends is over (R641). -/
theorem State.endXfer_xfer (s : State) : s.endXfer.host.xfer = none := by
  unfold State.endXfer
  split
  · next h => exact h
  · dsimp only
    split <;> rfl

/-- VIO gone: the lands and the test access port are silent, the transfer is over, the slot's pixels are cut (R24, R45, R72, R646). -/
theorem State.vioGone_silent (s : State) : s.vioGone.landsFree = false ∧ s.vioGone.jtag.ir = .idcode ∧ s.vioGone.host.xfer = none ∧
    s.vioGone.wheel = { s.wheel with slot := s.wheel.slot.map (fun x => { x with pixCut := some (x.pixCut.getD x.reads.length) }) } := by
  have hpower := s.vioGone_kept.2
  let v : State := ({ s with power := { s.power with vioLost := true, vioWaits := false }, jtag := Jtag.inReset s.jtag } : State).silencePix
  have hx := State.endXfer_only v
  have hp := State.patientEvent_only 0x000C [] v.endXfer
  refine ⟨?_, ?_, ?_, ?_⟩
  · unfold State.landsFree
    rw [hpower]
    simp
  · exact congrArg Jtag.ir ((hp.jtag.resolve_left Bool.false_ne_true).trans (hx.jtag.resolve_left Bool.false_ne_true))
  · exact (congrArg HostPort.xfer (hp.host.resolve_left Bool.false_ne_true)).trans v.endXfer_xfer
  · exact (hp.wheel.resolve_left Bool.false_ne_true).trans (hx.wheel.resolve_left Bool.false_ne_true)

/-- VAUX has tripped (R86). -/
def State.vauxTripped (s : State) : State := { s with power := { s.power with vauxOn := false, vauxFaultSent := true } }

/-- VAUX holds again (R86). -/
def State.vauxRestored (s : State) : State := { s with power := { s.power with vauxOn := true, vauxFaultSent := false } }

theorem State.vioWatched_of (h1 : s.power.aonReady = true) (h2 : s.power.lineGood = true) (h3 : s.power.resetLow = false) : s.vioWatched = true := by
  unfold State.vioWatched
  rw [h1, h2, h3]
  rfl

theorem firmwareStart_boots : ∀ (s : State) (f : StartFindings), s.power.seqRunning = false → s.clock.running = true → s.power.lineGood = true → s.power.resetLow = false →
    let a := s.arr.load
    let l : State := { s with arr := a }
    ∃ t, exec (.firmwareStart f) s = .next t ∧ t.life.shadow = l.lcDerived ∧
      (l.lcDerived ≠ .scrapped → t.bist.unusable = f.failedBlocks &&& 0x0fff) ∧
      (l.lcDerived ≠ .scrapped → f.failedBlocks &&& 0x00c1 = 0 → l.imageOk f a.bootImage = true →
        t.power.seqRunning = true ∧ t.arr.running = a.bootImage) ∧
      (l.lcDerived ≠ .scrapped → f.failedBlocks &&& 0x00c1 = 0 → l.imageOk f a.bootImage = false → l.imageOk f (1 - a.bootImage) = true →
        t.power.seqRunning = true ∧ t.arr.running = 1 - a.bootImage) ∧
      (l.lcDerived = .scrapped ∨ f.failedBlocks &&& 0x00c1 ≠ 0 ∨ (l.imageOk f a.bootImage = false ∧ l.imageOk f (1 - a.bootImage) = false) →
        t.power.seqRunning = false ∧ t.arr.running = a.running) ∧
      t.wheel.nextFrame = BitVec.ofNat 32 a.wheel.fR ∧ t.wheel.period = a.wheel.period ∧
      (l.lcDerived = .commission ∨ l.lcDerived = .field → t.fab.addr = a.fabric.addrNext ∧ t.fab.keyId = a.fabric.keyIdNext) ∧
      (l.lcDerived = .ret → t.fab.addr = 0xfff ∧ t.fab.key = 0 ∧
        (s.holdup.low = false ∨ (∀ d ∈ s.arr.copies, d.item ≠ 0x10) → t.life.cleared = true) ∧
        (s.holdup.low = true → (∃ d ∈ s.arr.copies, d.item = 0x10) → t.life.cleared = s.life.cleared ∧ t.arr.fabricWaits = true)) ∧
      (∀ (p : PolId) (y : StoredPolder) (v : StoredSeq), a.stored[p] = some y → a.seqs[p] = some v → y.state = .active →
        (t.pol p).state = .active ∧ (t.pol p).key = y.key ∧ (t.pol p).nextAdmit = v.cR ∧ (t.pol p).charter = y.charter ∧ (t.pol p).path = v.path) ∧
      (∀ (c : ItemCopy) (w : WheelItem), c ∈ s.arr.copies → c.item = 0x11 → c.value = .wheel w → (∀ d ∈ s.arr.copies, d.value.item = d.item) →
        (∀ d ∈ s.arr.copies, d.item = 0x11 → d ≠ c → d.gen < c.gen) → a.wheel = w) ∧
      ((∀ d ∈ s.arr.copies, d.value.item = d.item ∧ d.item ≠ 0x11) → a.wheel = WheelItem.factory) := by
  intro s f h1 h2 h3 h4 a l
  have hr := State.startReady_ready f h1
  have hc := s.itemsRead.clearFabric_cleared
  obtain ⟨hboot1, hboot2, hboot3⟩ := State.bootChoice_spec f h1
  obtain ⟨-, -, -, hrunning⟩ := State.firmwareStart_settled f h1
  obtain ⟨hlife, hbist, hwheel, hfab, hwaits, hpol, hsome, hnone⟩ := (s.startReady f).booted_kept f ((s.startReady f).bootChoice f)
  have hshadow : s.itemsRead.life.shadow = l.lcDerived := rfl
  have hfabric : (s.startReady f).fab = _ := hr.fab
  have hcopies : s.itemsRead.arr.copies = s.arr.copies := s.arr.load_copies
  refine ⟨_, execFirmwareStart_eq f h1 h2 h3 h4, ?_, fun hs => ?_, fun hs hf h => ?_, fun hs hf h h' => ?_, fun h => ?_, ?_, ?_, fun hlc => ?_, fun hlc => ⟨?_, ?_, ?_, ?_⟩,
    fun p y v hy hv hact => ?_, fun c w hc hi hv hwell hnew => ArrayS.load_wheel_newest hc hi hv hwell hnew, fun h => ArrayS.load_wheel_none h⟩
  · rw [hlife, hr.life, hc.life]
    rfl
  · rw [hbist]
    exact hr.unusable hs
  · exact hsome _ (hboot1 hs hf h)
  · exact hsome _ (hboot2 hs hf h h')
  · rw [hnone (hboot3 h), hr.power, h1]
    exact ⟨rfl, hrunning⟩
  · rw [hwheel, hr.wheel]
    show BitVec.ofNat 32 s.itemsRead.clearFabric.arr.wheel.fR = _
    rw [hc.arr]
    rfl
  · rw [hwheel, hr.wheel]
    show s.itemsRead.clearFabric.arr.wheel.period = _
    rw [hc.arr]
    rfl
  · have hsame : s.itemsRead.clearFabric = s.itemsRead := hc.others (by rw [hshadow]; rintro h; rw [h] at hlc; simp at hlc)
      (by rw [hshadow]; rintro h; rw [h] at hlc; simp at hlc)
    rw [hfab, hr.fab, hsame]
    exact ⟨rfl, rfl⟩
  · rw [hfab, hr.fab]
    show s.itemsRead.clearFabric.arr.fabric.addrNext = _
    rw [hc.fabric hlc]
    rfl
  · rw [hfab, hr.fab]
    show s.itemsRead.clearFabric.arr.fabric.keyNext = _
    rw [hc.fabric hlc]
    rfl
  · intro hz
    rw [hlife, hr.life]
    exact hc.zeroed hlc (by rw [hcopies]; exact hz)
  · intro hlow hd
    obtain ⟨k1, k2⟩ := hc.waits hlc hlow (by rw [hcopies]; exact hd)
    rw [hlife, hr.life, hwaits, hr.arr]
    exact ⟨k1, k2⟩
  · have hres : (s.startReady f).pol p = resumed (BitVec.ofNat 32 s.itemsRead.clearFabric.arr.wheel.fR) s.itemsRead.clearFabric.arr.wheel.period
        s.itemsRead.clearFabric.arr.stored[p] s.itemsRead.clearFabric.arr.seqs[p] := by
      unfold State.pol
      rw [hr.pols]
      exact Vector.getElem_ofFn ..
    have hst : s.itemsRead.clearFabric.arr.stored = a.stored ∧ s.itemsRead.clearFabric.arr.seqs = a.seqs := by
      rw [hc.arr]
      exact ⟨rfl, rfl⟩
    rw [hst.1, hst.2, hy, hv] at hres
    have hq := resumed_active (BitVec.ofNat 32 s.itemsRead.clearFabric.arr.wheel.fR) s.itemsRead.clearFabric.arr.wheel.period v hact
    rw [← hres] at hq
    rw [hpol p]
    exact hq

theorem commandsAcceptedStart_accepts : ∀ s : State, s.power.seqRunning = true → exec .commandsAcceptedStart s = .next { s with power := { s.power with accepting := true } } := by
  intro s h
  refine congrArg Host.Outcome.next ?_
  rw [h, Bool.or_true]

theorem discoveryWindowEnd_window : ∀ s : State, s.power.discoveryOver = false → s.power.aonReady = true → ∃ t, exec .discoveryWindowEnd s = .next t ∧
    t.power = { s.power with discoveryOver := true } ∧
    t.lineA = { s.lineA with window := if s.lineA.attempts = 0 then 8 else s.lineA.window } ∧
    t.lineB = { s.lineB with window := if s.lineB.attempts = 0 then 8 else s.lineB.window } ∧ t = { s with power := t.power, lineA := t.lineA, lineB := t.lineB } := by
  intro s h1 h2
  have hexec : exec .discoveryWindowEnd s = .next { s with power := { s.power with discoveryOver := true }, lineA := s.lineA.lateWindow, lineB := s.lineB.lateWindow } := by
    show Host.Outcome.next _ = _
    rw [h1, h2]
    rfl
  have hlate : ∀ l : LinePort, l.lateWindow = { l with window := if l.attempts = 0 then 8 else l.window } := fun l => by
    unfold LinePort.lateWindow
    split <;> rfl
  exact ⟨_, hexec, rfl, hlate _, hlate _, rfl⟩

theorem vauxTrip_reports : ∀ s : State, s.power.vauxOn = true → s.power.lineGood = true → ∃ t, exec .vauxTrip s = .next t ∧
    t.power = { s.power with vauxOn := false, vauxFaultSent := true } ∧
    (s.power.vauxFaultSent = true → t = { s with power := t.power }) ∧
    (s.power.vauxFaultSent = false → s.power.seqRunning = false →
      t.early = s.early ++ [{ code := 0x000E, frame := s.wheel.nextFrame - 1, tb := s.clock.tb, payload := [] }] ∧ t.pols = s.pols) := by
  intro s h1 h2
  have hexec : exec .vauxTrip s = .next (if s.power.vauxFaultSent = true then s.vauxTripped else s.vauxTripped.supplyEvent 0x000E []) := by
    show Host.Outcome.next _ = _
    rw [h1, h2]
    rfl
  refine ⟨_, hexec, ?_, fun hf => by rw [if_pos hf]; rfl, fun hf hq => ?_⟩
  · split
    · rfl
    · exact (State.supplyEvent_only ..).power.resolve_left Bool.false_ne_true
  · have hn : ¬ s.power.vauxFaultSent = true := by rw [hf]; exact Bool.false_ne_true
    have hsupply : s.vauxTripped.supplyEvent 0x000E [] = s.vauxTripped.patientEvent 0x000E [] :=
      if_neg (by show ¬ s.power.seqRunning = true; rw [hq]; exact Bool.false_ne_true)
    rw [if_neg hn, hsupply, State.patientEvent_asleep _ _ (show s.vauxTripped.power.seqRunning = false from hq)]
    exact ⟨rfl, rfl⟩

theorem vauxRetry_restores : ∀ s : State, s.power.vauxOn = false → s.power.lineGood = true →
    exec (.vauxRetry true) s = .next s ∧
    ∃ t, exec (.vauxRetry false) s = .next t ∧ t.power = { s.power with vauxOn := true, vauxFaultSent := false } ∧
      (s.power.vauxFaultSent = false → t = { s with power := t.power }) := by
  refine fun s h1 h2 => ⟨?_, ?_⟩
  · refine congrArg Host.Outcome.next (if_pos ?_)
    rw [Bool.or_true]
  · have hexec : exec (.vauxRetry false) s = .next (if s.power.vauxFaultSent = true then s.vauxRestored.supplyEvent 0x000F [] else s.vauxRestored) := by
      show Host.Outcome.next _ = _
      rw [h1, h2]
      rfl
    refine ⟨_, hexec, ?_, fun hf => ?_⟩
    · split
      · exact (State.supplyEvent_only ..).power.resolve_left Bool.false_ne_true
      · rfl
    · rw [if_neg (by rw [hf]; exact Bool.false_ne_true)]
      rfl

theorem vio_lost_and_restored : ∀ s : State, s.power.aonReady = true → s.power.lineGood = true → s.power.resetLow = false →
    (s.power.vioLost = false → ∃ t, exec .vioLost s = .next t ∧ t.power = { s.power with vioLost := true, vioWaits := false } ∧ t.landsFree = false ∧
      t.lands = s.lands ∧ t.strobeOut = false ∧ t.jtag.ir = .idcode ∧ t.host.xfer = none ∧ t.wheel.turning = s.wheel.turning ∧
      (∀ x, s.wheel.slot = some x → t.wheel.slot = some { x with pixCut := some (x.pixCut.getD x.reads.length) })) ∧
    (s.power.vioLost = true → s.power.vioWaits = false → exec .vioLost s = .next s ∧
      ∃ t, exec .vioRestored s = .next t ∧ t.power = { s.power with vioWaits := true } ∧ t.lands = s.lands ∧ t.wheel = s.wheel) := by
  refine fun s h1 h2 h3 => ⟨fun hv => ?_, fun hv hw => ⟨?_, ?_⟩⟩
  · have hexec : exec .vioLost s = .next s.vioGone := by
      refine congrArg Host.Outcome.next ((if_pos (State.vioWatched_of h1 h2 h3)).trans ?_)
      rw [State.setVio_lost, hv]
      rfl
    obtain ⟨⟨-, hlands, -⟩, hpower⟩ := s.vioGone_kept
    obtain ⟨hfree, hir, hxfer, hwheel⟩ := s.vioGone_silent
    refine ⟨_, hexec, hpower, hfree, hlands, ?_, hir, hxfer, by rw [hwheel], fun x hx => by rw [hwheel, hx]; rfl⟩
    unfold State.strobeOut
    rw [hfree, Bool.and_false]
  · refine congrArg Host.Outcome.next ((if_pos (State.vioWatched_of h1 h2 h3)).trans ?_)
    rw [State.setVio_lost, hv, hw]
    rfl
  · have hexec : exec .vioRestored s = .next (({ s with power := { s.power with vioWaits := true } } : State).patientEvent 0x000D []) := by
      refine congrArg Host.Outcome.next ((if_pos (State.vioWatched_of h1 h2 h3)).trans ?_)
      rw [State.setVio_back, hv, hw]
      rfl
    obtain ⟨⟨-, hlands, -⟩, hpower, hwheel⟩ := State.patientEvent_kept (s := { s with power := { s.power with vioWaits := true } }) 0x000D []
    exact ⟨_, hexec, hpower, hlands, hwheel⟩

/-- Settles O45: what an image finds at its start is what was committed, and its own first acts are records and requests. -/
theorem startUpEvents : Obligations.StartUpEvents :=
  ⟨firmwareStart_boots, commandsAcceptedStart_accepts, discoveryWindowEnd_window, vauxTrip_reports, vauxRetry_restores, vio_lost_and_restored⟩

end Sys2Proof.Machine
end

section
/-! PROOFS. A self-test and a data fault issue the events that waited before theirs (O58, O60). -/

namespace Sys2Proof.Machine

/-- A node as `markerWaits`, with a self-test of STAT1 alone under way. -/
def markerWaitsInTest : State :=
  { markerWaits with
    bist := { Bist.initial with
      job := some { algo := 0, region := 0, blocks := 0x0010, left := 0x0010, failed := 0, started := true, pagesLeft := 0, below := 0 } } }

theorem markerWaitsInTest_taken : ∃ t, exec (.bistBlockDone false) markerWaitsInTest = .next t ∧ ((t.clock.tcmp[0]).openEv).isNone = true :=
  ⟨_, rfl, by decide +kernel⟩

/-- Refutes O58: the EV_BIST_DONE that ends a self-test issues the EV_TCMP marker that waited before it, which takes the event from its compare
channel. -/
theorem not_lifeAndSelfTestEvents : ¬ Obligations.LifeAndSelfTestEvents := by
  intro h
  obtain ⟨-, -, -, -, hdone⟩ := h
  obtain ⟨t, ht, -, -, -, -, -, -, -, -, hclock, -⟩ := hdone markerWaitsInTest _ 4 false rfl rfl (by decide) (by decide) (by decide) (by decide)
  obtain ⟨u, hu, htaken⟩ := markerWaitsInTest_taken
  cases ht.symm.trans hu
  rw [hclock] at htaken
  exact absurd htaken (by decide)

/-- A node as `markerWaits`, with a slot of the owner in progress. -/
def markerWaitsInSlot : State :=
  { markerWaits with
    wheel := { Wheel.initial with
      nextFrame := 6
      slot := some { markerWaits.emptySlot 5 with holder := some owner } } }

theorem markerWaitsInSlot_taken : ∃ t, exec (.dataFault true 0 0 false) markerWaitsInSlot = .next t ∧ ((t.clock.tcmp[0]).openEv).isNone = true :=
  ⟨_, rfl, by decide +kernel⟩

/-- Refutes O60: the event of a data fault issues the EV_TCMP marker that waited before it, which takes the event from its compare channel. -/
theorem not_faultEvents : ¬ Obligations.FaultEvents := by
  intro h
  obtain ⟨-, hfault, -⟩ := h
  obtain ⟨t, y, ht, -, -, -, -, -, -, hclock, -⟩ := hfault markerWaitsInSlot true 0 0 false _ owner rfl rfl rfl (by decide) (.inl rfl)
  obtain ⟨u, hu, htaken⟩ := markerWaitsInSlot_taken
  cases ht.symm.trans hu
  rw [hclock] at htaken
  exact absurd htaken (by decide)

end Sys2Proof.Machine
end

section
/-! PROOFS. The test access port (O59) and the array by address (O15). -/

namespace Sys2Proof.Machine

variable {s t u : State} {p : PolId}

/-! ### An instruction in its states (R611, R612) -/

/-- An instruction loaded with the bytes its data register returns. -/
def State.irLoaded (ir : JtagIr) (out : List Byte) (s : State) : State := { s with jtag := { s.jtag with ir := ir, dataOut := out } }

/-- An instruction that the state does not permit acts as BYPASS. -/
def State.bypassing (s : State) : State := s.irLoaded .bypass [0]

theorem State.jtagDo_reset {ir : JtagIr} {out : List Byte} {act : State → State} (hw : s.tapWorks = false) : s.jtagDo ir out act = s :=
  if_pos (by rw [hw]; rfl)

theorem State.jtagDo_acts {ir : JtagIr} {out : List Byte} {act : State → State} (hw : s.tapWorks = true)
    (h : jtagActs ir s.life.shadow s.life.cleared = true) : s.jtagDo ir out act = act (s.irLoaded ir out) := by
  unfold State.jtagDo
  rw [if_neg (by rw [hw]; decide), if_pos h]
  exact congrArg act (if_pos h)

theorem State.jtagDo_bypass {ir : JtagIr} {out : List Byte} {act : State → State} (hw : s.tapWorks = true)
    (h : jtagActs ir s.life.shadow s.life.cleared = false) : s.jtagDo ir out act = s.bypassing := by
  have hn : ¬ jtagActs ir s.life.shadow s.life.cleared = true := by rw [h]; exact Bool.false_ne_true
  unfold State.jtagDo
  rw [if_neg (by rw [hw]; decide), if_neg hn]
  exact if_neg hn

theorem jtagActs_idcode (lc : Lc) (cleared : Bool) : jtagActs .idcode lc cleared = true := by cases lc <;> rfl

theorem jtagActs_bypass (lc : Lc) (cleared : Bool) : jtagActs .bypass lc cleared = true := by cases lc <;> rfl

/-- The states that permit the boundary register, DEBUG and ARRAY, the other tests, and RELEASE (R611). -/
theorem jtagActs_boundary {lc : Lc} (cleared : Bool) (h : lc ≠ .scrapped) :
    jtagActs .extest lc cleared = true ∧ jtagActs .samplePreload lc cleared = true := by
  cases lc
  case scrapped => exact absurd rfl h
  all_goals exact ⟨rfl, rfl⟩

theorem jtagActs_access {lc : Lc} (cleared : Bool) (h : lc ≠ .scrapped) (h' : lc ≠ .field) :
    jtagActs .debug lc cleared = true ∧ jtagActs .array lc cleared = true := by
  cases lc
  case scrapped => exact absurd rfl h
  case field => exact absurd rfl h'
  all_goals exact ⟨rfl, rfl⟩

theorem jtagActs_no_access {lc : Lc} (cleared : Bool) (h : lc = .scrapped ∨ lc = .field) :
    jtagActs .debug lc cleared = false ∧ jtagActs .array lc cleared = false := by
  rcases h with rfl | rfl <;> exact ⟨rfl, rfl⟩

theorem jtagActs_no_test {lc : Lc} (cleared : Bool) (h : lc ≠ .manufacture) (h' : lc ≠ .ret) :
    jtagActs .mbist lc cleared = false ∧ jtagActs .scan lc cleared = false := by
  cases lc
  case manufacture => exact absurd rfl h
  case ret => exact absurd rfl h'
  all_goals exact ⟨rfl, rfl⟩

theorem jtagActs_no_release {lc : Lc} (cleared : Bool) (h : lc ≠ .commission) : jtagActs .release lc cleared = false := by
  cases lc
  case commission => exact absurd rfl h
  all_goals rfl

/-! ### TCM by DEBUG -/

/-- The byte that DEBUG or ARRAY last stored at an address. -/
def storedAt (m : List Host.Cell) (x : Nat) : Option Byte := (m.find? (fun c => c.1 = x)).map (·.2)

theorem storedAt_cons (a : Nat) (b : Byte) (m : List Host.Cell) (x : Nat) : storedAt ((a, b) :: m) x = if a = x then some b else storedAt m x := by
  unfold storedAt
  rw [List.find?_cons]
  by_cases h : a = x
  · rw [if_pos h]
    simp only [h, decide_true, Option.map_some]
  · rw [if_neg h]
    simp only [h, decide_false]

/-- A stored byte reads back; every other address reads as before. -/
theorem storedAt_tcmWrite (m : List Host.Cell) (a : Nat) (v : Byte) (x : Nat) :
    storedAt (tcmWrite m a v) x = if a = x then some v else storedAt m x := by
  induction m with
  | nil => exact storedAt_cons a v [] x
  | cons c m ih =>
    obtain ⟨y, w⟩ := c
    unfold tcmWrite
    split
    · exact storedAt_cons ..
    · split
      · next h =>
        subst h
        rw [storedAt_cons, storedAt_cons]
        split
        · rfl
        · rfl
      · next h =>
        rw [storedAt_cons, storedAt_cons, ih]
        by_cases hy : y = x
        · rw [if_pos hy, if_pos hy, if_neg fun ha => h (ha.trans hy.symm)]
        · rw [if_neg hy, if_neg hy]

theorem storedAt_storePage (m : List Host.Cell) (a : Nat) (bs : List Byte) (x : Nat) :
    storedAt (storePage m a bs) x = if a ≤ x ∧ x < a + bs.length then bs[x - a]? else storedAt m x := by
  induction bs generalizing m a with
  | nil => rw [if_neg fun h => by have := h.2; simp only [List.length_nil] at this; omega]; rfl
  | cons b bs ih =>
    rw [show storePage m a (b :: bs) = storePage (tcmWrite m a b) (a + 1) bs from rfl, ih, storedAt_tcmWrite, List.length_cons]
    by_cases ha : a = x
    · subst ha
      rw [if_neg (by omega), if_pos rfl, if_pos (by omega), Nat.sub_self]
      rfl
    · rw [if_neg ha]
      by_cases hx : a ≤ x ∧ x < a + (bs.length + 1)
      · rw [if_pos hx, if_pos (by omega), show x - a = (x - (a + 1)) + 1 by omega, List.getElem?_cons_succ]
      · rw [if_neg hx, if_neg (by omega)]

/-! ### The array by address -/

/-- The bytes of a page as ARRAY programs them (R550). -/
def pageBytes (bs : List Byte) : List Byte := padTo 256 (bs.take 256)

theorem pageBytes_length (bs : List Byte) : (pageBytes bs).length = 256 := by
  unfold pageBytes padTo
  rw [List.length_append, List.length_take, List.length_replicate]
  omega

theorem pageBytes_of_page {bs : List Byte} (h : bs.length = 256) : pageBytes bs = bs := by
  unfold pageBytes padTo
  rw [List.take_of_length_le (by omega), h]
  exact List.append_nil bs

/-- The byte of an address of which no rule speaks. -/
def State.unstatedByte (s : State) (x : Nat) : Byte :=
  Config.arrayByte x (((s.arr.copies.filter (ItemCopy.covers (x / 256 * 256))).map (fun c => c.gen)).sum)

/-- A byte outside the regions: what no rule states under a copy, else what ARRAY programmed, else a zeroed FABRIC item or what no rule states. -/
theorem State.arrayByte_outside {x : Nat} (h : arrayPlace x = none) : s.arrayByte x =
    if (!(s.arr.copies.filter (ItemCopy.covers (x / 256 * 256))).isEmpty) = true then s.unstatedByte x
    else (storedAt s.arr.cells x).getD (if (s.life.cleared && fabricPage (x / 256 * 256)) = true then 0 else s.unstatedByte x) := by
  unfold State.arrayByte
  rw [h]
  show (if _ then _ else _) = _
  split
  · rfl
  · show _ = Option.getD (Option.map _ _) _
    generalize List.find? _ _ = o
    cases o <;> rfl

theorem State.arrayByte_fw0 {x off : Nat} {half : Bool} (h : arrayPlace x = some (0, off, half)) : s.arrayByte x = cellsRead s.arr.fw0.content off := by
  unfold State.arrayByte
  rw [h]
  rfl

theorem State.arrayByte_fw1 {x off : Nat} {half : Bool} (h : arrayPlace x = some (1, off, half)) : s.arrayByte x = cellsRead s.arr.fw1.content off := by
  unfold State.arrayByte
  rw [h]
  rfl

theorem State.arrayByte_log {x off : Nat} {half : Bool} (h : arrayPlace x = some (5, off, half)) : s.arrayByte x = cellsRead s.arr.logCells off := by
  unfold State.arrayByte
  rw [h]
  rfl

theorem State.arrayByte_user {x off : Nat} {half : Bool} (h : arrayPlace x = some (6, off, half)) : s.arrayByte x =
    if half = s.arr.user.half then cellsRead s.arr.user.content off else (storedAt s.arr.cells x).getD (s.unstatedByte x) := by
  unfold State.arrayByte
  rw [h]
  rfl

/-- The place of an address, by the bounds of R544. -/
theorem arrayPlace_cases (x : Nat) :
    (x < 0x0C0000 ∧ arrayPlace x = some (0, x, false)) ∨ (0x0E0000 ≤ x ∧ x < 0x120000 ∧ arrayPlace x = some (5, x - 0x0E0000, false)) ∨
    (0x200000 ≤ x ∧ x < 0x2C0000 ∧ arrayPlace x = some (1, x - 0x200000, false)) ∨ (0x2E0000 ≤ x ∧ x < 0x320000 ∧ arrayPlace x = some (6, x - 0x2E0000, false)) ∨
    (0x320000 ≤ x ∧ x < 0x360000 ∧ arrayPlace x = some (6, x - 0x320000, true)) ∨
    ((0x0C0000 ≤ x ∧ x < 0x0E0000 ∨ 0x120000 ≤ x ∧ x < 0x200000 ∨ 0x2C0000 ≤ x ∧ x < 0x2E0000 ∨ 0x360000 ≤ x) ∧ arrayPlace x = none) := by
  unfold arrayPlace
  split
  · exact .inl ⟨by assumption, rfl⟩
  · split
    · exact .inr (.inl ⟨by omega, by omega, rfl⟩)
    · split
      · exact .inr (.inr (.inl ⟨by omega, by omega, rfl⟩))
      · split
        · exact .inr (.inr (.inr (.inl ⟨by omega, by omega, rfl⟩)))
        · split
          · exact .inr (.inr (.inr (.inr (.inl ⟨by omega, by omega, rfl⟩))))
          · exact .inr (.inr (.inr (.inr (.inr ⟨by omega, rfl⟩))))

/-- A page lies inside or outside the regions whole. -/
theorem arrayPlace_page_none {x y : Nat} (h : x / 256 = y / 256) (hx : arrayPlace x = none) : arrayPlace y = none := by
  rcases arrayPlace_cases x with ⟨_, k⟩ | ⟨_, _, k⟩ | ⟨_, _, k⟩ | ⟨_, _, k⟩ | ⟨_, _, k⟩ | ⟨hb, -⟩
  case inr.inr.inr.inr.inr =>
    rcases arrayPlace_cases y with ⟨_, -⟩ | ⟨_, _, -⟩ | ⟨_, _, -⟩ | ⟨_, _, -⟩ | ⟨_, _, -⟩ | ⟨-, k⟩
    case inr.inr.inr.inr.inr => exact k
    all_goals omega
  all_goals rw [hx] at k; cases k

theorem markerPlace_page_none {x y : Nat} (h : x / 256 = y / 256) (hx : markerPlace x = none) : markerPlace y = none := by
  unfold markerPlace at hx ⊢
  split at hx
  · cases hx
  · split at hx
    · cases hx
    · split at hx
      · cases hx
      · rw [if_neg (by omega), if_neg (by omega), if_neg (by omega)]

/-! ### The copies a page spoils -/

/-- The array bytes of a page. -/
def State.pageRead (s : State) (a : Nat) : List Byte := (List.range 256).map (fun i => s.arrayByte (a + i))

theorem State.pageRead_getElem? {a i : Nat} (h : i < 256) : (s.pageRead a)[i]? = some (s.arrayByte (a + i)) := by
  unfold State.pageRead
  rw [List.getElem?_map, List.getElem?_range h]
  rfl

/-- The bytes an address keeps when pages are stored as they read: the address's own, where one of the pages takes it in. -/
theorem storedAt_foldl_pageRead (pages : List Nat) (m : List Host.Cell) (x : Nat) :
    (storedAt (pages.foldl (fun m a => storePage m a (s.pageRead a)) m) x = some (s.arrayByte x) ∧ ∃ a ∈ pages, a ≤ x ∧ x < a + 256) ∨
      (storedAt (pages.foldl (fun m a => storePage m a (s.pageRead a)) m) x = storedAt m x ∧ ∀ a ∈ pages, ¬ (a ≤ x ∧ x < a + 256)) := by
  induction pages generalizing m with
  | nil => exact .inr ⟨rfl, fun _ h => nomatch h⟩
  | cons a pages ih =>
    rw [List.foldl_cons]
    rcases ih (storePage m a (s.pageRead a)) with ⟨h, b, hb, hx⟩ | ⟨h, hn⟩
    · exact .inl ⟨h, b, List.mem_cons_of_mem _ hb, hx⟩
    · have hlen : (s.pageRead a).length = 256 := by
        unfold State.pageRead
        rw [List.length_map, List.length_range]
      rw [storedAt_storePage, hlen] at h
      by_cases hx : a ≤ x ∧ x < a + 256
      · rw [if_pos hx, State.pageRead_getElem? (by omega), show a + (x - a) = x by omega] at h
        exact .inl ⟨h, a, List.mem_cons_self, hx⟩
      · rw [if_neg hx] at h
        exact .inr ⟨h, fun b hb => by
          rcases List.mem_cons.mp hb with rfl | hb
          · exact hx
          · exact hn b hb⟩

/-- The pages of the copies that a page falls into. -/
def State.spoiltPages (page : Nat) (s : State) : List Nat := (s.arr.copies.filter (ItemCopy.covers page)).flatMap ItemCopy.pages

theorem State.spoilCopies_cells (page : Nat) (s : State) :
    (s.spoilCopies page).arr.cells = (s.spoiltPages page).foldl (fun m a => storePage m a (s.pageRead a)) s.arr.cells := rfl

/-- An address whose page is under a spoilt copy lies in a stored page. -/
theorem State.spoiltPages_covers {page x : Nat} {c : ItemCopy} (hc : c ∈ s.arr.copies) (hp : c.covers page = true) (hx : c.covers (x / 256 * 256) = true) :
    ∃ a ∈ s.spoiltPages page, a ≤ x ∧ x < a + 256 :=
  ⟨x / 256 * 256, List.mem_flatMap.mpr ⟨c, List.mem_filter.mpr ⟨hc, hp⟩, List.contains_iff_mem.mp hx⟩, by omega, by omega⟩

/-- The state in which a page outside the regions has been programmed. -/
def State.pageStored (page : Nat) (bs : List Byte) (s : State) : State :=
  { s.spoilCopies page with arr := { (s.spoilCopies page).arr with cells := storePage (s.spoilCopies page).arr.cells page bs } }

theorem State.pageStored_copies (page : Nat) (bs : List Byte) (s : State) : (s.pageStored page bs).arr.copies = s.arr.copies.filter (fun c => !c.covers page) := rfl

/-- A page programmed outside the regions reads back. -/
theorem State.arrayByte_pageStored_same {page x : Nat} {bs : List Byte} (hlen : bs.length = 256) (hpage : x / 256 * 256 = page) (h : arrayPlace x = none) :
    (s.pageStored page bs).arrayByte x = bs.getD (x - page) 0 := by
  have hnone : (s.pageStored page bs).arr.copies.filter (ItemCopy.covers (x / 256 * 256)) = [] := by
    rw [State.pageStored_copies, hpage, List.filter_filter, List.filter_eq_nil_iff]
    intro c _ hc
    cases k : c.covers page
    · rw [k] at hc; cases hc
    · rw [k] at hc; cases hc
  have hat : storedAt (s.pageStored page bs).arr.cells x = bs[x - page]? := by
    refine (storedAt_storePage ..).trans (if_pos ?_)
    omega
  rw [State.arrayByte_outside h, hnone, if_neg (by decide), hat, List.getElem?_eq_getElem (by omega), Option.getD_some, List.getD_eq_getElem?_getD,
    List.getElem?_eq_getElem (by omega), Option.getD_some]

/-- Every other byte reads as before, where no two copies share a page. -/
theorem State.arrayByte_pageStored_other {page x : Nat} {bs : List Byte} (hlen : bs.length = 256) (hx : x / 256 * 256 ≠ page) (hpage : page % 256 = 0)
    (hshare : ∀ c ∈ s.arr.copies, ∀ d ∈ s.arr.copies, ∀ q, c.covers q = true → d.covers q = true → c = d) :
    (s.pageStored page bs).arrayByte x = s.arrayByte x := by
  have hat : storedAt (s.pageStored page bs).arr.cells x = storedAt (s.spoilCopies page).arr.cells x :=
    (storedAt_storePage ..).trans (if_neg (by omega))
  rw [State.spoilCopies_cells] at hat
  have hholders : (∃ a ∈ s.spoiltPages page, a ≤ x ∧ x < a + 256) ∧ (s.pageStored page bs).arr.copies.filter (ItemCopy.covers (x / 256 * 256)) = [] ∨
      (s.pageStored page bs).arr.copies.filter (ItemCopy.covers (x / 256 * 256)) = s.arr.copies.filter (ItemCopy.covers (x / 256 * 256)) := by
    rw [State.pageStored_copies, List.filter_filter]
    by_cases h : ∃ c ∈ s.arr.copies, c.covers page = true ∧ c.covers (x / 256 * 256) = true
    · obtain ⟨c, hc, hp, hq⟩ := h
      refine .inl ⟨State.spoiltPages_covers hc hp hq, List.filter_eq_nil_iff.mpr fun d hd hdq => ?_⟩
      rw [Bool.and_eq_true] at hdq
      rw [← hshare c hc d hd _ hq hdq.1, hp] at hdq
      exact absurd hdq.2 (by decide)
    · refine .inr (List.filter_congr fun c hc => ?_)
      cases hq : c.covers (x / 256 * 256)
      · rfl
      · cases hp : c.covers page
        · rfl
        · exact absurd ⟨c, hc, hp, hq⟩ h
  have hkept : ∀ off, cellsRead (s.pageStored page bs).arr.fw0.content off = cellsRead s.arr.fw0.content off ∧
      cellsRead (s.pageStored page bs).arr.fw1.content off = cellsRead s.arr.fw1.content off ∧
      cellsRead (s.pageStored page bs).arr.logCells off = cellsRead s.arr.logCells off ∧ (s.pageStored page bs).arr.user = s.arr.user :=
    fun _ => ⟨rfl, rfl, rfl, rfl⟩
  have hgens : (s.pageStored page bs).arr.copies.filter (ItemCopy.covers (x / 256 * 256)) = s.arr.copies.filter (ItemCopy.covers (x / 256 * 256)) →
      (s.pageStored page bs).unstatedByte x = s.unstatedByte x := fun h => by
    unfold State.unstatedByte
    rw [h]
  rcases storedAt_foldl_pageRead (s.spoiltPages page) s.arr.cells x with ⟨hst, hin⟩ | ⟨hst, hout⟩
  · rw [hst] at hat
    rcases arrayPlace_cases x with ⟨_, k⟩ | ⟨_, _, k⟩ | ⟨_, _, k⟩ | ⟨_, _, k⟩ | ⟨_, _, k⟩ | ⟨_, k⟩
    · rw [State.arrayByte_fw0 k, State.arrayByte_fw0 k]; rfl
    · rw [State.arrayByte_log k, State.arrayByte_log k]; rfl
    · rw [State.arrayByte_fw1 k, State.arrayByte_fw1 k]; rfl
    · rw [State.arrayByte_user k, hat]
      by_cases hh : false = s.arr.user.half
      · exact (if_pos hh).trans ((State.arrayByte_user k).trans (if_pos hh)).symm
      · exact if_neg hh
    · rw [State.arrayByte_user k, hat]
      by_cases hh : true = s.arr.user.half
      · exact (if_pos hh).trans ((State.arrayByte_user k).trans (if_pos hh)).symm
      · exact if_neg hh
    · rw [State.arrayByte_outside k, hat]
      rcases hholders with ⟨-, hnone⟩ | hsame
      · rw [hnone, if_neg (by decide), Option.getD_some]
      · rw [hsame, Option.getD_some]
        split
        · next hcov =>
          rw [hgens hsame, State.arrayByte_outside k, if_pos hcov]
        · rfl
  · have hsame := hholders.resolve_left fun ⟨⟨a, ha, hx⟩, _⟩ => hout a ha hx
    rw [hst] at hat
    rcases arrayPlace_cases x with ⟨_, k⟩ | ⟨_, _, k⟩ | ⟨_, _, k⟩ | ⟨_, _, k⟩ | ⟨_, _, k⟩ | ⟨_, k⟩
    · rw [State.arrayByte_fw0 k, State.arrayByte_fw0 k]; rfl
    · rw [State.arrayByte_log k, State.arrayByte_log k]; rfl
    · rw [State.arrayByte_fw1 k, State.arrayByte_fw1 k]; rfl
    · rw [State.arrayByte_user k, State.arrayByte_user k, hat, hgens hsame]; rfl
    · rw [State.arrayByte_user k, State.arrayByte_user k, hat, hgens hsame]; rfl
    · rw [State.arrayByte_outside k, State.arrayByte_outside k, hat, hsame, hgens hsame]; rfl

/-! ### A page programmed by ARRAY -/

theorem page_base_place {addr : Nat} : addr / 256 * 256 / 256 = addr / 256 := Nat.mul_div_cancel _ (by decide)

theorem State.programPage_beyond {addr : Nat} {bs : List Byte} (h : 0x400000 ≤ addr) : s.programPage addr bs = s := if_pos h

theorem State.programPage_fw0 {addr off : Nat} {half : Bool} {bs : List Byte} (h : addr < 0x400000) (hp : arrayPlace (addr / 256 * 256) = some (0, off, half)) :
    s.programPage addr bs = { s with arr := { s.arr with fw0 := { s.arr.fw0 with content := cellsWriteList s.arr.fw0.content off (pageBytes bs) } } } := by
  unfold State.programPage
  rw [if_neg (by omega), hp]
  cases markerPlace (addr / 256 * 256) <;> rfl

theorem State.programPage_fw1 {addr off : Nat} {half : Bool} {bs : List Byte} (h : addr < 0x400000) (hp : arrayPlace (addr / 256 * 256) = some (1, off, half)) :
    s.programPage addr bs = { s with arr := { s.arr with fw1 := { s.arr.fw1 with content := cellsWriteList s.arr.fw1.content off (pageBytes bs) } } } := by
  unfold State.programPage
  rw [if_neg (by omega), hp]
  cases markerPlace (addr / 256 * 256) <;> rfl

theorem State.programPage_log {addr off : Nat} {half : Bool} {bs : List Byte} (h : addr < 0x400000) (hp : arrayPlace (addr / 256 * 256) = some (5, off, half))
    (hm : markerPlace (addr / 256 * 256) = none) : s.programPage addr bs =
      if (s.life.shadow == .manufacture || s.life.shadow == .ret) = true then
        { s with arr := { s.arr with logCells := cellsWriteList s.arr.logCells off (pageBytes bs) } } else s := by
  unfold State.programPage
  rw [if_neg (by omega), hp, hm]
  rfl

theorem State.programPage_outside {addr : Nat} {bs : List Byte} (h : addr < 0x400000) (hp : arrayPlace (addr / 256 * 256) = none)
    (hm : markerPlace (addr / 256 * 256) = none) : s.programPage addr bs =
      if (s.life.shadow == .manufacture || s.life.shadow == .ret) = true then s.pageStored (addr / 256 * 256) (pageBytes bs) else s := by
  unfold State.programPage
  rw [if_neg (by omega), hp, hm]
  rfl

/-- The states that permit all of ARRAY (R614). -/
theorem fullArray_of {lc : Lc} (h1 : lc ≠ .scrapped) (h2 : lc ≠ .field) (h3 : lc ≠ .commission) : (lc == .manufacture || lc == .ret) = true := by
  cases lc
  case scrapped => exact absurd rfl h1
  case field => exact absurd rfl h2
  case commission => exact absurd rfl h3
  all_goals rfl

/-- ARRAY acts: the access runs on the state with its instruction loaded. -/
theorem execJtagArray_programPage {addr : Nat} {bs : List Byte} (hw : s.tapWorks = true) (h1 : s.life.shadow ≠ .scrapped) (h2 : s.life.shadow ≠ .field)
    (hd : s.domOn 11 = true) (hlow : s.holdup.low = false) :
    exec (.jtagArray (.programPage addr bs)) s = .next ((s.irLoaded .array []).programPage addr bs) := by
  refine congrArg Host.Outcome.next ((State.jtagDo_acts hw (jtagActs_access _ h1 h2).2).trans ?_)
  show (if (!s.domOn 11) = true then s.irLoaded .array [] else if s.holdup.low = true then s.irLoaded .array [] else (s.irLoaded .array []).programPage addr bs) = _
  rw [if_neg (by rw [hd]; decide), if_neg (by rw [hlow]; decide)]

theorem cellsRead_writeList {m : List Host.Cell} (x y : Nat) (vs : List Byte) (h : cellsWf m = true) :
    cellsRead (cellsWriteList m x vs) y = if x ≤ y ∧ y < x + vs.length then vs.getD (y - x) 0 else cellsRead m y := by
  induction vs generalizing m x with
  | nil => rw [if_neg fun hn => by have := hn.2; simp only [List.length_nil] at this; omega]; rfl
  | cons v vs ih =>
    rw [show cellsWriteList m x (v :: vs) = cellsWriteList (cellsWrite m x v) (x + 1) vs from rfl, ih _ (cellsWf_write m x v h), cellsRead_write _ _ _ _ h,
      List.length_cons]
    by_cases hy : y = x
    · subst hy
      rw [if_neg (by omega), if_pos rfl, if_pos (by omega), Nat.sub_self]
      rfl
    · rw [if_neg hy]
      by_cases hr : x ≤ y ∧ y < x + (vs.length + 1)
      · rw [if_pos hr, if_pos (by omega), show y - x = (y - (x + 1)) + 1 by omega, List.getD_cons_succ]
      · rw [if_neg hr, if_neg (by omega)]

/-- A page programmed in a region's store: its bytes read back there, and every other address reads as before. -/
theorem cellsRead_page {m : List Host.Cell} (base x : Nat) (addr : Nat) {bs : List Byte} (h : cellsWf m = true) (hlen : bs.length = 256) (hb : base % 256 = 0)
    (hbase : base ≤ addr) (hx : base ≤ x) :
    cellsRead (cellsWriteList m (addr / 256 * 256 - base) bs) (x - base) =
      if addr / 256 = x / 256 then bs.getD (x % 256) 0 else cellsRead m (x - base) := by
  rw [cellsRead_writeList _ _ _ h, hlen]
  by_cases hp : addr / 256 = x / 256
  · rw [if_pos hp, if_pos (by omega)]
    congr 1
    omega
  · rw [if_neg hp, if_neg (by omega)]

/-- Two arrays read alike at an address outside the images that differ. -/
theorem State.arrayByte_congr {x : Nat} (hcopies : t.arr.copies = s.arr.copies) (hcells : t.arr.cells = s.arr.cells) (hlife : t.life.cleared = s.life.cleared)
    (huser : t.arr.user = s.arr.user) (hlog : t.arr.logCells = s.arr.logCells)
    (h0 : x < 0x0C0000 → t.arr.fw0 = s.arr.fw0) (h1 : 0x200000 ≤ x → x < 0x2C0000 → t.arr.fw1 = s.arr.fw1) : t.arrayByte x = s.arrayByte x := by
  have hun : t.unstatedByte x = s.unstatedByte x := by
    unfold State.unstatedByte
    rw [hcopies]
  rcases arrayPlace_cases x with ⟨hx, k⟩ | ⟨_, _, k⟩ | ⟨hx, hx', k⟩ | ⟨_, _, k⟩ | ⟨_, _, k⟩ | ⟨_, k⟩
  · rw [State.arrayByte_fw0 k, State.arrayByte_fw0 k, h0 hx]
  · rw [State.arrayByte_log k, State.arrayByte_log k, hlog]
  · rw [State.arrayByte_fw1 k, State.arrayByte_fw1 k, h1 hx hx']
  · rw [State.arrayByte_user k, State.arrayByte_user k, huser, hcells, hun]
  · rw [State.arrayByte_user k, State.arrayByte_user k, huser, hcells, hun]
  · rw [State.arrayByte_outside k, State.arrayByte_outside k, hcopies, hcells, hlife, hun]

theorem arrayPlace_fw0 {x : Nat} (h : x < 0x0C0000) : arrayPlace x = some (0, x, false) := if_pos h

theorem arrayPlace_fw1 {x : Nat} (h : 0x200000 ≤ x) (h' : x < 0x2C0000) : arrayPlace x = some (1, x - 0x200000, false) := by
  unfold arrayPlace
  rw [if_neg (by omega), if_neg (by omega), if_pos ⟨h, h'⟩]

theorem arrayPlace_log {x : Nat} (h : 0x0E0000 ≤ x) (h' : x < 0x120000) : arrayPlace x = some (5, x - 0x0E0000, false) := by
  unfold arrayPlace
  rw [if_neg (by omega), if_pos ⟨h, h'⟩]

/-- Settles O15: in a region the page is written to the region's store; outside the regions it replaces what its address holds, and the other
pages of a copy it falls into keep their bytes. -/
theorem arrayPageReadsBack : Obligations.ArrayPageReadsBack := by
  intro s addr bs hwf hw h1 h2 hd hlow hlen hshare hplace
  refine ⟨_, execJtagArray_programPage hw h1 h2 hd hlow, fun x => ?_⟩
  have hbytes := pageBytes_of_page hlen
  obtain ⟨hwf0, hwf1⟩ : cellsWf s.arr.fw0.content = true ∧ cellsWf s.arr.fw1.content = true := by
    unfold State.storesWf ArrayS.storesWf at hwf
    simp only [Bool.and_eq_true] at hwf
    exact ⟨hwf.1.1.1.1.1, hwf.1.1.1.1.2⟩
  rcases hplace with hfw0 | ⟨hlo, hhi⟩ | ⟨hfull, htop, hplace, hmarker⟩
  · rw [State.programPage_fw0 (by omega) (arrayPlace_fw0 (by omega)), hbytes]
    by_cases hx : x < 0x0C0000
    · rw [State.arrayByte_fw0 (arrayPlace_fw0 hx), State.arrayByte_fw0 (arrayPlace_fw0 hx)]
      exact cellsRead_page 0 x addr hwf0 hlen rfl (Nat.zero_le _) (Nat.zero_le _)
    · rw [if_neg (by omega)]
      exact State.arrayByte_congr rfl rfl rfl rfl rfl (fun h => absurd h hx) fun _ _ => rfl
  · rw [State.programPage_fw1 (by omega) (arrayPlace_fw1 (by omega) (by omega)), hbytes]
    by_cases hx : 0x200000 ≤ x ∧ x < 0x2C0000
    · rw [State.arrayByte_fw1 (arrayPlace_fw1 hx.1 hx.2), State.arrayByte_fw1 (arrayPlace_fw1 hx.1 hx.2)]
      exact cellsRead_page 0x200000 x addr hwf1 hlen rfl hlo hx.1
    · rw [if_neg (by omega)]
      exact State.arrayByte_congr rfl rfl rfl rfl rfl (fun _ => rfl) fun h h' => absurd ⟨h, h'⟩ hx
  · rw [State.programPage_outside htop (arrayPlace_page_none page_base_place.symm hplace) (markerPlace_page_none page_base_place.symm hmarker),
      if_pos (fullArray_of (lc := (s.irLoaded .array []).life.shadow) h1 h2 hfull), hbytes]
    by_cases hx : addr / 256 = x / 256
    · rw [if_pos hx, State.arrayByte_pageStored_same hlen (by omega) (arrayPlace_page_none hx hplace)]
      congr 1
      omega
    · rw [if_neg hx]
      exact (State.arrayByte_pageStored_other (s := s.irLoaded .array []) hlen (by omega) (Nat.mul_mod_left _ _) hshare).trans
        (State.arrayByte_congr rfl rfl rfl rfl rfl (fun _ => rfl) fun _ _ => rfl)

end Sys2Proof.Machine
end

section
/-! PROOFS. The instructions of the test access port (O59). -/

namespace Sys2Proof.Machine

variable {s t u : State} {p : PolId}

/-! ### The newest copy of an item -/

/-- A copy of an item is no newer than the newest one (R552). -/
theorem newestCopy_newest {item : Nat} {l : List ItemCopy} {d : ItemCopy} (hd : d ∈ l) (hi : d.item = item) :
    ∃ c, newestCopy item l = some c ∧ d.gen ≤ c.gen := by
  have hstep : ∀ (best : Option ItemCopy) (x : ItemCopy), (∀ b, best = some b → ∃ c, betterCopy item best x = some c ∧ b.gen ≤ c.gen) ∧
      (x.item = item → ∃ c, betterCopy item best x = some c ∧ x.gen ≤ c.gen) := fun best x => by
    unfold betterCopy
    refine ⟨fun b hb => ?_, fun hx => ?_⟩
    · subst hb
      split
      · exact ⟨b, rfl, le_rfl⟩
      · dsimp only
        split
        · exact ⟨x, rfl, by omega⟩
        · exact ⟨b, rfl, le_rfl⟩
    · rw [if_neg (not_not.mpr hx)]
      cases best with
      | none => exact ⟨x, rfl, le_rfl⟩
      | some b =>
        dsimp only
        split
        · exact ⟨x, rfl, le_rfl⟩
        · exact ⟨b, rfl, by omega⟩
  have hkeep : ∀ (l : List ItemCopy) (best : Option ItemCopy) (n : Nat), (∃ b, best = some b ∧ n ≤ b.gen) →
      ∃ c, l.foldl (betterCopy item) best = some c ∧ n ≤ c.gen := by
    intro l
    induction l with
    | nil => exact fun _ _ h => h
    | cons x l ih =>
      rintro best n ⟨b, hb, hn⟩
      obtain ⟨c, hc, hle⟩ := (hstep best x).1 b hb
      exact ih _ n ⟨c, hc, hn.trans hle⟩
  have key : ∀ (l : List ItemCopy) (best : Option ItemCopy), d ∈ l → ∃ c, l.foldl (betterCopy item) best = some c ∧ d.gen ≤ c.gen := by
    intro l
    induction l with
    | nil => exact fun _ h => nomatch h
    | cons x l ih =>
      intro best hm
      rcases List.mem_cons.mp hm with rfl | hm
      · exact hkeep l _ _ ((hstep best d).2 hi)
      · exact ih _ hm
  exact key l none hd

/-- The GEN of an item's next write (R552). -/
def nextGen (item : Nat) (l : List ItemCopy) : Nat := (newestCopy item l).elim 1 (fun c => c.gen + 1)

theorem gen_lt_nextGen {item : Nat} {l : List ItemCopy} {d : ItemCopy} (hd : d ∈ l) (hi : d.item = item) : d.gen < nextGen item l := by
  obtain ⟨c, hc, hle⟩ := newestCopy_newest hd hi
  unfold nextGen
  rw [hc]
  exact Nat.lt_succ_of_le hle

theorem mem_putCopy {c d : ItemCopy} {l : List ItemCopy} : d ∈ putCopy c l ↔ d = c ∨ (d ∈ l ∧ ¬ (d.item = c.item ∧ d.slot = c.slot)) := by
  unfold putCopy
  rw [List.mem_append, List.mem_filter, List.mem_singleton, Bool.or_eq_true, decide_eq_true_eq, decide_eq_true_eq, ← not_and_or, or_comm]

/-- A copy slot written with the next GEN is the newest. -/
theorem newestCopy_putCopy {c : ItemCopy} {l : List ItemCopy} (h : c.gen = nextGen c.item l) : newestCopy c.item (putCopy c l) = some c :=
  newestCopy_of_newest (mem_putCopy.mpr (.inl rfl)) rfl fun d hd hi hne => by
    rw [h]
    exact gen_lt_nextGen ((mem_putCopy.mp hd).resolve_left hne).1 hi

/-! ### The instructions -/

theorem markerPlace_low {x : Nat} (h : x < 0x120000) : markerPlace x = none := by
  unfold markerPlace
  rw [if_neg (by omega), if_neg (by omega), if_neg (by omega)]

theorem arrayPlace_own {x : Nat} (h : 0x0C0000 ≤ x) (h' : x < 0x0E0000) : arrayPlace x = none := by
  unfold arrayPlace
  rw [if_neg (by omega), if_neg (by omega), if_neg (by omega), if_neg (by omega), if_neg (by omega)]

/-- What an access by ARRAY does on the state with its instruction loaded, NVM being ON. -/
theorem execJtagArray_programPage_low {addr : Nat} {bs : List Byte} (hw : s.tapWorks = true) (h1 : s.life.shadow ≠ .scrapped) (h2 : s.life.shadow ≠ .field)
    (hd : s.domOn 11 = true) (hlow : s.holdup.low = true) : exec (.jtagArray (.programPage addr bs)) s = .next (s.irLoaded .array []) := by
  refine congrArg Host.Outcome.next ((State.jtagDo_acts hw (jtagActs_access _ h1 h2).2).trans ?_)
  show (if (!s.domOn 11) = true then s.irLoaded .array [] else if s.holdup.low = true then s.irLoaded .array [] else (s.irLoaded .array []).programPage addr bs) = _
  rw [if_neg (by rw [hd]; decide), if_pos hlow]

/-- A copy slot of an item that ARRAY programs, in the states that permit it while the holdup state is HOLDUP_OK. -/
def State.copyProgrammed (v : ItemValue) (slot : Nat) (s : State) : State :=
  if ((s.life.shadow == .manufacture || s.life.shadow == .ret) && !s.holdup.low) = true then
    { s.irLoaded .array [] with arr := s.arr.programCopy v slot } else s.irLoaded .array []

/-- An access whose effect is written out, while the port works and ARRAY is permitted and NVM is ON. -/
theorem execJtagArray_copy {a : ArrayAccess} {v : ItemValue} {slot : Nat} (hw : s.tapWorks = true) (h1 : s.life.shadow ≠ .scrapped) (h2 : s.life.shadow ≠ .field)
    (hd : s.domOn 11 = true)
    (ha : exec (.jtagArray a) s = .next (s.jtagDo .array [] fun s => if (!s.domOn 11) = true then s else
      if ((s.life.shadow == .manufacture || s.life.shadow == .ret) && !s.holdup.low) = true then { s with arr := s.arr.programCopy v slot } else s)) :
    exec (.jtagArray a) s = .next (s.copyProgrammed v slot) := by
  refine ha.trans (congrArg Host.Outcome.next ((State.jtagDo_acts hw (jtagActs_access _ h1 h2).2).trans (if_neg ?_)))
  show ¬ (!s.domOn 11) = true
  rw [hd]
  decide

theorem State.copyProgrammed_done {v : ItemValue} {slot : Nat} (h1 : s.life.shadow ≠ .scrapped) (h2 : s.life.shadow ≠ .field) (h3 : s.life.shadow ≠ .commission)
    (hlow : s.holdup.low = false) : s.copyProgrammed v slot = { s.irLoaded .array [] with arr := s.arr.programCopy v slot } :=
  if_pos (by rw [fullArray_of h1 h2 h3, hlow]; rfl)

theorem State.copyProgrammed_not {v : ItemValue} {slot : Nat} (h : s.life.shadow = .commission ∨ s.holdup.low = true) :
    s.copyProgrammed v slot = s.irLoaded .array [] := by
  refine if_neg ?_
  rcases h with h | h
  · rw [h]
    exact Bool.false_ne_true
  · rw [h, Bool.not_true, Bool.and_false]
    exact Bool.false_ne_true

/-- DEBUG writes a byte of TCM. -/
theorem execJtagDebug_eq {a : DebugAction} (hw : s.tapWorks = true) (h1 : s.life.shadow ≠ .scrapped) (h2 : s.life.shadow ≠ .field) (f : State → State)
    (ha : exec (.jtagDebug a) s = .next (s.jtagDo .debug [] f)) : exec (.jtagDebug a) s = .next (f (s.irLoaded .debug [])) :=
  ha.trans (congrArg Host.Outcome.next (State.jtagDo_acts hw (jtagActs_access _ h1 h2).1))

/-- A byte of TCM that DEBUG has written reads back (R611). -/
theorem execJtagDebug_readTcm {a : Nat} {b : Byte} (hw : s.tapWorks = true) (h1 : s.life.shadow ≠ .scrapped) (h2 : s.life.shadow ≠ .field) (ha : a < 65536)
    (hb : storedAt s.jtag.tcm a = some b) : ∃ u, exec (.jtagDebug (.readTcm a)) s = .next u ∧ u.jtag.dataOut = [b] := by
  unfold storedAt at hb
  rw [Option.map_eq_some_iff] at hb
  obtain ⟨c, hc, rfl⟩ := hb
  refine ⟨_, execJtagDebug_eq hw h1 h2 _ rfl, ?_⟩
  refine (congrArg (fun v : State => v.jtag.dataOut) (if_neg (by omega))).trans ?_
  split
  · next d hd =>
    rw [show (s.irLoaded .debug []).jtag.tcm = s.jtag.tcm from rfl, hc] at hd
    cases hd
    rfl
  · next hd =>
    rw [show (s.irLoaded .debug []).jtag.tcm = s.jtag.tcm from rfl, hc] at hd
    cases hd

/-! ### RELEASE -/

/-- A held command that a release voids (R332). -/
def Serving.voidedBy (v : Serving) : Serving :=
  if v.replied = true then v
  else { v with rule := .voided, answer := some { status := .voided, effectFrame := none, results := [] }, ready := true }

/-- The owner after RELEASE: what was on its way, and a held command VOIDED (R611). -/
def State.ownerReleased (s : State) : State :=
  ({ (s.irLoaded .release []).voidHeld owner with
      ka := if s.ka.any (fun k => k.pol = owner) then none else s.ka
      wheel := s.wheel.ownerless } : State).modPol owner (fun q => { q.emptied with queue := [] })

/-- The compare channels of the owner cleared (R116). -/
def State.channelsReleased (s : State) : State := (s.modTcmp 0 (fun _ => Tcmp.zero)).modTcmp 1 (fun _ => Tcmp.zero)

theorem execJtagRelease_eq (hw : s.tapWorks = true) (hc : s.life.shadow = .commission) :
    exec .jtagRelease s = .next ((s.ownerReleased.channelsReleased.storePolder owner).storeSeqs owner) :=
  congrArg Host.Outcome.next (State.jtagDo_acts hw (by rw [hc]; rfl))

theorem State.ownerReleased_owner (s : State) : s.ownerReleased.pol owner = { Polder.none with
    intake := (s.pol owner).intake, replyQ := (s.pol owner).replyQ, dlv := (s.pol owner).dlv, path := (s.pol owner).path,
    sR := (s.pol owner).sR, serving := (s.pol owner).serving.map Serving.voidedBy } := by
  have hvoid : ((s.irLoaded .release []).voidHeld owner).pol owner = { s.pol owner with serving := (s.pol owner).serving.map Serving.voidedBy } :=
    State.pol_modPol_self _
  refine (State.pol_modPol_self _).trans ?_
  show { (((s.irLoaded .release []).voidHeld owner).pol owner).emptied with queue := [] } = _
  rw [hvoid]
  rfl

theorem State.ownerReleased_other {q : PolId} (h : q ≠ owner) : s.ownerReleased.pol q = s.pol q := by
  have hvoid : ((s.irLoaded .release []).voidHeld owner).pol q = s.pol q := State.pol_modPol_ne _ h
  exact (State.pol_modPol_ne _ h).trans hvoid

/-- A released node asks for its owner's items to be emptied (R611). -/
theorem State.storeReleased (ho : (s.pol owner).state = .absent) (h : s.arr.writes = []) : ((s.storePolder owner).storeSeqs owner).arr = { s.arr with
    writes := [{ value := .stored owner none, pol := owner, pagesLeft := 2, started := false }, { value := .seqs owner none, pol := owner, pagesLeft := 1, started := false }] } := by
  have hlives : s.lives owner = false := by
    unfold State.lives
    rw [ho]
    rfl
  have h1 : s.storePolder owner = s.requestItem owner (.stored owner none) := by
    unfold State.storePolder
    rw [hlives, ho]
    rfl
  have h2 : (s.storePolder owner).storeSeqs owner = (s.requestItem owner (.stored owner none)).requestItem owner (.seqs owner none) := by
    unfold State.storeSeqs
    rw [h1, show (s.requestItem owner (.stored owner none)).lives owner = false from hlives]
    rfl
  rw [h2]
  unfold State.requestItem
  rw [h]
  rfl

/-- A march test changes the blocks it re-initialises, and no result of theirs (R616, R622). -/
theorem execJtagMbist_eq (blocks failed : BitVec 16) (hw : s.tapWorks = true) (h : s.life.shadow = .manufacture ∨ s.life.shadow = .ret) :
    exec (.jtagMbist blocks failed) s = .next ((blocksOf blocks).foldl (fun s b => s.reinit b)
      { s.irLoaded .mbist (leBytes 2 (failed &&& blocks &&& 0x0fff).toNat) with
        bist := { s.bist with unusable := s.bist.unusable ||| (failed &&& blocks &&& 0x0fff) } }) :=
  congrArg Host.Outcome.next (State.jtagDo_acts hw (by rcases h with h | h <;> rw [h] <;> rfl))

/-- BYPASS is selected in place of an instruction (R612). -/
def State.bypassSelected (s : State) : Host.Outcome State Fault Refusal := .next { s with jtag := { s.jtag with ir := .bypass, dataOut := [0] } }

theorem tapWorks_when : ∀ s : State, s.tapWorks = (s.power.aonReady && !s.power.resetLow && !s.power.vioLost) :=
  fun s => rfl

theorem tap_held : ∀ s : State, s.tapWorks = false → exec .jtagIdcode s = .next s ∧ exec .jtagScan s = .next s ∧ exec .jtagRelease s = .next s ∧
    (∀ v, exec (.jtagExtest v) s = .next s ∧ exec (.jtagSamplePreload v) s = .next s) ∧ (∀ a, exec (.jtagDebug a) s = .next s) ∧
    (∀ a, exec (.jtagArray a) s = .next s) ∧ (∀ x y, exec (.jtagMbist x y) s = .next s) ∧ (∀ c, exec (.jtagBypass c) s = .next s) := by
  intro s hw
  have hreset : ∀ {ir : JtagIr} {out : List Byte} {act : State → State}, s.jtagDo ir out act = s := State.jtagDo_reset hw
  exact ⟨congrArg Host.Outcome.next hreset, congrArg Host.Outcome.next hreset, congrArg Host.Outcome.next hreset,
    fun v => ⟨congrArg Host.Outcome.next hreset, congrArg Host.Outcome.next hreset⟩, fun a => congrArg Host.Outcome.next hreset,
    fun a => congrArg Host.Outcome.next hreset, fun x y => congrArg Host.Outcome.next hreset, fun c => congrArg Host.Outcome.next hreset⟩

theorem idcode_reads : ∀ s : State, s.tapWorks = true → exec .jtagIdcode s = .next { s with jtag := { s.jtag with ir := .idcode, dataOut := [0xCB, 0x25, 0x61, 0x11] } } := by
  intro s hw
  exact congrArg Host.Outcome.next (State.jtagDo_acts hw (jtagActs_idcode ..))

theorem bypass_selected : ∀ (s : State) (c : BitVec 5), s.tapWorks = true → exec (.jtagBypass c) s = s.bypassSelected := by
  intro s c hw
  exact congrArg Host.Outcome.next (State.jtagDo_acts hw (jtagActs_bypass ..))

theorem trst_clears : ∀ s : State, exec .trstNAssert s = .next { s with jtag := { s.jtag with ir := .idcode, boundary := 0, dataOut := [] } } :=
  fun s => rfl

theorem boundary_shifts : ∀ (s : State) (v : BitVec 99), s.tapWorks = true → s.life.shadow ≠ .scrapped →
    exec (.jtagExtest v) s = .next { s with
      jtag := { s.jtag with ir := .extest, boundary := v, dataOut := leBytes 13 v.toNat },
      wheel := { s.wheel with slot := s.wheel.slot.map (fun x => { x with pixCut := some (x.pixCut.getD x.reads.length) }) } } ∧
    exec (.jtagSamplePreload v) s = .next { s with jtag := { s.jtag with ir := .samplePreload, boundary := v, dataOut := leBytes 13 v.toNat } } := by
  refine fun s v hw h1 => ⟨?_, ?_⟩
  · exact congrArg Host.Outcome.next (State.jtagDo_acts hw (jtagActs_boundary _ h1).1)
  · exact congrArg Host.Outcome.next (State.jtagDo_acts hw (jtagActs_boundary _ h1).2)

theorem tap_bypassed : ∀ s : State, s.tapWorks = true →
    (s.life.shadow = .scrapped → (∀ v, exec (.jtagExtest v) s = s.bypassSelected ∧ exec (.jtagSamplePreload v) s = s.bypassSelected)) ∧
    (s.life.shadow = .scrapped ∨ s.life.shadow = .field → (∀ a, exec (.jtagDebug a) s = s.bypassSelected) ∧ (∀ a, exec (.jtagArray a) s = s.bypassSelected)) ∧
    (s.life.shadow ≠ .manufacture → s.life.shadow ≠ .ret → (∀ x y, exec (.jtagMbist x y) s = s.bypassSelected) ∧ exec .jtagScan s = s.bypassSelected) ∧
    (s.life.shadow = .ret → s.life.cleared = false → exec .jtagScan s = s.bypassSelected) ∧
    (s.life.shadow = .manufacture ∨ (s.life.shadow = .ret ∧ s.life.cleared = true) →
      exec .jtagScan s = .next { s with jtag := { s.jtag with ir := .scan, dataOut := [] } }) ∧
    (s.life.shadow ≠ .commission → exec .jtagRelease s = s.bypassSelected) := by
  refine fun s hw => ⟨fun h => ?_, fun h => ?_, fun h h' => ?_, fun h h' => ?_, fun h => ?_, fun h => ?_⟩
  · have hno : ∀ ir, ir = .extest ∨ ir = .samplePreload → jtagActs ir s.life.shadow s.life.cleared = false := by
      rw [h]
      rintro ir (rfl | rfl) <;> rfl
    exact fun v => ⟨congrArg Host.Outcome.next (State.jtagDo_bypass hw (hno _ (.inl rfl))), congrArg Host.Outcome.next (State.jtagDo_bypass hw (hno _ (.inr rfl)))⟩
  · exact ⟨fun a => congrArg Host.Outcome.next (State.jtagDo_bypass hw (jtagActs_no_access _ h).1),
      fun a => congrArg Host.Outcome.next (State.jtagDo_bypass hw (jtagActs_no_access _ h).2)⟩
  · exact ⟨fun x y => congrArg Host.Outcome.next (State.jtagDo_bypass hw (jtagActs_no_test _ h h').1),
      congrArg Host.Outcome.next (State.jtagDo_bypass hw (jtagActs_no_test _ h h').2)⟩
  · exact congrArg Host.Outcome.next (State.jtagDo_bypass hw (by rw [h, h']; rfl))
  · refine congrArg Host.Outcome.next (State.jtagDo_acts hw ?_)
    rcases h with h | ⟨h, h'⟩
    · rw [h]; rfl
    · rw [h, h']; rfl
  · exact congrArg Host.Outcome.next (State.jtagDo_bypass hw (jtagActs_no_release _ h))

theorem release_ends : ∀ s : State, s.tapWorks = true → s.life.shadow = .commission → ∃ t, exec .jtagRelease s = .next t ∧
    t.pol owner = { Polder.none with
      intake := (s.pol owner).intake, replyQ := (s.pol owner).replyQ, dlv := (s.pol owner).dlv, path := (s.pol owner).path,
      sR := (s.pol owner).sR, serving := (s.pol owner).serving.map (fun v => if v.replied = true then v
        else { v with rule := .voided, answer := some { status := .voided, effectFrame := none, results := [] }, ready := true }) } ∧
    (∀ p, p ≠ owner → t.pol p = s.pol p) ∧ t.jtag.ir = .release ∧ t.fab = s.fab ∧
    t.clock = { s.clock with tcmp := (s.clock.tcmp.set 0 Tcmp.zero).set 1 Tcmp.zero } ∧ (∀ k, s.ka = some k → t.ka = if k.pol = owner then none else some k) ∧
    t.wheel = { s.wheel with holders := t.wheel.holders, slot := t.wheel.slot, fork := t.wheel.fork, enclave := t.wheel.enclave } ∧
    (∀ i : Fin 16, t.wheel.holders[i] = if s.wheel.holders[i] = some owner then none else s.wheel.holders[i]) ∧
    (s.arr.writes = [] → t.arr = { s.arr with writes := [{ value := .stored owner none, pol := owner, pagesLeft := 2, started := false },
      { value := .seqs owner none, pol := owner, pagesLeft := 1, started := false }] }) := by
  intro s hw hc
  refine ⟨_, execJtagRelease_eq hw hc, s.ownerReleased_owner, fun p hp => State.ownerReleased_other hp, rfl, rfl, rfl, fun k hk => ?_, rfl, fun i => ?_, fun hw => ?_⟩
  · show (if s.ka.any _ = true then none else s.ka) = _
    rw [hk]
    show (if decide (k.pol = owner) = true then none else some k) = _
    simp only [decide_eq_true_eq]
  · show (s.wheel.holders.map _)[i] = _
    exact Vector.getElem_map ..
  · exact State.storeReleased (s := s.ownerReleased.channelsReleased) (by show (s.ownerReleased.pol owner).state = _; rw [s.ownerReleased_owner]; rfl) hw

theorem debug_acts : ∀ s : State, s.tapWorks = true → s.life.shadow ≠ .scrapped → s.life.shadow ≠ .field →
    let dbg : List Byte → State := fun out => { s with jtag := { s.jtag with ir := .debug, dataOut := out } }
    exec (.jtagDebug .halt) s = .next { dbg [] with jtag := { (dbg []).jtag with halted := s.power.seqRunning } } ∧
    exec (.jtagDebug .step) s = .next (dbg []) ∧
    (∃ t, exec (.jtagDebug .resume) s = .next t ∧ t.jtag =
      { s.jtag with ir := .debug, dataOut := [], halted := false, tcm := s.jtag.tcm.filter (fun c => decide (c.1 < s.arr.tcmImage.length)) }) ∧
    (∀ (a : Nat) (b : Byte), a < 65536 → ∃ t u, exec (.jtagDebug (.writeTcm a b)) s = .next t ∧ exec (.jtagDebug (.readTcm a)) t = .next u ∧
      u.jtag.dataOut = [b] ∧ t = { dbg [] with jtag := t.jtag }) ∧
    (∀ (a : Nat), 65536 ≤ a → exec (.jtagDebug (.readTcm a)) s = .next (dbg []) ∧ ∀ b, exec (.jtagDebug (.writeTcm a b)) s = .next (dbg [])) := by
  intro s hw h1 h2 dbg
  refine ⟨execJtagDebug_eq hw h1 h2 _ rfl, execJtagDebug_eq hw h1 h2 _ rfl, ⟨_, execJtagDebug_eq hw h1 h2 _ rfl, ?_⟩, fun a b ha => ?_, fun a ha => ⟨?_, fun b => ?_⟩⟩
  · exact (State.issueAll_only _).jtag.resolve_left Bool.false_ne_true
  · have hwrite : exec (.jtagDebug (.writeTcm a b)) s = .next { dbg [] with jtag := { (dbg []).jtag with tcm := tcmWrite s.jtag.tcm a b } } :=
      (execJtagDebug_eq hw h1 h2 _ rfl).trans (congrArg Host.Outcome.next (if_neg (by omega)))
    obtain ⟨u, hu, hout⟩ := execJtagDebug_readTcm (s := { dbg [] with jtag := { (dbg []).jtag with tcm := tcmWrite s.jtag.tcm a b } }) hw h1 h2 ha
      ((storedAt_tcmWrite ..).trans (if_pos rfl))
    exact ⟨_, u, hwrite, hu, hout, rfl⟩
  · exact (execJtagDebug_eq hw h1 h2 _ rfl).trans (congrArg Host.Outcome.next (if_pos ha))
  · exact (execJtagDebug_eq hw h1 h2 _ rfl).trans (congrArg Host.Outcome.next (if_pos ha))

theorem array_acts : ∀ s : State, s.tapWorks = true → s.life.shadow ≠ .scrapped → s.life.shadow ≠ .field → s.domOn 11 = true →
    let st : State := { s with jtag := { s.jtag with ir := .array, dataOut := [] } }
    (∀ addr : Nat, exec (.jtagArray (.readPage addr)) s =
      .next { s with jtag := { s.jtag with ir := .array, dataOut := (List.range 256).map (fun i => s.arrayByte (addr / 256 * 256 + i)) } }) ∧
    (s.holdup.low = true → (∀ (addr : Nat) (bs : List Byte), exec (.jtagArray (.programPage addr bs)) s = .next st) ∧
      (∀ i k sh m r b c kp, exec (.jtagArray (.programMfg i k sh m r b c kp)) s = .next st) ∧
      ∀ i codes a b, exec (.jtagArray (.programTrimTab i codes a b)) s = .next st) ∧
    (∀ (addr : Nat) (bs : List Byte), s.holdup.low = false → addr < 0x0C0000 → exec (.jtagArray (.programPage addr bs)) s = .next { st with arr := { s.arr with fw0 := { s.arr.fw0 with
      content := cellsWriteList s.arr.fw0.content (addr / 256 * 256) (padTo 256 (bs.take 256)) } } }) ∧
    (∀ (addr : Nat) (bs : List Byte), 0x400000 ≤ addr → exec (.jtagArray (.programPage addr bs)) s = .next st) ∧
    (∀ (addr : Nat) (bs : List Byte), s.holdup.low = false → s.life.shadow = .commission → 0x0E0000 ≤ addr → addr < 0x120000 →
      exec (.jtagArray (.programPage addr bs)) s = .next st) ∧
    (∀ (addr : Nat) (bs : List Byte), s.holdup.low = false → s.life.shadow ≠ .commission → 0x0E0000 ≤ addr → addr < 0x120000 →
      exec (.jtagArray (.programPage addr bs)) s = .next { st with arr := { s.arr with
        logCells := cellsWriteList s.arr.logCells (addr / 256 * 256 - 0x0E0000) (padTo 256 (bs.take 256)) } }) ∧
    (∀ (addr : Nat) (bs : List Byte), s.holdup.low = false → s.life.shadow = .commission → 0x0C0000 ≤ addr → addr < 0x0E0000 →
      exec (.jtagArray (.programPage addr bs)) s = .next st) ∧
    (∀ (addr : Nat) (bs : List Byte), s.holdup.low = false → s.life.shadow ≠ .commission → 0x0C0000 ≤ addr → addr < 0x0E0000 →
      ∃ t, exec (.jtagArray (.programPage addr bs)) s = .next t ∧ t = { st with arr := { s.arr with copies := t.arr.copies, cells := t.arr.cells } } ∧
        t.arr.copies = s.arr.copies.filter (fun c => !c.covers (addr / 256 * 256)) ∧
        (∀ i, i < 256 → t.arrayByte (addr / 256 * 256 + i) = (padTo 256 (bs.take 256)).getD i 0)) ∧
    (s.holdup.low = false → s.life.shadow ≠ .commission → ∀ (i : Fin 2),
      (∀ k sh m r b c kp, ∃ t, exec (.jtagArray (.programMfg i k sh m r b c kp)) s = .next t ∧ t = { st with arr := { s.arr with copies := t.arr.copies } } ∧
        newestCopy 1 t.arr.copies = some {
          item := 1, slot := i, gen := (newestCopy 1 s.arr.copies).elim 1 (fun x => x.gen + 1),
          value := .mfg { valid := true, kLin := k, shading := sh, matrix := m, refTrims := r, biasTrims := b, certificate := c, hasKeyPair := kp } }) ∧
      (∀ codes a b, ∃ t, exec (.jtagArray (.programTrimTab i codes a b)) s = .next t ∧ t = { st with arr := { s.arr with copies := t.arr.copies } } ∧
        newestCopy 2 t.arr.copies = some {
          item := 2, slot := i, gen := (newestCopy 2 s.arr.copies).elim 1 (fun x => x.gen + 1),
          value := .trimTab { trims := codes.map (fun c => { offset := c.1, gain := c.2 }), slopeA := a, slopeB := b } })) ∧
    (s.life.shadow = .commission → (∀ i k sh m r b c kp, exec (.jtagArray (.programMfg i k sh m r b c kp)) s = .next st) ∧
      ∀ i codes a b, exec (.jtagArray (.programTrimTab i codes a b)) s = .next st) := by
  intro s hw h1 h2 hd st
  have hmfg : ∀ i k sh m r b c kp, exec (.jtagArray (.programMfg i k sh m r b c kp)) s = .next (s.copyProgrammed (.mfg { valid := true, kLin := k, shading := sh, matrix := m, refTrims := r, biasTrims := b, certificate := c, hasKeyPair := kp }) i.val) := fun i k sh m r b c kp => execJtagArray_copy hw h1 h2 hd rfl
  have htrim : ∀ i codes a b, exec (.jtagArray (.programTrimTab i codes a b)) s = .next (s.copyProgrammed (.trimTab { trims := codes.map (fun c => { offset := c.1, gain := c.2 }), slopeA := a, slopeB := b }) i.val) := fun i codes a b => execJtagArray_copy hw h1 h2 hd rfl
  have hpage : ∀ addr bs, s.holdup.low = false → exec (.jtagArray (.programPage addr bs)) s = .next (st.programPage addr bs) := fun addr bs hlow =>
    execJtagArray_programPage hw h1 h2 hd hlow
  have hno : s.life.shadow = .commission → ¬ (st.life.shadow == .manufacture || st.life.shadow == .ret) = true := fun hc => by
    show ¬ (s.life.shadow == .manufacture || s.life.shadow == .ret) = true
    rw [hc]
    decide
  have hfull : s.life.shadow ≠ .commission → (st.life.shadow == .manufacture || st.life.shadow == .ret) = true := fullArray_of h1 h2
  refine ⟨fun addr => ?_, fun hlow => ⟨fun addr bs => ?_, fun i k sh m r b c kp => ?_, fun i codes a b => ?_⟩, fun addr bs hlow ha => ?_, fun addr bs ha => ?_,
    fun addr bs hlow hc hl hh => ?_, fun addr bs hlow hc hl hh => ?_, fun addr bs hlow hc hl hh => ?_, fun addr bs hlow hc hl hh => ?_,
    fun hlow hc i => ⟨fun k sh m r b c kp => ?_, fun codes a b => ?_⟩, fun hc => ⟨fun i k sh m r b c kp => ?_, fun i codes a b => ?_⟩⟩
  · refine congrArg Host.Outcome.next ((State.jtagDo_acts hw (jtagActs_access _ h1 h2).2).trans (if_neg ?_))
    show ¬ (!s.domOn 11) = true
    rw [hd]
    decide
  · exact execJtagArray_programPage_low hw h1 h2 hd hlow
  · rw [hmfg, State.copyProgrammed_not (.inr hlow)]; rfl
  · rw [htrim, State.copyProgrammed_not (.inr hlow)]; rfl
  · rw [hpage _ _ hlow, State.programPage_fw0 (by omega) (arrayPlace_fw0 (by omega))]
    rfl
  · cases hlow : s.holdup.low
    · rw [hpage _ _ hlow, State.programPage_beyond ha]
    · exact execJtagArray_programPage_low hw h1 h2 hd hlow
  · rw [hpage _ _ hlow, State.programPage_log (by omega) (arrayPlace_log (by omega) (by omega)) (markerPlace_low (by omega)), if_neg (hno hc)]
  · rw [hpage _ _ hlow, State.programPage_log (by omega) (arrayPlace_log (by omega) (by omega)) (markerPlace_low (by omega)), if_pos (hfull hc)]
    rfl
  · rw [hpage _ _ hlow, State.programPage_outside (by omega) (arrayPlace_own (by omega) (by omega)) (markerPlace_low (by omega)), if_neg (hno hc)]
  · refine ⟨_, hpage _ _ hlow, ?_⟩
    rw [State.programPage_outside (by omega) (arrayPlace_own (by omega) (by omega)) (markerPlace_low (by omega)), if_pos (hfull hc)]
    refine ⟨rfl, rfl, fun i hi => ?_⟩
    rw [State.arrayByte_pageStored_same (pageBytes_length bs) (by omega) (arrayPlace_own (by omega) (by omega)), Nat.add_sub_cancel_left]
    rfl
  · rw [hmfg, State.copyProgrammed_done h1 h2 hc hlow]
    exact ⟨_, rfl, rfl, newestCopy_putCopy (c := { item := 1, slot := _, gen := _, value := _ }) rfl⟩
  · rw [htrim, State.copyProgrammed_done h1 h2 hc hlow]
    exact ⟨_, rfl, rfl, newestCopy_putCopy (c := { item := 2, slot := _, gen := _, value := _ }) rfl⟩
  · rw [hmfg, State.copyProgrammed_not (.inl hc)]; rfl
  · rw [htrim, State.copyProgrammed_not (.inl hc)]; rfl

theorem array_off : ∀ (s : State) (a : ArrayAccess), s.tapWorks = true → s.life.shadow ≠ .scrapped → s.life.shadow ≠ .field → s.domOn 11 = false →
    exec (.jtagArray a) s = .next { s with jtag := { s.jtag with ir := .array, dataOut := [] } } := by
  intro s a hw h1 h2 hd
  refine congrArg Host.Outcome.next ((State.jtagDo_acts hw (jtagActs_access _ h1 h2).2).trans (if_pos ?_))
  show (!s.domOn 11) = true
  rw [hd]
  rfl

theorem mbist_runs : ∀ (s : State) (blocks failed : BitVec 16), s.tapWorks = true → s.life.shadow = .manufacture ∨ s.life.shadow = .ret →
    ∃ t, exec (.jtagMbist blocks failed) s = .next t ∧ t.bist = { s.bist with unusable := s.bist.unusable ||| (failed &&& blocks &&& 0x0fff) } ∧
      t.jtag = { s.jtag with ir := .mbist, dataOut := leBytes 2 (failed &&& blocks &&& 0x0fff).toNat } ∧ t.clock = s.clock ∧ t.arr = s.arr := by
  intro s blocks failed hw h
  have ho := Only.foldl (T := { cols := true, pols := true, host := true, lineA := true, lineB := true }) (fun s b => State.reinit b s) (blocksOf blocks)
    (Only.refl _ { s.irLoaded .mbist (leBytes 2 (failed &&& blocks &&& 0x0fff).toNat) with
      bist := { s.bist with unusable := s.bist.unusable ||| (failed &&& blocks &&& 0x0fff) } }) fun u b => State.reinit_only b u
  exact ⟨_, execJtagMbist_eq blocks failed hw h, ho.bist.resolve_left Bool.false_ne_true, ho.jtag.resolve_left Bool.false_ne_true,
    ho.clock.resolve_left Bool.false_ne_true, ho.arr.resolve_left Bool.false_ne_true⟩

/-- Settles O59: each instruction acts where the lifecycle state permits it, and is BYPASS elsewhere. -/
theorem jtagEvents : Obligations.JtagEvents :=
  ⟨tapWorks_when, tap_held, idcode_reads, bypass_selected, trst_clears, boundary_shifts, tap_bypassed, release_ends, debug_acts, array_acts,
   array_off, mbist_runs⟩

end Sys2Proof.Machine
end

section
/-! PROOFS. Item writes, page programs, leases and the log page (O57). -/

namespace Sys2Proof.Machine

variable {s t u : State} {p : PolId}

/-! ### A held command answered at once -/

/-- While the sequencer runs and the reply queue has room, the answer of a held command leaves (R352, R354). -/
theorem State.answerHeld_sent {v : Serving} (a : Answer) (hv : (s.pol p).serving = some v) (hr : (s.pol p).replyQ.length < 8) (hs : s.sequencing = true) :
    ((s.answerHeld p a).pol p).serving = none ∧
      (∃ r, ((s.answerHeld p a).pol p).replyQ = (s.pol p).replyQ ++ [r] ∧ r.status = a.status ∧ r.esn = v.entry.esn) ∧ (s.answerHeld p a).arr = s.arr := by
  have heq : s.answerHeld p a = (s.deliver p v.entry a).modPol p (fun q => { q with serving := none }) := by
    unfold State.answerHeld
    rw [hv]
    exact if_pos (by rw [hs, decide_eq_true hr]; rfl)
  have hpol : (s.answerHeld p a).pol p = { (s.deliver p v.entry a).pol p with serving := none } := by
    rw [heq]
    exact State.pol_modPol_self _
  have hdel : ((s.deliver p v.entry a).pol p).replyQ = (s.pol p).replyQ ++ [replyOf p v.entry a s] :=
    congrArg Polder.replyQ (State.pol_modPol_self (s := s) (p := p) _)
  rw [hpol]
  exact ⟨rfl, ⟨_, hdel, rfl, rfl⟩, by rw [heq]; rfl⟩

/-! ### The write of an item -/

theorem State.itemWriteStart_none (h : s.arrayServes = false ∨ s.holdup.low = true ∨ (p, PageJob.item) ∈ s.arr.jobs) :
    (!s.arrayServes || s.holdup.low || s.nvmLeaving || (s.arr.jobs ++ s.arr.heldJobs).contains (p, .item)) = true := by
  rcases h with h | h | h
  · rw [h]; rfl
  · rw [h, Bool.or_true]; rfl
  · rw [show (s.arr.jobs ++ s.arr.heldJobs).contains (p, .item) = true from List.contains_iff_mem.mpr (List.mem_append_left _ h), Bool.or_true]

theorem State.nvmLeaving_none (h : s.power.entry = none) : s.nvmLeaving = false := by
  unfold State.nvmLeaving
  rw [h]

/-- The first write waits where none of its polder is started: it goes on where the spacing allows (R549, R554). -/
theorem State.nextWrite_first {w : ItemWrite} {rest : List ItemWrite} (h : s.arr.writes = w :: rest) (hp : w.pol = p) (hw : w.started = false)
    (hrest : ∀ x ∈ rest, x.started = false ∨ x.pol ≠ p) :
    s.nextWrite p = if s.itemSpaced w.value.item = true then some w else rest.find? (fun w => w.pol = p && s.itemSpaced w.value.item) := by
  have hnone : s.arr.writes.find? (fun w => w.pol = p && w.started) = none := by
    rw [h, List.find?_eq_none]
    intro x hx hc
    rw [Bool.and_eq_true, decide_eq_true_eq] at hc
    rcases List.mem_cons.mp hx with rfl | hx
    · rw [hw] at hc
      exact absurd hc.2 (by decide)
    · rcases hrest x hx with hs | hs
      · rw [hs] at hc
        exact absurd hc.2 (by decide)
      · exact hs hc.1
  unfold State.nextWrite
  rw [hnone, h]
  show List.find? _ (w :: rest) = _
  rw [List.find?_cons, hp]
  cases hsp : s.itemSpaced w.value.item
  · rw [decide_eq_true rfl]
    rfl
  · rw [decide_eq_true rfl]
    rfl

theorem startWrite_first (w : ItemWrite) (rest : List ItemWrite) : startWrite w (w :: rest) = { w with started := true } :: rest := if_pos rfl

/-! ### A page program that has ended -/

/-- The pulses of the page counted, and the owner's service rounds begun anew (R548, R593). -/
def State.pageCounted (p : PolId) (j : PageJob) (n : Nat) (s : State) : State :=
  if p = owner then { s.countPulses p j n with arr := { (s.countPulses p j n).arr with ownerStarts := 0 } } else s.countPulses p j n

/-- The state in which a page is done: its program is no longer asked for. -/
def State.pageTaken (p : PolId) (j : PageJob) (n : Nat) (s : State) : State :=
  { s.pageCounted p j n with arr := { (s.pageCounted p j n).arr with jobs := dropJob p (s.pageCounted p j n).arr.jobs } }

/-- A page that the node sheds (R98). -/
theorem execPage_shedding (verified : Bool) (n : Nat) (h : s.power.shedding = true) : exec (.pageProgramComplete verified n) s =
    .next { (if verified = true then s.finishPage else s) with arr := { (if verified = true then s.finishPage else s).arr with jobs := [] } } :=
  congrArg Host.Outcome.next (if_pos h)

theorem execPage_idle (verified : Bool) (n : Nat) (h : s.power.shedding = false)
    (hn : s.arrayServes = false ∨ s.curSlice = none ∨ (verified = false ∧ n ≠ 100) ∨ (∃ p, s.curSlice = some p ∧ ∀ j ∈ s.arr.jobs, j.1 ≠ p)) :
    exec (.pageProgramComplete verified n) s = .next s := by
  refine congrArg Host.Outcome.next ((if_neg (by rw [h]; decide)).trans ?_)
  split
  · rfl
  · next hc =>
    rw [Bool.or_eq_true, not_or] at hc
    obtain ⟨hserves, hfail⟩ := hc
    split
    · rfl
    · next q hq =>
      have hfirst : firstJob q s.arr.jobs = none := by
        rcases hn with hn | hn | ⟨hv, hne⟩ | ⟨p, hp, hj⟩
        · exact absurd (by rw [hn]; rfl) hserves
        · rw [hn] at hq; cases hq
        · exact absurd (by rw [hv, bne_iff_ne.mpr hne]; rfl) hfail
        · rw [hp] at hq
          cases hq
          unfold firstJob
          rw [Option.map_eq_none_iff, List.find?_eq_none]
          exact fun x hx hc => hj x hx (of_decide_eq_true hc)
      rw [hfirst]

/-- The page program of the slice's polder ends: it is done, or goes to a spare (R546 to R548, R571, R593). -/
theorem execPage_eq {j : PageJob} {rest : List (PolId × PageJob)} {verified : Bool} {n : Nat} (h : s.power.shedding = false) (hserves : s.arrayServes = true)
    (hv : verified = true ∨ n = 100) (hc : s.curSlice = some p) (hj : s.arr.jobs = (p, j) :: rest) :
    exec (.pageProgramComplete verified n) s = .next (
      if (p = owner ∧ s.ownerMayProgram = false ∧ s.holdup.low = false) ∨ s.pulsesFit p j n = false then s
      else if verified = true then (s.pageTaken p j n).pageDone p j else (s.pageCounted p j n).retirePage p j) := by
  have hok : ¬ (!s.arrayServes || (!verified && n != 100)) = true := by
    rw [hserves]
    rcases hv with hv | hv <;> rw [hv]
    · exact Bool.false_ne_true
    · rw [bne_self_eq_false, Bool.and_false]
      exact Bool.false_ne_true
  have hfirst : firstJob p s.arr.jobs = some j := by
    unfold firstJob
    rw [hj, List.find?_cons_of_pos (by exact decide_eq_true rfl)]
    rfl
  refine congrArg Host.Outcome.next ((if_neg (by rw [h]; decide)).trans ((if_neg hok).trans ?_))
  split
  · next hq => rw [hc] at hq; cases hq
  · next q hq =>
    rw [hc] at hq
    cases hq
    split
    · next hf => rw [hfirst] at hf; cases hf
    · next k hf =>
      rw [hfirst] at hf
      cases hf
      rfl

/-- The pulses left to a page program in its slice. -/
def State.pulseRoom (s : State) (p : PolId) (j : PageJob) : Nat := if s.jobBank p j = s.arr.running then 4 - s.arr.used.1 else 17 - s.arr.used.2

theorem State.pulsesFit_iff {j : PageJob} {n : Nat} : s.pulsesFit p j n = true ↔ 1 ≤ n ∧ 1 ≤ s.pulseRoom p j ∧ n ≤ s.arr.applied[p] + s.pulseRoom p j := by
  unfold State.pulsesFit State.pulseRoom ArrayS.pulsesLeft
  simp only [Bool.and_eq_true, decide_eq_true_eq, and_assoc]

/-- A page that fits, of a tenant or of an owner that may program. -/
theorem execPage_done {j : PageJob} {rest : List (PolId × PageJob)} {n : Nat} (h : s.power.shedding = false) (hserves : s.arrayServes = true)
    (hc : s.curSlice = some p) (hj : s.arr.jobs = (p, j) :: rest) (hfit : s.pulsesFit p j n = true) (ho : p = owner → s.ownerMayProgram = true) :
    exec (.pageProgramComplete true n) s = .next ((s.pageTaken p j n).pageDone p j) := by
  refine (execPage_eq h hserves (.inl rfl) hc hj).trans (congrArg Host.Outcome.next ((if_neg ?_).trans (if_pos rfl)))
  rintro (⟨hp, hm, -⟩ | hf)
  · rw [ho hp] at hm; cases hm
  · rw [hfit] at hf; cases hf

/-! ### A committed item -/

/-- A lifecycle state entered at once leaves the array, the time, the waits and the polders (R603). -/
theorem State.enterLc_kept (target : Lc) (s : State) :
    (s.enterLc target).arr = s.arr ∧ (s.enterLc target).clock = s.clock ∧ (s.enterLc target).carries = s.carries ∧ (s.enterLc target).pols = s.pols := by
  unfold State.enterLc
  dsimp only
  split <;> exact ⟨rfl, rfl, rfl, rfl⟩

/-- The live effect of a commit leaves the array's content, the time, the waits and the commands being served. -/
theorem State.commitEffect_kept (v : ItemValue) (s : State) : (s.commitEffect v).arr = s.arr ∧ (s.commitEffect v).clock = s.clock ∧
    (s.commitEffect v).carries = s.carries ∧ ∀ q, ((s.commitEffect v).pol q).serving = (s.pol q).serving := by
  have hsame : ∀ u : State, u.arr = s.arr → u.clock = s.clock → u.carries = s.carries → u.pols = s.pols →
      u.arr = s.arr ∧ u.clock = s.clock ∧ u.carries = s.carries ∧ ∀ q, (u.pol q).serving = (s.pol q).serving := fun u h1 h2 h3 h4 =>
    ⟨h1, h2, h3, fun q => by unfold State.pol; rw [h4]⟩
  unfold State.commitEffect
  split
  · next p x =>
    split
    · exact ⟨rfl, rfl, rfl, fun q => State.pol_modPol_same Polder.serving (g := fun q => { q with cR := max q.cR x.cR, sR := max q.sR x.sR }) (fun _ => rfl) _ _ _⟩
    · exact hsame _ rfl rfl rfl rfl
  · exact hsame _ rfl rfl rfl rfl
  · exact hsame _ rfl rfl rfl rfl
  · split <;> exact hsame _ rfl rfl rfl rfl
  · split
    · next x _ =>
      split
      · obtain ⟨h1, h2, h3, h4⟩ := s.enterLc_kept x.target
        exact hsame _ h1 h2 h3 h4
      · exact hsame _ rfl rfl rfl rfl
    · exact hsame _ rfl rfl rfl rfl
  · exact hsame _ rfl rfl rfl rfl

theorem State.commitItem_arr (v : ItemValue) (s : State) : (s.commitItem v).arr = s.arr.commit v := (State.commitEffect_kept v _).1

theorem State.commitItem_clock (v : ItemValue) (s : State) : (s.commitItem v).clock = s.clock := (State.commitEffect_kept v _).2.1

theorem State.commitItem_carries (v : ItemValue) (s : State) : (s.commitItem v).carries = s.carries := (State.commitEffect_kept v _).2.2.1

theorem State.commitItem_serving (v : ItemValue) (s : State) (q : PolId) : ((s.commitItem v).pol q).serving = (s.pol q).serving :=
  (State.commitEffect_kept v _).2.2.2 q

/-- Nothing waits for the commit of an item where no polder is being served. -/
theorem State.releaseCommit_none (item : Nat) (ok : Bool) (h : ∀ q, (s.pol q).serving = none) : s.releaseCommit item p ok = s := by
  refine foldl_fixed fun q _ => ?_
  rw [h q]

theorem ArrayS.take_kept (v : ItemValue) (a : ArrayS) : (a.take v).writes = a.writes ∧ (a.take v).jobs = a.jobs ∧ (a.take v).used = a.used ∧
    (a.take v).applied = a.applied ∧ (a.take v).user = a.user ∧ (a.take v).fw0 = a.fw0 ∧ (a.take v).fw1 = a.fw1 ∧ (a.take v).copies = a.copies := by
  cases v <;> exact ⟨rfl, rfl, rfl, rfl, rfl, rfl, rfl, rfl⟩

theorem nextCopy_item (v : ItemValue) (l : List ItemCopy) : (nextCopy v l).item = v.item ∧ (nextCopy v l).value = v ∧ (nextCopy v l).gen = nextGen v.item l := by
  unfold nextCopy nextGen
  cases newestCopy v.item l <;> exact ⟨rfl, rfl, rfl⟩

/-- The state in which a write is over and its commit noted (R554). -/
def State.itemDone (w : ItemWrite) (s : State) : State :=
  { s with arr := { s.arr with writes := [], commitTimes := (w.value.item, s.clock.elapsed) :: s.arr.commitTimes.filter (fun c => c.1 ≠ w.value.item) } }

/-- The last page of a write: the item is committed and nothing waits for it. -/
theorem State.itemPage_last {w : ItemWrite} (hw : s.arr.writes = [w]) (hstart : w.started = true) (hp : w.pol = p) (hleft : w.pagesLeft ≤ 1)
    (hserve : ∀ q, (s.pol q).serving = none) (hcarry : s.carries = []) : s.itemPage p = (s.itemDone w).commitItem w.value := by
  have hfind : s.arr.writes.find? (fun w => w.started && w.pol = p) = some w := by
    rw [hw]
    exact List.find?_cons_of_pos (by rw [hstart, hp]; exact decide_eq_true rfl)
  have herase : s.arr.writes.erase w = [] := by
    rw [hw]
    exact List.erase_cons_head ..
  unfold State.itemPage
  rw [hfind]
  show (if w.pagesLeft ≤ 1 then _ else _) = _
  rw [if_pos hleft]
  dsimp only
  rw [herase]
  show (((s.itemDone w).commitItem w.value).releaseCommit w.value.item p true).sysResetDue = _
  have hserve' : ∀ q, (((s.itemDone w).commitItem w.value).pol q).serving = none := fun q => (State.commitItem_serving ..).trans (hserve q)
  rw [State.releaseCommit_none _ _ hserve', State.sysResetDue_none]
  rw [State.commitItem_carries]
  show s.carries.all _ = true
  rw [hcarry]
  rfl

/-- Another page of a write follows (R549). -/
theorem State.itemPage_next {w : ItemWrite} (hw : s.arr.writes = [w]) (hstart : w.started = true) (hp : w.pol = p) (hleft : 1 < w.pagesLeft)
    (he : s.power.entry = none) (hlow : s.holdup.low = false) : s.itemPage p =
      { s with arr := { s.arr with jobs := s.arr.jobs ++ [(p, .item)], writes := [{ w with pagesLeft := w.pagesLeft - 1 }] } } := by
  have hfind : s.arr.writes.find? (fun w => w.started && w.pol = p) = some w := by
    rw [hw]
    exact List.find?_cons_of_pos (by rw [hstart, hp]; exact decide_eq_true rfl)
  unfold State.itemPage
  rw [hfind]
  show (if w.pagesLeft ≤ 1 then _ else _) = _
  rw [if_neg (by omega)]
  dsimp only
  rw [hw, List.map_cons, List.map_nil, if_pos rfl]
  refine (if_neg ?_).trans ?_
  · exact fun h => Bool.false_ne_true ((State.nvmLeaving_none he).symm.trans h)
  unfold State.followPage State.addJob
  split
  · rfl
  · exact if_neg (by show ¬ s.holdup.low = true; rw [hlow]; decide)

/-! ### The array once a page has been counted -/

/-- The array with the pulses of a page counted (R548). -/
def State.countedArr (s : State) (p : PolId) (j : PageJob) (n : Nat) : ArrayS :=
  { s.arr with applied := s.arr.applied.set p 0
               used := if s.jobBank p j = s.arr.running then (s.arr.used.1 + max 1 (n - s.arr.applied[p]), s.arr.used.2)
                 else (s.arr.used.1, s.arr.used.2 + max 1 (n - s.arr.applied[p])) }

theorem State.countPulses_eq (p : PolId) (j : PageJob) (n : Nat) (s : State) : s.countPulses p j n = { s with arr := s.countedArr p j n } := rfl

theorem State.pageCounted_eq (p : PolId) (j : PageJob) (n : Nat) (s : State) : s.pageCounted p j n =
    { s with arr := { s.countedArr p j n with ownerStarts := if p = owner then 0 else s.arr.ownerStarts } } := by
  unfold State.pageCounted
  rw [State.countPulses_eq]
  split
  · rfl
  · rfl

theorem dropJob_first (p : PolId) (j : PageJob) (rest : List (PolId × PageJob)) : dropJob p ((p, j) :: rest) = rest := if_pos rfl

/-- The state in which a page is counted and the other page programs are left. -/
def State.pageOff (p : PolId) (j : PageJob) (n : Nat) (rest : List (PolId × PageJob)) (s : State) : State :=
  { s with arr := { s.countedArr p j n with ownerStarts := if p = owner then 0 else s.arr.ownerStarts, jobs := rest } }

theorem State.pageTaken_eq {j : PageJob} {rest : List (PolId × PageJob)} (n : Nat) (hj : s.arr.jobs = (p, j) :: rest) :
    s.pageTaken p j n = s.pageOff p j n rest := by
  unfold State.pageTaken
  rw [State.pageCounted_eq]
  show ({ s with arr := { s.countedArr p j n with ownerStarts := _, jobs := dropJob p s.arr.jobs } } : State) = _
  rw [hj, dropJob_first]
  rfl

/-! ### A page of an update -/

theorem State.heldAnswer_eq {v : Serving} {a : Answer} (hv : (s.pol owner).serving = some v) (ha : v.answer = some a) : s.heldAnswer = a := by
  unfold State.heldAnswer
  rw [hv]
  show v.answer.getD _ = a
  rw [ha]
  rfl

theorem State.commitLen_eq {v : Serving} (hv : (s.pol owner).serving = some v) : s.commitLen = field v.entry.params 0 4 := by
  unfold State.commitLen
  rw [hv]

/-- The bytes a committed region reads: its update's, and 0 from its length on (R564). -/
theorem cellsRead_committed (u : Update) (len x : Nat) : cellsRead (cellsOf (u.content len)) x =
    if x < len then ((u.data.find? (fun c => c.1 = x)).map (·.2)).getD 0 else 0 := by
  have hlen : (u.content len).length = len := by
    unfold Update.content
    rw [List.length_map, List.length_range]
  unfold cellsOf
  rw [cellsRead_writeList 0 x _ rfl, hlen, Nat.zero_add, Nat.sub_zero]
  by_cases h : x < len
  · rw [if_pos ⟨Nat.zero_le _, h⟩, if_pos h, List.getD_eq_getElem?_getD]
    unfold Update.content
    rw [List.getElem?_map, List.getElem?_range h]
    rfl
  · rw [if_neg fun hn => h hn.2, if_neg h]
    rfl

/-- The array once the one open update, of USER, is committed (R564). -/
theorem ArrayS.commitRegion_user {a : ArrayS} {u : Update} (len : Nat) (hu : a.updates = [u]) (hr : u.region.val = 6) :
    let b := a.commitRegion u.handle len
    b.updates = [] ∧ b.jobs = a.jobs ∧ b.fw0 = a.fw0 ∧ b.fw1 = a.fw1 ∧ b.logCells = a.logCells ∧ b.user.isOpen = false ∧ b.user.valid = true ∧
      b.user.len = len ∧ b.user.half = (a.user.valid && !a.user.half) ∧ b.user.content = cellsOf (u.content len) := by
  have hfind : a.updates.find? (fun x => x.handle = u.handle) = some u := by
    rw [hu]
    exact List.find?_cons_of_pos (decide_eq_true rfl)
  have hgone : a.updates.filter (fun x => x.handle ≠ u.handle) = [] := by
    rw [hu, List.filter_cons_of_neg (by simp), List.filter_nil]
  intro b
  have hb : b = { a with
      user := { content := cellsOf (u.content len), len := len, isOpen := false, valid := true, sig := 0, half := if a.user.valid = true then !a.user.half else false,
                version := 0 }
      updates := [], copies := addCopy (.marker u.region.val) a.copies } := by
    show a.commitRegion u.handle len = _
    unfold ArrayS.commitRegion
    rw [hfind]
    dsimp only
    unfold ArrayS.modRegion
    rw [hr]
    simp only [if_neg (show ¬ (6 : Nat) = 0 by decide), if_neg (show ¬ (6 : Nat) = 1 by decide), true_and, if_true]
    rw [hgone]
  rw [hb]
  refine ⟨rfl, rfl, rfl, rfl, rfl, rfl, rfl, rfl, ?_, rfl⟩
  cases a.user.valid <;> rfl

/-! ### A page of the log -/

theorem pageBytes_log (l : List LogEntry) (h : ∀ e ∈ l, e.bytes.length = 64) : (padTo 256 (((l.take 4).map LogEntry.bytes).flatten)).length = 256 := by
  have hsum : ∀ m : List LogEntry, (∀ e ∈ m, e.bytes.length = 64) → ((m.map LogEntry.bytes).flatten).length = 64 * m.length := by
    intro m
    induction m with
    | nil => exact fun _ => rfl
    | cons e m ih =>
      intro hm
      rw [List.map_cons, List.flatten_cons, List.length_append, hm e List.mem_cons_self, ih fun x hx => hm x (List.mem_cons_of_mem _ hx), List.length_cons]
      omega
  have hlen := hsum (l.take 4) fun e he => h e (List.mem_of_mem_take he)
  have htake : (l.take 4).length ≤ 4 := by rw [List.length_take]; omega
  unfold padTo
  rw [List.length_append, List.length_replicate, hlen]
  omega

theorem ArrayS.programLog_eq {a : ArrayS} (h : a.logBuf ≠ []) : ∃ n, a.programLog = { a with
    logCells := cellsWriteList a.logCells (256 * a.logPage) (padTo 256 (((a.logBuf.take 4).map LogEntry.bytes).flatten)),
    logPage := (a.logPage + 1) % 1024, logBuf := a.logBuf.drop 4, lseqDone := n } := by
  unfold ArrayS.programLog
  refine ⟨_, if_neg ?_⟩
  cases hl : a.logBuf with
  | nil => exact absurd hl h
  | cons e l => exact Bool.false_ne_true

/-! ### A page that fails -/

/-- A page goes to a spare of its bank: the address retired, the spare taken, the owner told (R571). -/
theorem State.retirePage_spare {j : PageJob} (hleft : 0 < s.arr.spares (s.jobBank p j)) :
    ∃ a : ArrayS, a.retired = s.arr.retired ++ [(s.jobAddress p j, 256 - s.arr.spares (s.jobBank p j))] ∧
      a.spares (s.jobBank p j) = s.arr.spares (s.jobBank p j) - 1 ∧ a.jobs = s.arr.jobs ∧ a.applied = s.arr.applied ∧ Issued { s with arr := a } (s.retirePage p j) := by
  unfold State.retirePage
  dsimp only
  rw [if_neg (by omega)]
  refine ⟨_, ?_, ?_, ?_, ?_, Issued.ownerEvent ..⟩
  · rfl
  · show ArrayS.spares { s.arr with spares0 := _, spares1 := _ } _ = _
    unfold ArrayS.spares
    generalize s.jobBank p j = b
    dsimp only
    split <;> rfl
  · rfl
  · rfl

end Sys2Proof.Machine
end

section
/-! PROOFS. The array's events (O57), clause by clause. -/

namespace Sys2Proof.Machine

variable {s t u : State} {p : PolId}

/-- A page shed commits the item it completes (R553, R557). -/
theorem State.finishPage_item {w : ItemWrite} (hj : s.arr.jobs = [(p, .item)]) (hw : s.arr.writes = [w]) (hstart : w.started = true) (hp : w.pol = p) :
    s.finishPage = if w.pagesLeft ≤ 2 then { s with arr := s.arr.commit w.value } else s := by
  have hactive : s.activeJob = some (p, .item) := by
    unfold State.activeJob
    rw [hj]
    split
    · rw [List.find?_cons]
      split <;> rfl
    · rfl
  have hfind : s.arr.writes.find? (fun w => w.started && w.pol = p) = some w := by
    rw [hw]
    exact List.find?_cons_of_pos (by rw [hstart, hp]; exact decide_eq_true rfl)
  unfold State.finishPage
  rw [hactive]
  dsimp only
  rw [hfind]

/-- What the last page of an item's write leaves: the array with the item's copy, and its live effect (R552). -/
theorem ArrayS.commit_spec (v : ItemValue) (a : ArrayS) : let b := a.commit v
    b.writes = a.writes ∧ b.jobs = a.jobs ∧ b.used = a.used ∧ b.applied = a.applied ∧ b.user = a.user ∧ b.fw0 = a.fw0 ∧ b.fw1 = a.fw1 ∧
      (∃ c ∈ b.copies, c.item = v.item ∧ c.value = v ∧ (∀ d ∈ a.copies, d.item = c.item → d.gen < c.gen) ∧
        ∀ d, d ∈ b.copies ↔ d = c ∨ (d ∈ a.copies ∧ ¬ (d.item = c.item ∧ d.slot = c.slot))) := by
  obtain ⟨h1, h2, h3, h4, h5, h6, h7, h8⟩ := ArrayS.take_kept v { a with copies := addCopy v a.copies }
  obtain ⟨hi, hv, hg⟩ := nextCopy_item v a.copies
  refine ⟨h1, h2, h3, h4, h5, h6, h7, nextCopy v a.copies, ?_, hi, hv, fun d hd he => ?_, fun d => ?_⟩
  · rw [show (a.commit v).copies = _ from h8]
    exact mem_putCopy.mpr (.inl rfl)
  · rw [hg]
    exact gen_lt_nextGen hd (he.trans hi)
  · rw [show (a.commit v).copies = _ from h8]
    exact mem_putCopy

/-- A failed item write with nothing waiting for it is dropped (R571, R603). -/
theorem State.pageFails_item {w : ItemWrite} (hw : s.arr.writes = [w]) (hstart : w.started = true) (hp : w.pol = p) (hserve : ∀ q, (s.pol q).serving = none)
    (hcarry : s.carries = []) : s.pageFails p .item = { s with
      arr := { s.arr with writes := [] }, life := { s.life with pending := if w.value.item = 0x12 then none else s.life.pending } } := by
  have hfind : s.arr.writes.find? (fun w => w.started && w.pol = p) = some w := by
    rw [hw]
    exact List.find?_cons_of_pos (by rw [hstart, hp]; exact decide_eq_true rfl)
  have herase : s.arr.writes.erase w = [] := by
    rw [hw]
    exact List.erase_cons_head ..
  unfold State.pageFails
  dsimp only
  rw [hfind]
  show ((s.dropWrite w).releaseCommit w.value.item p false).sysResetDue = _
  rw [State.releaseCommit_none (s := s.dropWrite w) _ _ hserve, State.sysResetDue_none]
  · unfold State.dropWrite
    rw [herase]
  · show s.carries.all _ = true
    rw [hcarry]
    rfl

/-- The update under a handle is the only one (R563). -/
theorem find?_only {u : Update} {h : W16} {l : List Update} (hl : l = [u]) (hu : u.handle = h) :
    l.find? (fun u => u.handle = h) = some u ∧ l.filter (fun u => u.handle ≠ h) = [] := by
  rw [hl]
  exact ⟨List.find?_cons_of_pos (decide_eq_true hu), by rw [List.filter_cons_of_neg (by simp [hu]), List.filter_nil]⟩

/-- The state in which an update is abandoned (R374). -/
def State.leaseLost (h : W16) (s : State) : State :=
  let mine : PolId × PageJob → Bool := fun j => match j.2 with
    | .arrOpen k => k == h
    | .arrWrite k _ _ => k == h
    | _ => false
  { s with arr := { s.arr.loseUpdate h with applied := s.arr.applied.set owner 0, jobs := s.arr.jobs.filter (fun j => !mine j),
                                            heldJobs := s.arr.heldJobs.filter (fun j => !mine j) } }

/-- A lease that runs out: a waiting ARR_WRITE is answered, one that is queued hears of it when it is served, else the owner hears of it
(R373, R374, R382). -/
theorem execArrayLeaseExpired_eq {h : W16} {u : Update} (hfind : s.arr.updates.find? (fun u => u.handle = h) = some u) (hc : s.commitServed h = false) :
    exec (.arrayLeaseExpired h) s = .next (
      if s.writeServed h = true then (s.leaseLost h).answerPage { status := .leaseExpired, effectFrame := none, results := [] }
      else if (s.pol owner).queue.any (fun e => e.req.handle == h && e.kind == .command) = true then s.leaseLost h
      else (s.leaseLost h).ownerEvent 0x0044 (leBytes 1 1 ++ leBytes 1 0 ++ leBytes 2 h.toNat ++ u.grant.bytes)) := by
  refine congrArg Host.Outcome.next ?_
  split
  · next hn => rw [hfind] at hn; cases hn
  · next x hx =>
    rw [hfind] at hx
    cases hx
    refine (if_neg (by rw [hc]; decide)).trans ?_
    rfl

/-- What a lease that runs out takes from the array (R374). -/
theorem execArrayLeaseExpired_arr {h : W16} {u : Update} (hfind : s.arr.updates.find? (fun u => u.handle = h) = some u) (hc : s.commitServed h = false) :
    ∃ t, exec (.arrayLeaseExpired h) s = .next t ∧ t.arr.updates = s.arr.updates.filter (fun u => u.handle ≠ h) ∧ t.arr.applied[owner] = 0 ∧
      t.arr.lostHandles = s.arr.lostHandles ++ [h] ∧ t.arr.user = s.arr.user ∧ t.arr.fw0 = s.arr.fw0 ∧ t.arr.fw1 = s.arr.fw1 := by
  have hissued : ∀ t : State, (s.leaseLost h).arr.IssuedFrom t.arr → t.arr.updates = s.arr.updates.filter (fun u => u.handle ≠ h) ∧ t.arr.applied[owner] = 0 ∧
      t.arr.lostHandles = s.arr.lostHandles ++ [h] ∧ t.arr.user = s.arr.user ∧ t.arr.fw0 = s.arr.fw0 ∧ t.arr.fw1 = s.arr.fw1 := fun t ht => by
    rw [ht]
    exact ⟨rfl, Vector.getElem_set_self .., rfl, rfl, rfl, rfl⟩
  refine ⟨_, execArrayLeaseExpired_eq hfind hc, hissued _ ?_⟩
  split
  · rw [show ((s.leaseLost h).answerPage _).arr = (s.leaseLost h).arr from (State.answerHeld_only ..).arr.resolve_left Bool.false_ne_true]
    rfl
  · split
    · rfl
    · exact (Issued.ownerEvent ..).arr

theorem execArrayLeaseExpired_answered {h : W16} {u : Update} {v : Serving} (hfind : s.arr.updates.find? (fun u => u.handle = h) = some u)
    (hc : s.commitServed h = false) (hw : s.writeServed h = true) (hv : (s.pol owner).serving = some v) (hr : (s.pol owner).replyQ.length < 8)
    (hs : s.sequencing = true) : ∀ t, exec (.arrayLeaseExpired h) s = .next t →
      (t.pol owner).serving = none ∧ ∃ r, (t.pol owner).replyQ = (s.pol owner).replyQ ++ [r] ∧ r.status = .leaseExpired := by
  intro t ht
  rw [execArrayLeaseExpired_eq hfind hc, if_pos hw] at ht
  cases ht
  obtain ⟨h1, ⟨r, h2, h3, -⟩, -⟩ := State.answerHeld_sent (s := s.leaseLost h) { status := .leaseExpired, effectFrame := none, results := [] } hv hr hs
  exact ⟨h1, r, h2, h3⟩

theorem State.commitItem_seqs {q : PolId} (x : StoredSeq) (h : s.lives q = true) : ((s.commitItem (.seqs q (some x))).pol q).cR = max (s.pol q).cR x.cR ∧
    ((s.commitItem (.seqs q (some x))).pol q).sR = max (s.pol q).sR x.sR := by
  have heq : s.commitItem (.seqs q (some x)) = ({ s with arr := s.arr.commit (.seqs q (some x)) } : State).modPol q
      (fun q => { q with cR := max q.cR x.cR, sR := max q.sR x.sR }) :=
    if_pos (by rw [show ({ s with arr := s.arr.commit (.seqs q (some x)) } : State).lives q = true from h]; rfl)
  rw [heq, State.pol_modPol_self]
  exact ⟨rfl, rfl⟩

theorem State.commitItem_dali (x : DaliItem) (s : State) : (s.commitItem (.dali x)).pols = s.pols := by
  unfold State.commitItem State.commitEffect
  dsimp only
  split <;> rfl

theorem State.sequencing_of_arrayServes (h : s.arrayServes = true) : s.sequencing = true := by
  unfold State.arrayServes at h
  simp only [Bool.and_eq_true] at h
  exact h.1.1.1

/-- An update with a page of an ARR_WRITE in it (R562). -/
def State.updateWritten (h : W16) (off : Nat) (bytes : List Byte) (s : State) : State := { s with arr := s.arr.modUpdate h (Update.write off bytes) }

/-- An update committed (R564). -/
def State.regionCommitted (h : W16) (s : State) : State := { s with arr := s.arr.commitRegion h s.commitLen }

/-- A page that verified after n pulses has not used more than its slice allows (R548). -/
def State.PageFits (s : State) (p : PolId) (j : PageJob) (n : Nat) : Prop :=
  1 ≤ n ∧ 1 ≤ s.pulseRoom p j ∧ n ≤ s.arr.applied[p] + s.pulseRoom p j

theorem itemWrite_waits : ∀ (s : State) (p : PolId), s.arrayServes = false ∨ s.holdup.low = true ∨ (p, PageJob.item) ∈ s.arr.jobs → exec (.itemWriteStart p) s = .next s := by
  intro s p h
  exact congrArg Host.Outcome.next (if_pos (State.itemWriteStart_none h))

theorem itemWrite_starts : ∀ (s : State) (p : PolId) (w : ItemWrite) (rest : List ItemWrite), s.arrayServes = true → s.holdup.low = false → s.power.entry = none →
    s.arr.jobs = [] → s.arr.heldJobs = [] → s.arr.writes = w :: rest → w.pol = p → w.started = false → (∀ x ∈ rest, x.started = false ∨ x.pol ≠ p) →
    (s.itemSpaced w.value.item = true → exec (.itemWriteStart p) s =
      .next { s with arr := { s.arr with writes := { w with started := true } :: rest, jobs := [(p, .item)] } }) ∧
    (s.itemSpaced w.value.item = false → rest = [] → exec (.itemWriteStart p) s = .next s) := by
  intro s p w rest hserves hlow he hj hh hw hp hstart hrest
  have hidle : ¬ (!s.arrayServes || s.holdup.low || s.nvmLeaving || (s.arr.jobs ++ s.arr.heldJobs).contains (p, .item)) = true := by
    rw [hserves, hlow, State.nvmLeaving_none he, hj, hh]
    exact Bool.false_ne_true
  refine ⟨fun hsp => ?_, fun hsp hnil => ?_⟩
  · refine congrArg Host.Outcome.next ((if_neg hidle).trans ?_)
    rw [State.nextWrite_first hw hp hstart hrest, if_pos hsp]
    dsimp only
    rw [hw, startWrite_first]
    unfold State.addJob
    refine (if_neg (by show ¬ s.holdup.low = true; rw [hlow]; decide)).trans ?_
    rw [hj]
    rfl
  · refine congrArg Host.Outcome.next ((if_neg hidle).trans ?_)
    rw [State.nextWrite_first hw hp hstart hrest, if_neg (by rw [hsp]; decide), hnil]
    rfl

theorem page_idle : ∀ (s : State) (verified : Bool) (n : Nat), s.power.shedding = false → s.arrayServes = false ∨ s.curSlice = none ∨ (verified = false ∧ n ≠ 100) ∨
      (∃ p, s.curSlice = some p ∧ ∀ j ∈ s.arr.jobs, j.1 ≠ p) → exec (.pageProgramComplete verified n) s = .next s :=
  fun s verified n h hn => execPage_idle verified n h hn

theorem page_unfit : ∀ (s : State) (p : PolId) (j : PageJob) (rest : List (PolId × PageJob)) (verified : Bool) (n : Nat), s.power.shedding = false → s.curSlice = some p →
    s.arr.jobs = (p, j) :: rest → ¬ s.PageFits p j n → exec (.pageProgramComplete verified n) s = .next s := by
  intro s p j rest verified n h hc hj hfit
  by_cases hn : s.arrayServes = false ∨ s.curSlice = none ∨ (verified = false ∧ n ≠ 100) ∨ (∃ p, s.curSlice = some p ∧ ∀ j ∈ s.arr.jobs, j.1 ≠ p)
  · exact execPage_idle verified n h hn
  · rw [not_or, not_or, not_or] at hn
    obtain ⟨hserves, -, hfail, -⟩ := hn
    have hv : verified = true ∨ n = 100 := by
      cases verified
      · exact .inr (by_contra fun hne => hfail ⟨rfl, hne⟩)
      · exact .inl rfl
    refine (execPage_eq h (Bool.eq_true_of_not_eq_false hserves) hv hc hj).trans (congrArg Host.Outcome.next (if_pos (.inr ?_)))
    exact Bool.eq_false_iff.mpr fun hf => hfit (State.pulsesFit_iff.mp hf)

theorem page_shedding : ∀ (s : State) (verified : Bool) (n : Nat), s.power.shedding = true → ∃ t, exec (.pageProgramComplete verified n) s = .next t ∧ t.arr.jobs = [] ∧
    (verified = false ∨ s.arr.jobs = [] → t = { s with arr := { s.arr with jobs := [] } }) ∧
    (∀ (p : PolId) (w : ItemWrite), verified = true → s.arr.jobs = [(p, .item)] → s.arr.writes = [w] → w.started = true → w.pol = p →
      t = { s with arr := { (if w.pagesLeft ≤ 2 then s.arr.commit w.value else s.arr) with jobs := [] } }) := by
  intro s verified n h
  refine ⟨_, execPage_shedding verified n h, rfl, fun hv => ?_, fun p w hv hj hw hstart hp => ?_⟩
  · rcases hv with hv | hv
    · rw [hv]
      rfl
    · have hnone : s.finishPage = s := by
        unfold State.finishPage State.activeJob
        rw [hv]
        cases s.curSlice <;> rfl
      cases verified
      · rfl
      · rw [if_pos rfl, hnone]
  · rw [if_pos hv, State.finishPage_item hj hw hstart hp]
    split <;> rfl

theorem itemPage_counted : ∀ (s : State) (p : PolId) (w : ItemWrite) (jobs : List (PolId × PageJob)) (n : Nat), s.power.shedding = false → s.arrayServes = true →
    s.curSlice = some p → p ≠ owner → s.arr.jobs = (p, .item) :: jobs → s.arr.writes = [w] → w.started = true → w.pol = p → s.PageFits p .item n →
    (1 < w.pagesLeft → s.power.entry = none → s.holdup.low = false → exec (.pageProgramComplete true n) s =
      .next { s with arr := { s.countedArr p .item n with jobs := jobs ++ [(p, .item)], writes := [{ w with pagesLeft := w.pagesLeft - 1 }] } }) ∧
    (w.pagesLeft ≤ 1 → (∀ q, (s.pol q).serving = none) → s.carries = [] → ∃ t, exec (.pageProgramComplete true n) s = .next t ∧
      t.arr.writes = [] ∧ t.arr.jobs = jobs ∧ t.arr.used = (s.countedArr p .item n).used ∧ t.arr.applied = (s.countedArr p .item n).applied ∧ t.clock = s.clock ∧
      (∃ c ∈ t.arr.copies, c.item = w.value.item ∧ c.value = w.value ∧ (∀ d ∈ s.arr.copies, d.item = c.item → d.gen < c.gen) ∧
        ∀ d, d ∈ t.arr.copies ↔ d = c ∨ (d ∈ s.arr.copies ∧ ¬ (d.item = c.item ∧ d.slot = c.slot))) ∧
      (∀ q v, w.value = .seqs q (some v) → s.lives q = true → (t.pol q).cR = max (s.pol q).cR v.cR ∧ (t.pol q).sR = max (s.pol q).sR v.sR) ∧
      (∀ v, w.value = .dali v → t.arr.dali = v ∧ t.pols = s.pols) ∧ (∀ v, w.value = .colState v → t.arr.colState = some v) ∧ (∀ v, w.value = .fabric v → t.arr.fabric = v) ∧
      t.arr.user = s.arr.user ∧ t.arr.fw0 = s.arr.fw0 ∧ t.arr.fw1 = s.arr.fw1) := by
  refine fun s p w jobs n h hserves hc hp hj hw hstart hpol hfit => ⟨fun hleft he hlow => ?_, fun hleft hserve hcarry => ?_⟩
  · rw [execPage_done h hserves hc hj (State.pulsesFit_iff.mpr hfit) (fun ho => absurd ho hp), State.pageTaken_eq n hj]
    refine congrArg Host.Outcome.next ((State.itemPage_next (s := s.pageOff p .item n jobs) hw hstart hpol hleft he hlow).trans ?_)
    unfold State.pageOff
    rw [if_neg hp]
    rfl
  · have hpage := State.itemPage_last (s := s.pageOff p .item n jobs) hw hstart hpol hleft hserve hcarry
    obtain ⟨h1, h2, h3, h4, h5, h6, h7, hcopy⟩ := ArrayS.commit_spec w.value ((s.pageOff p .item n jobs).itemDone w).arr
    have hexec : exec (.pageProgramComplete true n) s = .next (((s.pageOff p .item n jobs).itemDone w).commitItem w.value) := by
      rw [execPage_done h hserves hc hj (State.pulsesFit_iff.mpr hfit) (fun ho => absurd ho hp), State.pageTaken_eq n hj, ← hpage]
      rfl
    rw [← State.commitItem_arr] at h1 h2 h3 h4 h5 h6 h7 hcopy
    refine ⟨_, hexec, h1, h2, h3, h4, State.commitItem_clock .., hcopy, fun q x hx hl => ?_, fun x hx => ?_, fun x hx => ?_, fun x hx => ?_, h5, h6, h7⟩
    · rw [hx]
      exact State.commitItem_seqs x hl
    · rw [State.commitItem_arr, hx]
      exact ⟨rfl, State.commitItem_dali ..⟩
    · rw [State.commitItem_arr, hx]
      rfl
    · rw [State.commitItem_arr, hx]
      rfl

theorem arrWritePage_answers : ∀ (s : State) (h : W16) (off : Nat) (bytes : List Byte) (v : Serving) (a : Answer) (n : Nat), s.power.shedding = false → s.arrayServes = true →
    s.curSlice = some owner → s.ownerMayProgram = true → s.arr.jobs = [(owner, .arrWrite h off bytes)] → (s.pol owner).serving = some v →
    v.answer = some a → (s.pol owner).replyQ.length < 8 → s.PageFits owner (.arrWrite h off bytes) n →
    ∃ t, exec (.pageProgramComplete true n) s = .next t ∧ t.arr.jobs = [] ∧
      (t.pol owner).serving = none ∧ (∃ r, (t.pol owner).replyQ = (s.pol owner).replyQ ++ [r] ∧ r.status = a.status ∧ r.esn = v.entry.esn) ∧
      t.arr.user = s.arr.user ∧ t.arr.fw0 = s.arr.fw0 ∧ t.arr.fw1 = s.arr.fw1 ∧ t.arr.logCells = s.arr.logCells ∧
      t.arr.updates = s.arr.updates.map (fun u => if u.handle = h then
        { u with data := bytes.mapIdx (fun i b => (off + i, b)) ++ u.data.filter (fun c => c.1 < off || off + bytes.length ≤ c.1) } else u) := by
  intro s h off bytes v a n hsh hserves hc hmay hj hv ha hr hfit
  have hexec : exec (.pageProgramComplete true n) s =
      .next (((s.pageOff owner (.arrWrite h off bytes) n []).updateWritten h off bytes).answerHeld owner a) := by
    rw [execPage_done hsh hserves hc hj (State.pulsesFit_iff.mpr hfit) (fun _ => hmay), State.pageTaken_eq n hj, State.pageDone]
    exact congrArg (fun a => Host.Outcome.next (State.answerHeld owner a _)) (State.heldAnswer_eq hv ha)
  obtain ⟨hserving, hreply, harr⟩ := State.answerHeld_sent (s := (s.pageOff owner (.arrWrite h off bytes) n []).updateWritten h off bytes) a hv hr
    (State.sequencing_of_arrayServes hserves)
  refine ⟨_, hexec, by rw [harr]; rfl, hserving, hreply, by rw [harr]; rfl, by rw [harr]; rfl, by rw [harr]; rfl, by rw [harr]; rfl, by rw [harr]; rfl⟩

theorem arrCommitPage_answers : ∀ (s : State) (u : Update) (v : Serving) (a : Answer) (n : Nat), s.power.shedding = false → s.arrayServes = true →
    s.curSlice = some owner → s.ownerMayProgram = true → s.arr.jobs = [(owner, .arrCommit u.handle 1)] → (s.pol owner).serving = some v →
    v.answer = some a → (s.pol owner).replyQ.length < 8 → s.arr.updates = [u] → u.region.val = 6 → s.PageFits owner (.arrCommit u.handle 1) n →
    ∃ t, exec (.pageProgramComplete true n) s = .next t ∧ t.arr.updates = [] ∧ (t.pol owner).serving = none ∧
      (∃ r, (t.pol owner).replyQ = (s.pol owner).replyQ ++ [r] ∧ r.status = a.status ∧ r.esn = v.entry.esn) ∧
      t.arr.user.isOpen = false ∧ t.arr.user.valid = true ∧ t.arr.user.len = field v.entry.params 0 4 ∧
      t.arr.user.half = (s.arr.user.valid && !s.arr.user.half) ∧
      t.arr.fw0 = s.arr.fw0 ∧ t.arr.fw1 = s.arr.fw1 ∧ t.arr.logCells = s.arr.logCells ∧
      (∀ x : Nat, cellsRead t.arr.user.content x =
        if x < field v.entry.params 0 4 then ((u.data.find? (fun c => c.1 = x)).map (·.2)).getD 0 else 0) := by
  intro s u v a n hsh hserves hc hmay hj hv ha hr hu hreg hfit
  have hexec : exec (.pageProgramComplete true n) s =
      .next (((s.pageOff owner (.arrCommit u.handle 1) n []).regionCommitted u.handle).answerHeld owner a) := by
    rw [execPage_done hsh hserves hc hj (State.pulsesFit_iff.mpr hfit) (fun _ => hmay), State.pageTaken_eq n hj, State.pageDone]
    refine congrArg Host.Outcome.next ((if_pos (le_refl 1)).trans ?_)
    exact congrArg (fun a => State.answerHeld owner a _) (State.heldAnswer_eq hv ha)
  obtain ⟨hserving, hreply, harr⟩ := State.answerHeld_sent (s := (s.pageOff owner (.arrCommit u.handle 1) n []).regionCommitted u.handle) a hv hr
    (State.sequencing_of_arrayServes hserves)
  obtain ⟨h1, -, h3, h4, h5, h6, h7, h8, h9, h10⟩ := ArrayS.commitRegion_user (a := (s.pageOff owner (.arrCommit u.handle 1) n []).arr)
    (s.pageOff owner (.arrCommit u.handle 1) n []).commitLen hu hreg
  have hlen : (s.pageOff owner (.arrCommit u.handle 1) n []).commitLen = field v.entry.params 0 4 := State.commitLen_eq hv
  have hcontent : ((s.pageOff owner (.arrCommit u.handle 1) n []).regionCommitted u.handle).arr.user.content = cellsOf (u.content (field v.entry.params 0 4)) :=
    h10.trans (by rw [hlen])
  refine ⟨_, hexec, ?_⟩
  rw [harr]
  exact ⟨h1, hserving, hreply, h6, h7, h8.trans hlen, h9, h3, h4, h5, fun x => by rw [hcontent, cellsRead_committed]⟩

theorem logPage_programs : ∀ (s : State) (n : Nat), s.power.shedding = false → s.arrayServes = true → s.curSlice = some owner → s.arr.jobs = [(owner, .log)] → s.holdup.low = false →
    s.PageFits owner .log n →
    (s.arr.ownerStarts < programGap s.therm.step → exec (.pageProgramComplete true n) s = .next s) ∧
    (programGap s.therm.step ≤ s.arr.ownerStarts → s.arr.logBuf ≠ [] → ∃ t, exec (.pageProgramComplete true n) s = .next t ∧ t.arr.logBuf = s.arr.logBuf.drop 4 ∧
      t.arr.jobs = [] ∧ t.arr.logPage = (s.arr.logPage + 1) % 1024 ∧ t.arr.ownerStarts = 0 ∧
      t.arr.logCells = cellsWriteList s.arr.logCells (256 * s.arr.logPage) (padTo 256 (((s.arr.logBuf.take 4).map LogEntry.bytes).flatten)) ∧
      (cellsWf s.arr.logCells = true → (∀ e ∈ s.arr.logBuf, e.bytes.length = 64) →
        ∀ x, x < 256 * s.arr.logPage ∨ 256 * s.arr.logPage + 256 ≤ x → cellsRead t.arr.logCells x = cellsRead s.arr.logCells x)) := by
  refine fun s n h hserves hc hj hlow hfit => ⟨fun hgap => ?_, fun hgap hbuf => ?_⟩
  · refine (execPage_eq h hserves (.inl rfl) hc hj).trans (congrArg Host.Outcome.next (if_pos (.inl ⟨rfl, ?_, hlow⟩)))
    exact decide_eq_false (Nat.not_le.mpr hgap)
  · obtain ⟨m, hlog⟩ := ArrayS.programLog_eq (a := (s.pageOff owner .log n []).arr) hbuf
    have hexec : exec (.pageProgramComplete true n) s = .next { s.pageOff owner .log n [] with arr := (s.pageOff owner .log n []).arr.programLog } := by
      rw [execPage_done h hserves hc hj (State.pulsesFit_iff.mpr hfit) (fun _ => decide_eq_true hgap), State.pageTaken_eq n hj]
      rfl
    refine ⟨_, hexec, ?_⟩
    dsimp only
    rw [hlog]
    refine ⟨rfl, rfl, rfl, rfl, rfl, fun hwf hbytes x hx => (cellsRead_writeList _ _ _ hwf).trans (if_neg ?_)⟩
    rw [show (padTo 256 ((((s.pageOff owner .log n []).arr.logBuf.take 4).map LogEntry.bytes).flatten)).length = 256 from pageBytes_log _ hbytes]
    show ¬ (256 * s.arr.logPage ≤ x ∧ x < 256 * s.arr.logPage + 256)
    omega

theorem failedPage_retires : ∀ (s : State) (p : PolId) (j : PageJob), s.power.shedding = false → s.arrayServes = true → s.curSlice = some p → p ≠ owner → s.arr.jobs = [(p, j)] →
    s.PageFits p j 100 →
    (0 < s.arr.spares (s.jobBank p j) → ∃ t addr, exec (.pageProgramComplete false 100) s = .next t ∧
      t.arr.retired = s.arr.retired ++ [(addr, 256 - s.arr.spares (s.jobBank p j))] ∧
      t.arr.spares (s.jobBank p j) = s.arr.spares (s.jobBank p j) - 1 ∧ t.arr.jobs.head? = some (p, j) ∧ t.arr.applied[p] = 0 ∧
      (∀ w, j = .item → s.arr.writes = [w] → w.started = true → w.pol = p →
        addr = copyPage w.value.item (nextCopy w.value s.arr.copies).slot (itemPages w.value.item - w.pagesLeft))) ∧
    (∀ w, j = .item → s.arr.spares (s.jobBank p j) = 0 → s.arr.writes = [w] → w.started = true → w.pol = p → (∀ q, (s.pol q).serving = none) →
      s.carries = [] → exec (.pageProgramComplete false 100) s =
        .next { s with arr := { s.countedArr p .item 100 with jobs := [], writes := [] },
                       life := { s.life with pending := if w.value.item = 0x12 then none else s.life.pending } }) := by
  refine fun s p j h hserves hc hp hj hfit => ⟨fun hleft => ?_, fun w hjob hleft hw hstart hpol hserve hcarry => ?_⟩
  · have hexec : exec (.pageProgramComplete false 100) s = .next ((s.pageCounted p j 100).retirePage p j) :=
      (execPage_eq h hserves (.inr rfl) hc hj).trans (congrArg Host.Outcome.next ((if_neg fun hn => hn.elim (fun ho => hp ho.1)
        fun hf => by rw [State.pulsesFit_iff.mpr hfit] at hf; cases hf).trans (if_neg Bool.false_ne_true)))
    obtain ⟨b, hret, hspares, hjobs, happ, hissued⟩ := State.retirePage_spare (s := s.pageCounted p j 100) (p := p) (j := j)
      (by rw [State.pageCounted_eq]; exact hleft)
    have hcounted : (s.pageCounted p j 100).jobBank p j = s.jobBank p j ∧ (s.pageCounted p j 100).arr.spares (s.jobBank p j) = s.arr.spares (s.jobBank p j) ∧
        (s.pageCounted p j 100).arr.retired = s.arr.retired ∧ (s.pageCounted p j 100).arr.jobs = s.arr.jobs ∧
        (s.pageCounted p j 100).arr.applied = s.arr.applied.set p 0 := by
      rw [State.pageCounted_eq]
      exact ⟨rfl, rfl, rfl, rfl, rfl⟩
    obtain ⟨hbank, hsp, hr, hjs, hap⟩ := hcounted
    rw [hbank, hsp, hr] at hret
    rw [hbank, hsp] at hspares
    rw [hjs, hj] at hjobs
    rw [hap] at happ
    have harr := hissued.arr
    unfold ArrayS.IssuedFrom at harr
    refine ⟨_, (s.pageCounted p j 100).jobAddress p j, hexec, ?_, ?_, ?_, ?_, fun w hjob hw hstart hpol => ?_⟩
    · rw [harr]
      exact hret
    · rw [harr]
      exact hspares
    · cases hlow : (s.pageCounted p j 100).holdup.low
      · obtain ⟨-, l, hl⟩ := hissued.heldJobs hlow
        rw [hl]
        show (b.jobs ++ l).head? = _
        rw [hjobs]
        rfl
      · rw [hissued.jobs hlow]
        show b.jobs.head? = _
        rw [hjobs]
        rfl
    · rw [harr]
      show b.applied[p] = 0
      rw [happ]
      exact Vector.getElem_set_self ..
    · subst hjob
      have hfind : s.arr.writes.find? (fun w => w.started && w.pol = p) = some w := by
        rw [hw]
        exact List.find?_cons_of_pos (by rw [hstart, hpol]; exact decide_eq_true rfl)
      rw [State.pageCounted_eq]
      unfold State.jobAddress
      show (match s.arr.writes.find? (fun w => w.started && w.pol = p) with | some w => _ | none => _) = _
      rw [hfind]
      rfl
  · subst hjob
    have hexec : exec (.pageProgramComplete false 100) s = .next ((s.pageCounted p .item 100).retirePage p .item) :=
      (execPage_eq h hserves (.inr rfl) hc hj).trans (congrArg Host.Outcome.next ((if_neg fun hn => hn.elim (fun ho => hp ho.1)
        fun hf => by rw [State.pulsesFit_iff.mpr hfit] at hf; cases hf).trans (if_neg Bool.false_ne_true)))
    have hgone : (s.pageCounted p .item 100).retirePage p .item = (s.pageOff p .item 100 []).pageFails p .item := by
      rw [State.pageCounted_eq]
      unfold State.retirePage
      refine (if_pos ?_).trans ?_
      · exact hleft
      · show State.pageFails p .item { s with arr := { s.countedArr p .item 100 with ownerStarts := _, jobs := dropJob p s.arr.jobs } } = _
        rw [hj, dropJob_first]
        rfl
    rw [hexec, hgone, State.pageFails_item (s := s.pageOff p .item 100 []) hw hstart hpol hserve hcarry]
    unfold State.pageOff
    rw [if_neg hp]
    rfl

theorem arrayLease_unknown : ∀ (s : State) (h : W16), (∀ u ∈ s.arr.updates, u.handle ≠ h) → exec (.arrayLeaseExpired h) s = .next s := by
  intro s h hno
  exact congrArg Host.Outcome.next (by
    split
    · rfl
    · next u hu => exact absurd (of_decide_eq_true (List.find?_some (p := fun u : Update => decide (u.handle = h)) hu)) (hno u (List.mem_of_find?_eq_some hu)))

theorem arrayLease_abandons : ∀ (s : State) (h : W16) (u : Update), s.arr.updates = [u] → u.handle = h → s.commitServed h = false → ∃ t, exec (.arrayLeaseExpired h) s = .next t ∧
    t.arr.updates = [] ∧ t.arr.applied[owner] = 0 ∧ t.arr.lostHandles = s.arr.lostHandles ++ [h] ∧ t.arr.user.content = s.arr.user.content ∧
    t.arr.fw0 = s.arr.fw0 ∧ t.arr.fw1 = s.arr.fw1 ∧
    (∀ (v : Serving), s.writeServed h = true → (s.pol owner).serving = some v → (s.pol owner).replyQ.length < 8 → s.sequencing = true →
      (t.pol owner).serving = none ∧ ∃ r, (t.pol owner).replyQ = (s.pol owner).replyQ ++ [r] ∧ r.status = .leaseExpired) := by
  intro s h u hu hhandle hcommit
  obtain ⟨hfind, hgone⟩ := find?_only hu hhandle
  obtain ⟨t, ht, h1, h2, h3, h4, h5, h6⟩ := execArrayLeaseExpired_arr hfind hcommit
  exact ⟨t, ht, h1.trans hgone, h2, h3, by rw [h4], h5, h6, fun v hw hv hr hs => execArrayLeaseExpired_answered hfind hcommit hw hv hr hs t ht⟩

theorem logPageTimer_asks : ∀ s : State, (s.arr.logBuf.length ≤ 4 * ((s.arr.jobs ++ s.arr.heldJobs).filter (fun j => j.2 == PageJob.log)).length → exec .logPageTimer s = .next s) ∧
    (4 * ((s.arr.jobs ++ s.arr.heldJobs).filter (fun j => j.2 == PageJob.log)).length < s.arr.logBuf.length → exec .logPageTimer s = .next (if s.holdup.low
      then { s with arr := { s.arr with heldJobs := s.arr.heldJobs ++ [(owner, .log)] } }
      else { s with arr := { s.arr with jobs := s.arr.jobs ++ [(owner, .log)] } })) := by
  refine fun s => ⟨fun hlog => ?_, fun hlog => ?_⟩
  · exact congrArg Host.Outcome.next (if_neg (by exact Nat.not_lt.mpr hlog))
  · refine congrArg Host.Outcome.next ((if_pos hlog).trans ?_)
    rfl

/-- Settles O57: a page counted against its slice goes on, commits, goes to a spare or fails; nothing else of the array is touched. -/
theorem arrayEvents : Obligations.ArrayEvents :=
  ⟨itemWrite_waits, itemWrite_starts, page_idle, page_unfit, page_shedding, itemPage_counted, arrWritePage_answers, arrCommitPage_answers,
   logPage_programs, failedPage_retires, arrayLease_unknown, arrayLease_abandons, logPageTimer_asks⟩

end Sys2Proof.Machine
end

section
/-! PROOFS. What the header of a frame heard settles before the meaning of its kind (R480, R488, R496). -/

namespace Sys2Proof.Machine

variable {s t u : State} {p : PolId} {port : Port}

/-! ### What a header leaves -/

/-- Of a port only its counters, its contention, its collisions and its unacknowledged frames have changed. -/
def LinePort.HeardFrom (a b : LinePort) : Prop :=
  b = { a with counters := b.counters, contention := b.contention, backoff := b.backoff, conflictRun := b.conflictRun, conflictNow := b.conflictNow,
               conflict := b.conflict, unacked := b.unacked }

theorem LinePort.HeardFrom.trans {a b c : LinePort} (h : a.HeardFrom b) (k : b.HeardFrom c) : a.HeardFrom c := by
  unfold LinePort.HeardFrom at *
  rw [h] at k
  exact k

/-- What a header leaves: the address, the key, the role and the routes; the cycle, the beacon and the claimants of each port; the time. -/
structure HeaderKept (s t : State) : Prop where
  fab : t.fab = { s.fab with held := t.fab.held, heardNow := t.fab.heardNow }
  power : t.power = s.power
  bist : t.bist = s.bist
  life : t.life = s.life
  clock : t.clock = { s.clock with tcmp := t.clock.tcmp }
  port : ∀ q, (s.port q).HeardFrom (t.port q)
  waits : s.waitsCarry .sysReset = false → t.waitsCarry .sysReset = false

theorem HeaderKept.refl (s : State) : HeaderKept s s := ⟨rfl, rfl, rfl, rfl, rfl, fun _ => rfl, fun h => h⟩

theorem HeaderKept.trans (h : HeaderKept s t) (k : HeaderKept t u) : HeaderKept s u :=
  ⟨k.fab.trans (by rw [h.fab]), k.power.trans h.power, k.bist.trans h.bist, k.life.trans h.life, k.clock.trans (by rw [h.clock]),
   fun q => (h.port q).trans (k.port q), fun hw => k.waits (h.waits hw)⟩

theorem HeaderKept.modPort {f : LinePort → LinePort} (hf : ∀ l : LinePort, l.HeardFrom (f l)) : HeaderKept s (s.modPort port f) :=
  { HeaderKept.refl s with
    fab := by cases port <;> rfl
    power := by cases port <;> rfl
    bist := by cases port <;> rfl
    life := by cases port <;> rfl
    clock := by cases port <;> rfl
    port := fun q => by
      rw [State.port_modPort]
      split
      · next h => rw [h]; exact hf _
      · exact rfl
    waits := by cases port <;> exact fun h => h }

theorem HeaderKept.countPort (i : Nat) : HeaderKept s (s.countPort port i) := by
  refine HeaderKept.modPort ?_
  exact fun _ => rfl

theorem HeaderKept.drawBackoff : HeaderKept s (s.drawBackoff port) := by
  have h : HeaderKept s (s.modPort port (fun l => { l with backoff := s.draw % l.window })) := by
    refine HeaderKept.modPort ?_
    exact fun _ => rfl
  exact h.trans ⟨rfl, rfl, rfl, rfl, rfl, fun _ => rfl, fun h => h⟩

theorem HeaderKept.contend (f : TxFrame) : HeaderKept s (s.contend port f) := by
  have h : HeaderKept s (s.modPort port (fun l => { l with contention := l.contention ++ [f] })) := by
    refine HeaderKept.modPort ?_
    exact fun _ => rfl
  unfold State.contend
  dsimp only
  split
  · exact h.trans HeaderKept.drawBackoff
  · exact h

theorem HeaderKept.queueJoin (reclaim : Bool) : HeaderKept s (s.queueJoin port reclaim) := by
  unfold State.queueJoin
  split
  · exact .refl s
  · exact HeaderKept.contend _

theorem port_congr {u v : State} (ha : v.lineA = u.lineA) (hb : v.lineB = u.lineB) (q : Port) : v.port q = u.port q := by
  cases q
  · exact ha
  · exact hb

theorem HeaderKept.patientEvent (code : Nat) (payload : List Byte) : HeaderKept s (s.patientEvent code payload) := by
  have ho := State.patientEvent_only code payload s
  have hport := port_congr (ho.lineA.resolve_left Bool.false_ne_true) (ho.lineB.resolve_left Bool.false_ne_true)
  exact ⟨by rw [ho.fab.resolve_left Bool.false_ne_true], ho.power.resolve_left Bool.false_ne_true, ho.bist.resolve_left Bool.false_ne_true,
    ho.life.resolve_left Bool.false_ne_true, (Issued.patientEvent ..).clock, fun q => by rw [hport]; rfl, ho.resets.resolve_left Bool.false_ne_true⟩

/-- A reply that counts as carried leaves everything but the waits (R148). -/
theorem HeaderKept.packetCarried (k : OutPacket) : HeaderKept s (s.packetCarried k) := by
  have ho := State.packetRead_only k s
  have hport := port_congr (ho.lineA.resolve_left Bool.false_ne_true) (ho.lineB.resolve_left Bool.false_ne_true)
  show HeaderKept s (s.packetRead k)
  exact ⟨by rw [ho.fab.resolve_left Bool.false_ne_true], ho.power.resolve_left Bool.false_ne_true, ho.bist.resolve_left Bool.false_ne_true,
    ho.life.resolve_left Bool.false_ne_true, by rw [ho.clock.resolve_left Bool.false_ne_true], fun q => by rw [hport]; rfl,
    ho.resets.resolve_left Bool.false_ne_true⟩

theorem HeaderKept.acknowledged (x : Unacked) : HeaderKept s (s.acknowledged port x) := by
  have h : HeaderKept s (s.modPort port (LinePort.settle x)) := by
    refine HeaderKept.modPort ?_
    exact fun _ => rfl
  unfold State.acknowledged
  dsimp only
  split
  · split
    · exact h.trans (HeaderKept.packetCarried _)
    · exact h
  · exact h

theorem HeaderKept.foldl {α : Type} {f : State → α → State} (hf : ∀ u x, HeaderKept u (f u x)) (l : List α) : HeaderKept s (l.foldl f s) := by
  induction l generalizing s with
  | nil => exact .refl s
  | cons x l ih => exact (hf s x).trans ih

/-- A frame read in a slot without its bit is no longer unread. -/
def Unacked.readBy (x v : Unacked) : Unacked := if v.same x then { v with unread := false } else v

/-- One frame that waits, at the slot of its receiver (R487, R488). -/
def State.readAck (h : Heard) (n : Fin 63) (s : State) (x : Unacked) : State :=
  if addrSlot x.hop ≠ n.val ∨ (h.src ≠ x.hop ∧ (s.port h.port).ownerSlot n.val = false) ∨ x.unread = false then s
  else if h.ackmap.toNat.testBit x.slot then s.acknowledged h.port x
  else s.modPort h.port (fun l => { l with unacked := l.unacked.map x.readBy })

theorem State.readAcks_slot {h : Heard} {n : Fin 63} (hs : h.slot = some n) : s.readAcks h = (s.port h.port).unacked.foldl (State.readAck h n) s := by
  unfold State.readAcks
  rw [hs]
  rfl

theorem State.readAcks_none {h : Heard} (hs : h.slot = none) : s.readAcks h = s := by
  unfold State.readAcks
  rw [hs]

theorem HeaderKept.readAck (h : Heard) (n : Fin 63) (x : Unacked) : HeaderKept s (s.readAck h n x) := by
  unfold State.readAck
  split
  · exact .refl s
  · split
    · exact HeaderKept.acknowledged x
    · refine HeaderKept.modPort ?_
      exact fun _ => rfl

theorem HeaderKept.readAcks (h : Heard) (s : State) : HeaderKept s (s.readAcks h) := by
  cases hs : h.slot with
  | none => rw [State.readAcks_none hs]; exact .refl s
  | some n => rw [State.readAcks_slot hs]; exact HeaderKept.foldl (fun u x => HeaderKept.readAck h n x) _

/-! ### The collision in the node's own slot (R496) -/

/-- A frame is a collision in the node's own data slot. -/
def State.clashes (h : Heard) (s : State) : Bool :=
  match h.slot with
  | some n => !s.unaddressed && n.val == s.ownSlot && (s.port h.port).slotFrom && !(s.port h.port).conflict && !(s.port h.port).conflictNow
  | none => false

/-- A collision counted on a port (R496). -/
def State.clashed (port : Port) (s : State) : State :=
  (s.countPort port 8).modPort port (fun l =>
    { l with conflictNow := true, conflictRun := (s.port port).conflictRun + 1, conflict := decide (3 ≤ (s.port port).conflictRun + 1) })

/-- The maps of a reeve with what a frame tells (R480). -/
def State.heldMaps (h : Heard) (s : State) : BitVec 64 × BitVec 64 :=
  let home := h.port == s.homePort
  let mine := addrSegment h.src == s.ownSegment && !addrBroadcast h.src
  let now : BitVec 64 := match h.slot with
    | some n => if home && ((s.port h.port).ownerSlot n.val || (mine && n.val == addrSlot h.src)) then bitOf 64 n.val else 0
    | none => 0
  (s.fab.held ||| (if home && mine then bitOf 64 (addrSlot h.src) else 0) ||| now, s.fab.heardNow ||| now)

/-- The state with the maps of a frame. -/
def State.mapsHeard (h : Heard) (s : State) : State := { s with fab := { s.fab with held := (s.heldMaps h).1, heardNow := (s.heldMaps h).2 } }

theorem State.hear_eq (h : Heard) (s : State) : s.hear h = if s.clashes h = true then
    (if 3 ≤ (s.port h.port).conflictRun + 1 then
      ((((s.mapsHeard h).clashed h.port).queueJoin h.port false).patientEvent 0x0047 (leBytes 2 2 ++ leBytes 2 s.fab.addr.toNat))
     else (s.mapsHeard h).clashed h.port)
    else s.mapsHeard h := by
  have hport : (s.mapsHeard h).port h.port = s.port h.port := by cases h.port <;> rfl
  have haddr : ((s.mapsHeard h).clashed h.port).fab.addr = s.fab.addr := by
    unfold State.clashed
    cases h.port <;> rfl
  have hclash : s.clashes h = (s.mapsHeard h).clashes h := by
    unfold State.clashes
    rw [hport]
    rfl
  rw [hclash, ← hport, ← haddr]
  rfl

theorem HeaderKept.clashed : HeaderKept s (s.clashed port) := by
  refine (HeaderKept.countPort 8).trans (HeaderKept.modPort ?_)
  exact fun _ => rfl

theorem HeaderKept.mapsHeard (h : Heard) : HeaderKept s (s.mapsHeard h) :=
  ⟨rfl, rfl, rfl, rfl, rfl, fun q => by cases q <;> rfl, fun hw => hw⟩

theorem HeaderKept.hear (h : Heard) (s : State) : HeaderKept s (s.hear h) := by
  rw [State.hear_eq]
  split
  · split
    · exact ((HeaderKept.mapsHeard h).trans HeaderKept.clashed).trans ((HeaderKept.queueJoin false).trans (HeaderKept.patientEvent ..))
    · exact (HeaderKept.mapsHeard h).trans HeaderKept.clashed
  · exact HeaderKept.mapsHeard h

theorem HeaderKept.headerTaken (h : Heard) (s : State) : HeaderKept s (s.headerTaken h) := (HeaderKept.hear h s).trans (HeaderKept.readAcks h _)

/-! ### What the kind of a frame reads of the node -/

theorem HeaderKept.portPresent (k : HeaderKept s t) (q : Port) : t.portPresent q = s.portPresent q := by
  unfold State.portPresent
  rw [k.power, k.bist]

theorem HeaderKept.homePort (k : HeaderKept s t) : t.homePort = s.homePort := by
  unfold State.homePort
  rw [k.power, k.portPresent, k.fab]

theorem HeaderKept.unaddressed (k : HeaderKept s t) : t.unaddressed = s.unaddressed := by
  unfold State.unaddressed
  rw [k.fab]

theorem HeaderKept.portSegment (k : HeaderKept s t) (q : Port) : t.portSegment q = s.portSegment q := by
  have hlast : (t.port q).last = (s.port q).last := by rw [k.port q]
  have hown : t.ownSegment = s.ownSegment := by
    unfold State.ownSegment
    rw [k.fab]
  unfold State.portSegment
  rw [k.homePort, k.unaddressed, hlast, hown]

theorem HeaderKept.accepts (k : HeaderKept s t) (q : Port) (dst : BitVec 12) : t.accepts q dst = s.accepts q dst := by
  unfold State.accepts
  rw [k.portSegment, k.fab]

theorem HeaderKept.claimant (k : HeaderKept s t) (q : Port) (g : BitVec 6) : (t.port q).claimant g = (s.port q).claimant g := by
  unfold LinePort.claimant
  rw [k.port q]

theorem HeaderKept.takes (k : HeaderKept s t) (q : Port) (dst : BitVec 12) : t.takes q dst = s.takes q dst := by
  unfold State.takes
  rw [k.accepts, k.claimant, k.fab]

theorem HeaderKept.macOk (k : HeaderKept s t) (h : Heard) : t.macOk h = s.macOk h := by
  have hkey : t.lineKeyNow = s.lineKeyNow := by
    unfold State.lineKeyNow
    rw [k.fab]
  have hcycle : (t.port h.port).cycle = (s.port h.port).cycle := by rw [k.port h.port]
  unfold State.macOk
  rw [hkey, hcycle]

theorem HeaderKept.keyId (k : HeaderKept s t) : t.fab.keyId = s.fab.keyId := by rw [k.fab]

theorem HeaderKept.addr (k : HeaderKept s t) : t.fab.addr = s.fab.addr := by rw [k.fab]

theorem HeaderKept.elapsed (k : HeaderKept s t) : t.clock.elapsed = s.clock.elapsed := by rw [k.clock]

theorem HeaderKept.drainSeen (k : HeaderKept s t) (isDone : Bool) (d : DrainFields) : t.drainSeen isDone d = s.drainSeen isDone d := by
  unfold State.drainSeen
  rw [k.elapsed, k.fab]

/-! ### A frame of a kind -/

theorem State.noResetWaits_iff : s.noResetWaits = true ↔ s.waitsCarry .sysReset = false := by
  unfold State.noResetWaits State.waitsCarry
  rw [List.all_eq_true, List.any_eq_false]
  simp only [decide_eq_true_eq]

theorem State.sysResetDue_waits (h : s.waitsCarry .sysReset = false) : s.sysResetDue = s := State.sysResetDue_none (State.noResetWaits_iff.mpr h)

/-- A malformed frame is counted, and nothing more (R472). -/
theorem State.heardOn_bad {f : LineRx} {is : Heard → Bool} {act : Heard → State → State} (hp : s.portTakes f.port = true) (hf : f.heard = none) :
    s.heardOn f is act = s.countPort f.port 2 := by
  unfold State.heardOn
  rw [if_pos (by exact hp), hf]

/-- A frame of the row's kind: its header, then its meaning, while no reset waits. -/
theorem State.heardOn_kind {f : LineRx} {is : Heard → Bool} {act : Heard → State → State} {h : Heard} (hp : s.portTakes f.port = true)
    (hr : s.noResetWaits = true) (hf : f.heard = some h) (hk : is h = true)
    (hact : (s.headerTaken h).waitsCarry .sysReset = false → (act h (s.headerTaken h)).waitsCarry .sysReset = false) :
    s.heardOn f is act = act h (s.headerTaken h) := by
  have hw := hact ((HeaderKept.headerTaken h s).waits (State.noResetWaits_iff.mp hr))
  unfold State.heardOn
  rw [if_pos (by exact hp), hf]
  exact (if_pos hk).trans (State.sysResetDue_waits hw)

/-- A keyed frame whose CMAC verifies, or that a node without a key hears. -/
theorem State.keyed_ok {act : Heard → State → State} {h : Heard} (k : HeaderKept s t) (hk : s.fab.keyId = 0 ∨ s.macOk h = true) : State.keyed act h t = act h t := by
  unfold State.keyed
  refine if_pos ?_
  rw [k.keyId, k.macOk]
  rcases hk with hk | hk <;> rw [hk]
  · rfl
  · rw [Bool.or_true]

theorem State.keyed_bad {act : Heard → State → State} {h : Heard} (k : HeaderKept s t) (hk : s.fab.keyId ≠ 0) (hm : s.macOk h = false) :
    State.keyed act h t = t.countPort h.port 13 := by
  unfold State.keyed
  refine if_neg ?_
  rw [k.keyId, k.macOk, hm, Bool.or_false]
  exact fun hz => hk (eq_of_beq hz)

end Sys2Proof.Machine
end

section
/-! PROOFS. Frames taken from their bits (O49). -/

namespace Sys2Proof.Machine

variable {s t u : State} {p : PolId} {port : Port}

/-! ### The acknowledgements of a header -/

/-- Of a port only its unacknowledged frames have changed. -/
def LinePort.ReadFrom (a b : LinePort) : Prop := b = { a with unacked := b.unacked }

theorem LinePort.ReadFrom.trans {a b c : LinePort} (h : a.ReadFrom b) (k : b.ReadFrom c) : a.ReadFrom c := by
  unfold LinePort.ReadFrom at *
  rw [h] at k
  exact k

theorem State.packetCarried_port (k : OutPacket) (s : State) (q : Port) : (s.packetCarried k).port q = s.port q :=
  let ho := State.packetRead_only k s
  port_congr (ho.lineA.resolve_left Bool.false_ne_true) (ho.lineB.resolve_left Bool.false_ne_true) q

/-- An acknowledged frame is no longer waited for; nothing else of the ports has changed. -/
theorem State.acknowledged_port (x : Unacked) (s : State) (q : Port) :
    (s.acknowledged port x).port q = if q = port then (s.port port).settle x else s.port q := by
  unfold State.acknowledged
  dsimp only
  split
  · split
    · rw [State.packetCarried_port, State.port_modPort]
    · exact State.port_modPort ..
  · exact State.port_modPort ..

/-- What one frame that waits may come to, on the port of the frame heard. -/
theorem State.readAck_unacked (h : Heard) (n : Fin 63) (x : Unacked) (s : State) : let l := (s.port h.port).unacked
    let m := ((s.readAck h n x).port h.port).unacked
    m = l ∨ m = l.filter (fun v => !v.same x) ∨ m = l.map x.readBy := by
  unfold State.readAck
  split
  · exact .inl rfl
  · split
    · rw [State.acknowledged_port, if_pos rfl]
      exact .inr (.inl rfl)
    · rw [State.port_modPort, if_pos rfl]
      exact .inr (.inr rfl)

theorem State.readAck_port (h : Heard) (n : Fin 63) (x : Unacked) (s : State) (q : Port) : (s.port q).ReadFrom ((s.readAck h n x).port q) := by
  unfold State.readAck
  split
  · exact rfl
  · split
    · rw [State.acknowledged_port]
      split
      · next hq => rw [hq]; exact rfl
      · exact rfl
    · rw [State.port_modPort]
      split
      · next hq => rw [hq]; exact rfl
      · exact rfl

theorem State.readAcks_port (h : Heard) (s : State) (q : Port) : (s.port q).ReadFrom ((s.readAcks h).port q) := by
  have key : ∀ (l : List Unacked) (n : Fin 63) (s : State), (s.port q).ReadFrom ((l.foldl (State.readAck h n) s).port q) := by
    intro l n
    induction l with
    | nil => exact fun _ => rfl
    | cons x l ih => exact fun s => (State.readAck_port h n x s q).trans (ih _)
  cases hs : h.slot with
  | none => rw [State.readAcks_none hs]; exact rfl
  | some n => rw [State.readAcks_slot hs]; exact key _ n s

theorem Unacked.same_self (x : Unacked) : x.same x = true := by
  unfold Unacked.same
  rw [beq_self_eq_true, beq_self_eq_true]
  rfl

theorem Unacked.readBy_same (x v y : Unacked) : (x.readBy v).same y = v.same y := by
  unfold Unacked.readBy
  split <;> rfl

/-- No transmission like x waits on a port. -/
def State.settledOn (port : Port) (x : Unacked) (s : State) : Prop := ∀ v ∈ (s.port port).unacked, v.same x = false

theorem State.settledOn_readAck {h : Heard} {x : Unacked} (hs : s.settledOn h.port x) (n : Fin 63) (y : Unacked) : (s.readAck h n y).settledOn h.port x := by
  intro v hv
  rcases State.readAck_unacked h n y s with hm | hm | hm
  · rw [hm] at hv
    exact hs v hv
  · rw [hm] at hv
    exact hs v (List.mem_of_mem_filter hv)
  · rw [hm] at hv
    obtain ⟨w, hw, rfl⟩ := List.mem_map.mp hv
    rw [Unacked.readBy_same]
    exact hs w hw

theorem State.settledOn_foldl {h : Heard} {x : Unacked} (n : Fin 63) (l : List Unacked) (hs : s.settledOn h.port x) :
    (l.foldl (State.readAck h n) s).settledOn h.port x := by
  induction l generalizing s with
  | nil => exact hs
  | cons y l ih => exact ih (State.settledOn_readAck hs n y)

/-- A frame whose bit the map of its receiver's frame has set is acknowledged (R487, R488). -/
theorem State.settledOn_readAcks {h : Heard} {n : Fin 63} {x : Unacked} (hs : h.slot = some n) (hslot : n.val = addrSlot x.hop)
    (hsrc : h.src = x.hop ∨ (s.port h.port).ownerSlot n.val = true) (hx : x ∈ (s.port h.port).unacked) (hun : x.unread = true)
    (hbit : h.ackmap.toNat.testBit x.slot = true) : (s.readAcks h).settledOn h.port x := by
  have key : ∀ (l : List Unacked) (s : State), x ∈ l → (h.src = x.hop ∨ (s.port h.port).ownerSlot n.val = true) →
      (l.foldl (State.readAck h n) s).settledOn h.port x := by
    intro l
    induction l with
    | nil => exact fun _ hm => nomatch hm
    | cons y l ih =>
      intro s hm hsrc
      rw [List.foldl_cons]
      rcases List.mem_cons.mp hm with rfl | hm
      · refine State.settledOn_foldl n l fun v hv => ?_
        have hack : s.readAck h n x = s.acknowledged h.port x := by
          unfold State.readAck
          rw [if_neg, if_pos hbit]
          rintro (h1 | ⟨h1, h2⟩ | h3)
          · exact h1 hslot.symm
          · rcases hsrc with hsrc | hsrc
            · exact h1 hsrc
            · rw [hsrc] at h2; cases h2
          · rw [hun] at h3; cases h3
        rw [hack, State.acknowledged_port, if_pos rfl] at hv
        have hkeep := (List.mem_filter.mp hv).2
        exact Bool.not_eq_true' _ ▸ hkeep
      · refine ih _ hm ?_
        have hlast : ((s.readAck h n y).port h.port).ownerSlot n.val = (s.port h.port).ownerSlot n.val := by
          unfold LinePort.ownerSlot
          rw [State.readAck_port h n y s h.port]
        rw [hlast]
        exact hsrc
  rw [State.readAcks_slot hs]
  exact key _ s hx hsrc

/-! ### A JOIN in contention -/

theorem State.contend_contention (f : TxFrame) (s : State) : ((s.contend port f).port port).contention = (s.port port).contention ++ [f] := by
  unfold State.contend
  dsimp only
  split
  · show (((s.modPort port _).modPort port _).port port).contention = _
    rw [State.port_modPort, if_pos rfl, State.port_modPort, if_pos rfl]
  · rw [State.port_modPort, if_pos rfl]

/-- After a JOIN has been asked for one waits in contention, and at most one frame more than before. -/
theorem State.queueJoin_contention (reclaim : Bool) (s : State) : ((s.queueJoin port reclaim).port port).contention.any TxFrame.isJoin = true ∧
    (s.port port).contention.length ≤ ((s.queueJoin port reclaim).port port).contention.length ∧
    ((s.queueJoin port reclaim).port port).contention.length ≤ (s.port port).contention.length + 1 := by
  unfold State.queueJoin
  split
  · next h => exact ⟨h, le_rfl, Nat.le_succ _⟩
  · rw [State.contend_contention, List.any_append, List.length_append]
    refine ⟨?_, Nat.le_add_right .., le_rfl⟩
    rw [Bool.or_eq_true]
    exact .inr rfl

/-- Of a port only its contention has changed. -/
theorem State.queueJoin_port (reclaim : Bool) (s : State) (q : Port) : ∃ c b, (s.queueJoin port reclaim).port q = { s.port q with contention := c, backoff := b } := by
  unfold State.queueJoin
  split
  · exact ⟨_, _, rfl⟩
  · unfold State.contend
    dsimp only
    split
    · show ∃ c b, ((s.modPort port _).modPort port _).port q = _
      rw [State.port_modPort, State.port_modPort, State.port_modPort]
      split
      · next h => rw [h, if_pos rfl]; exact ⟨_, _, rfl⟩
      · exact ⟨_, _, rfl⟩
    · rw [State.port_modPort]
      split
      · next h => rw [h]; exact ⟨_, _, rfl⟩
      · exact ⟨_, _, rfl⟩

/-! ### A frame heard in the node's slot -/

theorem State.patientEvent_port (code : Nat) (payload : List Byte) (s : State) (q : Port) : (s.patientEvent code payload).port q = s.port q :=
  let ho := State.patientEvent_only code payload s
  port_congr (ho.lineA.resolve_left Bool.false_ne_true) (ho.lineB.resolve_left Bool.false_ne_true) q

theorem State.clashed_port (s : State) (q : Port) : (s.clashed port).port q = if q = port then
    { (s.port port).count 8 with conflictNow := true, conflictRun := (s.port port).conflictRun + 1, conflict := decide (3 ≤ (s.port port).conflictRun + 1) }
    else s.port q := by
  unfold State.clashed State.countPort
  rw [State.port_modPort, State.port_modPort, if_pos rfl, State.port_modPort]
  split <;> rfl

theorem State.mapsHeard_port (h : Heard) (s : State) (q : Port) : (s.mapsHeard h).port q = s.port q := by cases q <;> rfl

theorem State.hear_unacked (h : Heard) (s : State) (q : Port) : ((s.hear h).port q).unacked = (s.port q).unacked := by
  have hclash : (((s.mapsHeard h).clashed h.port).port q).unacked = (s.port q).unacked := by
    rw [State.clashed_port]
    split
    · next hq => rw [hq, State.mapsHeard_port]; rfl
    · rw [State.mapsHeard_port]
  rw [State.hear_eq]
  split
  · split
    · rw [State.patientEvent_port]
      obtain ⟨c, b, hj⟩ := ((s.mapsHeard h).clashed h.port).queueJoin_port (port := h.port) false q
      rw [hj]
      exact hclash
    · exact hclash
  · rw [State.mapsHeard_port]

/-- A collision in the node's slot: counted, and after the third cycle in a row declared with a JOIN (R496). -/
theorem State.hear_clash {h : Heard} (hc : s.clashes h = true) : let l := (s.hear h).port h.port
    l.conflictNow = true ∧ l.conflictRun = (s.port h.port).conflictRun + 1 ∧ l.conflict = decide (3 ≤ (s.port h.port).conflictRun + 1) ∧
      (2 ≤ (s.port h.port).conflictRun → l.contention.any TxFrame.isJoin = true) := by
  have hclash : ((s.mapsHeard h).clashed h.port).port h.port =
      { ((s.mapsHeard h).port h.port).count 8 with
        conflictNow := true, conflictRun := ((s.mapsHeard h).port h.port).conflictRun + 1,
        conflict := decide (3 ≤ ((s.mapsHeard h).port h.port).conflictRun + 1) } :=
    (State.clashed_port ..).trans (if_pos rfl)
  rw [State.mapsHeard_port] at hclash
  rw [State.hear_eq, if_pos hc]
  split
  · rw [State.patientEvent_port]
    obtain ⟨c, b, hj⟩ := ((s.mapsHeard h).clashed h.port).queueJoin_port (port := h.port) false h.port
    have hany := (((s.mapsHeard h).clashed h.port).queueJoin_contention (port := h.port) false).1
    rw [hj, hclash] at *
    exact ⟨rfl, rfl, rfl, fun _ => hany⟩
  · next hn =>
    rw [hclash]
    exact ⟨rfl, rfl, rfl, fun h2 => absurd (Nat.succ_le_succ h2) hn⟩

/-! ### DATA -/

/-- Counting on a port begins no wait. -/
theorem State.countPort_waits (i : Nat) (why : CarryWhy) (s : State) : (s.countPort port i).waitsCarry why = s.waitsCarry why := by cases port <;> rfl

theorem State.arrive_waits (pk : Packet) (h : s.waitsCarry .sysReset = false) : (s.arrive pk).waitsCarry .sysReset = false :=
  (State.arrive_only pk s).resets.resolve_left Bool.false_ne_true h

/-- A frame that came in contention for this node is taken (R473, R476). -/
theorem State.receiveHop_contention {h : Heard} {pol : Option PolId} {body : TxBody} (k : HeaderKept s t) (hn : s.frameForNode h = true) :
    t.receiveHop h pol body = (true, t.countPort h.port 1) := by
  unfold State.frameForNode at hn
  simp only [Bool.and_eq_true, beq_iff_eq, Bool.not_eq_eq_eq_not, Bool.not_true] at hn
  obtain ⟨⟨hslot, hdst⟩, haddr⟩ := hn
  unfold State.receiveHop
  dsimp only
  rw [if_pos hslot]
  exact if_pos ⟨hdst.trans k.addr.symm, k.unaddressed.trans haddr⟩

/-- A duplicate from a data slot is acknowledged and counted (R490). -/
theorem State.receiveHop_duplicate {h : Heard} {pol : Option PolId} {body : TxBody} (hs : h.slot.isSome = true) (hop : s.isHop h.port h.dst = true)
    (hd : (s.port h.port).isDuplicate { src := h.src, dst := h.dst, pol := pol } h.isNew h.fseq s.clock.elapsed = true) :
    s.receiveHop h pol body = (false, (s.willAck h).countPort h.port 4) := by
  have hslot : ¬ h.slot.isNone = true := by
    rw [Option.isNone_iff_eq_none]
    intro hn
    rw [hn] at hs
    cases hs
  unfold State.receiveHop
  dsimp only
  rw [if_neg hslot, if_neg (by rw [hop]; decide), if_pos hd]

theorem State.willAck_waits (h : Heard) (why : CarryWhy) (s : State) : (s.willAck h).waitsCarry why = s.waitsCarry why := by
  unfold State.willAck
  split
  · cases h.port <;> rfl
  · rfl

/-! ### The kinds a keyed row hears -/

theorem isKind_of {k : Nat} {h : Heard} (hk : h.kind = k) : Heard.isKind k h = true := beq_iff_eq.mpr hk

/-- A keyed frame with another CMAC is only counted, whatever its row (R508). -/
theorem State.heardOn_macFail {f : LineRx} {h : Heard} {is : Heard → Bool} {act : Heard → State → State} (hp : s.portTakes f.port = true)
    (hr : s.noResetWaits = true) (hf : f.heard = some h) (hk : is h = true) (hkey : s.fab.keyId ≠ 0) (hmac : s.macOk h = false) :
    s.heardOn f is (State.keyed act) = (s.headerTaken h).countPort h.port 13 := by
  have hbad := State.keyed_bad (act := act) (HeaderKept.headerTaken h s) hkey hmac
  rw [State.heardOn_kind hp hr hf hk fun hw => by rw [hbad, State.countPort_waits]; exact hw, hbad]

/-- A keyed frame of the row's kind: its header, then its meaning. -/
theorem State.heardOn_keyed {f : LineRx} {h : Heard} {is : Heard → Bool} {act : Heard → State → State} (hp : s.portTakes f.port = true)
    (hr : s.noResetWaits = true) (hf : f.heard = some h) (hk : is h = true) (hkey : s.fab.keyId = 0 ∨ s.macOk h = true)
    (hact : (s.headerTaken h).waitsCarry .sysReset = false → (act h (s.headerTaken h)).waitsCarry .sysReset = false) :
    s.heardOn f is (State.keyed act) = act h (s.headerTaken h) := by
  have hok := State.keyed_ok (act := act) (HeaderKept.headerTaken h s) hkey
  rw [State.heardOn_kind hp hr hf hk fun hw => by rw [hok]; exact hact hw, hok]

/-- A frame that does not reach the node is heard for its header only. -/
theorem State.heardOn_other {f : LineRx} {h : Heard} {is : Heard → Bool} {act : Heard → State → State} (hp : s.portTakes f.port = true)
    (hr : s.noResetWaits = true) (hf : f.heard = some h) (hk : is h = true) (hkey : s.fab.keyId = 0 ∨ s.macOk h = true)
    (hact : act h (s.headerTaken h) = s.headerTaken h) : s.heardOn f is (State.keyed act) = s.headerTaken h :=
  (State.heardOn_keyed hp hr hf hk hkey fun hw => by rw [hact]; exact hw).trans hact

/-- An accepted JOIN is counted and its unique ID known. -/
def State.joinTaken (h : Heard) (s : State) : State :=
  (s.countPort h.port 1).noteUid (JoinFields.decode h.payload).addr (JoinFields.decode h.payload).uid

theorem State.noteUid_eq (addr : BitVec 12) (uid : BitVec 64) (s : State) : ∃ k, s.noteUid addr uid = { s with fab := { s.fab with known := k } } := by
  unfold State.noteUid
  split
  · exact ⟨_, rfl⟩
  · exact ⟨_, rfl⟩

theorem State.countPort_fab (i : Nat) (s : State) : (s.countPort port i).fab = s.fab ∧ (s.countPort port i).homePort = s.homePort := by
  cases port <;> exact ⟨rfl, rfl⟩

theorem State.joinTaken_kept (h : Heard) (s : State) : (s.joinTaken h).fab.role = s.fab.role ∧ (s.joinTaken h).homePort = s.homePort ∧
    (s.joinTaken h).fab.joinQueue = s.fab.joinQueue ∧ (s.joinTaken h).carries = s.carries := by
  obtain ⟨k, hk⟩ := (s.countPort h.port 1).noteUid_eq (JoinFields.decode h.payload).addr (JoinFields.decode h.payload).uid
  obtain ⟨hfab, hhome⟩ := s.countPort_fab (port := h.port) 1
  unfold State.joinTaken
  rw [hk]
  have hrole : (s.countPort h.port 1).fab.role = s.fab.role := by rw [hfab]
  have hqueue : (s.countPort h.port 1).fab.joinQueue = s.fab.joinQueue := by rw [hfab]
  refine ⟨hrole, hhome, hqueue, ?_⟩
  cases h.port <;> rfl

/-- What JOIN does with a frame that is accepted (R480, R493). -/
def State.joinHeard (h : Heard) (s : State) : State :=
  if (s.fab.role != 0 && h.port == s.homePort) = true then (s.joinTaken h).noteJoin (JoinFields.decode h.payload) else s.joinTaken h

theorem State.noteJoin_carries (j : JoinFields) (s : State) : (s.noteJoin j).carries = s.carries :=
  (State.noteJoin_only j s).carries.resolve_left Bool.false_ne_true

theorem execJoin_accepted {f : LineRx} {h : Heard} (hp : s.portTakes f.port = true) (hr : s.noResetWaits = true) (hf : f.heard = some h) (hk : h.kind = 4)
    (hkey : s.fab.keyId = 0 ∨ s.macOk h = true) (ha : (s.headerTaken h).accepts h.port h.dst = true) :
    exec (.join f) s = .next ((s.headerTaken h).joinHeard h) := by
  have hact : (if (!(s.headerTaken h).accepts h.port h.dst) = true then s.headerTaken h else
      if (((s.headerTaken h).joinTaken h).fab.role != 0 && h.port == ((s.headerTaken h).joinTaken h).homePort) = true
      then ((s.headerTaken h).joinTaken h).noteJoin (JoinFields.decode h.payload) else (s.headerTaken h).joinTaken h) = (s.headerTaken h).joinHeard h := by
    obtain ⟨h1, h2, -, -⟩ := (s.headerTaken h).joinTaken_kept h
    rw [if_neg (by rw [ha]; decide), h1, h2]
    rfl
  refine congrArg Host.Outcome.next ((State.heardOn_keyed hp hr hf (isKind_of hk) hkey fun hw => ?_).trans hact)
  refine (congrArg (fun t : State => t.waitsCarry .sysReset) hact).trans ?_
  have hcarry : ((s.headerTaken h).joinHeard h).carries = (s.headerTaken h).carries := by
    obtain ⟨-, -, -, h4⟩ := (s.headerTaken h).joinTaken_kept h
    unfold State.joinHeard
    split
    · exact (State.noteJoin_carries ..).trans h4
    · exact h4
  unfold State.waitsCarry
  rw [hcarry]
  exact hw

theorem execDiscover_answered {f : LineRx} {h : Heard} (hp : s.portTakes f.port = true) (hr : s.noResetWaits = true) (hf : f.heard = some h) (hk : h.kind = 5)
    (hmac : s.macOk h = true) (ha : (s.headerTaken h).accepts h.port h.dst = true)
    (hfilter : h.payload.getD 0 0 = 0 ∨ (h.payload.getD 0 0 = 1 ∧ s.unaddressed = true)) :
    exec (.discover f) s = .next (((s.headerTaken h).countPort h.port 1).queueJoin h.port false) := by
  have hkept : HeaderKept s ((s.headerTaken h).countPort h.port 1) := (HeaderKept.headerTaken h s).trans (HeaderKept.countPort 1)
  have hact : (if (!(s.headerTaken h).accepts h.port h.dst || decide (1 < h.filter.toNat)) = true then s.headerTaken h else
      if (((s.headerTaken h).countPort h.port 1).macOk h && (h.filter == 0 || ((s.headerTaken h).countPort h.port 1).unaddressed)) = true
      then ((s.headerTaken h).countPort h.port 1).queueJoin h.port false else (s.headerTaken h).countPort h.port 1) =
      ((s.headerTaken h).countPort h.port 1).queueJoin h.port false := by
    have hf0 : h.filter = h.payload.getD 0 0 := rfl
    rw [ha, hkept.macOk, hmac, hkept.unaddressed, hf0]
    rcases hfilter with hz | ⟨hz, hu⟩
    · rw [hz]
      rfl
    · rw [hz, hu]
      rfl
  refine congrArg Host.Outcome.next ((State.heardOn_keyed hp hr hf (isKind_of hk) (.inr hmac) fun hw => ?_).trans hact)
  refine (congrArg (fun t : State => t.waitsCarry .sysReset) hact).trans ?_
  exact (HeaderKept.queueJoin false).waits (by rw [State.countPort_waits]; exact hw)

theorem malformed_counted : ∀ (s : State) (f : LineRx) (x : Instr), s.portTakes f.port = true → f.heard = none →
    x ∈ [Instr.ack f, Instr.data f, Instr.wake f, Instr.join f, Instr.discover f, Instr.route f, Instr.drain f, Instr.drainDone f, Instr.rangeEcho f,
      Instr.swapReq f, Instr.swapReady f, Instr.swapNot f, Instr.swapDone f] →
    exec x s = .next (s.countPort f.port 2) := by
  intro s f x hp hf hx
  have hbad : ∀ is act, Host.Outcome.next (s.heardOn f is act) = (.next (s.countPort f.port 2) : Host.Outcome State Fault Refusal) :=
    fun _ _ => congrArg Host.Outcome.next (State.heardOn_bad hp hf)
  simp only [List.mem_cons, List.not_mem_nil, or_false] at hx
  rcases hx with rfl | rfl | rfl | rfl | rfl | rfl | rfl | rfl | rfl | rfl | rfl | rfl | rfl <;> exact hbad _ _

theorem wake_header : ∀ (s : State) (f : LineRx) (h : Heard), s.portTakes f.port = true → s.noResetWaits = true → f.heard = some h → h.kind = 3 →
    exec (.wake f) s = .next (s.headerTaken h) := by
  intro s f h hp hr hf hk
  exact congrArg Host.Outcome.next (State.heardOn_kind hp hr hf (isKind_of hk) fun hw => hw)

theorem wake_acknowledges : ∀ (s : State) (f : LineRx) (h : Heard) (u : Unacked) (n : Fin 63), s.portTakes f.port = true → s.noResetWaits = true → f.heard = some h → h.kind = 3 →
    h.slot = some n → n.val = addrSlot u.hop → (h.src = u.hop ∨ (s.port h.port).ownerSlot n.val = true) →
    u ∈ (s.port h.port).unacked → u.unread = true → h.ackmap.toNat.testBit u.slot = true →
    ∃ t, exec (.wake f) s = .next t ∧ u ∉ (t.port h.port).unacked := by
  intro s f h x n hp hr hf hk hs hslot hsrc hx hun hbit
  refine ⟨_, congrArg Host.Outcome.next (State.heardOn_kind hp hr hf (isKind_of hk) fun hw => hw), fun hm => ?_⟩
  have hlast : ((s.hear h).port h.port).ownerSlot n.val = (s.port h.port).ownerSlot n.val := by
    unfold LinePort.ownerSlot
    rw [(HeaderKept.hear h s).port h.port]
  have hgone := State.settledOn_readAcks (s := s.hear h) hs hslot (by rw [hlast]; exact hsrc) (by rw [State.hear_unacked]; exact hx) hun hbit x hm
  rw [Unacked.same_self] at hgone
  cases hgone

theorem wake_collides : ∀ (s : State) (f : LineRx) (h : Heard) (n : Fin 63), s.portTakes f.port = true → s.noResetWaits = true → f.heard = some h → h.kind = 3 →
    h.slot = some n → n.val = s.ownSlot → s.unaddressed = false →
    (s.port h.port).slotFrom = true → (s.port h.port).conflict = false → (s.port h.port).conflictNow = false →
    ∃ t, exec (.wake f) s = .next t ∧ (t.port h.port).conflictNow = true ∧ (t.port h.port).conflictRun = (s.port h.port).conflictRun + 1 ∧
      (t.port h.port).conflict = decide (2 ≤ (s.port h.port).conflictRun) ∧
      (2 ≤ (s.port h.port).conflictRun → (t.port h.port).contention.any TxFrame.isJoin = true) := by
  intro s f h n hp hr hf hk hs hslot haddr hfrom hc hnow
  have hclash : s.clashes h = true := by
    unfold State.clashes
    rw [hs, haddr, hfrom, hc, hnow]
    show (!false && n.val == s.ownSlot && true && !false && !false) = true
    rw [beq_iff_eq.mpr hslot]
    rfl
  obtain ⟨h1, h2, h3, h4⟩ := State.hear_clash hclash
  have hport := (s.hear h).readAcks_port h h.port
  unfold LinePort.ReadFrom at hport
  refine ⟨_, congrArg Host.Outcome.next (State.heardOn_kind hp hr hf (isKind_of hk) fun hw => hw), ?_⟩
  show (((s.hear h).readAcks h).port h.port).conflictNow = true ∧ (((s.hear h).readAcks h).port h.port).conflictRun = _ ∧
    (((s.hear h).readAcks h).port h.port).conflict = _ ∧ (_ → (((s.hear h).readAcks h).port h.port).contention.any TxFrame.isJoin = true)
  rw [hport]
  refine ⟨h1, h2, h3.trans ?_, h4⟩
  exact decide_eq_decide.mpr ⟨Nat.le_of_succ_le_succ, Nat.succ_le_succ⟩

theorem ack_counted : ∀ (s : State) (f : LineRx) (h : Heard), s.portTakes f.port = true → s.noResetWaits = true → f.heard = some h → h.kind = 0 →
    exec (.ack f) s = .next (if (s.headerTaken h).accepts h.port h.dst then (s.headerTaken h).countPort h.port 1 else s.headerTaken h) := by
  intro s f h hp hr hf hk
  refine congrArg Host.Outcome.next (State.heardOn_kind hp hr hf (isKind_of hk) fun hw => ?_)
  split
  · exact (State.countPort_waits ..).trans hw
  · exact hw

theorem data_arrives : ∀ (s : State) (f : LineRx) (h : Heard), s.portTakes f.port = true → s.noResetWaits = true → f.heard = some h → h.kind = 1 → s.frameForNode h = true →
    exec (.data f) s = .next (if s.power.accepting then
        ((s.headerTaken h).countPort h.port 1).arrive { bytes := h.payload, path := .line h.src }
      else ((s.headerTaken h).countPort h.port 1).countPort h.port 3) := by
  intro s f h hp hr hf hk hn
  have hrec := State.receiveHop_contention (pol := some h.packet.pol) (body := .data (.relayed h.packet)) (HeaderKept.headerTaken h s) hn
  have hpower : ((s.headerTaken h).countPort h.port 1).power = s.power :=
    (State.countPort_power ..).1.trans (HeaderKept.headerTaken h s).power
  have hup : ((s.headerTaken h).countPort h.port 1).dataUp h = if s.power.accepting = true then
      ((s.headerTaken h).countPort h.port 1).arrive { bytes := h.payload, path := .line h.src }
      else ((s.headerTaken h).countPort h.port 1).countPort h.port 3 := by
    unfold State.dataUp
    rw [hpower]
    rfl
  rw [← hup]
  have hact : (match (s.headerTaken h).receiveHop h (some h.packet.pol) (.data (.relayed h.packet)) with
      | (true, s) => s.dataUp h
      | (false, s) => s) = ((s.headerTaken h).countPort h.port 1).dataUp h := by rw [hrec]
  refine congrArg Host.Outcome.next ((State.heardOn_kind hp hr hf (isKind_of hk) fun hw => ?_).trans hact)
  refine (congrArg (fun t : State => t.waitsCarry .sysReset) hact).trans ?_
  rw [hup]
  split
  · exact State.arrive_waits _ ((State.countPort_waits ..).trans hw)
  · exact (State.countPort_waits ..).trans ((State.countPort_waits ..).trans hw)

theorem data_duplicate : ∀ (s : State) (f : LineRx) (h : Heard), s.portTakes f.port = true → s.noResetWaits = true → f.heard = some h → h.kind = 1 → h.slot.isSome = true →
    (s.headerTaken h).isHop h.port h.dst = true →
    ((s.headerTaken h).port h.port).isDuplicate { src := h.src, dst := h.dst, pol := some (Fin.ofNat 8 (h.payload.getD 1 0).toNat) } h.isNew h.fseq
      s.clock.elapsed = true →
    exec (.data f) s = .next (((s.headerTaken h).willAck h).countPort h.port 4) := by
  intro s f h hp hr hf hk hs hop hd
  have hrec := State.receiveHop_duplicate (s := s.headerTaken h) (pol := some h.packet.pol) (body := .data (.relayed h.packet)) hs hop
    (by rw [(HeaderKept.headerTaken h s).elapsed]; exact hd)
  have hact : (match (s.headerTaken h).receiveHop h (some h.packet.pol) (.data (.relayed h.packet)) with
      | (true, s) => s.dataUp h
      | (false, s) => s) = ((s.headerTaken h).willAck h).countPort h.port 4 := by rw [hrec]
  refine congrArg Host.Outcome.next ((State.heardOn_kind hp hr hf (isKind_of hk) fun hw => ?_).trans hact)
  refine (congrArg (fun t : State => t.waitsCarry .sysReset) hact).trans ?_
  exact (State.countPort_waits ..).trans ((State.willAck_waits ..).trans hw)

theorem join_heard : ∀ (s : State) (f : LineRx) (h : Heard), s.portTakes f.port = true → s.noResetWaits = true → f.heard = some h → h.kind = 4 →
    (s.fab.keyId = 0 ∨ s.macOk h = true) → (s.headerTaken h).accepts h.port h.dst = true →
    let j := JoinFields.decode h.payload
    (s.fab.role = 0 → exec (.join f) s = .next (((s.headerTaken h).countPort h.port 1).noteUid j.addr j.uid)) ∧
    (s.fab.role ≠ 0 → h.port = s.homePort → j.unaddressed = true →
      ∃ t, exec (.join f) s = .next t ∧ t.fab.joinQueue = (if s.fab.joinQueue.contains j.uid then s.fab.joinQueue else s.fab.joinQueue ++ [j.uid])) := by
  refine fun s f h hp hr hf hk hkey ha => ⟨fun hrole => ?_, fun hrole hhome hj => ?_⟩
  · rw [execJoin_accepted hp hr hf hk hkey ha]
    refine congrArg Host.Outcome.next (if_neg ?_)
    rw [(HeaderKept.headerTaken h s).fab, hrole]
    exact Bool.false_ne_true
  · have hkept := HeaderKept.headerTaken h s
    have hreeve : ((s.headerTaken h).fab.role != 0 && h.port == (s.headerTaken h).homePort) = true := by
      rw [hkept.homePort, hhome, beq_self_eq_true, Bool.and_true, hkept.fab]
      exact bne_iff_ne.mpr hrole
    refine ⟨_, execJoin_accepted hp hr hf hk hkey ha, ?_⟩
    unfold State.joinHeard
    rw [if_pos hreeve]
    obtain ⟨-, -, hq, -⟩ := (s.headerTaken h).joinTaken_kept h
    have hqueue : ((s.headerTaken h).joinTaken h).fab.joinQueue = s.fab.joinQueue := hq.trans (by rw [hkept.fab])
    unfold State.noteJoin
    rw [if_pos hj, hqueue]
    split
    · exact hqueue
    · rfl

theorem discover_answered : ∀ (s : State) (f : LineRx) (h : Heard), s.portTakes f.port = true → s.noResetWaits = true → f.heard = some h → h.kind = 5 → s.macOk h = true →
    (s.headerTaken h).accepts h.port h.dst = true → (h.payload.getD 0 0 = 0 ∨ (h.payload.getD 0 0 = 1 ∧ s.unaddressed = true)) →
    ∃ t, exec (.discover f) s = .next t ∧ (t.port h.port).contention.any TxFrame.isJoin = true ∧
      ((s.headerTaken h).port h.port).contention.length ≤ (t.port h.port).contention.length ∧
      (t.port h.port).contention.length ≤ ((s.headerTaken h).port h.port).contention.length + 1 := by
  intro s f h hp hr hf hk hmac ha hfilter
  refine ⟨_, execDiscover_answered hp hr hf hk hmac ha hfilter, ?_⟩
  obtain ⟨h1, h2, h3⟩ := ((s.headerTaken h).countPort h.port 1).queueJoin_contention (port := h.port) false
  have hcount : (((s.headerTaken h).countPort h.port 1).port h.port).contention = ((s.headerTaken h).port h.port).contention := by
    unfold State.countPort
    rw [State.port_modPort, if_pos rfl]
    rfl
  rw [hcount] at h2 h3
  exact ⟨h1, h2, h3⟩

theorem keyed_forged : ∀ (s : State) (f : LineRx) (h : Heard) (x : Instr), s.portTakes f.port = true → s.noResetWaits = true → f.heard = some h →
    s.fab.keyId ≠ 0 → s.macOk h = false →
    (x, h.kind) ∈ [(Instr.join f, 4), (Instr.discover f, 5), (Instr.route f, 6), (Instr.drain f, 7), (Instr.drainDone f, 8)] →
    exec x s = .next ((s.headerTaken h).countPort h.port 13) := by
  intro s f h x hp hr hf hkey hmac hx
  have hbad : ∀ {is : Heard → Bool} {act : Heard → State → State}, is h = true → Host.Outcome.next (s.heardOn f is (State.keyed act)) =
      (.next ((s.headerTaken h).countPort h.port 13) : Host.Outcome State Fault Refusal) :=
    fun hk => congrArg Host.Outcome.next (State.heardOn_macFail hp hr hf hk hkey hmac)
  simp only [List.mem_cons, List.not_mem_nil, or_false, Prod.mk.injEq] at hx
  rcases hx with ⟨rfl, hk⟩ | ⟨rfl, hk⟩ | ⟨rfl, hk⟩ | ⟨rfl, hk⟩ | ⟨rfl, hk⟩ <;> exact hbad (isKind_of hk)

theorem keyed_elsewhere : ∀ (s : State) (f : LineRx) (h : Heard) (x : Instr), s.portTakes f.port = true → s.noResetWaits = true → f.heard = some h →
    (s.fab.keyId = 0 ∨ s.macOk h = true) → (s.headerTaken h).takes h.port h.dst = false →
    (x, h.kind) ∈ [(Instr.join f, 4), (Instr.discover f, 5), (Instr.route f, 6), (Instr.drain f, 7), (Instr.drainDone f, 8)] →
    exec x s = .next (s.headerTaken h) := by
  intro s f h x hp hr hf hkey ht hx
  have ht' : (s.headerTaken h).accepts h.port h.dst = false := by
    unfold State.takes at ht
    rw [Bool.or_eq_false_iff] at ht
    exact ht.1
  have hother : ∀ {is : Heard → Bool} {act : Heard → State → State}, is h = true → act h (s.headerTaken h) = s.headerTaken h →
      Host.Outcome.next (s.heardOn f is (State.keyed act)) = (.next (s.headerTaken h) : Host.Outcome State Fault Refusal) :=
    fun hk hact => congrArg Host.Outcome.next (State.heardOn_other hp hr hf hk hkey hact)
  have hno : (!(s.headerTaken h).accepts h.port h.dst) = true := by rw [ht']; rfl
  have hnot : ∀ b : Bool, (!(s.headerTaken h).takes h.port h.dst || b) = true := fun b => by rw [ht]; rfl
  simp only [List.mem_cons, List.not_mem_nil, or_false, Prod.mk.injEq] at hx
  rcases hx with ⟨rfl, hk⟩ | ⟨rfl, hk⟩ | ⟨rfl, hk⟩ | ⟨rfl, hk⟩ | ⟨rfl, hk⟩
  · exact hother (isKind_of hk) (if_pos hno)
  · exact hother (isKind_of hk) (if_pos (by rw [hno]; rfl))
  · exact hother (isKind_of hk) (if_pos hno)
  · exact hother (isKind_of hk) (if_pos (hnot _))
  · exact hother (isKind_of hk) (if_pos (hnot _))

theorem lineFrameBad_counts : ∀ (s : State) (f : LineRx), s.portLive f.port = true →
    exec (.lineFrameBad f) s = .next (match f.heard with
      | none => s.countPort f.port 2
      | some h => if (h.kind = 2 ∨ 4 ≤ h.kind) ∧ s.fab.keyId ≠ 0 ∧ s.macOk h = false then s.countPort f.port 13 else s) := by
  intro s f hp
  refine congrArg Host.Outcome.next ((if_neg (by rw [hp]; decide)).trans ?_)
  cases f.heard with
  | none => rfl
  | some h =>
    dsimp only
    refine if_congr ?_ rfl rfl
    unfold kindSigned
    simp only [Bool.and_eq_true, Bool.or_eq_true, beq_iff_eq, decide_eq_true_eq, bne_iff_ne, Bool.not_eq_eq_eq_not, Bool.not_true, and_assoc]

/-- Settles O49: the header is taken first, then what the kind says, by a node that the frame reaches. -/
theorem framesHeard : Obligations.FramesHeard :=
  ⟨malformed_counted, wake_header, wake_acknowledges, wake_collides, ack_counted, data_arrives, data_duplicate, join_heard, discover_answered,
   keyed_forged, keyed_elsewhere, lineFrameBad_counts⟩

end Sys2Proof.Machine
end

section
/-! PROOFS. Routes, drains, and the frames a bridge holds (O50). -/

namespace Sys2Proof.Machine

variable {s t u : State} {p q : Port}

/-- What a change of a port leaves of every port. -/
theorem State.port_modPort_same {α : Type} (g : LinePort → α) {f : LinePort → LinePort} (hf : ∀ l, g (f l) = g l) (s : State) (p q : Port) :
    g ((s.modPort p f).port q) = g (s.port q) := by
  rw [State.port_modPort]
  split
  · next h => rw [hf, h]
  · rfl

/-! ### Routes and claimants computed anew -/

theorem State.reroute_routes (s : State) : s.reroute.fab.routes = s.reroute.routeTable := rfl

theorem State.reroute_port (s : State) (q : Port) : s.reroute.port q = s.port q := by cases q <;> rfl

theorem State.sendDrain_adverts (g : BitVec 6) (s : State) (q : Port) : ((s.sendDrain p g).port q).adverts = (s.port q).adverts := by
  unfold State.sendDrain
  dsimp only
  rw [State.port_modPort]
  split
  · next h => rw [h]; cases p <;> rfl
  · cases q <;> rfl

theorem State.claimantChange_adverts (g : BitVec 6) (old new : Option (BitVec 12)) (s : State) (q : Port) :
    ((s.claimantChange p g old new).port q).adverts = (s.port q).adverts := by
  unfold State.claimantChange
  split
  · rfl
  · split
    · rfl
    · split
      · exact State.sendDrain_adverts ..
      · split
        · rw [State.port_modPort]
          split
          · next h => rw [h]
          · rfl
        · rfl

/-- Claimants computed anew leave the adverts (R500, R501). -/
theorem State.reclaim_adverts (s : State) (q : Port) : ((s.reclaim p).port q).adverts = (s.port q).adverts := by
  have hfold : ∀ (old new : Nat → Option (BitVec 12)) (l : List Nat) (v : State),
      ((l.foldl (fun s i => s.claimantChange p (BitVec.ofNat 6 i) (old i) (new i)) v).port q).adverts = (v.port q).adverts := by
    intro old new l
    induction l with
    | nil => exact fun _ => rfl
    | cons i l ih => exact fun v => (ih _).trans (State.claimantChange_adverts ..)
  unfold State.reclaim
  refine (hfold _ _ _ _).trans ?_
  rw [State.port_modPort]
  split
  · next h => rw [h]
  · rfl

theorem State.reroutes_adverts (s : State) (q : Port) : (s.reroutes.port q).adverts = (s.port q).adverts := by
  unfold State.reroutes
  rw [State.reroute_port, State.reclaim_adverts, State.reclaim_adverts, State.reroute_port]

theorem State.reroutes_routes (s : State) : s.reroutes.fab.routes = s.reroutes.routeTable := by
  unfold State.reroutes
  exact State.reroute_routes _

/-! ### ROUTE and ROUTE_LAPSE -/

/-- The advert of a frame replaces its sender's last one on the port (R498). -/
def State.advertHeard (h : Heard) (s : State) : State :=
  (s.countPort h.port 1).modPort h.port (fun l =>
    { l with adverts := { from_ := h.src, hops := (h.payload.drop 1).take 63 } :: l.adverts.filter (fun a => a.from_ ≠ h.src) })

/-- A reeve notes the bridge that advertises (R480). -/
def State.bridgeNoted (h : Heard) (s : State) : State :=
  if (s.fab.role != 0 && h.port == s.homePort) = true then { s with fab := { s.fab with bridges := s.fab.bridges ||| bitOf 64 (addrSlot h.src) } } else s

theorem State.bridgeNoted_port (h : Heard) (s : State) (q : Port) : (s.bridgeNoted h).port q = s.port q := by
  unfold State.bridgeNoted
  split
  · cases q <;> rfl
  · rfl

/-- Of the state an advert changes only ports and the fabric's maps and routes. -/
theorem State.advertHeard_only (h : Heard) (s : State) : Only { lineA := true, lineB := true, fab := true } s ((s.advertHeard h).bridgeNoted h).reroutes := by
  refine (State.reroutes_only _).after ?_ rfl
  have hcount := (State.countPort_only h.port 1 s).mono (B := { lineA := true, lineB := true, fab := true }) rfl
  have hadvert : Only { lineA := true, lineB := true, fab := true } s (s.advertHeard h) := (State.modPort_only ..).after hcount rfl
  unfold State.bridgeNoted
  split
  · exact Only.upd rfl hadvert rfl
  · exact hadvert

theorem execRoute_eq {f : LineRx} {h : Heard} (hp : s.portTakes f.port = true) (hr : s.noResetWaits = true) (hf : f.heard = some h) (hk : h.kind = 6)
    (hkey : s.fab.keyId = 0 ∨ s.macOk h = true) (ha : (s.headerTaken h).accepts h.port h.dst = true) :
    exec (.route f) s = .next (((s.headerTaken h).advertHeard h).bridgeNoted h).reroutes := by
  have hact : (if (!(s.headerTaken h).accepts h.port h.dst) = true then s.headerTaken h else (((s.headerTaken h).advertHeard h).bridgeNoted h).reroutes) =
      (((s.headerTaken h).advertHeard h).bridgeNoted h).reroutes := if_neg (by rw [ha]; decide)
  refine congrArg Host.Outcome.next ((State.heardOn_keyed hp hr hf (isKind_of hk) hkey fun hw => ?_).trans hact)
  refine (congrArg (fun t : State => t.waitsCarry .sysReset) hact).trans ?_
  exact (State.advertHeard_only h _).resets.resolve_left Bool.false_ne_true hw

/-- A segment forgotten in the adverts of a hop (R499). -/
def Advert.without (hop : BitVec 12) (g : Nat) (a : Advert) : Advert :=
  if a.from_ = hop then { a with hops := a.hops.mapIdx (fun i b => if i = g then 0xff else b) } else a

theorem Advert.without_from (hop : BitVec 12) (g : Nat) (a : Advert) : (a.without hop g).from_ = a.from_ := by
  unfold Advert.without
  split <;> rfl

/-- A forgotten segment cannot be reached by the advert (R498, R499). -/
theorem Advert.without_value {hop : BitVec 12} {a : Advert} (g : Fin 63) (ha : a.from_ = hop) (hl : a.hops.length = 63) :
    (a.without hop g.val).value (BitVec.ofNat 6 g.val) = 16 := by
  have hg : (BitVec.ofNat 6 g.val).toNat = g.val := by
    rw [BitVec.toNat_ofNat]
    exact Nat.mod_eq_of_lt (by have := g.isLt; omega)
  have hbyte : byteAt (a.hops.mapIdx (fun i b => if i = g.val then 0xff else b)) g.val = 0xff := by
    unfold byteAt
    rw [List.getD_eq_getElem?_getD, List.getElem?_mapIdx, List.getElem?_eq_getElem (by have := g.isLt; omega)]
    exact if_pos rfl
  unfold Advert.without Advert.value
  rw [if_pos ha, hg, hbyte]
  rfl

/-- The state in which a route's hop no longer leads to a segment. -/
def State.hopForgotten (g : Fin 63) (r : RouteEntry) (s : State) : State :=
  s.modPort r.port (fun l => { l with adverts := l.adverts.map (Advert.without r.nextHop g.val) })

theorem execRouteLapse_eq {g : Fin 63} {r : RouteEntry} (hr : s.fab.routes.find? (fun x => x.segment == BitVec.ofNat 6 g.val) = some r) :
    exec (.routeLapse g) s = .next (s.hopForgotten g r).reroutes := by
  refine congrArg Host.Outcome.next ?_
  split
  · next x hx =>
    rw [hr] at hx
    cases hx
    rfl
  · next hn => rw [hr] at hn; cases hn

theorem LinePort.mem_advertisers {l : LinePort} {g : BitVec 6} {x : Nat × BitVec 12} :
    x ∈ l.advertisers g ↔ (∃ a ∈ l.adverts, (a.value g, a.from_) = x) ∧ x.1 ≤ 15 := by
  unfold LinePort.advertisers
  rw [List.mem_filter, List.mem_map, decide_eq_true_eq]

theorem State.hopForgotten_advertisers {g : Fin 63} {r : RouteEntry} (hl : ∀ a ∈ (s.port r.port).adverts, a.hops.length = 63) :
    ∀ x ∈ ((s.hopForgotten g r).reroutes.port r.port).advertisers (BitVec.ofNat 6 g.val), x.2 ≠ r.nextHop := by
  intro x hx hhop
  rw [LinePort.mem_advertisers, State.reroutes_adverts] at hx
  obtain ⟨⟨a, ha, hax⟩, hle⟩ := hx
  have hport : ((s.hopForgotten g r).port r.port).adverts = (s.port r.port).adverts.map (Advert.without r.nextHop g.val) := by
    unfold State.hopForgotten
    rw [State.port_modPort, if_pos rfl]
  rw [hport] at ha
  obtain ⟨b, hb, rfl⟩ := List.mem_map.mp ha
  have hfrom : b.from_ = r.nextHop := by
    rw [← hhop, ← hax]
    exact (Advert.without_from ..).symm
  have hval := Advert.without_value g hfrom (hl b hb)
  rw [← hax] at hle
  have hle' : 16 ≤ 15 := hval ▸ hle
  exact absurd hle' (by decide)

/-! ### Drains -/

/-- The segments whose frames a port holds back. -/
def LinePort.heldSegs (l : LinePort) : List (BitVec 6) := l.holdBacks.map (fun b => b.segU)

theorem LinePort.holdBacks_any (l : LinePort) (g : BitVec 6) : l.holdBacks.any (fun b => b.segU == g) = l.heldSegs.any (fun x => x == g) := by
  unfold LinePort.heldSegs
  rw [List.any_map]
  rfl

theorem State.buffer_heldSegs (from_ out : Port) (f : FwdFrame) (s : State) (q : Port) : ((s.buffer from_ out f).2.port q).heldSegs = (s.port q).heldSegs := by
  unfold State.buffer
  dsimp only
  split
  · unfold State.countPort
    rw [State.port_modPort]
    split
    · next h => rw [h]; rfl
    · rfl
  · split
    · rw [State.port_modPort]
      split
      · next h =>
        rw [h]
        unfold LinePort.heldSegs
        rw [List.map_map]
        refine List.map_congr_left fun b _ => ?_
        show HoldBack.segU (if _ then _ else _) = _
        split <;> rfl
      · rfl
    · rw [State.port_modPort]
      split
      · next h => rw [h]; rfl
      · rfl

theorem State.forwardDrain_heldSegs (h : Heard) (g : BitVec 6) (body : TxBody) (s : State) (q : Port) :
    ((s.forwardDrain h g body).port q).heldSegs = (s.port q).heldSegs := by
  unfold State.forwardDrain
  split
  · split
    · exact State.buffer_heldSegs ..
    · rfl
  · rfl

/-- A drain noted has been seen (R502). -/
theorem State.drainSeen_noted (isDone : Bool) (d : DrainFields) (s : State) : (s.noteDrain isDone d).drainSeen isDone d = true := by
  unfold State.noteDrain State.drainSeen
  dsimp only
  rw [List.any_cons, beq_self_eq_true, beq_self_eq_true, decide_eq_true (show s.clock.elapsed < s.clock.elapsed + 8 * ticksPerSec by unfold ticksPerSec; omega)]
  rfl

theorem State.drainSeen_congr {isDone : Bool} {d : DrainFields} (hf : t.fab.drainsSeen = s.fab.drainsSeen) (hc : t.clock = s.clock) :
    t.drainSeen isDone d = s.drainSeen isDone d := by
  unfold State.drainSeen
  rw [hf, hc]

theorem State.release_port (g : BitVec 6) (s : State) (q : Port) : ((s.release p g).port q).holdBacks =
    if q = p then (s.port p).holdBacks.filter (fun b => b.segU ≠ g) else (s.port q).holdBacks := by
  unfold State.release
  dsimp only
  rw [State.reroute_port, State.port_modPort]
  split
  · next h =>
    rw [State.port_modPort, if_neg (by cases p <;> decide), if_neg (by rw [h]; cases p <;> decide), h]
  · rw [State.port_modPort]
    split <;> rfl

/-- What the frames held back for a change that is complete come to (R501). -/
def State.releaseFor (d : DrainFields) (p : Port) (s : State) : State :=
  if s.portSegment p = d.segS ∧ (s.port p).holdBacks.any (fun b => b.segU == d.segU && b.old == d.oldClaimant) = true then s.release p d.segU else s

theorem State.releaseFor_only (d : DrainFields) (p : Port) (s : State) : Only { lineA := true, lineB := true, fab := true } s (s.releaseFor d p) := by
  unfold State.releaseFor
  split
  · exact State.release_only ..
  · exact .refl _ s

theorem State.releaseFor_drainsSeen (d : DrainFields) (p : Port) (s : State) : (s.releaseFor d p).fab.drainsSeen = s.fab.drainsSeen := by
  unfold State.releaseFor
  split
  · unfold State.release
    cases p <;> rfl
  · rfl

/-- A release on a port leaves what the other holds back, and takes the segment from its own. -/
theorem State.releaseFor_holdBacks (d : DrainFields) (s : State) : ((s.releaseFor d p).port q).holdBacks = (s.port q).holdBacks ∨
    (q = p ∧ ((s.releaseFor d p).port q).holdBacks.any (fun b => b.segU == d.segU) = false) := by
  have hgone : ∀ l : List HoldBack, (l.filter (fun b => b.segU ≠ d.segU)).any (fun b => b.segU == d.segU) = false := fun l => by
    rw [List.any_eq_false]
    intro b hb hc
    exact of_decide_eq_true (List.mem_filter.mp hb).2 (eq_of_beq hc)
  unfold State.releaseFor
  split
  · rw [State.release_port]
    split
    · next h => exact .inr ⟨h, hgone _⟩
    · exact .inl rfl
  · exact .inl rfl

theorem State.releaseFor_released {d : DrainFields} (hseg : s.portSegment p = d.segS)
    (hany : (s.port p).holdBacks.any (fun b => b.segU == d.segU && b.old == d.oldClaimant) = true) :
    ((s.releaseFor d p).port p).holdBacks.any (fun b => b.segU == d.segU) = false := by
  unfold State.releaseFor
  rw [if_pos ⟨hseg, hany⟩, State.release_port, if_pos rfl, List.any_eq_false]
  intro b hb hc
  exact of_decide_eq_true (List.mem_filter.mp hb).2 (eq_of_beq hc)

theorem State.release_segment (g : BitVec 6) (s : State) (q : Port) : (s.release p g).portSegment q = s.portSegment q := by
  have hlast : ((s.release p g).port q).last = (s.port q).last := by
    unfold State.release
    dsimp only
    rw [State.reroute_port, State.port_modPort_same LinePort.last, State.port_modPort_same LinePort.last]
    · exact fun _ => rfl
    · exact fun _ => rfl
  have hhome : (s.release p g).homePort = s.homePort := by
    unfold State.release
    cases p <;> rfl
  have haddr : (s.release p g).fab.addr = s.fab.addr := by
    unfold State.release
    cases p <;> rfl
  unfold State.portSegment State.unaddressed State.ownSegment
  rw [hlast, hhome, haddr]

theorem State.releaseFor_segment (d : DrainFields) (s : State) (q : Port) : (s.releaseFor d p).portSegment q = s.portSegment q := by
  unfold State.releaseFor
  split
  · exact State.release_segment ..
  · rfl

/-- Both ports released: a segment held back for the change is held back no longer (R501). -/
theorem State.releaseBoth_released {d : DrainFields} (hseg : s.portSegment q = d.segS)
    (hany : (s.port q).holdBacks.any (fun b => b.segU == d.segU && b.old == d.oldClaimant) = true) :
    (((s.releaseFor d .a).releaseFor d .b).port q).holdBacks.any (fun b => b.segU == d.segU) = false := by
  cases q with
  | a =>
    rcases (s.releaseFor d .a).releaseFor_holdBacks (p := .b) (q := .a) d with hsame | ⟨hq, -⟩
    · rw [hsame]
      exact State.releaseFor_released hseg hany
    · cases hq
  | b =>
    rcases s.releaseFor_holdBacks (p := .a) (q := .b) d with hsame | ⟨hq, -⟩
    · refine State.releaseFor_released (s := s.releaseFor d .a) ?_ ?_
      · rw [State.releaseFor_segment, hseg]
      · rw [hsame]
        exact hany
    · cases hq

theorem execDrain_eq {f : LineRx} {h : Heard} (hp : s.portTakes f.port = true) (hr : s.noResetWaits = true) (hf : f.heard = some h) (hk : h.kind = 7)
    (hkey : s.fab.keyId = 0 ∨ s.macOk h = true) (ht : (s.headerTaken h).takes h.port h.dst = true) : let d := DrainFields.decode h.payload
    exec (.drain f) s = .next (if s.drainSeen false d = true then s.headerTaken h
      else (((s.headerTaken h).countPort h.port 1).noteDrain false d).forwardDrain h d.segU (.drain d)) := by
  intro d
  have hact : (if (!(s.headerTaken h).takes h.port h.dst || (s.headerTaken h).drainSeen false d) = true then s.headerTaken h
      else (((s.headerTaken h).countPort h.port 1).noteDrain false d).forwardDrain h d.segU (.drain d)) = (if s.drainSeen false d = true then s.headerTaken h
      else (((s.headerTaken h).countPort h.port 1).noteDrain false d).forwardDrain h d.segU (.drain d)) := by
    rw [ht, (HeaderKept.headerTaken h s).drainSeen]
    rfl
  refine congrArg Host.Outcome.next ((State.heardOn_keyed hp hr hf (isKind_of hk) hkey fun hw => ?_).trans hact)
  refine (congrArg (fun t : State => t.waitsCarry .sysReset) hact).trans ?_
  split
  · exact hw
  · refine (State.forwardDrain_only ..).resets.resolve_left Bool.false_ne_true ?_
    exact (State.noteDrain_only ..).resets.resolve_left Bool.false_ne_true ((State.countPort_waits ..).trans hw)

theorem execDrainDone_eq {f : LineRx} {h : Heard} (hp : s.portTakes f.port = true) (hr : s.noResetWaits = true) (hf : f.heard = some h) (hk : h.kind = 8)
    (hkey : s.fab.keyId = 0 ∨ s.macOk h = true) (ht : (s.headerTaken h).takes h.port h.dst = true) : let d := DrainFields.decode h.payload
    exec (.drainDone f) s = .next (if s.drainSeen true d = true then s.headerTaken h
      else (((((s.headerTaken h).countPort h.port 1).noteDrain true d).releaseFor d .a).releaseFor d .b).forwardDrain h d.segS (.drainDone d)) := by
  intro d
  have hact : (if (!(s.headerTaken h).takes h.port h.dst || (s.headerTaken h).drainSeen true d) = true then s.headerTaken h
      else (((((s.headerTaken h).countPort h.port 1).noteDrain true d).releaseFor d .a).releaseFor d .b).forwardDrain h d.segS (.drainDone d)) =
      (if s.drainSeen true d = true then s.headerTaken h
      else (((((s.headerTaken h).countPort h.port 1).noteDrain true d).releaseFor d .a).releaseFor d .b).forwardDrain h d.segS (.drainDone d)) := by
    rw [ht, (HeaderKept.headerTaken h s).drainSeen]
    rfl
  refine congrArg Host.Outcome.next ((State.heardOn_keyed hp hr hf (isKind_of hk) hkey fun hw => ?_).trans hact)
  refine (congrArg (fun t : State => t.waitsCarry .sysReset) hact).trans ?_
  split
  · exact hw
  · refine (State.forwardDrain_only ..).resets.resolve_left Bool.false_ne_true ?_
    refine (State.releaseFor_only ..).resets.resolve_left Bool.false_ne_true ((State.releaseFor_only ..).resets.resolve_left Bool.false_ne_true ?_)
    exact (State.noteDrain_only ..).resets.resolve_left Bool.false_ne_true ((State.countPort_waits ..).trans hw)

/-! ### The frames a bridge holds -/

/-- The frame that has waited longest is no younger than any (R491). -/
theorem oldestHeld_le {l : List (Flow × Nat)} {f : Flow} {a : Nat} (h : oldestHeld l = some (f, a)) : (f, a) ∈ l ∧ ∀ x ∈ l, a ≤ x.2 := by
  induction l generalizing f a with
  | nil => cases h
  | cons x l ih =>
    unfold oldestHeld at h
    split at h
    · next y hy =>
      obtain ⟨hm, hle⟩ := ih (f := y.1) (a := y.2) hy
      split at h
      · next hxy =>
        cases h
        exact ⟨List.mem_cons_self, fun z hz => (List.mem_cons.mp hz).elim (fun e => by rw [e]) fun hz => hxy.trans (hle z hz)⟩
      · next hxy =>
        cases h
        exact ⟨List.mem_cons_of_mem _ hm, fun z hz => (List.mem_cons.mp hz).elim (fun e => by rw [e]; exact (Nat.lt_of_not_le hxy).le) (hle z)⟩
    · next hn =>
      cases h
      cases l with
      | nil => exact ⟨List.mem_cons_self, fun z hz => (List.mem_cons.mp hz).elim (fun e => by rw [e]) fun hz => nomatch hz⟩
      | cons y l =>
        unfold oldestHeld at hn
        split at hn <;> cases hn

/-- Which frames of a flow stay when its oldest are dropped (R491). -/
def keptHeld (f : Flow) (arrived : Nat) (all : Bool) (x : Flow × Nat) : Bool := x.1 != f || (!all && x.2 != arrived)

theorem keptHeld_iff (f : Flow) (arrived : Nat) (leased : Bool) (x : Flow × Nat) :
    keptHeld f arrived (!leased) x = decide (x.1 ≠ f ∨ (leased = true ∧ x.2 ≠ arrived)) := by
  unfold keptHeld
  rw [Bool.not_not, Bool.eq_iff_iff, Bool.or_eq_true, Bool.and_eq_true, decide_eq_true_eq, bne_iff_ne, bne_iff_ne]

theorem otherPort_ne (p : Port) : otherPort p ≠ p := by cases p <;> decide

theorem State.dropHeld_port (f : Flow) (arrived : Nat) (all : Bool) (s : State) : (s.dropHeld p f arrived all).port p = { s.port p with
    unacked := (s.port p).unacked.filter (fun u => keptHeld f arrived all (u.flow, u.at_))
    fwd := (s.port p).fwd.filter (fun x => keptHeld f arrived all (x.flow, x.at_)) } := by
  unfold State.dropHeld
  dsimp only
  rw [State.port_modPort, if_neg (otherPort_ne p).symm, State.port_modPort, if_pos rfl]
  rfl

theorem State.dropHeld_other (f : Flow) (arrived : Nat) (all : Bool) (s : State) : ((s.dropHeld p f arrived all).port (otherPort p)).holdBacks =
    (s.port (otherPort p)).holdBacks.map (fun b => { b with frames := b.frames.filter (fun x => keptHeld f arrived all (x.flow, x.at_)) }) := by
  unfold State.dropHeld
  dsimp only
  rw [State.port_modPort, if_pos rfl, State.port_modPort, if_neg (otherPort_ne p)]
  rfl

/-- What is held once the oldest of a flow are dropped (R491). -/
theorem State.heldFor_dropHeld (f : Flow) (arrived : Nat) (all : Bool) (s : State) :
    (s.dropHeld p f arrived all).heldFor p = (s.heldFor p).filter (keptHeld f arrived all) := by
  have haddr : (s.dropHeld p f arrived all).fab = s.fab := (State.dropHeld_only p f arrived all s).fab.resolve_left Bool.false_ne_true
  unfold State.heldFor
  rw [State.dropHeld_other, State.dropHeld_port, haddr]
  simp only [List.filter_append, List.filter_map, List.filter_filter, List.flatMap_map, List.filter_flatMap, Function.comp_def, Bool.and_comm]

/-- A frame held and not kept is gone; fewer frames are held. -/
theorem filter_keptHeld {l : List (Flow × Nat)} {f : Flow} {arrived : Nat} {all : Bool} (h : (f, arrived) ∈ l) :
    (f, arrived) ∉ l.filter (keptHeld f arrived all) ∧ (l.filter (keptHeld f arrived all)).length < l.length := by
  have hgone : keptHeld f arrived all (f, arrived) = false := by
    unfold keptHeld
    rw [bne_self_eq_false, bne_self_eq_false, Bool.and_false]
    rfl
  refine ⟨fun hm => ?_, List.length_filter_lt_length_iff_exists.mpr ⟨_, h, by rw [hgone]; exact Bool.false_ne_true⟩⟩
  rw [List.mem_filter, hgone] at hm
  exact Bool.false_ne_true hm.2

/-- A port's counter raised n times. -/
def State.countTimes (port : Port) (i n : Nat) (s : State) : State := (List.range n).foldl (fun s _ => s.countPort port i) s

theorem State.countTimes_succ (i n : Nat) (s : State) : s.countTimes p i (n + 1) = (s.countTimes p i n).countPort p i := by
  unfold State.countTimes
  rw [List.range_succ, List.foldl_append]
  rfl

theorem State.countTimes_kept (i n : Nat) (s : State) : (s.countTimes p i n).fab = s.fab ∧ (s.countTimes p i n).pols = s.pols ∧
    ∀ q, ∃ c, (s.countTimes p i n).port q = { s.port q with counters := c } := by
  induction n with
  | zero => exact ⟨rfl, rfl, fun q => ⟨_, rfl⟩⟩
  | succ n ih =>
    obtain ⟨h1, h2, h3⟩ := ih
    rw [State.countTimes_succ]
    refine ⟨?_, ?_, fun q => ?_⟩
    · rw [← h1]
      cases p <;> rfl
    · rw [← h2]
      cases p <;> rfl
    · unfold State.countPort
      rw [State.port_modPort]
      split
      · next h =>
        obtain ⟨c, hc⟩ := h3 p
        rw [hc, h]
        exact ⟨_, rfl⟩
      · exact h3 q

theorem State.heldFor_countTimes (i n : Nat) (s : State) (out : Port) : (s.countTimes p i n).heldFor out = s.heldFor out := by
  obtain ⟨hfab, -, hport⟩ := s.countTimes_kept (p := p) i n
  obtain ⟨c, hc⟩ := hport out
  obtain ⟨c', hc'⟩ := hport (otherPort out)
  unfold State.heldFor
  rw [hc, hc', hfab]

/-- A counter raised at least once (R509). -/
theorem State.countTimes_counter {i : Nat} (hi : 0 < i) (n : Nat) (s : State) : ((s.countTimes p i (n + 1)).port p).counters.toList[i - 1]? =
    ((s.port p).counters.toList[i - 1]?).map (fun c => min 65535 (c + (n + 1))) := by
  induction n with
  | zero => rw [State.countTimes_succ, State.countPort_counter _ _ hi]; rfl
  | succ n ih =>
    rw [State.countTimes_succ, State.countPort_counter _ _ hi, ih, Option.map_map]
    refine congrArg (fun f => Option.map f _) (funext fun c => ?_)
    show min 65535 (min 65535 (c + (n + 1)) + 1) = min 65535 (c + (n + 1 + 1))
    omega

theorem execFwdFrameTimeout_eq {f : Flow} {arrived : Nat} (h : oldestHeld (s.heldFor p) = some (f, arrived)) :
    let t := s.dropHeld p f arrived (!s.flowLeased p f)
    exec (.fwdFrameTimeout p) s = .next (t.countTimes p 10 ((s.heldFor p).length - (t.heldFor p).length)) := by
  refine congrArg Host.Outcome.next ?_
  split
  · next hn => rw [h] at hn; cases hn
  · next g a hs =>
    rw [h] at hs
    cases hs
    rfl

theorem route_followed : ∀ (s : State) (f : LineRx) (h : Heard), s.portTakes f.port = true → s.noResetWaits = true → f.heard = some h → h.kind = 6 →
    (s.fab.keyId = 0 ∨ s.macOk h = true) → (s.headerTaken h).accepts h.port h.dst = true →
    let hops := (h.payload.drop 1).take 63
    ∃ t, exec (.route f) s = .next t ∧ (t.port h.port).adverts.head? = some { from_ := h.src, hops := hops } ∧
      (∀ a ∈ (t.port h.port).adverts, a.from_ = h.src → a.hops = hops) ∧ t.fab.routes = t.routeTable ∧ t.wheel = s.wheel := by
  intro s f h hp hr hf hk hkey ha
  have hadverts : ((((s.headerTaken h).advertHeard h).bridgeNoted h).reroutes.port h.port).adverts =
      { from_ := h.src, hops := (h.payload.drop 1).take 63 } :: ((s.headerTaken h).port h.port).adverts.filter (fun a => a.from_ ≠ h.src) := by
    rw [State.reroutes_adverts, State.bridgeNoted_port]
    unfold State.advertHeard State.countPort
    rw [State.port_modPort, if_pos rfl, State.port_modPort, if_pos rfl]
    rfl
  refine ⟨_, execRoute_eq hp hr hf hk hkey ha, by rw [hadverts]; rfl, fun a hm hfrom => ?_, State.reroutes_routes _, ?_⟩
  · rw [hadverts] at hm
    rcases List.mem_cons.mp hm with rfl | hm
    · rfl
    · exact absurd hfrom (of_decide_eq_true (List.mem_filter.mp hm).2)
  · have hwheel := (State.advertHeard_only h (s.headerTaken h)).wheel.resolve_left Bool.false_ne_true
    have h1 := (State.hear_only h s).wheel.resolve_left Bool.false_ne_true
    have h2 := (State.readAcks_only h (s.hear h)).wheel.resolve_left Bool.false_ne_true
    exact hwheel.trans (h2.trans h1)

theorem routeLapse_forgets : ∀ (s : State) (g : Fin 63) (r : RouteEntry), s.fab.routes.find? (fun x => x.segment == BitVec.ofNat 6 g.val) = some r →
    (∀ a ∈ (s.port r.port).adverts, a.hops.length = 63) →
    ∃ t, exec (.routeLapse g) s = .next t ∧ (∀ x ∈ (t.port r.port).advertisers (BitVec.ofNat 6 g.val), x.2 ≠ r.nextHop) ∧ t.fab.routes = t.routeTable := by
  intro s g r hr hl
  exact ⟨_, execRouteLapse_eq hr, State.hopForgotten_advertisers hl, State.reroutes_routes _⟩

theorem drain_handled : ∀ (s : State) (f : LineRx) (h : Heard), s.portTakes f.port = true → s.noResetWaits = true → f.heard = some h →
    (s.fab.keyId = 0 ∨ s.macOk h = true) → (s.headerTaken h).takes h.port h.dst = true →
    let d := DrainFields.decode h.payload
    (h.kind = 7 → s.drainSeen false d = true → exec (.drain f) s = .next (s.headerTaken h)) ∧
    (h.kind = 8 → s.drainSeen true d = true → exec (.drainDone f) s = .next (s.headerTaken h)) ∧
    (h.kind = 7 → s.drainSeen false d = false → ∃ t, exec (.drain f) s = .next t ∧ t.drainSeen false d = true) ∧
    (h.kind = 8 → s.drainSeen true d = false → ∃ t, exec (.drainDone f) s = .next t ∧ t.drainSeen true d = true ∧
      (∀ p, (s.headerTaken h).portSegment p = d.segS → (s.port p).holdBacks.any (fun b => b.segU == d.segU && b.old == d.oldClaimant) = true →
        (t.port p).holdBacks.any (fun b => b.segU == d.segU) = false)) := by
  refine fun s f h hp hr hf hkey ht => ⟨fun hk hseen => ?_, fun hk hseen => ?_, fun hk hseen => ?_, fun hk hseen => ?_⟩
  · exact (execDrain_eq hp hr hf hk hkey ht).trans (congrArg Host.Outcome.next (if_pos hseen))
  · exact (execDrainDone_eq hp hr hf hk hkey ht).trans (congrArg Host.Outcome.next (if_pos hseen))
  · have hn : ¬ s.drainSeen false (DrainFields.decode h.payload) = true := by rw [hseen]; decide
    refine ⟨_, (execDrain_eq hp hr hf hk hkey ht).trans (congrArg Host.Outcome.next (if_neg hn)), ?_⟩
    have ho := State.forwardDrain_only h (DrainFields.decode h.payload).segU (.drain (DrainFields.decode h.payload))
      (((s.headerTaken h).countPort h.port 1).noteDrain false (DrainFields.decode h.payload))
    rw [State.drainSeen_congr (by rw [ho.fab.resolve_left Bool.false_ne_true]) (ho.clock.resolve_left Bool.false_ne_true)]
    exact State.drainSeen_noted ..
  · have hn : ¬ s.drainSeen true (DrainFields.decode h.payload) = true := by rw [hseen]; decide
    refine ⟨_, (execDrainDone_eq hp hr hf hk hkey ht).trans (congrArg Host.Outcome.next (if_neg hn)), ?_, fun p hseg hany => ?_⟩
    · have ho := State.forwardDrain_only h (DrainFields.decode h.payload).segS (.drainDone (DrainFields.decode h.payload))
        (((((s.headerTaken h).countPort h.port 1).noteDrain true (DrainFields.decode h.payload)).releaseFor (DrainFields.decode h.payload) .a).releaseFor
          (DrainFields.decode h.payload) .b)
      rw [State.drainSeen_congr (by rw [ho.fab.resolve_left Bool.false_ne_true]) (ho.clock.resolve_left Bool.false_ne_true),
        State.drainSeen_congr (State.releaseFor_drainsSeen ..) ((State.releaseFor_only ..).clock.resolve_left Bool.false_ne_true),
        State.drainSeen_congr (State.releaseFor_drainsSeen ..) ((State.releaseFor_only ..).clock.resolve_left Bool.false_ne_true)]
      exact State.drainSeen_noted ..
    · have hkept : HeaderKept (s.headerTaken h) ((s.headerTaken h).countPort h.port 1) := HeaderKept.countPort 1
      have hholds : (((((s.headerTaken h).countPort h.port 1).noteDrain true (DrainFields.decode h.payload))).port p).holdBacks = (s.port p).holdBacks := by
        have hnote : (((s.headerTaken h).countPort h.port 1).noteDrain true (DrainFields.decode h.payload)).port p = ((s.headerTaken h).countPort h.port 1).port p := by
          cases p <;> rfl
        rw [hnote, ((HeaderKept.headerTaken h s).trans hkept).port p]
      have hsegs : (((s.headerTaken h).countPort h.port 1).noteDrain true (DrainFields.decode h.payload)).portSegment p = (s.headerTaken h).portSegment p := by
        refine Eq.trans ?_ (hkept.portSegment p)
        cases p <;> rfl
      rw [LinePort.holdBacks_any, State.forwardDrain_heldSegs, ← LinePort.holdBacks_any]
      exact State.releaseBoth_released (hsegs.trans hseg) (by rw [hholds]; exact hany)

theorem holdbackExpired_releases : ∀ (s : State) (p : Port) (g : Fin 63), (s.port p).holdBacks.any (fun b => b.segU == BitVec.ofNat 6 g.val) = true →
    ∃ t, exec (.holdbackExpired p g) s = .next t ∧ (t.port p).holdBacks = (s.port p).holdBacks.filter (fun b => b.segU ≠ BitVec.ofNat 6 g.val) ∧
      (t.port p).counters.toList[10]? = ((s.port p).counters.toList[10]?).map (fun c => min 65535 (c + 1)) ∧
      (t.port (otherPort p)).fwd = (s.port (otherPort p)).fwd ++
        (((s.port p).holdBacks.filter (fun b => b.segU == BitVec.ofNat 6 g.val)).map (fun b => b.frames)).flatten := by
  intro s p g hany
  refine ⟨_, congrArg Host.Outcome.next (if_pos hany), ?_, ?_, ?_⟩
  · unfold State.countPort
    rw [State.port_modPort_same LinePort.holdBacks, State.release_port, if_pos rfl]
    exact fun _ => rfl
  · refine (State.countPort_counter _ _ (by decide)).trans ?_
    have hc : (((s.release p (BitVec.ofNat 6 g.val)).port p).counters) = (s.port p).counters := by
      unfold State.release
      dsimp only
      rw [State.reroute_port, State.port_modPort_same LinePort.counters, State.port_modPort_same LinePort.counters]
      · exact fun _ => rfl
      · exact fun _ => rfl
    rw [hc]
  · unfold State.countPort
    rw [State.port_modPort_same LinePort.fwd]
    · unfold State.release
      dsimp only
      rw [State.reroute_port, State.port_modPort, if_pos rfl, State.port_modPort, if_neg (otherPort_ne p)]
    · exact fun _ => rfl

theorem fwdFrameTimeout_idle : ∀ (s : State) (p : Port), s.heldFor p = [] → exec (.fwdFrameTimeout p) s = .next s := by
  intro s p hnone
  refine congrArg Host.Outcome.next ?_
  rw [hnone]
  rfl

theorem fwdFrameTimeout_drops : ∀ (s : State) (p : Port) (f : Flow) (arrived : Nat), oldestHeld (s.heldFor p) = some (f, arrived) →
    (∀ x ∈ s.heldFor p, arrived ≤ x.2) ∧
    ∃ t, exec (.fwdFrameTimeout p) s = .next t ∧ t.fab = s.fab ∧ t.pols = s.pols ∧
      (t.port p).fwd = (s.port p).fwd.filter (fun x => x.flow ≠ f ∨ (s.flowLeased p f = true ∧ x.at_ ≠ arrived)) ∧
      (t.port p).unacked = (s.port p).unacked.filter (fun u => u.flow ≠ f ∨ (s.flowLeased p f = true ∧ u.at_ ≠ arrived)) ∧
      (f, arrived) ∉ t.heldFor p ∧
      (t.port p).counters.toList[9]? = ((s.port p).counters.toList[9]?).map (fun c => min 65535 (c + ((s.heldFor p).length - (t.heldFor p).length))) := by
  intro s p f arrived hold
  obtain ⟨hmem, hle⟩ := oldestHeld_le hold
  refine ⟨hle, _, execFwdFrameTimeout_eq hold, ?_⟩
  have hheld := s.heldFor_dropHeld (p := p) f arrived (!s.flowLeased p f)
  obtain ⟨hgone, hfewer⟩ := filter_keptHeld (all := !s.flowLeased p f) hmem
  rw [← hheld] at hgone hfewer
  have ho := State.dropHeld_only p f arrived (!s.flowLeased p f) s
  have hline := s.dropHeld_port (p := p) f arrived (!s.flowLeased p f)
  generalize hu : s.dropHeld p f arrived (!s.flowLeased p f) = v at *
  obtain ⟨m, hm⟩ : ∃ m, (s.heldFor p).length - (v.heldFor p).length = m + 1 := ⟨(s.heldFor p).length - (v.heldFor p).length - 1, by omega⟩
  obtain ⟨hfab, hpols, hport⟩ := v.countTimes_kept (p := p) 10 ((s.heldFor p).length - (v.heldFor p).length)
  obtain ⟨c, hc⟩ := hport p
  have hsame := v.heldFor_countTimes (p := p) 10 ((s.heldFor p).length - (v.heldFor p).length) p
  refine ⟨hfab.trans (ho.fab.resolve_left Bool.false_ne_true), hpols.trans (ho.pols.resolve_left Bool.false_ne_true), ?_, ?_, ?_, ?_⟩
  · rw [hc, hline]
    exact List.filter_congr fun x _ => keptHeld_iff f arrived _ (x.flow, x.at_)
  · rw [hc, hline]
    exact List.filter_congr fun x _ => keptHeld_iff f arrived _ (x.flow, x.at_)
  · rw [hsame]
    exact hgone
  · rw [hsame, hm, State.countTimes_counter (by decide), hline]

theorem flowStateExpiry_forgets : ∀ (s : State) (p : Port) (src dst : BitVec 12) (pol : Option PolId), ∃ t, exec (.flowStateExpiry p src dst pol) s = .next t ∧
    (t.port p).rxFlows = (s.port p).rxFlows.filter (fun x => x.flow ≠ { src := src, dst := dst, pol := pol }) ∧
    t.port (otherPort p) = s.port (otherPort p) ∧ t.fab = s.fab ∧ t.pols = s.pols := by
  intro s p src dst pol
  refine ⟨_, rfl, ?_, ?_, ?_, ?_⟩
  · rw [State.port_modPort, if_pos rfl]
  · rw [State.port_modPort, if_neg (otherPort_ne p)]
  · cases p <;> rfl
  · cases p <;> rfl

/-- Settles O50: routes follow the adverts, and what a bridge holds leaves it once. -/
theorem routingEvents : Obligations.RoutingEvents :=
  ⟨route_followed, routeLapse_forgets, drain_handled, holdbackExpired_releases, fwdFrameTimeout_idle, fwdFrameTimeout_drops, flowStateExpiry_forgets⟩

end Sys2Proof.Machine
end

section
/-! PROOFS. A sent frame's bits give the frame back (O51). -/

namespace Sys2Proof.Machine

/-! ### Polarity and delimiter (R469, R470) -/

/-- A frame is read in either polarity (R469). -/
theorem uninverted_sent (inverted : Bool) (l : List Byte) :
    uninverted (if inverted = true then (lineBits (0xD5 :: l)).map (fun b => !b) else lineBits (0xD5 :: l)) = some l := by
  cases inverted
  · unfold uninverted
    rw [if_neg Bool.false_ne_true, lineBytes_lineBits]
    rfl
  · have hback : (l.map (fun b => ~~~b)).map (fun b => ~~~b) = l := by
      rw [List.map_map]
      exact (List.map_congr_left fun b _ => BitVec.not_not).trans (List.map_id l)
    unfold uninverted
    rw [if_pos rfl, lineBits_not, lineBytes_lineBits]
    show (if (~~~(0xD5 : Byte)) = 0xD5 then _ else _) = _
    rw [if_neg (by decide), if_pos (by decide)]
    exact congrArg some hback

/-! ### The head of a frame (R471) -/

/-- ADDR as a number. -/
def frameAddr (dst src : BitVec 12) : Nat := dst.toNat + 4096 * src.toNat

/-- TYPE as a number. -/
def frameType (kind : Nat) (slotted : Bool) (fseq : BitVec 3) : Nat := kind + 16 * b2n slotted + 32 * fseq.toNat

/-- ACK as a number. -/
def frameAck (f : TxFrame) : Nat := f.ackmap.toNat + 2 ^ 63 * b2n f.isNew

theorem b2n_le (b : Bool) : b2n b ≤ 1 := by cases b <;> decide

theorem frameType_lt {kind : Nat} (slotted : Bool) (fseq : BitVec 3) (hk : kind < 16) : frameType kind slotted fseq < 256 := by
  have := fseq.isLt
  have := b2n_le slotted
  unfold frameType
  omega

theorem frameType_fields {kind : Nat} (slotted : Bool) (fseq : BitVec 3) (hk : kind < 16) : bits (frameType kind slotted fseq) 3 0 = kind ∧
    bit (frameType kind slotted fseq) 4 = slotted ∧ BitVec.ofNat 3 (frameType kind slotted fseq / 32) = fseq := by
  have hf := fseq.isLt
  unfold frameType
  refine ⟨?_, ?_, ?_⟩
  · unfold bits
    omega
  · rw [bit_eq_decide]
    cases slotted
    · exact decide_eq_false (by show ¬ (kind + 16 * 0 + 32 * fseq.toNat) / 2 ^ 4 % 2 = 1; omega)
    · exact decide_eq_true (by show (kind + 16 * 1 + 32 * fseq.toNat) / 2 ^ 4 % 2 = 1; omega)
  · refine BitVec.eq_of_toNat_eq ?_
    rw [BitVec.toNat_ofNat]
    have := b2n_le slotted
    omega

theorem frameHead_type (dst src : BitVec 12) (kind : Nat) (slotted : Bool) (fseq : BitVec 3) (len : Nat) (rest : List Byte) (hk : kind < 16) :
    (byteAt (frameHead dst src kind slotted fseq len ++ rest) 3).toNat = frameType kind slotted fseq := by
  have h : byteAt (frameHead dst src kind slotted fseq len ++ rest) 3 = BitVec.ofNat 8 (frameType kind slotted fseq) := rfl
  rw [h, BitVec.toNat_ofNat]
  exact Nat.mod_eq_of_lt (frameType_lt slotted fseq hk)

theorem frameHead_len (dst src : BitVec 12) (kind : Nat) (slotted : Bool) (fseq : BitVec 3) {len : Nat} (rest : List Byte) (hl : len < 256) :
    (byteAt (frameHead dst src kind slotted fseq len ++ rest) 4).toNat = len := by
  have h : byteAt (frameHead dst src kind slotted fseq len ++ rest) 4 = BitVec.ofNat 8 len := rfl
  rw [h, BitVec.toNat_ofNat]
  exact Nat.mod_eq_of_lt hl

theorem frameHead_addr (dst src : BitVec 12) (kind : Nat) (slotted : Bool) (fseq : BitVec 3) (len : Nat) (rest : List Byte) :
    field (frameHead dst src kind slotted fseq len ++ rest) 0 3 = frameAddr dst src := by
  have h : frameHead dst src kind slotted fseq len ++ rest =
      leBytes 3 (frameAddr dst src) ++ (leBytes 1 (frameType kind slotted fseq) ++ leBytes 1 len ++ rest) := by
    unfold frameHead
    rw [List.append_assoc, List.append_assoc, List.append_assoc]
    rfl
  rw [h, field_leBytes_append]
  refine Nat.mod_eq_of_lt ?_
  have := dst.isLt
  have := src.isLt
  unfold frameAddr
  omega

theorem frameAddr_fields (dst src : BitVec 12) : BitVec.ofNat 12 (frameAddr dst src) = dst ∧ BitVec.ofNat 12 (frameAddr dst src / 4096) = src := by
  have := dst.isLt
  have := src.isLt
  unfold frameAddr
  refine ⟨BitVec.eq_of_toNat_eq ?_, BitVec.eq_of_toNat_eq ?_⟩ <;> rw [BitVec.toNat_ofNat] <;> omega

theorem frameAck_fields (f : TxFrame) : frameAck f < 256 ^ 8 ∧ BitVec.ofNat 63 (frameAck f) = f.ackmap ∧ (frameAck f).testBit 63 = f.isNew := by
  have hm := f.ackmap.isLt
  unfold frameAck
  refine ⟨?_, BitVec.eq_of_toNat_eq ?_, ?_⟩
  · have := b2n_le f.isNew
    omega
  · rw [BitVec.toNat_ofNat]
    have := b2n_le f.isNew
    omega
  · rw [Nat.testBit_eq_decide_div_mod_eq]
    cases f.isNew
    · exact decide_eq_false (by show ¬ (f.ackmap.toNat + 2 ^ 63 * 0) / 2 ^ 63 % 2 = 1; omega)
    · exact decide_eq_true (by show (f.ackmap.toNat + 2 ^ 63 * 1) / 2 ^ 63 % 2 = 1; omega)

/-! ### The frame -/

/-- A kind that is not reserved (R472). -/
theorem TxBody.kind_lt (b : TxBody) : b.kind < 16 := by cases b <;> simp [TxBody.kind]

/-- LENGTH fits its byte (R471, R472). -/
theorem lengthOk_le {kind len : Nat} (h : lengthOk kind len = true) : len ≤ 128 := by
  unfold lengthOk at h
  split at h
  case h_2 => exact of_decide_eq_true (Bool.and_eq_true_iff.mp h).2
  case h_10 => exact (Bool.false_ne_true h).elim
  all_goals exact (beq_iff_eq.mp h).le.trans (by decide)

/-- LENGTH of a frame. -/
def TxFrame.len (f : TxFrame) : Nat := f.body.payload.length + 8 * b2n (kindSigned f.body.kind)

theorem TxFrame.len_eq (f : TxFrame) : f.len = f.body.payload.length + (if kindSigned f.body.kind = true then 8 else 0) := by
  unfold TxFrame.len
  cases kindSigned f.body.kind <;> rfl

/-- ADDR, TYPE and LENGTH of a frame. -/
def TxFrame.head (f : TxFrame) (slotted : Bool) : List Byte := frameHead f.dst f.src f.body.kind slotted f.fseq f.len

/-- ACK of a frame, in a data slot. -/
def TxFrame.ack (f : TxFrame) (slotted : Bool) : List Byte := if slotted = true then leBytes 8 (frameAck f) else []

/-- The payload of a frame with its CMAC. -/
def TxFrame.load (f : TxFrame) (slotted : Bool) (key : Option (BitVec 128)) (cycle : W32) : List Byte :=
  f.body.payload ++ (if kindSigned f.body.kind = true then frameMac key cycle (f.head slotted) f.body.payload else [])

theorem TxFrame.bytes_eq (f : TxFrame) (slotted : Bool) (key : Option (BitVec 128)) (cycle : W32) :
    f.bytes slotted key cycle = f.head slotted ++ (f.ack slotted ++ f.load slotted key cycle) := by
  show f.head slotted ++ f.ack slotted ++ f.body.payload ++ _ = _
  unfold TxFrame.load
  rw [List.append_assoc, List.append_assoc]
  rfl

theorem TxFrame.ack_length (f : TxFrame) (slotted : Bool) : (f.ack slotted).length = 8 * b2n slotted := by
  unfold TxFrame.ack
  cases slotted
  · rfl
  · exact leBytes_length ..

theorem TxFrame.load_length (f : TxFrame) (slotted : Bool) (key : Option (BitVec 128)) (cycle : W32) : (f.load slotted key cycle).length = f.len := by
  unfold TxFrame.load TxFrame.len
  rw [List.length_append]
  cases kindSigned f.body.kind
  · rfl
  · rw [if_pos rfl, frameMac_length]
    rfl

theorem TxFrame.bytes_length (f : TxFrame) (slotted : Bool) (key : Option (BitVec 128)) (cycle : W32) :
    (f.bytes slotted key cycle).length = 5 + 8 * b2n slotted + f.len := by
  rw [TxFrame.bytes_eq, List.length_append, List.length_append, TxFrame.ack_length, TxFrame.load_length]
  show (frameHead ..).length + _ = _
  rw [frameHead_length]
  omega

/-- The frame that a node hears where this one was sent. -/
def TxFrame.heardAs (f : TxFrame) (port : Port) (slot : Option (Fin 63)) (slotted : Bool) (key : Option (BitVec 128)) (cycle : W32) : Heard :=
  { port := port, slot := slot, dst := f.dst, src := f.src, kind := f.body.kind, fseq := f.fseq, ackmap := if slotted = true then f.ackmap else 0,
    isNew := slotted && f.isNew, head := f.head slotted, payload := f.load slotted key cycle }

/-- The bytes of a frame and its FCS are parsed to the frame (R470, R471). -/
theorem parseFrame_sent (f : TxFrame) (port : Port) (slot : Option (Fin 63)) (slotted : Bool) (key : Option (BitVec 128)) (cycle : W32)
    (hl : lengthOk f.body.kind f.len = true) :
    parseFrame port slot (f.bytes slotted key cycle ++ leBytes 4 (crc32 (f.bytes slotted key cycle))) = some (f.heardAs port slot slotted key cycle) := by
  have hk := f.body.kind_lt
  have hlen := lengthOk_le hl
  have hlong := f.bytes_length slotted key cycle
  generalize hbs : f.bytes slotted key cycle = bs at *
  have hsplit : bs ++ leBytes 4 (crc32 bs) = f.head slotted ++ (f.ack slotted ++ f.load slotted key cycle ++ leBytes 4 (crc32 bs)) := by
    rw [← hbs, TxFrame.bytes_eq, List.append_assoc]
  have hhead : (f.head slotted).length = 5 := frameHead_length ..
  have htype : (byteAt (bs ++ leBytes 4 (crc32 bs)) 3).toNat = frameType f.body.kind slotted f.fseq := by
    rw [hsplit]
    exact frameHead_type _ _ _ _ _ _ _ hk
  have hbyte : (byteAt (bs ++ leBytes 4 (crc32 bs)) 4).toNat = f.len := by
    rw [hsplit]
    exact frameHead_len _ _ _ _ _ _ (by omega)
  have haddr : field (bs ++ leBytes 4 (crc32 bs)) 0 3 = frameAddr f.dst f.src := by
    rw [hsplit]
    exact frameHead_addr ..
  obtain ⟨hkind, hslotted, hfseq⟩ := frameType_fields slotted f.fseq hk
  obtain ⟨hdst, hsrc⟩ := frameAddr_fields f.dst f.src
  have htake : (bs ++ leBytes 4 (crc32 bs)).take (5 + 8 * b2n slotted + f.len) = bs := List.take_left' hlong
  have hfcs : field (bs ++ leBytes 4 (crc32 bs)) (5 + 8 * b2n slotted + f.len) 4 = crc32 bs := by
    rw [field_append_ge _ _ _ _ hlong.le, hlong, Nat.sub_self, field_leBytes]
    exact Nat.mod_eq_of_lt (crc32_lt bs)
  have hload : bs.drop (5 + 8 * b2n slotted) = f.load slotted key cycle := by
    rw [← hbs, TxFrame.bytes_eq, ← List.append_assoc]
    exact List.drop_left' (by rw [List.length_append, hhead, TxFrame.ack_length])
  have htop : (bs ++ leBytes 4 (crc32 bs)).take 5 = f.head slotted := by
    rw [hsplit]
    exact List.take_left' hhead
  have hsize : (bs ++ leBytes 4 (crc32 bs)).length = 9 + 8 * b2n slotted + f.len := by
    rw [List.length_append, leBytes_length, hlong]
    omega
  unfold parseFrame
  dsimp only
  rw [htype, hbyte, hkind, hslotted, htake, hfcs, haddr, hdst, hsrc, hfseq, hload, htop, if_pos ⟨hsize, hl, rfl⟩]
  unfold TxFrame.heardAs
  cases slotted with
  | false => rfl
  | true =>
    obtain ⟨hlt, hmap, hnew⟩ := frameAck_fields f
    have hack : field (bs ++ leBytes 4 (crc32 bs)) 5 8 = frameAck f := by
      rw [hsplit, field_append_ge _ _ _ _ hhead.le, hhead, List.append_assoc]
      exact (field_leBytes_append ..).trans (Nat.mod_eq_of_lt hlt)
    rw [hack, hmap, hnew]
    rfl

/-- A sent frame's payload and CMAC, as heard (R507, R508). -/
theorem TxFrame.heardAs_signed (f : TxFrame) (port : Port) (slot : Option (Fin 63)) (slotted : Bool) (key : Option (BitVec 128)) (cycle : W32) :
    let h := f.heardAs port slot slotted key cycle
    (kindSigned f.body.kind = false → h.payload = f.body.payload) ∧
      (kindSigned f.body.kind = true → h.signed = f.body.payload ∧ h.macOk key cycle = true) := by
  refine ⟨fun hs => ?_, fun hs => ?_⟩
  · show f.load slotted key cycle = _
    unfold TxFrame.load
    rw [hs]
    exact List.append_nil _
  · have hload : f.load slotted key cycle = f.body.payload ++ frameMac key cycle (f.head slotted) f.body.payload := by
      unfold TxFrame.load
      rw [if_pos hs]
    have hlen : (f.load slotted key cycle).length - 8 = f.body.payload.length := by
      rw [hload, List.length_append, frameMac_length]
      omega
    have hsigned : (f.heardAs port slot slotted key cycle).signed = f.body.payload := by
      show (f.load slotted key cycle).take ((f.load slotted key cycle).length - 8) = _
      rw [hlen, hload, List.take_left' rfl]
    refine ⟨hsigned, ?_⟩
    unfold Heard.macOk
    rw [hsigned]
    show ((f.load slotted key cycle).drop ((f.load slotted key cycle).length - 8) == frameMac key cycle (f.head slotted) f.body.payload) = true
    rw [hlen, hload, List.drop_left' rfl, beq_self_eq_true]

end Sys2Proof.Machine
end

section
/-! PROOFS. Frames sent (O51): the node's data slots, contention, and the timers that queue JOIN and ROUTE frames. -/

namespace Sys2Proof.Machine

variable {s t : State} {p : Port} {slot : Nat}

/-! ### A frame in a data slot (R471, R487) -/

/-- The frame that leaves in the node's own slot: it carries the ACKMAP collected so far. -/
def TxFrame.withMap (f : TxFrame) (l : LinePort) : TxFrame := { f with ackmap := l.ackPending }

theorem State.putSlot_port {f : TxFrame} (hm : s.slotMine p slot = true) : (s.putSlot p slot f).port p = LinePort.count 5
    { s.port p with ackPending := 0, lastTx := some (f.withMap (s.port p)),
                    txBits := (f.withMap (s.port p)).bits true s.lineKeyNow (s.port p).cycle } := by
  unfold State.putSlot
  rw [hm]
  cases p <;> rfl

theorem State.putSlot_pols (f : TxFrame) : (s.putSlot p slot f).pols = s.pols ∧ (s.putSlot p slot f).carries = s.carries := by
  unfold State.putSlot
  cases p <;> exact ⟨rfl, rfl⟩

/-- One more data slot of the cycle is used. -/
def State.slotTaken (p : Port) (s : State) : State := s.modPort p (fun l => { l with slotsSent := l.slotsSent + 1 })

theorem execDataSlotTx_slot (hu : s.usesSlots p = true) (hi : (s.slotsNow p)[(s.port p).slotsSent]? = some slot) :
    exec (.dataSlotTx p) s = .next ((s.slotTaken p).slotTx p slot).sysResetDue := by
  show execDataSlotTx p s = _
  unfold execDataSlotTx
  rw [if_neg (by rw [hu]; exact Bool.false_ne_true), hi]
  rfl

/-- A data slot whose frame leaves no owner's reply carried. -/
theorem execDataSlotTx_sent (hu : s.usesSlots p = true) (hi : (s.slotsNow p)[(s.port p).slotsSent]? = some slot) (ht : (s.slotTaken p).slotTx p slot = t)
    (htc : t.carries = s.carries) (hc : s.carries.all (fun c => c.why ≠ .sysReset) = true) : exec (.dataSlotTx p) s = .next t := by
  rw [execDataSlotTx_slot hu hi, ht, State.sysResetDue_none (by rw [htc]; exact hc)]

theorem State.slotTaken_port : (s.slotTaken p).port p = { s.port p with slotsSent := (s.port p).slotsSent + 1 } := by cases p <;> rfl

theorem State.slotTaken_slotMine : (s.slotTaken p).slotMine p slot = s.slotMine p slot := by cases p <;> rfl

theorem State.slotTaken_skipped : (s.slotTaken p).skipped p = s.skipped p := by cases p <;> rfl

/-- A retransmission is due only of a frame that waits for its acknowledgement (R488). -/
theorem State.dueAgain_idle {mine : Flow → Bool} (hu : (s.port p).unacked = []) : s.dueAgain p slot mine = (none, s) := by
  unfold State.dueAgain
  rw [hu]
  rfl

/-- With nothing to forward a lent slot stays empty (R481, R484). -/
theorem State.forwardTx_idle (hu : (s.port p).unacked = []) (hf : (s.port p).fwd = []) : s.forwardTx p slot = (none, s) := by
  unfold State.forwardTx
  rw [State.dueAgain_idle hu]
  dsimp only
  rw [hf]
  rfl

/-- A lent slot, or the own one lent away, carries forwarding only (R481, R484). -/
theorem State.slotTx_idle (hm : s.slotMine p slot = false) (hu : (s.port p).unacked = []) (hf : (s.port p).fwd = []) : s.slotTx p slot = s := by
  unfold State.slotTx
  rw [if_neg (by rw [hm]; exact Bool.false_ne_true), State.forwardTx_idle hu hf, ite_self]

/-! ### The oldest reply of the polder a share serves (R484, R485) -/

theorem State.nextPacket_reply {q : PolId} {r : Reply} {rest : List Reply} {d : BitVec 12} (hq : (s.pol q).replyQ = r :: rest) (hr : r.path = .line d)
    (hp : s.portToward d = p) : s.nextPacket p q = some (d, .reply r, fun x => { x with replyQ := x.replyQ.erase r }) := by
  unfold State.nextPacket
  simp [hq, hr, hp]

theorem State.shareTx_packet {q : PolId} {d : BitVec 12} {k : OutPacket} {pop : Polder → Polder} (hu : (s.port p).unacked = [])
    (hn : s.nextPacket p q = some (d, k, pop)) (hw : s.needsWake p d = false) :
    s.shareTx p slot q = (some ((s.modPol q pop).sendFlow p slot { src := s.fab.addr, dst := d, pol := some q } (.data k) s.clock.elapsed), s) := by
  have hfree : (s.port p).flowFree { src := s.fab.addr, dst := d, pol := some q } = true := by
    unfold LinePort.flowFree
    rw [hu]
    rfl
  unfold State.shareTx
  rw [State.dueAgain_idle hu]
  dsimp only
  rw [hn]
  dsimp only
  rw [hfree, hw]
  rfl

/-- The frame that a flow sends next (R489, R490). -/
def LinePort.flowFrame (f : Flow) (body : TxBody) (l : LinePort) : TxFrame :=
  { dst := f.dst, src := f.src, ackmap := 0, isNew := !(l.txFlow f).started, fseq := (l.txFlow f).next, body := body }

/-- The next frame of a flow to one node, put into the node's own slot: what is sent, and what waits for its acknowledgement. -/
theorem State.sendFlow_port {f : Flow} {body : TxBody} {arrived : Nat} (hm : s.slotMine p slot = true) (hb : addrBroadcast f.dst = false) :
    let l := (s.sendFlow p slot f body arrived).port p
    let frame := (s.port p).flowFrame f body
    l.lastTx = some (frame.withMap (s.port p)) ∧ l.txBits = (frame.withMap (s.port p)).bits true s.lineKeyNow (s.port p).cycle ∧
      ∃ hop, l.unacked = (s.port p).unacked ++
        [{ flow := f, frame := frame, hop := hop, tries := 0, slot := slot, cycle := (s.port p).cycle, unread := true, at_ := arrived }] := by
  unfold State.sendFlow
  dsimp only
  rw [hb, State.putSlot_port (by cases p <;> exact hm)]
  cases p <;> exact ⟨rfl, rfl, _, rfl⟩

theorem State.sendFlow_pols {f : Flow} {body : TxBody} {arrived : Nat} :
    (s.sendFlow p slot f body arrived).pols = s.pols ∧ (s.sendFlow p slot f body arrived).carries = s.carries := by
  unfold State.sendFlow
  dsimp only
  rw [(State.putSlot_pols _).1, (State.putSlot_pols _).2]
  cases p <;> exact ⟨rfl, rfl⟩

/-! ### Contention (R476) -/

/-- A new backoff is drawn where there is more to send. -/
def State.backoffAgain (p : Port) (s : State) : State := if (s.contentionHead p).isSome = true then s.drawBackoff p else s

theorem State.backoffAgain_port : ∃ b, (s.backoffAgain p).port p = { s.port p with backoff := b } ∧
    ((s.port p).backoff < (s.port p).window → b < (s.port p).window) := by
  unfold State.backoffAgain
  split
  · refine ⟨s.draw % (s.port p).window, by cases p <;> rfl, fun h => Nat.mod_lt _ (by omega)⟩
  · exact ⟨_, rfl, id⟩

theorem State.backoffAgain_other : (s.backoffAgain p).port (otherPort p) = s.port (otherPort p) := by
  unfold State.backoffAgain
  split
  · cases p <;> rfl
  · rfl

/-- The frame is on the line; contention starts anew (R476). -/
def State.contentionWon (p : Port) (f : TxFrame) (rest : List TxFrame) (s : State) : State :=
  (((s.modPort p (fun l => { l with backoff := 0 })).putLine p false f).modPort p
    (fun l => { l with contention := rest, window := s.startWindow, attempts := 0 })).countPort p 5

/-- The frame has collided a further time; `rest` and `attempts` are what is left to send (R476). -/
def State.contentionLost (p : Port) (rest : List TxFrame) (attempts : Nat) (s : State) : State :=
  ((s.modPort p (fun l => { l with backoff := 0 })).modPort p
    (fun l => { l with contention := rest, attempts := attempts, window := min 1024 (2 * l.window) })).countPort p 8

theorem State.contentionWon_port (f : TxFrame) (rest : List TxFrame) : (s.contentionWon p f rest).port p = LinePort.count 5
    { s.port p with backoff := 0, lastTx := some f, txBits := f.bits false s.lineKeyNow (s.port p).cycle, contention := rest,
                    window := s.startWindow, attempts := 0 } := by
  cases p <;> rfl

theorem State.contentionLost_port (rest : List TxFrame) (n : Nat) : (s.contentionLost p rest n).port p = LinePort.count 8
    { s.port p with backoff := 0, contention := rest, attempts := n, window := min 1024 (2 * (s.port p).window) } := by
  cases p <;> rfl

section
variable {f : TxFrame} {rest : List TxFrame} (hp : s.portLive p = true) (hh : s.contentionHead p = some (f, rest))
include hp hh

theorem execContentionTx_won : exec (.contentionTx p false) s = .next ((s.contentionWon p f rest).backoffAgain p) := by
  show execContentionTx p false s = _
  unfold execContentionTx
  rw [if_neg (by rw [hp]; exact Bool.false_ne_true), hh]
  cases p <;> rfl

theorem execContentionTx_lost (ha : (s.port p).attempts < 4) :
    exec (.contentionTx p true) s = .next ((s.contentionLost p (f :: rest) ((s.port p).attempts + 1)).backoffAgain p) := by
  show execContentionTx p true s = _
  unfold execContentionTx
  rw [if_neg (by rw [hp]; exact Bool.false_ne_true), hh]
  dsimp only
  rw [if_neg (show ¬ (!true) = true from Bool.false_ne_true), if_neg (show ¬ 4 ≤ (s.port p).attempts by omega)]
  rfl

theorem execContentionTx_dropped (ha : 4 ≤ (s.port p).attempts) :
    exec (.contentionTx p true) s = .next ((s.contentionLost p rest 0).backoffAgain p) := by
  show execContentionTx p true s = _
  unfold execContentionTx
  rw [if_neg (by rw [hp]; exact Bool.false_ne_true), hh]
  dsimp only
  rw [if_neg (show ¬ (!true) = true from Bool.false_ne_true), if_pos ha]
  rfl

end

/-! ### The timers of JOIN and ROUTE (R495, R496, R498) -/

theorem HeaderKept.portLive (k : HeaderKept s t) (q : Port) : t.portLive q = s.portLive q := by
  unfold State.portLive State.domOn State.blockUnderTest
  rw [k.power, k.bist, k.clock, k.portPresent]

/-- JOIN_RETRY_TIMER on one port. -/
def State.joinAgain (p : Port) (s : State) : State :=
  if (s.portLive p && ((s.port p).mismatch || (s.port p).conflict)) = true then s.queueJoin p false else s

theorem HeaderKept.joinAgain : HeaderKept s (s.joinAgain p) := by
  unfold State.joinAgain
  split
  · exact HeaderKept.queueJoin false
  · exact HeaderKept.refl s

theorem State.joinAgain_idle (h : ((s.port p).mismatch || (s.port p).conflict) = false) : s.joinAgain p = s := by
  unfold State.joinAgain
  rw [h, Bool.and_false]
  rfl

theorem State.joinAgain_joins (hp : s.portLive p = true) (h : ((s.port p).mismatch || (s.port p).conflict) = true) :
    ((s.joinAgain p).port p).contention.any TxFrame.isJoin = true := by
  unfold State.joinAgain
  rw [if_pos (by rw [hp, h]; rfl)]
  exact (State.queueJoin_contention false s).1

theorem State.joinAgain_other : (s.joinAgain p).port (otherPort p) = s.port (otherPort p) := by
  unfold State.joinAgain State.queueJoin State.contend
  split
  · split
    · rfl
    · dsimp only
      split <;> cases p <;> rfl
  · rfl

theorem State.joinAgain_rest : s.joinAgain p = { s with lineA := (s.joinAgain p).lineA, lineB := (s.joinAgain p).lineB, freeCtr := (s.joinAgain p).freeCtr } := by
  unfold State.joinAgain
  split
  · exact (State.queueJoin_only ..).eq
  · rfl

/-- A ROUTE frame as it stands for a port (R498). -/
def State.routeFrame (s : State) (p : Port) : TxFrame :=
  { dst := segmentAll (s.portSegment p), src := s.fab.addr, ackmap := 0, isNew := false, fseq := 0, body := .route (s.advertised p) }

/-- ROUTE_ADVERT_TIMER on one port. -/
def State.advertise (p : Port) (s : State) : State := if s.portLive p = true then s.queueRoute p else s

theorem State.advertise_mgmt (hp : s.portLive p = true) : ((s.advertise p).port p).mgmt.head? = some (s.routeFrame p) := by
  unfold State.advertise
  rw [if_pos hp]
  cases p <;> rfl

/-- A ROUTE frame waiting on one port changes nothing of what the other port advertises. -/
theorem State.advertise_kept : (s.advertise p).portLive (otherPort p) = s.portLive (otherPort p) ∧
    (s.advertise p).routeFrame (otherPort p) = s.routeFrame (otherPort p) := by
  unfold State.advertise
  split
  · cases p <;> exact ⟨rfl, rfl⟩
  · exact ⟨rfl, rfl⟩

theorem State.advertise_rest : s.advertise p = { s with lineA := (s.advertise p).lineA, lineB := (s.advertise p).lineB } := by
  unfold State.advertise
  split
  · cases p <;> rfl
  · rfl

theorem State.advertise_other : (s.advertise p).port (otherPort p) = s.port (otherPort p) := by
  unfold State.advertise
  split
  · cases p <;> rfl
  · rfl

/-- SLOT_CONFLICT_RETRY on one port. -/
def State.slotTried (p : Port) (s : State) : State :=
  if (s.port p).conflict = true then s.modPort p (fun l => { l with conflict := false, conflictRun := 0, conflictNow := false }) else s

theorem State.slotTried_port : ((s.slotTried p).port p).conflict = false ∧ ((s.port p).conflict = true → ((s.slotTried p).port p).conflictRun = 0) ∧
    ((s.port p).conflict = false → (s.slotTried p).port p = s.port p) ∧ (s.slotTried p).port (otherPort p) = s.port (otherPort p) := by
  unfold State.slotTried
  split
  · next h => cases p <;> exact ⟨rfl, fun _ => rfl, fun hn => absurd h (by rw [hn]; exact Bool.false_ne_true), rfl⟩
  · next h => exact ⟨Bool.eq_false_iff.mpr h, fun hy => absurd hy h, fun _ => rfl, rfl⟩

theorem State.slotTried_rest : s.slotTried p = { s with lineA := (s.slotTried p).lineA, lineB := (s.slotTried p).lineB } := by
  unfold State.slotTried
  split
  · cases p <;> rfl
  · rfl

/-! ### FramesSent, clause by clause -/

theorem linesOnly_trans {u : State} (h : u = { s with lineA := u.lineA, lineB := u.lineB }) (k : t = { u with lineA := t.lineA, lineB := t.lineB }) :
    t = { s with lineA := t.lineA, lineB := t.lineB } := k.trans (by rw [h])

theorem joinedOnly_trans {u : State} (h : u = { s with lineA := u.lineA, lineB := u.lineB, freeCtr := u.freeCtr })
    (k : t = { u with lineA := t.lineA, lineB := t.lineB, freeCtr := t.freeCtr }) :
    t = { s with lineA := t.lineA, lineB := t.lineB, freeCtr := t.freeCtr } := k.trans (by rw [h])

theorem heard_sent (port : Port) (slot : Option (Fin 63)) (slotted inverted : Bool) (key : Option (BitVec 128)) (cycle : W32) (f : TxFrame)
    (hl : lengthOk f.body.kind f.len = true) :
    LineRx.heard { port := port, slot := slot, bits := if inverted = true
        then (lineBits (0xD5 :: (f.bytes slotted key cycle ++ leBytes 4 (crc32 (f.bytes slotted key cycle))))).map (fun b => !b)
        else lineBits (0xD5 :: (f.bytes slotted key cycle ++ leBytes 4 (crc32 (f.bytes slotted key cycle)))) } =
      some (f.heardAs port slot slotted key cycle) := by
  unfold LineRx.heard
  dsimp only
  rw [uninverted_sent]
  exact parseFrame_sent f port slot slotted key cycle hl

theorem TxFrame.bits_eq (f : TxFrame) (slotted : Bool) (key : Option (BitVec 128)) (cycle : W32) (hk : f.body.kind ≠ 3) :
    f.bits slotted key cycle =
      lineBits [0x55, 0x55] ++ lineBits (0xD5 :: (f.bytes slotted key cycle ++ leBytes 4 (crc32 (f.bytes slotted key cycle)))) := by
  unfold TxFrame.bits
  dsimp only
  rw [if_neg hk, List.append_nil, List.append_assoc, List.append_assoc]
  rfl

theorem State.slotMine_own (hf : (s.port p).slotFrom = true) : (s.slotTaken p).slotMine p s.ownSlot = true := by
  rw [State.slotTaken_slotMine]
  unfold State.slotMine
  rw [beq_self_eq_true, hf]
  rfl

theorem State.slotTaken_carries : (s.slotTaken p).carries = s.carries ∧ (s.slotTaken p).pols = s.pols := by cases p <;> exact ⟨rfl, rfl⟩

theorem State.slotTaken_routing (d : BitVec 12) : (s.slotTaken p).portToward d = s.portToward d ∧ (s.slotTaken p).needsWake p d = s.needsWake p d := by
  cases p <;> exact ⟨rfl, rfl⟩

theorem State.slotTaken_cycle : (s.slotTaken p).forwardCycle p = s.forwardCycle p ∧ (s.slotTaken p).shareSlot p = s.shareSlot p ∧
    ∀ i, (s.slotTaken p).sharePolder i = s.sharePolder i := by
  cases p <;> exact ⟨rfl, rfl, fun _ => rfl⟩

/-- The node's own slot in a share whose polder has something to send. -/
theorem State.slotTx_share {q : PolId} {u : State} (hm : s.slotMine p slot = true) (hk : s.skipped p = false) (hf : s.forwardCycle p = false)
    (hq : s.sharePolder (s.shareSlot p) = some q) (hx : s.shareTx p slot q = (some t, u)) : s.slotTx p slot = t := by
  unfold State.slotTx
  rw [if_pos hm, if_neg (by rw [hk]; exact Bool.false_ne_true), if_neg (by rw [hf]; exact Bool.false_ne_true)]
  unfold State.shareSlotTx
  rw [hq]
  dsimp only
  rw [hx]

/-- In a skipped cycle the node's own slot still carries an ACK frame (R477, R592). -/
theorem skippedSlot_sends (hu : s.usesSlots p = true) (hi : (s.slotsNow p)[(s.port p).slotsSent]? = some s.ownSlot) (hk : s.skipped p = true)
    (hf : (s.port p).slotFrom = true) (hc : s.carries.all (fun c => c.why ≠ .sysReset) = true) :
    ∃ t f, exec (.dataSlotTx p) s = .next t ∧ (t.port p).lastTx = some f ∧ f.body = .ackOnly ∧ f.src = s.fab.addr ∧ f.ackmap = (s.port p).ackPending ∧
      (t.port p).txBits = f.bits true s.lineKeyNow (s.port p).cycle ∧ (t.port p).ackPending = 0 ∧ (t.port p).slotsSent = (s.port p).slotsSent + 1 ∧ t.pols = s.pols ∧
      (t.port p).counters.toList[4]? = ((s.port p).counters.toList[4]?).map (fun c => min 65535 (c + 1)) := by
  have hmine := State.slotMine_own hf
  have htx : (s.slotTaken p).slotTx p s.ownSlot = (s.slotTaken p).putSlot p s.ownSlot ((s.slotTaken p).ackFrame p) := by
    unfold State.slotTx
    rw [if_pos hmine, if_pos (State.slotTaken_skipped.trans hk)]
  obtain ⟨hpols, hcarries⟩ := State.putSlot_pols (s := s.slotTaken p) (p := p) (slot := s.ownSlot) ((s.slotTaken p).ackFrame p)
  refine ⟨_, ((s.slotTaken p).ackFrame p).withMap (s.port p),
    execDataSlotTx_sent hu hi htx (hcarries.trans State.slotTaken_carries.1) hc, ?_⟩
  rw [hpols, State.putSlot_port hmine, State.slotTaken_port]
  have hcount := State.countPort_counter s p (i := 5) (by decide)
  refine ⟨rfl, rfl, ?_, rfl, ?_, rfl, rfl, State.slotTaken_carries.2, ?_⟩
  · cases p <;> rfl
  · cases p <;> rfl
  · cases p <;> exact hcount

/-- A reply leaves its polder's queue. -/
def State.replyOut (q : PolId) (r : Reply) (s : State) : State := s.modPol q (fun x => { x with replyQ := x.replyQ.erase r })

theorem pol_congr {u v : State} (h : v.pols = u.pols) (q : PolId) : v.pol q = u.pol q := by
  unfold State.pol
  rw [h]

/-- The share's polder sends its oldest reply for the port (R484, R485). -/
theorem shareSlot_sends {q : PolId} {r : Reply} {d : BitVec 12} (hu : s.usesSlots p = true) (hi : (s.slotsNow p)[(s.port p).slotsSent]? = some s.ownSlot)
    (hk : s.skipped p = false) (hfc : s.forwardCycle p = false) (hf : (s.port p).slotFrom = true)
    (hc : s.carries.all (fun c => c.why ≠ .sysReset) = true) (hq : s.sharePolder (s.shareSlot p) = some q) (hua : (s.port p).unacked = [])
    (hr : (s.pol q).replyQ.head? = some r) (hpath : r.path = .line d) (hpt : s.portToward d = p) (hw : s.needsWake p d = false)
    (hb : addrBroadcast d = false) :
    ∃ t f u, exec (.dataSlotTx p) s = .next t ∧ (t.port p).lastTx = some f ∧ f.body = .data (.reply r) ∧ f.dst = d ∧ f.src = s.fab.addr ∧
      (t.port p).txBits = f.bits true s.lineKeyNow (s.port p).cycle ∧
      f.ackmap = (s.port p).ackPending ∧ (t.pol q).replyQ = (s.pol q).replyQ.tail ∧ (t.port p).unacked = [u] ∧ u.tries = 0 ∧ u.slot = s.ownSlot ∧
      u.cycle = (s.port p).cycle ∧ u.unread = true ∧ u.frame.fseq = ((s.port p).txFlow { src := s.fab.addr, dst := d, pol := some q }).next ∧
      u.frame.isNew = !((s.port p).txFlow { src := s.fab.addr, dst := d, pol := some q }).started := by
  have hmine := State.slotMine_own hf
  obtain ⟨rest, hrest⟩ : ∃ rest, (s.pol q).replyQ = r :: rest := List.head?_eq_some_iff.mp hr
  have hpol : (s.slotTaken p).pol q = s.pol q := by cases p <;> rfl
  obtain ⟨htoward, hwake⟩ := State.slotTaken_routing (s := s) (p := p) d
  obtain ⟨hcycle, hshare, hpolder⟩ := State.slotTaken_cycle (s := s) (p := p)
  have hnext := State.nextPacket_reply (s := s.slotTaken p) (q := q) ((congrArg Polder.replyQ hpol).trans hrest) hpath (htoward.trans hpt)
  have htx := State.shareTx_packet (s := s.slotTaken p) (slot := s.ownSlot) ((congrArg LinePort.unacked State.slotTaken_port).trans hua) hnext (hwake.trans hw)
  have haddr : (s.slotTaken p).fab.addr = s.fab.addr := by cases p <;> rfl
  rw [haddr] at htx
  have hslot := State.slotTx_share hmine (State.slotTaken_skipped.trans hk) (hcycle.trans hfc) (by rw [hshare, hpolder, hq]) htx
  have hqueue : ((s.slotTaken p).replyOut q r).pol q = { s.pol q with replyQ := (s.pol q).replyQ.tail } := by
    unfold State.replyOut
    rw [State.pol_modPol_self, hpol, hrest, List.erase_cons_head]
    rfl
  have hport : ((s.slotTaken p).replyOut q r).port p = { s.port p with slotsSent := (s.port p).slotsSent + 1 } := State.slotTaken_port
  have hkey : ((s.slotTaken p).replyOut q r).lineKeyNow = s.lineKeyNow := by cases p <;> rfl
  obtain ⟨hpols, hcarries⟩ := State.sendFlow_pols (s := (s.slotTaken p).replyOut q r) (p := p) (slot := s.ownSlot)
    (f := { src := s.fab.addr, dst := d, pol := some q }) (body := .data (.reply r)) (arrived := (s.slotTaken p).clock.elapsed)
  obtain ⟨hlast, hbits, hop, hwait⟩ := State.sendFlow_port (s := (s.slotTaken p).replyOut q r) (p := p) (slot := s.ownSlot)
    (f := { src := s.fab.addr, dst := d, pol := some q }) (body := .data (.reply r)) (arrived := (s.slotTaken p).clock.elapsed) hmine hb
  rw [hport] at hlast hbits hwait
  rw [hkey] at hbits
  refine ⟨_, _, _, execDataSlotTx_sent hu hi hslot (hcarries.trans State.slotTaken_carries.1) hc, hlast, rfl, rfl, rfl, hbits, rfl, ?_,
    hwait.trans (congrArg (· ++ _) hua), rfl, rfl, rfl, rfl, rfl, rfl⟩
  exact congrArg Polder.replyQ ((pol_congr hpols q).trans hqueue)

/-- A lent slot, or the own slot lent away, stays empty where nothing is to be forwarded (R481, R484). -/
theorem lentSlot_idle (hu : s.usesSlots p = true) (hi : (s.slotsNow p)[(s.port p).slotsSent]? = some slot)
    (hm : slot ≠ s.ownSlot ∨ (s.port p).slotFrom = false) (hua : (s.port p).unacked = []) (hf : (s.port p).fwd = [])
    (hc : s.carries.all (fun c => c.why ≠ .sysReset) = true) : exec (.dataSlotTx p) s = .next (s.slotTaken p) := by
  have hmine : (s.slotTaken p).slotMine p slot = false := by
    rw [State.slotTaken_slotMine]
    unfold State.slotMine
    rcases hm with hne | hfrom
    · rw [beq_eq_false_iff_ne.mpr hne, Bool.false_and]
    · rw [hfrom, Bool.and_false]
  exact execDataSlotTx_sent hu hi (State.slotTx_idle hmine ((congrArg LinePort.unacked State.slotTaken_port).trans hua)
    ((congrArg LinePort.fwd State.slotTaken_port).trans hf)) State.slotTaken_carries.1 hc

theorem State.port_modPort_other (g : LinePort → LinePort) : (s.modPort p g).port (otherPort p) = s.port (otherPort p) := by cases p <;> rfl

theorem State.contentionWon_other (f : TxFrame) (rest : List TxFrame) : (s.contentionWon p f rest).port (otherPort p) = s.port (otherPort p) := by
  unfold State.contentionWon State.countPort State.putLine
  rw [State.port_modPort_other, State.port_modPort_other, State.port_modPort_other, State.port_modPort_other]

/-- A contention is won, doubled or dropped (R476, R506). -/
theorem contention_outcomes {f : TxFrame} {rest : List TxFrame} (hp : s.portLive p = true) (hh : s.contentionHead p = some (f, rest)) :
    (∃ t, exec (.contentionTx p false) s = .next t ∧ (t.port p).contention = rest ∧ (t.port p).lastTx = some f ∧ (t.port p).attempts = 0 ∧
      (t.port p).window = (if s.power.discoveryOver then 8 else 64) ∧ (t.port p).txBits = f.bits false s.lineKeyNow (s.port p).cycle ∧
      t.port (otherPort p) = s.port (otherPort p)) ∧
    ((s.port p).attempts < 4 → ∃ t, exec (.contentionTx p true) s = .next t ∧ (t.port p).contention = f :: rest ∧
      (t.port p).attempts = (s.port p).attempts + 1 ∧ (t.port p).window = min 1024 (2 * (s.port p).window) ∧
      (0 < (s.port p).window → (t.port p).backoff < (t.port p).window) ∧ (t.port p).lastTx = (s.port p).lastTx) ∧
    (4 ≤ (s.port p).attempts → ∃ t, exec (.contentionTx p true) s = .next t ∧ (t.port p).contention = rest ∧ (t.port p).attempts = 0 ∧
      (t.port p).lastTx = (s.port p).lastTx) := by
  refine ⟨?_, fun ha => ?_, fun ha => ?_⟩
  · obtain ⟨b, hb, -⟩ := State.backoffAgain_port (s := s.contentionWon p f rest) (p := p)
    rw [State.contentionWon_port] at hb
    refine ⟨_, execContentionTx_won hp hh, ?_⟩
    rw [hb]
    exact ⟨rfl, rfl, rfl, rfl, rfl, State.backoffAgain_other.trans (State.contentionWon_other f rest)⟩
  · obtain ⟨b, hb, hlt⟩ := State.backoffAgain_port (s := s.contentionLost p (f :: rest) ((s.port p).attempts + 1)) (p := p)
    rw [State.contentionLost_port] at hb hlt
    refine ⟨_, execContentionTx_lost hp hh ha, ?_⟩
    rw [hb]
    exact ⟨rfl, rfl, rfl, fun hw => hlt (show 0 < min 1024 (2 * (s.port p).window) by omega), rfl⟩
  · obtain ⟨b, hb, -⟩ := State.backoffAgain_port (s := s.contentionLost p rest 0) (p := p)
    rw [State.contentionLost_port] at hb
    refine ⟨_, execContentionTx_dropped hp hh ha, ?_⟩
    rw [hb]
    exact ⟨rfl, rfl, rfl⟩

/-- A port in mismatch or conflict queues a JOIN, another one does nothing (R495, R496). -/
theorem joinRetry_joins (s : State) : ∃ t, exec .joinRetryTimer s = .next t ∧ t = { s with lineA := t.lineA, lineB := t.lineB, freeCtr := t.freeCtr } ∧
    (∀ p, s.portLive p = true → ((s.port p).mismatch || (s.port p).conflict) = true → (t.port p).contention.any TxFrame.isJoin = true) ∧
    (∀ p, ((s.port p).mismatch || (s.port p).conflict) = false → t.port p = s.port p) := by
  have hb : (s.joinAgain .a).port .b = s.port .b := State.joinAgain_other (p := .a)
  have ha : ((s.joinAgain .a).joinAgain .b).port .a = (s.joinAgain .a).port .a := State.joinAgain_other (p := .b)
  refine ⟨(s.joinAgain .a).joinAgain .b, rfl, ?_, fun p hp hm => ?_, fun p hm => ?_⟩
  · exact joinedOnly_trans State.joinAgain_rest State.joinAgain_rest
  · cases p
    · rw [ha]
      exact State.joinAgain_joins hp hm
    · exact State.joinAgain_joins ((HeaderKept.joinAgain.portLive .b).trans hp) (by rw [hb]; exact hm)
  · cases p
    · rw [ha, State.joinAgain_idle hm]
    · rw [State.joinAgain_idle (by rw [hb]; exact hm), hb]

/-- A port in slot conflict tries its slot again (R496). -/
theorem slotConflictRetry_tries (s : State) : ∃ t, exec .slotConflictRetry s = .next t ∧ t = { s with lineA := t.lineA, lineB := t.lineB } ∧
    (∀ p, (t.port p).conflict = false ∧ ((s.port p).conflict = true → (t.port p).conflictRun = 0) ∧ ((s.port p).conflict = false → t.port p = s.port p)) := by
  obtain ⟨ca, ra, ka, hb⟩ := State.slotTried_port (s := s) (p := .a)
  obtain ⟨cb, rb, kb, ha⟩ := State.slotTried_port (s := s.slotTried .a) (p := .b)
  refine ⟨(s.slotTried .a).slotTried .b, rfl, ?_, fun p => ?_⟩
  · exact linesOnly_trans State.slotTried_rest State.slotTried_rest
  · change (s.slotTried .a).port .b = s.port .b at hb
    change ((s.slotTried .a).slotTried .b).port .a = (s.slotTried .a).port .a at ha
    cases p
    · rw [ha]
      exact ⟨ca, ra, ka⟩
    · rw [hb] at rb kb
      exact ⟨cb, rb, kb⟩

/-- A bridge queues a ROUTE frame on each live port (R498). -/
theorem routeAdvert_queues (hbr : s.bridging = true) (hun : s.unaddressed = false) :
    ∃ t, exec .routeAdvertTimer s = .next t ∧ t = { s with lineA := t.lineA, lineB := t.lineB } ∧
    (∀ p, s.portLive p = true → ∃ f, (t.port p).mgmt.head? = some f ∧ f.body = .route (s.advertised p) ∧ f.src = s.fab.addr ∧
      f.dst = segmentAll (s.portSegment p)) := by
  obtain ⟨hlive, hroute⟩ := State.advertise_kept (s := s) (p := .a)
  have ha : ((s.advertise .a).advertise .b).port .a = (s.advertise .a).port .a := State.advertise_other (p := .b)
  refine ⟨(s.advertise .a).advertise .b, ?_, ?_, fun p hp => ⟨s.routeFrame p, ?_, rfl, rfl, rfl⟩⟩
  · exact congrArg Host.Outcome.next (if_pos (by rw [hbr, hun]; rfl))
  · exact linesOnly_trans State.advertise_rest State.advertise_rest
  · cases p
    · rw [ha]
      exact State.advertise_mgmt hp
    · exact (State.advertise_mgmt (hlive.trans hp)).trans (congrArg some hroute)

/-- Settles O51: what a frame's bits give back, then a clause for each thing the node sends. -/
theorem framesSent : Obligations.FramesSent := by
  unfold Obligations.FramesSent
  refine ⟨fun port slot slotted inverted key cycle f hl => ?_, fun s p => skippedSlot_sends, fun s p q r d => shareSlot_sends,
    fun s p slot => lentSlot_idle, fun s p f rest => contention_outcomes, joinRetry_joins, slotConflictRetry_tries, fun s => routeAdvert_queues⟩
  rw [← TxFrame.len_eq] at hl
  obtain ⟨hplain, hsigned⟩ := f.heardAs_signed port slot slotted key cycle
  refine ⟨f.bits_eq slotted key cycle, _, heard_sent port slot slotted inverted key cycle f hl, rfl, rfl, rfl, rfl, rfl, rfl, ?_, ?_, hplain, hsigned⟩
  · rintro rfl
    exact ⟨rfl, rfl⟩
  · rintro rfl
    exact ⟨rfl, rfl⟩

end Sys2Proof.Machine
end

section
/-! PROOFS. Beacons (O52): what queues frames only, and the beacon a reeve sends. -/

namespace Sys2Proof.Machine

variable {s t u : State} {p : Port}

/-! ### What only queues frames -/

/-- Of the line nothing but frames to send has changed: those in contention with their backoff, the management traffic, and the count of SWAP_DONE left to send. -/
structure Queued (s t : State) : Prop where
  fab : t.fab = { s.fab with doneLeft := t.fab.doneLeft }
  port : ∀ q, t.port q = { s.port q with contention := (t.port q).contention, backoff := (t.port q).backoff, mgmt := (t.port q).mgmt }

theorem Queued.refl (s : State) : Queued s s := ⟨rfl, fun _ => rfl⟩

theorem Queued.trans (h : Queued s t) (k : Queued t u) : Queued s u :=
  ⟨k.fab.trans (by rw [h.fab]), fun q => (k.port q).trans (by rw [h.port q])⟩

theorem Queued.of_eq (hf : t.fab = s.fab) (ha : t.lineA = s.lineA) (hb : t.lineB = s.lineB) : Queued s t := by
  refine ⟨by rw [hf], fun q => ?_⟩
  rw [port_congr ha hb q]

/-- What leaves ports and fabric state alone queues nothing. -/
theorem Queued.of_only {T : Touch} (h : Only T s t) (hT : (T.lineA || T.lineB || T.fab) = false) : Queued s t := by
  simp only [Bool.or_eq_false_iff] at hT
  obtain ⟨⟨ha, hb⟩, hf⟩ := hT
  exact .of_eq (h.fab.resolve_left (Bool.eq_false_iff.mp hf)) (h.lineA.resolve_left (Bool.eq_false_iff.mp ha)) (h.lineB.resolve_left (Bool.eq_false_iff.mp hb))

theorem Queued.ownerEvent (code : Nat) (payload : List Byte) : Queued s (s.ownerEvent code payload) := .of_only (State.ownerEvent_only ..) rfl

theorem Queued.contend (f : TxFrame) : Queued s (s.contend p f) := by
  unfold State.contend State.drawBackoff
  dsimp only
  split <;> refine ⟨by cases p <;> rfl, fun q => ?_⟩ <;> cases p <;> cases q <;> rfl

theorem Queued.queueJoin (reclaim : Bool) : Queued s (s.queueJoin p reclaim) := by
  unfold State.queueJoin
  split
  · exact .refl s
  · exact .contend _

theorem Queued.sendService (dst : BitVec 12) (filter byte1 : Nat) (value : BitVec 48) : Queued s (s.sendService dst filter byte1 value) := by
  unfold State.sendService
  dsimp only
  split
  · exact .contend _
  · generalize s.portToward dst = p
    refine ⟨by cases p <;> rfl, fun q => ?_⟩
    cases p <;> cases q <;> rfl

theorem Queued.setDoneLeft (n : Nat) : Queued s { s with fab := { s.fab with doneLeft := n } } := ⟨rfl, fun q => by cases q <;> rfl⟩

/-- An unanswered SWAP_REQ is sent again. -/
def State.swapAgain (s : State) : State :=
  match s.fab.swap with
  | some w => if (!w.answered && s.noService 4) = true then s.sendService w.peer 4 (swapCode w.role) (stamp48 w.stamp) else s
  | none => s

/-- SWAP_DONE is sent again. -/
def State.doneAgain (s : State) : State :=
  match s.fab.doneSent with
  | some (role, peer, stamp) =>
    if s.fab.doneLeft = 0 then s
    else ({ s with fab := { s.fab with doneLeft := s.fab.doneLeft - 1 } } : State).sendService peer 7 (swapCode role) stamp
  | none => s

theorem State.repeatSwap_eq (s : State) : s.repeatSwap = s.swapAgain.doneAgain := rfl

theorem Queued.swapAgain : Queued s s.swapAgain := by
  unfold State.swapAgain
  split
  · split
    · exact .sendService ..
    · exact .refl s
  · exact .refl s

theorem Queued.doneAgain : Queued s s.doneAgain := by
  unfold State.doneAgain
  split
  · split
    · exact .refl s
    · exact (Queued.setDoneLeft _).trans (.sendService ..)
  · exact .refl s

theorem Queued.repeatSwap : Queued s s.repeatSwap := by
  rw [State.repeatSwap_eq]
  exact Queued.swapAgain.trans .doneAgain

theorem Queued.decidePortMode : Queued s s.decidePortMode := .of_only (State.decidePortMode_only s) rfl

theorem Queued.takePhase (valid newSource : Bool) (edge : Tb) (period : Nat) : Queued s (s.takePhase valid newSource edge period) :=
  .of_only (State.takePhase_only ..) rfl

theorem Queued.timeEvent (state : Nat) (offset : Int) : Queued s (s.timeEvent state offset) := .of_only (State.timeEvent_only ..) rfl

/-! ### The beacon a reeve sends (R480 to R483, R492, R514, R516) -/

/-- The fabric state that the next beacon tells. -/
def State.beaconFab (s : State) (first : Bool) : Fabric := if first = true then s.fab else (s.fab.nextMaps s.ownSlot s.bridging).nextGrant

/-- KEY_ID of the next beacon: an elected reeve's first one repeats the last reeve's. -/
def State.beaconKeyId (s : State) (first : Bool) : Byte :=
  match (s.port s.homePort).last with
  | some b => if first = true then b.keyId else (s.beaconFab first).keyId
  | none => (s.beaconFab first).keyId

/-- The next beacon. -/
def State.beaconSent (s : State) (first : Bool) : BeaconFields := State.beaconNow { s with fab := s.beaconFab first } (s.beaconKeyId first)

/-- The frame of the next beacon. -/
def State.beaconFrame (s : State) (first : Bool) : TxFrame :=
  { dst := segmentAll (addrSegment (s.beaconFab first).addr), src := (s.beaconFab first).addr, ackmap := 0, isNew := false, fseq := 0,
    body := .beacon (s.beaconSent first) }

theorem Fabric.nextGrant_eq (f : Fabric) : ∃ i g q, f.nextGrant = { f with grantId := i, grantSlot := g, joinQueue := q } := by
  unfold Fabric.nextGrant
  dsimp only
  split <;> split
  · exact ⟨_, _, _, rfl⟩
  · split <;> exact ⟨_, _, _, rfl⟩
  · exact ⟨_, _, _, rfl⟩
  · split <;> exact ⟨_, _, _, rfl⟩

/-- What every beacon of a reeve tells of its own: the fields that no cycle's maps change. -/
theorem State.beaconFab_eq (s : State) (first : Bool) : (s.beaconFab first).cycle = s.fab.cycle ∧ (s.beaconFab first).addr = s.fab.addr ∧
    (s.beaconFab first).role = s.fab.role ∧ (s.beaconFab first).rank = s.fab.rank ∧ (s.beaconFab first).following = s.fab.following ∧
    (s.beaconFab first).handover = s.fab.handover := by
  unfold State.beaconFab
  split
  · exact ⟨rfl, rfl, rfl, rfl, rfl, rfl⟩
  · obtain ⟨i, g, q, h⟩ := Fabric.nextGrant_eq (s.fab.nextMaps s.ownSlot s.bridging)
    rw [h]
    exact ⟨rfl, rfl, rfl, rfl, rfl, rfl⟩

theorem State.beaconFab_maps (s : State) : (s.beaconFab false).held = s.fab.held ||| bitOf 64 s.ownSlot ∧ (s.beaconFab false).heardNow = 0 := by
  unfold State.beaconFab
  rw [if_neg Bool.false_ne_true]
  obtain ⟨i, g, q, h⟩ := Fabric.nextGrant_eq (s.fab.nextMaps s.ownSlot s.bridging)
  rw [h]
  exact ⟨rfl, rfl⟩

/-- The fields of the beacon sent. -/
theorem State.beaconNow_fields (s : State) (keyId : Byte) :
    let b := s.beaconNow keyId
    b.cycle = s.fab.cycle ∧ b.segment = s.ownSegment ∧ b.rank = s.fab.rank ∧ b.reeveId = s.life.uid ∧ b.fabricReeve = (s.fab.role == 2) ∧
      b.tbTx = BitVec.ofNat 64 s.clock.tb.word ∧ b.held = s.fab.held ∧ b.present = s.fab.present ∧
      b.timeValid = (s.fab.role == 2 || s.fab.following) ∧ b.hops = (if (s.fab.role == 2) = true then 0 else if s.fab.following = true then s.fab.hops else 0xff) := by
  unfold State.beaconNow
  dsimp only
  split <;> exact ⟨rfl, rfl, rfl, rfl, rfl, rfl, rfl, rfl, rfl, rfl⟩

/-- The beacon is on the line. -/
def State.beaconPut (s : State) (first : Bool) : State :=
  let b := s.beaconSent first
  let v : State := { s with fab := s.beaconFab first }
  let w := ((v.newCycle s.homePort b.cycle false false).modPort s.homePort (fun l =>
    (({ l with last := some b, lastSrc := v.fab.addr, rxTb := v.clock.tb, missed := 0, mismatch := false } : LinePort).countMode
      v.ownSegment v.life.uid).count 5)).putLine s.homePort false (s.beaconFrame first)
  { w.drawn with fab := { w.fab with cycle := b.cycle + 1, copyPresent := if first = true then w.fab.copyPresent - 1 else w.fab.copyPresent } }

/-- The fabric reeve's own phase takes effect, or a segment reeve without time ends its phase (R209, R527). -/
def State.phaseSent (b : BeaconFields) (newSource : Bool) (s : State) : State :=
  let s := if s.fab.role = 1 ∧ s.fab.following = false then s.takePhase false false Tb.zero 0 else s
  if s.fab.role = 2 then s.takePhase b.phaseValid newSource (Tb.ofWord b.phaseEdge.toNat) b.phasePeriod.toNat else s

/-- The fabric role's beacons come from a new node (R528). -/
def State.sourceMoved (s : State) (first : Bool) : Bool := (s.port s.homePort).last.any (fun o => movedSource o (s.beaconSent first))

theorem State.emitBeacon_eq (s : State) (first : Bool) :
    s.emitBeacon first = ((s.beaconPut first).decidePortMode.phaseSent (s.beaconSent first) (s.sourceMoved first)).repeatSwap := by
  rfl

theorem Queued.ite {c : Prop} [Decidable c] (h : Queued s t) (k : Queued s u) : Queued s (if c then t else u) := by
  split
  · exact h
  · exact k

theorem Queued.phaseSent (b : BeaconFields) (newSource : Bool) : Queued s (s.phaseSent b newSource) :=
  (Queued.ite (.takePhase ..) (.refl s)).trans (.ite (.takePhase ..) (.refl _))

theorem State.beaconPut_port (s : State) (first : Bool) :
    let l := (s.beaconPut first).port s.homePort
    l.lastTx = some (s.beaconFrame first) ∧ l.cycle = (s.beaconSent first).cycle ∧ l.missed = 0 := by
  unfold State.beaconPut State.newCycle State.putLine
  dsimp only
  generalize s.homePort = p
  cases p <;> exact ⟨rfl, rfl, rfl⟩

theorem State.beaconPut_fab (s : State) (first : Bool) :
    ∃ c, (s.beaconPut first).fab = { s.beaconFab first with cycle := (s.beaconSent first).cycle + 1, copyPresent := c } := by
  unfold State.beaconPut State.newCycle State.putLine
  dsimp only
  generalize s.homePort = p
  cases p <;> exact ⟨_, rfl⟩

theorem Queued.emitBeacon (s : State) (first : Bool) : Queued (s.beaconPut first) (s.emitBeacon first) := by
  rw [State.emitBeacon_eq]
  exact (Queued.decidePortMode.trans (.phaseSent ..)).trans .repeatSwap

/-- What leaves with the beacon, and what stays of it (R484, R492, R494, R514). -/
theorem State.emitBeacon_sent (s : State) (first : Bool) :
    let l := (s.emitBeacon first).port s.homePort
    l.lastTx = some (s.beaconFrame first) ∧ l.cycle = (s.beaconSent first).cycle ∧ l.missed = 0 ∧
      ∃ c d, (s.emitBeacon first).fab = { s.beaconFab first with cycle := (s.beaconSent first).cycle + 1, copyPresent := c, doneLeft := d } := by
  obtain ⟨htx, hcycle, hmissed⟩ := State.beaconPut_port s first
  obtain ⟨c, hc⟩ := State.beaconPut_fab s first
  have hq := Queued.emitBeacon s first
  dsimp only
  rw [hq.port s.homePort, hq.fab, hc]
  exact ⟨htx, hcycle, hmissed, c, _, rfl⟩

/-! ### BEACON_TX -/

/-- A reeve that hands no role over sends the beacon of its cycle (R480 to R483, R492, R514 to R516). -/
theorem beaconTx_sends (hl : s.portLive s.homePort = true) (hu : s.unaddressed = false) (hr : s.fab.role ≠ 0) (hh : s.fab.handover = none) :
    exec .beaconTx s = .next (s.emitBeacon false).handoverAfterBeacon := by
  have hb : s.beacons = true := by
    unfold State.beacons
    rw [hl, hu, hh]
    exact bne_iff_ne.mpr hr
  have ha : s.handoverAtBeacon = (false, s) := by
    unfold State.handoverAtBeacon
    rw [hh]
  show execBeaconTx s = _
  unfold execBeaconTx
  rw [if_pos hb, ha]

theorem beaconTx_tells (hl : s.portLive s.homePort = true) (hu : s.unaddressed = false) (hr : s.fab.role ≠ 0) (hh : s.fab.handover = none) :
    ∃ t f b, exec .beaconTx s = .next t ∧ (t.port s.homePort).lastTx = some f ∧ f.body = .beacon b ∧ f.dst = segmentAll s.ownSegment ∧ f.src = s.fab.addr ∧
      b.cycle = s.fab.cycle ∧ t.fab.cycle = s.fab.cycle + 1 ∧ b.segment = s.ownSegment ∧ b.rank = s.fab.rank ∧ b.reeveId = s.life.uid ∧
      b.fabricReeve = (s.fab.role == 2) ∧ b.tbTx = BitVec.ofNat 64 s.clock.tb.word ∧ b.held = s.fab.held ||| BitVec.ofNat 64 (2 ^ s.ownSlot) ∧
      (s.fab.role = 2 → b.timeValid = true ∧ b.hops = 0) ∧ (s.fab.role = 1 → s.fab.following = false → b.timeValid = false ∧ b.hops = 0xff) ∧
      (t.port s.homePort).cycle = b.cycle ∧ (t.port s.homePort).missed = 0 ∧ t.fab.heardNow = 0 ∧ t.fab.role = s.fab.role := by
  obtain ⟨htx, hcycle, hmissed, c, d, hfab⟩ := State.emitBeacon_sent s false
  obtain ⟨hfcycle, haddr, hrole, hrank, hfollow, hhand⟩ := State.beaconFab_eq s false
  obtain ⟨hheld, hheard⟩ := State.beaconFab_maps s
  obtain ⟨bcycle, bseg, brank, bid, bfabric, btb, bheld, -, btime, bhops⟩ :=
    State.beaconNow_fields { s with fab := s.beaconFab false } (s.beaconKeyId false)
  have hafter : (s.emitBeacon false).handoverAfterBeacon = s.emitBeacon false := by
    unfold State.handoverAfterBeacon
    rw [hfab]
    dsimp only
    rw [hhand, hh]
  refine ⟨s.emitBeacon false, s.beaconFrame false, s.beaconSent false, (beaconTx_sends hl hu hr hh).trans (congrArg _ hafter), htx, rfl,
    congrArg (fun a => segmentAll (addrSegment a)) haddr, haddr, bcycle.trans hfcycle, ?_, bseg.trans (congrArg addrSegment haddr), brank.trans hrank, bid,
    bfabric.trans (congrArg (· == 2) hrole), btb, bheld.trans hheld, fun h2 => ⟨?_, ?_⟩, fun h1 hf => ⟨?_, ?_⟩, hcycle, hmissed, ?_, ?_⟩
  · rw [hfab]
    exact congrArg (· + 1) (bcycle.trans hfcycle)
  · refine btime.trans ?_
    dsimp only
    rw [hrole, h2]
    rfl
  · refine bhops.trans ?_
    dsimp only
    rw [hrole, h2]
    rfl
  · refine btime.trans ?_
    dsimp only
    rw [hrole, hfollow, h1, hf]
    rfl
  · refine bhops.trans ?_
    dsimp only
    rw [hrole, hfollow, h1, hf]
    rfl
  · rw [hfab]
    exact hheard
  · rw [hfab]
    exact hrole

end Sys2Proof.Machine
end

section
/-! PROOFS. Beacons (O52): beacons that are missed, a reeve presumed lost, and an election. -/

namespace Sys2Proof.Machine

variable {s t u : State} {p : Port}

/-! ### Events, and time that is no longer followed -/

theorem State.ownerEvent_fab (code : Nat) (payload : List Byte) (s : State) : (s.ownerEvent code payload).fab = s.fab :=
  (State.ownerEvent_only ..).fab.resolve_left Bool.false_ne_true

theorem State.changeRole_fab (new : Fin 3) (cause : Nat) (cycle : W32) (s : State) : (s.changeRole new cause cycle).fab = { s.fab with role := new } :=
  State.ownerEvent_fab ..

theorem State.timeEvent_fab (state : Nat) (offset : Int) (s : State) : (s.timeEvent state offset).fab = s.fab := State.ownerEvent_fab ..

theorem State.stopFollowing_fab (s : State) : s.stopFollowing.fab = { s.fab with following := false } := by
  unfold State.stopFollowing
  split
  · exact State.timeEvent_fab ..
  · next h =>
    rw [← Bool.eq_false_iff.mpr h]

theorem Only.homePort {T : Touch} (h : Only T s t) (hT : (T.power || T.bist) = false) (hf : t.fab.homeB = s.fab.homeB) : t.homePort = s.homePort := by
  simp only [Bool.or_eq_false_iff] at hT
  have hp := h.power.resolve_left (Bool.eq_false_iff.mp hT.1)
  have hb := h.bist.resolve_left (Bool.eq_false_iff.mp hT.2)
  have hpres : ∀ q, t.portPresent q = s.portPresent q := fun q => by
    cases q <;> unfold State.portPresent <;> rw [hp, hb]
  unfold State.homePort
  rw [hp, hf, hpres]

theorem Only.port {T : Touch} (h : Only T s t) (hT : (T.lineA || T.lineB) = false) (q : Port) : t.port q = s.port q := by
  simp only [Bool.or_eq_false_iff] at hT
  exact port_congr (h.lineA.resolve_left (Bool.eq_false_iff.mp hT.1)) (h.lineB.resolve_left (Bool.eq_false_iff.mp hT.2)) q

/-! ### An election (R513, R529 to R534) -/

/-- The elected reeve takes the fabric role too. -/
def State.electedFabric (s : State) : Bool := (s.port s.homePort).last.elim s.fabricWanted.root BeaconFields.fabricReeve

theorem State.becomeReeve_fab (cause : Nat) (cycle : W32) (s : State) :
    let f := (s.becomeReeve cause cycle).fab
    f.cycle = cycle ∧ f.candidate = false ∧ f.presumed = false ∧ f.homeB = s.fab.homeB ∧ f.role = (if s.electedFabric = true then 2 else 1) ∧
      ∀ x, (s.port s.homePort).last = some x → f.held = x.held ∧ f.present = x.present := by
  unfold State.becomeReeve State.electedFabric
  dsimp only
  rw [State.changeRole_fab]
  cases (s.port s.homePort).last with
  | none =>
    refine ⟨rfl, rfl, rfl, ?_, rfl, fun _ hx => absurd hx (Option.some_ne_none _).symm⟩
    dsimp only
    split
    · rfl
    · rw [State.stopFollowing_fab]
  | some b =>
    refine ⟨rfl, rfl, rfl, ?_, rfl, fun x hx => Option.some.inj hx ▸ ⟨rfl, rfl⟩⟩
    dsimp only
    split
    · rfl
    · rw [State.stopFollowing_fab]

theorem State.becomeReeve_homePort (cause : Nat) (cycle : W32) (s : State) : (s.becomeReeve cause cycle).homePort = s.homePort :=
  (State.becomeReeve_only ..).homePort rfl (State.becomeReeve_fab cause cycle s).2.2.2.1

theorem State.isCandidate_eligible (h : s.isCandidate = true) : s.eligible = true := (Bool.and_eq_true_iff.mp h).2

section
variable (hc : s.fab.candidate = true) (hi : s.isCandidate = true) (hr : s.fab.role = 0)
include hc hi hr

theorem execElectionDelayExpired_eq (collided : Bool) : exec (.electionDelayExpired collided) s =
    .next (if collided = true then (s.countPort s.homePort 8).drawn else (s.becomeReeve 1 s.electedCycle).emitBeacon true) := by
  show execElectionDelayExpired collided s = _
  unfold execElectionDelayExpired
  rw [if_neg (by rw [hc, State.isCandidate_eligible hi, hr]; exact Bool.false_ne_true)]

/-- A beacon that collides draws a new delay (R531). -/
theorem election_collides : ∃ t, exec (.electionDelayExpired true) s = .next t ∧ t.fab = s.fab ∧ t.freeCtr = s.freeCtr + 1 ∧
    ((t.port s.homePort).counters.toList[7]? = ((s.port s.homePort).counters.toList[7]?).map (fun c => min 65535 (c + 1))) := by
  have hcount := State.countPort_counter s s.homePort (i := 8) (by decide)
  have hfab := (State.countPort_fab (port := s.homePort) 8 s).1
  refine ⟨_, execElectionDelayExpired_eq hc hi hr true, hfab, ?_, hcount⟩
  exact congrArg (· + 1) ((State.countPort_only s.homePort 8 s).freeCtr.resolve_left Bool.false_ne_true)

/-- The candidate sends its first beacon as reeve (R513, R531, R532, R534). -/
theorem election_won : ∃ t f b, exec (.electionDelayExpired false) s = .next t ∧ (t.port s.homePort).lastTx = some f ∧ f.body = .beacon b ∧
    b.cycle = s.electedCycle ∧ t.fab.candidate = false ∧ t.fab.presumed = false ∧ t.fab.role = (if s.electedFabric = true then 2 else 1) ∧
    (∀ x, (s.port s.homePort).last = some x → b.held = x.held ∧ b.present = x.present) := by
  obtain ⟨hcycle, hcand, hpres, -, hrole, hmaps⟩ := State.becomeReeve_fab 1 s.electedCycle s
  have hhome := State.becomeReeve_homePort 1 s.electedCycle s
  have hexec := execElectionDelayExpired_eq hc hi hr false
  rw [if_neg Bool.false_ne_true] at hexec
  generalize s.becomeReeve 1 s.electedCycle = v at *
  obtain ⟨htx, -, -, c, d, hfab⟩ := State.emitBeacon_sent v true
  obtain ⟨bcycle, -, -, -, -, -, bheld, bpresent, -, -⟩ := State.beaconNow_fields { v with fab := v.beaconFab true } (v.beaconKeyId true)
  rw [hhome] at htx
  refine ⟨_, _, _, hexec, htx, rfl, bcycle.trans hcycle, ?_, ?_, ?_, fun x hx => ⟨bheld.trans (hmaps x hx).1, bpresent.trans (hmaps x hx).2⟩⟩
  all_goals rw [hfab]
  · exact hcand
  · exact hpres
  · exact hrole

end

/-! ### Missed beacons (R475, R509, R525, R530) -/

/-- The cycle goes on without its beacon. -/
def State.cycleMissed (p : Port) (s : State) : State :=
  (s.countPort p 9).modPort p (fun l =>
    { l with missed := l.missed + 1, cycle := l.cycle + 1, slotFrom := l.slotNext, slotsSent := 0,
             conflictRun := if l.conflictNow then l.conflictRun else 0, conflictNow := false })

theorem State.cycleMissed_port : ((s.cycleMissed p).port p).missed = (s.port p).missed + 1 ∧ ((s.cycleMissed p).port p).cycle = (s.port p).cycle + 1 ∧
    ((s.cycleMissed p).port p).slotsSent = 0 ∧ ((s.cycleMissed p).port p).counters = ((s.countPort p 9).port p).counters := by
  cases p <;> exact ⟨rfl, rfl, rfl, rfl⟩

theorem State.cycleMissed_rest : (s.cycleMissed p).fab = s.fab ∧ (s.cycleMissed p).clock = s.clock ∧ (s.cycleMissed p).followedPort = s.followedPort := by
  cases p <;> exact ⟨rfl, rfl, rfl⟩

theorem execBeaconMissed_eq (hl : s.portLive p = true) (hb : (s.port p).last.isSome = true) (hh : s.fab.handover = none) :
    exec (.beaconMissed p) s = .next ((s.cycleMissed p).loseTime p).repeatSwap := by
  have hresume : (s.cycleMissed p).resumeRole p = s.cycleMissed p := by
    unfold State.resumeRole
    rw [State.cycleMissed_rest.1, hh]
  show execBeaconMissed p s = _
  unfold execBeaconMissed
  rw [if_neg (by rw [hl, Option.isNone_eq_false_iff.mpr hb]; exact Bool.false_ne_true)]
  exact congrArg (fun v : State => Host.Outcome.next (v.loseTime p).repeatSwap) hresume

theorem State.takePhase_invalid (edge : Tb) (period : Nat) (s : State) : (s.takePhase false false edge period).lands.beaconPhase.valid = false := by
  unfold State.takePhase
  dsimp only
  rw [if_neg Bool.false_ne_true]
  split
  · have h := (State.syncLostEvents_only LockSrc.beacon
      ({ s with lands := { s.lands with beaconPhase := { s.lands.beaconPhase with valid := false } } } : State)).lands.resolve_left Bool.false_ne_true
    rw [h]
  · next h => exact Bool.eq_false_iff.mpr h

theorem State.loseTime_lost (hm : (s.port p).missed = 3) (hf : s.followedPort = some p) :
    (s.loseTime p).fab.following = false ∧ (s.loseTime p).lands.beaconPhase.valid = false := by
  unfold State.loseTime
  rw [if_pos ⟨hm, hf⟩]
  refine ⟨by rw [State.stopFollowing_fab], ?_⟩
  rw [(State.stopFollowing_only _).lands.resolve_left Bool.false_ne_true]
  exact State.takePhase_invalid ..

theorem State.loseTime_kept (hm : (s.port p).missed ≠ 3) : s.loseTime p = s := if_neg (fun h => hm h.1)

/-- The cycle goes on without its beacon; the third one missed ends the time that was followed (R209, R475, R525). -/
theorem beaconMissed_counts (hl : s.portLive p = true) (hb : (s.port p).last.isSome = true) (hh : s.fab.handover = none) :
    ∃ t, exec (.beaconMissed p) s = .next t ∧ (t.port p).missed = (s.port p).missed + 1 ∧ (t.port p).cycle = (s.port p).cycle + 1 ∧
      (t.port p).slotsSent = 0 ∧ (t.port p).counters.toList[8]? = ((s.port p).counters.toList[8]?).map (fun c => min 65535 (c + 1)) ∧
      ((s.port p).missed = 2 → s.followedPort = some p → t.fab.following = false ∧ t.lands.beaconPhase.valid = false) ∧
      (s.fab.following = true → (s.port p).missed < 2 → t.fab.following = true) ∧ t.clock.tb = s.clock.tb := by
  obtain ⟨hmissed, hcycle, hsent, hcounters⟩ := State.cycleMissed_port (s := s) (p := p)
  obtain ⟨hfab, hclock, hfollowed⟩ := State.cycleMissed_rest (s := s) (p := p)
  have hcount := State.countPort_counter s p (i := 9) (by decide)
  have hlose := State.loseTime_only p (s.cycleMissed p)
  have hq : Queued ((s.cycleMissed p).loseTime p) _ := .repeatSwap
  have honly := State.repeatSwap_only ((s.cycleMissed p).loseTime p)
  refine ⟨_, execBeaconMissed_eq hl hb hh, ?_⟩
  rw [hq.port p, hlose.port rfl p, hq.fab, honly.lands.resolve_left Bool.false_ne_true, honly.tb.resolve_left Bool.false_ne_true,
    hlose.tb.resolve_left Bool.false_ne_true, hclock]
  refine ⟨hmissed, hcycle, hsent, (congrArg (·.toList[8]?) hcounters).trans hcount, fun h2 hf => ?_, fun hf h2 => ?_, rfl⟩
  · exact State.loseTime_lost (by rw [hmissed, h2]) (hfollowed.trans hf)
  · rw [State.loseTime_kept (by omega)]
    exact (congrArg Fabric.following hfab).trans hf

/-- A worker presumes the reeve of its segment lost; a candidate starts its delay (R530, R531). -/
theorem reevePresumedLost_begins {b : BeaconFields} (hl : s.portLive s.homePort = true) (hr : s.fab.role = 0) (hp : s.fab.presumed = false)
    (hb : (s.port s.homePort).last = some b) (hm : 3 ≤ (s.port s.homePort).missed) :
    ∃ t, exec (.reevePresumedLost s.homePort) s = .next t ∧ t.fab = { s.fab with presumed := true, candidate := s.isCandidate } := by
  refine ⟨({ s with fab := { s.fab with presumed := true, candidate := s.isCandidate } } : State).ownerEvent 0x004A (leBytes 2 (portNo s.homePort) ++
    leBytes 2 (s.port s.homePort).lastSrc.toNat ++ leBytes 4 b.cycle.toNat), ?_, State.ownerEvent_fab ..⟩
  show execReevePresumedLost s.homePort s = _
  unfold execReevePresumedLost
  dsimp only
  rw [if_neg (by rw [hl, hr, hp, beq_self_eq_true]; exact Bool.false_ne_true), hb]
  dsimp only
  rw [if_neg (by omega), if_pos (beq_self_eq_true _)]

end Sys2Proof.Machine
end

section
/-! PROOFS. Beacons (O52): a worker hears the beacon of its segment. -/

namespace Sys2Proof.Machine

variable {s t u : State} {p : Port} {h : Heard} {b : BeaconFields}

/-! ### From the header to the reeve's beacon (R477, R478, R483, R494, R495) -/

/-- What a beacon of the node's own segment leaves of node and ports before it is kept: all but the home port, the unique IDs known, and
what each port counts. -/
structure BeaconMet (s t : State) : Prop where
  fab : t.fab = { s.fab with homeB := t.fab.homeB, known := t.fab.known }
  power : t.power = s.power
  bist : t.bist = s.bist
  life : t.life = s.life
  tb : t.clock.tb = s.clock.tb
  last : ∀ q, (t.port q).last = (s.port q).last ∧ (t.port q).lastSrc = (s.port q).lastSrc

theorem BeaconMet.trans (h : BeaconMet s t) (k : BeaconMet t u) : BeaconMet s u :=
  ⟨k.fab.trans (by rw [h.fab]), k.power.trans h.power, k.bist.trans h.bist, k.life.trans h.life, k.tb.trans h.tb,
   fun q => ⟨(k.last q).1.trans (h.last q).1, (k.last q).2.trans (h.last q).2⟩⟩

/-- The beacon is counted on its port. -/
def State.beaconCounted (p : Port) (b : BeaconFields) (s : State) : State :=
  (s.modPort p (fun l => l.countMode b.segment b.reeveId)).rxOk p

theorem State.beaconCounted_met : BeaconMet s (s.beaconCounted p b) := by
  unfold State.beaconCounted State.rxOk State.countPort
  cases p <;> exact ⟨rfl, rfl, rfl, rfl, rfl, fun q => by cases q <;> exact ⟨rfl, rfl⟩⟩

theorem State.findHome_met : BeaconMet s (s.findHome p b) := by
  have hset : ∀ v : Bool, BeaconMet s { s with fab := { s.fab with homeB := v } } := fun v =>
    ⟨rfl, rfl, rfl, rfl, rfl, fun q => by cases q <;> exact ⟨rfl, rfl⟩⟩
  have hsame : BeaconMet s s := ⟨rfl, rfl, rfl, rfl, rfl, fun q => ⟨rfl, rfl⟩⟩
  unfold State.findHome
  split
  · exact hsame
  · split
    · exact hset false
    · split
      · exact hsame
      · exact hset true

theorem State.noteUid_met (a : BitVec 12) (uid : BitVec 64) : BeaconMet s (s.noteUid a uid) := by
  obtain ⟨k, hk⟩ := State.noteUid_eq a uid s
  rw [hk]
  exact ⟨rfl, rfl, rfl, rfl, rfl, fun q => by cases q <;> exact ⟨rfl, rfl⟩⟩

theorem State.takeGrant_addressed (hu : s.unaddressed = false) : s.takeGrant b = s := by
  unfold State.takeGrant
  rw [hu]
  rfl

/-- The node's own segment is heard: no port is in mismatch any more (R495). -/
def State.matched (p : Port) (s : State) : State :=
  (s.modPort p (fun l => { l with mismatch := false })).modPort (otherPort p) (fun l => { l with mismatch := false })

theorem State.judgeMismatch_own (hu : s.unaddressed = false) (hb : b.segment = s.ownSegment) : s.judgeMismatch p b = s.matched p := by
  unfold State.judgeMismatch
  rw [if_neg (by rw [hu]; exact Bool.false_ne_true), if_pos hb]
  rfl

theorem State.matched_met : BeaconMet s (s.matched p) ∧ ((s.matched p).port p).mismatch = false := by
  cases p <;> exact ⟨⟨rfl, rfl, rfl, rfl, rfl, fun q => by cases q <;> exact ⟨rfl, rfl⟩⟩, rfl⟩

theorem State.keepPeriod_met : BeaconMet s (s.keepPeriod b) ∧ ∀ q, (s.keepPeriod b).port q = s.port q := by
  have ho := State.keepPeriod_only b s
  have hp := ho.port rfl
  refine ⟨⟨by rw [ho.fab.resolve_left Bool.false_ne_true], ho.power.resolve_left Bool.false_ne_true, ho.bist.resolve_left Bool.false_ne_true,
    ho.life.resolve_left Bool.false_ne_true, ho.tb.resolve_left Bool.false_ne_true, fun q => by rw [hp]; exact ⟨rfl, rfl⟩⟩, hp⟩

/-- A beacon of the node's own segment as its header has been taken. -/
def State.beaconMet (p : Port) (src : BitVec 12) (b : BeaconFields) (s : State) : State :=
  ((((s.beaconCounted p b).findHome p b).noteUid src b.reeveId).matched p).keepPeriod b

theorem BeaconMet.unaddressed (k : BeaconMet s t) : t.unaddressed = s.unaddressed := by
  unfold State.unaddressed
  rw [k.fab]

theorem BeaconMet.ownSegment (k : BeaconMet s t) : t.ownSegment = s.ownSegment := by
  unfold State.ownSegment
  rw [k.fab]

theorem State.beaconMet_met (src : BitVec 12) : BeaconMet s (s.beaconMet p src b) ∧ ((s.beaconMet p src b).port p).mismatch = false := by
  unfold State.beaconMet
  have h3 : BeaconMet s (((s.beaconCounted p b).findHome p b).noteUid src b.reeveId) :=
    (State.beaconCounted_met.trans State.findHome_met).trans (State.noteUid_met ..)
  generalize ((s.beaconCounted p b).findHome p b).noteUid src b.reeveId = v at *
  obtain ⟨h4, hm⟩ := State.matched_met (s := v) (p := p)
  obtain ⟨h5, hp⟩ := State.keepPeriod_met (s := v.matched p) (b := b)
  exact ⟨(h3.trans h4).trans h5, by rw [hp]; exact hm⟩

/-- On a bridge a beacon of its own segment makes port A the home port (R478). -/
theorem State.beaconMet_homeA (src : BitVec 12) (hu : s.unaddressed = false) (hb : b.segment = s.ownSegment) :
    (s.beaconMet .a src b).fab.homeB = false := by
  have hc := State.beaconCounted_met (s := s) (p := .a) (b := b)
  have hf : ((s.beaconCounted .a b).findHome .a b).fab.homeB = false := by
    unfold State.findHome
    rw [if_neg (by rw [hc.unaddressed, hc.ownSegment, hu, hb, bne_self_eq_false]; exact Bool.false_ne_true), if_pos rfl]
  unfold State.beaconMet
  generalize (s.beaconCounted .a b).findHome .a b = v at *
  obtain ⟨k, hk⟩ := State.noteUid_eq src b.reeveId v
  rw [hk]
  rw [(State.keepPeriod_only b _).fab.resolve_left Bool.false_ne_true]
  exact hf

theorem State.homePort_bridge (hm : s.power.portMode = .bridge) (hB : s.fab.homeB = false) : s.homePort = .a := by
  unfold State.homePort
  rw [hm, hB]
  rfl

theorem BeaconMet.homePort_tap (k : BeaconMet s t) (hm : s.power.portMode = .tap) : t.homePort = s.homePort := by
  have hp : t.portPresent .a = s.portPresent .a := by
    unfold State.portPresent
    rw [k.power, k.bist]
  unfold State.homePort
  rw [k.power, if_pos hm, if_pos hm, hp]

theorem State.beaconMet_homePort (src : BitVec 12) (hu : s.unaddressed = false) (hb : b.segment = s.ownSegment)
    (hm : (s.power.portMode = .tap ∧ p = s.homePort) ∨ (s.power.portMode = .bridge ∧ p = .a)) : (s.beaconMet p src b).homePort = p := by
  obtain ⟨hk, -⟩ := State.beaconMet_met (s := s) (p := p) (b := b) src
  rcases hm with ⟨htap, hp⟩ | ⟨hbr, rfl⟩
  · exact (hk.homePort_tap htap).trans hp.symm
  · exact State.homePort_bridge ((congrArg Power.portMode hk.power).trans hbr) (State.beaconMet_homeA src hu hb)

/-- A reeve's beacon on the home port of a node of its segment is a beacon of its own (R475, R494). -/
theorem State.takeBeacon_own (hid : b.reeveId ≠ s.life.uid) (hu : s.unaddressed = false) (hb : b.segment = s.ownSegment)
    (hm : (s.power.portMode = .tap ∧ h.port = s.homePort) ∨ (s.power.portMode = .bridge ∧ h.port = .a)) :
    s.takeBeacon h b = (s.beaconMet h.port h.src b).homeBeacon h.port h b := by
  have hhome := State.beaconMet_homePort h.src hu hb hm
  have hc := State.beaconCounted_met (s := s) (p := h.port) (b := b)
  have hdec : (s.beaconCounted h.port b).decidePortMode = s.beaconCounted h.port b := by
    unfold State.decidePortMode
    rw [hc.power]
    refine if_pos (Or.inl ?_)
    rcases hm with ⟨hm, -⟩ | ⟨hm, -⟩ <;> rw [hm] <;> decide
  have hn : BeaconMet s (((s.beaconCounted h.port b).findHome h.port b).noteUid h.src b.reeveId) :=
    (hc.trans State.findHome_met).trans (State.noteUid_met ..)
  have hmet : ((((s.beaconCounted h.port b).findHome h.port b).noteUid h.src b.reeveId).takeGrant b).judgeMismatch h.port b =
      (((s.beaconCounted h.port b).findHome h.port b).noteUid h.src b.reeveId).matched h.port := by
    rw [State.takeGrant_addressed (hn.unaddressed.trans hu), State.judgeMismatch_own (hn.unaddressed.trans hu) (hb.trans hn.ownSegment.symm)]
  have hkept := (State.beaconMet_met (s := s) (p := h.port) (b := b) h.src).1
  unfold State.takeBeacon
  dsimp only
  rw [show ((s.modPort h.port (fun l => l.countMode b.segment b.reeveId)).rxOk h.port).decidePortMode = s.beaconCounted h.port b from hdec, if_neg (by rw [hc.life]; exact hid), hmet]
  exact if_pos ⟨hhome.symm, Or.inr (hb.trans hkept.ownSegment.symm)⟩

end Sys2Proof.Machine
end

section
/-! PROOFS. Beacons (O52): what a worker keeps of its reeve's beacon, and the time it follows. -/

namespace Sys2Proof.Machine

variable {s t u : State} {p : Port} {h : Heard} {b : BeaconFields}

/-! ### The beacon kept (R474, R475, R480, R482, R515, R520) -/

/-- The beacon comes from the reeve heard before. -/
def State.sameReeve (s : State) (p : Port) (h : Heard) : Bool := (s.port p).last.isSome && (s.port p).lastSrc == h.src

/-- What the port itself keeps of a beacon. -/
def State.beaconHeld (p : Port) (h : Heard) (b : BeaconFields) (s : State) : State :=
  (s.newCycle p b.cycle (b.lend.toNat.testBit s.ownSlot) (b.lend.toNat.testBit s.ownSlot)).modPort p (fun l =>
    { l with last := some b, lastSrc := h.src, rxTb := s.clock.tb, missed := 0, heardBeacon := true,
             reeveBeacons := if s.sameReeve p h = true then min 3 (l.reeveBeacons + 1) else 1 })

/-- Another reeve's delay is not yet known. -/
def State.delayKept (p : Port) (same : Bool) (s : State) : State :=
  if (same || s.followedPort != some p) = true then s else { s with fab := { s.fab with delay := 0, ranged := false } }

/-- A node whose slot is lent asks for it back. -/
def State.slotReclaimed (p : Port) (b : BeaconFields) (own : Nat) (s : State) : State :=
  if (b.lend.toNat.testBit own && (b.segment == s.ownSegment || s.bridging) && !s.unaddressed) = true then s.queueJoin p true else s

theorem State.keepBeacon_eq : s.keepBeacon p h b = ((s.beaconHeld p h b).delayKept p (s.sameReeve p h)).slotReclaimed p b s.ownSlot := rfl

theorem State.beaconHeld_fields : let l := (s.beaconHeld p h b).port p
    l.last = some b ∧ l.lastSrc = h.src ∧ l.cycle = b.cycle ∧ l.missed = 0 ∧ l.slotNext = !b.lend.toNat.testBit s.ownSlot ∧ l.mismatch = (s.port p).mismatch := by
  unfold State.beaconHeld State.newCycle
  cases p <;> exact ⟨rfl, rfl, rfl, rfl, rfl, rfl⟩

theorem State.delayKept_fields (same : Bool) : (∃ d r, (s.delayKept p same).fab = { s.fab with delay := d, ranged := r } ∧ (same = true → d = s.fab.delay)) ∧
    ∀ q, (s.delayKept p same).port q = s.port q := by
  unfold State.delayKept
  split
  · exact ⟨⟨_, _, rfl, fun _ => rfl⟩, fun _ => rfl⟩
  · next hn => exact ⟨⟨_, _, rfl, fun hs => absurd (by rw [hs]; rfl) hn⟩, fun q => by cases q <;> rfl⟩

theorem Queued.slotReclaimed (own : Nat) : Queued s (s.slotReclaimed p b own) := .ite (.queueJoin true) (.refl s)

/-- A beacon kept on its port: of the fabric state only the delay to another reeve has changed. -/
theorem State.keepBeacon_fields : let l := (s.keepBeacon p h b).port p
    (l.last = some b ∧ l.lastSrc = h.src ∧ l.cycle = b.cycle ∧ l.missed = 0 ∧ l.slotNext = (!b.lend.toNat.testBit s.ownSlot) ∧ l.mismatch = (s.port p).mismatch) ∧
      ∃ d r n, (s.keepBeacon p h b).fab = { s.fab with delay := d, ranged := r, doneLeft := n } ∧ (s.sameReeve p h = true → d = s.fab.delay) := by
  have hheld := State.beaconHeld_fields (s := s) (p := p) (h := h) (b := b)
  have hfab : (s.beaconHeld p h b).fab = s.fab := by
    unfold State.beaconHeld State.newCycle
    cases p <;> rfl
  rw [State.keepBeacon_eq]
  generalize s.beaconHeld p h b = v at *
  obtain ⟨⟨d, r, hd, hsame⟩, hport⟩ := State.delayKept_fields (s := v) (p := p) (s.sameReeve p h)
  have hq : Queued (v.delayKept p (s.sameReeve p h)) _ := .slotReclaimed (p := p) (b := b) s.ownSlot
  dsimp only
  rw [hq.port p, hport, hq.fab, hd, hfab]
  exact ⟨hheld, d, r, _, rfl, fun h => by rw [hsame h, hfab]⟩

/-! ### Time (R515, R521 to R525) -/

theorem State.loadFabricTime_fab (theta : Int) : ∃ th, (s.loadFabricTime b theta).fab = { s.fab with synced := true, following := true, thetas := th } := by
  unfold State.loadFabricTime
  dsimp only
  split
  · exact ⟨_, rfl⟩
  · rw [State.timeEvent_fab]
    exact ⟨_, rfl⟩

theorem State.loadFabricTime_tb (theta : Int) : (s.loadFabricTime b theta).clock.tb = Tb.ofTicks (reeveTime b s.fab.delay) := by
  unfold State.loadFabricTime
  dsimp only
  split
  · rfl
  · exact (State.timeEvent_only ..).tb.resolve_left Bool.false_ne_true

theorem State.slewToFabric_fab (theta : Int) : ∃ th, (s.slewToFabric theta).fab = { s.fab with synced := true, following := true, thetas := th } := by
  unfold State.slewToFabric
  dsimp only
  split
  · exact ⟨_, rfl⟩
  · rw [State.timeEvent_fab]
    exact ⟨_, rfl⟩

/-- The time the node follows is its own matter: no beacon's other field is touched. -/
theorem State.followTime_fab : ∃ far sy fo th, (s.followTime b).fab = { s.fab with timeFar := far, synced := sy, following := fo, thetas := th } := by
  unfold State.followTime
  dsimp only
  split
  · exact ⟨_, _, _, _, rfl⟩
  · split
    · obtain ⟨th, hth⟩ := State.loadFabricTime_fab (s := s) (b := b) ((reeveTime b s.fab.delay : Int) - s.clock.tb.ticks)
      rw [hth]
      exact ⟨_, _, _, _, rfl⟩
    · split
      · rw [State.timeEvent_fab]
        exact ⟨_, _, _, _, rfl⟩
      · obtain ⟨th, hth⟩ := State.slewToFabric_fab (s := s) ((reeveTime b s.fab.delay : Int) - s.clock.tb.ticks)
        rw [hth]
        exact ⟨_, _, _, _, rfl⟩

/-- The first followed beacon before commands are accepted loads the time base (R523). -/
theorem State.followTime_loads (hf : s.fab.timeFar = false) (hs : s.fab.synced = false) (ha : s.power.accepting = false) :
    (s.followTime b).clock.tb = Tb.ofTicks (reeveTime b s.fab.delay) ∧ (s.followTime b).fab.synced = true ∧ (s.followTime b).fab.following = true := by
  have he : s.followTime b = s.loadFabricTime b ((reeveTime b s.fab.delay : Int) - s.clock.tb.ticks) := by
    unfold State.followTime
    dsimp only
    rw [if_neg (by rw [hf]; exact Bool.false_ne_true), if_pos ⟨hs, ha⟩]
  obtain ⟨th, hth⟩ := State.loadFabricTime_fab (s := s) (b := b) ((reeveTime b s.fab.delay : Int) - s.clock.tb.ticks)
  rw [he, hth]
  exact ⟨State.loadFabricTime_tb _, rfl, rfl⟩

/-- After that a beacon only slews it (R522). -/
theorem State.followTime_slews (hs : s.fab.synced = true ∨ s.power.accepting = true) : (s.followTime b).clock.tb = s.clock.tb := by
  unfold State.followTime
  dsimp only
  split
  · rfl
  · split
    · next hl =>
      obtain ⟨hsync, hacc⟩ := hl
      rcases hs with hs | hs
      · exact absurd (hs.symm.trans hsync) (by decide)
      · exact absurd (hs.symm.trans hacc) (by decide)
    · split
      · exact (State.timeEvent_only ..).tb.resolve_left Bool.false_ne_true
      · exact (State.slewToFabric_only ..).tb.resolve_left Bool.false_ne_true

/-! ### A worker's beacon -/

/-- What the node keeps of a beacon it follows beside its time (R531). -/
def State.workerKept (b : BeaconFields) (s : State) : State := { s with fab := { s.fab with candidate := false, presumed := false, hops := b.hops } }

theorem State.homeBeacon_worker (hr : s.fab.role = 0) : s.homeBeacon p h b =
    ((((((s.keepBeacon p h b).keepRoot b).workerKept b).followBeacon b.timeValid ((s.port p).last.any (fun o => movedSource o b)) b).takeHandover h b)).repeatSwap := by
  have hm : s.meetBeacon h b = (true, s) := by
    unfold State.meetBeacon
    exact if_pos hr
  unfold State.homeBeacon
  rw [hm]
  rfl

/-- The time the node follows, or follows no more. -/
def State.timeTaken (may : Bool) (b : BeaconFields) (s : State) : State := if may = true then s.followTime b else s.stopFollowing

theorem State.timeTaken_only (may : Bool) : Only { freeCtr := true, clock := true, pols := true, arr := true, fab := true, tb := true } s (s.timeTaken may b) := by
  unfold State.timeTaken
  split
  · exact State.followTime_only ..
  · exact (State.stopFollowing_only s).mono rfl

theorem State.timeTaken_fab (may : Bool) : ∃ far sy fo th,
    (s.timeTaken may b).fab = { s.fab with timeFar := far, synced := sy, following := fo, thetas := th } := by
  unfold State.timeTaken
  split
  · exact State.followTime_fab
  · rw [State.stopFollowing_fab]
    exact ⟨_, _, _, _, rfl⟩

theorem State.takeHandover_fab : ∃ x, s.takeHandover h b = { s with fab := { s.fab with handover := x } } := by
  unfold State.takeHandover
  split
  · exact ⟨_, rfl⟩
  · exact ⟨_, rfl⟩

/-- A worker's beacon: what port and fabric state keep of it, and when the time base is loaded (R475, R482, R495, R521 to R525, R531). -/
theorem State.homeBeacon_kept (hr : s.fab.role = 0) (hm : (s.port p).mismatch = false) :
    let t := s.homeBeacon p h b
    ((t.port p).last = some b ∧ (t.port p).lastSrc = h.src ∧ (t.port p).cycle = b.cycle ∧ (t.port p).missed = 0 ∧
      (t.port p).slotNext = (!b.lend.toNat.testBit s.ownSlot) ∧ (t.port p).mismatch = false) ∧
    (t.fab.candidate = false ∧ t.fab.presumed = false ∧ t.fab.role = 0 ∧ t.fab.hops = b.hops) ∧
    (b.timeValid = false → t.fab.following = false ∧ t.clock.tb = s.clock.tb) ∧
    (b.timeValid = true → s.fab.timeFar = false → s.fab.synced = false → s.power.accepting = false → s.sameReeve p h = true →
      t.clock.tb = Tb.ofTicks (reeveTime b s.fab.delay) ∧ t.fab.synced = true ∧ t.fab.following = true) ∧
    (b.timeValid = true → (s.fab.synced = true ∨ s.power.accepting = true) → t.clock.tb = s.clock.tb) := by
  obtain ⟨⟨klast, ksrc, kcycle, kmissed, kslot, kmis⟩, d, r, n, kfab, ksame⟩ := State.keepBeacon_fields (s := s) (p := p) (h := h) (b := b)
  have konly := State.keepBeacon_only p h b s
  have ronly := State.keepRoot_only b (s.keepBeacon p h b)
  rw [State.homeBeacon_worker hr]
  generalize (s.port p).last.any (fun o => movedSource o b) = newSource
  -- the state in which the beacon's time is judged
  have wfab : (((s.keepBeacon p h b).keepRoot b).workerKept b).fab =
      { s.fab with delay := d, ranged := r, doneLeft := n, candidate := false, presumed := false, hops := b.hops } := by
    unfold State.workerKept
    rw [ronly.fab.resolve_left Bool.false_ne_true, kfab]
  have wport : (((s.keepBeacon p h b).keepRoot b).workerKept b).port p = (s.keepBeacon p h b).port p := by
    refine Eq.trans ?_ (ronly.port rfl p)
    cases p <;> rfl
  have wtb : (((s.keepBeacon p h b).keepRoot b).workerKept b).clock.tb = s.clock.tb :=
    (ronly.tb.resolve_left Bool.false_ne_true).trans (konly.tb.resolve_left Bool.false_ne_true)
  have wpower : (((s.keepBeacon p h b).keepRoot b).workerKept b).power = s.power :=
    (ronly.power.resolve_left Bool.false_ne_true).trans (konly.power.resolve_left Bool.false_ne_true)
  generalize ((s.keepBeacon p h b).keepRoot b).workerKept b = w at *
  -- what follows it leaves port and time
  obtain ⟨far, sy, fo, th, xfab⟩ := State.timeTaken_fab (s := w) (b := b) b.timeValid
  have xonly := State.timeTaken_only (s := w) (b := b) b.timeValid
  have hfollow : w.followBeacon b.timeValid newSource b =
      (w.timeTaken b.timeValid b).takePhase (b.phaseValid && b.timeValid) newSource (Tb.ofWord b.phaseEdge.toNat) b.phasePeriod.toNat := rfl
  have yonly := State.takePhase_only (b.phaseValid && b.timeValid) newSource (Tb.ofWord b.phaseEdge.toNat) b.phasePeriod.toNat (w.timeTaken b.timeValid b)
  rw [hfollow]
  generalize (w.timeTaken b.timeValid b).takePhase (b.phaseValid && b.timeValid) newSource (Tb.ofWord b.phaseEdge.toNat) b.phasePeriod.toNat = y at *
  obtain ⟨x, hx⟩ := State.takeHandover_fab (s := y) (h := h) (b := b)
  rw [hx]
  generalize hz : ({ y with fab := { y.fab with handover := x } } : State) = z
  have zport : z.port p = (s.keepBeacon p h b).port p := by
    rw [← hz]
    refine Eq.trans ?_ ((yonly.port rfl p).trans ((xonly.port rfl p).trans wport))
    cases p <;> rfl
  have zfab : z.fab = { (w.timeTaken b.timeValid b).fab with handover := x } := by
    rw [← hz, ← yonly.fab.resolve_left Bool.false_ne_true]
  have ztb : z.clock.tb = (w.timeTaken b.timeValid b).clock.tb := by
    rw [← hz]
    exact yonly.tb.resolve_left Bool.false_ne_true
  have hq : Queued z _ := .repeatSwap
  have qonly := State.repeatSwap_only z
  dsimp only
  rw [hq.port p, zport, hq.fab, qonly.tb.resolve_left Bool.false_ne_true, ztb, zfab]
  refine ⟨⟨klast, ksrc, kcycle, kmissed, kslot, kmis.trans hm⟩, ?_, fun hv => ?_, fun hv hf hs ha hsame => ?_, fun hv hs => ?_⟩
  · rw [xfab, wfab]
    exact ⟨rfl, rfl, hr, rfl⟩
  · unfold State.timeTaken
    rw [hv, if_neg Bool.false_ne_true]
    exact ⟨by rw [State.stopFollowing_fab], ((State.stopFollowing_only w).tb.resolve_left Bool.false_ne_true).trans wtb⟩
  · unfold State.timeTaken
    rw [if_pos hv]
    have hl := State.followTime_loads (s := w) (b := b) (by rw [wfab]; exact hf) (by rw [wfab]; exact hs) (by rw [wpower]; exact ha)
    rw [wfab, ksame hsame] at hl
    exact hl
  · unfold State.timeTaken
    rw [if_pos hv, State.followTime_slews (by rw [wfab, wpower]; exact hs)]
    exact wtb

/-- A worker hears the beacon of its segment. -/
theorem beacon_heard {f : LineRx} (hl : s.portLive f.port = true) (hf : f.heard = some h) (hk : h.kind = 2) (hkey : s.fab.keyId = 0 ∨ s.macOk h = true)
    (hdst : h.dst = segmentAll (BeaconFields.decode h.payload).segment) :
    exec (.beacon f) s = .next (s.takeBeacon h (BeaconFields.decode h.payload)) := by
  show execBeacon f s = _
  unfold execBeacon
  rw [if_neg (by rw [hl]; exact Bool.false_ne_true), hf]
  dsimp only
  rw [if_neg (not_or_intro (not_not_intro hk) (not_not_intro hdst)), State.keyed_ok (HeaderKept.refl s) hkey]

theorem beacon_forged {f : LineRx} (hl : s.portLive f.port = true) (hf : f.heard = some h) (hk : h.kind = 2)
    (hdst : h.dst = segmentAll (BeaconFields.decode h.payload).segment) (hkey : s.fab.keyId ≠ 0) (hm : s.macOk h = false) :
    exec (.beacon f) s = .next (s.countPort h.port 13) := by
  show execBeacon f s = _
  unfold execBeacon
  rw [if_neg (by rw [hl]; exact Bool.false_ne_true), hf]
  dsimp only
  rw [if_neg (not_or_intro (not_not_intro hk) (not_not_intro hdst)), State.keyed_bad (HeaderKept.refl s) hkey hm]

theorem beacon_malformed {f : LineRx} (hl : s.portLive f.port = true) (hf : f.heard = none) : exec (.beacon f) s = .next (s.countPort f.port 2) := by
  show execBeacon f s = _
  unfold execBeacon
  rw [if_neg (by rw [hl]; exact Bool.false_ne_true), hf]

theorem beacon_elsewhere {f : LineRx} (hf : f.heard = some h) (hdst : h.dst ≠ segmentAll (BeaconFields.decode h.payload).segment) :
    exec (.beacon f) s = .next s := by
  show execBeacon f s = _
  unfold execBeacon
  rw [hf]
  dsimp only
  rw [if_pos (Or.inr hdst), ite_self]

/-- Settles O52: the beacon sent, heard and missed, the reeve presumed lost, and the election. -/
theorem beaconEvents : Obligations.BeaconEvents := by
  unfold Obligations.BeaconEvents
  refine ⟨fun s => beaconTx_tells, fun s f => beacon_malformed, fun s f h => beacon_forged, fun s f h => beacon_elsewhere, ?_,
    fun s p => beaconMissed_counts, fun s b => reevePresumedLost_begins, fun s hc hi hr => ⟨election_collides hc hi hr, election_won hc hi hr⟩⟩
  intro s f h hl hf hk hkey b hdst hid hu hb hr hm
  obtain ⟨met, hmis⟩ := State.beaconMet_met (s := s) (p := h.port) (b := b) h.src
  have hrole : (s.beaconMet h.port h.src b).fab.role = 0 := by rw [met.fab]; exact hr
  obtain ⟨⟨klast, ksrc, kcycle, kmissed, kslot, kmis⟩, ⟨kcand, kpres, krole, khops⟩, hno, hload, hslew⟩ :=
    State.homeBeacon_kept (s := s.beaconMet h.port h.src b) (p := h.port) (h := h) (b := b) hrole hmis
  have hown : (s.beaconMet h.port h.src b).ownSlot = s.ownSlot := by
    unfold State.ownSlot
    rw [met.fab]
  rw [hown] at kslot
  rw [met.tb] at hno hslew
  rw [met.fab, met.power] at hload hslew
  refine ⟨_, (beacon_heard hl hf hk hkey hdst).trans (congrArg _ (State.takeBeacon_own hid hu hb hm)), klast, ksrc, kcycle, kmissed, kslot, kmis,
    kcand, kpres, krole, khops, hno, fun hv hfar hs ha hlast hsrc => hload hv hfar hs ha ?_, hslew⟩
  unfold State.sameReeve
  rw [(met.last h.port).1, (met.last h.port).2, hlast, hsrc, beq_self_eq_true]
  rfl

end Sys2Proof.Machine
end

section
/-! PROOFS. Ranging and the exchange of roles (O53). -/

namespace Sys2Proof.Machine

variable {s t u : State} {p : Port} {h : Heard} {f : LineRx}

/-! ### A fabric service frame for this node (R508, R517, R519) -/

/-- A service frame that has been taken: its header, and one more frame received. -/
def State.serviceTaken (s : State) (h : Heard) : State := (s.headerTaken h).countPort h.port 1

theorem HeaderKept.serviceTaken : HeaderKept s (s.serviceTaken h) := (HeaderKept.headerTaken h s).trans (.countPort 1)

/-- A frame in contention acknowledges nothing and holds no data slot: no polder and no clock knows of it. -/
theorem State.serviceTaken_rest (hn : s.frameForNode h = true) : (s.serviceTaken h).pols = s.pols ∧ (s.serviceTaken h).clock = s.clock := by
  have hslot : h.slot = none := by
    unfold State.frameForNode at hn
    simp only [Bool.and_eq_true] at hn
    exact Option.isNone_iff_eq_none.mp hn.1.1
  have hclash : s.clashes h = false := by
    unfold State.clashes
    rw [hslot]
  have hhear : s.headerTaken h = s.mapsHeard h := by
    unfold State.headerTaken
    rw [State.readAcks_none hslot, State.hear_eq, if_neg (by rw [hclash]; exact Bool.false_ne_true)]
  unfold State.serviceTaken
  rw [hhear]
  cases h.port <;> exact ⟨rfl, rfl⟩

theorem Heard.filter_eq {k : Byte} (hb : h.payload.getD 0 0 = k) : h.filter = k := hb

section
variable {k : Byte} (hp : s.portTakes f.port = true) (hr : s.noResetWaits = true) (hf : f.heard = some h) (hk : h.kind = 5) (hb : h.payload.getD 0 0 = k)
include hp hr hf hk hb

/-- A service frame with another CMAC is only counted (R508). -/
theorem State.service_forged {act : Heard → State → State} (hkey : s.fab.keyId ≠ 0) (hm : s.macOk h = false) :
    s.service f k.toNat act = (s.headerTaken h).countPort h.port 13 :=
  State.heardOn_macFail hp hr hf (by rw [hk, Heard.filter_eq hb, beq_self_eq_true, beq_self_eq_true]; rfl) hkey hm

/-- A verified service frame that came in contention for this node has its effect. -/
theorem State.service_takes {act : Heard → State → State} (hm : s.macOk h = true) (hn : s.frameForNode h = true)
    (hact : (s.serviceTaken h).waitsCarry .sysReset = false → (act h (s.serviceTaken h)).waitsCarry .sysReset = false) :
    s.service f k.toNat act = act h (s.serviceTaken h) := by
  have hmac : (s.serviceTaken h).macOk h = true := (HeaderKept.serviceTaken.macOk h).trans hm
  have htake := State.receiveHop_contention (pol := none) (body := .discover h.filter (BitVec.ofNat 56 (field h.payload 1 7)))
    (HeaderKept.headerTaken h s) hn
  unfold State.service
  rw [State.heardOn_keyed hp hr hf (by rw [hk, Heard.filter_eq hb, beq_self_eq_true, beq_self_eq_true]; rfl) (Or.inr hm)]
  · rw [htake]
    exact if_pos hmac
  · intro hw
    rw [htake]
    refine Eq.trans (congrArg (fun v : State => v.waitsCarry .sysReset) (if_pos hmac)) (hact ?_)
    unfold State.serviceTaken
    rw [State.countPort_waits]
    exact hw

/-- A swap frame names its role (R517). -/
theorem State.swapService_takes {act : Heard → SwapRole → BitVec 48 → State → State} {role : SwapRole} (hm : s.macOk h = true) (hn : s.frameForNode h = true)
    (hrole : h.payload.getD 1 0 = (if role = .segment then 1 else 2))
    (hact : (s.serviceTaken h).waitsCarry .sysReset = false → (act h role h.value (s.serviceTaken h)).waitsCarry .sysReset = false) :
    s.swapService f k.toNat act = act h role h.value (s.serviceTaken h) := by
  have hname : h.role = some role := by
    unfold Heard.role byteAt
    rw [hrole]
    cases role <;> rfl
  have he : ∀ v : State, (match h.role with
      | some role => act h role h.value v
      | none => v) = act h role h.value v := fun v => by rw [hname]
  unfold State.swapService
  rw [State.service_takes hp hr hf hk hb hm hn]
  · exact he _
  · intro hw
    exact (congrArg (fun v : State => v.waitsCarry .sysReset) (he _)).trans (hact hw)

end

/-! ### Ranging (R520) -/

theorem HeaderKept.role (k : HeaderKept s t) : t.fab.role = s.fab.role := by rw [k.fab]

theorem HeaderKept.followedPort (k : HeaderKept s t) : t.followedPort = s.followedPort := by
  unfold State.followedPort State.bridging State.farPort
  rw [k.role, k.homePort, k.power]

theorem HeaderKept.lastSrc (k : HeaderKept s t) (q : Port) : (t.port q).lastSrc = (s.port q).lastSrc := by
  rw [k.port q]

theorem leNat_lt (l : List Byte) : leNat l < 256 ^ l.length := by
  induction l with
  | nil => exact Nat.one_pos
  | cons b l ih =>
    have hb := b.isLt
    show b.toNat + 256 * leNat l < 256 ^ (l.length + 1)
    rw [Nat.pow_succ]
    omega

theorem field_lt (l : List Byte) (off n : Nat) : field l off n < 256 ^ n :=
  (leNat_lt _).trans_le (Nat.pow_le_pow_right (by decide) (List.length_take_le ..))

theorem Heard.value_toNat : h.value.toNat = field h.payload 2 6 := by
  unfold Heard.value
  rw [BitVec.toNat_ofNat]
  exact Nat.mod_eq_of_lt (field_lt h.payload 2 6)

section
variable (hp : s.portTakes f.port = true) (hr : s.noResetWaits = true) (hf : f.heard = some h) (hk : h.kind = 5) (hm : s.macOk h = true)
  (hn : s.frameForNode h = true)
include hp hr hf hk hm hn

/-- A segment reeve echoes the round trip it measured. -/
theorem rangeReq_echoes {trip : Nat} (hb : h.payload.getD 0 0 = 2) : exec (.rangeReq f trip) s = .next (
    if s.fab.role ≠ 0 ∧ h.port = s.homePort then (s.serviceTaken h).contendService h.port h.src 3 0 (BitVec.ofNat 48 trip) else s.serviceTaken h) := by
  refine congrArg Host.Outcome.next ((State.service_takes hp hr hf hk hb hm hn fun hw => ?_).trans ?_)
  · split
    · exact (State.contendService_only ..).resets.resolve_left Bool.false_ne_true hw
    · exact hw
  · rw [HeaderKept.serviceTaken.role, HeaderKept.serviceTaken.homePort]
    exact if_congr (by rw [Bool.and_eq_true, bne_iff_ne, beq_iff_eq]) rfl rfl

/-- The echo of the reeve followed gives the delay to it. -/
theorem rangeEcho_ranges (hb : h.payload.getD 0 0 = 3) : exec (.rangeEcho f) s = .next (
    if s.followedPort = some h.port ∧ (s.port h.port).lastSrc = h.src then
      { s.serviceTaken h with fab := { (s.serviceTaken h).fab with delay := field h.payload 2 6 / 2, ranged := true } } else s.serviceTaken h) := by
  refine congrArg Host.Outcome.next ((State.service_takes hp hr hf hk hb hm hn fun hw => ?_).trans ?_)
  · dsimp only
    split
    · exact hw
    · exact hw
  · dsimp only
    rw [HeaderKept.serviceTaken.followedPort, HeaderKept.serviceTaken.lastSrc, Heard.value_toNat]

end

/-- A node ranges against the reeve it follows once it has heard three of its beacons (R520). -/
theorem rangeReqTimer_asks (hp : s.followedPort = some p) (hl : s.portLive p = true) (hu : s.unaddressed = false) (hb : 3 ≤ (s.port p).reeveBeacons)
    (hn : s.noService 2 = true) : exec .rangeReqTimer s = .next (s.contendService p (s.port p).lastSrc 2 0 0) := by
  show execRangeReqTimer s = _
  unfold execRangeReqTimer
  rw [hp]
  exact congrArg Host.Outcome.next (if_pos (by rw [hl, hu, hn, decide_eq_true hb]; rfl))

/-! ### Requests for a role (R535 to R537) -/

theorem HeaderKept.swaps (k : HeaderKept s t) : t.fab.swap = s.fab.swap ∧ t.fab.doneSent = s.fab.doneSent ∧ t.fab.handover = s.fab.handover ∧
    t.fab.rank = s.fab.rank ∧ t.fab.provisional = s.fab.provisional := by
  rw [k.fab]
  exact ⟨rfl, rfl, rfl, rfl, rfl⟩

theorem HeaderKept.holdsRole (k : HeaderKept s t) (role : SwapRole) : t.holdsRole role = s.holdsRole role := by
  unfold State.holdsRole
  rw [k.role]

theorem State.wouldAccept_iff (role : SwapRole) : s.wouldAccept role = true ↔
    s.fab.rank ≠ 0 ∧ s.fab.provisional = false ∧ (role = .fabric → s.fab.role = 1) := by
  unfold State.wouldAccept
  cases role <;> simp [and_assoc]

/-- A request that this node serves: none of its own is open, and it has ended none (R535). -/
theorem swapReq_serves {role : SwapRole} (hp : s.portTakes f.port = true) (hr : s.noResetWaits = true) (hf : f.heard = some h) (hk : h.kind = 5)
    (hm : s.macOk h = true) (hn : s.frameForNode h = true) (hb : h.payload.getD 0 0 = 4) (hrole : h.payload.getD 1 0 = (if role = .segment then 1 else 2))
    (hs : s.fab.swap = none) (hd : s.fab.doneSent = none) : exec (.swapReq f) s = .next ((s.serviceTaken h).serveSwap role h.src h.value) := by
  obtain ⟨kswap, kdone, -⟩ := HeaderKept.swaps (s := s) (HeaderKept.serviceTaken (h := h))
  have hdone : (s.serviceTaken h).doneMatches role h.src h.value = none := by
    unfold State.doneMatches
    rw [kdone, hd]
  refine congrArg Host.Outcome.next ((State.swapService_takes hp hr hf hk hb hm hn hrole fun hw => ?_).trans ?_)
  · rw [hdone, kswap, hs]
    exact (State.serveSwap_only ..).resets.resolve_left Bool.false_ne_true hw
  · rw [hdone, kswap, hs]

/-- A node without the role answers whether it would accept it (R535, R536). -/
theorem State.answerSwap_eq {role : SwapRole} {peer : BitVec 12} {stamp : BitVec 48} (k : HeaderKept s t) (hc : t.clock = s.clock) :
    t.answerSwap role peer stamp = if s.fab.rank ≠ 0 ∧ s.fab.provisional = false ∧ (role = .fabric → s.fab.role = 1) then
      ({ t with fab := { t.fab with handover := some { role := role, peer := peer, stamp := stamp, holder := false, phase := 0, at_ := s.clock.tb } } }
        : State).sendService peer 5 (swapCode role) stamp
    else t.sendService peer 6 (swapCode role) stamp := by
  obtain ⟨-, -, -, krank, kprov⟩ := HeaderKept.swaps k
  unfold State.answerSwap
  dsimp only
  rw [hc]
  exact if_congr (by rw [State.wouldAccept_iff, krank, kprov, k.role]) rfl rfl

theorem State.finishSwap_fab {role : SwapRole} {peer : BitVec 12} {stood : BitVec 48} {change : Tb} :
    ∃ w, (s.finishSwap role peer stood change).fab = { s.fab with swap := w } := by
  unfold State.finishSwap
  split
  · split
    · exact ⟨_, rfl⟩
    · exact ⟨_, rfl⟩
  · exact ⟨_, rfl⟩

theorem State.sendDone_fab {role : SwapRole} {peer : BitVec 12} {stamp : BitVec 48} :
    ∃ n, (s.sendDone role peer stamp).fab = { s.fab with doneSent := some (role, peer, stamp), doneLeft := n } := by
  have hq : Queued ({ s with fab := { s.fab with doneSent := some (role, peer, stamp), doneLeft := 2 } } : State) (s.sendDone role peer stamp) :=
    .sendService ..
  exact ⟨_, hq.fab⟩

/-- A handover begins on its holder's side. -/
def State.handoverBegun (role : SwapRole) (peer : BitVec 12) (stamp : BitVec 48) (s : State) : State :=
  { s with fab := { s.fab with handover := some { role := role, peer := peer, stamp := stamp, holder := true, phase := 0, at_ := s.clock.tb } } }

/-- The holder begins a handover: what its fabric state keeps of it (R538, R539). -/
theorem State.startHandover_fab {role : SwapRole} {peer : BitVec 12} {stamp : BitVec 48} :
    let g := (s.startHandover role peer stamp).fab
    g.handover = some { role := role, peer := peer, stamp := stamp, holder := true, phase := 0, at_ := s.clock.tb } ∧
      (role = .fabric → g.doneSent = some (role, peer, stamp)) ∧ g.role = s.fab.role := by
  cases role with
  | segment => exact ⟨rfl, fun hr => absurd hr (by decide), rfl⟩
  | fabric =>
    obtain ⟨n, hn⟩ := State.sendDone_fab (s := s.handoverBegun .fabric peer stamp) (role := .fabric) (peer := peer) (stamp := stamp)
    obtain ⟨w, hw⟩ := State.finishSwap_fab (s := (s.handoverBegun .fabric peer stamp).sendDone .fabric peer stamp) (role := .fabric) (peer := peer)
      (stood := stamp) (change := (s.handoverBegun .fabric peer stamp).clock.tb)
    have hs : (s.startHandover .fabric peer stamp).fab = _ := hw
    dsimp only
    rw [hs, hn]
    exact ⟨rfl, fun _ => rfl, rfl⟩

/-- A request reaches the holder: the handover begins (R535). -/
theorem State.serveSwap_holder {role : SwapRole} {peer : BitVec 12} {stamp : BitVec 48} (hr : s.holdsRole role = true) (hh : s.fab.handover = none) :
    s.serveSwap role peer stamp = s.startHandover role peer stamp := by
  unfold State.serveSwap
  rw [if_pos hr, if_neg (by unfold State.handingOver; rw [hh]; exact Bool.false_ne_true)]

theorem State.serveSwap_other {role : SwapRole} {peer : BitVec 12} {stamp : BitVec 48} (hr : s.holdsRole role = false) :
    s.serveSwap role peer stamp = s.answerSwap role peer stamp := if_neg (by rw [hr]; exact Bool.false_ne_true)

/-! ### The outcome of the node's own request (R445, R446, R535) -/

/-- The request ends, and the command that waits for it is answered. -/
def State.swapEnded (a : Answer) (s : State) : State := ({ s with fab := { s.fab with swap := none } } : State).readyHeld owner .swapOutcome a

theorem State.swapEnded_answers {a : Answer} {v : Serving} (hv : (s.pol owner).serving = some v) (hr : v.rule = .swapOutcome) :
    (s.swapEnded a).fab.swap = none ∧ ((s.swapEnded a).pol owner).serving = some { v with answer := some a, ready := true } :=
  ⟨rfl, State.readyHeld_serving hv hr⟩

theorem State.swapNamed_own {w : SwapPending} {role : SwapRole} {stamp : BitVec 48} (hw : s.fab.swap = some w) (hr : w.role = role) (hp : w.peer = h.src)
    (hs : stamp = stamp48 w.stamp) : s.swapNamed h role stamp = some w := by
  unfold State.swapNamed
  rw [hw, Option.filter_some, decide_eq_true hr, hp, hs, beq_self_eq_true, beq_self_eq_true]
  rfl

theorem State.finishSwap_own {w : SwapPending} {role : SwapRole} {peer : BitVec 12} {stood : BitVec 48} {change : Tb} (hw : s.fab.swap = some w)
    (hr : w.role = role) (hp : w.peer = peer) : s.finishSwap role peer stood change = s.swapEnded
      { status := if (stamp48 w.stamp == stood) = true then .ok else .swapCrossed, effectFrame := none,
        results := w.stamp.bytes ++ (if (stamp48 w.stamp == stood) = true then change else rebuildStamp s.clock.tb stood).bytes } := by
  unfold State.finishSwap
  rw [hw]
  exact if_neg (by rw [hr, hp]; exact fun hn => hn.elim (absurd rfl) (absurd rfl))

theorem State.changeTime_idle (hh : s.fab.handover = none) : s.changeTime = s.clock.tb := by
  unfold State.changeTime
  rw [hh]

theorem State.serviceTaken_named {w : SwapPending} (hs : s.fab.swap = some w) (hpeer : w.peer = h.src) (hst : h.value = stamp48 w.stamp) :
    (s.serviceTaken h).swapNamed h w.role h.value = some w :=
  State.swapNamed_own ((HeaderKept.swaps HeaderKept.serviceTaken).1.trans hs) rfl hpeer hst

theorem State.serviceTaken_free (hh : s.fab.handover = none) : (s.serviceTaken h).handingOver = false := by
  unfold State.handingOver
  rw [(HeaderKept.swaps (HeaderKept.serviceTaken (s := s) (h := h))).2.2.1, hh]
  rfl

/-- The receiver of the fabric role takes it with its next beacon (R539). -/
def State.roleComes (role : SwapRole) (peer : BitVec 12) (stamp : BitVec 48) (s : State) : State :=
  match role with
  | .fabric =>
    if s.fab.role = 1 then
      { s with fab := { s.fab with handover := some { role := .fabric, peer := peer, stamp := stamp, holder := false, phase := 1, at_ := s.clock.tb } } }
    else s
  | .segment => s

theorem State.roleComes_kept (role : SwapRole) (peer : BitVec 12) (stamp : BitVec 48) :
    (s.roleComes role peer stamp).fab.swap = s.fab.swap ∧ (s.roleComes role peer stamp).pols = s.pols ∧
      (s.roleComes role peer stamp).waitsCarry .sysReset = s.waitsCarry .sysReset := by
  unfold State.roleComes
  cases role with
  | segment => exact ⟨rfl, rfl, rfl⟩
  | fabric =>
    dsimp only
    split <;> exact ⟨rfl, rfl, rfl⟩

section
variable {w : SwapPending} (hp : s.portTakes f.port = true) (hr : s.noResetWaits = true) (hf : f.heard = some h) (hk : h.kind = 5)
  (hm : s.macOk h = true) (hn : s.frameForNode h = true) (hrole : h.payload.getD 1 0 = (if w.role = .segment then 1 else 2))
  (hs : s.fab.swap = some w) (hpeer : w.peer = h.src)
include hp hr hf hk hm hn hrole hs hpeer

/-- SWAP_NOT ends the request (R535). -/
theorem swapNot_refuses (hb : h.payload.getD 0 0 = 6) (hst : h.value = stamp48 w.stamp) :
    exec (.swapNot f) s = .next ((s.serviceTaken h).swapEnded { status := .notPermitted, effectFrame := none, results := [] }) := by
  have hname := State.serviceTaken_named hs hpeer hst
  refine congrArg Host.Outcome.next ((State.swapService_takes hp hr hf hk hb hm hn hrole fun hw => ?_).trans ?_)
  · rw [hname]
    exact hw
  · rw [hname]
    rfl

/-- SWAP_READY where neither end holds the role ends the request (R535). -/
theorem swapReady_refuses (hb : h.payload.getD 0 0 = 5) (hst : h.value = stamp48 w.stamp) (hno : s.holdsRole w.role = false) (hh : s.fab.handover = none) :
    exec (.swapReady f) s = .next ((s.serviceTaken h).swapEnded { status := .notPermitted, effectFrame := none, results := [] }) := by
  have hname := State.serviceTaken_named hs hpeer hst
  have hfree := State.serviceTaken_free (h := h) hh
  have hhold : (s.serviceTaken h).holdsRole w.role = false := (HeaderKept.serviceTaken.holdsRole _).trans hno
  refine congrArg Host.Outcome.next ((State.swapService_takes hp hr hf hk hb hm hn hrole fun hw => ?_).trans ?_)
  · rw [hname, hfree, hhold]
    exact hw
  · rw [hname, hfree, hhold]
    rfl

/-- SWAP_READY where this node holds the role begins the handover (R535, R538, R539). -/
theorem swapReady_hands (hb : h.payload.getD 0 0 = 5) (hst : h.value = stamp48 w.stamp) (hyes : s.holdsRole w.role = true) (hh : s.fab.handover = none) :
    exec (.swapReady f) s = .next ((s.serviceTaken h).swapAnswered.startHandover w.role w.peer h.value) := by
  have hname := State.serviceTaken_named hs hpeer hst
  have hfree := State.serviceTaken_free (h := h) hh
  have hhold : (s.serviceTaken h).holdsRole w.role = true := (HeaderKept.serviceTaken.holdsRole _).trans hyes
  refine congrArg Host.Outcome.next ((State.swapService_takes hp hr hf hk hb hm hn hrole fun hw => ?_).trans ?_)
  · rw [hname, hfree, hhold]
    exact (State.startHandover_only ..).resets.resolve_left Bool.false_ne_true hw
  · rw [hname, hfree, hhold]
    rfl

/-- What SWAP_DONE answers the node's own request with: OK where it stood, else SWAP_CROSSED (R445, R446). -/
def State.doneAnswer (s : State) (w : SwapPending) (stood : BitVec 48) : Answer :=
  { status := if (stamp48 w.stamp == stood) = true then .ok else .swapCrossed, effectFrame := none,
    results := w.stamp.bytes ++ (if (stamp48 w.stamp == stood) = true then s.clock.tb else rebuildStamp s.clock.tb stood).bytes }

/-- SWAP_DONE ends the request (R445, R535, R539). -/
theorem swapDone_ends (hb : h.payload.getD 0 0 = 7) (hh : s.fab.handover = none) :
    exec (.swapDone f) s = .next (((s.serviceTaken h).swapEnded (s.doneAnswer w h.value)).roleComes w.role h.src h.value) := by
  obtain ⟨kswap, -, khand, -⟩ := HeaderKept.swaps (s := s) (HeaderKept.serviceTaken (h := h))
  have hclock := (State.serviceTaken_rest hn).2
  have hparty : ((s.serviceTaken h).fab.swap.any (fun x => decide (x.role = w.role) && x.peer == h.src) ||
      (s.serviceTaken h).fab.handover.any (fun x => decide (x.role = w.role) && x.peer == h.src && !x.holder)) = true := by
    rw [kswap, hs, Option.any_some, decide_eq_true rfl, hpeer, beq_self_eq_true]
    rfl
  have hend := State.finishSwap_own (s := s.serviceTaken h) (stood := h.value) (change := (s.serviceTaken h).changeTime) (kswap.trans hs) rfl hpeer
  rw [State.changeTime_idle (khand.trans hh), hclock] at hend
  refine congrArg Host.Outcome.next ((State.swapService_takes hp hr hf hk hb hm hn hrole fun hw => ?_).trans ?_)
  · rw [if_neg (by rw [hparty]; exact Bool.false_ne_true)]
    change (((s.serviceTaken h).finishSwap w.role h.src h.value (s.serviceTaken h).changeTime).roleComes w.role h.src h.value).waitsCarry .sysReset = false
    rw [(State.roleComes_kept ..).2.2]
    exact (State.finishSwap_only ..).resets.resolve_left Bool.false_ne_true hw
  · rw [if_neg (by rw [hparty]; exact Bool.false_ne_true)]
    change ((s.serviceTaken h).finishSwap w.role h.src h.value (s.serviceTaken h).changeTime).roleComes w.role h.src h.value = _
    rw [State.changeTime_idle (khand.trans hh), hclock, hend]
    rfl

end

/-- A request that has no outcome in time is answered TIMEOUT (R445, R535). -/
theorem roleSwapTimeout_ends {w : SwapPending} (hs : s.fab.swap = some w) :
    exec .roleSwapTimeout s = .next (s.swapEnded { status := .timeout, effectFrame := none, results := w.stamp.bytes }) := by
  show execRoleSwapTimeout s = _
  unfold execRoleSwapTimeout
  rw [hs]
  rfl

/-- Every service frame but a request for an echo, forged. -/
theorem service_row_forged {x : Instr} (hp : s.portTakes f.port = true) (hr : s.noResetWaits = true) (hf : f.heard = some h) (hk : h.kind = 5)
    (hkey : s.fab.keyId ≠ 0) (hm : s.macOk h = false)
    (hx : (x, h.payload.getD 0 0) ∈ [(Instr.rangeEcho f, (3 : Byte)), (Instr.swapReq f, 4), (Instr.swapReady f, 5), (Instr.swapNot f, 6), (Instr.swapDone f, 7)]) :
    exec x s = .next ((s.headerTaken h).countPort h.port 13) := by
  have hrow : ∀ {k : Byte}, h.payload.getD 0 0 = k → ∀ act, Host.Outcome.next (s.service f k.toNat act) =
      (.next ((s.headerTaken h).countPort h.port 13) : Host.Outcome State Fault Refusal) :=
    fun hb act => congrArg Host.Outcome.next (State.service_forged hp hr hf hk hb hkey hm)
  simp only [List.mem_cons, Prod.mk.injEq, List.not_mem_nil, or_false] at hx
  rcases hx with ⟨rfl, hb⟩ | ⟨rfl, hb⟩ | ⟨rfl, hb⟩ | ⟨rfl, hb⟩ | ⟨rfl, hb⟩ <;> exact hrow hb _

/-- Settles O53: ranging, requests for a role, their answers, and their end. -/
theorem rangingAndSwaps : Obligations.RangingAndSwaps := by
  unfold Obligations.RangingAndSwaps
  refine ⟨?_, fun s p => rangeReqTimer_asks, fun s f h x => service_row_forged, ?_, ?_, ?_, ?_⟩
  · intro s f h trip hp hr hf hk hm hn a
    exact ⟨rangeReq_echoes hp hr hf hk hm hn, rangeEcho_ranges hp hr hf hk hm hn⟩
  · intro s f h role hp hr hf hk hm hn hb hrole hs hd stamp a
    have hserve := swapReq_serves hp hr hf hk hm hn hb hrole hs hd
    have kept := HeaderKept.serviceTaken (s := s) (h := h)
    have hclock := (State.serviceTaken_rest hn).2
    refine ⟨fun hno => ?_, fun hyes hh => ?_⟩
    · rw [hserve, State.serveSwap_other ((kept.holdsRole role).trans hno), State.answerSwap_eq kept hclock]
      rfl
    · rw [State.serveSwap_holder ((kept.holdsRole role).trans hyes) (kept.swaps.2.2.1.trans hh)] at hserve
      obtain ⟨hhand, hdone, hrole'⟩ := State.startHandover_fab (s := s.serviceTaken h) (role := role) (peer := h.src) (stamp := h.value)
      exact ⟨_, _, hserve, hhand, rfl, rfl, rfl, rfl, rfl, hdone, hrole'.trans kept.role⟩
  · intro s f h w v hp hr hf hk hm hn hrole hs hpeer hv hrule stamp
    have hv' : ((s.serviceTaken h).pol owner).serving = some v := by
      rw [pol_congr (State.serviceTaken_rest hn).1]
      exact hv
    have hended : ∀ a, ((s.serviceTaken h).swapEnded a).fab.swap = none ∧ _ := fun a => State.swapEnded_answers (a := a) hv' hrule
    refine ⟨fun hb hst => ?_, fun hb hst hh => ?_, fun hb hst hh => ?_, fun hb hst hno hh => ?_⟩
    · exact ⟨_, swapNot_refuses hp hr hf hk hm hn hrole hs hpeer hb hst, hended _⟩
    · obtain ⟨hswap, hpols, -⟩ := State.roleComes_kept (s := (s.serviceTaken h).swapEnded (s.doneAnswer w h.value)) w.role h.src h.value
      have hsame : (stamp48 w.stamp == h.value) = true := beq_iff_eq.mpr hst.symm
      refine ⟨_, swapDone_ends hp hr hf hk hm hn hrole hs hpeer hb hh, hswap.trans (hended _).1, ?_⟩
      rw [pol_congr hpols, (hended _).2]
      unfold State.doneAnswer
      rw [if_pos hsame, if_pos hsame]
    · obtain ⟨hswap, hpols, -⟩ := State.roleComes_kept (s := (s.serviceTaken h).swapEnded (s.doneAnswer w h.value)) w.role h.src h.value
      have hother : ¬ (stamp48 w.stamp == h.value) = true := fun he => hst (beq_iff_eq.mp he).symm
      refine ⟨_, swapDone_ends hp hr hf hk hm hn hrole hs hpeer hb hh, hswap.trans (hended _).1, s.doneAnswer w h.value, ?_, if_neg hother⟩
      rw [pol_congr hpols, (hended _).2]
    · exact ⟨_, swapReady_refuses hp hr hf hk hm hn hrole hs hpeer hb hst hno hh, hended _⟩
  · intro s f h w hp hr hf hk hm hn hb hrole hst hs hpeer hyes hh
    obtain ⟨hhand, -, -⟩ := State.startHandover_fab (s := (s.serviceTaken h).swapAnswered) (role := w.role) (peer := w.peer) (stamp := h.value)
    exact ⟨_, _, swapReady_hands hp hr hf hk hm hn hrole hs hpeer hb hst hyes hh, hhand, rfl, rfl, hpeer⟩
  · intro s w hs
    exact ⟨_, roleSwapTimeout_ends hs, rfl, fun v hv hrule => (State.swapEnded_answers hv hrule).2, rfl⟩

end Sys2Proof.Machine
end
